-- ==== Sys2Proof/Word.lean ====
section
/-! DEFINITION. The word types of the Kenlum module and their plainest arithmetic (00_scope.md, Conventions: multi-byte
values in memory, instructions and records are little-endian). -/
namespace Sys2Proof

/-- One byte of a memory, a buffer or a record. -/
abbrev Byte := BitVec 8
/-- One 32-bit register of the control-register window. -/
abbrev Word := BitVec 32
/-- A 64-bit general register, tick value or instruction word. -/
abbrev DWord := BitVec 64
/-- The 128 payload bytes of a flit (R40), byte 0 in bits [7:0]. -/
abbrev Payload := BitVec 1024

/-- Bits [lo + width - 1 : lo] of a number. -/
def bits (v lo width : Nat) : Nat := v / 2 ^ lo % 2 ^ width

/-- Bit `i` of a number. -/
def bitOf (v i : Nat) : Bool := v / 2 ^ i % 2 == 1

/-- The number with bits [lo + width - 1 : lo] replaced by the low `width` bits of `x`. -/
def withBits (v lo width x : Nat) : Nat :=
  v / 2 ^ (lo + width) * 2 ^ (lo + width) + x % 2 ^ width * 2 ^ lo + v % 2 ^ lo

/-- A truth value as the number 0 or 1. -/
def ofBool (b : Bool) : Nat := if b then 1 else 0

/-- The little-endian value of a list of bytes. -/
def leNat : List Byte → Nat
  | [] => 0
  | b :: bs => b.toNat + 256 * leNat bs

/-- The `n` little-endian bytes of a number. -/
def natLE : Nat → Nat → List Byte
  | 0, _ => []
  | n + 1, v => BitVec.ofNat 8 v :: natLE n (v / 256)

/-- A number of `n` bits read as a two's-complement integer. -/
def toSigned (n v : Nat) : Int :=
  if v % 2 ^ n < 2 ^ (n - 1) then (v % 2 ^ n : Nat) else (v % 2 ^ n : Nat) - (2 ^ n : Nat)

/-- An integer as the `n`-bit two's-complement number. -/
def ofSigned (n : Nat) (i : Int) : Nat := (i % (2 ^ n : Nat)).toNat

/-- ⌈a / b⌉, with 0 for b = 0. -/
def ceilDiv (a b : Nat) : Nat := (a + b - 1) / b

/-- A number no larger than `hi`: a saturating count. -/
def satAt (hi v : Nat) : Nat := if v ≤ hi then v else hi

@[simp] theorem natLE_length (n v : Nat) : (natLE n v).length = n := by
  induction n generalizing v with
  | zero => rfl
  | succ n ih => simp [natLE, ih]

end Sys2Proof
end

