-- ==== Sys2Proof/Events.lean ====
section
/-! DEFINITION. The types of the commands' operands: who sends a command, and what the surroundings, the timing and the
hardware's defects contribute to it where the spec leaves these outside the block. -/
namespace Sys2Proof

/-- Who reads or writes through a window (R24, R181, R182). -/
inductive Master where
  | firmware
  | security
  | rackManager
  | host (fn : Fin 64)
deriving DecidableEq, Repr

/-- What the SEC-DED check of one stored word finds when it is read (R87). -/
inductive Ecc where
  | clean
  | corrected
  | uncorrectable
deriving DecidableEq, Repr

/-- The KIND of a flit (Table 03-1). -/
inductive FlitKind where
  | data
  | dataEnd
  | empty
  | quench
deriving DecidableEq, Repr

/-- What the switch's ECC check of one flit finds (R58): the quarters corrected, those with an uncorrectable error, and the bits in error
of these, which are delivered as read. -/
structure FlitEcc where
  corrected : BitVec 4
  bad : BitVec 4
  flips : Payload
deriving DecidableEq, Repr

/-- No quarter is in error. -/
def FlitEcc.clean : FlitEcc := ⟨0, 0, 0⟩

/-- What the ECC checks of the reads of one unit or access find (R122, R127, R173, R202): words corrected, words with an uncorrectable error,
and the bits in error of these by the place of the byte, which is used as read. A unit counts places in its tile's local store, the
active weight set from 0x1000000 on and the shadow set from 0x2000000 on; an access counts them from its first byte. -/
structure ReadEcc where
  ce : Nat
  ue : Nat
  flips : List (Nat × Byte)
deriving DecidableEq, Repr

/-- No word is in error. -/
def ReadEcc.clean : ReadEcc := ⟨0, 0, []⟩

/-- What the fetch of a PEEK finds: the check of its word (R87), and that of the flit it reads (R58). -/
structure PeekFetch where
  word : Ecc
  flit : FlitEcc
deriving DecidableEq, Repr

/-- One read, write or atomic on an address window. -/
inductive AccessOp where
  | read (len : Nat)
  | write (data : List Byte)
  | atomicAdd (v : DWord)
  | atomicAnd (v : DWord)
  | atomicOr (v : DWord)
  | atomicSwap (v : DWord)
  | atomicCas (cmp new : DWord)
deriving DecidableEq, Repr

/-- How an access to a partner or a copy from a tier ended (R188, R191, R446). -/
inductive EndKind where
  | ok
  | poison
  | tier
deriving DecidableEq, Repr

/-- A Lipin frame (Tables 13-3 and 13-4) after its FEC and CRC are taken off. -/
structure Frame where
  vc : Nat
  type : Nat
  seq : Nat
  ack : Nat
  cvc : Nat
  ccnt : Nat
  payload : List Byte
deriving DecidableEq, Repr

/-- What a receiving port's FEC and CRC make of a frame (R309). -/
inductive FrameCheck where
  | good
  | fecCorrected
  | failed (idle : Bool)
deriving DecidableEq, Repr

/-- What an enabling or retraining ends in (R377, R307, R310). -/
inductive TrainResult where
  | trained (width rate : Nat) (latOpt : Bool)
  | failed
deriving DecidableEq, Repr

/-- A token that a step emitted for a request, as the job's sampling and stop check left it (R363, R364). -/
structure Emitted where
  token : Word
  prob : Word
deriving DecidableEq, Repr

/-- What the job's results say of one request of a step (R363 to R365). -/
structure StepResult where
  slot : Nat
  emitted : List Emitted
  release : Nat
  reason : Nat
  noCandidate : Bool
deriving DecidableEq, Repr

/-- Who reaches a Billet bank through the mover port (R155, R156). -/
inductive Requester where
  | master (m : Master)
  | mover (m : Fin 64)
deriving DecidableEq, Repr

/-- What the surroundings of one unit of work contribute to it: the a-cycles it lasted and those it waited for a weight block or
for a bank, the outcome of the ECC checks of its reads and of the flit it takes, the banks of which a march's read mismatched, and
what bytes of the local store hold for it that another engine's instruction in flight writes too (R63). -/
structure UnitEnv where
  cycles : Nat
  waited : Nat
  ecc : ReadEcc
  flit : FlitEcc
  mismatch : BitVec 48
  overlap : List (Nat × Byte)
deriving DecidableEq, Repr

/-- Nothing of note befalls the unit. -/
def UnitEnv.quiet : UnitEnv := ⟨0, 0, .clean, .clean, 0, []⟩

/-- How a mover's oldest unit fares as it is tried: what the ECC checks of its reads of stacks, Hearth lines and local stores find, in the order
in which it makes them (R122, R127, R173, R202, R205), and those of the flits it takes (R58). Where a list ends, nothing more is found. -/
structure MoverEnd where
  reads : List ReadEcc
  flits : List FlitEcc
deriving DecidableEq, Repr

/-- Nothing of note befalls a mover's unit. -/
def MoverEnd.quiet : MoverEnd := ⟨[], []⟩

/-- A stream of a bay whose release flit is read, and what the check of that flit finds (R58, R227). -/
structure ReleaseRead where
  stream : Fin 16
  flit : FlitEcc
deriving DecidableEq, Repr

/-- A block that follows the enable and disable rule of R377 and has no completion command of its own. -/
inductive EnBlock where
  | partition (p : Fin 12)
  | stack (b : Fin 12)
  | warm (n : Fin 8)
  | cold (n : Fin 2)
  | banking
deriving DecidableEq, Repr

/-- How the work of an ENABLING or DISABLING ended (R377): done, with the link a port trained and the capacity it discovered
(R439, R444), or failed. -/
inductive WorkEnd where
  | done (width rate : Nat) (latOpt : Bool) (mib : Nat)
  | failed
deriving DecidableEq, Repr

/-- A watch line of a log (R351, R441): its TAIL line or its OUT_HEAD line. -/
structure WatchLine where
  log : Fin 64
  outHead : Bool
deriving DecidableEq, Repr

end Sys2Proof
end

