-- ==== Sys2Proof/Syntax.lean ====
section
/-! DEFINITION. The commands the block takes, one constructor for each row of spec/opcode_table.json. A command's operands hold
what comes from outside the block: who sends it, the value written, and what the timing, the surroundings or a defect contribute. -/
namespace Sys2Proof

/-- A command. The rows of tile programs carry the tile whose sequencer acts and what the fetch of its instruction word finds (R87). -/
inductive Instr where
  -- Power and reset (20_reset_and_bringup.md)
  /-- INPUT_POWER_RESET, R451: `blown` is how many bits a fuse command in progress had blown (R428). -/
  | inputPowerReset (blown : Nat)
  /-- POWER_UP, R456: the pins at the rise, which stacks train, and the failing rows the start-up march finds. -/
  | powerUp (slot : BitVec 2) (board : BitVec 6) (trained : BitVec 12) (failing : List (Fin 240 × Fin 48 × List Nat))
  /-- PERST, R453. -/
  | perst
  /-- WARM_RESET, R454. -/
  | warmReset
  /-- GET_READY, R458. -/
  | getReady
  /-- FUNCTION_LEVEL_RESET, R455. -/
  | functionLevelReset (fn : Fin 64)
  -- Rack time (02_strike_rack_time.md) and the identity registers (01_kenlum_module.md)
  /-- TICK, R25. -/
  | tick
  /-- STRIKE_EDGE, R29. -/
  | strikeEdge
  /-- MISSED_BOUNDARY, R29. -/
  | missedBoundary
  /-- ANOMALY_PERIOD_ROLL, R30. -/
  | anomalyPeriodRoll
  /-- TIME_ARM, R27. -/
  | timeArm (m : Master) (v : Word)
  /-- REFERENCE_LOST, R31. -/
  | referenceLost
  /-- REFERENCE_RETURN, R31. -/
  | referenceReturn
  /-- SLOT_CHECK, R22. -/
  | slotCheck (slot : BitVec 2) (board : BitVec 6)
  /-- DEV_LOCK, R23. -/
  | devLock (m : Master) (v : Word)
  /-- REGISTER_WRITE, R20. -/
  | registerWrite (m : Master) (off : Nat) (v : Word)
  -- The grid (03_grid_and_queues.md)
  /-- FLIT_GRANT, R42. -/
  | flitGrant (t : Fin 240) (out : Fin 4) (ecc : FlitEcc)
  /-- FLIT_ARRIVAL, R44. -/
  | flitArrival (t : Fin 240) (port : Fin 4) (ecc : FlitEcc)
  /-- CREDIT_RETURN, R51. -/
  | creditReturn (t : Fin 240) (out : Fin 4)
  /-- DEADLOCK_DETECT, R54. -/
  | deadlockDetect (p : Fin 12)
  /-- GRD_LINK_WRITE, R59. -/
  | grdLinkWrite (m : Master) (t : Fin 240) (link : Bool) (v : Word)
  -- Tile programs (04_tile_programs.md)
  /-- NOP, R61. -/
  | nop (t : Fin 240) (fetch : Ecc)
  /-- MOV_REGISTER, R70. -/
  | movRegister (t : Fin 240) (fetch : Ecc)
  /-- MOV_IMMEDIATE, R70. -/
  | movImmediate (t : Fin 240) (fetch : Ecc)
  /-- ADD_REGISTER, R70. -/
  | addRegister (t : Fin 240) (fetch : Ecc)
  /-- ADD_IMMEDIATE, R70. -/
  | addImmediate (t : Fin 240) (fetch : Ecc)
  /-- SUB_REGISTER, R70. -/
  | subRegister (t : Fin 240) (fetch : Ecc)
  /-- SUB_IMMEDIATE, R70. -/
  | subImmediate (t : Fin 240) (fetch : Ecc)
  /-- AND_REGISTER, R70. -/
  | andRegister (t : Fin 240) (fetch : Ecc)
  /-- AND_IMMEDIATE, R70. -/
  | andImmediate (t : Fin 240) (fetch : Ecc)
  /-- OR_REGISTER, R70. -/
  | orRegister (t : Fin 240) (fetch : Ecc)
  /-- OR_IMMEDIATE, R70. -/
  | orImmediate (t : Fin 240) (fetch : Ecc)
  /-- SHL_REGISTER, R70. -/
  | shlRegister (t : Fin 240) (fetch : Ecc)
  /-- SHL_IMMEDIATE, R70. -/
  | shlImmediate (t : Fin 240) (fetch : Ecc)
  /-- SHR_REGISTER, R70. -/
  | shrRegister (t : Fin 240) (fetch : Ecc)
  /-- SHR_IMMEDIATE, R70. -/
  | shrImmediate (t : Fin 240) (fetch : Ecc)
  /-- CMP_REGISTER, R71. -/
  | cmpRegister (t : Fin 240) (fetch : Ecc)
  /-- CMP_IMMEDIATE, R71. -/
  | cmpImmediate (t : Fin 240) (fetch : Ecc)
  /-- BR, R72. -/
  | br (t : Fin 240) (fetch : Ecc)
  /-- LOOP, R73. -/
  | loop (t : Fin 240) (fetch : Ecc)
  /-- ENDL, R73. -/
  | endl (t : Fin 240) (fetch : Ecc)
  /-- RECV, R76. -/
  | recv (t : Fin 240) (fetch : Ecc)
  /-- SEND, R77. -/
  | send (t : Fin 240) (fetch : Ecc)
  /-- PEEK, R78. -/
  | peek (t : Fin 240) (fetch : PeekFetch)
  /-- SHAPE, R80. -/
  | shape (t : Fin 240) (fetch : Ecc)
  /-- FENCE, R81. -/
  | fence (t : Fin 240) (fetch : Ecc)
  /-- QUENCH, R82. -/
  | quench (t : Fin 240) (fetch : Ecc)
  /-- HALT, R84. -/
  | halt (t : Fin 240) (fetch : Ecc)
  /-- ENGINE_UNIT, R88. -/
  | engineUnit (t : Fin 240) (e : Fin 4) (env : UnitEnv)
  -- The Anvil and Temper tiles (05_anvil_tile.md, 06_temper_tile.md)
  /-- WLD, R108. -/
  | wld (t : Fin 240) (fetch : Ecc)
  /-- WSWAP, R109. -/
  | wswap (t : Fin 240) (fetch : Ecc)
  /-- MMA, R110. -/
  | mma (t : Fin 240) (fetch : Ecc)
  /-- DRAIN, R115. -/
  | drain (t : Fin 240) (fetch : Ecc)
  /-- FN, R131. -/
  | fn (t : Fin 240) (fetch : Ecc)
  /-- SMAX, R133. -/
  | smax (t : Fin 240) (fetch : Ecc)
  /-- ROPE, R134. -/
  | rope (t : Fin 240) (fetch : Ecc)
  /-- TOPK, R135. -/
  | topk (t : Fin 240) (fetch : Ecc)
  /-- SAMPLE, R140. -/
  | sample (t : Fin 240) (fetch : Ecc)
  /-- STOPCHK, R142. -/
  | stopchk (t : Fin 240) (fetch : Ecc)
  /-- RNG, R138. -/
  | rng (t : Fin 240) (fetch : Ecc)
  -- Billet tiles (07_billet_tiles.md)
  /-- BRD, R163. -/
  | brd (t : Fin 240) (fetch : Ecc)
  /-- BWR, R163. -/
  | bwr (t : Fin 240) (fetch : Ecc)
  /-- BGATH, R164. -/
  | bgath (t : Fin 240) (fetch : Ecc)
  /-- BSCAT, R165. -/
  | bscat (t : Fin 240) (fetch : Ecc)
  /-- MARCH, R168. -/
  | march (t : Fin 240) (fetch : Ecc)
  /-- BIL_MARCH_START, R171. -/
  | bilMarchStart (m : Master) (t : Fin 240) (v : Word)
  /-- BIL_OWN_BULK, R174. -/
  | bilOwnBulk (m : Master) (t : Fin 240) (v : Word)
  /-- HANDOVER, R157. -/
  | handover (m : Master) (t : Fin 240) (bank : Fin 48) (v : Word)
  /-- MOVER_PORT_ACCESS, R156. -/
  | moverPortAccess (r : Requester) (t : Fin 240) (a : Nat) (op : AccessOp) (ecc : ReadEcc)
  /-- SRAM_WINDOW_ACCESS, R181. -/
  | sramWindowAccess (m : Master) (off : Nat) (op : AccessOp) (ecc : ReadEcc)
  -- Mover commands and movers (09_tiers_and_movers.md, 10_expert_routing.md, 11_attention_and_kv.md)
  /-- COPY, R216. -/
  | copy (t : Fin 240) (fetch : Ecc)
  /-- INGOT, R224. -/
  | ingot (t : Fin 240) (fetch : Ecc)
  /-- DIAG, R217. -/
  | diag (t : Fin 240) (fetch : Ecc)
  /-- GATHER, R216. -/
  | gather (t : Fin 240) (fetch : Ecc)
  /-- SCATTER, R216. -/
  | scatter (t : Fin 240) (fetch : Ecc)
  /-- KV, R273. -/
  | kv (t : Fin 240) (fetch : Ecc)
  /-- COLL, R321. -/
  | coll (t : Fin 240) (fetch : Ecc)
  /-- WARM, R219. -/
  | warm (t : Fin 240) (fetch : Ecc)
  /-- CANCEL_ENTRIES, R219. -/
  | cancelEntries (t : Fin 240) (fetch : Ecc)
  /-- STOP_STREAM, R219. -/
  | stopStream (t : Fin 240) (fetch : Ecc)
  /-- START_STREAM, R219. -/
  | startStream (t : Fin 240) (fetch : Ecc)
  /-- PERM, R244. -/
  | perm (t : Fin 240) (fetch : Ecc)
  /-- UNPERM, R252. -/
  | unperm (t : Fin 240) (fetch : Ecc)
  /-- APPEND, R270. -/
  | append (t : Fin 240) (fetch : Ecc)
  /-- BCAST, R220. -/
  | bcast (t : Fin 240) (fetch : Ecc)
  /-- MOVER_UNIT_START, R209. -/
  | moverUnitStart (mv : Fin 64)
  /-- MOVER_UNIT_COMPLETE, R197. -/
  | moverUnitComplete (mv : Fin 64) (res : MoverEnd)
  /-- ZERO_COUNT_COMMAND, R218. -/
  | zeroCountCommand (mv : Fin 64)
  /-- STREAM_ENTRY_START, R229. -/
  | streamEntryStart (bay : Fin 12)
  /-- STREAM_RELEASE, R227. -/
  | streamRelease (bay : Fin 12) (stream : ReleaseRead)
  /-- IORING_DESCRIPTOR, R232. -/
  | ioringDescriptor (mv : Fin 16)
  /-- RING_KICK, R232. -/
  | ringKick (m : Master) (v : Word)
  -- Translation and experts (08_address_space.md, 10_expert_routing.md)
  /-- TRANSLATION_WALK, R186. -/
  | translationWalk
  /-- DEMAND_FETCH_COMPLETE, R189. -/
  | demandFetchComplete (i : Nat) (res : EndKind)
  /-- XLT_KICK, R190. -/
  | xltKick (m : Master) (v : Word)
  /-- INVALIDATE_ALL, R187. -/
  | invalidateAll (m : Master) (v : Word)
  /-- INVALIDATE_PARTITION, R187. -/
  | invalidatePartition (m : Master) (v : Word)
  /-- INVALIDATE_RANGE, R187. -/
  | invalidateRange (m : Master) (v : Word)
  /-- INVALIDATION_COMPLETE, R187. -/
  | invalidationComplete
  /-- HEARTH_FILL, R203. -/
  | hearthFill (bay : Fin 12) (ecc : ReadEcc)
  /-- RESIDENCY_LOOKUP, R256. -/
  | residencyLookup
  /-- RESIDENCY_CLOSE, R256. -/
  | residencyClose (i : Nat)
  /-- SHAPE_OVERRUN_RECOVERY, R260. -/
  | shapeOverrunRecovery (p : Fin 12)
  -- Configurations and weight sets (12_configurations_and_weight_sets.md)
  /-- LOAD, R287. -/
  | load (m : Master) (p : Fin 12) (v : Word)
  /-- LOAD_COMPLETE, R288. -/
  | loadComplete (res : EndKind)
  /-- ARM, R293. -/
  | arm (m : Master) (p : Fin 12) (v : Word)
  /-- CONFIGURATION_SWAP, R294. -/
  | configurationSwap (p : Fin 12)
  /-- ING_POST, R290. -/
  | ingPost (m : Master) (p : Fin 12) (v : Word)
  /-- INGRESS_DELIVERY, R290. -/
  | ingressDelivery (p : Fin 12) (ch : Fin 8)
  /-- DRAIN_TIMEOUT, R295. -/
  | drainTimeout (p : Fin 12)
  /-- CAPTURE, R299. -/
  | capture (m : Master) (v : Word)
  /-- RELEASE, R299. -/
  | release (m : Master) (v : Word)
  /-- SWITCH, R299. -/
  | switch (m : Master) (v : Word)
  /-- FILL, R301. -/
  | fill (m : Master) (v : Word)
  /-- FILL_COMPLETE, R301. -/
  | fillComplete
  -- Lipin links (13_lipin_mesh.md)
  /-- FRAME_RECEIVE, R309. -/
  | frameReceive (n : Fin 5) (chk : FrameCheck) (f : Frame)
  /-- NAK, R309. -/
  | nak (n : Fin 5) (f : Frame)
  /-- REPLAY_TIMEOUT, R309. -/
  | replayTimeout (n : Fin 5)
  /-- RETRAIN, R310. -/
  | retrain (n : Fin 5) (res : TrainResult)
  /-- MSH_PORT_ENABLE, R311. -/
  | mshPortEnable (m : Master) (n : Fin 5) (v : Word)
  /-- MSH_PORT_DISABLE, R311. -/
  | mshPortDisable (m : Master) (n : Fin 5) (v : Word)
  /-- PORT_TRAINED, R307. -/
  | portTrained (n : Fin 5) (res : TrainResult)
  /-- PORT_DISABLE_COMPLETE, R311. -/
  | portDisableComplete (n : Fin 5)
  /-- LOADSTORE_REQUEST, R318. -/
  | loadstoreRequest (n : Fin 5)
  /-- LOADSTORE_RESPONSE, R318. -/
  | loadstoreResponse (n : Fin 5)
  /-- LOADSTORE_TIMEOUT, R318. -/
  | loadstoreTimeout (tag : Nat)
  /-- MSG_KICK, R319. -/
  | msgKick (m : Master) (v : Word)
  /-- MESSAGE_RECEIVE, R319. -/
  | messageReceive (n : Fin 5) (ch : Fin 4)
  /-- COLLECTIVE_CONTRIBUTION, R327. -/
  | collectiveContribution (n : Fin 5) (vc : Fin 8)
  /-- COLLECTIVE_COMPLETE, R323. -/
  | collectiveComplete (i : Nat)
  /-- COLL_TIMEOUT, R324. -/
  | collTimeout (i : Nat)
  /-- ABORT, R326. -/
  | abort (m : Master) (p : Fin 12) (v : Word)
  /-- BCAST_RECEIVE, R328. -/
  | bcastReceive (n : Fin 5)
  -- Power (14_power_and_thermal.md)
  /-- CAP_WRITE, R337. -/
  | capWrite (m : Master) (v : Word)
  /-- PWR_LOCK, R348. -/
  | pwrLock (m : Master) (v : Word)
  /-- MSH_LOCK, R23. -/
  | mshLock (m : Master) (v : Word)
  /-- CXL_LOCK, R23. -/
  | cxlLock (m : Master) (v : Word)
  /-- POWER_STEP, R334. -/
  | powerStep
  /-- LEASE_LAPSE, R340. -/
  | leaseLapse
  /-- ALERT_ASSERT, R340. -/
  | alertAssert
  /-- ALERT_RELEASE, R340. -/
  | alertRelease
  /-- POWER_SAMPLE, R333. -/
  | powerSample (millivolts tenMilliamps : BitVec 16)
  /-- TEMPERATURE_SAMPLE, R343. -/
  | temperatureSample (eighths : List (BitVec 16))
  /-- THERMTRIP, R345. -/
  | thermtrip (sensor : Fin 26) (eighths : BitVec 16)
  /-- BANK_ENABLE, R342. -/
  | bankEnable (m : Master) (v : Word)
  /-- BANK_DISABLE, R342. -/
  | bankDisable (m : Master) (v : Word)
  -- Requests (15_request_lifecycle.md, 19_cxl_ports.md)
  /-- WATCH_LINE_SNOOP, R441. -/
  | watchLineSnoop (l : WatchLine)
  /-- WATCH_LINE_FILL, R351. -/
  | watchLineFill (l : WatchLine) (index : Word)
  /-- SUBMIT, R355. -/
  | submit (log : Fin 64) (desc : List Byte) (prompt : List Word) (stop : List Byte) (res : EndKind)
  /-- CANCEL, R356. -/
  | cancel (log : Fin 64) (desc : List Byte)
  /-- LOG_RELEASE, R352. -/
  | logRelease (m : Master) (log : Fin 64) (v : Word)
  /-- STEP_ADMISSION, R362. -/
  | stepAdmission (p : Fin 12)
  /-- REQUEST_DEADLINE_CHECK, R364. -/
  | requestDeadlineCheck
  /-- STEP_END, R411. -/
  | stepEnd (p : Fin 12) (n : BitVec 48)
  /-- VERDICT_RECEIVE, R413. -/
  | verdictReceive (group : Fin 64) (member : Fin 64) (body : List Byte)
  /-- VERDICT_WINDOW_EXPIRY, R413. -/
  | verdictWindowExpiry (p : Fin 12)
  /-- VERDICT_GOOD_DECISION, R413. -/
  | verdictGoodDecision (p : Fin 12) (results : List StepResult)
  /-- COMMIT_RECORD_ACK, R366. -/
  | commitRecordAck (p : Fin 12)
  /-- TAIL_WORD_ACK, R366. -/
  | tailWordAck (p : Fin 12)
  /-- JOURNAL_MIRROR_LOSS, R369. -/
  | journalMirrorLoss (hostWritable : Bool)
  /-- JOURNAL_MIRROR_RESTORE, R369. -/
  | journalMirrorRestore
  /-- RECOVERY, R370. -/
  | recovery
  /-- JOURNAL_FETCH, R371. -/
  | journalFetch (source : Fin 64)
  /-- JOURNAL_DONE, R371. -/
  | journalDone (source : Fin 64)
  /-- BUDGET_WINDOW_ROLL, R367. -/
  | budgetWindowRoll
  -- Partitions (16_partitions_and_preemption.md)
  /-- PARTITION_ENABLE, R378. -/
  | partitionEnable (m : Master) (p : Fin 12) (v : Word)
  /-- PARTITION_DISABLE, R379. -/
  | partitionDisable (m : Master) (p : Fin 12) (v : Word)
  /-- PARTITION_STATE_DONE, R377. -/
  | partitionStateDone (b : EnBlock) (w : WorkEnd)
  /-- PREEMPT, R385. -/
  | preempt (m : Master) (p : Fin 12) (v : Word)
  /-- PARTITION_RESET, R395. -/
  | partitionReset (m : Master) (p : Fin 12) (v : Word)
  /-- PARTITION_RELEASE, R394. -/
  | partitionRelease (m : Master) (p : Fin 12) (v : Word)
  /-- JOB_RELEASE, R394. -/
  | jobRelease (m : Master) (p : Fin 12) (j : Fin 8) (v : Word)
  /-- JOB_RESET, R395. -/
  | jobReset (m : Master) (p : Fin 12) (j : Fin 8) (v : Word)
  /-- JOB_CONTEXT_VALID, R381. -/
  | jobContextValid (m : Master) (p : Fin 12) (j : Fin 8) (v : Word)
  /-- TIME_SLICE, R383. -/
  | timeSlice (p : Fin 12)
  /-- STOP_COMPLETE, R385. -/
  | stopComplete (p : Fin 12)
  /-- SAVE_COMPLETE, R388. -/
  | saveComplete (p : Fin 12)
  /-- RESTORE_COMPLETE, R388. -/
  | restoreComplete (p : Fin 12) (res : EndKind)
  -- Silent errors (17_silent_errors.md)
  /-- ROLLBACK, R415. -/
  | rollback (p : Fin 12)
  /-- SPARK_UNIT, R407. -/
  | sparkUnit (t : Fin 240) (cycles : Nat) (signature : DWord) (halted faulted : Bool)
  /-- SPARK_ROTATION, R408. -/
  | sparkRotation
  /-- COVER_DUE, R409. -/
  | coverDue
  /-- COVERAGE_PERIOD_END, R409. -/
  | coveragePeriodEnd
  -- Security (18_security.md)
  /-- PACK_LOAD, R427. -/
  | packLoad (m : Master) (v : Word) (res : EndKind)
  /-- IMAGE_LOAD, R426. -/
  | imageLoad (m : Master) (v : Word) (res : EndKind)
  /-- REVOKE_SLOT, R428. -/
  | revokeSlot (m : Master) (v : Word)
  /-- RAISE_FW_ARB, R428. -/
  | raiseFwArb (m : Master) (v : Word)
  /-- RAISE_PACK_ARB, R428. -/
  | raisePackArb (m : Master) (v : Word)
  /-- BLOW_DEBUG_LOCK, R428. -/
  | blowDebugLock (m : Master) (v : Word)
  /-- FUSE_COMMAND_COMPLETE, R428. -/
  | fuseCommandComplete
  /-- SEC_FNREL, R433. -/
  | secFnrel (m : Master) (high : Bool) (v : Word)
  /-- GET_VERSION, R429. -/
  | getVersion
  /-- GET_CAPABILITIES, R429. -/
  | getCapabilities
  /-- NEGOTIATE_ALGORITHMS, R429. -/
  | negotiateAlgorithms
  /-- GET_DIGESTS, R429. -/
  | getDigests
  /-- GET_CERTIFICATE, R429. -/
  | getCertificate (slot : BitVec 4) (off len : BitVec 16)
  /-- CHALLENGE, R429. -/
  | challenge (slot : BitVec 8) (sumType : Byte) (nonce : BitVec 256)
  /-- GET_MEASUREMENTS, R431. -/
  | getMeasurements (index : Byte) (sign : Bool) (nonce : BitVec 256)
  /-- DEBUG_SESSION_OPEN, R431. -/
  | debugSessionOpen (imagePermits : Bool)
  -- CXL ports (19_cxl_ports.md) and tiers (09_tiers_and_movers.md)
  /-- HOST_IO_REQUEST, R443. -/
  | hostIoRequest (fn : Fin 64) (bar : Fin 3) (off : Nat) (op : AccessOp) (ecc : ReadEcc)
  /-- HOST_MEM_REQUEST, R442. -/
  | hostMemRequest (a : Nat) (op : AccessOp) (ecc : ReadEcc)
  /-- TIER_ENABLE, R208. -/
  | tierEnable (m : Master) (u : EnBlock) (v : Word)
  /-- TIER_DISABLE, R208. -/
  | tierDisable (m : Master) (u : EnBlock) (v : Word)
  /-- CPL_TIMEOUT, R446. -/
  | cplTimeout (port : Fin 10) (tag : Nat)
  /-- PARTNER_RESPONSE, R446. -/
  | partnerResponse (port : Fin 11) (tag : Nat) (res : EndKind) (lengthOk : Bool)
  /-- SURPRISE_LINK_DOWN, R447. -/
  | surpriseLinkDown (port : Fin 10)
  /-- STACK_TRAINING_LOST, R202. -/
  | stackTrainingLost (b : Fin 12)
  /-- PERST_DEASSERT, R456. -/
  | perstDeassert
  /-- HOST_LINK_TRAINED, R453. -/
  | hostLinkTrained (width rate : Nat)
deriving DecidableEq, Repr

end Sys2Proof
end

