-- ==== Sys2Proof/Config.lean ====
section
/-! DEFINITION. The values that the spec leaves open: constants with no body, so that nothing can be proved of them. -/
namespace Sys2Proof.Config

/-- The n-th value that the spec leaves open, taken in the order in which a run meets them (log 3). -/
opaque freeNat : Nat → Nat

/-- The FP32 bits of a special function of R132 at a finite argument that has no special value, by the bits of the argument. Table
06-2 bounds their errors and states no bits (log 7). -/
opaque exp2 : Nat → Nat
opaque log2 : Nat → Nat
opaque rsqrt : Nat → Nat
opaque tanh : Nat → Nat
opaque sigmoid : Nat → Nat
opaque erf : Nat → Nat

/-- The FP32 bits of the sine and cosine of the angle ±m × 2^e, with m odd or 0, formed exactly (R132, R134; log 7). -/
opaque sin : Bool → Nat → Int → Nat
opaque cos : Bool → Nat → Int → Nat

/-- PROB (0) where SAMPLE chooses no token and KEPT (1) where no filter acts, by MODE, the sampling record and the logits: the spec states no
value (log 8). -/
opaque sampleOpen : Nat → Nat → Nat → List Nat → Nat

/-- The byte in the control of a dispatch or return exchange (R251) at which its field of a number begins: the spec does not give the
control's layout (log 16). -/
opaque exchangeAt : Nat → Nat

/-- The layer and the shard that the module expects of a RECVFROM of a partition, step and SEQ; none where it forwards no shard of a ring
(R283): the spec does not say how the ports know them (log 17). -/
opaque ringExpected : Nat → Nat → Nat → Option (Nat × Nat)

/-- Parity byte `n` of the Reed-Solomon codeword RS(136,132) of 132 data bytes (R308): the spec gives neither its field polynomial nor its
generator (log 50). -/
opaque fecParity : List Byte → Nat → Nat

/-- The 128-byte line of the own hot tier that holds the KV context record of a request, by its partition and slot (R266): firmware chooses the
place, and the spec names no register that holds it (log 53). -/
opaque kvContext : Nat → Nat → Nat

/-- What the memories that no reset clears hold after power-up, as bytes by their offset in the slot (R452, Table 20-2; log 6). -/
opaque residue : Nat → List (Nat × Byte)

/-- Byte `n` of the digest of the ROM (measurement 1, R430): the spec does not give the ROM (log 24). -/
opaque romDigest : Nat → Nat

end Sys2Proof.Config
end

