-- ==== Sys2Proof/Machine/Float.lean ====
section
/-! DEFINITION. The number formats (R96, R97, R115, R128): exact values, their rounding to nearest even, and the FP32 arithmetic of
the Anvil and Temper tiles. FP32, BF16 and FP16 values are handled as their bits. -/
namespace Sys2Proof.Machine

/-- An exact value: NaN, an infinity, or ± mag × 2^exp. -/
inductive Num where
  | nan
  | inf (neg : Bool)
  | fin (neg : Bool) (mag : Nat) (exp : Int)
deriving DecidableEq, Repr

/-- The bits of an integer magnitude. -/
def bitLen (n : Nat) : Nat := if n = 0 then 0 else Nat.log2 n + 1

/-- A floating-point format: mantissa bits, exponent bits, bias, and whether the top exponent holds infinities and NaNs as in
IEEE 754. -/
structure Fmt where
  mb : Nat
  eb : Nat
  bias : Nat
  ieee : Bool
deriving DecidableEq, Repr

def fmtF32 : Fmt := ⟨23, 8, 127, true⟩
def fmtBf16 : Fmt := ⟨7, 8, 127, true⟩
def fmtF16 : Fmt := ⟨10, 5, 15, true⟩
def fmtE4M3 : Fmt := ⟨3, 4, 7, false⟩
def fmtE5M2 : Fmt := ⟨2, 5, 15, true⟩
def fmtE3M2 : Fmt := ⟨2, 3, 3, false⟩
def fmtE2M3 : Fmt := ⟨3, 2, 1, false⟩
def fmtE2M1 : Fmt := ⟨1, 2, 1, false⟩

/-- The exponent of the least significant bit of a subnormal. -/
def Fmt.qmin (f : Fmt) : Int := 1 - (f.bias : Int) - f.mb

/-- The value of a code. -/
def Fmt.decode (f : Fmt) (v : Nat) : Num :=
  let neg := bitOf v (f.mb + f.eb)
  let e := bits v f.mb f.eb
  let m := bits v 0 f.mb
  if f.ieee ∧ e = 2 ^ f.eb - 1 then (if m = 0 then .inf neg else .nan)
  else if e = 0 then .fin neg m f.qmin
  else .fin neg (m + 2 ^ f.mb) (f.qmin + e - 1)

/-- The magnitude code of m × 2^e rounded to nearest even, as if the exponent had no upper end. -/
def Fmt.roundMag (f : Fmt) (m : Nat) (e : Int) : Nat :=
  if m = 0 then 0
  else
    let q := max ((bitLen m : Int) - 1 + e - f.mb) f.qmin
    let k := if q ≤ e then m * 2 ^ (e - q).toNat
      else
        let d := (q - e).toNat
        let h := m / 2 ^ d
        let r := m % 2 ^ d
        if 2 * r > 2 ^ d ∨ (2 * r = 2 ^ d ∧ h % 2 = 1) then h + 1 else h
    (q - f.qmin).toNat * 2 ^ f.mb + k

/-- The sign bit of a format. -/
def Fmt.sign (f : Fmt) (neg : Bool) : Nat := ofBool neg * 2 ^ (f.mb + f.eb)

/-- The infinity of a format, which is also the first code that overflows. -/
def Fmt.infCode (f : Fmt) : Nat := (2 ^ f.eb - 1) * 2 ^ f.mb

/-- A value rounded to an IEEE format: overflow gives infinity and a NaN the canonical NaN (R95, R96). -/
def Fmt.encode (f : Fmt) : Num → Nat
  | .nan => f.infCode + 2 ^ (f.mb - 1)
  | .inf neg => f.sign neg + f.infCode
  | .fin neg m e => f.sign neg + min f.infCode (f.roundMag m e)

/-- The value of an FP32 code, and the FP32 code of a value. -/
def ofF32 (v : Nat) : Num := fmtF32.decode (v % 2 ^ 32)
def toF32 (n : Num) : Nat := fmtF32.encode n

/-! ## Exact arithmetic -/

/-- A value's signed mantissa at exponent `e`, which is at most its own. -/
def sigAt (neg : Bool) (m : Nat) (x e : Int) : Int :=
  let k : Int := (m * 2 ^ (x - e).toNat : Nat)
  if neg then -k else k

/-- The exact sum. An exact zero is −0 only when both are negative. -/
def Num.add : Num → Num → Num
  | .nan, _ => .nan
  | _, .nan => .nan
  | .inf a, .inf b => if a = b then .inf a else .nan
  | .inf a, _ => .inf a
  | _, .inf b => .inf b
  | .fin a m x, .fin b n y =>
    let e := min x y
    let z := sigAt a m x e + sigAt b n y e
    .fin (if z = 0 then a && b else decide (z < 0)) z.natAbs e

/-- The exact product; an infinity times zero is NaN (R96). -/
def Num.mul : Num → Num → Num
  | .nan, _ => .nan
  | _, .nan => .nan
  | .inf a, .inf b => .inf (a != b)
  | .inf a, .fin b n _ => if n = 0 then .nan else .inf (a != b)
  | .fin a m _, .inf b => if m = 0 then .nan else .inf (a != b)
  | .fin a m x, .fin b n y => .fin (a != b) (m * n) (x + y)

def Num.neg : Num → Num
  | .nan => .nan
  | .inf a => .inf (!a)
  | .fin a m x => .fin (!a) m x

/-- The value times 2^k. -/
def Num.scale (k : Int) : Num → Num
  | .fin a m x => .fin a m (x + k)
  | n => n

/-- Is the value zero? -/
def Num.isZero : Num → Bool
  | .fin _ m _ => m == 0
  | _ => false

def Num.isFinite : Num → Bool
  | .fin _ _ _ => true
  | _ => false

def Num.isNan : Num → Bool
  | .nan => true
  | _ => false

/-- a < b; false where either is NaN. +0 and −0 are equal. -/
def Num.lt (a b : Num) : Bool :=
  match a, b with
  | .nan, _ => false
  | _, .nan => false
  | .inf n, .inf m => n && !m
  | .inf n, _ => n
  | _, .inf m => !m
  | .fin a m x, .fin b n y => decide (sigAt a m x (min x y) < sigAt b n y (min x y))

/-- a ≤ b; false where either is NaN. -/
def Num.le (a b : Num) : Bool := !a.isNan && !b.isNan && !b.lt a

/-- The quotient of two values, with enough bits and a sticky bit that its rounding to FP32 is that of the exact quotient. A zero
divisor gives an infinity, and 0 ÷ 0 and ∞ ÷ ∞ are NaN. -/
def Num.div : Num → Num → Num
  | .nan, _ => .nan
  | _, .nan => .nan
  | .inf _, .inf _ => .nan
  | .inf a, .fin b _ _ => .inf (a != b)
  | .fin a _ _, .inf b => .fin (a != b) 0 0
  | .fin a m x, .fin b n y =>
    if n = 0 then (if m = 0 then .nan else .inf (a != b))
    else
      let k := bitLen n + 30
      let q := m * 2 ^ k / n
      .fin (a != b) (2 * q + (if m * 2 ^ k % n = 0 then 0 else 1)) (x - y - k - 1)

/-- A finite value with an odd magnitude, or 0 with exponent 0; `fuel` bounds the steps. -/
def oddForm : Nat → Nat → Int → Nat × Int
  | 0, m, e => (m, e)
  | fuel + 1, m, e => if m = 0 then (0, 0) else if m % 2 = 0 then oddForm fuel (m / 2) (e + 1) else (m, e)

/-! ## FP32 arithmetic on bits -/

def fadd (a b : Nat) : Nat := toF32 ((ofF32 a).add (ofF32 b))
def fsub (a b : Nat) : Nat := toF32 ((ofF32 a).add (ofF32 b).neg)
def fmul (a b : Nat) : Nat := toF32 ((ofF32 a).mul (ofF32 b))
def fdiv (a b : Nat) : Nat := toF32 ((ofF32 a).div (ofF32 b))
/-- a × b + c, rounded once. -/
def fma (a b c : Nat) : Nat := toF32 (((ofF32 a).mul (ofF32 b)).add (ofF32 c))
def flt (a b : Nat) : Bool := (ofF32 a).lt (ofF32 b)
def fle (a b : Nat) : Bool := (ofF32 a).le (ofF32 b)
def fnan (a : Nat) : Bool := (ofF32 a).isNan
def nanF32 : Nat := 0x7FC00000
def negInf : Nat := 0xFF800000
def posInf : Nat := 0x7F800000
def oneF32 : Nat := 0x3F800000
/-- The larger of two values; NaN if either is NaN (Table 06-1). -/
def fmax (a b : Nat) : Nat := if fnan a || fnan b then nanF32 else if flt a b then b else a
def fmin (a b : Nat) : Nat := if fnan a || fnan b then nanF32 else if flt b a then b else a
/-- A natural number as an FP32 value. -/
def natF32 (n : Nat) : Nat := toF32 (.fin false n 0)

/-! ## The exact values of the special functions

Integers counted in units of 2^-640, near enough to the exact value that the bounds of Table 06-2 can be judged by them. -/

def fixOne : Int := 2 ^ 640
def fixMul (a b : Int) : Int := a * b / fixOne
def fixDiv (a b : Int) : Int := a * fixOne / b

/-- A finite value in those units. -/
def Num.fix : Num → Int
  | .fin neg m e => sigAt neg m (e + 640) 0 / (if e + 640 < 0 then 2 ^ (-(e + 640)).toNat else 1)
  | _ => 0

/-- The sum of `n` terms: `t` is the k-th power term, `next` gives the one after it, and `part` what it adds. -/
def fixSeries (next part : Int → Nat → Int) : Nat → Nat → Int → Int
  | 0, _, _ => 0
  | n + 1, k, t => part t k + fixSeries next part n (k + 1) (next t k)

/-- e^y for |y| up to 128, by squaring e^(y/256) eight times. -/
def fixExp (y : Int) : Int :=
  let z := y / 256
  (List.range 8).foldl (fun e _ => fixMul e e) (fixSeries (fun t k => fixMul t z / (k + 1)) (fun t _ => t) 120 0 fixOne)

/-- 2 artanh z for |z| up to 1/3. -/
def fixLog (z : Int) : Int := 2 * fixSeries (fun t _ => fixMul t (fixMul z z)) (fun t k => t / (2 * k + 1)) 210 0 z

def fixLn2 : Int := fixLog (fixOne / 3)

/-- log2 of m × 2^e. -/
def fixLog2 (m : Nat) (e : Int) : Int :=
  let k : Int := bitLen m - 1
  let x := Num.fix (.fin false m (-k))
  (k + e) * fixOne + fixDiv (fixLog (fixDiv (x - fixOne) (x + fixOne))) fixLn2

/-- arctan (1/n). -/
def fixAtan (n : Int) : Int :=
  fixSeries (fun t _ => t / (n * n)) (fun t k => if k % 2 = 0 then t / (2 * k + 1) else -(t / (2 * k + 1))) 280 0 (fixOne / n)

def fixPi : Int := 16 * fixAtan 5 - 4 * fixAtan 239

/-- The integer square root of a number below 2^1440. -/
def fixSqrt (n : Nat) : Nat :=
  (List.range 720).foldl (fun r i => if (r + 2 ^ (719 - i)) * (r + 2 ^ (719 - i)) ≤ n then r + 2 ^ (719 - i) else r) 0

/-- 1 ÷ √(m × 2^e), for e up to 1280. -/
def fixRsqrt (m : Nat) (e : Int) : Int := fixSqrt (2 ^ (1280 - e).toNat / m)

def fixTanh (y : Int) : Int :=
  let e := fixExp (-2 * y.natAbs)
  (if y < 0 then -1 else 1) * fixDiv (fixOne - e) (fixOne + e)

def fixSigmoid (y : Int) : Int := fixDiv fixOne (fixOne + fixExp (-y))

def fixErf (y : Int) : Int :=
  let s := fixSeries (fun t k => -(fixMul t (fixMul y y) / (k + 1))) (fun t k => t / (2 * k + 1)) 140 0 y
  fixDiv (2 * s) (fixSqrt (fixPi * fixOne).natAbs)

/-- The sine and cosine of an angle, reduced modulo 2π. -/
def fixSin (y : Int) : Int :=
  let z := y % (2 * fixPi)
  fixSeries (fun t k => -(fixMul t (fixMul z z) / ((2 * k + 2) * (2 * k + 3)))) (fun t _ => t) 90 0 z
def fixCos (y : Int) : Int :=
  let z := y % (2 * fixPi)
  fixSeries (fun t k => -(fixMul t (fixMul z z) / ((2 * k + 1) * (2 * k + 2)))) (fun t _ => t) 90 0 fixOne

/-- The FP32 codes within `k` units in the last place of an exact value; no code at a bound is lost to the value's own error. -/
def ulpSet (k : Nat) (y : Int) : List Nat :=
  let c := toF32 (.fin (decide (y < 0)) y.natAbs (-640))
  let q := max ((bitLen y.natAbs : Int) - 24) 491
  let u : Int := 2 ^ q.toNat
  ((List.range 9).map (fun i => c / 2 ^ 31 * 2 ^ 31 + (c % 2 ^ 31 + i - 4))).filter (fun d => match ofF32 d with
    | .fin neg m e => decide ((Num.fix (.fin neg m e) - y).natAbs ≤ (k * u).natAbs + 2 ^ 40)
    | _ => false)

/-- A result that Table 06-2 bounds to `k` ulp of `y` and does not state: one of the codes within the bound, chosen by an open value. -/
def within (k : Nat) (y : Int) (choice : Nat) : Nat :=
  let l := ulpSet k y
  l.getD (choice % max 1 l.length) (toF32 (.fin (decide (y < 0)) y.natAbs (-640)))

/-! ## Special functions (Table 06-2) -/

/-- A value that the spec leaves open, as an FP32 result: a NaN is the canonical one. -/
def openF32 (v : Nat) : Nat := toF32 (ofF32 v)

/-- EXP2. 2^0 is 1: a wholly masked block rescales by 1 (R284). -/
def fexp2 (a : Nat) : Nat :=
  match ofF32 a with
  | .nan => nanF32
  | .inf neg => if neg then 0 else posInf
  | x => if x.isZero then oneF32
    else if Num.le (.fin false 128 0) x then posInf
    else if x.lt (.fin true 150 0) then 0
    else within 1 (fixExp (fixMul x.fix fixLn2)) (Sys2Proof.Config.exp2 a)
def flog2 (a : Nat) : Nat :=
  match ofF32 a with
  | .nan => nanF32
  | .inf neg => if neg then nanF32 else posInf
  | .fin neg m e => if m = 0 then negInf else if neg then nanF32 else within 1 (fixLog2 m e) (Sys2Proof.Config.log2 a)
def frcp (a : Nat) : Nat := fdiv oneF32 a
/-- RSQRT of +∞ is +0, the value within its bound. -/
def frsqrt (a : Nat) : Nat :=
  match ofF32 a with
  | .nan => nanF32
  | .inf neg => if neg then nanF32 else 0
  | .fin neg m e =>
    if m = 0 then (if neg then negInf else posInf) else if neg then nanF32 else within 1 (fixRsqrt m e) (Sys2Proof.Config.rsqrt a)
/-- The magnitude of an FP32 value is at least `b`. -/
def magAtLeast (a b : Nat) : Bool := fle b (a % 2 ^ 31)
/-- ±1 with the sign of `a`. -/
def signedOne (a : Nat) : Nat := oneF32 + a / 2 ^ 31 % 2 * 2 ^ 31
def ftanh (a : Nat) : Nat :=
  if fnan a then nanF32
  else if Num.le (.fin false 91 0) (((ofF32 (a % 2 ^ 31)).mul (.fin false 10 0))) then signedOne a
  else within 2 (fixTanh (ofF32 a).fix) (Sys2Proof.Config.tanh a)
def fsigmoid (a : Nat) : Nat :=
  if fnan a then nanF32
  else if Num.le (.fin false 174 0) ((ofF32 a).mul (.fin false 10 0)) then oneF32
  else if (ofF32 a).le (.fin true 104 0) then 0
  else within 2 (fixSigmoid (ofF32 a).fix) (Sys2Proof.Config.sigmoid a)
def ferf (a : Nat) : Nat :=
  if fnan a then nanF32
  else if Num.le (.fin false 392 0) (((ofF32 (a % 2 ^ 31)).mul (.fin false 100 0))) then signedOne a
  else within 2 (fixErf (ofF32 a).fix) (Sys2Proof.Config.erf a)
/-- The sine or cosine of an exact angle. -/
def numSin : Num → Nat
  | .fin neg m e =>
    within 2 (fixSin (Num.fix (.fin neg m e))) (Sys2Proof.Config.sin neg (oddForm m m e).1 (oddForm m m e).2)
  | _ => nanF32
def numCos : Num → Nat
  | .fin neg m e =>
    within 2 (fixCos (Num.fix (.fin neg m e))) (Sys2Proof.Config.cos neg (oddForm m m e).1 (oddForm m m e).2)
  | _ => nanF32

/-! ## MX elements and output conversion -/

/-- The width in bits of an element of a format code of Table 05-1. -/
def fmtBits (c : Nat) : Nat := [8, 8, 6, 6, 4, 8, 16, 16].getD c 8
/-- Is the format code an MX format, with a scale per 32 elements? -/
def fmtMx (c : Nat) : Bool := decide (c < 6)

/-- The value of an element code of a format of Table 05-1. E4M3 has one NaN code and no infinity. -/
def elemNum (c v : Nat) : Num :=
  match c with
  | 0 => if v % 128 = 127 then .nan else fmtE4M3.decode v
  | 1 => fmtE5M2.decode v
  | 2 => fmtE3M2.decode v
  | 3 => fmtE2M3.decode v
  | 4 => fmtE2M1.decode v
  | 5 => .fin (bitOf v 7) (toSigned 8 v).natAbs (-6)
  | 6 => fmtBf16.decode v
  | _ => fmtF16.decode v

/-- An MX element under a scale code: 0xFF is NaN (R96, R97). -/
def mxNum (c v scale : Nat) : Num := if scale = 0xFF then .nan else (elemNum c v).scale ((scale : Int) - 127)

/-- The scale code and the element codes of a block of 32 FP32 values in MXFP8 E4M3 or E5M2 (R115). -/
def mxBlock (e5 : Bool) (vals : List Nat) : Nat × List Nat :=
  if vals.any fnan then (0xFF, vals.map (fun _ => 0))
  else
    let amax := vals.foldl (fun m v => if v % 2 ^ 31 < posInf then max m (v % 2 ^ 31) else m) 0
    let x : Int := if amax = 0 then -127 else
      match ofF32 amax with
      | .fin _ m e => max (-127) (min 127 ((bitLen m : Int) - 1 + e - (if e5 then 15 else 8)))
      | _ => 0
    let f := if e5 then fmtE5M2 else fmtE4M3
    let top := if e5 then 0x7B else 0x7E
    ((x + 127).toNat, vals.map (fun v => match ofF32 v with
      | .inf neg => f.sign neg + (if e5 then f.infCode else top)
      | .fin neg m e => f.sign neg + min top (f.roundMag m (e - x))
      | .nan => 0))

/-- The bytes of a row of FP32 values in an output format of R115. A NaN is written as the canonical one of the format (R96). -/
def rowBytes (of : Nat) (vals : List Nat) : List Byte :=
  match of with
  | 0 => vals.flatMap (fun v => natLE 4 (if fnan v then nanF32 else v))
  | 1 => vals.flatMap (fun v => natLE 2 (fmtBf16.encode (ofF32 v)))
  | 2 => vals.flatMap (fun v => natLE 2 (fmtF16.encode (ofF32 v)))
  | _ =>
    let blocks := (List.range (vals.length / 32)).map (fun b => mxBlock (of == 4) ((vals.drop (32 * b)).take 32))
    blocks.flatMap (fun b => b.2.map (BitVec.ofNat 8)) ++ blocks.map (fun b => BitVec.ofNat 8 b.1)

/-- The bytes that a row of `n` elements takes (R115, R128). -/
def rowLen (of n : Nat) : Nat :=
  match of with
  | 0 => 4 * n
  | 1 => 2 * n
  | 2 => 2 * n
  | _ => n + n / 32

/-! ## Reductions (R130) -/

/-- Neighbours combined pair by pair. -/
def pairUp (f : Nat → Nat → Nat) : List Nat → List Nat
  | a :: b :: l => f a b :: pairUp f l
  | l => l

/-- A group of 32 positions combined by the balanced tree. -/
def tree32 (f : Nat → Nat → Nat) (l : List Nat) : Nat :=
  (pairUp f (pairUp f (pairUp f (pairUp f (pairUp f l))))).headD 0

/-- A row reduced in the fixed order of R130; the last group is padded with the identity. -/
def reduceRow (f : Nat → Nat → Nat) (unit : Nat) (l : List Nat) : Nat :=
  let groups := (List.range ((l.length + 31) / 32)).map (fun g =>
    tree32 f ((List.range 32).map (fun i => l.getD (32 * g + i) unit)))
  match groups with
  | [] => unit
  | g :: gs => gs.foldl f g

end Sys2Proof.Machine
end

