-- ==== Sys2Proof/Machine/RegTable.lean ====
section
/-! DEFINITION. The control-register window (R182): the offset of every register, the place of every field, and for each
register its reset value and which bits a write changes, as the register maps of chapters 01 to 19 give them. A tile's block
lies at the offset of R14, and its registers take the tile's index. -/
namespace Sys2Proof.Machine

/-- A field of a register: the register's offset, the field's lowest bit and its width. -/
structure Field where
  off : Nat
  lo : Nat
  width : Nat
deriving DecidableEq, Repr

/-- What a register map says of one register: its reset value, and the masks of its bits by access code. -/
structure RegSpec where
  /-- The value at reset. -/
  reset : Nat
  /-- Bits with access RW. -/
  rw : Nat
  /-- Bits with access RWL: writable until the block's LOCK is set (R9). -/
  rwl : Nat
  /-- Bits with access WO: kept, and read as 0 (R8). -/
  wo : Nat
  /-- Bits with access W1C that clear one by one. -/
  w1c : Nat
  /-- Fields with access W1C of which writing 1 to any bit clears the whole. -/
  w1cAll : List Nat
  /-- Bits with access W1S that stay set. A W1S bit that reads 0 is a command of its own and is in no mask. -/
  w1s : Nat
deriving DecidableEq, Repr

/-- One row of a register map: `count` copies at a distance of `stride`, each of `count2` copies at a distance of `stride2`. -/
structure RegRow where
  off : Nat
  stride : Nat
  count : Nat
  stride2 : Nat
  count2 : Nat
  spec : RegSpec
deriving DecidableEq, Repr

/-- The offset of tile `t`'s register block in the control window (R14). -/
abbrev tileBase (t : Nat) : Nat := 0x10000000 + t * 0x10000

/-- DEV_ID (01_kenlum_module.md R20). -/
abbrev Reg.DEV_ID : Nat := 0x0
abbrev Reg.DEV_ID.FAMILY : Field := ⟨Reg.DEV_ID, 24, 8⟩
abbrev Reg.DEV_ID.PART : Field := ⟨Reg.DEV_ID, 8, 16⟩
abbrev Reg.DEV_ID.STEPPING : Field := ⟨Reg.DEV_ID, 0, 8⟩

/-- DEV_CAP (01_kenlum_module.md R20). -/
abbrev Reg.DEV_CAP : Nat := 0x4
abbrev Reg.DEV_CAP.PORT : Field := ⟨Reg.DEV_CAP, 24, 8⟩
abbrev Reg.DEV_CAP.BILLET : Field := ⟨Reg.DEV_CAP, 16, 8⟩
abbrev Reg.DEV_CAP.TEMPER : Field := ⟨Reg.DEV_CAP, 8, 8⟩
abbrev Reg.DEV_CAP.ANVIL : Field := ⟨Reg.DEV_CAP, 0, 8⟩

/-- DEV_SERIAL_LO (01_kenlum_module.md R20). -/
abbrev Reg.DEV_SERIAL_LO : Nat := 0x8
abbrev Reg.DEV_SERIAL_LO.SERIAL : Field := ⟨Reg.DEV_SERIAL_LO, 0, 32⟩

/-- DEV_SERIAL_HI (01_kenlum_module.md R20). -/
abbrev Reg.DEV_SERIAL_HI : Nat := 0xC
abbrev Reg.DEV_SERIAL_HI.SERIAL : Field := ⟨Reg.DEV_SERIAL_HI, 0, 32⟩

/-- DEV_SLOT (01_kenlum_module.md R20). -/
abbrev Reg.DEV_SLOT : Nat := 0x10
abbrev Reg.DEV_SLOT.MISMATCH : Field := ⟨Reg.DEV_SLOT, 31, 1⟩
abbrev Reg.DEV_SLOT.SLOT : Field := ⟨Reg.DEV_SLOT, 8, 2⟩
abbrev Reg.DEV_SLOT.BOARD : Field := ⟨Reg.DEV_SLOT, 0, 6⟩

/-- DEV_CLK_AF (01_kenlum_module.md R20). -/
abbrev Reg.DEV_CLK_AF : Nat := 0x14
abbrev Reg.DEV_CLK_AF.F_MHZ : Field := ⟨Reg.DEV_CLK_AF, 16, 16⟩
abbrev Reg.DEV_CLK_AF.A_MHZ : Field := ⟨Reg.DEV_CLK_AF, 0, 16⟩

/-- DEV_CLK_CR (01_kenlum_module.md R20). -/
abbrev Reg.DEV_CLK_CR : Nat := 0x18
abbrev Reg.DEV_CLK_CR.REF_MHZ : Field := ⟨Reg.DEV_CLK_CR, 16, 16⟩
abbrev Reg.DEV_CLK_CR.C_MHZ : Field := ⟨Reg.DEV_CLK_CR, 0, 16⟩

/-- DEV_HBM (01_kenlum_module.md R20). -/
abbrev Reg.DEV_HBM : Nat := 0x1C
abbrev Reg.DEV_HBM.STACKS : Field := ⟨Reg.DEV_HBM, 24, 8⟩
abbrev Reg.DEV_HBM.STACK_GB : Field := ⟨Reg.DEV_HBM, 16, 8⟩
abbrev Reg.DEV_HBM.PIN_RATE : Field := ⟨Reg.DEV_HBM, 0, 16⟩

/-- DEV_ASSET_TAG (01_kenlum_module.md R20). -/
abbrev Reg.DEV_ASSET_TAG : Nat := 0x20
abbrev Reg.DEV_ASSET_TAG.TAG : Field := ⟨Reg.DEV_ASSET_TAG, 0, 32⟩

/-- DEV_LOCK (01_kenlum_module.md R20). -/
abbrev Reg.DEV_LOCK : Nat := 0x24
abbrev Reg.DEV_LOCK.LOCK : Field := ⟨Reg.DEV_LOCK, 0, 1⟩

/-- TIME_TICK_LO (02_strike_rack_time.md R36). -/
abbrev Reg.TIME_TICK_LO : Nat := 0x10000
abbrev Reg.TIME_TICK_LO.VALUE : Field := ⟨Reg.TIME_TICK_LO, 0, 32⟩

/-- TIME_TICK_HI (02_strike_rack_time.md R36). -/
abbrev Reg.TIME_TICK_HI : Nat := 0x10004
abbrev Reg.TIME_TICK_HI.VALUE : Field := ⟨Reg.TIME_TICK_HI, 0, 32⟩

/-- TIME_LOAD_LO (02_strike_rack_time.md R36). -/
abbrev Reg.TIME_LOAD_LO : Nat := 0x10008
abbrev Reg.TIME_LOAD_LO.LOAD : Field := ⟨Reg.TIME_LOAD_LO, 10, 22⟩

/-- TIME_LOAD_HI (02_strike_rack_time.md R36). -/
abbrev Reg.TIME_LOAD_HI : Nat := 0x1000C
abbrev Reg.TIME_LOAD_HI.LOAD : Field := ⟨Reg.TIME_LOAD_HI, 0, 32⟩

/-- TIME_CTRL (02_strike_rack_time.md R36). -/
abbrev Reg.TIME_CTRL : Nat := 0x10010
abbrev Reg.TIME_CTRL.ANOM_LIMIT : Field := ⟨Reg.TIME_CTRL, 8, 8⟩
abbrev Reg.TIME_CTRL.INT_EN : Field := ⟨Reg.TIME_CTRL, 1, 1⟩
abbrev Reg.TIME_CTRL.ARM : Field := ⟨Reg.TIME_CTRL, 0, 1⟩

/-- TIME_STATUS (02_strike_rack_time.md R36). -/
abbrev Reg.TIME_STATUS : Nat := 0x10014
abbrev Reg.TIME_STATUS.REF_LOST : Field := ⟨Reg.TIME_STATUS, 5, 1⟩
abbrev Reg.TIME_STATUS.DEGRADED : Field := ⟨Reg.TIME_STATUS, 4, 1⟩
abbrev Reg.TIME_STATUS.OFF_BOUNDARY : Field := ⟨Reg.TIME_STATUS, 3, 1⟩
abbrev Reg.TIME_STATUS.MISSED : Field := ⟨Reg.TIME_STATUS, 2, 1⟩
abbrev Reg.TIME_STATUS.ARMED : Field := ⟨Reg.TIME_STATUS, 1, 1⟩
abbrev Reg.TIME_STATUS.ALIGNED : Field := ⟨Reg.TIME_STATUS, 0, 1⟩

/-- TIME_MISSED_CNT (02_strike_rack_time.md R36). -/
abbrev Reg.TIME_MISSED_CNT : Nat := 0x10018
abbrev Reg.TIME_MISSED_CNT.COUNT : Field := ⟨Reg.TIME_MISSED_CNT, 0, 32⟩

/-- TIME_OFF_CNT (02_strike_rack_time.md R36). -/
abbrev Reg.TIME_OFF_CNT : Nat := 0x1001C
abbrev Reg.TIME_OFF_CNT.COUNT : Field := ⟨Reg.TIME_OFF_CNT, 0, 32⟩

/-- TIME_LAST_ANOM_LO (02_strike_rack_time.md R36). -/
abbrev Reg.TIME_LAST_ANOM_LO : Nat := 0x10020
abbrev Reg.TIME_LAST_ANOM_LO.VALUE : Field := ⟨Reg.TIME_LAST_ANOM_LO, 0, 32⟩

/-- TIME_LAST_ANOM_HI (02_strike_rack_time.md R36). -/
abbrev Reg.TIME_LAST_ANOM_HI : Nat := 0x10024
abbrev Reg.TIME_LAST_ANOM_HI.VALUE : Field := ⟨Reg.TIME_LAST_ANOM_HI, 0, 32⟩

/-- PWR_CTRL (14_power_and_thermal.md R348). -/
abbrev Reg.PWR_CTRL : Nat := 0x20000
abbrev Reg.PWR_CTRL.INT_EN : Field := ⟨Reg.PWR_CTRL, 1, 1⟩
abbrev Reg.PWR_CTRL.PEAK_EN : Field := ⟨Reg.PWR_CTRL, 0, 1⟩

/-- PWR_STATUS (14_power_and_thermal.md R348). -/
abbrev Reg.PWR_STATUS : Nat := 0x20004
abbrev Reg.PWR_STATUS.THERMTRIP : Field := ⟨Reg.PWR_STATUS, 10, 1⟩
abbrev Reg.PWR_STATUS.COOLANT_ALERT : Field := ⟨Reg.PWR_STATUS, 9, 1⟩
abbrev Reg.PWR_STATUS.INLET_HIGH : Field := ⟨Reg.PWR_STATUS, 8, 1⟩
abbrev Reg.PWR_STATUS.TJ_MAX : Field := ⟨Reg.PWR_STATUS, 7, 1⟩
abbrev Reg.PWR_STATUS.THROTTLE : Field := ⟨Reg.PWR_STATUS, 6, 1⟩
abbrev Reg.PWR_STATUS.ALERT : Field := ⟨Reg.PWR_STATUS, 5, 1⟩
abbrev Reg.PWR_STATUS.LEASE_LAPSED : Field := ⟨Reg.PWR_STATUS, 4, 1⟩
abbrev Reg.PWR_STATUS.FLOOR_CLIPPED : Field := ⟨Reg.PWR_STATUS, 3, 1⟩
abbrev Reg.PWR_STATUS.BURST : Field := ⟨Reg.PWR_STATUS, 2, 1⟩
abbrev Reg.PWR_STATUS.RAMP_OVR : Field := ⟨Reg.PWR_STATUS, 1, 1⟩
abbrev Reg.PWR_STATUS.ALIGNED_WAIT : Field := ⟨Reg.PWR_STATUS, 0, 1⟩

/-- PWR_CAP (14_power_and_thermal.md R348). -/
abbrev Reg.PWR_CAP : Nat := 0x20008
abbrev Reg.PWR_CAP.WATTS : Field := ⟨Reg.PWR_CAP, 0, 12⟩

/-- PWR_FLOOR (14_power_and_thermal.md R348). -/
abbrev Reg.PWR_FLOOR : Nat := 0x2000C
abbrev Reg.PWR_FLOOR.WATTS : Field := ⟨Reg.PWR_FLOOR, 0, 12⟩

/-- PWR_RAMP (14_power_and_thermal.md R348). -/
abbrev Reg.PWR_RAMP : Nat := 0x20010
abbrev Reg.PWR_RAMP.DOWN : Field := ⟨Reg.PWR_RAMP, 16, 12⟩
abbrev Reg.PWR_RAMP.UP : Field := ⟨Reg.PWR_RAMP, 0, 12⟩

/-- PWR_LEASE (14_power_and_thermal.md R348). -/
abbrev Reg.PWR_LEASE : Nat := 0x20014
abbrev Reg.PWR_LEASE.STRIKES : Field := ⟨Reg.PWR_LEASE, 0, 32⟩

/-- PWR_SAFE (14_power_and_thermal.md R348). -/
abbrev Reg.PWR_SAFE : Nat := 0x20018
abbrev Reg.PWR_SAFE.ALERT_CAP : Field := ⟨Reg.PWR_SAFE, 16, 12⟩
abbrev Reg.PWR_SAFE.FAILSAFE : Field := ⟨Reg.PWR_SAFE, 0, 12⟩

/-- PWR_LOCK (14_power_and_thermal.md R348). -/
abbrev Reg.PWR_LOCK : Nat := 0x2001C
abbrev Reg.PWR_LOCK.LOCK : Field := ⟨Reg.PWR_LOCK, 0, 1⟩

/-- PWR_TARGET (14_power_and_thermal.md R348). -/
abbrev Reg.PWR_TARGET : Nat := 0x20020
abbrev Reg.PWR_TARGET.CAP : Field := ⟨Reg.PWR_TARGET, 16, 12⟩
abbrev Reg.PWR_TARGET.WATTS : Field := ⟨Reg.PWR_TARGET, 0, 12⟩

/-- PWR_MEAS (14_power_and_thermal.md R348). -/
abbrev Reg.PWR_MEAS : Nat := 0x20024
abbrev Reg.PWR_MEAS.AVG20 : Field := ⟨Reg.PWR_MEAS, 16, 12⟩
abbrev Reg.PWR_MEAS.LAST : Field := ⟨Reg.PWR_MEAS, 0, 12⟩

/-- PWR_ENERGY_LO (14_power_and_thermal.md R348). -/
abbrev Reg.PWR_ENERGY_LO : Nat := 0x20028
abbrev Reg.PWR_ENERGY_LO.VALUE : Field := ⟨Reg.PWR_ENERGY_LO, 0, 32⟩

/-- PWR_ENERGY_HI (14_power_and_thermal.md R348). -/
abbrev Reg.PWR_ENERGY_HI : Nat := 0x2002C
abbrev Reg.PWR_ENERGY_HI.VALUE : Field := ⟨Reg.PWR_ENERGY_HI, 0, 32⟩

/-- PWR_OVR_CNT (14_power_and_thermal.md R348). -/
abbrev Reg.PWR_OVR_CNT : Nat := 0x20030
abbrev Reg.PWR_OVR_CNT.RAMP : Field := ⟨Reg.PWR_OVR_CNT, 16, 16⟩
abbrev Reg.PWR_OVR_CNT.PEAK : Field := ⟨Reg.PWR_OVR_CNT, 0, 16⟩

/-- PWR_EVT_TICK_LO (14_power_and_thermal.md R348). -/
abbrev Reg.PWR_EVT_TICK_LO : Nat := 0x20034
abbrev Reg.PWR_EVT_TICK_LO.VALUE : Field := ⟨Reg.PWR_EVT_TICK_LO, 0, 32⟩

/-- PWR_EVT_TICK_HI (14_power_and_thermal.md R348). -/
abbrev Reg.PWR_EVT_TICK_HI : Nat := 0x20038
abbrev Reg.PWR_EVT_TICK_HI.VALUE : Field := ⟨Reg.PWR_EVT_TICK_HI, 0, 32⟩

/-- PWR_EVT_KIND (14_power_and_thermal.md R348). -/
abbrev Reg.PWR_EVT_KIND : Nat := 0x2003C
abbrev Reg.PWR_EVT_KIND.VALID : Field := ⟨Reg.PWR_EVT_KIND, 31, 1⟩
abbrev Reg.PWR_EVT_KIND.KIND : Field := ⟨Reg.PWR_EVT_KIND, 0, 4⟩

/-- PWR_BANK (14_power_and_thermal.md R348). -/
abbrev Reg.PWR_BANK : Nat := 0x20040
abbrev Reg.PWR_BANK.STATE : Field := ⟨Reg.PWR_BANK, 30, 2⟩
abbrev Reg.PWR_BANK.ENABLE_PENDING : Field := ⟨Reg.PWR_BANK, 29, 1⟩
abbrev Reg.PWR_BANK.DISABLE_PENDING : Field := ⟨Reg.PWR_BANK, 28, 1⟩
abbrev Reg.PWR_BANK.SHORT : Field := ⟨Reg.PWR_BANK, 27, 1⟩
abbrev Reg.PWR_BANK.DIS : Field := ⟨Reg.PWR_BANK, 1, 1⟩
abbrev Reg.PWR_BANK.EN : Field := ⟨Reg.PWR_BANK, 0, 1⟩

/-- PWR_SENS (14_power_and_thermal.md R348). -/
abbrev Reg.PWR_SENS (k : Nat) : Nat := 0x20100 + k * 0x4
abbrev Reg.PWR_SENS.VALID (k : Nat) : Field := ⟨Reg.PWR_SENS k, 31, 1⟩
abbrev Reg.PWR_SENS.VALUE (k : Nat) : Field := ⟨Reg.PWR_SENS k, 0, 16⟩

/-- SEC_STATUS (18_security.md R436). -/
abbrev Reg.SEC_STATUS : Nat := 0x30000
abbrev Reg.SEC_STATUS.DEBUG_LOCKED : Field := ⟨Reg.SEC_STATUS, 31, 1⟩
abbrev Reg.SEC_STATUS.DEBUG_USED : Field := ⟨Reg.SEC_STATUS, 30, 1⟩
abbrev Reg.SEC_STATUS.REVOKED : Field := ⟨Reg.SEC_STATUS, 28, 2⟩
abbrev Reg.SEC_STATUS.BOOT_ERR : Field := ⟨Reg.SEC_STATUS, 16, 8⟩
abbrev Reg.SEC_STATUS.LOAD_BUSY : Field := ⟨Reg.SEC_STATUS, 3, 1⟩
abbrev Reg.SEC_STATUS.FUSE_BUSY : Field := ⟨Reg.SEC_STATUS, 2, 1⟩
abbrev Reg.SEC_STATUS.BANK : Field := ⟨Reg.SEC_STATUS, 1, 1⟩
abbrev Reg.SEC_STATUS.BOOTED : Field := ⟨Reg.SEC_STATUS, 0, 1⟩

/-- SEC_ARB (18_security.md R436). -/
abbrev Reg.SEC_ARB : Nat := 0x30004
abbrev Reg.SEC_ARB.FW : Field := ⟨Reg.SEC_ARB, 8, 8⟩
abbrev Reg.SEC_ARB.PACK : Field := ⟨Reg.SEC_ARB, 0, 8⟩

/-- SEC_FUSE_CMD (18_security.md R436). -/
abbrev Reg.SEC_FUSE_CMD : Nat := 0x30008
abbrev Reg.SEC_FUSE_CMD.START : Field := ⟨Reg.SEC_FUSE_CMD, 31, 1⟩
abbrev Reg.SEC_FUSE_CMD.RESULT : Field := ⟨Reg.SEC_FUSE_CMD, 4, 4⟩
abbrev Reg.SEC_FUSE_CMD.OP : Field := ⟨Reg.SEC_FUSE_CMD, 0, 3⟩

/-- SEC_FUSE_CONFIRM (18_security.md R436). -/
abbrev Reg.SEC_FUSE_CONFIRM : Nat := 0x3000C
abbrev Reg.SEC_FUSE_CONFIRM.CODE : Field := ⟨Reg.SEC_FUSE_CONFIRM, 0, 32⟩

/-- SEC_LOAD_CMD (18_security.md R436). -/
abbrev Reg.SEC_LOAD_CMD : Nat := 0x30010
abbrev Reg.SEC_LOAD_CMD.START : Field := ⟨Reg.SEC_LOAD_CMD, 31, 1⟩
abbrev Reg.SEC_LOAD_CMD.TYPE : Field := ⟨Reg.SEC_LOAD_CMD, 8, 1⟩
abbrev Reg.SEC_LOAD_CMD.RESULT : Field := ⟨Reg.SEC_LOAD_CMD, 0, 4⟩

/-- SEC_LOAD_ADDR_LO (18_security.md R436). -/
abbrev Reg.SEC_LOAD_ADDR_LO : Nat := 0x30018
abbrev Reg.SEC_LOAD_ADDR_LO.ADDR : Field := ⟨Reg.SEC_LOAD_ADDR_LO, 12, 20⟩

/-- SEC_LOAD_ADDR_HI (18_security.md R436). -/
abbrev Reg.SEC_LOAD_ADDR_HI : Nat := 0x3001C
abbrev Reg.SEC_LOAD_ADDR_HI.ADDR : Field := ⟨Reg.SEC_LOAD_ADDR_HI, 0, 24⟩

/-- SEC_FNFRZ (18_security.md R436). -/
abbrev Reg.SEC_FNFRZ (k : Nat) : Nat := 0x30020 + k * 0x4
abbrev Reg.SEC_FNFRZ.FROZEN (k : Nat) : Field := ⟨Reg.SEC_FNFRZ k, 0, 32⟩

/-- SEC_FNREL (18_security.md R436). -/
abbrev Reg.SEC_FNREL (k : Nat) : Nat := 0x30028 + k * 0x4
abbrev Reg.SEC_FNREL.RELEASE (k : Nat) : Field := ⟨Reg.SEC_FNREL k, 0, 32⟩

/-- SEC_VIOL (18_security.md R436). -/
abbrev Reg.SEC_VIOL : Nat := 0x30030
abbrev Reg.SEC_VIOL.VALID : Field := ⟨Reg.SEC_VIOL, 31, 1⟩
abbrev Reg.SEC_VIOL.KIND : Field := ⟨Reg.SEC_VIOL, 16, 3⟩
abbrev Reg.SEC_VIOL.FUNC : Field := ⟨Reg.SEC_VIOL, 0, 6⟩

/-- SEC_KEY_HASH (18_security.md R436). -/
abbrev Reg.SEC_KEY_HASH (k : Nat) (j : Nat) : Nat := 0x30100 + k * 0x20 + j * 0x4
abbrev Reg.SEC_KEY_HASH.HASH (k : Nat) (j : Nat) : Field := ⟨Reg.SEC_KEY_HASH k j, 0, 32⟩

/-- SEC_FNPART (18_security.md R436). -/
abbrev Reg.SEC_FNPART (k : Nat) : Nat := 0x30200 + k * 0x4
abbrev Reg.SEC_FNPART.V3 (k : Nat) : Field := ⟨Reg.SEC_FNPART k, 31, 1⟩
abbrev Reg.SEC_FNPART.P3 (k : Nat) : Field := ⟨Reg.SEC_FNPART k, 24, 4⟩
abbrev Reg.SEC_FNPART.V2 (k : Nat) : Field := ⟨Reg.SEC_FNPART k, 23, 1⟩
abbrev Reg.SEC_FNPART.P2 (k : Nat) : Field := ⟨Reg.SEC_FNPART k, 16, 4⟩
abbrev Reg.SEC_FNPART.V1 (k : Nat) : Field := ⟨Reg.SEC_FNPART k, 15, 1⟩
abbrev Reg.SEC_FNPART.P1 (k : Nat) : Field := ⟨Reg.SEC_FNPART k, 8, 4⟩
abbrev Reg.SEC_FNPART.V0 (k : Nat) : Field := ⟨Reg.SEC_FNPART k, 7, 1⟩
abbrev Reg.SEC_FNPART.P0 (k : Nat) : Field := ⟨Reg.SEC_FNPART k, 0, 4⟩

/-- SLG_CTRL (17_silent_errors.md R420). -/
abbrev Reg.SLG_CTRL : Nat := 0x40000
abbrev Reg.SLG_CTRL.WIT_RATE : Field := ⟨Reg.SLG_CTRL, 16, 16⟩
abbrev Reg.SLG_CTRL.INT_EN : Field := ⟨Reg.SLG_CTRL, 4, 1⟩
abbrev Reg.SLG_CTRL.FORCE_EN : Field := ⟨Reg.SLG_CTRL, 3, 1⟩
abbrev Reg.SLG_CTRL.SPARK_EN : Field := ⟨Reg.SLG_CTRL, 2, 1⟩
abbrev Reg.SLG_CTRL.WIT_EN : Field := ⟨Reg.SLG_CTRL, 1, 1⟩
abbrev Reg.SLG_CTRL.VERDICT_EN : Field := ⟨Reg.SLG_CTRL, 0, 1⟩

/-- SLG_STATUS (17_silent_errors.md R420). -/
abbrev Reg.SLG_STATUS : Nat := 0x40004
abbrev Reg.SLG_STATUS.EXPOSED : Field := ⟨Reg.SLG_STATUS, 9, 1⟩
abbrev Reg.SLG_STATUS.ENV_BAD : Field := ⟨Reg.SLG_STATUS, 8, 1⟩
abbrev Reg.SLG_STATUS.PACK_PENDING : Field := ⟨Reg.SLG_STATUS, 7, 1⟩
abbrev Reg.SLG_STATUS.WIT_MISSING : Field := ⟨Reg.SLG_STATUS, 6, 1⟩
abbrev Reg.SLG_STATUS.SPLIT : Field := ⟨Reg.SLG_STATUS, 5, 1⟩
abbrev Reg.SLG_STATUS.QUAR_NEW : Field := ⟨Reg.SLG_STATUS, 4, 1⟩
abbrev Reg.SLG_STATUS.SUSPECT_NEW : Field := ⟨Reg.SLG_STATUS, 3, 1⟩
abbrev Reg.SLG_STATUS.COVER_MISS : Field := ⟨Reg.SLG_STATUS, 2, 1⟩
abbrev Reg.SLG_STATUS.COVER_DUE : Field := ⟨Reg.SLG_STATUS, 1, 1⟩
abbrev Reg.SLG_STATUS.BUSY : Field := ⟨Reg.SLG_STATUS, 0, 1⟩

/-- SLG_ROT (17_silent_errors.md R420). -/
abbrev Reg.SLG_ROT : Nat := 0x40008
abbrev Reg.SLG_ROT.LOG2P : Field := ⟨Reg.SLG_ROT, 0, 5⟩

/-- SLG_PACK (17_silent_errors.md R420). -/
abbrev Reg.SLG_PACK : Nat := 0x4000C
abbrev Reg.SLG_PACK.VERSION : Field := ⟨Reg.SLG_PACK, 16, 16⟩
abbrev Reg.SLG_PACK.UNITS : Field := ⟨Reg.SLG_PACK, 0, 16⟩

/-- SLG_WKEY_LO (17_silent_errors.md R420). -/
abbrev Reg.SLG_WKEY_LO : Nat := 0x40010
abbrev Reg.SLG_WKEY_LO.KEY : Field := ⟨Reg.SLG_WKEY_LO, 0, 32⟩

/-- SLG_WKEY_HI (17_silent_errors.md R420). -/
abbrev Reg.SLG_WKEY_HI : Nat := 0x40014
abbrev Reg.SLG_WKEY_HI.KEY : Field := ⟨Reg.SLG_WKEY_HI, 0, 32⟩

/-- SLG_DUE (17_silent_errors.md R420). -/
abbrev Reg.SLG_DUE : Nat := 0x40018
abbrev Reg.SLG_DUE.VALID : Field := ⟨Reg.SLG_DUE, 31, 1⟩
abbrev Reg.SLG_DUE.TILE : Field := ⟨Reg.SLG_DUE, 0, 8⟩

/-- SLG_SLAG_LO (17_silent_errors.md R420). -/
abbrev Reg.SLG_SLAG_LO : Nat := 0x40020
abbrev Reg.SLG_SLAG_LO.VALUE : Field := ⟨Reg.SLG_SLAG_LO, 0, 32⟩

/-- SLG_SLAG_HI (17_silent_errors.md R420). -/
abbrev Reg.SLG_SLAG_HI : Nat := 0x40024
abbrev Reg.SLG_SLAG_HI.VALUE : Field := ⟨Reg.SLG_SLAG_HI, 0, 32⟩

/-- SLG_WITCMP_LO (17_silent_errors.md R420). -/
abbrev Reg.SLG_WITCMP_LO : Nat := 0x40028
abbrev Reg.SLG_WITCMP_LO.VALUE : Field := ⟨Reg.SLG_WITCMP_LO, 0, 32⟩

/-- SLG_WITCMP_HI (17_silent_errors.md R420). -/
abbrev Reg.SLG_WITCMP_HI : Nat := 0x4002C
abbrev Reg.SLG_WITCMP_HI.VALUE : Field := ⟨Reg.SLG_WITCMP_HI, 0, 32⟩

/-- SLG_WITMIS (17_silent_errors.md R420). -/
abbrev Reg.SLG_WITMIS : Nat := 0x40030
abbrev Reg.SLG_WITMIS.VALUE : Field := ⟨Reg.SLG_WITMIS, 0, 32⟩

/-- SLG_SPARKFAIL (17_silent_errors.md R420). -/
abbrev Reg.SLG_SPARKFAIL : Nat := 0x40034
abbrev Reg.SLG_SPARKFAIL.VALUE : Field := ⟨Reg.SLG_SPARKFAIL, 0, 32⟩

/-- SLG_QUAR (17_silent_errors.md R420). -/
abbrev Reg.SLG_QUAR (k : Nat) : Nat := 0x40040 + k * 0x4
abbrev Reg.SLG_QUAR.TILES (k : Nat) : Field := ⟨Reg.SLG_QUAR k, 0, 32⟩

/-- SLG_SUSP (17_silent_errors.md R420). -/
abbrev Reg.SLG_SUSP (k : Nat) : Nat := 0x40060 + k * 0x4
abbrev Reg.SLG_SUSP.TILES (k : Nat) : Field := ⟨Reg.SLG_SUSP k, 0, 32⟩

/-- SLG_P_VCTRL (17_silent_errors.md R420). -/
abbrev Reg.SLG_P_VCTRL (k : Nat) : Nat := 0x40100 + k * 0x20
abbrev Reg.SLG_P_VCTRL.VG_EN (k : Nat) : Field := ⟨Reg.SLG_P_VCTRL k, 31, 1⟩
abbrev Reg.SLG_P_VCTRL.VGRP (k : Nat) : Field := ⟨Reg.SLG_P_VCTRL k, 24, 6⟩
abbrev Reg.SLG_P_VCTRL.GUARD (k : Nat) : Field := ⟨Reg.SLG_P_VCTRL k, 12, 12⟩
abbrev Reg.SLG_P_VCTRL.MAXREPLAY (k : Nat) : Field := ⟨Reg.SLG_P_VCTRL k, 8, 4⟩
abbrev Reg.SLG_P_VCTRL.VWIN (k : Nat) : Field := ⟨Reg.SLG_P_VCTRL k, 0, 8⟩

/-- SLG_P_VSTAT (17_silent_errors.md R420). -/
abbrev Reg.SLG_P_VSTAT (k : Nat) : Nat := 0x40104 + k * 0x20
abbrev Reg.SLG_P_VSTAT.LAST_DEC (k : Nat) : Field := ⟨Reg.SLG_P_VSTAT k, 30, 2⟩
abbrev Reg.SLG_P_VSTAT.OPEN (k : Nat) : Field := ⟨Reg.SLG_P_VSTAT k, 16, 8⟩
abbrev Reg.SLG_P_VSTAT.MISSING (k : Nat) : Field := ⟨Reg.SLG_P_VSTAT k, 8, 8⟩
abbrev Reg.SLG_P_VSTAT.CAUSE (k : Nat) : Field := ⟨Reg.SLG_P_VSTAT k, 0, 8⟩

/-- SLG_P_LAST_LO (17_silent_errors.md R420). -/
abbrev Reg.SLG_P_LAST_LO (k : Nat) : Nat := 0x40108 + k * 0x20
abbrev Reg.SLG_P_LAST_LO.STEP (k : Nat) : Field := ⟨Reg.SLG_P_LAST_LO k, 0, 32⟩

/-- SLG_P_LAST_HI (17_silent_errors.md R420). -/
abbrev Reg.SLG_P_LAST_HI (k : Nat) : Nat := 0x4010C + k * 0x20
abbrev Reg.SLG_P_LAST_HI.STEP (k : Nat) : Field := ⟨Reg.SLG_P_LAST_HI k, 0, 16⟩

/-- SLG_P_REPLAYS (17_silent_errors.md R420). -/
abbrev Reg.SLG_P_REPLAYS (k : Nat) : Nat := 0x40110 + k * 0x20
abbrev Reg.SLG_P_REPLAYS.COUNT (k : Nat) : Field := ⟨Reg.SLG_P_REPLAYS k, 0, 32⟩

/-- SLG_P_JOB_BASE_LO (17_silent_errors.md R420). -/
abbrev Reg.SLG_P_JOB_BASE_LO (k : Nat) (j : Nat) : Nat := 0x41000 + k * 0x80 + j * 0x10
abbrev Reg.SLG_P_JOB_BASE_LO.ADDR (k : Nat) (j : Nat) : Field := ⟨Reg.SLG_P_JOB_BASE_LO k j, 16, 16⟩

/-- SLG_P_JOB_BASE_HI (17_silent_errors.md R420). -/
abbrev Reg.SLG_P_JOB_BASE_HI (k : Nat) (j : Nat) : Nat := 0x41004 + k * 0x80 + j * 0x10
abbrev Reg.SLG_P_JOB_BASE_HI.ADDR (k : Nat) (j : Nat) : Field := ⟨Reg.SLG_P_JOB_BASE_HI k j, 0, 24⟩

/-- SLG_P_JOB_CTL (17_silent_errors.md R420). -/
abbrev Reg.SLG_P_JOB_CTL (k : Nat) (j : Nat) : Nat := 0x41008 + k * 0x80 + j * 0x10
abbrev Reg.SLG_P_JOB_CTL.VALID (k : Nat) (j : Nat) : Field := ⟨Reg.SLG_P_JOB_CTL k j, 31, 1⟩
abbrev Reg.SLG_P_JOB_CTL.ENVSEL (k : Nat) (j : Nat) : Field := ⟨Reg.SLG_P_JOB_CTL k j, 0, 1⟩

/-- SLG_TILE_PASS_LO (17_silent_errors.md R420). -/
abbrev Reg.SLG_TILE_PASS_LO (k : Nat) : Nat := 0x44000 + k * 0x10
abbrev Reg.SLG_TILE_PASS_LO.TICK (k : Nat) : Field := ⟨Reg.SLG_TILE_PASS_LO k, 0, 32⟩

/-- SLG_TILE_PASS_HI (17_silent_errors.md R420). -/
abbrev Reg.SLG_TILE_PASS_HI (k : Nat) : Nat := 0x44004 + k * 0x10
abbrev Reg.SLG_TILE_PASS_HI.TICK (k : Nat) : Field := ⟨Reg.SLG_TILE_PASS_HI k, 0, 32⟩

/-- SLG_TILE_STATE (17_silent_errors.md R420). -/
abbrev Reg.SLG_TILE_STATE (k : Nat) : Nat := 0x44008 + k * 0x10
abbrev Reg.SLG_TILE_STATE.STATE (k : Nat) : Field := ⟨Reg.SLG_TILE_STATE k, 30, 2⟩
abbrev Reg.SLG_TILE_STATE.PASSES (k : Nat) : Field := ⟨Reg.SLG_TILE_STATE k, 0, 16⟩

/-- PRT_CTRL (16_partitions_and_preemption.md R396). -/
abbrev Reg.PRT_CTRL : Nat := 0x50000
abbrev Reg.PRT_CTRL.INT_EN : Field := ⟨Reg.PRT_CTRL, 0, 1⟩

/-- PRT_STATUS (16_partitions_and_preemption.md R396). -/
abbrev Reg.PRT_STATUS : Nat := 0x50004
abbrev Reg.PRT_STATUS.FROZEN : Field := ⟨Reg.PRT_STATUS, 16, 12⟩
abbrev Reg.PRT_STATUS.BAYMAP : Field := ⟨Reg.PRT_STATUS, 0, 12⟩

/-- PRT_P_CTRL (16_partitions_and_preemption.md R396). -/
abbrev Reg.PRT_P_CTRL (k : Nat) : Nat := 0x50100 + k * 0x80
abbrev Reg.PRT_P_CTRL.PREEMPT (k : Nat) : Field := ⟨Reg.PRT_P_CTRL k, 31, 1⟩
abbrev Reg.PRT_P_CTRL.RESET (k : Nat) : Field := ⟨Reg.PRT_P_CTRL k, 30, 1⟩
abbrev Reg.PRT_P_CTRL.RELEASE (k : Nat) : Field := ⟨Reg.PRT_P_CTRL k, 29, 1⟩
abbrev Reg.PRT_P_CTRL.DIS (k : Nat) : Field := ⟨Reg.PRT_P_CTRL k, 1, 1⟩
abbrev Reg.PRT_P_CTRL.EN (k : Nat) : Field := ⟨Reg.PRT_P_CTRL k, 0, 1⟩

/-- PRT_P_STAT (16_partitions_and_preemption.md R396). -/
abbrev Reg.PRT_P_STAT (k : Nat) : Nat := 0x50104 + k * 0x80
abbrev Reg.PRT_P_STAT.STATE (k : Nat) : Field := ⟨Reg.PRT_P_STAT k, 30, 2⟩
abbrev Reg.PRT_P_STAT.ENABLE_PENDING (k : Nat) : Field := ⟨Reg.PRT_P_STAT k, 29, 1⟩
abbrev Reg.PRT_P_STAT.DISABLE_PENDING (k : Nat) : Field := ⟨Reg.PRT_P_STAT k, 28, 1⟩
abbrev Reg.PRT_P_STAT.FROZEN (k : Nat) : Field := ⟨Reg.PRT_P_STAT k, 27, 1⟩
abbrev Reg.PRT_P_STAT.RES_VALID (k : Nat) : Field := ⟨Reg.PRT_P_STAT k, 26, 1⟩
abbrev Reg.PRT_P_STAT.RESIDENT (k : Nat) : Field := ⟨Reg.PRT_P_STAT k, 23, 3⟩
abbrev Reg.PRT_P_STAT.SWITCH (k : Nat) : Field := ⟨Reg.PRT_P_STAT k, 20, 3⟩
abbrev Reg.PRT_P_STAT.PREEMPT_PENDING (k : Nat) : Field := ⟨Reg.PRT_P_STAT k, 19, 1⟩
abbrev Reg.PRT_P_STAT.RESET_BUSY (k : Nat) : Field := ⟨Reg.PRT_P_STAT k, 18, 1⟩
abbrev Reg.PRT_P_STAT.ERR_VALID (k : Nat) : Field := ⟨Reg.PRT_P_STAT k, 12, 1⟩
abbrev Reg.PRT_P_STAT.ERR (k : Nat) : Field := ⟨Reg.PRT_P_STAT k, 8, 4⟩

/-- PRT_P_BAYS (16_partitions_and_preemption.md R396). -/
abbrev Reg.PRT_P_BAYS (k : Nat) : Nat := 0x50108 + k * 0x80
abbrev Reg.PRT_P_BAYS.COUNT (k : Nat) : Field := ⟨Reg.PRT_P_BAYS k, 4, 4⟩
abbrev Reg.PRT_P_BAYS.FIRST (k : Nat) : Field := ⟨Reg.PRT_P_BAYS k, 0, 4⟩

/-- PRT_P_SLICE (16_partitions_and_preemption.md R396). -/
abbrev Reg.PRT_P_SLICE (k : Nat) : Nat := 0x5010C + k * 0x80
abbrev Reg.PRT_P_SLICE.STRIKES (k : Nat) : Field := ⟨Reg.PRT_P_SLICE k, 0, 16⟩

/-- PRT_P_SCHED (16_partitions_and_preemption.md R396). -/
abbrev Reg.PRT_P_SCHED (k : Nat) : Nat := 0x50110 + k * 0x80
abbrev Reg.PRT_P_SCHED.LEN (k : Nat) : Field := ⟨Reg.PRT_P_SCHED k, 24, 4⟩
abbrev Reg.PRT_P_SCHED.ENTRY (k : Nat) : Field := ⟨Reg.PRT_P_SCHED k, 0, 24⟩

/-- PRT_P_SWITCHES (16_partitions_and_preemption.md R396). -/
abbrev Reg.PRT_P_SWITCHES (k : Nat) : Nat := 0x50114 + k * 0x80
abbrev Reg.PRT_P_SWITCHES.VALUE (k : Nat) : Field := ⟨Reg.PRT_P_SWITCHES k, 0, 32⟩

/-- PRT_P_SWTICK_LO (16_partitions_and_preemption.md R396). -/
abbrev Reg.PRT_P_SWTICK_LO (k : Nat) : Nat := 0x50118 + k * 0x80
abbrev Reg.PRT_P_SWTICK_LO.VALUE (k : Nat) : Field := ⟨Reg.PRT_P_SWTICK_LO k, 0, 32⟩

/-- PRT_P_SWTICK_HI (16_partitions_and_preemption.md R396). -/
abbrev Reg.PRT_P_SWTICK_HI (k : Nat) : Nat := 0x5011C + k * 0x80
abbrev Reg.PRT_P_SWTICK_HI.VALUE (k : Nat) : Field := ⟨Reg.PRT_P_SWTICK_HI k, 0, 32⟩

/-- PRT_P_JOB_CTX_LO (16_partitions_and_preemption.md R396). -/
abbrev Reg.PRT_P_JOB_CTX_LO (k : Nat) (j : Nat) : Nat := 0x50120 + k * 0x80 + j * 0x8
abbrev Reg.PRT_P_JOB_CTX_LO.ADDR (k : Nat) (j : Nat) : Field := ⟨Reg.PRT_P_JOB_CTX_LO k j, 12, 20⟩
abbrev Reg.PRT_P_JOB_CTX_LO.VALID (k : Nat) (j : Nat) : Field := ⟨Reg.PRT_P_JOB_CTX_LO k j, 0, 1⟩

/-- PRT_P_JOB_CTX_HI (16_partitions_and_preemption.md R396). -/
abbrev Reg.PRT_P_JOB_CTX_HI (k : Nat) (j : Nat) : Nat := 0x50124 + k * 0x80 + j * 0x8
abbrev Reg.PRT_P_JOB_CTX_HI.ADDR (k : Nat) (j : Nat) : Field := ⟨Reg.PRT_P_JOB_CTX_HI k j, 0, 24⟩

/-- PRT_P_JSTAT (16_partitions_and_preemption.md R396). -/
abbrev Reg.PRT_P_JSTAT (k : Nat) (j : Nat) : Nat := 0x50160 + k * 0x80 + j * 0x4
abbrev Reg.PRT_P_JSTAT.STATE (k : Nat) (j : Nat) : Field := ⟨Reg.PRT_P_JSTAT k j, 29, 3⟩
abbrev Reg.PRT_P_JSTAT.FAULT_PENDING (k : Nat) (j : Nat) : Field := ⟨Reg.PRT_P_JSTAT k j, 28, 1⟩
abbrev Reg.PRT_P_JSTAT.HOLD (k : Nat) (j : Nat) : Field := ⟨Reg.PRT_P_JSTAT k j, 27, 1⟩
abbrev Reg.PRT_P_JSTAT.RELEASE (k : Nat) (j : Nat) : Field := ⟨Reg.PRT_P_JSTAT k j, 26, 1⟩
abbrev Reg.PRT_P_JSTAT.RESET (k : Nat) (j : Nat) : Field := ⟨Reg.PRT_P_JSTAT k j, 25, 1⟩
abbrev Reg.PRT_P_JSTAT.SLICES (k : Nat) (j : Nat) : Field := ⟨Reg.PRT_P_JSTAT k j, 0, 16⟩

/-- SRV_CTRL (15_request_lifecycle.md R373). -/
abbrev Reg.SRV_CTRL : Nat := 0x60000
abbrev Reg.SRV_CTRL.PSHIFT : Field := ⟨Reg.SRV_CTRL, 8, 4⟩
abbrev Reg.SRV_CTRL.HOSTJ_EN : Field := ⟨Reg.SRV_CTRL, 4, 1⟩
abbrev Reg.SRV_CTRL.BUDDY_EN : Field := ⟨Reg.SRV_CTRL, 3, 1⟩
abbrev Reg.SRV_CTRL.INT_EN : Field := ⟨Reg.SRV_CTRL, 2, 1⟩
abbrev Reg.SRV_CTRL.BUDGET_EN : Field := ⟨Reg.SRV_CTRL, 1, 1⟩
abbrev Reg.SRV_CTRL.ACCEPT_EN : Field := ⟨Reg.SRV_CTRL, 0, 1⟩

/-- SRV_STATUS (15_request_lifecycle.md R373). -/
abbrev Reg.SRV_STATUS : Nat := 0x60004
abbrev Reg.SRV_STATUS.JMODE : Field := ⟨Reg.SRV_STATUS, 8, 2⟩
abbrev Reg.SRV_STATUS.RECOVERING : Field := ⟨Reg.SRV_STATUS, 7, 1⟩
abbrev Reg.SRV_STATUS.RT_FULL : Field := ⟨Reg.SRV_STATUS, 6, 1⟩
abbrev Reg.SRV_STATUS.JRNL_FULL : Field := ⟨Reg.SRV_STATUS, 5, 1⟩
abbrev Reg.SRV_STATUS.OUT_WAIT : Field := ⟨Reg.SRV_STATUS, 4, 1⟩
abbrev Reg.SRV_STATUS.MIRROR_LOST : Field := ⟨Reg.SRV_STATUS, 3, 1⟩
abbrev Reg.SRV_STATUS.LOG_FROZEN : Field := ⟨Reg.SRV_STATUS, 2, 1⟩

/-- SRV_LIVE (15_request_lifecycle.md R373). -/
abbrev Reg.SRV_LIVE : Nat := 0x60008
abbrev Reg.SRV_LIVE.COUNT : Field := ⟨Reg.SRV_LIVE, 0, 18⟩

/-- SRV_WIN (15_request_lifecycle.md R373). -/
abbrev Reg.SRV_WIN : Nat := 0x6000C
abbrev Reg.SRV_WIN.STRIKES : Field := ⟨Reg.SRV_WIN, 0, 16⟩

/-- SRV_JRNL_BASE_LO (15_request_lifecycle.md R373). -/
abbrev Reg.SRV_JRNL_BASE_LO : Nat := 0x60010
abbrev Reg.SRV_JRNL_BASE_LO.ADDR : Field := ⟨Reg.SRV_JRNL_BASE_LO, 12, 20⟩

/-- SRV_JRNL_BASE_HI (15_request_lifecycle.md R373). -/
abbrev Reg.SRV_JRNL_BASE_HI : Nat := 0x60014
abbrev Reg.SRV_JRNL_BASE_HI.ADDR : Field := ⟨Reg.SRV_JRNL_BASE_HI, 0, 24⟩

/-- SRV_JRNL_MIRROR_LO (15_request_lifecycle.md R373). -/
abbrev Reg.SRV_JRNL_MIRROR_LO : Nat := 0x60018
abbrev Reg.SRV_JRNL_MIRROR_LO.ADDR : Field := ⟨Reg.SRV_JRNL_MIRROR_LO, 12, 20⟩

/-- SRV_JRNL_MIRROR_HI (15_request_lifecycle.md R373). -/
abbrev Reg.SRV_JRNL_MIRROR_HI : Nat := 0x6001C
abbrev Reg.SRV_JRNL_MIRROR_HI.ADDR : Field := ⟨Reg.SRV_JRNL_MIRROR_HI, 0, 24⟩

/-- SRV_JRNL_HOST_LO (15_request_lifecycle.md R373). -/
abbrev Reg.SRV_JRNL_HOST_LO : Nat := 0x60020
abbrev Reg.SRV_JRNL_HOST_LO.ADDR : Field := ⟨Reg.SRV_JRNL_HOST_LO, 12, 20⟩

/-- SRV_JRNL_HOST_HI (15_request_lifecycle.md R373). -/
abbrev Reg.SRV_JRNL_HOST_HI : Nat := 0x60024
abbrev Reg.SRV_JRNL_HOST_HI.ADDR : Field := ⟨Reg.SRV_JRNL_HOST_HI, 0, 32⟩

/-- SRV_JRNL_SIZE (15_request_lifecycle.md R373). -/
abbrev Reg.SRV_JRNL_SIZE : Nat := 0x60028
abbrev Reg.SRV_JRNL_SIZE.MIB : Field := ⟨Reg.SRV_JRNL_SIZE, 0, 16⟩

/-- SRV_ACCEPTS_LO (15_request_lifecycle.md R373). -/
abbrev Reg.SRV_ACCEPTS_LO : Nat := 0x60030
abbrev Reg.SRV_ACCEPTS_LO.VALUE : Field := ⟨Reg.SRV_ACCEPTS_LO, 0, 32⟩

/-- SRV_ACCEPTS_HI (15_request_lifecycle.md R373). -/
abbrev Reg.SRV_ACCEPTS_HI : Nat := 0x60034
abbrev Reg.SRV_ACCEPTS_HI.VALUE : Field := ⟨Reg.SRV_ACCEPTS_HI, 0, 32⟩

/-- SRV_TOKENS_LO (15_request_lifecycle.md R373). -/
abbrev Reg.SRV_TOKENS_LO : Nat := 0x60038
abbrev Reg.SRV_TOKENS_LO.VALUE : Field := ⟨Reg.SRV_TOKENS_LO, 0, 32⟩

/-- SRV_TOKENS_HI (15_request_lifecycle.md R373). -/
abbrev Reg.SRV_TOKENS_HI : Nat := 0x6003C
abbrev Reg.SRV_TOKENS_HI.VALUE : Field := ⟨Reg.SRV_TOKENS_HI, 0, 32⟩

/-- SRV_CANCEL_MISS (15_request_lifecycle.md R373). -/
abbrev Reg.SRV_CANCEL_MISS : Nat := 0x60040
abbrev Reg.SRV_CANCEL_MISS.VALUE : Field := ⟨Reg.SRV_CANCEL_MISS, 0, 32⟩

/-- SRV_P_CAP (15_request_lifecycle.md R373). -/
abbrev Reg.SRV_P_CAP (k : Nat) : Nat := 0x60100 + k * 0x20
abbrev Reg.SRV_P_CAP.TOK_MAX (k : Nat) : Field := ⟨Reg.SRV_P_CAP k, 16, 16⟩
abbrev Reg.SRV_P_CAP.B_MAX (k : Nat) : Field := ⟨Reg.SRV_P_CAP k, 0, 16⟩

/-- SRV_P_AGE (15_request_lifecycle.md R373). -/
abbrev Reg.SRV_P_AGE (k : Nat) : Nat := 0x60104 + k * 0x20
abbrev Reg.SRV_P_AGE.GAP_LIMIT (k : Nat) : Field := ⟨Reg.SRV_P_AGE k, 16, 16⟩
abbrev Reg.SRV_P_AGE.AGE_LIMIT (k : Nat) : Field := ⟨Reg.SRV_P_AGE k, 0, 16⟩

/-- SRV_P_CHUNK (15_request_lifecycle.md R373). -/
abbrev Reg.SRV_P_CHUNK (k : Nat) : Nat := 0x60108 + k * 0x20
abbrev Reg.SRV_P_CHUNK.CHUNK_MAX (k : Nat) : Field := ⟨Reg.SRV_P_CHUNK k, 16, 16⟩
abbrev Reg.SRV_P_CHUNK.CHUNK_MIN (k : Nat) : Field := ⟨Reg.SRV_P_CHUNK k, 0, 16⟩

/-- SRV_P_STEP_LO (15_request_lifecycle.md R373). -/
abbrev Reg.SRV_P_STEP_LO (k : Nat) : Nat := 0x6010C + k * 0x20
abbrev Reg.SRV_P_STEP_LO.STEP (k : Nat) : Field := ⟨Reg.SRV_P_STEP_LO k, 0, 32⟩

/-- SRV_P_STEP_HI (15_request_lifecycle.md R373). -/
abbrev Reg.SRV_P_STEP_HI (k : Nat) : Nat := 0x60110 + k * 0x20
abbrev Reg.SRV_P_STEP_HI.STEP (k : Nat) : Field := ⟨Reg.SRV_P_STEP_HI k, 0, 16⟩

/-- SRV_LOG_BASE_LO (15_request_lifecycle.md R373). -/
abbrev Reg.SRV_LOG_BASE_LO (k : Nat) : Nat := 0x60400 + k * 0x20
abbrev Reg.SRV_LOG_BASE_LO.ADDR (k : Nat) : Field := ⟨Reg.SRV_LOG_BASE_LO k, 12, 20⟩

/-- SRV_LOG_BASE_HI (15_request_lifecycle.md R373). -/
abbrev Reg.SRV_LOG_BASE_HI (k : Nat) : Nat := 0x60404 + k * 0x20
abbrev Reg.SRV_LOG_BASE_HI.ADDR (k : Nat) : Field := ⟨Reg.SRV_LOG_BASE_HI k, 0, 32⟩

/-- SRV_LOG_OUT_LO (15_request_lifecycle.md R373). -/
abbrev Reg.SRV_LOG_OUT_LO (k : Nat) : Nat := 0x60408 + k * 0x20
abbrev Reg.SRV_LOG_OUT_LO.ADDR (k : Nat) : Field := ⟨Reg.SRV_LOG_OUT_LO k, 12, 20⟩

/-- SRV_LOG_OUT_HI (15_request_lifecycle.md R373). -/
abbrev Reg.SRV_LOG_OUT_HI (k : Nat) : Nat := 0x6040C + k * 0x20
abbrev Reg.SRV_LOG_OUT_HI.ADDR (k : Nat) : Field := ⟨Reg.SRV_LOG_OUT_HI k, 0, 32⟩

/-- SRV_LOG_CTL (15_request_lifecycle.md R373). -/
abbrev Reg.SRV_LOG_CTL (k : Nat) : Nat := 0x60410 + k * 0x20
abbrev Reg.SRV_LOG_CTL.EN (k : Nat) : Field := ⟨Reg.SRV_LOG_CTL k, 31, 1⟩
abbrev Reg.SRV_LOG_CTL.RELEASE (k : Nat) : Field := ⟨Reg.SRV_LOG_CTL k, 30, 1⟩
abbrev Reg.SRV_LOG_CTL.LOG2N (k : Nat) : Field := ⟨Reg.SRV_LOG_CTL k, 20, 4⟩
abbrev Reg.SRV_LOG_CTL.OUT_LOG2N (k : Nat) : Field := ⟨Reg.SRV_LOG_CTL k, 16, 4⟩
abbrev Reg.SRV_LOG_CTL.FUNC (k : Nat) : Field := ⟨Reg.SRV_LOG_CTL k, 8, 8⟩

/-- SRV_LOG_ACCT (15_request_lifecycle.md R373). -/
abbrev Reg.SRV_LOG_ACCT (k : Nat) : Nat := 0x60414 + k * 0x20
abbrev Reg.SRV_LOG_ACCT.ACCT_HI (k : Nat) : Field := ⟨Reg.SRV_LOG_ACCT k, 16, 16⟩
abbrev Reg.SRV_LOG_ACCT.ACCT_LO (k : Nat) : Field := ⟨Reg.SRV_LOG_ACCT k, 0, 16⟩

/-- SRV_LOG_STAT (15_request_lifecycle.md R373). -/
abbrev Reg.SRV_LOG_STAT (k : Nat) : Nat := 0x60418 + k * 0x20
abbrev Reg.SRV_LOG_STAT.FROZEN (k : Nat) : Field := ⟨Reg.SRV_LOG_STAT k, 31, 1⟩
abbrev Reg.SRV_LOG_STAT.OUT_WAIT (k : Nat) : Field := ⟨Reg.SRV_LOG_STAT k, 30, 1⟩
abbrev Reg.SRV_LOG_STAT.HEAD (k : Nat) : Field := ⟨Reg.SRV_LOG_STAT k, 0, 16⟩

/-- SRV_LOG_OUTIDX (15_request_lifecycle.md R373). -/
abbrev Reg.SRV_LOG_OUTIDX (k : Nat) : Nat := 0x6041C + k * 0x20
abbrev Reg.SRV_LOG_OUTIDX.INDEX (k : Nat) : Field := ⟨Reg.SRV_LOG_OUTIDX k, 0, 32⟩

/-- SRV_TGT (15_request_lifecycle.md R373). -/
abbrev Reg.SRV_TGT (k : Nat) : Nat := 0x61000 + k * 0x4
abbrev Reg.SRV_TGT.VALID (k : Nat) : Field := ⟨Reg.SRV_TGT k, 31, 1⟩
abbrev Reg.SRV_TGT.SPEC_OK (k : Nat) : Field := ⟨Reg.SRV_TGT k, 30, 1⟩
abbrev Reg.SRV_TGT.PART (k : Nat) : Field := ⟨Reg.SRV_TGT k, 24, 4⟩
abbrev Reg.SRV_TGT.DRAFT_PART (k : Nat) : Field := ⟨Reg.SRV_TGT k, 20, 4⟩
abbrev Reg.SRV_TGT.MAXCTX (k : Nat) : Field := ⟨Reg.SRV_TGT k, 0, 13⟩

/-- SRV_ACCT_BUDGET (15_request_lifecycle.md R373). -/
abbrev Reg.SRV_ACCT_BUDGET (k : Nat) : Nat := 0x64000 + k * 0x8
abbrev Reg.SRV_ACCT_BUDGET.UNITS (k : Nat) : Field := ⟨Reg.SRV_ACCT_BUDGET k, 0, 32⟩

/-- SRV_ACCT_USED (15_request_lifecycle.md R373). -/
abbrev Reg.SRV_ACCT_USED (k : Nat) : Nat := 0x64004 + k * 0x8
abbrev Reg.SRV_ACCT_USED.UNITS (k : Nat) : Field := ⟨Reg.SRV_ACCT_USED k, 0, 32⟩

/-- CFG_ADMIT_CTRL (12_configurations_and_weight_sets.md R303). -/
abbrev Reg.CFG_ADMIT_CTRL : Nat := 0x70000
abbrev Reg.CFG_ADMIT_CTRL.START : Field := ⟨Reg.CFG_ADMIT_CTRL, 31, 1⟩
abbrev Reg.CFG_ADMIT_CTRL.OP : Field := ⟨Reg.CFG_ADMIT_CTRL, 28, 1⟩
abbrev Reg.CFG_ADMIT_CTRL.PART : Field := ⟨Reg.CFG_ADMIT_CTRL, 24, 4⟩
abbrev Reg.CFG_ADMIT_CTRL.COUNT : Field := ⟨Reg.CFG_ADMIT_CTRL, 0, 7⟩

/-- CFG_ADMIT_STAT (12_configurations_and_weight_sets.md R303). -/
abbrev Reg.CFG_ADMIT_STAT : Nat := 0x70004
abbrev Reg.CFG_ADMIT_STAT.BUSY : Field := ⟨Reg.CFG_ADMIT_STAT, 31, 1⟩
abbrev Reg.CFG_ADMIT_STAT.ERR : Field := ⟨Reg.CFG_ADMIT_STAT, 30, 1⟩
abbrev Reg.CFG_ADMIT_STAT.KIND : Field := ⟨Reg.CFG_ADMIT_STAT, 16, 8⟩
abbrev Reg.CFG_ADMIT_STAT.ENTRY : Field := ⟨Reg.CFG_ADMIT_STAT, 0, 6⟩

/-- CFG_ADMIT_LIST_LO (12_configurations_and_weight_sets.md R303). -/
abbrev Reg.CFG_ADMIT_LIST_LO : Nat := 0x70008
abbrev Reg.CFG_ADMIT_LIST_LO.ADDR : Field := ⟨Reg.CFG_ADMIT_LIST_LO, 4, 28⟩

/-- CFG_ADMIT_LIST_HI (12_configurations_and_weight_sets.md R303). -/
abbrev Reg.CFG_ADMIT_LIST_HI : Nat := 0x7000C
abbrev Reg.CFG_ADMIT_LIST_HI.ADDR : Field := ⟨Reg.CFG_ADMIT_LIST_HI, 0, 24⟩

/-- CFG_WS_CMD (12_configurations_and_weight_sets.md R303). -/
abbrev Reg.CFG_WS_CMD : Nat := 0x70010
abbrev Reg.CFG_WS_CMD.START : Field := ⟨Reg.CFG_WS_CMD, 31, 1⟩
abbrev Reg.CFG_WS_CMD.OP : Field := ⟨Reg.CFG_WS_CMD, 28, 1⟩
abbrev Reg.CFG_WS_CMD.SLOT : Field := ⟨Reg.CFG_WS_CMD, 24, 1⟩
abbrev Reg.CFG_WS_CMD.WS : Field := ⟨Reg.CFG_WS_CMD, 0, 9⟩

/-- CFG_WS_STAT (12_configurations_and_weight_sets.md R303). -/
abbrev Reg.CFG_WS_STAT : Nat := 0x70014
abbrev Reg.CFG_WS_STAT.REFUSED : Field := ⟨Reg.CFG_WS_STAT, 31, 1⟩
abbrev Reg.CFG_WS_STAT.FILL_ERR : Field := ⟨Reg.CFG_WS_STAT, 30, 1⟩
abbrev Reg.CFG_WS_STAT.FILL_BUSY : Field := ⟨Reg.CFG_WS_STAT, 29, 1⟩
abbrev Reg.CFG_WS_STAT.FILL_WS : Field := ⟨Reg.CFG_WS_STAT, 0, 9⟩

/-- CFG_P_CTRL (12_configurations_and_weight_sets.md R303). -/
abbrev Reg.CFG_P_CTRL (k : Nat) : Nat := 0x70100 + k * 0x80
abbrev Reg.CFG_P_CTRL.LOAD (k : Nat) : Field := ⟨Reg.CFG_P_CTRL k, 31, 1⟩
abbrev Reg.CFG_P_CTRL.ARM (k : Nat) : Field := ⟨Reg.CFG_P_CTRL k, 30, 1⟩
abbrev Reg.CFG_P_CTRL.DRAIN_LIMIT (k : Nat) : Field := ⟨Reg.CFG_P_CTRL k, 0, 16⟩

/-- CFG_P_STATUS (12_configurations_and_weight_sets.md R303). -/
abbrev Reg.CFG_P_STATUS (k : Nat) : Nat := 0x70104 + k * 0x80
abbrev Reg.CFG_P_STATUS.SHADOW (k : Nat) : Field := ⟨Reg.CFG_P_STATUS k, 28, 4⟩
abbrev Reg.CFG_P_STATUS.ACTIVE_VALID (k : Nat) : Field := ⟨Reg.CFG_P_STATUS k, 27, 1⟩
abbrev Reg.CFG_P_STATUS.ARM_REFUSED (k : Nat) : Field := ⟨Reg.CFG_P_STATUS k, 26, 1⟩
abbrev Reg.CFG_P_STATUS.LOAD_REFUSED (k : Nat) : Field := ⟨Reg.CFG_P_STATUS k, 25, 1⟩
abbrev Reg.CFG_P_STATUS.ING_OVF (k : Nat) : Field := ⟨Reg.CFG_P_STATUS k, 24, 1⟩
abbrev Reg.CFG_P_STATUS.LOAD_ERR (k : Nat) : Field := ⟨Reg.CFG_P_STATUS k, 20, 4⟩
abbrev Reg.CFG_P_STATUS.REPORTED (k : Nat) : Field := ⟨Reg.CFG_P_STATUS k, 8, 8⟩
abbrev Reg.CFG_P_STATUS.ING_SPACE (k : Nat) : Field := ⟨Reg.CFG_P_STATUS k, 0, 7⟩

/-- CFG_P_SIMG_LO (12_configurations_and_weight_sets.md R303). -/
abbrev Reg.CFG_P_SIMG_LO (k : Nat) : Nat := 0x70108 + k * 0x80
abbrev Reg.CFG_P_SIMG_LO.ADDR (k : Nat) : Field := ⟨Reg.CFG_P_SIMG_LO k, 7, 25⟩

/-- CFG_P_SIMG_HI (12_configurations_and_weight_sets.md R303). -/
abbrev Reg.CFG_P_SIMG_HI (k : Nat) : Nat := 0x7010C + k * 0x80
abbrev Reg.CFG_P_SIMG_HI.ADDR (k : Nat) : Field := ⟨Reg.CFG_P_SIMG_HI k, 0, 24⟩

/-- CFG_P_AIMG_LO (12_configurations_and_weight_sets.md R303). -/
abbrev Reg.CFG_P_AIMG_LO (k : Nat) : Nat := 0x70110 + k * 0x80
abbrev Reg.CFG_P_AIMG_LO.ADDR (k : Nat) : Field := ⟨Reg.CFG_P_AIMG_LO k, 0, 32⟩

/-- CFG_P_AIMG_HI (12_configurations_and_weight_sets.md R303). -/
abbrev Reg.CFG_P_AIMG_HI (k : Nat) : Nat := 0x70114 + k * 0x80
abbrev Reg.CFG_P_AIMG_HI.ADDR (k : Nat) : Field := ⟨Reg.CFG_P_AIMG_HI k, 0, 24⟩

/-- CFG_P_SWAP_TICK_LO (12_configurations_and_weight_sets.md R303). -/
abbrev Reg.CFG_P_SWAP_TICK_LO (k : Nat) : Nat := 0x70118 + k * 0x80
abbrev Reg.CFG_P_SWAP_TICK_LO.VALUE (k : Nat) : Field := ⟨Reg.CFG_P_SWAP_TICK_LO k, 0, 32⟩

/-- CFG_P_SWAP_TICK_HI (12_configurations_and_weight_sets.md R303). -/
abbrev Reg.CFG_P_SWAP_TICK_HI (k : Nat) : Nat := 0x7011C + k * 0x80
abbrev Reg.CFG_P_SWAP_TICK_HI.VALUE (k : Nat) : Field := ⟨Reg.CFG_P_SWAP_TICK_HI k, 0, 32⟩

/-- CFG_P_SWAPS (12_configurations_and_weight_sets.md R303). -/
abbrev Reg.CFG_P_SWAPS (k : Nat) : Nat := 0x70120 + k * 0x80
abbrev Reg.CFG_P_SWAPS.VALUE (k : Nat) : Field := ⟨Reg.CFG_P_SWAPS k, 0, 32⟩

/-- CFG_P_ING_POST (12_configurations_and_weight_sets.md R303). -/
abbrev Reg.CFG_P_ING_POST (k : Nat) : Nat := 0x70124 + k * 0x80
abbrev Reg.CFG_P_ING_POST.KIND (k : Nat) : Field := ⟨Reg.CFG_P_ING_POST k, 4, 2⟩
abbrev Reg.CFG_P_ING_POST.CH (k : Nat) : Field := ⟨Reg.CFG_P_ING_POST k, 0, 3⟩

/-- CFG_P_SMEAS (12_configurations_and_weight_sets.md R303). -/
abbrev Reg.CFG_P_SMEAS (k : Nat) (j : Nat) : Nat := 0x70140 + k * 0x80 + j * 0x4
abbrev Reg.CFG_P_SMEAS.DIGEST (k : Nat) (j : Nat) : Field := ⟨Reg.CFG_P_SMEAS k j, 0, 32⟩

/-- CFG_P_AMEAS (12_configurations_and_weight_sets.md R303). -/
abbrev Reg.CFG_P_AMEAS (k : Nat) (j : Nat) : Nat := 0x70160 + k * 0x80 + j * 0x4
abbrev Reg.CFG_P_AMEAS.DIGEST (k : Nat) (j : Nat) : Field := ⟨Reg.CFG_P_AMEAS k j, 0, 32⟩

/-- CFG_P_ING_D (12_configurations_and_weight_sets.md R303). -/
abbrev Reg.CFG_P_ING_D (k : Nat) (j : Nat) : Nat := 0x71000 + k * 0x80 + j * 0x4
abbrev Reg.CFG_P_ING_D.DATA (k : Nat) (j : Nat) : Field := ⟨Reg.CFG_P_ING_D k j, 0, 32⟩

/-- CFG_WS_W0 (12_configurations_and_weight_sets.md R303). -/
abbrev Reg.CFG_WS_W0 (k : Nat) : Nat := 0x78000 + k * 0x40
abbrev Reg.CFG_WS_W0.VALID (k : Nat) : Field := ⟨Reg.CFG_WS_W0 k, 31, 1⟩
abbrev Reg.CFG_WS_W0.PART (k : Nat) : Field := ⟨Reg.CFG_WS_W0 k, 24, 4⟩
abbrev Reg.CFG_WS_W0.FREED1 (k : Nat) : Field := ⟨Reg.CFG_WS_W0 k, 3, 1⟩
abbrev Reg.CFG_WS_W0.FREED0 (k : Nat) : Field := ⟨Reg.CFG_WS_W0 k, 2, 1⟩
abbrev Reg.CFG_WS_W0.CUR (k : Nat) : Field := ⟨Reg.CFG_WS_W0 k, 1, 1⟩

/-- CFG_WS_GEN (12_configurations_and_weight_sets.md R303). -/
abbrev Reg.CFG_WS_GEN (k : Nat) (j : Nat) : Nat := 0x78004 + k * 0x40 + j * 0x4
abbrev Reg.CFG_WS_GEN.GEN (k : Nat) (j : Nat) : Field := ⟨Reg.CFG_WS_GEN k j, 0, 32⟩

/-- CFG_WS_CAPT (12_configurations_and_weight_sets.md R303). -/
abbrev Reg.CFG_WS_CAPT (k : Nat) (j : Nat) : Nat := 0x7800C + k * 0x40 + j * 0x4
abbrev Reg.CFG_WS_CAPT.CAPT (k : Nat) (j : Nat) : Field := ⟨Reg.CFG_WS_CAPT k j, 0, 32⟩

/-- CFG_WS_BASE_LO (12_configurations_and_weight_sets.md R303). -/
abbrev Reg.CFG_WS_BASE_LO (k : Nat) (j : Nat) : Nat := 0x78014 + k * 0x40 + j * 0x8
abbrev Reg.CFG_WS_BASE_LO.BASE (k : Nat) (j : Nat) : Field := ⟨Reg.CFG_WS_BASE_LO k j, 16, 16⟩

/-- CFG_WS_BASE_HI (12_configurations_and_weight_sets.md R303). -/
abbrev Reg.CFG_WS_BASE_HI (k : Nat) (j : Nat) : Nat := 0x78018 + k * 0x40 + j * 0x8
abbrev Reg.CFG_WS_BASE_HI.BASE (k : Nat) (j : Nat) : Field := ⟨Reg.CFG_WS_BASE_HI k j, 0, 16⟩

/-- CFG_WS_LEN (12_configurations_and_weight_sets.md R303). -/
abbrev Reg.CFG_WS_LEN (k : Nat) (j : Nat) : Nat := 0x78024 + k * 0x40 + j * 0x4
abbrev Reg.CFG_WS_LEN.LEN (k : Nat) (j : Nat) : Field := ⟨Reg.CFG_WS_LEN k j, 0, 32⟩

/-- XLT_CTRL (08_address_space.md R198). -/
abbrev Reg.XLT_CTRL : Nat := 0x8000000
abbrev Reg.XLT_CTRL.KICK : Field := ⟨Reg.XLT_CTRL, 2, 1⟩
abbrev Reg.XLT_CTRL.INT_EN : Field := ⟨Reg.XLT_CTRL, 1, 1⟩
abbrev Reg.XLT_CTRL.DEMAND_EN : Field := ⟨Reg.XLT_CTRL, 0, 1⟩

/-- XLT_STATUS (08_address_space.md R198). -/
abbrev Reg.XLT_STATUS : Nat := 0x8000004
abbrev Reg.XLT_STATUS.WR_IGNORED : Field := ⟨Reg.XLT_STATUS, 5, 1⟩
abbrev Reg.XLT_STATUS.INV_IGNORED : Field := ⟨Reg.XLT_STATUS, 4, 1⟩
abbrev Reg.XLT_STATUS.FETCH_ERR : Field := ⟨Reg.XLT_STATUS, 3, 1⟩
abbrev Reg.XLT_STATUS.FRAME_WAIT : Field := ⟨Reg.XLT_STATUS, 2, 1⟩
abbrev Reg.XLT_STATUS.HOLE : Field := ⟨Reg.XLT_STATUS, 1, 1⟩
abbrev Reg.XLT_STATUS.INV_BUSY : Field := ⟨Reg.XLT_STATUS, 0, 1⟩

/-- XLT_INV_CTRL (08_address_space.md R198). -/
abbrev Reg.XLT_INV_CTRL : Nat := 0x8000008
abbrev Reg.XLT_INV_CTRL.START : Field := ⟨Reg.XLT_INV_CTRL, 31, 1⟩
abbrev Reg.XLT_INV_CTRL.OP : Field := ⟨Reg.XLT_INV_CTRL, 24, 2⟩
abbrev Reg.XLT_INV_CTRL.PART : Field := ⟨Reg.XLT_INV_CTRL, 16, 4⟩

/-- XLT_INV_PAGES (08_address_space.md R198). -/
abbrev Reg.XLT_INV_PAGES : Nat := 0x800000C
abbrev Reg.XLT_INV_PAGES.PAGES : Field := ⟨Reg.XLT_INV_PAGES, 0, 32⟩

/-- XLT_INV_VA_LO (08_address_space.md R198). -/
abbrev Reg.XLT_INV_VA_LO : Nat := 0x8000010
abbrev Reg.XLT_INV_VA_LO.VA : Field := ⟨Reg.XLT_INV_VA_LO, 16, 16⟩

/-- XLT_INV_VA_HI (08_address_space.md R198). -/
abbrev Reg.XLT_INV_VA_HI : Nat := 0x8000014
abbrev Reg.XLT_INV_VA_HI.VA : Field := ⟨Reg.XLT_INV_VA_HI, 0, 16⟩

/-- XLT_HOLE_LO (08_address_space.md R198). -/
abbrev Reg.XLT_HOLE_LO : Nat := 0x8000018
abbrev Reg.XLT_HOLE_LO.VALUE : Field := ⟨Reg.XLT_HOLE_LO, 0, 32⟩

/-- XLT_HOLE_HI (08_address_space.md R198). -/
abbrev Reg.XLT_HOLE_HI : Nat := 0x800001C
abbrev Reg.XLT_HOLE_HI.VALUE : Field := ⟨Reg.XLT_HOLE_HI, 0, 32⟩

/-- XLT_DEMAND_LO (08_address_space.md R198). -/
abbrev Reg.XLT_DEMAND_LO : Nat := 0x8000020
abbrev Reg.XLT_DEMAND_LO.VALUE : Field := ⟨Reg.XLT_DEMAND_LO, 0, 32⟩

/-- XLT_DEMAND_HI (08_address_space.md R198). -/
abbrev Reg.XLT_DEMAND_HI : Nat := 0x8000024
abbrev Reg.XLT_DEMAND_HI.VALUE : Field := ⟨Reg.XLT_DEMAND_HI, 0, 32⟩

/-- XLT_MISS_LO (08_address_space.md R198). -/
abbrev Reg.XLT_MISS_LO : Nat := 0x8000028
abbrev Reg.XLT_MISS_LO.VALUE : Field := ⟨Reg.XLT_MISS_LO, 0, 32⟩

/-- XLT_MISS_HI (08_address_space.md R198). -/
abbrev Reg.XLT_MISS_HI : Nat := 0x800002C
abbrev Reg.XLT_MISS_HI.VALUE : Field := ⟨Reg.XLT_MISS_HI, 0, 32⟩

/-- XLT_PF_DROP (08_address_space.md R198). -/
abbrev Reg.XLT_PF_DROP : Nat := 0x8000030
abbrev Reg.XLT_PF_DROP.VALUE : Field := ⟨Reg.XLT_PF_DROP, 0, 32⟩

/-- XLT_PTBASE_LO (08_address_space.md R198). -/
abbrev Reg.XLT_PTBASE_LO (k : Nat) : Nat := 0x8000100 + k * 0x8
abbrev Reg.XLT_PTBASE_LO.BASE (k : Nat) : Field := ⟨Reg.XLT_PTBASE_LO k, 12, 20⟩
abbrev Reg.XLT_PTBASE_LO.VALID (k : Nat) : Field := ⟨Reg.XLT_PTBASE_LO k, 0, 1⟩

/-- XLT_PTBASE_HI (08_address_space.md R198). -/
abbrev Reg.XLT_PTBASE_HI (k : Nat) : Nat := 0x8000104 + k * 0x8
abbrev Reg.XLT_PTBASE_HI.BASE (k : Nat) : Field := ⟨Reg.XLT_PTBASE_HI k, 0, 24⟩

/-- XLT_RCB_LO (08_address_space.md R198). -/
abbrev Reg.XLT_RCB_LO (k : Nat) : Nat := 0x8000200 + k * 0x8
abbrev Reg.XLT_RCB_LO.BASE (k : Nat) : Field := ⟨Reg.XLT_RCB_LO k, 6, 26⟩

/-- XLT_RCB_HI (08_address_space.md R198). -/
abbrev Reg.XLT_RCB_HI (k : Nat) : Nat := 0x8000204 + k * 0x8
abbrev Reg.XLT_RCB_HI.BASE (k : Nat) : Field := ⟨Reg.XLT_RCB_HI k, 0, 24⟩

/-- TIER_CTRL (09_tiers_and_movers.md R238). -/
abbrev Reg.TIER_CTRL : Nat := 0x9000000
abbrev Reg.TIER_CTRL.INT_EN : Field := ⟨Reg.TIER_CTRL, 1, 1⟩
abbrev Reg.TIER_CTRL.RING_KICK : Field := ⟨Reg.TIER_CTRL, 0, 1⟩

/-- TIER_STATUS (09_tiers_and_movers.md R238). -/
abbrev Reg.TIER_STATUS : Nat := 0x9000004
abbrev Reg.TIER_STATUS.DEGRADED : Field := ⟨Reg.TIER_STATUS, 1, 1⟩
abbrev Reg.TIER_STATUS.FLUSH_BUSY : Field := ⟨Reg.TIER_STATUS, 0, 1⟩

/-- TIER_HEARTH_HIT_LO (09_tiers_and_movers.md R238). -/
abbrev Reg.TIER_HEARTH_HIT_LO : Nat := 0x9000010
abbrev Reg.TIER_HEARTH_HIT_LO.VALUE : Field := ⟨Reg.TIER_HEARTH_HIT_LO, 0, 32⟩

/-- TIER_HEARTH_HIT_HI (09_tiers_and_movers.md R238). -/
abbrev Reg.TIER_HEARTH_HIT_HI : Nat := 0x9000014
abbrev Reg.TIER_HEARTH_HIT_HI.VALUE : Field := ⟨Reg.TIER_HEARTH_HIT_HI, 0, 32⟩

/-- TIER_HEARTH_MISS_LO (09_tiers_and_movers.md R238). -/
abbrev Reg.TIER_HEARTH_MISS_LO : Nat := 0x9000018
abbrev Reg.TIER_HEARTH_MISS_LO.VALUE : Field := ⟨Reg.TIER_HEARTH_MISS_LO, 0, 32⟩

/-- TIER_HEARTH_MISS_HI (09_tiers_and_movers.md R238). -/
abbrev Reg.TIER_HEARTH_MISS_HI : Nat := 0x900001C
abbrev Reg.TIER_HEARTH_MISS_HI.VALUE : Field := ⟨Reg.TIER_HEARTH_MISS_HI, 0, 32⟩

/-- TIER_UNIT (09_tiers_and_movers.md R238). -/
abbrev Reg.TIER_UNIT (k : Nat) : Nat := 0x9000100 + k * 0x4
abbrev Reg.TIER_UNIT.STATE (k : Nat) : Field := ⟨Reg.TIER_UNIT k, 30, 2⟩
abbrev Reg.TIER_UNIT.ENABLE_PENDING (k : Nat) : Field := ⟨Reg.TIER_UNIT k, 29, 1⟩
abbrev Reg.TIER_UNIT.DISABLE_PENDING (k : Nat) : Field := ⟨Reg.TIER_UNIT k, 28, 1⟩
abbrev Reg.TIER_UNIT.DEGRADED (k : Nat) : Field := ⟨Reg.TIER_UNIT k, 27, 1⟩
abbrev Reg.TIER_UNIT.UE (k : Nat) : Field := ⟨Reg.TIER_UNIT k, 16, 8⟩
abbrev Reg.TIER_UNIT.CE (k : Nat) : Field := ⟨Reg.TIER_UNIT k, 8, 8⟩
abbrev Reg.TIER_UNIT.DIS (k : Nat) : Field := ⟨Reg.TIER_UNIT k, 1, 1⟩
abbrev Reg.TIER_UNIT.EN (k : Nat) : Field := ⟨Reg.TIER_UNIT k, 0, 1⟩

/-- TIER_WARM (09_tiers_and_movers.md R238). -/
abbrev Reg.TIER_WARM (k : Nat) : Nat := 0x9000140 + k * 0x4
abbrev Reg.TIER_WARM.STATE (k : Nat) : Field := ⟨Reg.TIER_WARM k, 30, 2⟩
abbrev Reg.TIER_WARM.ENABLE_PENDING (k : Nat) : Field := ⟨Reg.TIER_WARM k, 29, 1⟩
abbrev Reg.TIER_WARM.DISABLE_PENDING (k : Nat) : Field := ⟨Reg.TIER_WARM k, 28, 1⟩
abbrev Reg.TIER_WARM.DEGRADED (k : Nat) : Field := ⟨Reg.TIER_WARM k, 27, 1⟩
abbrev Reg.TIER_WARM.UE (k : Nat) : Field := ⟨Reg.TIER_WARM k, 16, 8⟩
abbrev Reg.TIER_WARM.CE (k : Nat) : Field := ⟨Reg.TIER_WARM k, 8, 8⟩
abbrev Reg.TIER_WARM.DIS (k : Nat) : Field := ⟨Reg.TIER_WARM k, 1, 1⟩
abbrev Reg.TIER_WARM.EN (k : Nat) : Field := ⟨Reg.TIER_WARM k, 0, 1⟩

/-- TIER_COLD (09_tiers_and_movers.md R238). -/
abbrev Reg.TIER_COLD (k : Nat) : Nat := 0x9000160 + k * 0x4
abbrev Reg.TIER_COLD.STATE (k : Nat) : Field := ⟨Reg.TIER_COLD k, 30, 2⟩
abbrev Reg.TIER_COLD.ENABLE_PENDING (k : Nat) : Field := ⟨Reg.TIER_COLD k, 29, 1⟩
abbrev Reg.TIER_COLD.DISABLE_PENDING (k : Nat) : Field := ⟨Reg.TIER_COLD k, 28, 1⟩
abbrev Reg.TIER_COLD.DEGRADED (k : Nat) : Field := ⟨Reg.TIER_COLD k, 27, 1⟩
abbrev Reg.TIER_COLD.UE (k : Nat) : Field := ⟨Reg.TIER_COLD k, 16, 8⟩
abbrev Reg.TIER_COLD.CE (k : Nat) : Field := ⟨Reg.TIER_COLD k, 8, 8⟩
abbrev Reg.TIER_COLD.DIS (k : Nat) : Field := ⟨Reg.TIER_COLD k, 1, 1⟩
abbrev Reg.TIER_COLD.EN (k : Nat) : Field := ⟨Reg.TIER_COLD k, 0, 1⟩

/-- TIER_WARM_CAP (09_tiers_and_movers.md R238). -/
abbrev Reg.TIER_WARM_CAP (k : Nat) : Nat := 0x9000180 + k * 0x4
abbrev Reg.TIER_WARM_CAP.MIB (k : Nat) : Field := ⟨Reg.TIER_WARM_CAP k, 0, 32⟩

/-- TIER_IORING_BASE_LO (09_tiers_and_movers.md R238). -/
abbrev Reg.TIER_IORING_BASE_LO (k : Nat) : Nat := 0x9000300 + k * 0x10
abbrev Reg.TIER_IORING_BASE_LO.BASE (k : Nat) : Field := ⟨Reg.TIER_IORING_BASE_LO k, 6, 26⟩

/-- TIER_IORING_BASE_HI (09_tiers_and_movers.md R238). -/
abbrev Reg.TIER_IORING_BASE_HI (k : Nat) : Nat := 0x9000304 + k * 0x10
abbrev Reg.TIER_IORING_BASE_HI.LOG2N (k : Nat) : Field := ⟨Reg.TIER_IORING_BASE_HI k, 28, 4⟩
abbrev Reg.TIER_IORING_BASE_HI.BASE (k : Nat) : Field := ⟨Reg.TIER_IORING_BASE_HI k, 0, 24⟩

/-- TIER_IORING_HEAD (09_tiers_and_movers.md R238). -/
abbrev Reg.TIER_IORING_HEAD (k : Nat) : Nat := 0x9000308 + k * 0x10
abbrev Reg.TIER_IORING_HEAD.INDEX (k : Nat) : Field := ⟨Reg.TIER_IORING_HEAD k, 0, 16⟩

/-- TIER_IORING_TAIL (09_tiers_and_movers.md R238). -/
abbrev Reg.TIER_IORING_TAIL (k : Nat) : Nat := 0x900030C + k * 0x10
abbrev Reg.TIER_IORING_TAIL.INDEX (k : Nat) : Field := ⟨Reg.TIER_IORING_TAIL k, 0, 16⟩

/-- EXP_CTRL (10_expert_routing.md R262). -/
abbrev Reg.EXP_CTRL : Nat := 0xA000000
abbrev Reg.EXP_CTRL.INT_EN : Field := ⟨Reg.EXP_CTRL, 1, 1⟩
abbrev Reg.EXP_CTRL.EARLY_EN : Field := ⟨Reg.EXP_CTRL, 0, 1⟩

/-- EXP_STATUS (10_expert_routing.md R262). -/
abbrev Reg.EXP_STATUS : Nat := 0xA000004
abbrev Reg.EXP_STATUS.RT_ERR : Field := ⟨Reg.EXP_STATUS, 2, 1⟩
abbrev Reg.EXP_STATUS.FETCH_ERR : Field := ⟨Reg.EXP_STATUS, 1, 1⟩
abbrev Reg.EXP_STATUS.BUSY : Field := ⟨Reg.EXP_STATUS, 0, 1⟩

/-- EXP_LOOKUPS_LO (10_expert_routing.md R262). -/
abbrev Reg.EXP_LOOKUPS_LO : Nat := 0xA000008
abbrev Reg.EXP_LOOKUPS_LO.VALUE : Field := ⟨Reg.EXP_LOOKUPS_LO, 0, 32⟩

/-- EXP_LOOKUPS_HI (10_expert_routing.md R262). -/
abbrev Reg.EXP_LOOKUPS_HI : Nat := 0xA00000C
abbrev Reg.EXP_LOOKUPS_HI.VALUE : Field := ⟨Reg.EXP_LOOKUPS_HI, 0, 32⟩

/-- EXP_EARLY_LO (10_expert_routing.md R262). -/
abbrev Reg.EXP_EARLY_LO : Nat := 0xA000010
abbrev Reg.EXP_EARLY_LO.VALUE : Field := ⟨Reg.EXP_EARLY_LO, 0, 32⟩

/-- EXP_EARLY_HI (10_expert_routing.md R262). -/
abbrev Reg.EXP_EARLY_HI : Nat := 0xA000014
abbrev Reg.EXP_EARLY_HI.VALUE : Field := ⟨Reg.EXP_EARLY_HI, 0, 32⟩

/-- EXP_EMPTY_LO (10_expert_routing.md R262). -/
abbrev Reg.EXP_EMPTY_LO : Nat := 0xA000018
abbrev Reg.EXP_EMPTY_LO.VALUE : Field := ⟨Reg.EXP_EMPTY_LO, 0, 32⟩

/-- EXP_EMPTY_HI (10_expert_routing.md R262). -/
abbrev Reg.EXP_EMPTY_HI : Nat := 0xA00001C
abbrev Reg.EXP_EMPTY_HI.VALUE : Field := ⟨Reg.EXP_EMPTY_HI, 0, 32⟩

/-- EXP_OVER_LO (10_expert_routing.md R262). -/
abbrev Reg.EXP_OVER_LO : Nat := 0xA000020
abbrev Reg.EXP_OVER_LO.VALUE : Field := ⟨Reg.EXP_OVER_LO, 0, 32⟩

/-- EXP_OVER_HI (10_expert_routing.md R262). -/
abbrev Reg.EXP_OVER_HI : Nat := 0xA000024
abbrev Reg.EXP_OVER_HI.VALUE : Field := ⟨Reg.EXP_OVER_HI, 0, 32⟩

/-- EXP_RTBASE_LO (10_expert_routing.md R262). -/
abbrev Reg.EXP_RTBASE_LO (k : Nat) : Nat := 0xA000100 + k * 0x8
abbrev Reg.EXP_RTBASE_LO.BASE (k : Nat) : Field := ⟨Reg.EXP_RTBASE_LO k, 12, 20⟩
abbrev Reg.EXP_RTBASE_LO.VALID (k : Nat) : Field := ⟨Reg.EXP_RTBASE_LO k, 0, 1⟩

/-- EXP_RTBASE_HI (10_expert_routing.md R262). -/
abbrev Reg.EXP_RTBASE_HI (k : Nat) : Nat := 0xA000104 + k * 0x8
abbrev Reg.EXP_RTBASE_HI.BASE (k : Nat) : Field := ⟨Reg.EXP_RTBASE_HI k, 0, 24⟩

/-- MSH_CTRL (13_lipin_mesh.md R331). -/
abbrev Reg.MSH_CTRL : Nat := 0xB000000
abbrev Reg.MSH_CTRL.VIOL_LIMIT : Field := ⟨Reg.MSH_CTRL, 24, 8⟩
abbrev Reg.MSH_CTRL.LS_TO : Field := ⟨Reg.MSH_CTRL, 16, 8⟩
abbrev Reg.MSH_CTRL.MSG_KICK : Field := ⟨Reg.MSH_CTRL, 2, 1⟩
abbrev Reg.MSH_CTRL.INT_EN : Field := ⟨Reg.MSH_CTRL, 1, 1⟩

/-- MSH_STATUS (13_lipin_mesh.md R331). -/
abbrev Reg.MSH_STATUS : Nat := 0xB000004
abbrev Reg.MSH_STATUS.LS_TIMEOUT : Field := ⟨Reg.MSH_STATUS, 5, 1⟩
abbrev Reg.MSH_STATUS.ISOLATED : Field := ⟨Reg.MSH_STATUS, 4, 1⟩
abbrev Reg.MSH_STATUS.COORD_ERR : Field := ⟨Reg.MSH_STATUS, 3, 1⟩
abbrev Reg.MSH_STATUS.UNROUTED : Field := ⟨Reg.MSH_STATUS, 2, 1⟩
abbrev Reg.MSH_STATUS.MSG_RX : Field := ⟨Reg.MSH_STATUS, 1, 1⟩

/-- MSH_COORD (13_lipin_mesh.md R331). -/
abbrev Reg.MSH_COORD : Nat := 0xB000008
abbrev Reg.MSH_COORD.PY : Field := ⟨Reg.MSH_COORD, 24, 4⟩
abbrev Reg.MSH_COORD.PX : Field := ⟨Reg.MSH_COORD, 16, 3⟩
abbrev Reg.MSH_COORD.LY : Field := ⟨Reg.MSH_COORD, 3, 3⟩
abbrev Reg.MSH_COORD.LX : Field := ⟨Reg.MSH_COORD, 0, 3⟩

/-- MSH_LOCK (13_lipin_mesh.md R331). -/
abbrev Reg.MSH_LOCK : Nat := 0xB00000C
abbrev Reg.MSH_LOCK.LOCK : Field := ⟨Reg.MSH_LOCK, 0, 1⟩

/-- MSH_COLL_TO (13_lipin_mesh.md R331). -/
abbrev Reg.MSH_COLL_TO : Nat := 0xB000010
abbrev Reg.MSH_COLL_TO.STRIKES : Field := ⟨Reg.MSH_COLL_TO, 0, 16⟩

/-- MSH_UNROUTED (13_lipin_mesh.md R331). -/
abbrev Reg.MSH_UNROUTED : Nat := 0xB000014
abbrev Reg.MSH_UNROUTED.COUNT : Field := ⟨Reg.MSH_UNROUTED, 0, 32⟩

/-- MSH_EPOCH_DROP (13_lipin_mesh.md R331). -/
abbrev Reg.MSH_EPOCH_DROP : Nat := 0xB000018
abbrev Reg.MSH_EPOCH_DROP.COUNT : Field := ⟨Reg.MSH_EPOCH_DROP, 0, 32⟩

/-- MSH_PORT_CTRL (13_lipin_mesh.md R331). -/
abbrev Reg.MSH_PORT_CTRL (k : Nat) : Nat := 0xB000020 + k * 0x4
abbrev Reg.MSH_PORT_CTRL.CLASS (k : Nat) : Field := ⟨Reg.MSH_PORT_CTRL k, 2, 2⟩
abbrev Reg.MSH_PORT_CTRL.DIS (k : Nat) : Field := ⟨Reg.MSH_PORT_CTRL k, 1, 1⟩
abbrev Reg.MSH_PORT_CTRL.EN (k : Nat) : Field := ⟨Reg.MSH_PORT_CTRL k, 0, 1⟩

/-- MSH_PORT_STAT (13_lipin_mesh.md R331). -/
abbrev Reg.MSH_PORT_STAT (k : Nat) : Nat := 0xB000040 + k * 0x4
abbrev Reg.MSH_PORT_STAT.STATE (k : Nat) : Field := ⟨Reg.MSH_PORT_STAT k, 30, 2⟩
abbrev Reg.MSH_PORT_STAT.ENABLE_PENDING (k : Nat) : Field := ⟨Reg.MSH_PORT_STAT k, 29, 1⟩
abbrev Reg.MSH_PORT_STAT.DISABLE_PENDING (k : Nat) : Field := ⟨Reg.MSH_PORT_STAT k, 28, 1⟩
abbrev Reg.MSH_PORT_STAT.ISOLATED (k : Nat) : Field := ⟨Reg.MSH_PORT_STAT k, 27, 1⟩
abbrev Reg.MSH_PORT_STAT.TRAIN_FAIL (k : Nat) : Field := ⟨Reg.MSH_PORT_STAT k, 26, 1⟩
abbrev Reg.MSH_PORT_STAT.RETRAINING (k : Nat) : Field := ⟨Reg.MSH_PORT_STAT k, 25, 1⟩
abbrev Reg.MSH_PORT_STAT.RETRAINS (k : Nat) : Field := ⟨Reg.MSH_PORT_STAT k, 0, 8⟩

/-- MSH_PORT_ERR_LO (13_lipin_mesh.md R331). -/
abbrev Reg.MSH_PORT_ERR_LO (k : Nat) : Nat := 0xB000060 + k * 0x8
abbrev Reg.MSH_PORT_ERR_LO.CRC (k : Nat) : Field := ⟨Reg.MSH_PORT_ERR_LO k, 16, 16⟩
abbrev Reg.MSH_PORT_ERR_LO.CE (k : Nat) : Field := ⟨Reg.MSH_PORT_ERR_LO k, 0, 16⟩

/-- MSH_PORT_ERR_HI (13_lipin_mesh.md R331). -/
abbrev Reg.MSH_PORT_ERR_HI (k : Nat) : Nat := 0xB000064 + k * 0x8
abbrev Reg.MSH_PORT_ERR_HI.VIOL (k : Nat) : Field := ⟨Reg.MSH_PORT_ERR_HI k, 24, 8⟩
abbrev Reg.MSH_PORT_ERR_HI.NAK_RX (k : Nat) : Field := ⟨Reg.MSH_PORT_ERR_HI k, 16, 8⟩
abbrev Reg.MSH_PORT_ERR_HI.DROP (k : Nat) : Field := ⟨Reg.MSH_PORT_ERR_HI k, 0, 16⟩

/-- MSH_VCCRD (13_lipin_mesh.md R331). -/
abbrev Reg.MSH_VCCRD (k : Nat) : Nat := 0xB000100 + k * 0x4
abbrev Reg.MSH_VCCRD.FRAMES (k : Nat) : Field := ⟨Reg.MSH_VCCRD k, 0, 13⟩

/-- MSH_L2P (13_lipin_mesh.md R331). -/
abbrev Reg.MSH_L2P (k : Nat) : Nat := 0xB000200 + k * 0x4
abbrev Reg.MSH_L2P.PHYS (k : Nat) : Field := ⟨Reg.MSH_L2P k, 0, 7⟩

/-- MSH_RT (13_lipin_mesh.md R331). -/
abbrev Reg.MSH_RT (k : Nat) : Nat := 0xB000300 + k * 0x4
abbrev Reg.MSH_RT.ENTRIES (k : Nat) : Field := ⟨Reg.MSH_RT k, 0, 32⟩

/-- MSH_GRP_MASK_LO (13_lipin_mesh.md R331). -/
abbrev Reg.MSH_GRP_MASK_LO (k : Nat) : Nat := 0xB000400 + k * 0x10
abbrev Reg.MSH_GRP_MASK_LO.MASK (k : Nat) : Field := ⟨Reg.MSH_GRP_MASK_LO k, 0, 32⟩

/-- MSH_GRP_MASK_HI (13_lipin_mesh.md R331). -/
abbrev Reg.MSH_GRP_MASK_HI (k : Nat) : Nat := 0xB000404 + k * 0x10
abbrev Reg.MSH_GRP_MASK_HI.MASK (k : Nat) : Field := ⟨Reg.MSH_GRP_MASK_HI k, 0, 32⟩

/-- MSH_GRP_CTL (13_lipin_mesh.md R331). -/
abbrev Reg.MSH_GRP_CTL (k : Nat) : Nat := 0xB000408 + k * 0x10
abbrev Reg.MSH_GRP_CTL.VALID (k : Nat) : Field := ⟨Reg.MSH_GRP_CTL k, 31, 1⟩
abbrev Reg.MSH_GRP_CTL.PART (k : Nat) : Field := ⟨Reg.MSH_GRP_CTL k, 24, 4⟩

/-- MSH_P_CTRL (13_lipin_mesh.md R331). -/
abbrev Reg.MSH_P_CTRL (k : Nat) : Nat := 0xB000800 + k * 0x20
abbrev Reg.MSH_P_CTRL.ABORT (k : Nat) : Field := ⟨Reg.MSH_P_CTRL k, 31, 1⟩
abbrev Reg.MSH_P_CTRL.EPOCH (k : Nat) : Field := ⟨Reg.MSH_P_CTRL k, 0, 8⟩

/-- MSH_P_STATUS (13_lipin_mesh.md R331). -/
abbrev Reg.MSH_P_STATUS (k : Nat) : Nat := 0xB000804 + k * 0x20
abbrev Reg.MSH_P_STATUS.STAGE_FULL (k : Nat) : Field := ⟨Reg.MSH_P_STATUS k, 16, 1⟩
abbrev Reg.MSH_P_STATUS.ACTIVE (k : Nat) : Field := ⟨Reg.MSH_P_STATUS k, 0, 16⟩

/-- MSH_P_STAGE_LO (13_lipin_mesh.md R331). -/
abbrev Reg.MSH_P_STAGE_LO (k : Nat) : Nat := 0xB000808 + k * 0x20
abbrev Reg.MSH_P_STAGE_LO.BASE (k : Nat) : Field := ⟨Reg.MSH_P_STAGE_LO k, 26, 6⟩

/-- MSH_P_STAGE_HI (13_lipin_mesh.md R331). -/
abbrev Reg.MSH_P_STAGE_HI (k : Nat) : Nat := 0xB00080C + k * 0x20
abbrev Reg.MSH_P_STAGE_HI.BASE (k : Nat) : Field := ⟨Reg.MSH_P_STAGE_HI k, 0, 24⟩

/-- MSH_MSG_BASE_LO (13_lipin_mesh.md R331). -/
abbrev Reg.MSH_MSG_BASE_LO (k : Nat) (j : Nat) : Nat := 0xB000C00 + k * 0x20 + j * 0x10
abbrev Reg.MSH_MSG_BASE_LO.BASE (k : Nat) (j : Nat) : Field := ⟨Reg.MSH_MSG_BASE_LO k j, 6, 26⟩

/-- MSH_MSG_BASE_HI (13_lipin_mesh.md R331). -/
abbrev Reg.MSH_MSG_BASE_HI (k : Nat) (j : Nat) : Nat := 0xB000C04 + k * 0x20 + j * 0x10
abbrev Reg.MSH_MSG_BASE_HI.LOG2N (k : Nat) (j : Nat) : Field := ⟨Reg.MSH_MSG_BASE_HI k j, 28, 4⟩
abbrev Reg.MSH_MSG_BASE_HI.BASE (k : Nat) (j : Nat) : Field := ⟨Reg.MSH_MSG_BASE_HI k j, 0, 24⟩

/-- MSH_MSG_HEAD (13_lipin_mesh.md R331). -/
abbrev Reg.MSH_MSG_HEAD (k : Nat) (j : Nat) : Nat := 0xB000C08 + k * 0x20 + j * 0x10
abbrev Reg.MSH_MSG_HEAD.INDEX (k : Nat) (j : Nat) : Field := ⟨Reg.MSH_MSG_HEAD k j, 0, 16⟩

/-- MSH_MSG_TAIL (13_lipin_mesh.md R331). -/
abbrev Reg.MSH_MSG_TAIL (k : Nat) (j : Nat) : Nat := 0xB000C0C + k * 0x20 + j * 0x10
abbrev Reg.MSH_MSG_TAIL.INDEX (k : Nat) (j : Nat) : Field := ⟨Reg.MSH_MSG_TAIL k j, 0, 16⟩

/-- CXL_CTRL (19_cxl_ports.md R449). -/
abbrev Reg.CXL_CTRL : Nat := 0xC000000
abbrev Reg.CXL_CTRL.VIOL_LIMIT : Field := ⟨Reg.CXL_CTRL, 24, 8⟩
abbrev Reg.CXL_CTRL.CPL_TO : Field := ⟨Reg.CXL_CTRL, 16, 8⟩
abbrev Reg.CXL_CTRL.POOL_FAILOVER : Field := ⟨Reg.CXL_CTRL, 2, 1⟩
abbrev Reg.CXL_CTRL.INT_EN : Field := ⟨Reg.CXL_CTRL, 1, 1⟩
abbrev Reg.CXL_CTRL.LAT_OPT : Field := ⟨Reg.CXL_CTRL, 0, 1⟩

/-- CXL_STATUS (19_cxl_ports.md R449). -/
abbrev Reg.CXL_STATUS : Nat := 0xC000004
abbrev Reg.CXL_STATUS.ISOLATED : Field := ⟨Reg.CXL_STATUS, 2, 10⟩
abbrev Reg.CXL_STATUS.HOST_UE : Field := ⟨Reg.CXL_STATUS, 1, 1⟩
abbrev Reg.CXL_STATUS.HOST_VIOL : Field := ⟨Reg.CXL_STATUS, 0, 1⟩

/-- CXL_HOST_STAT (19_cxl_ports.md R449). -/
abbrev Reg.CXL_HOST_STAT : Nat := 0xC000008
abbrev Reg.CXL_HOST_STAT.TRAINED : Field := ⟨Reg.CXL_HOST_STAT, 31, 1⟩
abbrev Reg.CXL_HOST_STAT.LATOPT : Field := ⟨Reg.CXL_HOST_STAT, 30, 1⟩
abbrev Reg.CXL_HOST_STAT.ISOLATED : Field := ⟨Reg.CXL_HOST_STAT, 29, 1⟩
abbrev Reg.CXL_HOST_STAT.WIDTH : Field := ⟨Reg.CXL_HOST_STAT, 16, 8⟩
abbrev Reg.CXL_HOST_STAT.RATE : Field := ⟨Reg.CXL_HOST_STAT, 8, 8⟩

/-- CXL_HOST_ERR (19_cxl_ports.md R449). -/
abbrev Reg.CXL_HOST_ERR : Nat := 0xC00000C
abbrev Reg.CXL_HOST_ERR.VIOL : Field := ⟨Reg.CXL_HOST_ERR, 24, 8⟩
abbrev Reg.CXL_HOST_ERR.TIMEOUT : Field := ⟨Reg.CXL_HOST_ERR, 16, 8⟩
abbrev Reg.CXL_HOST_ERR.POISON_RX : Field := ⟨Reg.CXL_HOST_ERR, 8, 8⟩
abbrev Reg.CXL_HOST_ERR.RETRAIN : Field := ⟨Reg.CXL_HOST_ERR, 0, 8⟩

/-- CXL_CACHE_STAT (19_cxl_ports.md R449). -/
abbrev Reg.CXL_CACHE_STAT : Nat := 0xC000010
abbrev Reg.CXL_CACHE_STAT.LINES : Field := ⟨Reg.CXL_CACHE_STAT, 0, 8⟩

/-- CXL_POOL_CFG (19_cxl_ports.md R449). -/
abbrev Reg.CXL_POOL_CFG : Nat := 0xC000014
abbrev Reg.CXL_POOL_CFG.GFD_PID : Field := ⟨Reg.CXL_POOL_CFG, 12, 12⟩
abbrev Reg.CXL_POOL_CFG.SPID : Field := ⟨Reg.CXL_POOL_CFG, 0, 12⟩

/-- CXL_SNOOPS_LO (19_cxl_ports.md R449). -/
abbrev Reg.CXL_SNOOPS_LO : Nat := 0xC000018
abbrev Reg.CXL_SNOOPS_LO.VALUE : Field := ⟨Reg.CXL_SNOOPS_LO, 0, 32⟩

/-- CXL_SNOOPS_HI (19_cxl_ports.md R449). -/
abbrev Reg.CXL_SNOOPS_HI : Nat := 0xC00001C
abbrev Reg.CXL_SNOOPS_HI.VALUE : Field := ⟨Reg.CXL_SNOOPS_HI, 0, 32⟩

/-- CXL_LOCK (19_cxl_ports.md R449). -/
abbrev Reg.CXL_LOCK : Nat := 0xC000020
abbrev Reg.CXL_LOCK.LOCK : Field := ⟨Reg.CXL_LOCK, 0, 1⟩

/-- CXL_PORT_STAT (19_cxl_ports.md R449). -/
abbrev Reg.CXL_PORT_STAT (k : Nat) : Nat := 0xC000100 + k * 0x8
abbrev Reg.CXL_PORT_STAT.TRAINED (k : Nat) : Field := ⟨Reg.CXL_PORT_STAT k, 31, 1⟩
abbrev Reg.CXL_PORT_STAT.LATOPT (k : Nat) : Field := ⟨Reg.CXL_PORT_STAT k, 30, 1⟩
abbrev Reg.CXL_PORT_STAT.ISOLATED (k : Nat) : Field := ⟨Reg.CXL_PORT_STAT k, 29, 1⟩
abbrev Reg.CXL_PORT_STAT.WIDTH (k : Nat) : Field := ⟨Reg.CXL_PORT_STAT k, 16, 8⟩
abbrev Reg.CXL_PORT_STAT.RATE (k : Nat) : Field := ⟨Reg.CXL_PORT_STAT k, 8, 8⟩

/-- CXL_PORT_ERR (19_cxl_ports.md R449). -/
abbrev Reg.CXL_PORT_ERR (k : Nat) : Nat := 0xC000104 + k * 0x8
abbrev Reg.CXL_PORT_ERR.VIOL (k : Nat) : Field := ⟨Reg.CXL_PORT_ERR k, 24, 8⟩
abbrev Reg.CXL_PORT_ERR.TIMEOUT (k : Nat) : Field := ⟨Reg.CXL_PORT_ERR k, 16, 8⟩
abbrev Reg.CXL_PORT_ERR.POISON_RX (k : Nat) : Field := ⟨Reg.CXL_PORT_ERR k, 8, 8⟩
abbrev Reg.CXL_PORT_ERR.RETRAIN (k : Nat) : Field := ⟨Reg.CXL_PORT_ERR k, 0, 8⟩

/-- GRD_ID (03_grid_and_queues.md R59). -/
abbrev Reg.GRD_ID (t : Nat) : Nat := tileBase t + 0x0
abbrev Reg.GRD_ID.TYPE (t : Nat) : Field := ⟨Reg.GRD_ID t, 16, 2⟩
abbrev Reg.GRD_ID.DIE (t : Nat) : Field := ⟨Reg.GRD_ID t, 8, 1⟩
abbrev Reg.GRD_ID.COL (t : Nat) : Field := ⟨Reg.GRD_ID t, 4, 4⟩
abbrev Reg.GRD_ID.ROW (t : Nat) : Field := ⟨Reg.GRD_ID t, 0, 4⟩

/-- GRD_CTRL (03_grid_and_queues.md R59). -/
abbrev Reg.GRD_CTRL (t : Nat) : Nat := tileBase t + 0x4
abbrev Reg.GRD_CTRL.DL_LIMIT (t : Nat) : Field := ⟨Reg.GRD_CTRL t, 8, 5⟩
abbrev Reg.GRD_CTRL.DL_EN (t : Nat) : Field := ⟨Reg.GRD_CTRL t, 0, 1⟩

/-- GRD_LINK (03_grid_and_queues.md R59). -/
abbrev Reg.GRD_LINK (t : Nat) : Nat := tileBase t + 0x8
abbrev Reg.GRD_LINK.PRESENT (t : Nat) : Field := ⟨Reg.GRD_LINK t, 8, 4⟩
abbrev Reg.GRD_LINK.FENCE (t : Nat) : Field := ⟨Reg.GRD_LINK t, 0, 4⟩

/-- GRD_STATUS (03_grid_and_queues.md R59). -/
abbrev Reg.GRD_STATUS (t : Nat) : Nat := tileBase t + 0xC
abbrev Reg.GRD_STATUS.SWAP_ARMED (t : Nat) : Field := ⟨Reg.GRD_STATUS t, 7, 1⟩
abbrev Reg.GRD_STATUS.WR_IGNORED (t : Nat) : Field := ⟨Reg.GRD_STATUS t, 6, 1⟩
abbrev Reg.GRD_STATUS.LAYOUT_ERR (t : Nat) : Field := ⟨Reg.GRD_STATUS t, 5, 1⟩
abbrev Reg.GRD_STATUS.DRAINED (t : Nat) : Field := ⟨Reg.GRD_STATUS t, 4, 1⟩
abbrev Reg.GRD_STATUS.FLIT_UE (t : Nat) : Field := ⟨Reg.GRD_STATUS t, 3, 1⟩
abbrev Reg.GRD_STATUS.ROUTE_ERR (t : Nat) : Field := ⟨Reg.GRD_STATUS t, 2, 1⟩
abbrev Reg.GRD_STATUS.DEADLOCK (t : Nat) : Field := ⟨Reg.GRD_STATUS t, 1, 1⟩
abbrev Reg.GRD_STATUS.FROZEN (t : Nat) : Field := ⟨Reg.GRD_STATUS t, 0, 1⟩

/-- GRD_DL_INFO (03_grid_and_queues.md R59). -/
abbrev Reg.GRD_DL_INFO (t : Nat) : Nat := tileBase t + 0x10
abbrev Reg.GRD_DL_INFO.KIND (t : Nat) : Field := ⟨Reg.GRD_DL_INFO t, 30, 2⟩
abbrev Reg.GRD_DL_INFO.WAITQ (t : Nat) : Field := ⟨Reg.GRD_DL_INFO t, 8, 5⟩
abbrev Reg.GRD_DL_INFO.FULLQ (t : Nat) : Field := ⟨Reg.GRD_DL_INFO t, 0, 5⟩

/-- GRD_FLITS (03_grid_and_queues.md R59). -/
abbrev Reg.GRD_FLITS (t : Nat) : Nat := tileBase t + 0x14
abbrev Reg.GRD_FLITS.COUNT (t : Nat) : Field := ⟨Reg.GRD_FLITS t, 0, 32⟩

/-- GRD_ECC_CNT (03_grid_and_queues.md R59). -/
abbrev Reg.GRD_ECC_CNT (t : Nat) : Nat := tileBase t + 0x18
abbrev Reg.GRD_ECC_CNT.UE (t : Nat) : Field := ⟨Reg.GRD_ECC_CNT t, 16, 16⟩
abbrev Reg.GRD_ECC_CNT.CE (t : Nat) : Field := ⟨Reg.GRD_ECC_CNT t, 0, 16⟩

/-- GRD_RT_A (03_grid_and_queues.md R59). -/
abbrev Reg.GRD_RT_A (t : Nat) (k : Nat) : Nat := tileBase t + 0x100 + k * 0x4
abbrev Reg.GRD_RT_A.VALID (t : Nat) (k : Nat) : Field := ⟨Reg.GRD_RT_A t k, 31, 1⟩
abbrev Reg.GRD_RT_A.OUT (t : Nat) (k : Nat) : Field := ⟨Reg.GRD_RT_A t k, 24, 5⟩
abbrev Reg.GRD_RT_A.IN (t : Nat) (k : Nat) : Field := ⟨Reg.GRD_RT_A t k, 20, 3⟩
abbrev Reg.GRD_RT_A.DQ (t : Nat) (k : Nat) : Field := ⟨Reg.GRD_RT_A t k, 8, 5⟩

/-- GRD_RT_S (03_grid_and_queues.md R59). -/
abbrev Reg.GRD_RT_S (t : Nat) (k : Nat) : Nat := tileBase t + 0x200 + k * 0x4
abbrev Reg.GRD_RT_S.VALID (t : Nat) (k : Nat) : Field := ⟨Reg.GRD_RT_S t k, 31, 1⟩
abbrev Reg.GRD_RT_S.OUT (t : Nat) (k : Nat) : Field := ⟨Reg.GRD_RT_S t k, 24, 5⟩
abbrev Reg.GRD_RT_S.IN (t : Nat) (k : Nat) : Field := ⟨Reg.GRD_RT_S t k, 20, 3⟩
abbrev Reg.GRD_RT_S.DQ (t : Nat) (k : Nat) : Field := ⟨Reg.GRD_RT_S t k, 8, 5⟩

/-- GRD_QD_A (03_grid_and_queues.md R59). -/
abbrev Reg.GRD_QD_A (t : Nat) (k : Nat) : Nat := tileBase t + 0x300 + k * 0x4
abbrev Reg.GRD_QD_A.DEPTH (t : Nat) (k : Nat) : Field := ⟨Reg.GRD_QD_A t k, 16, 12⟩
abbrev Reg.GRD_QD_A.BASE (t : Nat) (k : Nat) : Field := ⟨Reg.GRD_QD_A t k, 0, 11⟩

/-- GRD_QD_S (03_grid_and_queues.md R59). -/
abbrev Reg.GRD_QD_S (t : Nat) (k : Nat) : Nat := tileBase t + 0x400 + k * 0x4
abbrev Reg.GRD_QD_S.DEPTH (t : Nat) (k : Nat) : Field := ⟨Reg.GRD_QD_S t k, 16, 12⟩
abbrev Reg.GRD_QD_S.BASE (t : Nat) (k : Nat) : Field := ⟨Reg.GRD_QD_S t k, 0, 11⟩

/-- GRD_QOCC (03_grid_and_queues.md R59). -/
abbrev Reg.GRD_QOCC (t : Nat) (k : Nat) : Nat := tileBase t + 0x500 + k * 0x4
abbrev Reg.GRD_QOCC.FULL (t : Nat) (k : Nat) : Field := ⟨Reg.GRD_QOCC t k, 31, 1⟩
abbrev Reg.GRD_QOCC.EMPTY (t : Nat) (k : Nat) : Field := ⟨Reg.GRD_QOCC t k, 30, 1⟩
abbrev Reg.GRD_QOCC.QUENCHED (t : Nat) (k : Nat) : Field := ⟨Reg.GRD_QOCC t k, 29, 1⟩
abbrev Reg.GRD_QOCC.OCC (t : Nat) (k : Nat) : Field := ⟨Reg.GRD_QOCC t k, 0, 12⟩

/-- SEQ_STATUS (04_tile_programs.md R93). -/
abbrev Reg.SEQ_STATUS (t : Nat) : Nat := tileBase t + 0x1000
abbrev Reg.SEQ_STATUS.WR_IGNORED (t : Nat) : Field := ⟨Reg.SEQ_STATUS t, 31, 1⟩
abbrev Reg.SEQ_STATUS.BUSY (t : Nat) : Field := ⟨Reg.SEQ_STATUS t, 24, 4⟩
abbrev Reg.SEQ_STATUS.STATE (t : Nat) : Field := ⟨Reg.SEQ_STATUS t, 16, 4⟩
abbrev Reg.SEQ_STATUS.PC (t : Nat) : Field := ⟨Reg.SEQ_STATUS t, 0, 12⟩

/-- SEQ_FAULT (04_tile_programs.md R93). -/
abbrev Reg.SEQ_FAULT (t : Nat) : Nat := tileBase t + 0x1004
abbrev Reg.SEQ_FAULT.VALID (t : Nat) : Field := ⟨Reg.SEQ_FAULT t, 31, 1⟩
abbrev Reg.SEQ_FAULT.ISSUE (t : Nat) : Field := ⟨Reg.SEQ_FAULT t, 26, 1⟩
abbrev Reg.SEQ_FAULT.ENGINE (t : Nat) : Field := ⟨Reg.SEQ_FAULT t, 24, 2⟩
abbrev Reg.SEQ_FAULT.KIND (t : Nat) : Field := ⟨Reg.SEQ_FAULT t, 16, 8⟩
abbrev Reg.SEQ_FAULT.PC (t : Nat) : Field := ⟨Reg.SEQ_FAULT t, 0, 12⟩

/-- SEQ_IMEM (04_tile_programs.md R93). -/
abbrev Reg.SEQ_IMEM (t : Nat) : Nat := tileBase t + 0x1008
abbrev Reg.SEQ_IMEM.CE (t : Nat) : Field := ⟨Reg.SEQ_IMEM t, 16, 16⟩
abbrev Reg.SEQ_IMEM.WR_IGNORED (t : Nat) : Field := ⟨Reg.SEQ_IMEM t, 2, 1⟩
abbrev Reg.SEQ_IMEM.ARMED (t : Nat) : Field := ⟨Reg.SEQ_IMEM t, 1, 1⟩
abbrev Reg.SEQ_IMEM.ACTIVE (t : Nat) : Field := ⟨Reg.SEQ_IMEM t, 0, 1⟩

/-- SEQ_PRED (04_tile_programs.md R93). -/
abbrev Reg.SEQ_PRED (t : Nat) : Nat := tileBase t + 0x100C
abbrev Reg.SEQ_PRED.P (t : Nat) : Field := ⟨Reg.SEQ_PRED t, 1, 7⟩
abbrev Reg.SEQ_PRED.P0 (t : Nat) : Field := ⟨Reg.SEQ_PRED t, 0, 1⟩

/-- SEQ_PROG (04_tile_programs.md R93). -/
abbrev Reg.SEQ_PROG (t : Nat) (k : Nat) : Nat := tileBase t + 0x1010 + k * 0x4
abbrev Reg.SEQ_PROG.VALUE (t : Nat) (k : Nat) : Field := ⟨Reg.SEQ_PROG t k, 0, 32⟩

/-- SEQ_LOOP_REMAIN (04_tile_programs.md R93). -/
abbrev Reg.SEQ_LOOP_REMAIN (t : Nat) (k : Nat) : Nat := tileBase t + 0x1020 + k * 0x10
abbrev Reg.SEQ_LOOP_REMAIN.COUNT (t : Nat) (k : Nat) : Field := ⟨Reg.SEQ_LOOP_REMAIN t k, 0, 32⟩

/-- SEQ_LOOP_TOTAL (04_tile_programs.md R93). -/
abbrev Reg.SEQ_LOOP_TOTAL (t : Nat) (k : Nat) : Nat := tileBase t + 0x1024 + k * 0x10
abbrev Reg.SEQ_LOOP_TOTAL.COUNT (t : Nat) (k : Nat) : Field := ⟨Reg.SEQ_LOOP_TOTAL t k, 0, 32⟩

/-- SEQ_LOOP_CTL (04_tile_programs.md R93). -/
abbrev Reg.SEQ_LOOP_CTL (t : Nat) (k : Nat) : Nat := tileBase t + 0x1028 + k * 0x10
abbrev Reg.SEQ_LOOP_CTL.VALID (t : Nat) (k : Nat) : Field := ⟨Reg.SEQ_LOOP_CTL t k, 31, 1⟩
abbrev Reg.SEQ_LOOP_CTL.END (t : Nat) (k : Nat) : Field := ⟨Reg.SEQ_LOOP_CTL t k, 16, 12⟩
abbrev Reg.SEQ_LOOP_CTL.START (t : Nat) (k : Nat) : Field := ⟨Reg.SEQ_LOOP_CTL t k, 0, 12⟩

/-- SEQ_LOOP_IDX (04_tile_programs.md R93). -/
abbrev Reg.SEQ_LOOP_IDX (t : Nat) (k : Nat) : Nat := tileBase t + 0x102C + k * 0x10
abbrev Reg.SEQ_LOOP_IDX.IDX (t : Nat) (k : Nat) : Field := ⟨Reg.SEQ_LOOP_IDX t k, 0, 8⟩

/-- SEQ_G (04_tile_programs.md R93). -/
abbrev Reg.SEQ_G (t : Nat) (k : Nat) (j : Nat) : Nat := tileBase t + 0x1100 + k * 0x8 + j * 0x4
abbrev Reg.SEQ_G.VALUE (t : Nat) (k : Nat) (j : Nat) : Field := ⟨Reg.SEQ_G t k j, 0, 32⟩

/-- SEQ_S (04_tile_programs.md R93). -/
abbrev Reg.SEQ_S (t : Nat) (k : Nat) (j : Nat) : Nat := tileBase t + 0x1200 + k * 0x10 + j * 0x4
abbrev Reg.SEQ_S.VALUE (t : Nat) (k : Nat) (j : Nat) : Field := ⟨Reg.SEQ_S t k j, 0, 32⟩

/-- SEQ_INST (04_tile_programs.md R93). -/
abbrev Reg.SEQ_INST (t : Nat) (k : Nat) (j : Nat) : Nat := tileBase t + 0x1300 + k * 0x8 + j * 0x4
abbrev Reg.SEQ_INST.VALUE (t : Nat) (k : Nat) (j : Nat) : Field := ⟨Reg.SEQ_INST t k j, 0, 32⟩

/-- ANV_CTRL (05_anvil_tile.md R124). -/
abbrev Reg.ANV_CTRL (t : Nat) : Nat := tileBase t + 0x1400
abbrev Reg.ANV_CTRL.STARVE_EN (t : Nat) : Field := ⟨Reg.ANV_CTRL t, 1, 1⟩
abbrev Reg.ANV_CTRL.GATE_EN (t : Nat) : Field := ⟨Reg.ANV_CTRL t, 0, 1⟩

/-- ANV_STATUS (05_anvil_tile.md R124). -/
abbrev Reg.ANV_STATUS (t : Nat) : Nat := tileBase t + 0x1404
abbrev Reg.ANV_STATUS.SHADOW (t : Nat) : Field := ⟨Reg.ANV_STATUS t, 26, 2⟩
abbrev Reg.ANV_STATUS.ACTIVE_VALID (t : Nat) : Field := ⟨Reg.ANV_STATUS t, 25, 1⟩
abbrev Reg.ANV_STATUS.WAITING (t : Nat) : Field := ⟨Reg.ANV_STATUS t, 24, 1⟩
abbrev Reg.ANV_STATUS.E2_OP (t : Nat) : Field := ⟨Reg.ANV_STATUS t, 20, 4⟩
abbrev Reg.ANV_STATUS.E3_OP (t : Nat) : Field := ⟨Reg.ANV_STATUS t, 16, 4⟩
abbrev Reg.ANV_STATUS.SHD_UNITS (t : Nat) : Field := ⟨Reg.ANV_STATUS t, 0, 10⟩

/-- ANV_WACT (05_anvil_tile.md R124). -/
abbrev Reg.ANV_WACT (t : Nat) : Nat := tileBase t + 0x1408
abbrev Reg.ANV_WACT.VALID (t : Nat) : Field := ⟨Reg.ANV_WACT t, 31, 1⟩
abbrev Reg.ANV_WACT.SP (t : Nat) : Field := ⟨Reg.ANV_WACT t, 30, 1⟩
abbrev Reg.ANV_WACT.WF (t : Nat) : Field := ⟨Reg.ANV_WACT t, 27, 3⟩
abbrev Reg.ANV_WACT.AF (t : Nat) : Field := ⟨Reg.ANV_WACT t, 24, 3⟩
abbrev Reg.ANV_WACT.KIDX (t : Nat) : Field := ⟨Reg.ANV_WACT t, 0, 24⟩

/-- ANV_WSHD (05_anvil_tile.md R124). -/
abbrev Reg.ANV_WSHD (t : Nat) : Nat := tileBase t + 0x140C
abbrev Reg.ANV_WSHD.VALID (t : Nat) : Field := ⟨Reg.ANV_WSHD t, 31, 1⟩
abbrev Reg.ANV_WSHD.SP (t : Nat) : Field := ⟨Reg.ANV_WSHD t, 30, 1⟩
abbrev Reg.ANV_WSHD.WF (t : Nat) : Field := ⟨Reg.ANV_WSHD t, 27, 3⟩
abbrev Reg.ANV_WSHD.AF (t : Nat) : Field := ⟨Reg.ANV_WSHD t, 24, 3⟩
abbrev Reg.ANV_WSHD.KIDX (t : Nat) : Field := ⟨Reg.ANV_WSHD t, 0, 24⟩

/-- ANV_FAULT_VALUE (05_anvil_tile.md R124). -/
abbrev Reg.ANV_FAULT_VALUE (t : Nat) : Nat := tileBase t + 0x1410
abbrev Reg.ANV_FAULT_VALUE.VALUE (t : Nat) : Field := ⟨Reg.ANV_FAULT_VALUE t, 0, 32⟩

/-- ANV_ECC_CNT (05_anvil_tile.md R124). -/
abbrev Reg.ANV_ECC_CNT (t : Nat) : Nat := tileBase t + 0x1414
abbrev Reg.ANV_ECC_CNT.UE (t : Nat) : Field := ⟨Reg.ANV_ECC_CNT t, 16, 16⟩
abbrev Reg.ANV_ECC_CNT.CE (t : Nat) : Field := ⟨Reg.ANV_ECC_CNT t, 0, 16⟩

/-- ANV_BUSY_LO (05_anvil_tile.md R124). -/
abbrev Reg.ANV_BUSY_LO (t : Nat) : Nat := tileBase t + 0x1418
abbrev Reg.ANV_BUSY_LO.VALUE (t : Nat) : Field := ⟨Reg.ANV_BUSY_LO t, 0, 32⟩

/-- ANV_BUSY_HI (05_anvil_tile.md R124). -/
abbrev Reg.ANV_BUSY_HI (t : Nat) : Nat := tileBase t + 0x141C
abbrev Reg.ANV_BUSY_HI.VALUE (t : Nat) : Field := ⟨Reg.ANV_BUSY_HI t, 0, 32⟩

/-- ANV_WAVES_LO (05_anvil_tile.md R124). -/
abbrev Reg.ANV_WAVES_LO (t : Nat) : Nat := tileBase t + 0x1420
abbrev Reg.ANV_WAVES_LO.VALUE (t : Nat) : Field := ⟨Reg.ANV_WAVES_LO t, 0, 32⟩

/-- ANV_WAVES_HI (05_anvil_tile.md R124). -/
abbrev Reg.ANV_WAVES_HI (t : Nat) : Nat := tileBase t + 0x1424
abbrev Reg.ANV_WAVES_HI.VALUE (t : Nat) : Field := ⟨Reg.ANV_WAVES_HI t, 0, 32⟩

/-- ANV_WSTALL_LO (05_anvil_tile.md R124). -/
abbrev Reg.ANV_WSTALL_LO (t : Nat) : Nat := tileBase t + 0x1428
abbrev Reg.ANV_WSTALL_LO.VALUE (t : Nat) : Field := ⟨Reg.ANV_WSTALL_LO t, 0, 32⟩

/-- ANV_WSTALL_HI (05_anvil_tile.md R124). -/
abbrev Reg.ANV_WSTALL_HI (t : Nat) : Nat := tileBase t + 0x142C
abbrev Reg.ANV_WSTALL_HI.VALUE (t : Nat) : Field := ⟨Reg.ANV_WSTALL_HI t, 0, 32⟩

/-- ANV_GATED_LO (05_anvil_tile.md R124). -/
abbrev Reg.ANV_GATED_LO (t : Nat) : Nat := tileBase t + 0x1430
abbrev Reg.ANV_GATED_LO.VALUE (t : Nat) : Field := ⟨Reg.ANV_GATED_LO t, 0, 32⟩

/-- ANV_GATED_HI (05_anvil_tile.md R124). -/
abbrev Reg.ANV_GATED_HI (t : Nat) : Nat := tileBase t + 0x1434
abbrev Reg.ANV_GATED_HI.VALUE (t : Nat) : Field := ⟨Reg.ANV_GATED_HI t, 0, 32⟩

/-- TMP_CTRL (06_temper_tile.md R149). -/
abbrev Reg.TMP_CTRL (t : Nat) : Nat := tileBase t + 0x1400
abbrev Reg.TMP_CTRL.TAP_EN (t : Nat) : Field := ⟨Reg.TMP_CTRL t, 0, 1⟩

/-- TMP_STATUS (06_temper_tile.md R149). -/
abbrev Reg.TMP_STATUS (t : Nat) : Nat := tileBase t + 0x1404
abbrev Reg.TMP_STATUS.E2_OP (t : Nat) : Field := ⟨Reg.TMP_STATUS t, 20, 4⟩
abbrev Reg.TMP_STATUS.E3_OP (t : Nat) : Field := ⟨Reg.TMP_STATUS t, 16, 4⟩
abbrev Reg.TMP_STATUS.NO_CAND (t : Nat) : Field := ⟨Reg.TMP_STATUS t, 1, 1⟩

/-- TMP_FAULT_VALUE (06_temper_tile.md R149). -/
abbrev Reg.TMP_FAULT_VALUE (t : Nat) : Nat := tileBase t + 0x1408
abbrev Reg.TMP_FAULT_VALUE.VALUE (t : Nat) : Field := ⟨Reg.TMP_FAULT_VALUE t, 0, 32⟩

/-- TMP_ECC_CNT (06_temper_tile.md R149). -/
abbrev Reg.TMP_ECC_CNT (t : Nat) : Nat := tileBase t + 0x140C
abbrev Reg.TMP_ECC_CNT.UE (t : Nat) : Field := ⟨Reg.TMP_ECC_CNT t, 16, 16⟩
abbrev Reg.TMP_ECC_CNT.CE (t : Nat) : Field := ⟨Reg.TMP_ECC_CNT t, 0, 16⟩

/-- TMP_VBUSY_LO (06_temper_tile.md R149). -/
abbrev Reg.TMP_VBUSY_LO (t : Nat) : Nat := tileBase t + 0x1410
abbrev Reg.TMP_VBUSY_LO.VALUE (t : Nat) : Field := ⟨Reg.TMP_VBUSY_LO t, 0, 32⟩

/-- TMP_VBUSY_HI (06_temper_tile.md R149). -/
abbrev Reg.TMP_VBUSY_HI (t : Nat) : Nat := tileBase t + 0x1414
abbrev Reg.TMP_VBUSY_HI.VALUE (t : Nat) : Field := ⟨Reg.TMP_VBUSY_HI t, 0, 32⟩

/-- TMP_SBUSY_LO (06_temper_tile.md R149). -/
abbrev Reg.TMP_SBUSY_LO (t : Nat) : Nat := tileBase t + 0x1418
abbrev Reg.TMP_SBUSY_LO.VALUE (t : Nat) : Field := ⟨Reg.TMP_SBUSY_LO t, 0, 32⟩

/-- TMP_SBUSY_HI (06_temper_tile.md R149). -/
abbrev Reg.TMP_SBUSY_HI (t : Nat) : Nat := tileBase t + 0x141C
abbrev Reg.TMP_SBUSY_HI.VALUE (t : Nat) : Field := ⟨Reg.TMP_SBUSY_HI t, 0, 32⟩

/-- TMP_DRAWS_LO (06_temper_tile.md R149). -/
abbrev Reg.TMP_DRAWS_LO (t : Nat) : Nat := tileBase t + 0x1420
abbrev Reg.TMP_DRAWS_LO.VALUE (t : Nat) : Field := ⟨Reg.TMP_DRAWS_LO t, 0, 32⟩

/-- TMP_DRAWS_HI (06_temper_tile.md R149). -/
abbrev Reg.TMP_DRAWS_HI (t : Nat) : Nat := tileBase t + 0x1424
abbrev Reg.TMP_DRAWS_HI.VALUE (t : Nat) : Field := ⟨Reg.TMP_DRAWS_HI t, 0, 32⟩

/-- BIL_STATUS (07_billet_tiles.md R174). -/
abbrev Reg.BIL_STATUS (t : Nat) : Nat := tileBase t + 0x1400
abbrev Reg.BIL_STATUS.E2_OP (t : Nat) : Field := ⟨Reg.BIL_STATUS t, 20, 4⟩
abbrev Reg.BIL_STATUS.E3_OP (t : Nat) : Field := ⟨Reg.BIL_STATUS t, 16, 4⟩
abbrev Reg.BIL_STATUS.OWN_REFUSED (t : Nat) : Field := ⟨Reg.BIL_STATUS t, 1, 1⟩

/-- BIL_FAULT_VALUE (07_billet_tiles.md R174). -/
abbrev Reg.BIL_FAULT_VALUE (t : Nat) : Nat := tileBase t + 0x1404
abbrev Reg.BIL_FAULT_VALUE.VALUE (t : Nat) : Field := ⟨Reg.BIL_FAULT_VALUE t, 0, 32⟩

/-- BIL_ECC_CNT (07_billet_tiles.md R174). -/
abbrev Reg.BIL_ECC_CNT (t : Nat) : Nat := tileBase t + 0x1408
abbrev Reg.BIL_ECC_CNT.UE (t : Nat) : Field := ⟨Reg.BIL_ECC_CNT t, 16, 16⟩
abbrev Reg.BIL_ECC_CNT.CE (t : Nat) : Field := ⟨Reg.BIL_ECC_CNT t, 0, 16⟩

/-- BIL_VIOL (07_billet_tiles.md R174). -/
abbrev Reg.BIL_VIOL (t : Nat) : Nat := tileBase t + 0x140C
abbrev Reg.BIL_VIOL.VALID (t : Nat) : Field := ⟨Reg.BIL_VIOL t, 31, 1⟩
abbrev Reg.BIL_VIOL.KIND (t : Nat) : Field := ⟨Reg.BIL_VIOL t, 24, 2⟩
abbrev Reg.BIL_VIOL.REQ (t : Nat) : Field := ⟨Reg.BIL_VIOL t, 16, 8⟩
abbrev Reg.BIL_VIOL.OWNER (t : Nat) : Field := ⟨Reg.BIL_VIOL t, 8, 8⟩
abbrev Reg.BIL_VIOL.BANK (t : Nat) : Field := ⟨Reg.BIL_VIOL t, 0, 6⟩

/-- BIL_MARCH_CTRL (07_billet_tiles.md R174). -/
abbrev Reg.BIL_MARCH_CTRL (t : Nat) : Nat := tileBase t + 0x1410
abbrev Reg.BIL_MARCH_CTRL.REPAIR (t : Nat) : Field := ⟨Reg.BIL_MARCH_CTRL t, 4, 1⟩
abbrev Reg.BIL_MARCH_CTRL.OP (t : Nat) : Field := ⟨Reg.BIL_MARCH_CTRL t, 1, 3⟩
abbrev Reg.BIL_MARCH_CTRL.START (t : Nat) : Field := ⟨Reg.BIL_MARCH_CTRL t, 0, 1⟩

/-- BIL_MARCH_STAT (07_billet_tiles.md R174). -/
abbrev Reg.BIL_MARCH_STAT (t : Nat) : Nat := tileBase t + 0x1414
abbrev Reg.BIL_MARCH_STAT.UE (t : Nat) : Field := ⟨Reg.BIL_MARCH_STAT t, 3, 1⟩
abbrev Reg.BIL_MARCH_STAT.REFUSED (t : Nat) : Field := ⟨Reg.BIL_MARCH_STAT t, 2, 1⟩
abbrev Reg.BIL_MARCH_STAT.FAILED_NEW (t : Nat) : Field := ⟨Reg.BIL_MARCH_STAT t, 1, 1⟩
abbrev Reg.BIL_MARCH_STAT.BUSY (t : Nat) : Field := ⟨Reg.BIL_MARCH_STAT t, 0, 1⟩

/-- BIL_MARCH_MASK_LO (07_billet_tiles.md R174). -/
abbrev Reg.BIL_MARCH_MASK_LO (t : Nat) : Nat := tileBase t + 0x1418
abbrev Reg.BIL_MARCH_MASK_LO.VALUE (t : Nat) : Field := ⟨Reg.BIL_MARCH_MASK_LO t, 0, 32⟩

/-- BIL_MARCH_MASK_HI (07_billet_tiles.md R174). -/
abbrev Reg.BIL_MARCH_MASK_HI (t : Nat) : Nat := tileBase t + 0x141C
abbrev Reg.BIL_MARCH_MASK_HI.VALUE (t : Nat) : Field := ⟨Reg.BIL_MARCH_MASK_HI t, 0, 16⟩

/-- BIL_MARCH_PAT_LO (07_billet_tiles.md R174). -/
abbrev Reg.BIL_MARCH_PAT_LO (t : Nat) : Nat := tileBase t + 0x1420
abbrev Reg.BIL_MARCH_PAT_LO.VALUE (t : Nat) : Field := ⟨Reg.BIL_MARCH_PAT_LO t, 0, 32⟩

/-- BIL_MARCH_PAT_HI (07_billet_tiles.md R174). -/
abbrev Reg.BIL_MARCH_PAT_HI (t : Nat) : Nat := tileBase t + 0x1424
abbrev Reg.BIL_MARCH_PAT_HI.VALUE (t : Nat) : Field := ⟨Reg.BIL_MARCH_PAT_HI t, 0, 32⟩

/-- BIL_FAIL_LO (07_billet_tiles.md R174). -/
abbrev Reg.BIL_FAIL_LO (t : Nat) : Nat := tileBase t + 0x1428
abbrev Reg.BIL_FAIL_LO.VALUE (t : Nat) : Field := ⟨Reg.BIL_FAIL_LO t, 0, 32⟩

/-- BIL_FAIL_HI (07_billet_tiles.md R174). -/
abbrev Reg.BIL_FAIL_HI (t : Nat) : Nat := tileBase t + 0x142C
abbrev Reg.BIL_FAIL_HI.VALUE (t : Nat) : Field := ⟨Reg.BIL_FAIL_HI t, 0, 16⟩

/-- BIL_CONFLICT_LO (07_billet_tiles.md R174). -/
abbrev Reg.BIL_CONFLICT_LO (t : Nat) : Nat := tileBase t + 0x1430
abbrev Reg.BIL_CONFLICT_LO.VALUE (t : Nat) : Field := ⟨Reg.BIL_CONFLICT_LO t, 0, 32⟩

/-- BIL_CONFLICT_HI (07_billet_tiles.md R174). -/
abbrev Reg.BIL_CONFLICT_HI (t : Nat) : Nat := tileBase t + 0x1434
abbrev Reg.BIL_CONFLICT_HI.VALUE (t : Nat) : Field := ⟨Reg.BIL_CONFLICT_HI t, 0, 32⟩

/-- BIL_OWN_BULK (07_billet_tiles.md R174). -/
abbrev Reg.BIL_OWN_BULK (t : Nat) : Nat := tileBase t + 0x1438
abbrev Reg.BIL_OWN_BULK.SHARE (t : Nat) : Field := ⟨Reg.BIL_OWN_BULK t, 31, 1⟩
abbrev Reg.BIL_OWN_BULK.PART (t : Nat) : Field := ⟨Reg.BIL_OWN_BULK t, 24, 4⟩
abbrev Reg.BIL_OWN_BULK.OWNER (t : Nat) : Field := ⟨Reg.BIL_OWN_BULK t, 0, 8⟩

/-- BIL_OWN (07_billet_tiles.md R174). -/
abbrev Reg.BIL_OWN (t : Nat) (k : Nat) : Nat := tileBase t + 0x1500 + k * 0x4
abbrev Reg.BIL_OWN.SHARE (t : Nat) (k : Nat) : Field := ⟨Reg.BIL_OWN t k, 31, 1⟩
abbrev Reg.BIL_OWN.PART (t : Nat) (k : Nat) : Field := ⟨Reg.BIL_OWN t k, 24, 4⟩
abbrev Reg.BIL_OWN.OWNER (t : Nat) (k : Nat) : Field := ⟨Reg.BIL_OWN t k, 0, 8⟩

/-- BIL_REPAIR (07_billet_tiles.md R174). -/
abbrev Reg.BIL_REPAIR (t : Nat) (k : Nat) : Nat := tileBase t + 0x1600 + k * 0x4
abbrev Reg.BIL_REPAIR.FAILED (t : Nat) (k : Nat) : Field := ⟨Reg.BIL_REPAIR t k, 31, 1⟩
abbrev Reg.BIL_REPAIR.SPARES (t : Nat) (k : Nat) : Field := ⟨Reg.BIL_REPAIR t k, 16, 4⟩
abbrev Reg.BIL_REPAIR.FAILROWS (t : Nat) (k : Nat) : Field := ⟨Reg.BIL_REPAIR t k, 0, 8⟩

/-- MOV_CTRL (09_tiers_and_movers.md R236). -/
abbrev Reg.MOV_CTRL (t : Nat) : Nat := tileBase t + 0x1400
abbrev Reg.MOV_CTRL.INT_EN (t : Nat) : Field := ⟨Reg.MOV_CTRL t, 1, 1⟩
abbrev Reg.MOV_CTRL.SCHED_EN (t : Nat) : Field := ⟨Reg.MOV_CTRL t, 0, 1⟩

/-- MOV_STATUS (09_tiers_and_movers.md R236). -/
abbrev Reg.MOV_STATUS (t : Nat) : Nat := tileBase t + 0x1404
abbrev Reg.MOV_STATUS.STR_ON (t : Nat) : Field := ⟨Reg.MOV_STATUS t, 16, 16⟩
abbrev Reg.MOV_STATUS.M_BUSY (t : Nat) : Field := ⟨Reg.MOV_STATUS t, 0, 4⟩

/-- MOV_FAULT_VALUE (09_tiers_and_movers.md R236). -/
abbrev Reg.MOV_FAULT_VALUE (t : Nat) : Nat := tileBase t + 0x1408
abbrev Reg.MOV_FAULT_VALUE.VALUE (t : Nat) : Field := ⟨Reg.MOV_FAULT_VALUE t, 0, 32⟩

/-- MOV_M_STAT (09_tiers_and_movers.md R236). -/
abbrev Reg.MOV_M_STAT (t : Nat) (k : Nat) : Nat := tileBase t + 0x1410 + k * 0x4
abbrev Reg.MOV_M_STAT.CQOCC (t : Nat) (k : Nat) : Field := ⟨Reg.MOV_M_STAT t k, 28, 4⟩
abbrev Reg.MOV_M_STAT.INFLIGHT (t : Nat) (k : Nat) : Field := ⟨Reg.MOV_M_STAT t k, 24, 4⟩
abbrev Reg.MOV_M_STAT.HEAD_OP (t : Nat) (k : Nat) : Field := ⟨Reg.MOV_M_STAT t k, 16, 8⟩
abbrev Reg.MOV_M_STAT.HEAD_XFM (t : Nat) (k : Nat) : Field := ⟨Reg.MOV_M_STAT t k, 12, 4⟩
abbrev Reg.MOV_M_STAT.BUSY (t : Nat) (k : Nat) : Field := ⟨Reg.MOV_M_STAT t k, 0, 1⟩

/-- MOV_M_PROG (09_tiers_and_movers.md R236). -/
abbrev Reg.MOV_M_PROG (t : Nat) (k : Nat) : Nat := tileBase t + 0x1420 + k * 0x4
abbrev Reg.MOV_M_PROG.VALUE (t : Nat) (k : Nat) : Field := ⟨Reg.MOV_M_PROG t k, 0, 32⟩

/-- MOV_UNITS_LO (09_tiers_and_movers.md R236). -/
abbrev Reg.MOV_UNITS_LO (t : Nat) : Nat := tileBase t + 0x1430
abbrev Reg.MOV_UNITS_LO.VALUE (t : Nat) : Field := ⟨Reg.MOV_UNITS_LO t, 0, 32⟩

/-- MOV_UNITS_HI (09_tiers_and_movers.md R236). -/
abbrev Reg.MOV_UNITS_HI (t : Nat) : Nat := tileBase t + 0x1434
abbrev Reg.MOV_UNITS_HI.VALUE (t : Nat) : Field := ⟨Reg.MOV_UNITS_HI t, 0, 32⟩

/-- MOV_SKIP_LO (09_tiers_and_movers.md R236). -/
abbrev Reg.MOV_SKIP_LO (t : Nat) : Nat := tileBase t + 0x1438
abbrev Reg.MOV_SKIP_LO.VALUE (t : Nat) : Field := ⟨Reg.MOV_SKIP_LO t, 0, 32⟩

/-- MOV_SKIP_HI (09_tiers_and_movers.md R236). -/
abbrev Reg.MOV_SKIP_HI (t : Nat) : Nat := tileBase t + 0x143C
abbrev Reg.MOV_SKIP_HI.VALUE (t : Nat) : Field := ⟨Reg.MOV_SKIP_HI t, 0, 32⟩

/-- MOV_STR_A_CFG (09_tiers_and_movers.md R236). -/
abbrev Reg.MOV_STR_A_CFG (t : Nat) (k : Nat) : Nat := tileBase t + 0x1800 + k * 0x20
abbrev Reg.MOV_STR_A_CFG.VALID (t : Nat) (k : Nat) : Field := ⟨Reg.MOV_STR_A_CFG t k, 31, 1⟩
abbrev Reg.MOV_STR_A_CFG.WRAP (t : Nat) (k : Nat) : Field := ⟨Reg.MOV_STR_A_CFG t k, 30, 1⟩
abbrev Reg.MOV_STR_A_CFG.BMAP_EN (t : Nat) (k : Nat) : Field := ⟨Reg.MOV_STR_A_CFG t k, 29, 1⟩
abbrev Reg.MOV_STR_A_CFG.NQ (t : Nat) (k : Nat) : Field := ⟨Reg.MOV_STR_A_CFG t k, 24, 5⟩
abbrev Reg.MOV_STR_A_CFG.RQ (t : Nat) (k : Nat) : Field := ⟨Reg.MOV_STR_A_CFG t k, 19, 5⟩
abbrev Reg.MOV_STR_A_CFG.SLOTS (t : Nat) (k : Nat) : Field := ⟨Reg.MOV_STR_A_CFG t k, 16, 3⟩
abbrev Reg.MOV_STR_A_CFG.SLOTUNITS (t : Nat) (k : Nat) : Field := ⟨Reg.MOV_STR_A_CFG t k, 0, 10⟩

/-- MOV_STR_A_PERIOD (09_tiers_and_movers.md R236). -/
abbrev Reg.MOV_STR_A_PERIOD (t : Nat) (k : Nat) : Nat := tileBase t + 0x1804 + k * 0x20
abbrev Reg.MOV_STR_A_PERIOD.PERIOD (t : Nat) (k : Nat) : Field := ⟨Reg.MOV_STR_A_PERIOD t k, 0, 16⟩

/-- MOV_STR_A_LIST_LO (09_tiers_and_movers.md R236). -/
abbrev Reg.MOV_STR_A_LIST_LO (t : Nat) (k : Nat) : Nat := tileBase t + 0x1808 + k * 0x20
abbrev Reg.MOV_STR_A_LIST_LO.VA (t : Nat) (k : Nat) : Field := ⟨Reg.MOV_STR_A_LIST_LO t k, 4, 28⟩

/-- MOV_STR_A_LIST_HI (09_tiers_and_movers.md R236). -/
abbrev Reg.MOV_STR_A_LIST_HI (t : Nat) (k : Nat) : Nat := tileBase t + 0x180C + k * 0x20
abbrev Reg.MOV_STR_A_LIST_HI.NENT (t : Nat) (k : Nat) : Field := ⟨Reg.MOV_STR_A_LIST_HI t k, 16, 16⟩
abbrev Reg.MOV_STR_A_LIST_HI.VA (t : Nat) (k : Nat) : Field := ⟨Reg.MOV_STR_A_LIST_HI t k, 0, 16⟩

/-- MOV_STR_A_BMAP_LO (09_tiers_and_movers.md R236). -/
abbrev Reg.MOV_STR_A_BMAP_LO (t : Nat) (k : Nat) : Nat := tileBase t + 0x1810 + k * 0x20
abbrev Reg.MOV_STR_A_BMAP_LO.VA (t : Nat) (k : Nat) : Field := ⟨Reg.MOV_STR_A_BMAP_LO t k, 3, 29⟩

/-- MOV_STR_A_BMAP_HI (09_tiers_and_movers.md R236). -/
abbrev Reg.MOV_STR_A_BMAP_HI (t : Nat) (k : Nat) : Nat := tileBase t + 0x1814 + k * 0x20
abbrev Reg.MOV_STR_A_BMAP_HI.VA (t : Nat) (k : Nat) : Field := ⟨Reg.MOV_STR_A_BMAP_HI t k, 0, 16⟩

/-- MOV_STR_A_RING_LO (09_tiers_and_movers.md R236). -/
abbrev Reg.MOV_STR_A_RING_LO (t : Nat) (k : Nat) : Nat := tileBase t + 0x1818 + k * 0x20
abbrev Reg.MOV_STR_A_RING_LO.VA (t : Nat) (k : Nat) : Field := ⟨Reg.MOV_STR_A_RING_LO t k, 7, 25⟩

/-- MOV_STR_A_RING_HI (09_tiers_and_movers.md R236). -/
abbrev Reg.MOV_STR_A_RING_HI (t : Nat) (k : Nat) : Nat := tileBase t + 0x181C + k * 0x20
abbrev Reg.MOV_STR_A_RING_HI.VA (t : Nat) (k : Nat) : Field := ⟨Reg.MOV_STR_A_RING_HI t k, 0, 16⟩

/-- MOV_STR_S_CFG (09_tiers_and_movers.md R236). -/
abbrev Reg.MOV_STR_S_CFG (t : Nat) (k : Nat) : Nat := tileBase t + 0x1A00 + k * 0x20
abbrev Reg.MOV_STR_S_CFG.VALID (t : Nat) (k : Nat) : Field := ⟨Reg.MOV_STR_S_CFG t k, 31, 1⟩
abbrev Reg.MOV_STR_S_CFG.WRAP (t : Nat) (k : Nat) : Field := ⟨Reg.MOV_STR_S_CFG t k, 30, 1⟩
abbrev Reg.MOV_STR_S_CFG.BMAP_EN (t : Nat) (k : Nat) : Field := ⟨Reg.MOV_STR_S_CFG t k, 29, 1⟩
abbrev Reg.MOV_STR_S_CFG.NQ (t : Nat) (k : Nat) : Field := ⟨Reg.MOV_STR_S_CFG t k, 24, 5⟩
abbrev Reg.MOV_STR_S_CFG.RQ (t : Nat) (k : Nat) : Field := ⟨Reg.MOV_STR_S_CFG t k, 19, 5⟩
abbrev Reg.MOV_STR_S_CFG.SLOTS (t : Nat) (k : Nat) : Field := ⟨Reg.MOV_STR_S_CFG t k, 16, 3⟩
abbrev Reg.MOV_STR_S_CFG.SLOTUNITS (t : Nat) (k : Nat) : Field := ⟨Reg.MOV_STR_S_CFG t k, 0, 10⟩

/-- MOV_STR_S_PERIOD (09_tiers_and_movers.md R236). -/
abbrev Reg.MOV_STR_S_PERIOD (t : Nat) (k : Nat) : Nat := tileBase t + 0x1A04 + k * 0x20
abbrev Reg.MOV_STR_S_PERIOD.PERIOD (t : Nat) (k : Nat) : Field := ⟨Reg.MOV_STR_S_PERIOD t k, 0, 16⟩

/-- MOV_STR_S_LIST_LO (09_tiers_and_movers.md R236). -/
abbrev Reg.MOV_STR_S_LIST_LO (t : Nat) (k : Nat) : Nat := tileBase t + 0x1A08 + k * 0x20
abbrev Reg.MOV_STR_S_LIST_LO.VA (t : Nat) (k : Nat) : Field := ⟨Reg.MOV_STR_S_LIST_LO t k, 4, 28⟩

/-- MOV_STR_S_LIST_HI (09_tiers_and_movers.md R236). -/
abbrev Reg.MOV_STR_S_LIST_HI (t : Nat) (k : Nat) : Nat := tileBase t + 0x1A0C + k * 0x20
abbrev Reg.MOV_STR_S_LIST_HI.NENT (t : Nat) (k : Nat) : Field := ⟨Reg.MOV_STR_S_LIST_HI t k, 16, 16⟩
abbrev Reg.MOV_STR_S_LIST_HI.VA (t : Nat) (k : Nat) : Field := ⟨Reg.MOV_STR_S_LIST_HI t k, 0, 16⟩

/-- MOV_STR_S_BMAP_LO (09_tiers_and_movers.md R236). -/
abbrev Reg.MOV_STR_S_BMAP_LO (t : Nat) (k : Nat) : Nat := tileBase t + 0x1A10 + k * 0x20
abbrev Reg.MOV_STR_S_BMAP_LO.VA (t : Nat) (k : Nat) : Field := ⟨Reg.MOV_STR_S_BMAP_LO t k, 3, 29⟩

/-- MOV_STR_S_BMAP_HI (09_tiers_and_movers.md R236). -/
abbrev Reg.MOV_STR_S_BMAP_HI (t : Nat) (k : Nat) : Nat := tileBase t + 0x1A14 + k * 0x20
abbrev Reg.MOV_STR_S_BMAP_HI.VA (t : Nat) (k : Nat) : Field := ⟨Reg.MOV_STR_S_BMAP_HI t k, 0, 16⟩

/-- MOV_STR_S_RING_LO (09_tiers_and_movers.md R236). -/
abbrev Reg.MOV_STR_S_RING_LO (t : Nat) (k : Nat) : Nat := tileBase t + 0x1A18 + k * 0x20
abbrev Reg.MOV_STR_S_RING_LO.VA (t : Nat) (k : Nat) : Field := ⟨Reg.MOV_STR_S_RING_LO t k, 7, 25⟩

/-- MOV_STR_S_RING_HI (09_tiers_and_movers.md R236). -/
abbrev Reg.MOV_STR_S_RING_HI (t : Nat) (k : Nat) : Nat := tileBase t + 0x1A1C + k * 0x20
abbrev Reg.MOV_STR_S_RING_HI.VA (t : Nat) (k : Nat) : Field := ⟨Reg.MOV_STR_S_RING_HI t k, 0, 16⟩

/-- MOV_STR_POS (09_tiers_and_movers.md R236). -/
abbrev Reg.MOV_STR_POS (t : Nat) (k : Nat) : Nat := tileBase t + 0x1C00 + k * 0x8
abbrev Reg.MOV_STR_POS.PASS (t : Nat) (k : Nat) : Field := ⟨Reg.MOV_STR_POS t k, 16, 16⟩
abbrev Reg.MOV_STR_POS.COMPLETE (t : Nat) (k : Nat) : Field := ⟨Reg.MOV_STR_POS t k, 0, 16⟩

/-- MOV_STR_STAT (09_tiers_and_movers.md R236). -/
abbrev Reg.MOV_STR_STAT (t : Nat) (k : Nat) : Nat := tileBase t + 0x1C04 + k * 0x8
abbrev Reg.MOV_STR_STAT.FILLED (t : Nat) (k : Nat) : Field := ⟨Reg.MOV_STR_STAT t k, 24, 4⟩
abbrev Reg.MOV_STR_STAT.INFLIGHT (t : Nat) (k : Nat) : Field := ⟨Reg.MOV_STR_STAT t k, 20, 4⟩
abbrev Reg.MOV_STR_STAT.STATE (t : Nat) (k : Nat) : Field := ⟨Reg.MOV_STR_STAT t k, 16, 4⟩
abbrev Reg.MOV_STR_STAT.GCOUNT (t : Nat) (k : Nat) : Field := ⟨Reg.MOV_STR_STAT t k, 0, 16⟩

/-- The rows of the DEV_ register map, by offset in the block (01_kenlum_module.md R20). -/
def regRowsDev : List RegRow := [
  ⟨0x0, 0x4, 1, 0x4, 1, ⟨0x455576B1, 0x0, 0x0, 0x0, 0x0, [], 0x0⟩⟩,
  ⟨0x4, 0x4, 1, 0x4, 1, ⟨0xC841848, 0x0, 0x0, 0x0, 0x0, [], 0x0⟩⟩,
  ⟨0x8, 0x4, 1, 0x4, 1, ⟨0x0, 0x0, 0x0, 0x0, 0x0, [], 0x0⟩⟩,
  ⟨0xC, 0x4, 1, 0x4, 1, ⟨0x0, 0x0, 0x0, 0x0, 0x0, [], 0x0⟩⟩,
  ⟨0x10, 0x4, 1, 0x4, 1, ⟨0x0, 0x0, 0x0, 0x0, 0x80000000, [], 0x0⟩⟩,
  ⟨0x14, 0x4, 1, 0x4, 1, ⟨0x7080E10, 0x0, 0x0, 0x0, 0x0, [], 0x0⟩⟩,
  ⟨0x18, 0x4, 1, 0x4, 1, ⟨0x6407D0, 0x0, 0x0, 0x0, 0x0, [], 0x0⟩⟩,
  ⟨0x1C, 0x4, 1, 0x4, 1, ⟨0xC300060, 0x0, 0x0, 0x0, 0x0, [], 0x0⟩⟩,
  ⟨0x20, 0x4, 1, 0x4, 1, ⟨0x0, 0x0, 0xFFFFFFFF, 0x0, 0x0, [], 0x0⟩⟩,
  ⟨0x24, 0x4, 1, 0x4, 1, ⟨0x0, 0x0, 0x0, 0x0, 0x0, [], 0x1⟩⟩]

/-- The rows of the TIME_ register map, by offset in the block (02_strike_rack_time.md R36). -/
def regRowsTime : List RegRow := [
  ⟨0x0, 0x4, 1, 0x4, 1, ⟨0x0, 0x0, 0x0, 0x0, 0x0, [], 0x0⟩⟩,
  ⟨0x4, 0x4, 1, 0x4, 1, ⟨0x0, 0x0, 0x0, 0x0, 0x0, [], 0x0⟩⟩,
  ⟨0x8, 0x4, 1, 0x4, 1, ⟨0x0, 0xFFFFFC00, 0x0, 0x0, 0x0, [], 0x0⟩⟩,
  ⟨0xC, 0x4, 1, 0x4, 1, ⟨0x0, 0xFFFFFFFF, 0x0, 0x0, 0x0, [], 0x0⟩⟩,
  ⟨0x10, 0x4, 1, 0x4, 1, ⟨0x1000, 0xFF02, 0x0, 0x0, 0x0, [], 0x0⟩⟩,
  ⟨0x14, 0x4, 1, 0x4, 1, ⟨0x0, 0x0, 0x0, 0x0, 0x3C, [], 0x0⟩⟩,
  ⟨0x18, 0x4, 1, 0x4, 1, ⟨0x0, 0x0, 0x0, 0x0, 0x0, [0xFFFFFFFF], 0x0⟩⟩,
  ⟨0x1C, 0x4, 1, 0x4, 1, ⟨0x0, 0x0, 0x0, 0x0, 0x0, [0xFFFFFFFF], 0x0⟩⟩,
  ⟨0x20, 0x4, 1, 0x4, 1, ⟨0x0, 0x0, 0x0, 0x0, 0x0, [], 0x0⟩⟩,
  ⟨0x24, 0x4, 1, 0x4, 1, ⟨0x0, 0x0, 0x0, 0x0, 0x0, [], 0x0⟩⟩]

/-- The rows of the PWR_ register map, by offset in the block (14_power_and_thermal.md R348). -/
def regRowsPwr : List RegRow := [
  ⟨0x0, 0x4, 1, 0x4, 1, ⟨0x0, 0x3, 0x0, 0x0, 0x0, [], 0x0⟩⟩,
  ⟨0x4, 0x4, 1, 0x4, 1, ⟨0x11, 0x0, 0x0, 0x0, 0x2, [], 0x0⟩⟩,
  ⟨0x8, 0x4, 1, 0x4, 1, ⟨0x640, 0xFFF, 0x0, 0x0, 0x0, [], 0x0⟩⟩,
  ⟨0xC, 0x4, 1, 0x4, 1, ⟨0x0, 0xFFF, 0x0, 0x0, 0x0, [], 0x0⟩⟩,
  ⟨0x10, 0x4, 1, 0x4, 1, ⟨0x960096, 0x0, 0xFFF0FFF, 0x0, 0x0, [], 0x0⟩⟩,
  ⟨0x14, 0x4, 1, 0x4, 1, ⟨0x186A0, 0x0, 0xFFFFFFFF, 0x0, 0x0, [], 0x0⟩⟩,
  ⟨0x18, 0x4, 1, 0x4, 1, ⟨0x7080640, 0x0, 0xFFF0FFF, 0x0, 0x0, [], 0x0⟩⟩,
  ⟨0x1C, 0x4, 1, 0x4, 1, ⟨0x0, 0x0, 0x0, 0x0, 0x0, [], 0x1⟩⟩,
  ⟨0x20, 0x4, 1, 0x4, 1, ⟨0x6400640, 0x0, 0x0, 0x0, 0x0, [], 0x0⟩⟩,
  ⟨0x24, 0x4, 1, 0x4, 1, ⟨0x0, 0x0, 0x0, 0x0, 0x0, [], 0x0⟩⟩,
  ⟨0x28, 0x4, 1, 0x4, 1, ⟨0x0, 0x0, 0x0, 0x0, 0x0, [], 0x0⟩⟩,
  ⟨0x2C, 0x4, 1, 0x4, 1, ⟨0x0, 0x0, 0x0, 0x0, 0x0, [], 0x0⟩⟩,
  ⟨0x30, 0x4, 1, 0x4, 1, ⟨0x0, 0x0, 0x0, 0x0, 0x0, [0xFFFF0000, 0xFFFF], 0x0⟩⟩,
  ⟨0x34, 0x4, 1, 0x4, 1, ⟨0x0, 0x0, 0x0, 0x0, 0x0, [], 0x0⟩⟩,
  ⟨0x38, 0x4, 1, 0x4, 1, ⟨0x0, 0x0, 0x0, 0x0, 0x0, [], 0x0⟩⟩,
  ⟨0x3C, 0x4, 1, 0x4, 1, ⟨0x0, 0x0, 0x0, 0x0, 0x80000000, [], 0x0⟩⟩,
  ⟨0x40, 0x4, 1, 0x4, 1, ⟨0x0, 0x0, 0x0, 0x0, 0x8000000, [], 0x0⟩⟩,
  ⟨0x100, 0x4, 30, 0x4, 1, ⟨0x0, 0x0, 0x0, 0x0, 0x0, [], 0x0⟩⟩]

/-- The rows of the SEC_ register map, by offset in the block (18_security.md R436). -/
def regRowsSec : List RegRow := [
  ⟨0x0, 0x4, 1, 0x4, 1, ⟨0x0, 0x0, 0x0, 0x0, 0x0, [], 0x0⟩⟩,
  ⟨0x4, 0x4, 1, 0x4, 1, ⟨0x0, 0x0, 0x0, 0x0, 0x0, [], 0x0⟩⟩,
  ⟨0x8, 0x4, 1, 0x4, 1, ⟨0x0, 0x7, 0x0, 0x0, 0x0, [], 0x0⟩⟩,
  ⟨0xC, 0x4, 1, 0x4, 1, ⟨0x0, 0x0, 0x0, 0xFFFFFFFF, 0x0, [], 0x0⟩⟩,
  ⟨0x10, 0x4, 1, 0x4, 1, ⟨0x0, 0x100, 0x0, 0x0, 0x0, [], 0x0⟩⟩,
  ⟨0x18, 0x4, 1, 0x4, 1, ⟨0x0, 0xFFFFF000, 0x0, 0x0, 0x0, [], 0x0⟩⟩,
  ⟨0x1C, 0x4, 1, 0x4, 1, ⟨0x0, 0xFFFFFF, 0x0, 0x0, 0x0, [], 0x0⟩⟩,
  ⟨0x20, 0x4, 2, 0x4, 1, ⟨0x0, 0x0, 0x0, 0x0, 0x0, [], 0x0⟩⟩,
  ⟨0x28, 0x4, 2, 0x4, 1, ⟨0x0, 0x0, 0x0, 0x0, 0x0, [], 0x0⟩⟩,
  ⟨0x30, 0x4, 1, 0x4, 1, ⟨0x0, 0x0, 0x0, 0x0, 0x80000000, [], 0x0⟩⟩,
  ⟨0x100, 0x20, 2, 0x4, 8, ⟨0x0, 0x0, 0x0, 0x0, 0x0, [], 0x0⟩⟩,
  ⟨0x200, 0x4, 16, 0x4, 1, ⟨0x0, 0x8F8F8F8F, 0x0, 0x0, 0x0, [], 0x0⟩⟩]

/-- The rows of the SLG_ register map, by offset in the block (17_silent_errors.md R420). -/
def regRowsSlg : List RegRow := [
  ⟨0x0, 0x4, 1, 0x4, 1, ⟨0x100000F, 0xFFFF001F, 0x0, 0x0, 0x0, [], 0x0⟩⟩,
  ⟨0x4, 0x4, 1, 0x4, 1, ⟨0x0, 0x0, 0x0, 0x0, 0x37C, [], 0x0⟩⟩,
  ⟨0x8, 0x4, 1, 0x4, 1, ⟨0x14, 0x1F, 0x0, 0x0, 0x0, [], 0x0⟩⟩,
  ⟨0xC, 0x4, 1, 0x4, 1, ⟨0x0, 0x0, 0x0, 0x0, 0x0, [], 0x0⟩⟩,
  ⟨0x10, 0x4, 1, 0x4, 1, ⟨0x0, 0xFFFFFFFF, 0x0, 0x0, 0x0, [], 0x0⟩⟩,
  ⟨0x14, 0x4, 1, 0x4, 1, ⟨0x0, 0xFFFFFFFF, 0x0, 0x0, 0x0, [], 0x0⟩⟩,
  ⟨0x18, 0x4, 1, 0x4, 1, ⟨0x0, 0x0, 0x0, 0x0, 0x0, [], 0x0⟩⟩,
  ⟨0x20, 0x4, 1, 0x4, 1, ⟨0x0, 0x0, 0x0, 0x0, 0x0, [], 0x0⟩⟩,
  ⟨0x24, 0x4, 1, 0x4, 1, ⟨0x0, 0x0, 0x0, 0x0, 0x0, [], 0x0⟩⟩,
  ⟨0x28, 0x4, 1, 0x4, 1, ⟨0x0, 0x0, 0x0, 0x0, 0x0, [], 0x0⟩⟩,
  ⟨0x2C, 0x4, 1, 0x4, 1, ⟨0x0, 0x0, 0x0, 0x0, 0x0, [], 0x0⟩⟩,
  ⟨0x30, 0x4, 1, 0x4, 1, ⟨0x0, 0x0, 0x0, 0x0, 0x0, [], 0x0⟩⟩,
  ⟨0x34, 0x4, 1, 0x4, 1, ⟨0x0, 0x0, 0x0, 0x0, 0x0, [], 0x0⟩⟩,
  ⟨0x40, 0x4, 8, 0x4, 1, ⟨0x0, 0x0, 0x0, 0x0, 0x0, [], 0xFFFFFFFF⟩⟩,
  ⟨0x60, 0x4, 8, 0x4, 1, ⟨0x0, 0x0, 0x0, 0x0, 0xFFFFFFFF, [], 0x0⟩⟩,
  ⟨0x100, 0x20, 12, 0x4, 1, ⟨0xC0308, 0xBFFFFFFF, 0x0, 0x0, 0x0, [], 0x0⟩⟩,
  ⟨0x104, 0x20, 12, 0x4, 1, ⟨0x0, 0x0, 0x0, 0x0, 0x0, [], 0x0⟩⟩,
  ⟨0x108, 0x20, 12, 0x4, 1, ⟨0x0, 0x0, 0x0, 0x0, 0x0, [], 0x0⟩⟩,
  ⟨0x10C, 0x20, 12, 0x4, 1, ⟨0x0, 0x0, 0x0, 0x0, 0x0, [], 0x0⟩⟩,
  ⟨0x110, 0x20, 12, 0x4, 1, ⟨0x0, 0x0, 0x0, 0x0, 0x0, [], 0x0⟩⟩,
  ⟨0x1000, 0x80, 12, 0x10, 8, ⟨0x0, 0xFFFF0000, 0x0, 0x0, 0x0, [], 0x0⟩⟩,
  ⟨0x1004, 0x80, 12, 0x10, 8, ⟨0x0, 0xFFFFFF, 0x0, 0x0, 0x0, [], 0x0⟩⟩,
  ⟨0x1008, 0x80, 12, 0x10, 8, ⟨0x0, 0x80000001, 0x0, 0x0, 0x0, [], 0x0⟩⟩,
  ⟨0x4000, 0x10, 240, 0x4, 1, ⟨0x0, 0x0, 0x0, 0x0, 0x0, [], 0x0⟩⟩,
  ⟨0x4004, 0x10, 240, 0x4, 1, ⟨0x0, 0x0, 0x0, 0x0, 0x0, [], 0x0⟩⟩,
  ⟨0x4008, 0x10, 240, 0x4, 1, ⟨0x0, 0x0, 0x0, 0x0, 0x0, [], 0x0⟩⟩]

/-- The rows of the PRT_ register map, by offset in the block (16_partitions_and_preemption.md R396). -/
def regRowsPrt : List RegRow := [
  ⟨0x0, 0x4, 1, 0x4, 1, ⟨0x0, 0x1, 0x0, 0x0, 0x0, [], 0x0⟩⟩,
  ⟨0x4, 0x4, 1, 0x4, 1, ⟨0x0, 0x0, 0x0, 0x0, 0x0, [], 0x0⟩⟩,
  ⟨0x100, 0x80, 12, 0x4, 1, ⟨0x0, 0x0, 0x0, 0x0, 0x0, [], 0x0⟩⟩,
  ⟨0x104, 0x80, 12, 0x4, 1, ⟨0x0, 0x0, 0x0, 0x0, 0x1000, [], 0x0⟩⟩,
  ⟨0x108, 0x80, 12, 0x4, 1, ⟨0x0, 0xFF, 0x0, 0x0, 0x0, [], 0x0⟩⟩,
  ⟨0x10C, 0x80, 12, 0x4, 1, ⟨0x190, 0xFFFF, 0x0, 0x0, 0x0, [], 0x0⟩⟩,
  ⟨0x110, 0x80, 12, 0x4, 1, ⟨0x1000000, 0xFFFFFFF, 0x0, 0x0, 0x0, [], 0x0⟩⟩,
  ⟨0x114, 0x80, 12, 0x4, 1, ⟨0x0, 0x0, 0x0, 0x0, 0x0, [], 0x0⟩⟩,
  ⟨0x118, 0x80, 12, 0x4, 1, ⟨0x0, 0x0, 0x0, 0x0, 0x0, [], 0x0⟩⟩,
  ⟨0x11C, 0x80, 12, 0x4, 1, ⟨0x0, 0x0, 0x0, 0x0, 0x0, [], 0x0⟩⟩,
  ⟨0x120, 0x80, 12, 0x8, 8, ⟨0x0, 0xFFFFF001, 0x0, 0x0, 0x0, [], 0x0⟩⟩,
  ⟨0x124, 0x80, 12, 0x8, 8, ⟨0x0, 0xFFFFFF, 0x0, 0x0, 0x0, [], 0x0⟩⟩,
  ⟨0x160, 0x80, 12, 0x4, 8, ⟨0x0, 0x8000000, 0x0, 0x0, 0x0, [], 0x0⟩⟩]

/-- The rows of the SRV_ register map, by offset in the block (15_request_lifecycle.md R373). -/
def regRowsSrv : List RegRow := [
  ⟨0x0, 0x4, 1, 0x4, 1, ⟨0x31A, 0xF1F, 0x0, 0x0, 0x0, [], 0x0⟩⟩,
  ⟨0x4, 0x4, 1, 0x4, 1, ⟨0x0, 0x0, 0x0, 0x0, 0x8, [], 0x0⟩⟩,
  ⟨0x8, 0x4, 1, 0x4, 1, ⟨0x0, 0x0, 0x0, 0x0, 0x0, [], 0x0⟩⟩,
  ⟨0xC, 0x4, 1, 0x4, 1, ⟨0x400, 0xFFFF, 0x0, 0x0, 0x0, [], 0x0⟩⟩,
  ⟨0x10, 0x4, 1, 0x4, 1, ⟨0x0, 0xFFFFF000, 0x0, 0x0, 0x0, [], 0x0⟩⟩,
  ⟨0x14, 0x4, 1, 0x4, 1, ⟨0x0, 0xFFFFFF, 0x0, 0x0, 0x0, [], 0x0⟩⟩,
  ⟨0x18, 0x4, 1, 0x4, 1, ⟨0x0, 0xFFFFF000, 0x0, 0x0, 0x0, [], 0x0⟩⟩,
  ⟨0x1C, 0x4, 1, 0x4, 1, ⟨0x0, 0xFFFFFF, 0x0, 0x0, 0x0, [], 0x0⟩⟩,
  ⟨0x20, 0x4, 1, 0x4, 1, ⟨0x0, 0xFFFFF000, 0x0, 0x0, 0x0, [], 0x0⟩⟩,
  ⟨0x24, 0x4, 1, 0x4, 1, ⟨0x0, 0xFFFFFFFF, 0x0, 0x0, 0x0, [], 0x0⟩⟩,
  ⟨0x28, 0x4, 1, 0x4, 1, ⟨0x0, 0xFFFF, 0x0, 0x0, 0x0, [], 0x0⟩⟩,
  ⟨0x30, 0x4, 1, 0x4, 1, ⟨0x0, 0x0, 0x0, 0x0, 0x0, [], 0x0⟩⟩,
  ⟨0x34, 0x4, 1, 0x4, 1, ⟨0x0, 0x0, 0x0, 0x0, 0x0, [], 0x0⟩⟩,
  ⟨0x38, 0x4, 1, 0x4, 1, ⟨0x0, 0x0, 0x0, 0x0, 0x0, [], 0x0⟩⟩,
  ⟨0x3C, 0x4, 1, 0x4, 1, ⟨0x0, 0x0, 0x0, 0x0, 0x0, [], 0x0⟩⟩,
  ⟨0x40, 0x4, 1, 0x4, 1, ⟨0x0, 0x0, 0x0, 0x0, 0x0, [], 0x0⟩⟩,
  ⟨0x100, 0x20, 12, 0x4, 1, ⟨0x0, 0xFFFFFFFF, 0x0, 0x0, 0x0, [], 0x0⟩⟩,
  ⟨0x104, 0x20, 12, 0x4, 1, ⟨0x140032, 0xFFFFFFFF, 0x0, 0x0, 0x0, [], 0x0⟩⟩,
  ⟨0x108, 0x20, 12, 0x4, 1, ⟨0x20000040, 0xFFFFFFFF, 0x0, 0x0, 0x0, [], 0x0⟩⟩,
  ⟨0x10C, 0x20, 12, 0x4, 1, ⟨0x0, 0x0, 0x0, 0x0, 0x0, [], 0x0⟩⟩,
  ⟨0x110, 0x20, 12, 0x4, 1, ⟨0x0, 0x0, 0x0, 0x0, 0x0, [], 0x0⟩⟩,
  ⟨0x400, 0x20, 64, 0x4, 1, ⟨0x0, 0xFFFFF000, 0x0, 0x0, 0x0, [], 0x0⟩⟩,
  ⟨0x404, 0x20, 64, 0x4, 1, ⟨0x0, 0xFFFFFFFF, 0x0, 0x0, 0x0, [], 0x0⟩⟩,
  ⟨0x408, 0x20, 64, 0x4, 1, ⟨0x0, 0xFFFFF000, 0x0, 0x0, 0x0, [], 0x0⟩⟩,
  ⟨0x40C, 0x20, 64, 0x4, 1, ⟨0x0, 0xFFFFFFFF, 0x0, 0x0, 0x0, [], 0x0⟩⟩,
  ⟨0x410, 0x20, 64, 0x4, 1, ⟨0x0, 0x80FFFF00, 0x0, 0x0, 0x0, [], 0x0⟩⟩,
  ⟨0x414, 0x20, 64, 0x4, 1, ⟨0x0, 0xFFFFFFFF, 0x0, 0x0, 0x0, [], 0x0⟩⟩,
  ⟨0x418, 0x20, 64, 0x4, 1, ⟨0x0, 0x0, 0x0, 0x0, 0x0, [], 0x0⟩⟩,
  ⟨0x41C, 0x20, 64, 0x4, 1, ⟨0x0, 0x0, 0x0, 0x0, 0x0, [], 0x0⟩⟩,
  ⟨0x1000, 0x4, 256, 0x4, 1, ⟨0x0, 0xCFF01FFF, 0x0, 0x0, 0x0, [], 0x0⟩⟩,
  ⟨0x4000, 0x8, 4096, 0x4, 1, ⟨0xFFFFFFFF, 0xFFFFFFFF, 0x0, 0x0, 0x0, [], 0x0⟩⟩,
  ⟨0x4004, 0x8, 4096, 0x4, 1, ⟨0x0, 0x0, 0x0, 0x0, 0x0, [], 0x0⟩⟩]

/-- The rows of the CFG_ register map, by offset in the block (12_configurations_and_weight_sets.md R303). -/
def regRowsCfg : List RegRow := [
  ⟨0x0, 0x4, 1, 0x4, 1, ⟨0x0, 0x1F00007F, 0x0, 0x0, 0x0, [], 0x0⟩⟩,
  ⟨0x4, 0x4, 1, 0x4, 1, ⟨0x0, 0x0, 0x0, 0x0, 0x40000000, [], 0x0⟩⟩,
  ⟨0x8, 0x4, 1, 0x4, 1, ⟨0x0, 0xFFFFFFF0, 0x0, 0x0, 0x0, [], 0x0⟩⟩,
  ⟨0xC, 0x4, 1, 0x4, 1, ⟨0x0, 0xFFFFFF, 0x0, 0x0, 0x0, [], 0x0⟩⟩,
  ⟨0x10, 0x4, 1, 0x4, 1, ⟨0x0, 0x110001FF, 0x0, 0x0, 0x0, [], 0x0⟩⟩,
  ⟨0x14, 0x4, 1, 0x4, 1, ⟨0x0, 0x0, 0x0, 0x0, 0xC0000000, [], 0x0⟩⟩,
  ⟨0x100, 0x80, 12, 0x4, 1, ⟨0x400, 0xFFFF, 0x0, 0x0, 0x0, [], 0x0⟩⟩,
  ⟨0x104, 0x80, 12, 0x4, 1, ⟨0x40, 0x0, 0x0, 0x0, 0x7000000, [], 0x0⟩⟩,
  ⟨0x108, 0x80, 12, 0x4, 1, ⟨0x0, 0xFFFFFF80, 0x0, 0x0, 0x0, [], 0x0⟩⟩,
  ⟨0x10C, 0x80, 12, 0x4, 1, ⟨0x0, 0xFFFFFF, 0x0, 0x0, 0x0, [], 0x0⟩⟩,
  ⟨0x110, 0x80, 12, 0x4, 1, ⟨0x0, 0x0, 0x0, 0x0, 0x0, [], 0x0⟩⟩,
  ⟨0x114, 0x80, 12, 0x4, 1, ⟨0x0, 0x0, 0x0, 0x0, 0x0, [], 0x0⟩⟩,
  ⟨0x118, 0x80, 12, 0x4, 1, ⟨0x0, 0x0, 0x0, 0x0, 0x0, [], 0x0⟩⟩,
  ⟨0x11C, 0x80, 12, 0x4, 1, ⟨0x0, 0x0, 0x0, 0x0, 0x0, [], 0x0⟩⟩,
  ⟨0x120, 0x80, 12, 0x4, 1, ⟨0x0, 0x0, 0x0, 0x0, 0x0, [], 0x0⟩⟩,
  ⟨0x124, 0x80, 12, 0x4, 1, ⟨0x0, 0x0, 0x0, 0x37, 0x0, [], 0x0⟩⟩,
  ⟨0x140, 0x80, 12, 0x4, 8, ⟨0x0, 0x0, 0x0, 0x0, 0x0, [], 0x0⟩⟩,
  ⟨0x160, 0x80, 12, 0x4, 8, ⟨0x0, 0x0, 0x0, 0x0, 0x0, [], 0x0⟩⟩,
  ⟨0x1000, 0x80, 12, 0x4, 32, ⟨0x0, 0xFFFFFFFF, 0x0, 0x0, 0x0, [], 0x0⟩⟩,
  ⟨0x8000, 0x40, 512, 0x4, 1, ⟨0x0, 0x8F000000, 0x0, 0x0, 0xC, [], 0x0⟩⟩,
  ⟨0x8004, 0x40, 512, 0x4, 2, ⟨0x0, 0x0, 0x0, 0x0, 0x0, [], 0x0⟩⟩,
  ⟨0x800C, 0x40, 512, 0x4, 2, ⟨0x0, 0x0, 0x0, 0x0, 0x0, [], 0x0⟩⟩,
  ⟨0x8014, 0x40, 512, 0x8, 2, ⟨0x0, 0xFFFF0000, 0x0, 0x0, 0x0, [], 0x0⟩⟩,
  ⟨0x8018, 0x40, 512, 0x8, 2, ⟨0x0, 0xFFFF, 0x0, 0x0, 0x0, [], 0x0⟩⟩,
  ⟨0x8024, 0x40, 512, 0x4, 2, ⟨0x0, 0xFFFFFFFF, 0x0, 0x0, 0x0, [], 0x0⟩⟩]

/-- The rows of the XLT_ register map, by offset in the block (08_address_space.md R198). -/
def regRowsXlt : List RegRow := [
  ⟨0x0, 0x4, 1, 0x4, 1, ⟨0x1, 0x3, 0x0, 0x0, 0x0, [], 0x0⟩⟩,
  ⟨0x4, 0x4, 1, 0x4, 1, ⟨0x0, 0x0, 0x0, 0x0, 0x3A, [], 0x0⟩⟩,
  ⟨0x8, 0x4, 1, 0x4, 1, ⟨0x0, 0x30F0000, 0x0, 0x0, 0x0, [], 0x0⟩⟩,
  ⟨0xC, 0x4, 1, 0x4, 1, ⟨0x0, 0xFFFFFFFF, 0x0, 0x0, 0x0, [], 0x0⟩⟩,
  ⟨0x10, 0x4, 1, 0x4, 1, ⟨0x0, 0xFFFF0000, 0x0, 0x0, 0x0, [], 0x0⟩⟩,
  ⟨0x14, 0x4, 1, 0x4, 1, ⟨0x0, 0xFFFF, 0x0, 0x0, 0x0, [], 0x0⟩⟩,
  ⟨0x18, 0x4, 1, 0x4, 1, ⟨0x0, 0x0, 0x0, 0x0, 0x0, [], 0x0⟩⟩,
  ⟨0x1C, 0x4, 1, 0x4, 1, ⟨0x0, 0x0, 0x0, 0x0, 0x0, [], 0x0⟩⟩,
  ⟨0x20, 0x4, 1, 0x4, 1, ⟨0x0, 0x0, 0x0, 0x0, 0x0, [], 0x0⟩⟩,
  ⟨0x24, 0x4, 1, 0x4, 1, ⟨0x0, 0x0, 0x0, 0x0, 0x0, [], 0x0⟩⟩,
  ⟨0x28, 0x4, 1, 0x4, 1, ⟨0x0, 0x0, 0x0, 0x0, 0x0, [], 0x0⟩⟩,
  ⟨0x2C, 0x4, 1, 0x4, 1, ⟨0x0, 0x0, 0x0, 0x0, 0x0, [], 0x0⟩⟩,
  ⟨0x30, 0x4, 1, 0x4, 1, ⟨0x0, 0x0, 0x0, 0x0, 0x0, [], 0x0⟩⟩,
  ⟨0x100, 0x8, 12, 0x4, 1, ⟨0x0, 0xFFFFF001, 0x0, 0x0, 0x0, [], 0x0⟩⟩,
  ⟨0x104, 0x8, 12, 0x4, 1, ⟨0x0, 0xFFFFFF, 0x0, 0x0, 0x0, [], 0x0⟩⟩,
  ⟨0x200, 0x8, 12, 0x4, 1, ⟨0x0, 0xFFFFFFC0, 0x0, 0x0, 0x0, [], 0x0⟩⟩,
  ⟨0x204, 0x8, 12, 0x4, 1, ⟨0x0, 0xFFFFFF, 0x0, 0x0, 0x0, [], 0x0⟩⟩]

/-- The rows of the TIER_ register map, by offset in the block (09_tiers_and_movers.md R238). -/
def regRowsTier : List RegRow := [
  ⟨0x0, 0x4, 1, 0x4, 1, ⟨0x0, 0x2, 0x0, 0x0, 0x0, [], 0x0⟩⟩,
  ⟨0x4, 0x4, 1, 0x4, 1, ⟨0x0, 0x0, 0x0, 0x0, 0x0, [], 0x0⟩⟩,
  ⟨0x10, 0x4, 1, 0x4, 1, ⟨0x0, 0x0, 0x0, 0x0, 0x0, [], 0x0⟩⟩,
  ⟨0x14, 0x4, 1, 0x4, 1, ⟨0x0, 0x0, 0x0, 0x0, 0x0, [], 0x0⟩⟩,
  ⟨0x18, 0x4, 1, 0x4, 1, ⟨0x0, 0x0, 0x0, 0x0, 0x0, [], 0x0⟩⟩,
  ⟨0x1C, 0x4, 1, 0x4, 1, ⟨0x0, 0x0, 0x0, 0x0, 0x0, [], 0x0⟩⟩,
  ⟨0x100, 0x4, 12, 0x4, 1, ⟨0x0, 0x0, 0x0, 0x0, 0x0, [0xFF0000, 0xFF00], 0x0⟩⟩,
  ⟨0x140, 0x4, 8, 0x4, 1, ⟨0x0, 0x0, 0x0, 0x0, 0x0, [0xFF0000, 0xFF00], 0x0⟩⟩,
  ⟨0x160, 0x4, 2, 0x4, 1, ⟨0x0, 0x0, 0x0, 0x0, 0x0, [0xFF0000, 0xFF00], 0x0⟩⟩,
  ⟨0x180, 0x4, 8, 0x4, 1, ⟨0x0, 0x0, 0x0, 0x0, 0x0, [], 0x0⟩⟩,
  ⟨0x300, 0x10, 4, 0x4, 1, ⟨0x0, 0xFFFFFFC0, 0x0, 0x0, 0x0, [], 0x0⟩⟩,
  ⟨0x304, 0x10, 4, 0x4, 1, ⟨0x0, 0xF0FFFFFF, 0x0, 0x0, 0x0, [], 0x0⟩⟩,
  ⟨0x308, 0x10, 4, 0x4, 1, ⟨0x0, 0x0, 0x0, 0x0, 0x0, [], 0x0⟩⟩,
  ⟨0x30C, 0x10, 4, 0x4, 1, ⟨0x0, 0xFFFF, 0x0, 0x0, 0x0, [], 0x0⟩⟩]

/-- The rows of the EXP_ register map, by offset in the block (10_expert_routing.md R262). -/
def regRowsExp : List RegRow := [
  ⟨0x0, 0x4, 1, 0x4, 1, ⟨0x1, 0x3, 0x0, 0x0, 0x0, [], 0x0⟩⟩,
  ⟨0x4, 0x4, 1, 0x4, 1, ⟨0x0, 0x0, 0x0, 0x0, 0x6, [], 0x0⟩⟩,
  ⟨0x8, 0x4, 1, 0x4, 1, ⟨0x0, 0x0, 0x0, 0x0, 0x0, [], 0x0⟩⟩,
  ⟨0xC, 0x4, 1, 0x4, 1, ⟨0x0, 0x0, 0x0, 0x0, 0x0, [], 0x0⟩⟩,
  ⟨0x10, 0x4, 1, 0x4, 1, ⟨0x0, 0x0, 0x0, 0x0, 0x0, [], 0x0⟩⟩,
  ⟨0x14, 0x4, 1, 0x4, 1, ⟨0x0, 0x0, 0x0, 0x0, 0x0, [], 0x0⟩⟩,
  ⟨0x18, 0x4, 1, 0x4, 1, ⟨0x0, 0x0, 0x0, 0x0, 0x0, [], 0x0⟩⟩,
  ⟨0x1C, 0x4, 1, 0x4, 1, ⟨0x0, 0x0, 0x0, 0x0, 0x0, [], 0x0⟩⟩,
  ⟨0x20, 0x4, 1, 0x4, 1, ⟨0x0, 0x0, 0x0, 0x0, 0x0, [], 0x0⟩⟩,
  ⟨0x24, 0x4, 1, 0x4, 1, ⟨0x0, 0x0, 0x0, 0x0, 0x0, [], 0x0⟩⟩,
  ⟨0x100, 0x8, 12, 0x4, 1, ⟨0x0, 0xFFFFF001, 0x0, 0x0, 0x0, [], 0x0⟩⟩,
  ⟨0x104, 0x8, 12, 0x4, 1, ⟨0x0, 0xFFFFFF, 0x0, 0x0, 0x0, [], 0x0⟩⟩]

/-- The rows of the MSH_ register map, by offset in the block (13_lipin_mesh.md R331). -/
def regRowsMsh : List RegRow := [
  ⟨0x0, 0x4, 1, 0x4, 1, ⟨0x10100000, 0xFFFF0002, 0x0, 0x0, 0x0, [], 0x0⟩⟩,
  ⟨0x4, 0x4, 1, 0x4, 1, ⟨0x0, 0x0, 0x0, 0x0, 0x26, [], 0x0⟩⟩,
  ⟨0x8, 0x4, 1, 0x4, 1, ⟨0x0, 0x0, 0xF07003F, 0x0, 0x0, [], 0x0⟩⟩,
  ⟨0xC, 0x4, 1, 0x4, 1, ⟨0x0, 0x0, 0x0, 0x0, 0x0, [], 0x1⟩⟩,
  ⟨0x10, 0x4, 1, 0x4, 1, ⟨0x400, 0xFFFF, 0x0, 0x0, 0x0, [], 0x0⟩⟩,
  ⟨0x14, 0x4, 1, 0x4, 1, ⟨0x0, 0x0, 0x0, 0x0, 0x0, [], 0x0⟩⟩,
  ⟨0x18, 0x4, 1, 0x4, 1, ⟨0x0, 0x0, 0x0, 0x0, 0x0, [], 0x0⟩⟩,
  ⟨0x20, 0x4, 5, 0x4, 1, ⟨0x0, 0x0, 0xC, 0x0, 0x0, [], 0x0⟩⟩,
  ⟨0x40, 0x4, 5, 0x4, 1, ⟨0x0, 0x0, 0x0, 0x0, 0x4000000, [0xFF], 0x0⟩⟩,
  ⟨0x60, 0x8, 5, 0x4, 1, ⟨0x0, 0x0, 0x0, 0x0, 0x0, [0xFFFF0000, 0xFFFF], 0x0⟩⟩,
  ⟨0x64, 0x8, 5, 0x4, 1, ⟨0x0, 0x0, 0x0, 0x0, 0x0, [0xFF000000, 0xFF0000, 0xFFFF], 0x0⟩⟩,
  ⟨0x100, 0x4, 8, 0x4, 1, ⟨0x0, 0x1FFF, 0x0, 0x0, 0x0, [], 0x0⟩⟩,
  ⟨0x200, 0x4, 64, 0x4, 1, ⟨0x0, 0x7F, 0x0, 0x0, 0x0, [], 0x0⟩⟩,
  ⟨0x300, 0x4, 16, 0x4, 1, ⟨0x0, 0xFFFFFFFF, 0x0, 0x0, 0x0, [], 0x0⟩⟩,
  ⟨0x400, 0x10, 64, 0x4, 1, ⟨0x0, 0xFFFFFFFF, 0x0, 0x0, 0x0, [], 0x0⟩⟩,
  ⟨0x404, 0x10, 64, 0x4, 1, ⟨0x0, 0xFFFFFFFF, 0x0, 0x0, 0x0, [], 0x0⟩⟩,
  ⟨0x408, 0x10, 64, 0x4, 1, ⟨0x0, 0x8F000000, 0x0, 0x0, 0x0, [], 0x0⟩⟩,
  ⟨0x800, 0x20, 12, 0x4, 1, ⟨0x0, 0xFF, 0x0, 0x0, 0x0, [], 0x0⟩⟩,
  ⟨0x804, 0x20, 12, 0x4, 1, ⟨0x0, 0x0, 0x0, 0x0, 0x10000, [], 0x0⟩⟩,
  ⟨0x808, 0x20, 12, 0x4, 1, ⟨0x0, 0xFC000000, 0x0, 0x0, 0x0, [], 0x0⟩⟩,
  ⟨0x80C, 0x20, 12, 0x4, 1, ⟨0x0, 0xFFFFFF, 0x0, 0x0, 0x0, [], 0x0⟩⟩,
  ⟨0xC00, 0x20, 4, 0x10, 2, ⟨0x0, 0xFFFFFFC0, 0x0, 0x0, 0x0, [], 0x0⟩⟩,
  ⟨0xC04, 0x20, 4, 0x10, 2, ⟨0x0, 0xF0FFFFFF, 0x0, 0x0, 0x0, [], 0x0⟩⟩,
  ⟨0xC08, 0x20, 4, 0x10, 2, ⟨0x0, 0x0, 0x0, 0x0, 0x0, [], 0x0⟩⟩,
  ⟨0xC0C, 0x20, 4, 0x10, 2, ⟨0x0, 0xFFFF, 0x0, 0x0, 0x0, [], 0x0⟩⟩]

/-- The rows of the CXL_ register map, by offset in the block (19_cxl_ports.md R449). -/
def regRowsCxl : List RegRow := [
  ⟨0x0, 0x4, 1, 0x4, 1, ⟨0x10050005, 0xFFFF0007, 0x0, 0x0, 0x0, [], 0x0⟩⟩,
  ⟨0x4, 0x4, 1, 0x4, 1, ⟨0x0, 0x0, 0x0, 0x0, 0x3, [], 0x0⟩⟩,
  ⟨0x8, 0x4, 1, 0x4, 1, ⟨0x0, 0x0, 0x0, 0x0, 0x0, [], 0x0⟩⟩,
  ⟨0xC, 0x4, 1, 0x4, 1, ⟨0x0, 0x0, 0x0, 0x0, 0x0, [0xFF000000, 0xFF0000, 0xFF00, 0xFF], 0x0⟩⟩,
  ⟨0x10, 0x4, 1, 0x4, 1, ⟨0x0, 0x0, 0x0, 0x0, 0x0, [], 0x0⟩⟩,
  ⟨0x14, 0x4, 1, 0x4, 1, ⟨0x0, 0x0, 0xFFFFFF, 0x0, 0x0, [], 0x0⟩⟩,
  ⟨0x18, 0x4, 1, 0x4, 1, ⟨0x0, 0x0, 0x0, 0x0, 0x0, [], 0x0⟩⟩,
  ⟨0x1C, 0x4, 1, 0x4, 1, ⟨0x0, 0x0, 0x0, 0x0, 0x0, [], 0x0⟩⟩,
  ⟨0x20, 0x4, 1, 0x4, 1, ⟨0x0, 0x0, 0x0, 0x0, 0x0, [], 0x1⟩⟩,
  ⟨0x100, 0x8, 10, 0x4, 1, ⟨0x0, 0x0, 0x0, 0x0, 0x0, [], 0x0⟩⟩,
  ⟨0x104, 0x8, 10, 0x4, 1, ⟨0x0, 0x0, 0x0, 0x0, 0x0, [0xFF000000, 0xFF0000, 0xFF00, 0xFF], 0x0⟩⟩]

/-- The rows of the GRD_ register map, by offset in the tile block (03_grid_and_queues.md R59). -/
def regRowsGrd : List RegRow := [
  ⟨0x0, 0x4, 1, 0x4, 1, ⟨0x0, 0x0, 0x0, 0x0, 0x0, [], 0x0⟩⟩,
  ⟨0x4, 0x4, 1, 0x4, 1, ⟨0x1001, 0x1F01, 0x0, 0x0, 0x0, [], 0x0⟩⟩,
  ⟨0x8, 0x4, 1, 0x4, 1, ⟨0xF, 0xF, 0x0, 0x0, 0x0, [], 0x0⟩⟩,
  ⟨0xC, 0x4, 1, 0x4, 1, ⟨0x10, 0x0, 0x0, 0x0, 0x4E, [], 0x0⟩⟩,
  ⟨0x10, 0x4, 1, 0x4, 1, ⟨0x0, 0x0, 0x0, 0x0, 0x0, [], 0x0⟩⟩,
  ⟨0x14, 0x4, 1, 0x4, 1, ⟨0x0, 0x0, 0x0, 0x0, 0x0, [], 0x0⟩⟩,
  ⟨0x18, 0x4, 1, 0x4, 1, ⟨0x0, 0x0, 0x0, 0x0, 0x0, [0xFFFF0000, 0xFFFF], 0x0⟩⟩,
  ⟨0x100, 0x4, 32, 0x4, 1, ⟨0x0, 0x0, 0x0, 0x0, 0x0, [], 0x0⟩⟩,
  ⟨0x200, 0x4, 32, 0x4, 1, ⟨0x0, 0x9F701F00, 0x0, 0x0, 0x0, [], 0x0⟩⟩,
  ⟨0x300, 0x4, 32, 0x4, 1, ⟨0x0, 0x0, 0x0, 0x0, 0x0, [], 0x0⟩⟩,
  ⟨0x400, 0x4, 32, 0x4, 1, ⟨0x0, 0xFFF07FF, 0x0, 0x0, 0x0, [], 0x0⟩⟩,
  ⟨0x500, 0x4, 32, 0x4, 1, ⟨0x40000000, 0x0, 0x0, 0x0, 0x0, [], 0x0⟩⟩]

/-- The rows of the SEQ_ register map, by offset in the tile block (04_tile_programs.md R93). -/
def regRowsSeq : List RegRow := [
  ⟨0x1000, 0x4, 1, 0x4, 1, ⟨0x0, 0x0, 0x0, 0x0, 0x80000000, [], 0x0⟩⟩,
  ⟨0x1004, 0x4, 1, 0x4, 1, ⟨0x0, 0x0, 0x0, 0x0, 0x80000000, [], 0x0⟩⟩,
  ⟨0x1008, 0x4, 1, 0x4, 1, ⟨0x0, 0x0, 0x0, 0x0, 0x4, [0xFFFF0000], 0x0⟩⟩,
  ⟨0x100C, 0x4, 1, 0x4, 1, ⟨0x1, 0xFE, 0x0, 0x0, 0x0, [], 0x0⟩⟩,
  ⟨0x1010, 0x4, 4, 0x4, 1, ⟨0x0, 0xFFFFFFFF, 0x0, 0x0, 0x0, [], 0x0⟩⟩,
  ⟨0x1020, 0x10, 4, 0x4, 1, ⟨0x0, 0xFFFFFFFF, 0x0, 0x0, 0x0, [], 0x0⟩⟩,
  ⟨0x1024, 0x10, 4, 0x4, 1, ⟨0x0, 0xFFFFFFFF, 0x0, 0x0, 0x0, [], 0x0⟩⟩,
  ⟨0x1028, 0x10, 4, 0x4, 1, ⟨0x0, 0x8FFF0FFF, 0x0, 0x0, 0x0, [], 0x0⟩⟩,
  ⟨0x102C, 0x10, 4, 0x4, 1, ⟨0x0, 0xFF, 0x0, 0x0, 0x0, [], 0x0⟩⟩,
  ⟨0x1100, 0x8, 32, 0x4, 2, ⟨0x0, 0xFFFFFFFF, 0x0, 0x0, 0x0, [], 0x0⟩⟩,
  ⟨0x1200, 0x10, 16, 0x4, 4, ⟨0x0, 0xFFFFFFFF, 0x0, 0x0, 0x0, [], 0x0⟩⟩,
  ⟨0x1300, 0x8, 4, 0x4, 2, ⟨0x0, 0xFFFFFFFF, 0x0, 0x0, 0x0, [], 0x0⟩⟩]

/-- The rows of the ANV_ register map, by offset in the tile block (05_anvil_tile.md R124). -/
def regRowsAnv : List RegRow := [
  ⟨0x1400, 0x4, 1, 0x4, 1, ⟨0x3, 0x3, 0x0, 0x0, 0x0, [], 0x0⟩⟩,
  ⟨0x1404, 0x4, 1, 0x4, 1, ⟨0x0, 0x0, 0x0, 0x0, 0x0, [], 0x0⟩⟩,
  ⟨0x1408, 0x4, 1, 0x4, 1, ⟨0x0, 0x0, 0x0, 0x0, 0x0, [], 0x0⟩⟩,
  ⟨0x140C, 0x4, 1, 0x4, 1, ⟨0x0, 0x0, 0x0, 0x0, 0x0, [], 0x0⟩⟩,
  ⟨0x1410, 0x4, 1, 0x4, 1, ⟨0x0, 0x0, 0x0, 0x0, 0x0, [], 0x0⟩⟩,
  ⟨0x1414, 0x4, 1, 0x4, 1, ⟨0x0, 0x0, 0x0, 0x0, 0x0, [0xFFFF0000, 0xFFFF], 0x0⟩⟩,
  ⟨0x1418, 0x4, 1, 0x4, 1, ⟨0x0, 0x0, 0x0, 0x0, 0x0, [], 0x0⟩⟩,
  ⟨0x141C, 0x4, 1, 0x4, 1, ⟨0x0, 0x0, 0x0, 0x0, 0x0, [], 0x0⟩⟩,
  ⟨0x1420, 0x4, 1, 0x4, 1, ⟨0x0, 0x0, 0x0, 0x0, 0x0, [], 0x0⟩⟩,
  ⟨0x1424, 0x4, 1, 0x4, 1, ⟨0x0, 0x0, 0x0, 0x0, 0x0, [], 0x0⟩⟩,
  ⟨0x1428, 0x4, 1, 0x4, 1, ⟨0x0, 0x0, 0x0, 0x0, 0x0, [], 0x0⟩⟩,
  ⟨0x142C, 0x4, 1, 0x4, 1, ⟨0x0, 0x0, 0x0, 0x0, 0x0, [], 0x0⟩⟩,
  ⟨0x1430, 0x4, 1, 0x4, 1, ⟨0x0, 0x0, 0x0, 0x0, 0x0, [], 0x0⟩⟩,
  ⟨0x1434, 0x4, 1, 0x4, 1, ⟨0x0, 0x0, 0x0, 0x0, 0x0, [], 0x0⟩⟩]

/-- The rows of the TMP_ register map, by offset in the tile block (06_temper_tile.md R149). -/
def regRowsTmp : List RegRow := [
  ⟨0x1400, 0x4, 1, 0x4, 1, ⟨0x1, 0x1, 0x0, 0x0, 0x0, [], 0x0⟩⟩,
  ⟨0x1404, 0x4, 1, 0x4, 1, ⟨0x0, 0x0, 0x0, 0x0, 0x2, [], 0x0⟩⟩,
  ⟨0x1408, 0x4, 1, 0x4, 1, ⟨0x0, 0x0, 0x0, 0x0, 0x0, [], 0x0⟩⟩,
  ⟨0x140C, 0x4, 1, 0x4, 1, ⟨0x0, 0x0, 0x0, 0x0, 0x0, [0xFFFF0000, 0xFFFF], 0x0⟩⟩,
  ⟨0x1410, 0x4, 1, 0x4, 1, ⟨0x0, 0x0, 0x0, 0x0, 0x0, [], 0x0⟩⟩,
  ⟨0x1414, 0x4, 1, 0x4, 1, ⟨0x0, 0x0, 0x0, 0x0, 0x0, [], 0x0⟩⟩,
  ⟨0x1418, 0x4, 1, 0x4, 1, ⟨0x0, 0x0, 0x0, 0x0, 0x0, [], 0x0⟩⟩,
  ⟨0x141C, 0x4, 1, 0x4, 1, ⟨0x0, 0x0, 0x0, 0x0, 0x0, [], 0x0⟩⟩,
  ⟨0x1420, 0x4, 1, 0x4, 1, ⟨0x0, 0x0, 0x0, 0x0, 0x0, [], 0x0⟩⟩,
  ⟨0x1424, 0x4, 1, 0x4, 1, ⟨0x0, 0x0, 0x0, 0x0, 0x0, [], 0x0⟩⟩]

/-- The rows of the BIL_ register map, by offset in the tile block (07_billet_tiles.md R174). -/
def regRowsBil : List RegRow := [
  ⟨0x1400, 0x4, 1, 0x4, 1, ⟨0x0, 0x0, 0x0, 0x0, 0x2, [], 0x0⟩⟩,
  ⟨0x1404, 0x4, 1, 0x4, 1, ⟨0x0, 0x0, 0x0, 0x0, 0x0, [], 0x0⟩⟩,
  ⟨0x1408, 0x4, 1, 0x4, 1, ⟨0x0, 0x0, 0x0, 0x0, 0x0, [0xFFFF0000, 0xFFFF], 0x0⟩⟩,
  ⟨0x140C, 0x4, 1, 0x4, 1, ⟨0x0, 0x0, 0x0, 0x0, 0x80000000, [], 0x0⟩⟩,
  ⟨0x1410, 0x4, 1, 0x4, 1, ⟨0x0, 0x1E, 0x0, 0x0, 0x0, [], 0x0⟩⟩,
  ⟨0x1414, 0x4, 1, 0x4, 1, ⟨0x0, 0x0, 0x0, 0x0, 0xE, [], 0x0⟩⟩,
  ⟨0x1418, 0x4, 1, 0x4, 1, ⟨0x0, 0xFFFFFFFF, 0x0, 0x0, 0x0, [], 0x0⟩⟩,
  ⟨0x141C, 0x4, 1, 0x4, 1, ⟨0x0, 0xFFFF, 0x0, 0x0, 0x0, [], 0x0⟩⟩,
  ⟨0x1420, 0x4, 1, 0x4, 1, ⟨0x0, 0xFFFFFFFF, 0x0, 0x0, 0x0, [], 0x0⟩⟩,
  ⟨0x1424, 0x4, 1, 0x4, 1, ⟨0x0, 0xFFFFFFFF, 0x0, 0x0, 0x0, [], 0x0⟩⟩,
  ⟨0x1428, 0x4, 1, 0x4, 1, ⟨0x0, 0x0, 0x0, 0x0, 0x0, [], 0x0⟩⟩,
  ⟨0x142C, 0x4, 1, 0x4, 1, ⟨0x0, 0x0, 0x0, 0x0, 0x0, [], 0x0⟩⟩,
  ⟨0x1430, 0x4, 1, 0x4, 1, ⟨0x0, 0x0, 0x0, 0x0, 0x0, [], 0x0⟩⟩,
  ⟨0x1434, 0x4, 1, 0x4, 1, ⟨0x0, 0x0, 0x0, 0x0, 0x0, [], 0x0⟩⟩,
  ⟨0x1438, 0x4, 1, 0x4, 1, ⟨0x0, 0x0, 0x0, 0x8F0000FF, 0x0, [], 0x0⟩⟩,
  ⟨0x1500, 0x4, 48, 0x4, 1, ⟨0x0, 0x8F0000FF, 0x0, 0x0, 0x0, [], 0x0⟩⟩,
  ⟨0x1600, 0x4, 48, 0x4, 1, ⟨0x0, 0x0, 0x0, 0x0, 0x0, [], 0x0⟩⟩]

/-- The rows of the MOV_ register map, by offset in the tile block (09_tiers_and_movers.md R236). -/
def regRowsMov : List RegRow := [
  ⟨0x1400, 0x4, 1, 0x4, 1, ⟨0x1, 0x3, 0x0, 0x0, 0x0, [], 0x0⟩⟩,
  ⟨0x1404, 0x4, 1, 0x4, 1, ⟨0x0, 0x0, 0x0, 0x0, 0x0, [], 0x0⟩⟩,
  ⟨0x1408, 0x4, 1, 0x4, 1, ⟨0x0, 0x0, 0x0, 0x0, 0x0, [], 0x0⟩⟩,
  ⟨0x1410, 0x4, 4, 0x4, 1, ⟨0x0, 0x0, 0x0, 0x0, 0x0, [], 0x0⟩⟩,
  ⟨0x1420, 0x4, 4, 0x4, 1, ⟨0x0, 0xFFFFFFFF, 0x0, 0x0, 0x0, [], 0x0⟩⟩,
  ⟨0x1430, 0x4, 1, 0x4, 1, ⟨0x0, 0x0, 0x0, 0x0, 0x0, [], 0x0⟩⟩,
  ⟨0x1434, 0x4, 1, 0x4, 1, ⟨0x0, 0x0, 0x0, 0x0, 0x0, [], 0x0⟩⟩,
  ⟨0x1438, 0x4, 1, 0x4, 1, ⟨0x0, 0x0, 0x0, 0x0, 0x0, [], 0x0⟩⟩,
  ⟨0x143C, 0x4, 1, 0x4, 1, ⟨0x0, 0x0, 0x0, 0x0, 0x0, [], 0x0⟩⟩,
  ⟨0x1800, 0x20, 16, 0x4, 1, ⟨0x0, 0x0, 0x0, 0x0, 0x0, [], 0x0⟩⟩,
  ⟨0x1804, 0x20, 16, 0x4, 1, ⟨0x0, 0x0, 0x0, 0x0, 0x0, [], 0x0⟩⟩,
  ⟨0x1808, 0x20, 16, 0x4, 1, ⟨0x0, 0x0, 0x0, 0x0, 0x0, [], 0x0⟩⟩,
  ⟨0x180C, 0x20, 16, 0x4, 1, ⟨0x0, 0x0, 0x0, 0x0, 0x0, [], 0x0⟩⟩,
  ⟨0x1810, 0x20, 16, 0x4, 1, ⟨0x0, 0x0, 0x0, 0x0, 0x0, [], 0x0⟩⟩,
  ⟨0x1814, 0x20, 16, 0x4, 1, ⟨0x0, 0x0, 0x0, 0x0, 0x0, [], 0x0⟩⟩,
  ⟨0x1818, 0x20, 16, 0x4, 1, ⟨0x0, 0x0, 0x0, 0x0, 0x0, [], 0x0⟩⟩,
  ⟨0x181C, 0x20, 16, 0x4, 1, ⟨0x0, 0x0, 0x0, 0x0, 0x0, [], 0x0⟩⟩,
  ⟨0x1A00, 0x20, 16, 0x4, 1, ⟨0x0, 0xFFFF03FF, 0x0, 0x0, 0x0, [], 0x0⟩⟩,
  ⟨0x1A04, 0x20, 16, 0x4, 1, ⟨0x0, 0xFFFF, 0x0, 0x0, 0x0, [], 0x0⟩⟩,
  ⟨0x1A08, 0x20, 16, 0x4, 1, ⟨0x0, 0xFFFFFFF0, 0x0, 0x0, 0x0, [], 0x0⟩⟩,
  ⟨0x1A0C, 0x20, 16, 0x4, 1, ⟨0x0, 0xFFFFFFFF, 0x0, 0x0, 0x0, [], 0x0⟩⟩,
  ⟨0x1A10, 0x20, 16, 0x4, 1, ⟨0x0, 0xFFFFFFF8, 0x0, 0x0, 0x0, [], 0x0⟩⟩,
  ⟨0x1A14, 0x20, 16, 0x4, 1, ⟨0x0, 0xFFFF, 0x0, 0x0, 0x0, [], 0x0⟩⟩,
  ⟨0x1A18, 0x20, 16, 0x4, 1, ⟨0x0, 0xFFFFFF80, 0x0, 0x0, 0x0, [], 0x0⟩⟩,
  ⟨0x1A1C, 0x20, 16, 0x4, 1, ⟨0x0, 0xFFFF, 0x0, 0x0, 0x0, [], 0x0⟩⟩,
  ⟨0x1C00, 0x8, 16, 0x4, 1, ⟨0x0, 0xFFFFFFFF, 0x0, 0x0, 0x0, [], 0x0⟩⟩,
  ⟨0x1C04, 0x8, 16, 0x4, 1, ⟨0x0, 0xF00FFFF, 0x0, 0x0, 0x0, [], 0x0⟩⟩]

end Sys2Proof.Machine
end

