-- ==== Sys2Proof/Machine/Sparse.lean ====
section
/-! DEFINITION. Tables kept as lists of (key, value) pairs in one canonical form: keys strictly rising, and no entry equal to
what an unlisted key reads as. Memory, the register window and every numbered group of the block's hidden state use them. -/
namespace Sys2Proof.Machine

/-- A table from numbers to values, kept in canonical form by `Sparse.set`. -/
abbrev Sparse (α : Type) := List (Nat × α)

/-- The value at key `k`: the first entry listed for it, or what an unlisted key reads as. -/
def Sparse.get {α : Type} (d : Nat → α) : List (Nat × α) → Nat → α
  | [], k => d k
  | e :: t, k => if e.1 = k then e.2 else Sparse.get d t k

/-- The table without any entry for key `k`. -/
def Sparse.erase {α : Type} : List (Nat × α) → Nat → List (Nat × α)
  | [], _ => []
  | e :: t, k => if e.1 = k then Sparse.erase t k else e :: Sparse.erase t k

/-- The table with an entry for `k` before the first larger key. -/
def Sparse.insertAt {α : Type} : List (Nat × α) → Nat → α → List (Nat × α)
  | [], k, v => [(k, v)]
  | e :: t, k, v => if k < e.1 then (k, v) :: e :: t else e :: Sparse.insertAt t k v

/-- The table with key `k` reading as `v`; no entry is listed where `v` is what an unlisted key reads as. -/
def Sparse.set {α : Type} [DecidableEq α] (d : Nat → α) (t : List (Nat × α)) (k : Nat) (v : α) : List (Nat × α) :=
  if v = d k then Sparse.erase t k else Sparse.insertAt (Sparse.erase t k) k v

/-- The table with key `k` changed by `f`. -/
def Sparse.modify {α : Type} [DecidableEq α] (d : Nat → α) (t : List (Nat × α)) (k : Nat) (f : α → α) : List (Nat × α) :=
  Sparse.set d t k (f (Sparse.get d t k))

/-- Every key of the table is above `k`. -/
def Sparse.above {α : Type} (k : Nat) : List (Nat × α) → Bool
  | [] => true
  | e :: t => decide (k < e.1) && Sparse.above k t

/-- The canonical form: keys strictly rising and no entry equal to what an unlisted key reads as. -/
def Sparse.wf {α : Type} [DecidableEq α] (d : Nat → α) : List (Nat × α) → Bool
  | [] => true
  | e :: t => !decide (e.2 = d e.1) && Sparse.above e.1 t && Sparse.wf d t

end Sys2Proof.Machine
end

