-- ==== Sys2Proof/Machine/State.lean ====
section
/-! DEFINITION. The state of the Kenlum module as plain data. Every register of the control-register window is a word of
`regs`, keyed by its offset in the window; every byte of the hot, warm and cold tiers and of the on-die SRAM window (the local
stores, Billet banks, instruction memories and queue memories) is a byte of `mem`, keyed by its offset in the slot (R176,
R180). The structures below hold what no register shows. `pending` is the block's queue of waiting commands. -/
namespace Sys2Proof.Machine

/-- Why a step stops. No rule of the spec stops the module by a Lean fault: every fault of the manual is an effect on the state.
`illFormed` is raised by the step for a command that breaks `Instr.wf`: no sender can send it. Safe: the machine stops. -/
inductive Fault where
  | illFormed
deriving DecidableEq, Repr

/-- Why a command has no meaning. `notModelled` is raised by an arm of `exec` whose command has no meaning yet. Safe: the
machine stops. -/
inductive Refusal where
  | notModelled (mnemonic : String)
deriving DecidableEq, Repr

/-- A flit: its KIND and its payload (R40). -/
structure Flit where
  kind : FlitKind
  payload : Payload
deriving DecidableEq, Repr

/-- A flit held by a queue: its place in the order of the queue, its slot of queue memory (which holds the payload, R180), its
KIND, and the outputs that have sent it (R45; bits 0 to 3 are N, E, S, W and bit 4 is Local). -/
structure Held where
  seq : Nat
  slot : Nat
  kind : FlitKind
  sent : BitVec 5
deriving DecidableEq, Repr

/-- One channel queue of a switch: the position of the next flit written, counted from BASE, the number of the next flit, the
flits held (oldest first), whether it is quenched (R50), the credit count of each link output, and the credit count that the
I/O die's attachment holds for it (R43, R51). -/
structure Queue where
  tail : Nat
  nextSeq : Nat
  held : List Held
  quenched : Bool
  credits : Vector Nat 4
  attach : Nat
deriving DecidableEq, Repr

/-- An empty queue with no credit, as after reset (R60). -/
def Queue.reset : Queue := ⟨0, 0, [], false, Vector.replicate 4 0, 0⟩

/-- What an engine holds of its instruction in flight beside the word in TILE_SEQ_INSTn: its address, the values it formed at issue,
the word as it was issued, and the values of the registers it read (R61, R88, R90). -/
structure Engine where
  pc : Nat
  ops : List DWord
  word : DWord
  regs : List DWord
deriving DecidableEq, Repr

/-- An idle engine. -/
def Engine.reset : Engine := ⟨0, [], 0, []⟩

/-- One Billet bank's repair state: the rows mapped to spares, the rows found failing in the pass and in the test in progress, whether the
march's first pass newly mapped a row (R169, R170), and the handovers that wait for a march, in order (R158). -/
structure Bank where
  spares : List Nat
  failing : List Nat
  found : List Nat
  again : Bool
  handover : List Word
deriving DecidableEq, Repr

/-- A bank that no march has touched. -/
def Bank.reset : Bank := ⟨[], [], [], false, []⟩

/-- A firmware march on E3 with the values it was started with, and the units it has completed (R171). -/
structure March where
  units : Nat
  mask : Nat
  pat : Nat
  op : Nat
  repair : Bool
deriving DecidableEq, Repr

/-- What a tile holds beside its registers and its stores. -/
structure Tile where
  /-- Queues by number (03). -/
  queues : Sparse Queue
  /-- The queue after the last winner of each link output (R42). -/
  rr : Vector Nat 4
  /-- The stall counter (R54). -/
  stall : Nat
  /-- DRAINED is withdrawn: a flit came for a quenched queue (R50). -/
  withdrawn : Bool
  /-- Engines E0 to E3 by number (04). -/
  engines : Sparse Engine
  /-- The units of the block in the active and in the shadow weight set, header first (R106; Anvil tiles). -/
  wact : List Payload
  wshd : List Payload
  /-- ANV_CTRL as it acts: a write takes effect at the next MMA start (R124; Anvil tiles). -/
  ctrl : Word
  /-- Banks by number (07; Billet tiles). -/
  banks : Sparse Bank
  /-- The firmware march that runs (R171; Billet tiles). -/
  fwMarch : Option March
  /-- The flit that BSCAT has taken and holds until its bank is free (R165; Billet tiles). -/
  scatter : Option Flit
  /-- A write of GRD_CTRL or GRD_LINK that waits until the partition next runs (R59). -/
  deferCtrl : Option Word
  deferLink : Option Word
  /-- Products counted in the step by envelope number: the producer's `s`, and the witness's (R404; Anvil tiles). -/
  witness : Sparse Nat
  /-- The sum of squares and the rows of the row group an instruction's tap is forming, and the instruction's first failing
  row (R401, R402). -/
  tapSum : Word
  tapFail : Option Nat
  /-- The digest a DRAIN is forming and the values it has taken (R404). -/
  digest : DWord
  digestCount : Nat
deriving DecidableEq, Repr

/-- A tile after reset. -/
def Tile.reset : Tile :=
  ⟨[], Vector.replicate 4 0, 0, false, [], [], [], 3, [], none, none, none, none, [], 0, none, 0, 0⟩

/-- The sender of a flit on a link: a switch's queue and output with the flit's number and slot there, or the I/O die's
attachment. -/
inductive Source where
  | switch (t q out seq slot : Nat)
  | attachment
deriving DecidableEq, Repr

/-- A flit on a link (R42): where it arrives, the queue it names and who sent it. -/
structure Flight where
  dst : Nat
  port : Nat
  dq : Nat
  flit : Flit
  src : Source
deriving DecidableEq, Repr

/-- A credit on its way back (R43, R51): to output `out` of queue `q` of tile `t`, or to the attachment for that queue. -/
structure CreditFlight where
  t : Nat
  q : Nat
  out : Nat
  attach : Bool
deriving DecidableEq, Repr

/-- A record in the common layout of the fault log (R33, R57, R92, R160, R194): stamp, bytes 8 to 11, code, partition,
bytes 16 to 23 and bytes 24 to 31. -/
structure FaultRecord where
  stamp : DWord
  source : Nat
  code : Nat
  part : Nat
  info : Nat
  detail : Nat
deriving DecidableEq, Repr

/-- An envelope of the Slag checks as a tap holds it (Table 17-2). -/
structure Envelope where
  maxMag : Word
  ssqMin : Word
  ssqMax : Word
  flags : Byte
  wrole : Nat
  wpair : Nat
  wg : Nat
deriving DecidableEq, Repr

/-- A digest that a tap sent for a step (R404). -/
structure Digest where
  step : Nat
  witness : Bool
  pair : Nat
  product : Nat
  tile : Nat
  cols : Nat
  value : DWord
deriving DecidableEq, Repr

/-- One request's part in a step (R362): its slot, its segment, its first position, how many rows it takes, and whether they
are prompt tokens. -/
structure StepRow where
  slot : Nat
  segment : Nat
  pos : Nat
  rows : Nat
  prompt : Bool
deriving DecidableEq, Repr

/-- A capture that a step holds (Table 12-7). -/
structure CapturedSet where
  set : Nat
  slot : Nat
  gen : Word
  base : DWord
deriving DecidableEq, Repr

/-- A verdict heard from a member of the verdict group: the step, the member's logical index, its code, its cause and its stamp (R413). -/
structure Heard where
  step : Nat
  member : Nat
  code : Nat
  cause : Nat
  stamp : DWord
deriving DecidableEq, Repr

/-- How far a step has come: running, ended, decided good with its commit at a step of Table 15-6, decided bad, or abandoned. -/
inductive StepPhase where
  | running
  | ended
  | committing (stage : Nat)
  /-- Decided BAD; and rolled back, waiting for the targeted passes before its replay (R415, R418). -/
  | bad
  | rolled
deriving DecidableEq, Repr

/-- A step from its admission until its commit or its abandonment (R362, R366, R402, R411). -/
structure OpenStep where
  n : Nat
  /-- The job it is a step of (R382). -/
  job : Nat
  rows : List StepRow
  captures : List CapturedSet
  phase : StepPhase
  /-- Its stamp: the tick of its admission (Table 02-2). -/
  admitted : DWord
  endTick : DWord
  commitTick : DWord
  /-- The cause of Table 17-4 that marked it, 0 while none has. -/
  cause : Nat
  results : List StepResult
  /-- Its commit has been charged to the accounts (R367). -/
  charged : Bool
deriving DecidableEq, Repr

/-- A step is open: from its admission until its decision (R402). -/
def OpenStep.open_ (o : OpenStep) : Bool := o.phase == .running || o.phase == .ended

/-- A flit waiting to enter the grid (R290): its channel, whether it was posted after the ARM, and whether it was held over a swap (R293). -/
structure IngFlit where
  ch : Nat
  flit : Flit
  late : Bool
  held : Bool
deriving DecidableEq, Repr

/-- What a partition holds beside its registers. -/
structure Part where
  /-- The ingress channels of the Active and of the Shadow set: row 9 tile and queue (R290). -/
  ingActive : List (Nat × Nat)
  ingShadow : List (Nat × Nat)
  /-- The ingress buffer, oldest first, and the channels that still await their Quench marker (R293). -/
  ingress : List IngFlit
  marks : List Nat
  /-- Strikes counted toward the drain limit (R295). -/
  drain : Nat
  /-- The ticks in which the report became complete and the partition was last released (R294). -/
  reportTick : Option DWord
  releaseTick : Option DWord
  /-- The job coming in at a switch, the job going out, whether the stop is complete, and whether the images are loaded (R388). -/
  incoming : Option Nat
  outgoing : Option Nat
  stopped : Bool
  loaded : Bool
  /-- The outgoing job is still to be saved; the incoming job has no saved record; its measurements differ (R296, R388). -/
  saving : Bool
  fresh : Bool
  measBad : Bool
  /-- The tick in which the stop completed. -/
  stopTick : DWord
  /-- A partition reset, job resets, a PREEMPT and a slice boundary latched during a switch (R392), and a job to start as FRESH at the
  next Strike boundary (R395). -/
  resetLatched : Bool
  jobResets : List Nat
  preemptLatched : Bool
  sliceLatched : Bool
  jobRestart : Option Nat
  /-- The slice length in force, and the last boundary at which slices were looked at (R383). -/
  sliceLen : Nat
  sliceSeen : Option DWord
  /-- Firmware pre-empts at the next slice boundary, for tiles whose pass is due (R409). -/
  coverDue : Bool
  /-- The number of the next step (R382). -/
  nextStep : Nat
  /-- Steps admitted and not yet committed or abandoned, in ascending number. -/
  steps : List OpenStep
  /-- The Strike of the last prefill step (R362). -/
  lastPrefill : Nat
  /-- The fault records that stand for the resident job (Table 16-4). -/
  faults : List FaultRecord
  /-- The envelopes the taps hold, entries 1 to 15; none for one that acts as envelope 0 (R400). -/
  envelopes : List (Option Envelope)
  /-- The digests of the steps in progress (R404). -/
  digests : List Digest
  /-- The verdicts heard (R413). -/
  heard : List Heard
  /-- A flit entered or left a queue of the partition since the last tick (R54). -/
  moved : Bool
  /-- The work of ENABLING waits for a firmware march on a tile of the run (R171, R378). -/
  clearLate : Bool
  /-- A job of the partition has run in the current Strike while ARMED (R295). -/
  armedRan : Bool
  /-- The step for whose overrun other modules have been asked and how many questions went out, and their answers: a request id and the module
  that serves it (R260; log 22). -/
  asked : Option (Nat × Nat)
  named : List (Nat × Nat)
deriving DecidableEq, Repr

/-- A partition after reset. -/
def Part.reset : Part :=
  ⟨[], [], [], [], 0, none, none, none, none, false, false, false, false, false, 0, false, [], false, false, none, 400, none, false, 1, [], 0, [],
    [], [], [], false, false, false, none, []⟩

/-- A mover command with its captured values (R214, R216). MOVE, PREF, PERM and the rest are told apart by `op`; `xfm` is XFM, or OP of
PREF. -/
structure Cmd where
  op : Nat
  xfm : Nat
  nq : Nat
  ntf : Bool
  srcq : Bool
  dstq : Bool
  na : Bool
  src : Nat
  dst : Nat
  cnt : Nat
  aux : Nat
  /-- The f-cycle at which the command reached the head of its queue (R229). -/
  headAt : Nat
  /-- The units it runs, where the control block gives them (PERM); 0 while they are not known. -/
  total : Nat
deriving DecidableEq, Repr

/-- A unit a mover has in flight (R209): a unit of its head command or of its ring descriptor, or an entry of a stream, which takes
a slot of the stream's ring. -/
inductive MoverUnit where
  | command (k : Nat)
  | stream (n pass entry slot : Nat)
deriving DecidableEq, Repr

/-- An entry of a translation cache (R186): partition, first VA of the page, page size as a power of two, and the leaf. -/
structure TlbEntry where
  part : Nat
  va : Nat
  size : Nat
  leaf : DWord
deriving DecidableEq, Repr

/-- How far a mover's oldest unit has come: how many of the Hearth lines it reads it has used or is having filled (R203), the accesses it has
sent to CXL partners and to other slots, by address, the data that other slots returned, translations that serve this unit alone (R191),
the cause of Table 17-4 that an
error in its data has (0 for none), the fault kind
of a tier or a slot that did not serve (0 for none) with the address, whether a prefetch fault dropped it (R193), the flits it has moved, whether
the collective it handed over has ended (R324), and whether its last try ended in a wait for a flit, for room in a queue or for its turn, with
no transaction outstanding (R54). -/
structure Work where
  used : Nat
  asked : List Nat
  data : List (Nat × List Byte)
  grants : List TlbEntry
  poison : Nat
  fail : Nat
  failAt : Nat
  drop : Bool
  flits : Nat
  ended : Bool
  waits : Bool
deriving DecidableEq, Repr

/-- A unit that has done nothing yet. -/
def Work.reset : Work := ⟨0, [], [], [], 0, 0, 0, false, 0, false, false⟩

/-- A descriptor an I/O-die mover runs (R232), and, once it has ended, the fault kind and the units of its completion word until that is
written. -/
structure RingJob where
  ring : Nat
  index : Nat
  part : Nat
  phys : Bool
  completion : Nat
  result : Option (Nat × Nat)
deriving DecidableEq, Repr

/-- A mover: its command queue, its units in flight in order, the descriptor it runs and the units that has completed (movers 48
to 63), the oldest unit's work, and the LENGTH that each unit of APPEND in flight read as it started (R271), by unit. -/
structure Mover where
  queue : List Cmd
  inflight : List MoverUnit
  job : Option RingJob
  prog : Nat
  work : Work
  lens : List (Nat × Nat)
deriving DecidableEq, Repr

/-- A mover after reset. -/
def Mover.reset : Mover := ⟨[], [], none, 0, Work.reset, []⟩

/-- What becomes of an entry that a stream has passed: its tile is delivered with a notice, or it is skipped, with a group close
where it carries GROUP_END (R227, R228). -/
inductive ItemKind where
  | tile
  | skip
  | close
deriving DecidableEq, Repr

/-- An entry that a stream has started or passed and not completed, with the number of its pass. -/
structure Item where
  pass : Nat
  entry : Nat
  kind : ItemKind
deriving DecidableEq, Repr

/-- A prefetch stream's progress beside MOV_STRn_POS and MOV_STRn_STAT: the pass and the entry to start next, passes being counted from the
swap; the items to start before it again after a stop; those started or passed and not completed, in order; the ranges
cancelled in that pass (first entry and count); the pass and the entry bound of a PREF STOP; the last release (f-cycle) and the oldest slot
held (R227 to R231, R234). -/
structure Stream where
  pass : Nat
  next : Nat
  redo : List Item
  started : List Item
  cancelled : List (Nat × Nat)
  stopAt : Option (Nat × Nat)
  lastRelease : Nat
  base : Nat
deriving DecidableEq, Repr

/-- A stream after reset. -/
def Stream.reset : Stream := ⟨0, 0, [], [], [], none, 0, 0⟩

/-- What of a saved record has no layout in memory (Table 16-5): the type registers, and what tiles, movers and streams hold beside their
registers; and the ingress channels that still awaited their Quench marker (R296, R386; log 19). -/
structure Saved where
  regs : List (Nat × Word)
  tiles : List (Nat × Tile)
  movers : List (Nat × Mover)
  streams : List (Nat × Stream)
  marks : List Nat
  /-- The faults pending, and SEG and VALUE of each SHAPE that overran (R261). -/
  faults : List FaultRecord
  overruns : List (Nat × Nat)
deriving DecidableEq, Repr

/-- No saved record. -/
def Saved.none : Saved := ⟨[], [], [], [], [], [], []⟩

/-- The kind of an access that translates (R194). -/
inductive Access where
  | read
  | write
  | atomic
deriving DecidableEq, Repr

/-- What a walk serves: a mover's unit, a prefetch unit, a unit that a stop abandoned (R192), a fill of a weight set, an early fetch of a
partition for the residency entry at an offset, or a write of the ports' engines. -/
inductive Walker where
  | mover (m : Nat)
  | prefetch (m : Nat)
  | abandoned (m : Nat)
  | fill
  | early (p entry : Nat)
  | engine
deriving DecidableEq, Repr

/-- An invalidation in progress (R187): its OP, partition and range, and the movers whose units had used a matching entry. -/
structure Inval where
  op : Nat
  part : Nat
  va : Nat
  pages : Nat
  units : List Nat
deriving DecidableEq, Repr

/-- A walk in progress or waiting (R186, R190): the level-1 table that it walks, as XLT_PTBASEp held it, and the VA that a fault of it records
(R194, R235). `stale` holds the invalidations written while it was in progress (R187), and `blocked` is set while it waits for a frame
descriptor (R190). -/
structure Walk where
  who : Walker
  part : Nat
  table : Nat
  va : Nat
  shown : Nat
  access : Access
  stale : List Inval
  blocked : Bool
deriving DecidableEq, Repr

/-- A demand fetch in progress (R189): the leaf's address and value, the page, the descriptor taken and its frame, and the walks that wait. -/
structure Fetch where
  part : Nat
  va : Nat
  size : Nat
  leafAt : Nat
  leaf : DWord
  descAt : Nat
  frame : Nat
  waiters : List Walk
  stale : Bool
deriving DecidableEq, Repr

/-- A line of a Hearth set (R203): its line address within the stack and whether it is dirty. -/
structure Line where
  addr : Nat
  dirty : Bool
deriving DecidableEq, Repr

/-- A line being filled from its stack, the mover whose read it is (R213), and the movers whose units wait on it (R203). -/
structure LineFill where
  bay : Nat
  line : Nat
  owner : Nat
  movers : List Nat
deriving DecidableEq, Repr

/-- A load that the load engine runs or holds (R287, R296). -/
structure LoadJob where
  part : Nat
  resume : Bool
deriving DecidableEq, Repr

/-- The fill of a weight set in progress (R301). -/
structure FillJob where
  set : Nat
  slot : Nat
  failed : Bool
deriving DecidableEq, Repr

/-- An expert the residency engine holds (R256): its partition, and the offset in the slot of its entry in the residency table. -/
structure Lookup where
  part : Nat
  entry : Nat
  /-- The fetches of a claimed expert have been started. -/
  claimed : Bool
  failed : Bool
  discarded : Bool
deriving DecidableEq, Repr

/-- A packet received whole: its channel, the payloads of its frames, the port it came in on and the tick in which its END frame
was accepted (R314, R319). `loop` marks one that the module sent to itself. -/
structure Packet where
  vc : Nat
  frames : List (List Byte)
  stamp : DWord
  loop : Bool
deriving DecidableEq, Repr

/-- Where a packet goes (R316). -/
inductive Route where
  | here
  | port (n : Nat)
  | nowhere
deriving DecidableEq, Repr

/-- A packet that arrives on a channel: where its first frame says it goes (R314), and the payloads of its frames. -/
structure Arriving where
  vc : Nat
  route : Route
  frames : List (List Byte)
deriving DecidableEq, Repr

/-- A frame queued to send: its class (its virtual channel, or 8 for the responses of VC 0, R312), the port in whose receive buffer it stands,
where it is forwarded, and the frame. -/
structure Queued where
  cls : Nat
  src : Option Nat
  frame : Frame
deriving DecidableEq, Repr

/-- A Lipin port (13): the SEQ of the next frame sent and of the next expected, the replay buffer (oldest first), the frames queued
to send, the classes with a packet partly sent and the class whose turn it is, the packets that are still arriving and those received whole,
the credits held per class, those to return per virtual channel and the frames in its receive buffer that wait at another port, how often the
oldest frame was resent, retrains failed in a row, whether frames are discarded until the expected SEQ, whether sending waits for the partner's
first header after a retrain, the f-cycle in which ACK last advanced, the tick in which DISABLING began, and the violations counted in a period
with that period's number. -/
structure LipinPort where
  txSeq : Nat
  rxSeq : Nat
  replay : List Frame
  queued : List Queued
  open_ : List Nat
  turn : Nat
  arriving : List Arriving
  packets : List Packet
  credits : Sparse Nat
  owed : Sparse Nat
  passing : Sparse Nat
  resent : Nat
  failed : Nat
  skipping : Bool
  resuming : Bool
  since : Nat
  stopTick : DWord
  violations : Nat
  period : Nat
deriving DecidableEq, Repr

/-- A Lipin port after reset. -/
def LipinPort.reset : LipinPort := ⟨0, 0, [], [], [], 0, [], [], [], [], [], 0, 0, false, false, 0, 0, 0, 0⟩

/-- Who waits for an access to another slot or to a partner (R318, R446): `dropped` where its mover was stopped, whose tag it still holds,
`engine` for a write of a collective's results or of a broadcast's data, by the key of the collective (R197, R321), and the admission engine for
the read of a list and for its write (R299). -/
inductive Issuer where
  | mover (m : Nat)
  | engine (key : Nat × Nat × Nat × Nat)
  | admission (op part pa : Nat)
  | admitted
  | firmware
  | host (fn : Nat) (tag : Nat)
  | journal
  | dropped (m : Nat)
deriving DecidableEq, Repr

/-- A load, store or atomic to another slot (R318; `port` is 16 and its channel), or an access on a CXL port (R446). `sent` is false while it
waits for a tag of its holder (R213). -/
structure Outstanding where
  tag : Nat
  port : Nat
  slot : Nat
  sent : Bool
  issuer : Issuer
  addr : Nat
  op : AccessOp
  issued : DWord
deriving DecidableEq, Repr

/-- A collective packet received: the source's logical index, whether it is the header, the place of
its data in bytes, and its data (R323); and its place in the staging area while it is staged (R327). -/
structure Contribution where
  part : Nat
  source : Nat
  epoch : Nat
  step : Nat
  seq : Nat
  header : Bool
  off : Nat
  data : List Byte
  place : Nat
deriving DecidableEq, Repr

/-- What the control of a dispatch or return exchange says (R251): units per row, the layer, PLAN, where the received group table and the
counts by source are kept, SID, and for each rank the first expert it holds and how many; in a return exchange also the first row of
each expert's group in the own PERM, and in a dispatch the tokens of the own rows for each expert held here. -/
structure Exchange where
  len : Nat
  layer : Nat
  plan : Nat
  groups : Nat
  counts : Nat
  sid : Nat
  held : List (Nat × Nat)
  firsts : List (Nat × Nat)
  tokens : List (List Nat)
deriving DecidableEq, Repr

/-- A collective handed over and running (R321, R325): what its descriptor says, the tick of its handover, and what it has
received, its own part among it. `table` is the level-1 table held at the handover (R391), `phase` is 1 once an all-reduce has
sent its reduced chunk, and `written` says that its results have been written, of which some may await their acknowledgement (R197).
`abort` is set when it has ended ABORTED and only its STATUS is to be written, and says whether its completion record is kept (R326). -/
structure Collective where
  part : Nat
  mover : Nat
  desc : Nat
  epoch : Nat
  step : Nat
  seq : Nat
  kind : Nat
  group : Nat
  len : Nat
  src : Nat
  dst : Nat
  cnts : Nat
  fmt : Nat
  op : Nat
  peer : Nat
  vc : Nat
  mode : Nat
  table : Nat
  exchange : Option Exchange
  handed : DWord
  phase : Nat
  got : List Contribution
  written : Bool
  abort : Option Bool
deriving DecidableEq, Repr

/-- A completion record of the collective engine (R325). -/
structure CollRecord where
  part : Nat
  epoch : Nat
  step : Nat
  seq : Nat
  aborted : Bool
deriving DecidableEq, Repr

/-- A broadcast this module sends (R220, R328): the mover, the unit, the members that have not acknowledged, the
tick in which it began and whether it ended ABORTED. -/
structure Broadcast where
  mover : Nat
  unit : Nat
  waiting : List Nat
  since : DWord
  aborted : Bool
deriving DecidableEq, Repr

/-- An acknowledgement of a broadcast unit that is owed to a source (R220): the source's logical index, TAG and INFO of its packet, and the key
of the writes that it waits for. -/
structure BcastAck where
  src : Nat
  tag : Nat
  cookie : Nat
  key : Nat × Nat × Nat × Nat
deriving DecidableEq, Repr

/-- A partition that Bellows refuses issue in the tick (R335): the f-cycles of the tick after the last refusal, and whether it gets no credit at
all. -/
structure Withheld where
  part : Nat
  after : Nat
  whole : Bool
deriving DecidableEq, Repr

/-- Bellows and the sensors (14), in units of 1/1,024 W where a power is meant. -/
structure Power where
  /-- The 128-tick period of the last sample, counted in ticks once the module is aligned and on its own clock before (R333). -/
  sampled : Option (Bool × Nat)
  /-- The products V × I sampled in the current Strike, in units of 10 µW. -/
  samples : List Nat
  /-- P(k) of the Strikes before, newest first, at most 1,953. -/
  history : List Nat
  /-- Input energy not yet counted as a whole mJ, in units of 1/100,000 mJ. -/
  energyRest : Nat
  target : Nat
  capNow : Nat
  /-- The rack cap in force in W, and the least hard cap and the lower envelope of Banking at the last power step. -/
  rackCap : Nat
  hardCap : Nat
  envelope : Nat
  pendingCaps : List (DWord × Nat)
  capStamp : Option DWord
  alert : Bool
  alertPulse : Bool
  alertTick : DWord
  tjMax : Bool
  tjTick : DWord
  theta : Nat
  recovering : Bool
  burst : Nat
  burstWait : Nat
  credit : Nat
  spent : Nat
  banked : Nat
  withheld : List Withheld
  estimate : Nat
  scaleNum : Nat
  scaleDen : Nat
deriving DecidableEq, Repr

/-- Bellows before the first power step, at the fail-safe cap of 1,600 W (R340). -/
def Power.reset : Power :=
  ⟨none, [], [], 0, 1600 * 1024, 1600 * 1024, 1600, 1600 * 1024, 0, [], none, false, false, 0, false, 0, 0, false, 0, 0, 0, 0, 0, [], 0, 1, 1⟩

/-- A submission log beside its SRV_LOGn registers (15): the whole HEAD, TAIL and OUT_HEAD as last read, the watch lines held
and being reread, ring slots reserved, and the slot of the request that is being accepted with whether its tail word has been
written (R355). -/
structure Log where
  head : Word
  tail : Word
  outHead : Word
  tailHeld : Bool
  outHeld : Bool
  tailFill : Bool
  outFill : Bool
  reserved : Nat
  accepting : Option (Nat × Bool)
deriving DecidableEq, Repr

/-- A log after reset. -/
def Log.reset : Log := ⟨0, 0, 0, false, false, false, false, 0, none⟩

/-- The states of Table 15-3; `accepting` is a slot taken by a request whose ACCEPT record is not yet written (R355). -/
inductive RequestState where
  | free
  | accepting
  | queued
  | prefill
  | ready
  | inStep
  | held
deriving DecidableEq, Repr

/-- An entry of the request table (15). -/
structure Request where
  gen : Nat
  state : RequestState
  log : Nat
  index : Word
  desc : List Byte
  prompt : List Word
  stop : List Byte
  stamp : DWord
  deadline : Nat
  /-- The next position to decide, and how many prompt tokens have committed. -/
  pos : Nat
  done : Nat
  kvLen : Nat
  emitted : List Emitted
  lastCommit : DWord
  cancelled : Bool
  deferred : Bool
  /-- Set when a shape overrun or a fault ends the request at the next chance (R260, R365): its status and its REASON. -/
  ending : Option (Nat × Nat)
  gens : List CapturedSet
  /-- What the request was before it was HELD, and whether it waits for ring space rather than for its window to roll. -/
  heldReady : Bool
  heldRing : Bool
deriving DecidableEq, Repr

/-- A free slot of the request table that no request has used. -/
def Request.free : Request :=
  ⟨0x7FFE, .free, 0, 0, [], [], [], 0, 0, 0, 0, 0, [], 0, false, false, none, [], false, false⟩

/-- A journal record (R368): TYPE, lines, sequence number, its first line as counted without wrapping, stamp, partition and step
number, and what it holds. -/
structure JournalRecord where
  type : Nat
  lines : Nat
  seq : Nat
  offset : Nat
  stamp : DWord
  part : Nat
  step : Nat
  /-- The requests as the record leaves them, with their slots, and the results a COMMIT holds. -/
  requests : List (Nat × Request)
  captures : List CapturedSet
  results : List StepResult
  /-- The ring slot of each request's first record (Table 15-7). -/
  ringSlots : List (Nat × Word)
deriving DecidableEq, Repr

/-- The journal (R368): its records in order, the sequence number that the tail words hold, the next line, counted from 1 on without
wrapping, the next sequence number, the modules for which a copy is kept (R371), slot and generation
of the requests that ended outside a commit (log 23), whether all that is left of it is the copy in host memory (R460), and whether a write of
the buddy's copy has ended with kind TIER (R369). -/
structure Journal where
  records : List JournalRecord
  tail : Nat
  nextLine : Nat
  nextSeq : Nat
  keptFor : List Nat
  ended : List (Nat × Nat)
  inHost : Bool
  unmirrored : Bool
deriving DecidableEq, Repr

/-- An empty journal. -/
def Journal.reset : Journal := ⟨[], 0, 1, 1, [], [], false, false⟩

/-- The spark engine's view of a tile (R407, R408): the next unit of its pass, whether a pass completed in the current period,
the period in which it became SUSPECT, whether it served a committed step since its last pass (R419), and whether it is newly SUSPECT, so
that its targeted pass is due (R418). -/
structure SparkTile where
  unit : Nat
  passed : Bool
  suspectIn : Option Nat
  served : Bool
  target : Bool
deriving DecidableEq, Repr

/-- A tile the spark engine has not run on. -/
def SparkTile.reset : SparkTile := ⟨0, false, none, false, false⟩

/-- The fuses (Table 18-1), the serial number among them (Table 01-12). -/
structure Fuses where
  serial : DWord
  key0 : BitVec 256
  key1 : BitVec 256
  revoke : BitVec 2
  fwArb : Nat
  packArb : Nat
  debugLock : Bool
  identity : BitVec 3072
deriving DecidableEq, Repr

/-- The security core (18): the image running and its digest, the fuse command in progress, and the packs. -/
structure Security where
  /-- The slot that signs the running image and its MIN_ARB. -/
  slot : Nat
  minArb : Nat
  fwDigest : BitVec 256
  /-- The confirm value was written since the previous START (R428). -/
  confirmed : Bool
  /-- The fuse command in progress and the count its counter is raised to. -/
  fuseOp : Option (Nat × Nat)
  /-- The bytes of the pack in force and of the pack held, each with its trailer (R406, R410). -/
  pack : List Byte
  packHeld : List Byte
  /-- A warm reset waits for a fuse command (R454). -/
  warmWaits : Bool
deriving DecidableEq, Repr

/-- The security core before its first boot. -/
def Security.reset : Security := ⟨0, 0, 0, false, none, [], [], false⟩

/-- The pins and the supply (20, 21). -/
structure Pins where
  /-- Input power is applied: PWR_GOOD has risen and no input-power reset has followed (R10). -/
  powered : Bool
  /-- The regulators of the dies and the stacks are on (R345). -/
  railsOn : Bool
  /-- The grid's clocks run: they are gated from the loss of the reference until a warm reset (R16, R31). -/
  clocksOn : Bool
  /-- PERST# is asserted. -/
  perst : Bool
  faultPin : Bool
  thermtripPin : Bool
  /-- The module answers the BARs: a security boot has reached stage BOOTED since the last warm reset (R454). -/
  barsOpen : Bool
  /-- The start-up march has run and quarantines are restored (stage GRID of R458). -/
  gridReady : Bool
deriving DecidableEq, Repr

/-- What the module sends out. -/
inductive Output where
  /-- A write to host memory. -/
  | hostWrite (addr : Nat) (data : List Byte)
  /-- A RdShared or RdCurr read of host memory. -/
  | hostRead (addr len : Nat)
  /-- The answer to an H2D snoop: true for RspIHitSE, false for RspIHitI. -/
  | snoopResponse (hitShared : Bool)
  /-- The completion of a host request (Table 19-3): 0 success, 1 Unsupported Request, 2 Completer Abort, with the data read. -/
  | completion (fn : Nat) (status : Nat) (data : List Byte) (aer : Bool)
  /-- The data that a read of a bank or of the on-die SRAM window returns, or the old value of an atomic. -/
  | readData (data : List Byte)
  /-- The data of a CXL.mem read. -/
  | memData (data : List Byte) (ras : Bool)
  /-- An interrupt to Foreman firmware or to the host, with the number of the rule that raises it. -/
  | interrupt (toHost : Bool) (rule : Nat)
  /-- An answer on the management path (R458). -/
  | smbus (value : Nat)
  /-- Firmware reports a condition to the rack manager, with the number of the rule that has it report. -/
  | report (rule : Nat)
  /-- An SPDM response: its code and its bytes (R429). -/
  | spdm (code : Nat) (data : List Byte)
  /-- A frame sent on a Lipin port, and its 272 bytes on the wire (Table 13-3). -/
  | frame (port : Nat) (f : Frame) (wire : List Byte)
  /-- A load, store or atomic sent to another slot of the board, or to a CXL partner. -/
  | request (port tag addr : Nat) (op : AccessOp)
deriving DecidableEq, Repr

/-- The module. -/
structure State where
  /-- The control-register window by byte offset (R182). -/
  regs : List (Nat × Word)
  /-- Every byte of the slot outside the control window, by offset (R176). -/
  mem : List Host.Cell
  /-- The boot flash by offset (R425). -/
  flash : List Host.Cell
  /-- The tiles that the quarantine records in the boot flash name (R419): their layout is not given. -/
  quarRecords : List Nat
  pins : Pins
  fuses : Fuses
  security : Security
  /-- Anomalies counted in a period of 2^20 ticks, and that period's number (R30). -/
  anomalies : Nat
  anomPeriod : Nat
  /-- Whether a STRIKE edge was sampled in the current tick (true), or its first tick without one was counted as a missed boundary
  (false); none while neither (R29). -/
  edge : Option Bool
  /-- The last place of R35's order taken at the current Strike boundary. -/
  boundary : Nat
  /-- f-cycles counted since the clocks locked, one tick at a time (R16, R229). -/
  fcycles : Nat
  /-- A reference has been lost and has not returned (R31). -/
  refGone : Bool
  /-- A warm reset waits for the reference (Table 20-6). -/
  warmWaitsRef : Bool
  tiles : Sparse Tile
  flights : List Flight
  creditFlights : List CreditFlight
  parts : Sparse Part
  /-- Saved records by 8 × partition + job (R386). -/
  saved : Sparse Saved
  movers : Sparse Mover
  /-- Streams by 16 × bay + number (09). -/
  streams : Sparse Stream
  /-- The port tiles' translation caches by bay, and the second-level cache, most recently filled first (R186). -/
  tlb1 : Sparse (List TlbEntry)
  tlb2 : List TlbEntry
  walks : List Walk
  fetches : List Fetch
  inval : Option Inval
  /-- The Hearth sets by 8,192 × bay + set, most recently used line first (R203), and the fills under way. -/
  hearth : Sparse (List Line)
  hearthFills : List LineFill
  /-- The TAIL each I/O-die ring was last read at, the next descriptor to start, and the descriptors done (R232). -/
  ringTail : Vector Nat 4
  ringNext : Vector Nat 4
  ringDone : List (Nat × Nat)
  loads : List LoadJob
  fillJob : Option FillJob
  /-- Weight sets switched since VALID was set (R299). -/
  switched : Sparse Bool
  lookups : List Lookup
  /-- The residency entries that a warm reset has left FETCHING, which firmware closes during recovery (R263). -/
  leftFetching : List Nat
  ports : Sparse LipinPort
  /-- Accesses outstanding to other slots and to CXL partners, the next tag, and the tags of requests to other slots whose response is late
  (R318). -/
  outstanding : List Outstanding
  nextTag : Nat
  lateTags : List Nat
  collectives : List Collective
  collRecords : List CollRecord
  staging : List Contribution
  broadcasts : List Broadcast
  bcastAcks : List BcastAck
  power : Power
  logs : Sparse Log
  /-- The next log in the round-robin (R354). -/
  nextLog : Nat
  requests : Sparse Request
  journal : Journal
  /-- The number of the budget window in progress, in rolls, and its first Strike and length (R367). -/
  budgetStart : Nat
  budgetLen : Nat
  spark : Sparse SparkTile
  /-- The tiles offered to Banking, first offered first (R408). -/
  offered : List Nat
  /-- The coverage period in progress (R408). -/
  coverPeriod : Nat
  /-- Violations of each CXL port counted in a period of 1,024 Strikes, and that period's number (R447). -/
  cxlViolations : Sparse (Nat × Nat)
  /-- The tick in which each warm and pool port, by its TIER_ register, entered ENABLING (R439). -/
  enabledAt : Sparse DWord
  faultLog : List FaultRecord
  out : List Output
  /-- Writes to host memory that wait while the host link is down (R453). -/
  outHeld : List Output
  /-- How many free values have been taken. The model's own: the n-th open value is the opaque function of `Config` at n. -/
  free : Nat
  pending : List Instr
deriving DecidableEq, Repr

/-- The fuses as the model takes them (log 4). -/
def Fuses.reset : Fuses := ⟨0, 0, 0, 0, 0, 0, true, 0⟩

/-- The pins with PWR_GOOD low. -/
def Pins.reset : Pins := ⟨false, false, false, false, false, false, false, false⟩

/-- The module after an input-power reset, with PWR_GOOD low: only the standby domain runs (R10, R451, R464). -/
def State.reset : State where
  regs := []
  mem := []
  flash := []
  quarRecords := []
  pins := Pins.reset
  fuses := Fuses.reset
  security := Security.reset
  anomalies := 0
  anomPeriod := 0
  edge := none
  boundary := 0
  fcycles := 0
  refGone := false
  warmWaitsRef := false
  tiles := []
  flights := []
  creditFlights := []
  parts := []
  saved := []
  movers := []
  streams := []
  tlb1 := []
  tlb2 := []
  walks := []
  fetches := []
  inval := none
  hearth := []
  hearthFills := []
  ringTail := Vector.replicate 4 0
  ringNext := Vector.replicate 4 0
  ringDone := []
  loads := []
  fillJob := none
  switched := []
  lookups := []
  leftFetching := []
  ports := []
  outstanding := []
  nextTag := 0
  lateTags := []
  collectives := []
  collRecords := []
  staging := []
  broadcasts := []
  bcastAcks := []
  power := Power.reset
  logs := []
  nextLog := 0
  requests := []
  journal := Journal.reset
  budgetStart := 0
  budgetLen := 0x400
  spark := []
  offered := []
  coverPeriod := 0
  cxlViolations := []
  enabledAt := []
  faultLog := []
  out := []
  outHeld := []
  free := 0
  pending := []

end Sys2Proof.Machine
end

