-- ==== Sys2Proof/Machine/Ops.lean ====
section
/-! DEFINITION. The named operations over registers, memory and the numbered groups of hidden state, and what every family
shares: which partition a tile belongs to, whether it runs, how a fault is recorded and a partition frozen (R56, R92). -/
namespace Sys2Proof.Machine

/-! ## The control-register window -/

/-- The tile type of a tile index, coded as GRD_ID.TYPE (Table 01-2): 0 Anvil, 1 Temper, 2 Billet, 3 port. -/
def tileType (t : Nat) : Nat :=
  let r := t % 10
  if r = 0 then (if t / 10 % 2 = 0 then 3 else 2) else if r ≤ 3 then 0 else if r = 4 then 1 else 2

/-- The column of a tile across both dies, 0 to 23 (R15). -/
def tileCol (t : Nat) : Nat := t / 10

/-- The row of a tile. -/
def tileRow (t : Nat) : Nat := t % 10

/-- The bay of a tile (R13). -/
def tileBay (t : Nat) : Nat := t / 20

/-- GRD_ID of a tile (Table 03-5). -/
def grdId (t : Nat) : Nat :=
  tileType t * 2 ^ 16 + t / 120 * 2 ^ 8 + t % 120 / 10 * 2 ^ 4 + t % 10

/-- GRD_LINK.PRESENT of a tile (Table 03-7, R15): bits N, E, S, W. The north of row 9 meets the I/O die. -/
def linkPresent (t : Nat) : Nat :=
  1 + 2 * ofBool (tileCol t < 23) + 4 * ofBool (tileRow t > 0) + 8 * ofBool (tileCol t > 0)

/-- Does the row of a register map list offset `o`? -/
def RegRow.lists (r : RegRow) (o : Nat) : Bool :=
  decide (r.off ≤ o) && decide ((o - r.off) / r.stride < r.count) &&
    decide ((o - r.off) % r.stride % r.stride2 = 0) && decide ((o - r.off) % r.stride / r.stride2 < r.count2)

/-- The registers of a tile's block from offset 0x1400, by the tile's type (R59, R93). -/
def typeRows (ty : Nat) : List RegRow :=
  if ty = 0 then regRowsAnv else if ty = 1 then regRowsTmp else if ty = 2 then regRowsBil else regRowsMov

/-- The register map that covers an offset of the control window, and the offset within its block (Table 08-3). -/
def blockRows (o : Nat) : List RegRow × Nat :=
  if o < 0x80000 then
    (match o / 0x10000 with
      | 0 => regRowsDev
      | 1 => regRowsTime
      | 2 => regRowsPwr
      | 3 => regRowsSec
      | 4 => regRowsSlg
      | 5 => regRowsPrt
      | 6 => regRowsSrv
      | _ => regRowsCfg, o % 0x10000)
  else if 0x10000000 ≤ o ∧ o < 0x10F00000 then
    let i := o % 0x10000
    (if i < 0x1000 then regRowsGrd else if i < 0x1400 then regRowsSeq
      else typeRows (tileType ((o - 0x10000000) / 0x10000)), i)
  else if 0x8000000 ≤ o ∧ o < 0xD000000 then
    (match o / 0x1000000 with
      | 8 => regRowsXlt
      | 9 => regRowsTier
      | 10 => regRowsExp
      | 11 => regRowsMsh
      | _ => regRowsCxl, o % 0x1000000)
  else ([], o)

/-- What the register maps say of the register at an offset; none where no block lists it (R20). -/
def regSpec (o : Nat) : Option RegSpec :=
  ((blockRows o).1.find? (·.lists (blockRows o).2)).map (·.spec)

/-- The default credit shares of Table 13-5. -/
def vcDefault (v : Nat) : Nat := [1024, 1024, 1024, 64, 512, 64, 192, 192].getD v 0

/-- The value of a register at reset: the register map's, with the fixed fields of GRD_ID and GRD_LINK, the shares of Table
13-5, the identity of MSH_L2P and the class of the far port (R307). -/
def regReset (o : Nat) : Word :=
  let r := ((regSpec o).map (·.reset)).getD 0
  if 0x10000000 ≤ o ∧ o < 0x10F00000 then
    let t := (o - 0x10000000) / 0x10000
    if o % 0x10000 = 0 then BitVec.ofNat 32 (grdId t)
    else if o % 0x10000 = 8 then BitVec.ofNat 32 (0xF + 0x100 * linkPresent t)
    else BitVec.ofNat 32 r
  else if 0xB000000 ≤ o ∧ o < 0xC000000 then
    let i := o % 0x1000000
    if 0x100 ≤ i ∧ i < 0x120 then BitVec.ofNat 32 (vcDefault ((i - 0x100) / 4))
    else if 0x200 ≤ i ∧ i < 0x300 then BitVec.ofNat 32 ((i - 0x200) / 4)
    else if i = 0x30 then 8
    else BitVec.ofNat 32 r
  else BitVec.ofNat 32 r

/-- The word of the register at an offset. -/
def State.reg (s : State) (o : Nat) : Word := Sparse.get regReset s.regs o

/-- The state with the register at an offset holding `v`. -/
def State.setReg (s : State) (o : Nat) (v : Word) : State := { s with regs := Sparse.set regReset s.regs o v }

/-- The number in a field. -/
def State.fld (s : State) (f : Field) : Nat := bits (s.reg f.off).toNat f.lo f.width

/-- The state with a field holding the low bits of a number. -/
def State.setFld (s : State) (f : Field) (v : Nat) : State :=
  s.setReg f.off (BitVec.ofNat 32 (withBits (s.reg f.off).toNat f.lo f.width v))

/-- Is a one-bit field 1? -/
def State.flag (s : State) (f : Field) : Bool := s.fld f = 1

/-- The state with a one-bit field set or cleared. -/
def State.setFlag (s : State) (f : Field) (b : Bool) : State := s.setFld f (ofBool b)

/-- A 64-bit value held in a LO register and the HI register after it (R36, R198). -/
def State.reg64 (s : State) (lo : Nat) : Nat := (s.reg lo).toNat + 2 ^ 32 * (s.reg (lo + 4)).toNat

/-- The state with a 64-bit value in a LO and HI pair. -/
def State.setReg64 (s : State) (lo v : Nat) : State :=
  (s.setReg lo (BitVec.ofNat 32 v)).setReg (lo + 4) (BitVec.ofNat 32 (v / 2 ^ 32))

/-- A 64-bit count moved on by `n`; it wraps. -/
def State.add64 (s : State) (lo n : Nat) : State := s.setReg64 lo (s.reg64 lo + n)

/-- A field's count moved on by `n`, wrapping in the field's width. -/
def State.addFld (s : State) (f : Field) (n : Nat) : State := s.setFld f (s.fld f + n)

/-- A field's count moved on by `n`, saturating. -/
def State.satFld (s : State) (f : Field) (n : Nat) : State := s.setFld f (satAt (2 ^ f.width - 1) (s.fld f + n))

/-! ## The hidden groups -/

def State.tile (s : State) (t : Nat) : Tile := Sparse.get (fun _ => Tile.reset) s.tiles t
def State.setTile (s : State) (t : Nat) (v : Tile) : State := { s with tiles := Sparse.set (fun _ => Tile.reset) s.tiles t v }
def State.modTile (s : State) (t : Nat) (f : Tile → Tile) : State := s.setTile t (f (s.tile t))

def State.part (s : State) (p : Nat) : Part := Sparse.get (fun _ => Part.reset) s.parts p
def State.setPart (s : State) (p : Nat) (v : Part) : State := { s with parts := Sparse.set (fun _ => Part.reset) s.parts p v }
def State.modPart (s : State) (p : Nat) (f : Part → Part) : State := s.setPart p (f (s.part p))

def State.mover (s : State) (m : Nat) : Mover := Sparse.get (fun _ => Mover.reset) s.movers m
def State.setMover (s : State) (m : Nat) (v : Mover) : State :=
  { s with movers := Sparse.set (fun _ => Mover.reset) s.movers m v }
def State.modMover (s : State) (m : Nat) (f : Mover → Mover) : State := s.setMover m (f (s.mover m))

/-- Stream `n` of the port tile of bay `b`. -/
def State.stream (s : State) (b n : Nat) : Stream := Sparse.get (fun _ => Stream.reset) s.streams (16 * b + n)
def State.setStream (s : State) (b n : Nat) (v : Stream) : State :=
  { s with streams := Sparse.set (fun _ => Stream.reset) s.streams (16 * b + n) v }
def State.modStream (s : State) (b n : Nat) (f : Stream → Stream) : State := s.setStream b n (f (s.stream b n))

def State.port (s : State) (n : Nat) : LipinPort := Sparse.get (fun _ => LipinPort.reset) s.ports n
def State.setPort (s : State) (n : Nat) (v : LipinPort) : State :=
  { s with ports := Sparse.set (fun _ => LipinPort.reset) s.ports n v }
def State.modPort (s : State) (n : Nat) (f : LipinPort → LipinPort) : State := s.setPort n (f (s.port n))

def State.log (s : State) (n : Nat) : Log := Sparse.get (fun _ => Log.reset) s.logs n
def State.setLog (s : State) (n : Nat) (v : Log) : State := { s with logs := Sparse.set (fun _ => Log.reset) s.logs n v }
def State.modLog (s : State) (n : Nat) (f : Log → Log) : State := s.setLog n (f (s.log n))

def State.request (s : State) (n : Nat) : Request := Sparse.get (fun _ => Request.free) s.requests n
def State.setRequest (s : State) (n : Nat) (v : Request) : State :=
  { s with requests := Sparse.set (fun _ => Request.free) s.requests n v }
def State.modRequest (s : State) (n : Nat) (f : Request → Request) : State := s.setRequest n (f (s.request n))

def State.sparkTile (s : State) (t : Nat) : SparkTile := Sparse.get (fun _ => SparkTile.reset) s.spark t
def State.setSparkTile (s : State) (t : Nat) (v : SparkTile) : State :=
  { s with spark := Sparse.set (fun _ => SparkTile.reset) s.spark t v }

/-- Queue `q` of a tile's switch. -/
def State.queue (s : State) (t q : Nat) : Queue := Sparse.get (fun _ => Queue.reset) (s.tile t).queues q
def State.setQueue (s : State) (t q : Nat) (v : Queue) : State :=
  s.modTile t (fun x => { x with queues := Sparse.set (fun _ => Queue.reset) x.queues q v })

/-- Engine `e` of a tile. -/
def State.engine (s : State) (t e : Nat) : Engine := Sparse.get (fun _ => Engine.reset) (s.tile t).engines e
def State.setEngine (s : State) (t e : Nat) (v : Engine) : State :=
  s.modTile t (fun x => { x with engines := Sparse.set (fun _ => Engine.reset) x.engines e v })

/-- Bank `b` of a Billet tile. -/
def State.bank (s : State) (t b : Nat) : Bank := Sparse.get (fun _ => Bank.reset) (s.tile t).banks b
def State.setBank (s : State) (t b : Nat) (v : Bank) : State :=
  s.modTile t (fun x => { x with banks := Sparse.set (fun _ => Bank.reset) x.banks b v })

/-! ## Memory -/

/-- What a byte that nothing has written reads as: 0 (DESIGN CHOICE, unsafe; log 6). -/
def memReset (_ : Nat) : Byte := 0

/-- The memory lists its bytes in the canonical form. -/
def Memory.wf (m : List Host.Cell) : Bool := Sparse.wf memReset m

/-- The byte at an offset of the slot. -/
def State.byte (s : State) (a : Nat) : Byte := Sparse.get memReset s.mem a

/-- The state with one byte written. -/
def State.setByte (s : State) (a : Nat) (v : Byte) : State := { s with mem := Sparse.set memReset s.mem a v }

/-- `n` bytes from an offset. -/
def State.bytes (s : State) (a : Nat) : Nat → List Byte
  | 0 => []
  | n + 1 => s.byte a :: State.bytes s (a + 1) n

/-- The state with bytes written from an offset upward. -/
def State.write (s : State) (a : Nat) : List Byte → State
  | [] => s
  | b :: bs => (s.setByte a b).write (a + 1) bs

/-- The little-endian number of `n` bytes at an offset. -/
def State.num (s : State) (a n : Nat) : Nat := leNat (s.bytes a n)

/-- The state with the `n` little-endian bytes of a number written. -/
def State.writeNum (s : State) (a n v : Nat) : State := s.write a (natLE n v)

/-- The 128-byte unit at an offset. -/
def State.unit (s : State) (a : Nat) : Payload := BitVec.ofNat 1024 (s.num a 128)

/-- The state with a 128-byte unit written. -/
def State.setUnit (s : State) (a : Nat) (v : Payload) : State := s.writeNum a 128 v.toNat

/-- The bytes of a payload, byte 0 first. -/
def payloadBytes (p : Payload) : List Byte := natLE 128 p.toNat

/-- A payload of the given bytes, zero beyond them. -/
def payloadOf (bs : List Byte) : Payload := BitVec.ofNat 1024 (leNat (bs.take 128))

/-- The state with `len` bytes from `a` zeroed: none of them is listed any more. -/
def State.zeroRange (s : State) (a len : Nat) : State :=
  { s with mem := s.mem.filter (fun c => !(decide (a ≤ c.1) && decide (c.1 < a + len))) }

/-- The listed bytes of a range as offsets from its start. -/
def State.rangeCells (s : State) (a len : Nat) : List Host.Cell :=
  (s.mem.filter (fun c => decide (a ≤ c.1) && decide (c.1 < a + len))).map (fun c => (c.1 - a, c.2))

/-- The bytes from `a` upward replaced by `len` bytes' cells, which lie in that range in rising order. -/
def State.splice (s : State) (a len : Nat) (cells : List Host.Cell) : State :=
  { s with mem := s.mem.filter (fun c => decide (c.1 < a)) ++ cells ++ s.mem.filter (fun c => decide (a + len ≤ c.1)) }

/-- The cells of bytes from `a` upward; a byte that an unlisted address reads as is not listed. -/
def cellsFrom (a : Nat) : List Byte → List Host.Cell
  | [] => []
  | b :: bs => if b = memReset a then cellsFrom (a + 1) bs else (a, b) :: cellsFrom (a + 1) bs

/-- `State.write` in one pass, for long runs of bytes. -/
def State.writeRun (s : State) (a : Nat) (bs : List Byte) : State := s.splice a bs.length (cellsFrom a bs)

/-- The state with the bytes of a range written at `dst`. -/
def State.copyRange (s : State) (src dst len : Nat) : State :=
  s.splice dst len ((s.rangeCells src len).map (fun c => (dst + c.1, c.2)))

/-- The start of a tile's part of the on-die SRAM window (R180). -/
def sramBase (t : Nat) : Nat := 0x200000000000 + t * 0x2000000

/-- The offset of a byte of a tile's local store. -/
def storeAt (t a : Nat) : Nat := sramBase t + a

/-- The offset of word `i` of half `h` of a tile's instruction memory. -/
def imemAt (t h i : Nat) : Nat := sramBase t + 0x1000000 + h * 0x8000 + 8 * i

/-- The offset of a flit slot of a tile's queue memory. -/
def slotAt (t k : Nat) : Nat := sramBase t + 0x1800000 + 128 * k

/-- The size of a tile's local store in bytes, for the stream check of R66: Anvil (R103), Temper (R127), Billet (R152) and port
(R215). -/
def storeSize (t : Nat) : Nat :=
  match tileType t with
  | 0 => 0x420000
  | 1 => 0x100000
  | 2 => 0x300000
  | _ => 0x10000

/-! ## Time, power and partitions -/

/-- The tick counter (R25). -/
def State.tick (s : State) : Nat := s.reg64 Reg.TIME_TICK_LO

/-- The current Strike number: bits [63:10] of the counter (R25). -/
def State.strike (s : State) : Nat := s.tick / 1024

/-- The counter stands on the first tick of a Strike, and events scheduled in Strikes occur (R25, R26). -/
def State.onBoundary (s : State) : Bool := s.flag Reg.TIME_STATUS.ALIGNED && s.tick % 1024 == 0

/-- The module is powered and its dies have power (R10, R345). -/
def State.on (s : State) : Bool := s.pins.powered && s.pins.railsOn

/-- The module is on and its security boot has passed: until then no Foreman core runs, and nothing is accepted on any port (R425, R456). -/
def State.live (s : State) : Bool := s.on && s.flag Reg.SEC_STATUS.BOOTED

/-- The grid runs: its clocks run, and no warm reset waits for a fuse command (R31, R454). -/
def State.gridLive (s : State) : Bool := s.live && s.pins.clocksOn && !s.security.warmWaits

def State.partState (s : State) (p : Nat) : Nat := s.fld (Reg.PRT_P_STAT.STATE p)
def State.partFirst (s : State) (p : Nat) : Nat := s.fld (Reg.PRT_P_BAYS.FIRST p)
def State.partCount (s : State) (p : Nat) : Nat := s.fld (Reg.PRT_P_BAYS.COUNT p)

/-- Partition `p` is not OFF and holds bay `b` (R375). -/
def State.holdsBay (s : State) (p b : Nat) : Bool :=
  s.partState p != 0 && decide (s.partFirst p ≤ b) && decide (b < s.partFirst p + s.partCount p)

/-- The partition that holds a bay. -/
def State.bayPart (s : State) (b : Nat) : Option Nat := (List.range 12).find? (fun p => s.holdsBay p b)

/-- The partition that a tile belongs to (R375). -/
def State.partOf (s : State) (t : Nat) : Option Nat := s.bayPart (tileBay t)

/-- The bays of a partition. -/
def State.baysOf (s : State) (p : Nat) : List Nat := List.range' (s.partFirst p) (s.partCount p)

/-- The tiles of a partition, in ascending index. -/
def State.tilesOf (s : State) (p : Nat) : List Nat := List.range' (20 * s.partFirst p) (20 * s.partCount p)

/-- A job of partition `p` runs: the partition is ON with a job resident, and it is neither frozen nor stopped for a switch
(R54, R385). -/
def State.running (s : State) (p : Nat) : Bool :=
  s.gridLive && s.partState p == 2 && s.flag (Reg.PRT_P_STAT.RES_VALID p) && !s.flag (Reg.PRT_P_STAT.FROZEN p) &&
    s.fld (Reg.PRT_P_STAT.SWITCH p) == 0

/-- The tile belongs to a partition whose job runs. -/
def State.tileRuns (s : State) (t : Nat) : Bool :=
  match s.partOf t with
  | some p => s.running p
  | none => false

/-- Bellows grants the partition some credit in the tick (R335). -/
def State.granted (s : State) (p : Nat) : Bool := !s.power.withheld.any (fun w => w.part == p && w.whole)

/-- The tile may issue work: its partition runs, and is not refused issue in the whole tick (R335). -/
def State.tileWorks (s : State) (t : Nat) : Bool :=
  match s.partOf t with
  | some p => s.running p && s.granted p
  | none => false

/-- The partition is ON and its job is frozen, or is being pre-empted (R93). -/
def State.halted (s : State) (p : Nat) : Bool :=
  s.partState p == 2 && (s.flag (Reg.PRT_P_STAT.FROZEN p) || s.fld (Reg.PRT_P_STAT.SWITCH p) != 0)

/-- The partition is ON and its job is frozen or pre-empted, or none is resident (R59). -/
def State.atRest (s : State) (p : Nat) : Bool :=
  s.partState p == 2 && (!s.flag (Reg.PRT_P_STAT.RES_VALID p) || s.halted p)

/-- The partition's Shadow set is ARMED, which every switch of it shows as SWAP_ARMED (R293). -/
def State.armed (s : State) (p : Nat) : Bool := s.fld (Reg.CFG_P_STATUS.SHADOW p) == 3

/-- A tile's switch shows SWAP_ARMED. -/
def State.tileArmed (s : State) (t : Nat) : Bool :=
  match s.partOf t with
  | some p => s.armed p
  | none => false

/-! ## Records, outputs and freezing -/

/-- The next value that the spec leaves open (log 3). -/
def State.fresh (s : State) : Nat := Sys2Proof.Config.freeNat s.free

/-- The state after one value that the spec leaves open was taken. -/
def State.took (s : State) : State := { s with free := s.free + 1 }

/-- Status codes, which fault records carry too (Table 15-5). -/
def codeShapeLimit : Nat := 1
def codeTileShape : Nat := 2
def codeDeadlock : Nat := 3
def codeViolation : Nat := 4
def codeXlate : Nat := 5
def codeTierDegraded : Nat := 6
def codeStopped : Nat := 8
def codeReplayed : Nat := 9
def codeAborted : Nat := 10

/-- The state with something sent out. -/
def State.emit (s : State) (o : Output) : State := { s with out := s.out ++ [o] }

/-- Foreman firmware is interrupted where an enable bit allows it; `rule` is the number of the rule that says so. -/
def State.interruptIf (s : State) (en : Bool) (rule : Nat) : State := if en then s.emit (.interrupt false rule) else s

/-- A fault record is written to the log. -/
def State.logFault (s : State) (r : FaultRecord) : State := { s with faultLog := s.faultLog ++ [r] }

/-- The logs of host function `f` freeze (R352). The host is interrupted where SRV_CTRL.INT_EN allows it (Table 15-10). -/
def State.freezeLogs (s : State) (f : Nat) : State :=
  (List.range 64).foldl (fun s n =>
    if s.fld (Reg.SRV_LOG_CTL.FUNC n) = f then
      let s := s.setFlag (Reg.SRV_LOG_STAT.FROZEN n) true
      if s.flag Reg.SRV_CTRL.INT_EN then s.emit (.interrupt true 352) else s
    else s) s

/-- The detail of a record laid out as R160 states: the bank, the OWNER code, the requester code and the kind of access. -/
def bankDetail (bank owner req kind : Nat) : Nat := bank + owner * 2 ^ 8 + req * 2 ^ 16 + kind * 2 ^ 24

/-- Host function `f` is frozen (R432). -/
def State.fnFrozen (s : State) (f : Nat) : Bool := bitOf (s.reg (Reg.SEC_FNFRZ (f / 32))).toNat (f % 32)

/-- A violation by host function `f` (R432): it is frozen, SEC_VIOL records the kind and the function, a fault record is written
and its logs freeze. The record's place, address and detail are the caller's. -/
def State.hostViolation (s : State) (f kind tile addr detail : Nat) : State :=
  let s := s.setReg (Reg.SEC_FNFRZ (f / 32)) (s.reg (Reg.SEC_FNFRZ (f / 32)) ||| BitVec.ofNat 32 (2 ^ (f % 32)))
  let s := s.setReg Reg.SEC_VIOL (BitVec.ofNat 32 (2 ^ 31 + kind * 2 ^ 16 + f))
  (s.logFault ⟨BitVec.ofNat 64 s.tick, tile, codeViolation, 0xFFFF, addr, detail⟩).freezeLogs f

/-- A write by host function `f` to a block of the control window that is closed to it: a violation of kind 4. The record names
the offset and the requester; the spec does not say what its tile, bank and OWNER bytes hold, so they are free (log 3). -/
def State.closedWrite (s : State) (f o : Nat) : State :=
  let bank := s.fresh % 256
  let s := s.took
  let owner := s.fresh % 256
  let s := s.took
  let tile := s.fresh % 2 ^ 32
  s.took.hostViolation f 4 tile o (bankDetail bank owner (0xC0 + f) 2)

/-- The step number of a partition's step in progress: its oldest open step, or 0. -/
def State.stepNo (s : State) (p : Nat) : Nat := (((s.part p).steps.find? (·.open_)).map (·.n)).getD 0

/-- The partition freezes (R56): its job stops, and every tile and switch of it shows that it is frozen. Firmware is
interrupted where PRT_CTRL.INT_EN allows it. -/
def State.freeze (s : State) (p : Nat) : State :=
  if s.flag (Reg.PRT_P_STAT.RES_VALID p) then
    (s.setFlag (Reg.PRT_P_STAT.FROZEN p) true).interruptIf (s.flag Reg.PRT_CTRL.INT_EN) 56
  else s

/-- A fault of partition `p`: the record is written, kept with the job's pending faults, and the partition freezes. -/
def State.faultPart (s : State) (p : Nat) (r : FaultRecord) : State :=
  ((s.logFault r).modPart p (fun x => { x with faults := x.faults ++ [r] })).freeze p

/-- A fault raised in a tile: its record carries the tile's index, its partition and the partition's step number (R57, R92). A
tile of no partition writes its record with partition 0xFFFF and freezes nothing. -/
def State.faultTile (s : State) (t code detail : Nat) : State :=
  match s.partOf t with
  | some p => s.faultPart p ⟨BitVec.ofNat 64 s.tick, t, code, p, s.stepNo p, detail⟩
  | none => s.logFault ⟨BitVec.ofNat 64 s.tick, t, code, 0xFFFF, 0, detail⟩

/-- Every open step of a partition is marked bad with a cause of Table 17-4 (R402, R411); a step keeps its first cause. -/
def State.markOpen (s : State) (p cause : Nat) : State :=
  s.modPart p (fun x => { x with steps := x.steps.map (fun o => if o.cause = 0 then { o with cause := cause } else o) })

/-- One step of a partition is marked bad. -/
def State.markStep (s : State) (p n cause : Nat) : State :=
  s.modPart p (fun x => { x with
    steps := x.steps.map (fun o => if o.n = n ∧ o.cause = 0 then { o with cause := cause } else o) })

/-- The open steps of a tile's partition are marked bad. -/
def State.markTile (s : State) (t cause : Nat) : State :=
  match s.partOf t with
  | some p => s.markOpen p cause
  | none => s

/-- A tile becomes QUARANTINED, which firmware records in the boot flash (R418, R419). -/
def State.quarantine (s : State) (t : Nat) : State :=
  let s := (s.setFld (Reg.SLG_TILE_STATE.STATE t) 2).setFlag Reg.SLG_STATUS.QUAR_NEW true
  let s := s.setReg (Reg.SLG_QUAR (t / 32)) (s.reg (Reg.SLG_QUAR (t / 32)) ||| BitVec.ofNat 32 (2 ^ (t % 32)))
  { s with quarRecords := if s.quarRecords.contains t then s.quarRecords else s.quarRecords ++ [t] }.interruptIf
    (s.flag Reg.SLG_CTRL.INT_EN) 418

/-- A tile becomes SUSPECT, or QUARANTINED if it became SUSPECT within the current or the previous coverage period (R418). -/
def State.suspect (s : State) (t : Nat) : State :=
  let period := s.strike / 2 ^ (max 16 (min 24 (s.fld Reg.SLG_ROT.LOG2P)))
  let k := s.sparkTile t
  let mask := 2 ^ (t % 32)
  let recent : Bool := match k.suspectIn with
    | some q => decide (period ≤ q + 1)
    | none => false
  if s.fld (Reg.SLG_TILE_STATE.STATE t) = 2 then s
  else if s.fld (Reg.SLG_TILE_STATE.STATE t) = 1 ∧ recent = true then s.quarantine t
  else
    let s := (s.setFld (Reg.SLG_TILE_STATE.STATE t) 1).setFlag Reg.SLG_STATUS.SUSPECT_NEW true
    let s := s.setReg (Reg.SLG_SUSP (t / 32)) (s.reg (Reg.SLG_SUSP (t / 32)) ||| BitVec.ofNat 32 mask)
    (s.setSparkTile t { k with unit := 0, suspectIn := some period, target := true }).interruptIf (s.flag Reg.SLG_CTRL.INT_EN) 418

/-- A count moved on by the events of a read, where there are any. -/
def State.countEcc (s : State) (f : Field) (n : Nat) : State := if n = 0 then s else s.satFld f n

/-- The outcome of the ECC checks of reads of a tile's own store: corrected and uncorrectable errors are counted, and an uncorrectable one
marks the open steps bad with cause 3 and makes the tile suspect (R122, R127, R173, R411, R418). -/
def State.eccTile (s : State) (t : Nat) (ce ue : Field) (e : ReadEcc) : State :=
  let s := (s.countEcc ce e.ce).countEcc ue e.ue
  if e.ue = 0 then s else (s.markTile t 3).suspect t

/-- Bytes of the `n` from offset `a` on, as an uncorrectable error has left them: they are used as read. -/
def State.flipBytes (s : State) (a n : Nat) (e : ReadEcc) : State :=
  if e.ue = 0 then s
  else e.flips.foldl (fun s x => if x.1 < n then s.setByte (a + x.1) (s.byte (a + x.1) ^^^ x.2) else s) s

end Sys2Proof.Machine
end

