-- ==== Sys2Proof/Machine/Hearth.lean ====
section
/-! DEFINITION. The Hearth cache: its sets, its lines, and the accesses that pass through its slices (R200, R203, R204). -/
namespace Sys2Proof.Machine

/-- The size of a stack. -/
def stackSize : Nat := 0xC00000000

/-- The key of the set of a line of stack `b` (R203). -/
def hearthKey (b off : Nat) : Nat := 8192 * b + (bits off 7 13 ^^^ bits off 20 13)

def State.hearthSet (s : State) (b off : Nat) : List Line := Sparse.get (fun _ => []) s.hearth (hearthKey b off)
def State.setHearthSet (s : State) (b off : Nat) (l : List Line) : State :=
  { s with hearth := Sparse.set (fun _ => []) s.hearth (hearthKey b off) l }

/-- The line address of an offset. -/
def lineOf (off : Nat) : Nat := off / 128

/-- The slice holds the line. -/
def State.hearthHas (s : State) (b off : Nat) : Bool := (s.hearthSet b off).any (·.addr == lineOf off)

/-- The line becomes the most recently used of its set, dirty if it is written; a line beyond the sixteenth is evicted and, if
dirty, written back (R203). -/
def State.hearthPut (s : State) (b off : Nat) (write : Bool) : State :=
  let l := s.hearthSet b off
  let was := l.any (fun x => x.addr == lineOf off && x.dirty)
  s.setHearthSet b off ((⟨lineOf off, write || was⟩ :: l.filter (·.addr != lineOf off)).take 16)

/-- An access that passes through the slice and does not wait: a hit or a miss is counted, and the line is used or, unless NA is
set, allocated (R203, R204). -/
def State.hearthAccess (s : State) (b off : Nat) (write na : Bool) : State :=
  if s.hearthHas b off then (s.add64 Reg.TIER_HEARTH_HIT_LO 1).hearthPut b off write
  else
    let s := s.add64 Reg.TIER_HEARTH_MISS_LO 1
    if na then s else s.hearthPut b off write

/-- The line is being filled. -/
def State.filling (s : State) (b off : Nat) : Bool := s.hearthFills.any (fun f => f.bay == b && f.line == lineOf off)

/-- The offsets of the lines that `n` bytes cover. -/
def linesIn (off n : Nat) : List Nat := (List.range (if n = 0 then 0 else (off + n - 1) / 128 + 1 - off / 128)).map (fun i => 128 * (off / 128 + i))

/-- Every line of an access of `n` bytes passes through the slice of stack `b`. -/
def State.hearthLines (s : State) (b off n : Nat) (write na : Bool) : State :=
  (linesIn off n).foldl (fun s l => s.hearthAccess b l write na) s

/-- Bytes of the slot that lie in the hot tier pass through their slices, as every access of a stack does (R177, R200). -/
def State.pass (s : State) (off n : Nat) (write : Bool) : State :=
  (linesIn off n).foldl (fun s l =>
    if l < 12 * stackSize then s.hearthAccess (l / stackSize) (l % stackSize) write false else s) s

/-- A line of a range of the hot tier is being filled: a read of it waits for that fill (R203). -/
def State.fillingIn (s : State) (off n : Nat) : Bool :=
  s.hearthFills.any (fun f =>
    decide (f.bay * stackSize + 128 * f.line < off + n) && decide (off < f.bay * stackSize + 128 * f.line + 128))

end Sys2Proof.Machine
end

