-- ==== Sys2Proof/Machine/Time.lean ====
section
/-! DEFINITION. Rack time (chapter 02) and the slot check of chapter 01, but for the tick itself (Tick.lean) and the return of a
lost reference (Reset.lean). -/
namespace Sys2Proof.Machine

/-- The reference runs, so that ticks pass and edges are sampled (R25, R31). -/
def State.refRuns (s : State) : Bool := s.pins.powered && !s.refGone

/-- The order of R35 at the current Strike boundary: an event at place `k` may still take its turn. -/
def State.place (s : State) (k : Nat) : Bool := s.onBoundary && decide (s.boundary ≤ k)

/-- The anomaly limit of R30; 0 behaves as 1. -/
def State.anomLimit (s : State) : Nat := max 1 (s.fld Reg.TIME_CTRL.ANOM_LIMIT)

/-- The period of 2^20 ticks in which the counter stands (R30, R32). -/
def State.anomNow (s : State) : Nat := s.tick / 2 ^ 20

/-- The anomalies counted so far in the current period: a count of another period is none of its (R30). -/
def State.anomCount (s : State) : Nat := if s.anomPeriod = s.anomNow then s.anomalies else 0

/-- DEGRADED changes to 1 (R30): firmware is interrupted where INT_EN allows it, and then reports the condition to the rack manager. -/
def State.degradeTime (s : State) : State :=
  let s := s.setFlag Reg.TIME_STATUS.DEGRADED true
  if s.flag Reg.TIME_CTRL.INT_EN then (s.emit (.interrupt false 30)).emit (.report 30) else s

/-- A missed or off-boundary event is counted in its period (R30). -/
def State.anomaly (s : State) : State :=
  let n := s.anomCount + 1
  let s := { s with anomalies := n, anomPeriod := s.anomNow }.setReg64 Reg.TIME_LAST_ANOM_LO s.tick
  if n ≥ s.anomLimit ∧ s.flag Reg.TIME_STATUS.DEGRADED = false then s.degradeTime else s

/-- STRIKE_EDGE: a rising edge of STRIKE_P/N is sampled in the current tick (R27, R29). -/
def strikeEdge (s : State) : State :=
  if s.refRuns = false then s
  else if s.flag Reg.TIME_STATUS.ARMED then
    let s := s.setReg64 Reg.TIME_TICK_LO (s.reg64 Reg.TIME_LOAD_LO)
    let s := (s.setFlag Reg.TIME_STATUS.ARMED false).setFlag Reg.TIME_STATUS.ALIGNED true
    { s with edge := some true, boundary := 0 }
  else if s.flag Reg.TIME_STATUS.ALIGNED = false then s
  else if s.tick % 1024 = 0 then { s with edge := some true }
  else
    ((s.satFld Reg.TIME_OFF_CNT.COUNT 1).setFlag Reg.TIME_STATUS.OFF_BOUNDARY true).anomaly

/-- MISSED_BOUNDARY: the first tick of a Strike has passed with no edge (R29). -/
def missedBoundary (s : State) : State :=
  if s.onBoundary && s.edge.isNone then
    { (((s.satFld Reg.TIME_MISSED_CNT.COUNT 1).setFlag Reg.TIME_STATUS.MISSED true).anomaly) with edge := some false }
  else s

/-- ANOMALY_PERIOD_ROLL: at a period's first tick the count restarts at 0; a boundary missed in that tick is already one of the
new period (R30, R32). -/
def anomalyPeriodRoll (s : State) : State :=
  if s.flag Reg.TIME_STATUS.ALIGNED ∧ s.tick % 2 ^ 20 = 0 then { s with anomalies := s.anomCount, anomPeriod := s.anomNow } else s

/-- A write of TIME_CTRL: ANOM_LIMIT and INT_EN take the value, and a 1 in ARM arms alignment unless the counter is aligned
(R27). -/
def State.writeTimeCtrl (s : State) (v : Word) : State :=
  let s := s.setFld Reg.TIME_CTRL.ANOM_LIMIT (bits v.toNat 8 8)
  let s := s.setFld Reg.TIME_CTRL.INT_EN (bits v.toNat 1 1)
  if bitOf v.toNat 0 ∧ s.flag Reg.TIME_STATUS.ALIGNED = false then s.setFlag Reg.TIME_STATUS.ARMED true else s

/-- A write of a master reaches the register at an offset: nothing is written while the module has no input power. Foreman firmware runs, and
the host is heard, once the security boot has passed (R425). The rack manager's path is up before it, and after a trip, when only the
block of PWR_ answers, whose sensors run on (R10, R345, R464). -/
def State.reaches (s : State) (m : Master) (o : Nat) : Bool :=
  match m with
  | .rackManager => s.pins.powered && (s.pins.railsOn || decide (0x20000 ≤ o ∧ o < 0x30000))
  | .firmware => s.live
  | .host _ => s.live
  | .security => s.on

/-- Who may write a block that is open to Foreman firmware and the rack manager alone (R38, R331, R449): a host function's
write is a violation, and no other master's write has an effect. A frozen function's request is answered and not performed (R432). -/
def State.byFirmwareOrRack (s : State) (m : Master) (o : Nat) (act : State → State) : State :=
  if s.reaches m o = false then s
  else match m with
  | .firmware => act s
  | .rackManager => act s
  | .security => s
  | .host f => if s.fnFrozen f then s else s.closedWrite f o

/-- Who may write a block that is open to firmware alone. -/
def State.byFirmware (s : State) (m : Master) (o : Nat) (act : State → State) : State :=
  if s.reaches m o = false then s
  else match m with
  | .firmware => act s
  | .rackManager => s
  | .security => s
  | .host f => if s.fnFrozen f then s else s.closedWrite f o

/-- Who may write the DEV_ block (R24). -/
def State.byDevMasters (s : State) (m : Master) (o : Nat) (act : State → State) : State :=
  if s.reaches m o = false then s
  else match m with
  | .firmware => act s
  | .rackManager => act s
  | .security => s
  | .host f => if s.fnFrozen f then s else if f.val = 0 then act s else s.closedWrite f o

/-- A write of a LOCK register: a 1 sets LOCK, and nothing clears it but the removal of input power (R23). -/
def State.writeLock (s : State) (f : Field) (v : Word) : State := if bitOf v.toNat 0 then s.setFlag f true else s

/-- REFERENCE_LOST (R31): the tick counter stops, every tile and switch stops, and FAULT# is asserted. Flits and credits on the
way still arrive. With the alignment lost, Bellows is before alignment again (R340). ARMED is left as it was (DESIGN CHOICE, log 45). -/
def referenceLost (s : State) : State :=
  if s.refRuns = false then s
  else
    let was := s.flag Reg.TIME_STATUS.REF_LOST
    let s := (s.setFlag Reg.TIME_STATUS.REF_LOST true).setFlag Reg.TIME_STATUS.ALIGNED false
    let s := (s.interruptIf (s.flag Reg.TIME_CTRL.INT_EN && !was) 31).setFlag Reg.PWR_STATUS.ALIGNED_WAIT true
    { s with refGone := true, edge := none, pins := { s.pins with clocksOn := false, faultPin := true } }

/-- SLOT_CHECK: at a Strike boundary the live pins are compared with the latched identity (R22). -/
def slotCheck (slot : BitVec 2) (board : BitVec 6) (s : State) : State :=
  if s.place 7 then
    let s := { s with boundary := 7 }
    if slot.toNat ≠ s.fld Reg.DEV_SLOT.SLOT ∨ board.toNat ≠ s.fld Reg.DEV_SLOT.BOARD then
      s.setFlag Reg.DEV_SLOT.MISMATCH true
    else s
  else s

def execStrikeEdge (s : State) : Host.Outcome State Fault Refusal := .next (strikeEdge s)
def execMissedBoundary (s : State) : Host.Outcome State Fault Refusal := .next (missedBoundary s)
def execAnomalyPeriodRoll (s : State) : Host.Outcome State Fault Refusal := .next (anomalyPeriodRoll s)
def execTimeArm (m : Master) (v : Word) (s : State) : Host.Outcome State Fault Refusal :=
  .next (s.byFirmwareOrRack m Reg.TIME_CTRL (·.writeTimeCtrl v))
def execReferenceLost (s : State) : Host.Outcome State Fault Refusal := .next (referenceLost s)
def execSlotCheck (slot : BitVec 2) (board : BitVec 6) (s : State) : Host.Outcome State Fault Refusal :=
  .next (slotCheck slot board s)
def execDevLock (m : Master) (v : Word) (s : State) : Host.Outcome State Fault Refusal :=
  .next (s.byDevMasters m Reg.DEV_LOCK (·.writeLock Reg.DEV_LOCK.LOCK v))

end Sys2Proof.Machine
end

