-- ==== Sys2Proof/Machine/Grid.lean ====
section
/-! DEFINITION. The switches, links and channel queues (chapter 03). Outputs and ports are numbered 0 N, 1 E, 2 S, 3 W, 4 Local. -/
namespace Sys2Proof.Machine

/-- The neighbour of a tile at a port (R15). -/
def neighbour (t dir : Nat) : Option Nat :=
  match dir with
  | 0 => if tileRow t < 9 then some (t + 1) else none
  | 1 => if tileCol t < 23 then some (t + 10) else none
  | 2 => if 0 < tileRow t then some (t - 1) else none
  | 3 => if 0 < tileCol t then some (t - 10) else none
  | _ => none

/-- The port at which a flit sent by an output arrives. -/
def opposite (dir : Nat) : Nat := (dir + 2) % 4

/-! ## The Active routes and queues -/

def State.rtValid (s : State) (t q : Nat) : Bool := s.flag (Reg.GRD_RT_A.VALID t q)
def State.rtOut (s : State) (t q : Nat) : Nat := s.fld (Reg.GRD_RT_A.OUT t q)
def State.rtIn (s : State) (t q : Nat) : Nat := s.fld (Reg.GRD_RT_A.IN t q)
def State.rtDq (s : State) (t q : Nat) : Nat := s.fld (Reg.GRD_RT_A.DQ t q)
def State.qDepth (s : State) (t q : Nat) : Nat := s.fld (Reg.GRD_QD_A.DEPTH t q)
def State.qBase (s : State) (t q : Nat) : Nat := s.fld (Reg.GRD_QD_A.BASE t q)

/-- The queue has Local as its input and is valid (R77). -/
def State.localIn (s : State) (t q : Nat) : Bool := s.rtValid t q && s.rtIn t q == 4

/-- The queue has Local among its outputs and is valid (R76). -/
def State.localOut (s : State) (t q : Nat) : Bool := s.rtValid t q && bitOf (s.rtOut t q) 4

/-- The flits that a queue holds. -/
def Queue.occ (x : Queue) : Nat := x.held.length

/-- The queue is full. -/
def State.qFull (s : State) (t q : Nat) : Bool := decide (s.qDepth t q ≤ (s.queue t q).occ)

/-- A flight carries flit `seq` of queue `q` of tile `t`. -/
def Flight.carries (f : Flight) (t q seq : Nat) : Bool :=
  match f.src with
  | .switch t' q' _ seq' _ => t' == t && q' == q && seq' == seq
  | .attachment => false

/-- No link carries the flit: the switches it was sent to have accepted it. -/
def State.landed (s : State) (t q seq : Nat) : Bool := !s.flights.any (·.carries t q seq)

/-- The flits that have left a queue and may still be refused, so that their slots are not free (R44; log 43). -/
def State.departing (s : State) (t q : Nat) : Nat :=
  ((s.flights.filterMap (fun f => match f.src with
    | .switch t' q' _ seq _ => if t' = t ∧ q' = q ∧ (s.queue t q).held.any (·.seq == seq) = false then some seq else none
    | .attachment => none)).eraseDups).length

/-- The queue has no free slot. -/
def State.noRoom (s : State) (t q : Nat) : Bool := decide (s.qDepth t q ≤ (s.queue t q).occ + s.departing t q)

/-- The head flit of a queue, as output `out` sees it: none while that output has already sent it (R45). -/
def State.headFor (s : State) (t q out : Nat) : Option Held :=
  match (s.queue t q).held.head? with
  | some h => if bitOf h.sent.toNat out then none else some h
  | none => none

/-- The payload of a held flit as queue memory holds it. -/
def State.payloadOf (s : State) (t : Nat) (h : Held) : Payload := s.unit (slotAt t h.slot)

/-- A link is fenced at either of its ends (R47). -/
def State.fenced (s : State) (t dir : Nat) : Bool :=
  bitOf (s.fld (Reg.GRD_LINK.FENCE t)) dir ||
    match neighbour t dir with
    | some u => bitOf (s.fld (Reg.GRD_LINK.FENCE u)) (opposite dir)
    | none => false

/-- A flit entered or left a queue of the tile's partition in this tick (R54). -/
def State.movedAt (s : State) (t : Nat) : State :=
  match s.partOf t with
  | some p => s.modPart p (fun x => { x with moved := true })
  | none => s

/-- The queue of tile `u` whose flits its output `dir` delivers to queue `q` of the neighbour (R46). Where several deliver to it, the spec does
not say whose count a returned credit raises: it is the lowest-numbered one's (DESIGN CHOICE, log 47). -/
def State.feeder (s : State) (u dir q : Nat) : Option Nat :=
  (List.range 32).find? (fun k => s.rtValid u k && bitOf (s.rtOut u k) dir && s.rtDq u k == q)

/-- A credit leaves for the sender that feeds a queue: a switch, or the I/O die's attachment at the north of row 9 (R43). -/
def State.returnCredit (s : State) (t q : Nat) : State :=
  let p := s.rtIn t q
  if 3 < p ∨ s.fenced t p then s
  else if p = 0 ∧ tileRow t = 9 then { s with creditFlights := s.creditFlights ++ [⟨t, q, 0, true⟩] }
  else match neighbour t p with
    | none => s
    | some u => match s.feeder u (opposite p) q with
      | none => s
      | some k => { s with creditFlights := s.creditFlights ++ [⟨u, k, opposite p, false⟩] }

/-- Output `out` (0 to 4) has sent the head flit of a queue. The flit leaves when every output of the queue has sent it (R45); a queue that its
QUENCH flit leaves is quenched. Its slot, and with it the credit, is free once no switch can refuse it any more (R44; log 43). -/
def State.sendHead (s : State) (t q out : Nat) : State :=
  let x := s.queue t q
  match x.held with
  | [] => s
  | h :: rest =>
    let s := s.addFld (Reg.GRD_FLITS.COUNT t) 1
    let sent := h.sent ||| BitVec.ofNat 5 (2 ^ out)
    if s.rtOut t q &&& sent.toNat = s.rtOut t q then
      let s := (s.setQueue t q { x with held := rest, quenched := x.quenched || decide (h.kind = .quench) }).movedAt t
      if s.landed t q h.seq then s.returnCredit t q else s
    else s.setQueue t q { x with held := { h with sent := sent } :: rest }

/-- A flit is written into a queue, in the slot after the one written last. -/
def State.pushFlit (s : State) (t q : Nat) (f : Flit) : State :=
  let x := s.queue t q
  let slot := (s.qBase t q + x.tail) % 2048
  let s := s.setUnit (slotAt t slot) f.payload
  (s.setQueue t q { x with
    tail := (x.tail + 1) % max 1 (s.qDepth t q)
    nextSeq := x.nextSeq + 1
    held := x.held ++ [⟨x.nextSeq, slot, f.kind, 0⟩] }).movedAt t

/-- How many quarters a mask names. -/
def quarters (m : BitVec 4) : Nat := ((List.range 4).filter (bitOf m.toNat)).length

/-- The payload bits of the quarters that a mask names. -/
def quarterBits (m : BitVec 4) : Payload :=
  BitVec.ofNat 1024 (((List.range 4).map (fun i => if bitOf m.toNat i then (2 ^ 256 - 1) * 2 ^ (256 * i) else 0)).sum)

/-- What the ECC check of a flit counts at a switch, and the mark it leaves (R58, R411). -/
def State.flitEcc (s : State) (t : Nat) (e : FlitEcc) : State :=
  let s := s.countEcc (Reg.GRD_ECC_CNT.CE t) (quarters (e.corrected &&& ~~~e.bad))
  if e.bad = 0 then s
  else ((s.satFld (Reg.GRD_ECC_CNT.UE t) (quarters e.bad)).setFlag (Reg.GRD_STATUS.FLIT_UE t) true).markTile t 3

/-- The payload as it is delivered: as read, with the bits in error of its uncorrectable quarters (R58). -/
def delivered (p : Payload) (e : FlitEcc) : Payload := p ^^^ (e.flips &&& quarterBits e.bad)

/-- The flit at the head of a queue, read from queue memory: the payload as read, and the state with the check counted (R58). -/
def State.readHead (s : State) (t : Nat) (h : Held) (ecc : FlitEcc) : Payload × State :=
  (delivered (s.payloadOf t h) ecc, s.flitEcc t ecc)

/-- A VIOLATION or DEADLOCK raised by a switch, with the detail of Table 03-3 (R57). -/
def State.faultSwitch (s : State) (t code q other kind occ : Nat) : State :=
  s.faultTile t code (q + other * 2 ^ 8 + kind * 2 ^ 16 + occ * 2 ^ 32)

/-- A VIOLATION of R44, R47 or R50. -/
def State.routeFault (s : State) (t q other kind : Nat) : State :=
  (s.setFlag (Reg.GRD_STATUS.ROUTE_ERR t) true).faultSwitch t codeViolation q other kind (s.queue t q).occ

/-- The queues an output arbitrates among, beginning at the queue after its last winner (R42). -/
def State.rrOrder (s : State) (t out : Nat) : List Nat :=
  (List.range 32).map (fun i => ((s.tile t).rr.toList.getD out 0 + i) % 32)

/-- A queue's head flit waits for a link output. -/
def State.wants (s : State) (t out q : Nat) : Bool :=
  s.rtValid t q && bitOf (s.rtOut t q) out && (s.headFor t q out).isSome

/-- A queue may win an output: its head waits for the output, and a credit is held for it. -/
def State.mayWin (s : State) (t out q : Nat) : Bool :=
  s.wants t out q && decide (0 < (s.queue t q).credits.toList.getD out 0)

/-- The credit count of an output changed. -/
def Queue.setCredit (x : Queue) (out v : Nat) : Queue := { x with credits := x.credits.setIfInBounds out v }

/-- FLIT_GRANT: a link output grants one queue (R42, R47). -/
def flitGrant (t out : Nat) (ecc : FlitEcc) (s : State) : State :=
  if s.tileWorks t = false then s
  else match (s.rrOrder t out).find? (fun q => s.wants t out q && s.fenced t out) with
    | some q => s.routeFault t q out 4
    | none => match (s.rrOrder t out).find? (s.mayWin t out), neighbour t out with
      | some q, some u => match s.headFor t q out with
        | none => s
        | some h =>
          let r := s.readHead t h ecc
          let f : Flit := ⟨h.kind, r.1⟩
          let s := r.2
          let s := s.setQueue t q ((s.queue t q).setCredit out ((s.queue t q).credits.toList.getD out 0 - 1))
          let s := s.modTile t (fun x => { x with rr := x.rr.setIfInBounds out ((q + 1) % 32) })
          let fl : Flight := ⟨u, opposite out, s.rtDq t q, f, .switch t q out h.seq h.slot⟩
          ({ s with flights := s.flights ++ [fl] }).sendHead t q out
      | _, _ => s

/-- The held flit is put into a queue's list at its place. -/
def insertHeld (h : Held) : List Held → List Held
  | [] => [h]
  | x :: xs => if h.seq < x.seq then h :: x :: xs else x :: insertHeld h xs

/-- A refused flit counts as not yet sent by its sender, in the queue and in GRD_FLITS, and the credit comes back (R44; log 43). -/
def State.putBack (s : State) (f : Flight) : State :=
  match f.src with
  | .switch t q out seq slot =>
    let s := s.addFld (Reg.GRD_FLITS.COUNT t) (2 ^ (Reg.GRD_FLITS.COUNT t).width - 1)
    let x := s.queue t q
    let x := x.setCredit out (x.credits.toList.getD out 0 + 1)
    if x.held.any (fun h => h.seq == seq) then
      s.setQueue t q { x with
        held := x.held.map (fun h => if h.seq = seq then { h with sent := h.sent &&& ~~~ BitVec.ofNat 5 (2 ^ out) } else h) }
    else
      (s.setUnit (slotAt t slot) f.flit.payload).setQueue t q { x with
        quenched := x.quenched && decide (f.flit.kind ≠ .quench)
        held := insertHeld ⟨seq, slot, f.flit.kind, BitVec.ofNat 5 (s.rtOut t q) &&& ~~~ BitVec.ofNat 5 (2 ^ out)⟩ x.held }
  | .attachment =>
    let s := s.setQueue f.dst f.dq { s.queue f.dst f.dq with attach := (s.queue f.dst f.dq).attach + 1 }
    match s.partOf f.dst with
    | none => s
    | some p =>
      let ch := (s.part p).ingActive.findIdx (fun e => e.1 == f.dst && e.2 == f.dq)
      s.modPart p (fun x => { x with ingress := ⟨ch, f.flit, false, false⟩ :: x.ingress })

/-- The first flight to a port, and the others. -/
def takeFlight (t port : Nat) : List Flight → Option (Flight × List Flight)
  | [] => none
  | f :: fs => if f.dst = t ∧ f.port = port then some (f, fs) else (takeFlight t port fs).map (fun r => (r.1, f :: r.2))

/-- A flit has been accepted: where no switch can refuse it any more, its slot in the sending queue is free. -/
def State.linkAccepted (s : State) : Source → State
  | .switch t q _ seq _ => if (s.queue t q).held.any (·.seq == seq) || !s.landed t q seq then s else s.returnCredit t q
  | .attachment => s

/-- A queue does not accept a flit that comes by a port: its entry is invalid, or names another input (R44), or it is quenched (R50). The
fault is recorded. -/
def State.refuse (s : State) (t q port : Nat) : Option State :=
  if s.rtValid t q = false ∨ s.rtIn t q ≠ port then some (s.routeFault t q port 3)
  else if (s.queue t q).quenched then some ((s.modTile t (fun x => { x with withdrawn := true })).routeFault t q port 5)
  else none

/-- FLIT_ARRIVAL: the oldest flit on the link is written into the queue that its DQ names, or refused (R44, R50, R58). -/
def flitArrival (t port : Nat) (ecc : FlitEcc) (s : State) : State :=
  match takeFlight t port s.flights with
  | none => s
  | some (f, rest) =>
    let s := { s with flights := rest }
    let s := s.flitEcc t ecc
    match (s.putBack f).refuse t f.dq port with
    | some s' => s'
    | none => (s.pushFlit t f.dq { f.flit with payload := delivered f.flit.payload ecc }).linkAccepted f.src

/-- The first credit on its way to an output, and the others. A credit to the attachment of a row 9 tile comes by its north. -/
def takeCredit (t out : Nat) : List CreditFlight → Option (CreditFlight × List CreditFlight)
  | [] => none
  | c :: cs => if c.t = t ∧ c.out = out then some (c, cs) else (takeCredit t out cs).map (fun r => (r.1, c :: r.2))

/-- CREDIT_RETURN: a credit reaches its sender and may be used at once (R43, R51). -/
def creditReturn (t out : Nat) (s : State) : State :=
  match takeCredit t out s.creditFlights with
  | none => s
  | some (c, rest) =>
    let s := { s with creditFlights := rest }
    let x := s.queue t c.q
    if c.attach then s.setQueue t c.q { x with attach := x.attach + 1 }
    else s.setQueue t c.q (x.setCredit out (x.credits.toList.getD out 0 + 1))

/-- The slots of queue `q` of tile `t` that a sender by `port` may still fill: those that no flit holds, that none on its way to it will take,
and whose credits are not on their way (R51, R52). -/
def State.freeSlots (s : State) (t q port credits : Nat) : Nat :=
  s.qDepth t q - ((s.queue t q).occ + s.departing t q + (s.flights.filter (fun f => f.dst == t && f.port == port && f.dq == q)).length + credits)

/-- The credit count that R51 gives output `out` of queue `q`: the free slots downstream, or 1 where the downstream queue is not
one that the link feeds. An output with no tile behind it holds none. -/
def State.creditRule (s : State) (t q out : Nat) : Nat :=
  match neighbour t out with
  | none => 0
  | some u =>
    let d := s.rtDq t q
    if s.rtValid u d && s.rtIn u d == opposite out then
      s.freeSlots u d (opposite out) (s.creditFlights.filter (fun c => c.t == t && c.q == q && c.out == out && !c.attach)).length
    else 1

/-- The credit count that R51 gives the I/O die's attachment for a queue. -/
def State.attachRule (s : State) (t q : Nat) : Nat :=
  if s.rtIn t q = 0 ∧ tileRow t = 9 then
    s.freeSlots t q 0 (s.creditFlights.filter (fun c => c.t == t && c.q == q && c.attach)).length
  else 0

/-- Every credit count of a partition's switches set by R51. Flits and credits that are still on their way keep what they hold (R52). -/
def State.setCredits (s : State) (p : Nat) : State :=
  (s.tilesOf p).foldl (fun s t => (List.range 32).foldl (fun s q =>
    if s.rtValid t q then
      s.setQueue t q { s.queue t q with
        credits := #v[s.creditRule t q 0, s.creditRule t q 1, s.creditRule t q 2, s.creditRule t q 3]
        attach := s.attachRule t q }
    else s) s) s

/-- Every credit count of a partition's switches set by R51 at a swap, whose old routes leave no credit on its way. -/
def State.rebuildCredits (s : State) (p : Nat) : State :=
  let mine := fun t => s.partOf t == some p
  ({ s with creditFlights := s.creditFlights.filter (fun c => !mine c.t) }).setCredits p

/-- Flits on the way to a partition's switches are written and credits arrive, as a stop settles (R52). -/
def State.settle (s : State) (p : Nat) : State :=
  let s := s.flights.foldl (fun s f => if s.partOf f.dst = some p then flitArrival f.dst f.port .clean s else s) s
  s.creditFlights.foldl (fun s c => if s.partOf c.t = some p then creditReturn c.t c.out s else s) s

/-! ## The reports of a switch -/

/-- Every valid Active queue is quenched, and DRAINED is not withdrawn (R50). -/
def State.drained (s : State) (t : Nat) : Bool :=
  !(s.tile t).withdrawn && (List.range 32).all (fun q => !s.rtValid t q || (s.queue t q).quenched)

/-- The Shadow entry of queue `q` breaks R48 by itself. -/
def State.badShadow (s : State) (t q : Nat) : Bool :=
  let out := s.fld (Reg.GRD_RT_S.OUT t q)
  let inp := s.fld (Reg.GRD_RT_S.IN t q)
  let depth := s.fld (Reg.GRD_QD_S.DEPTH t q)
  let present := fun d => decide (d > 3) || bitOf (linkPresent t) d
  s.flag (Reg.GRD_RT_S.VALID t q) &&
    (depth == 0 || decide (2048 < s.fld (Reg.GRD_QD_S.BASE t q) + depth) || out == 0 || decide (4 < inp) ||
      !present inp || (List.range 4).any (fun d => bitOf out d && !present d) ||
      (decide (inp < 4) && bitOf out inp) || (tileRow t == 9 && bitOf out 0))

/-- Two Shadow queues overlap (R48). -/
def State.overlapShadow (s : State) (t q r : Nat) : Bool :=
  let b := fun k => s.fld (Reg.GRD_QD_S.BASE t k)
  let e := fun k => s.fld (Reg.GRD_QD_S.BASE t k) + s.fld (Reg.GRD_QD_S.DEPTH t k)
  q != r && s.flag (Reg.GRD_RT_S.VALID t q) && s.flag (Reg.GRD_RT_S.VALID t r) && decide (b q < e r) && decide (b r < e q)

/-- LAYOUT_ERR: the Shadow set breaks R48. -/
def State.layoutErr (s : State) (t : Nat) : Bool :=
  (List.range 32).any (fun q => s.badShadow t q || (List.range 32).any (s.overlapShadow t q))

/-! ## Deadlock -/

/-- The opcode of the instruction an engine holds, and its word. -/
def State.heldWord (s : State) (t e : Nat) : Nat := s.reg64 (Reg.SEQ_INST t e 0)
def State.engineBusy (s : State) (t e : Nat) : Bool := bitOf (s.fld (Reg.SEQ_STATUS.BUSY t)) e

/-- The Quench marker of a queue has been taken by the tile (R82). -/
def State.markTaken (s : State) (t q : Nat) : Bool :=
  (s.queue t q).quenched ||
    match (s.queue t q).held.head? with
    | some h => h.kind == .quench && bitOf h.sent.toNat 4
    | none => false

/-- The queues from which the tile's receive engine waits for a flit: the queue of RECV, PEEK or BSCAT, or those of the phase
QUENCH is in (R55, R82). -/
def State.awaited (s : State) (t : Nat) : List Nat :=
  if s.engineBusy t 0 = false then []
  else
    let w := s.heldWord t 0
    let op := bits w 56 8
    if op = 0x20 ∨ op = 0x22 then [bits w 31 5]
    else if op = 0x85 ∧ tileType t = 2 then [bits w 39 5]
    else if op = 0x31 then
      let one := (List.range 32).filter (fun q => s.localOut t q && s.rtIn t q != 4 && !s.markTaken t q)
      if one.isEmpty then (List.range 32).filter (fun q => s.localOut t q && s.rtIn t q == 4 && !s.markTaken t q) else one
    else []

/-- The empty queue that makes a full queue a REJOIN queue (R55): another queue that the tile's E0 awaits. -/
def State.rejoins (s : State) (t q : Nat) : Option Nat :=
  if s.localOut t q then (s.awaited t).find? (fun r => r != q && (s.queue t r).held.isEmpty) else none

/-- The full queues of a switch, lowest number first. -/
def State.fullQueues (s : State) (t : Nat) : List Nat := (List.range 32).filter (fun q => s.rtValid t q && s.qFull t q)

/-- The stall limit of a switch in f-cycles (Table 03-6). -/
def State.stallLimit (s : State) (t : Nat) : Nat := 2 ^ max 10 (min 24 (s.fld (Reg.GRD_CTRL.DL_LIMIT t)))

/-- By how many f-cycles a switch's stall counter has reached its limit; none where it has not. -/
def State.tripped (s : State) (t : Nat) : Option Nat :=
  if s.flag (Reg.GRD_CTRL.DL_EN t) ∧ s.stallLimit t ≤ (s.tile t).stall then some ((s.tile t).stall - s.stallLimit t) else none

/-- DEADLOCK_DETECT: the switches that reached their limit first detect; the partition records one classified fault and
freezes (R54 to R57). -/
def deadlockDetect (p : Nat) (s : State) : State :=
  if s.running p = false then s
  else
    let first := (s.tilesOf p).foldl (fun n t => match s.tripped t with
      | some k => max n (k + 1)
      | none => n) 0
    let det := (s.tilesOf p).filter (fun t => (s.tripped t).map (· + 1) == some first)
    let hasRejoin := fun t => (s.fullQueues t).any (fun q => (s.rejoins t q).isSome)
    match (det.find? hasRejoin).or det.head? with
    | none => s
    | some t =>
      match ((s.fullQueues t).find? (fun q => (s.rejoins t q).isSome)).or (s.fullQueues t).head? with
      | none => s
      | some q =>
        let s := s.setFlag (Reg.GRD_STATUS.DEADLOCK t) true
        match s.rejoins t q with
        | some r => (s.setReg (Reg.GRD_DL_INFO t) (BitVec.ofNat 32 (2 ^ 30 + r * 2 ^ 8 + q))).faultSwitch t codeDeadlock q r 1
            (s.queue t q).occ
        | none => (s.setReg (Reg.GRD_DL_INFO t) (BitVec.ofNat 32 (2 ^ 31 + q))).faultSwitch t codeDeadlock q 0xFF 2
            (s.queue t q).occ

/-! ## GRD_CTRL and GRD_LINK -/

/-- The writable fields of GRD_CTRL or GRD_LINK take a value. -/
def State.setGrd (s : State) (t : Nat) (link : Bool) (v : Word) : State :=
  if link then s.setFld (Reg.GRD_LINK.FENCE t) v.toNat
  else (s.setFld (Reg.GRD_CTRL.DL_LIMIT t) (bits v.toNat 8 5)).setFld (Reg.GRD_CTRL.DL_EN t) v.toNat

/-- A firmware write of GRD_CTRL or GRD_LINK takes effect at once, when the partition next runs, or never (R59). -/
def State.writeGrd (s : State) (t : Nat) (link : Bool) (v : Word) : State :=
  match s.partOf t with
  | none => s.setGrd t link v
  | some p =>
    if s.atRest p then
      s.modTile t (fun x => if link then { x with deferLink := some v } else { x with deferCtrl := some v })
    else s.setFlag (Reg.GRD_STATUS.WR_IGNORED t) true

/-- The writes that waited for the partition to run take effect. -/
def State.applyDeferred (s : State) (p : Nat) : State :=
  (s.tilesOf p).foldl (fun s t =>
    let x := s.tile t
    let s := match x.deferCtrl with
      | some v => s.setGrd t false v
      | none => s
    let s := match x.deferLink with
      | some v => s.setGrd t true v
      | none => s
    s.modTile t (fun x => { x with deferCtrl := none, deferLink := none })) s

def execFlitGrant (t : Fin 240) (out : Fin 4) (ecc : FlitEcc) (s : State) : Host.Outcome State Fault Refusal :=
  .next (flitGrant t out ecc s)
def execFlitArrival (t : Fin 240) (port : Fin 4) (ecc : FlitEcc) (s : State) : Host.Outcome State Fault Refusal :=
  .next (flitArrival t port ecc s)
def execCreditReturn (t : Fin 240) (out : Fin 4) (s : State) : Host.Outcome State Fault Refusal := .next (creditReturn t out s)
def execDeadlockDetect (p : Fin 12) (s : State) : Host.Outcome State Fault Refusal := .next (deadlockDetect p s)
def execGrdLinkWrite (m : Master) (t : Fin 240) (link : Bool) (v : Word) (s : State) : Host.Outcome State Fault Refusal :=
  .next (s.byFirmware m (if link then Reg.GRD_LINK t else Reg.GRD_CTRL t) (·.writeGrd t link v))

end Sys2Proof.Machine
end

