-- ==== Sys2Proof/Machine/Operands.lean ====
section
/-! DEFINITION. The fields of the instruction word, the operand specifiers, and what each opcode of each tile type reads, writes
and must hold at 0 (R65 to R69; Tables 04-4, 05-5, 06-7, 07-3 and 09-4). -/
namespace Sys2Proof.Machine

/-- What the encoding of one instruction word says. -/
structure OpInfo where
  /-- The engine it runs on; none for an instruction that completes in the sequencer (R61). -/
  engine : Option Nat
  /-- The plain bits that must be 0. -/
  zero : Nat
  /-- Specifier fields that must be 0x00. -/
  zeroSpec : List Nat
  /-- COND is 6 or 7, or a LOOP or ENDL is predicated (R68). -/
  bad : Bool
  /-- The specifiers it reads and those it writes, predicate fields among them. -/
  reads : List Nat
  writes : List Nat
  /-- The streams it walks, and those among them that it writes. -/
  streams : List Nat
  dests : List Nat
deriving DecidableEq, Repr

/-- A mask of bits [hi:lo]. -/
def maskBits (hi lo : Nat) : Nat := 2 ^ (hi + 1) - 2 ^ lo

/-- The specifier of a 3-bit predicate field. -/
def predSpec (p : Nat) : Nat := 0x20 + p

/-- A specifier in a range of Table 04-2 that names a register. -/
def specOk (n : Nat) : Bool := decide (n < 0x28) || (decide (0x40 ≤ n) && decide (n < 0x80))

/-- PRED and PNEG of a word, and its opcode (R67). -/
def wPred (w : Nat) : Nat := bits w 52 3
def wPneg (w : Nat) : Bool := bitOf w 55
def wOp (w : Nat) : Nat := bits w 56 8

/-- An ALU, MOV or CMP word in format R or I. -/
def infoRI (w : Nat) (imm mov cmp : Bool) : OpInfo :=
  let d := bits w 44 8
  let a := bits w 36 8
  let b := bits w 28 8
  if imm then
    { engine := none
      zero := maskBits 35 35 + (if cmp then 0 else maskBits 34 32)
      zeroSpec := if mov then [a] else []
      bad := cmp && decide (5 < bits w 32 3)
      reads := if mov then [] else [a]
      writes := [d]
      streams := []
      dests := [] }
  else
    { engine := none
      zero := maskBits 27 3 + (if cmp then 0 else maskBits 2 0)
      zeroSpec := if mov then [b] else []
      bad := cmp && decide (5 < bits w 0 3)
      reads := if mov then [a] else [a, b]
      writes := [d]
      streams := []
      dests := [] }

/-- The common opcodes (Tables 04-4 and 04-5). -/
def infoCommon (w : Nat) : Option OpInfo :=
  let d := bits w 44 8
  let a := bits w 36 8
  let z : OpInfo := ⟨none, 0, [], false, [], [], [], []⟩
  match wOp w with
  | 0x00 => some { z with zero := maskBits 51 0 }
  | 0x01 => some (infoRI w false true false)
  | 0x02 => some (infoRI w true true false)
  | 0x04 => some (infoRI w false false false)
  | 0x05 => some (infoRI w true false false)
  | 0x06 => some (infoRI w false false false)
  | 0x07 => some (infoRI w true false false)
  | 0x08 => some (infoRI w false false false)
  | 0x09 => some (infoRI w true false false)
  | 0x0A => some (infoRI w false false false)
  | 0x0B => some (infoRI w true false false)
  | 0x0C => some (infoRI w false false false)
  | 0x0D => some (infoRI w true false false)
  | 0x0E => some (infoRI w false false false)
  | 0x0F => some (infoRI w true false false)
  | 0x10 => some (infoRI w false false true)
  | 0x11 => some (infoRI w true false true)
  | 0x18 => some { z with zero := maskBits 51 12 }
  | 0x19 => some { z with
      zero := maskBits 22 16
      zeroSpec := if bitOf w 23 then [d] else []
      bad := bits w 52 4 != 0
      reads := if bitOf w 23 then [] else [d]
      writes := [a] }
  | 0x1A => some { z with zero := maskBits 51 0, bad := bits w 52 4 != 0 }
  | 0x20 => some { z with
      engine := some 0
      zero := maskBits 23 0
      zeroSpec := [a]
      writes := [d, predSpec (bits w 24 3)]
      streams := [bits w 27 4]
      dests := [bits w 27 4] }
  | 0x21 => some { z with
      engine := some 1
      zero := maskBits 26 24 + maskBits 22 0
      zeroSpec := [d, a]
      streams := [bits w 27 4] }
  | 0x22 => some { z with engine := some 0, zero := maskBits 30 0, writes := [d, a] }
  | 0x28 => some { z with zero := maskBits 29 24, reads := [a], writes := [d, predSpec (bits w 33 3)] }
  | 0x30 => some { z with zero := maskBits 51 5 }
  | 0x31 => some { z with engine := some 0, zero := maskBits 51 0 }
  | 0x3F => some { z with zero := maskBits 51 0 }
  | _ => none

/-- The Anvil opcodes (Table 05-5). -/
def infoAnvil (w : Nat) : Option OpInfo :=
  let z : OpInfo := ⟨none, 0, [], false, [], [], [], []⟩
  match wOp w with
  | 0x40 => some { z with engine := some 3, zero := maskBits 40 0, streams := [bits w 48 4] }
  | 0x41 => some { z with engine := some 2, zero := maskBits 51 0 }
  | 0x44 => some { z with
      engine := some 2
      zero := maskBits 27 0
      reads := [bits w 44 8]
      streams := (List.range (2 ^ bits w 31 2)).map (fun p => bits w 40 4 + p) |>.filter (· < 16) }
  | 0x48 => some { z with
      engine := some 3
      zero := maskBits 30 0
      reads := [bits w 44 8]
      streams := [bits w 40 4]
      dests := [bits w 40 4] }
  | _ => none

/-- The functions of FN that read SB as an operand row (Table 06-1). -/
def funcBinary (f : Nat) : Bool := decide (f ≤ 4) || f == 7

/-- The Temper opcodes and the engine of each (R126, R145, Table 06-7). A stream that the word names and the instruction does not use is none of its streams (R62, R146). -/
def infoTemper (w : Nat) : Option OpInfo :=
  let z : OpInfo := ⟨none, 0, [], false, [], [], [], []⟩
  let f4 := fun lo => bits w lo 4
  match wOp w with
  | 0x60 => some { z with
      engine := some 2
      zero := maskBits 7 0
      reads := [bits w 20 8, bits w 8 8]
      streams := [f4 48, f4 40] ++ (if funcBinary (bits w 34 6) || bits w 34 6 == 9 then [f4 44] else [])
      dests := [f4 40] }
  | 0x64 => some { z with
      engine := some 2
      zero := maskBits 11 0
      reads := [bits w 24 8, bits w 12 8]
      streams := [f4 48] ++ (if bits w 38 2 = 2 then [] else [f4 44]) ++ (if bits w 38 2 = 0 then [] else [f4 40])
      dests := (if bits w 38 2 = 2 then [] else [f4 44]) ++ (if bits w 38 2 = 0 then [] else [f4 40]) }
  | 0x66 => some { z with
      engine := some 2
      zero := maskBits 8 0
      reads := [bits w 21 8, bits w 13 8]
      streams := [f4 48, f4 44, f4 40, f4 36]
      dests := [f4 44] }
  | 0x68 => some { z with
      engine := some 3
      zero := maskBits 19 0
      reads := [bits w 28 8, bits w 20 8]
      streams := [f4 48, f4 44]
      dests := [f4 44] }
  | 0x6A => some { z with
      engine := some 3
      zero := maskBits 22 0
      reads := [bits w 27 8]
      streams := [f4 48, f4 44, f4 40] ++ (if bits w 35 2 = 2 then [f4 23] else [])
      dests := [f4 40] }
  | 0x6C => some { z with engine := some 3, zero := maskBits 39 0, streams := [f4 48, f4 44, f4 40], dests := [f4 44, f4 40] }
  | 0x6E => some { z with
      engine := some 3
      zero := maskBits 23 0
      reads := [bits w 44 8, bits w 36 8]
      streams := [f4 32]
      dests := [f4 32] }
  | _ => none

/-- The Billet opcodes and the engine of each (R162, Table 07-3). -/
def infoBillet (w : Nat) : Option OpInfo :=
  let z : OpInfo := ⟨none, 0, [], false, [], [], [], []⟩
  match wOp w with
  | 0x80 => some { z with engine := some 2, zero := maskBits 11 0, reads := [bits w 36 8], writes := [bits w 44 8] }
  | 0x81 => some { z with engine := some 2, zero := maskBits 11 0, reads := [bits w 36 8, bits w 44 8] }
  | 0x84 => some { z with
      engine := some 1
      zero := maskBits 25 0
      reads := [bits w 44 8, bits w 27 8]
      streams := [bits w 35 4] }
  | 0x85 => some { z with
      engine := some 0
      zero := maskBits 15 0
      reads := [bits w 44 8, bits w 27 8]
      writes := [bits w 19 8, predSpec (bits w 16 3)]
      streams := [bits w 35 4] }
  | 0x88 => some { z with
      engine := some 3
      zero := maskBits 23 0
      reads := [bits w 44 8, bits w 36 8]
      writes := [bits w 28 8] }
  | _ => none

/-- A mover instruction, with the register specifiers it uses and those that must be 0x00 (Table 09-4, R216 to R220). -/
def infoMove (w none0 : Nat) (src dst cnt aux : Bool) : OpInfo :=
  let fs := [(src, bits w 42 8), (dst, bits w 34 8), (cnt, bits w 26 8), (aux, bits w 18 8)]
  { engine := some 2
    zero := none0
    zeroSpec := (fs.filter (fun e => !e.1)).map (·.2)
    bad := false
    reads := (fs.filter (·.1)).map (·.2)
    writes := []
    streams := []
    dests := [] }

/-- The mover opcodes (Table 09-4, R273, R321). -/
def infoPort (w : Nat) : Option OpInfo :=
  match wOp w with
  | 0xA0 =>
    match bits w 5 4 with
    | 0 => some (infoMove w (maskBits 4 0) true true true false)
    | 5 => some (infoMove w (maskBits 4 0) false true true true)
    | 6 => some (infoMove w (maskBits 4 0) false false true true)
    | _ => some (infoMove w (maskBits 4 0) true true true true)
  | 0xA2 =>
    let z := maskBits 12 10 + maskBits 8 7 + maskBits 4 0
    match bits w 5 2 with
    | 0 => some (infoMove w z true false true false)
    | 1 => some (infoMove w z true false true true)
    | _ => some (infoMove w z true false false true)
  | 0xA4 => some (infoMove w (maskBits 8 0) false false true true)
  | 0xA5 => some (infoMove w (maskBits 8 0) false false true true)
  | 0xA8 => some (infoMove w (maskBits 8 0) true false true true)
  | 0xAC => some (infoMove w (maskBits 11 10 + maskBits 8 0) true true true true)
  | _ => none

/-- What a word says on a tile of type `ty`; none where the opcode is not assigned to the type (R69). -/
def opInfo (ty w : Nat) : Option OpInfo :=
  (infoCommon w).or
    (match ty with
      | 0 => infoAnvil w
      | 1 => infoTemper w
      | 2 => infoBillet w
      | _ => infoPort w)

/-- Every field that a word names a register by. -/
def OpInfo.specs (i : OpInfo) : List Nat := i.reads ++ i.writes

/-- The decode fault a word raises, if any: an unassigned opcode, then a plain field, then a specifier (R68, Table 04-8). -/
def decodeFault (ty w : Nat) : Option Nat :=
  match opInfo ty w with
  | none => some 0x20
  | some i =>
    if w &&& i.zero ≠ 0 ∨ i.bad then some 0x21
    else if i.zeroSpec.any (· != 0) ∨ i.specs.any (fun n => !specOk n) then some 0x22
    else none

/-! ## Registers -/

/-- Register `g n`; g0 reads 0 (R64). -/
def State.greg (s : State) (t n : Nat) : Nat := if n = 0 then 0 else s.reg64 (Reg.SEQ_G t n 0)

/-- Predicate `p n`; p0 reads 1 (R64). -/
def State.pred (s : State) (t n : Nat) : Bool := n == 0 || bitOf (s.reg (Reg.SEQ_PRED t)).toNat n

/-- Field `f` of stream `n`. -/
def State.strm (s : State) (t n f : Nat) : Nat := (s.reg (Reg.SEQ_S t n f)).toNat

/-- The value that an operand specifier reads as (R65). -/
def State.operand (s : State) (t n : Nat) : Nat :=
  if n < 0x20 then s.greg t n
  else if n < 0x28 then ofBool (s.pred t (n - 0x20))
  else s.strm t ((n - 0x40) / 4) ((n - 0x40) % 4)

/-- The bits of a stream field that are not reserved (Table 04-3). -/
def strmMask (f : Nat) : Nat :=
  match f with
  | 1 => 2 ^ 16
  | 2 => 2 ^ 24
  | _ => 2 ^ 32

/-- A value written to the register that a specifier names; g0 and p0 discard it (R64, R65). -/
def State.setOperand (s : State) (t n v : Nat) : State :=
  if n = 0 ∨ n = 0x20 then s
  else if n < 0x20 then s.setReg64 (Reg.SEQ_G t n 0) (v % 2 ^ 64)
  else if n < 0x28 then s.setFlag ⟨Reg.SEQ_PRED t, n - 0x20, 1⟩ (v % 2 = 1)
  else s.setReg (Reg.SEQ_S t ((n - 0x40) / 4) ((n - 0x40) % 4)) (BitVec.ofNat 32 (v % strmMask ((n - 0x40) % 4)))

/-- The sign-extended IMM32 of a word, as a 64-bit number. -/
def imm32 (w : Nat) : Nat := ofSigned 64 (toSigned 32 (bits w 0 32))

/-! ## Streams -/

/-- INNER and OUTER of a stream, and its length in units (R66). -/
def State.sInner (s : State) (t n : Nat) : Nat := s.strm t n 1 % 2 ^ 16
def State.sOuter (s : State) (t n : Nat) : Nat := s.strm t n 2 % 2 ^ 24
def State.sLen (s : State) (t n : Nat) : Nat := s.sInner t n * s.sOuter t n

/-- The local address of unit `k` of a stream's walk (R66). -/
def State.sAddr (s : State) (t n k : Nat) : Nat :=
  s.strm t n 0 + k / max 1 (s.sInner t n) * s.strm t n 3 + 128 * (k % max 1 (s.sInner t n))

/-- The address of row `r` of a stream. -/
def State.sRow (s : State) (t n r : Nat) : Nat := s.strm t n 0 + r * s.strm t n 3

/-- A stream walks over local address `a`. -/
def State.inStream (s : State) (t n a : Nat) : Bool :=
  (List.range (s.sOuter t n)).any (fun r => decide (s.sRow t n r ≤ a) && decide (a < s.sRow t n r + 128 * s.sInner t n))

/-- The local store of a Billet tile is its direct window; the other stores begin at 0. A unit lies in the store (R66). -/
def unitInStore (t a : Nat) : Bool := decide (a + 128 ≤ storeSize t)

/-- A stream meets the check of R66: it is empty, or BASE and STRIDE are multiples of 128 and every unit lies in the store. The
last row reaches farthest. -/
def State.streamOk (s : State) (t n : Nat) : Bool :=
  s.sLen t n == 0 ||
    (s.strm t n 0 % 128 == 0 && s.strm t n 3 % 128 == 0 &&
      unitInStore t (s.sRow t n (s.sOuter t n - 1) + 128 * (s.sInner t n - 1)))

/-- The number in `n` bytes at an address of a tile's local store. -/
def State.lnum (s : State) (t a n : Nat) : Nat := s.num (storeAt t a) n

/-- A 128-byte unit of a tile's local store. -/
def State.lunit (s : State) (t a : Nat) : Payload := s.unit (storeAt t a)
def State.setLunit (s : State) (t a : Nat) (v : Payload) : State := s.setUnit (storeAt t a) v

/-- Byte `i` of a stream's row `r`. -/
def State.rowNum (s : State) (t n r i w : Nat) : Nat := s.lnum t (s.sRow t n r + i) w

end Sys2Proof.Machine
end

