-- ==== Sys2Proof/Machine/Flags.lean ====
section
/-! DEFINITION. The arithmetic and the conditions of the common instructions (R70, R71, R80). The sequencer has no flags: a
comparison writes a register or a predicate. -/
namespace Sys2Proof.Machine

/-- The operations of R70. -/
inductive AluOp where
  | add
  | sub
  | and
  | or
  | shl
  | shr
deriving DecidableEq, Repr

/-- The 64-bit result of an ALU operation: sums and differences wrap, and a shift counts by bits [5:0] (R70). -/
def alu (op : AluOp) (a b : DWord) : DWord :=
  match op with
  | .add => a + b
  | .sub => a - b
  | .and => a &&& b
  | .or => a ||| b
  | .shl => a <<< (b.toNat % 64)
  | .shr => a >>> (b.toNat % 64)

/-- The condition that COND names (R71). -/
def condHolds (c : Nat) (a b : DWord) : Bool :=
  match c with
  | 0 => a == b
  | 1 => a != b
  | 2 => decide (a.toInt < b.toInt)
  | 3 => decide (b.toInt ≤ a.toInt)
  | 4 => decide (a.toNat < b.toNat)
  | _ => decide (b.toNat ≤ a.toNat)

/-- A shape value rounded up to a multiple of 2^r (R80). -/
def roundShape (v r : Nat) : Nat := (v + 2 ^ r - 1) / 2 ^ r * 2 ^ r

end Sys2Proof.Machine
end

