-- ==== Sys2Proof/Machine/Banks.lean ====
section
/-! DEFINITION. The banks of the Billet tiles (chapter 07): the address windows, ownership and handovers, the mover port, and the
march engine. -/
namespace Sys2Proof.Machine

/-- The windows of Table 07-1. -/
inductive Window where
  | direct
  | bitSet
  | bitClear
  | owner
deriving DecidableEq, Repr

/-- The window of a local address, and the offset within it: a direct address, or an offset of the owner window (R152). -/
def windowOf (a : Nat) : Option (Window × Nat) :=
  if a < 0x300000 then some (.direct, a)
  else if 0x400000 ≤ a ∧ a < 0x700000 then some (.bitSet, a - 0x400000)
  else if 0x800000 ≤ a ∧ a < 0xB00000 then some (.bitClear, a - 0x800000)
  else if 0xC00000 ≤ a ∧ a < 0xC00180 then some (.owner, a - 0xC00000)
  else none

/-- The bank of a direct address (R151). -/
def bankOf (a : Nat) : Nat := a / 0x10000 % 64

/-- The bank that an address of a window names. -/
def windowBank (a : Nat) : Nat :=
  match windowOf a with
  | some (.owner, o) => o / 8
  | some (_, d) => bankOf d
  | none => bankOf a

def State.failedBank (s : State) (t b : Nat) : Bool := s.flag (Reg.BIL_REPAIR.FAILED t b)

/-- The 48 banks as a mask of a LO and HI pair. -/
def State.failMask (s : State) (t : Nat) : Nat := s.reg64 (Reg.BIL_FAIL_LO t)

/-! ## Ownership -/

/-- R156: an access by requester code `code`, serving partition `part`, to bank `b`. -/
def State.bankLegal (s : State) (t b code : Nat) (part : Option Nat) (read : Bool) : Bool :=
  let own := s.fld (Reg.BIL_OWN.OWNER t b)
  let mine := part == some (s.fld (Reg.BIL_OWN.PART t b))
  (code == own && (own == 0 || mine)) || (read && s.flag (Reg.BIL_OWN.SHARE t b) && mine) || (read && code == 0)

/-- R157: the master is the bank's current owner, or firmware. -/
def State.mayHandOver (s : State) (t b code : Nat) (part : Option Nat) : Bool :=
  code == 0 || (code == s.fld (Reg.BIL_OWN.OWNER t b) && part == some (s.fld (Reg.BIL_OWN.PART t b)))

/-- The OWNER codes that are not reserved (R155). -/
def ownerCodeOk (c : Nat) : Bool := c == 0 || c == 1 || (decide (0x40 ≤ c) && decide (c < 0x80))

/-- The bits of BIL_OWNn that are not reserved. -/
def ownMask (v : Nat) : Nat := v &&& 0x8F0000FF

/-- A handover reaches its bank: ignored for a FAILED bank unless firmware becomes the owner (R157). -/
def State.setOwner (s : State) (t b v : Nat) : State :=
  if s.failedBank t b ∧ v % 256 ≠ 0 then s.setFlag (Reg.BIL_STATUS.OWN_REFUSED t) true
  else s.setReg (Reg.BIL_OWN t b) (BitVec.ofNat 32 (ownMask v))

/-- A march holds a bank locked: a firmware march, or a MARCH in flight whose partition runs (R168, R170). -/
def State.bankLocked (s : State) (t b : Nat) : Bool :=
  match (s.tile t).fwMarch with
  | some m => bitOf m.mask b
  | none => s.engineBusy t 3 && s.tileRuns t && wOp (s.heldWord t 3) == 0x88 &&
      bitOf ((s.engine t 3).ops.headD 0).toNat b

/-- A handover of bank `b` to the value `v`, which waits while a march runs on the bank (R158). A reserved code is ignored. -/
def State.handOver (s : State) (t b v : Nat) : State :=
  if ownerCodeOk (v % 256) = false then s
  else if s.bankLocked t b then s.setBank t b { s.bank t b with handover := (s.bank t b).handover ++ [BitVec.ofNat 32 v] }
  else s.setOwner t b v

/-- The handovers that waited for a march take effect. -/
def State.lateHandovers (s : State) (t mask : Nat) : State :=
  (List.range 48).foldl (fun s b =>
    if bitOf mask b ∧ (s.bank t b).handover.isEmpty = false then
      (s.bank t b).handover.foldl (fun s v => s.setOwner t b v.toNat) (s.setBank t b { s.bank t b with handover := [] })
    else s) s

/-- The march of a program's MARCH is over with its banks as the tile is reset (R158). -/
def State.dropMarch (s : State) (t : Nat) : State :=
  if tileType t = 2 ∧ s.engineBusy t 3 = true ∧ wOp (s.heldWord t 3) = 0x88 then
    s.lateHandovers t ((s.engine t 3).ops.headD 0).toNat
  else s

/-! ## Reads and writes -/

/-- Errors of a bank read by a master serving `part` (R173): the step in progress of that partition is marked. -/
def State.eccBank (s : State) (t : Nat) (part : Option Nat) (e : ReadEcc) : State :=
  let s := (s.countEcc (Reg.BIL_ECC_CNT.CE t) e.ce).countEcc (Reg.BIL_ECC_CNT.UE t) e.ue
  if e.ue = 0 then s
  else
    (match part with
      | some p => s.markOpen p 3
      | none => s).suspect t

/-- `n` bytes at a direct address of a bank. What a FAILED bank holds is not defined (R169), so its bytes are free. -/
def State.readBank (s : State) (t a n : Nat) : Nat × State :=
  if s.failedBank t (bankOf a) then (s.fresh % 256 ^ n, s.took) else (s.lnum t a n, s)

/-- Bytes written through the direct, bit-set or bit-clear window, at a direct address (R161). -/
def State.writeBank (s : State) (t : Nat) (w : Window) (a n v : Nat) : State :=
  let old := s.lnum t a n
  let new := match w with
    | .bitSet => old ||| v
    | .bitClear => old &&& (256 ^ n - 1 - v % 256 ^ n)
    | _ => v
  s.writeNum (storeAt t a) n new

/-- The bytes of the owner window from offset `o`: entry n holds BIL_OWNn and four zero bytes (R157). -/
def State.ownerBytes (s : State) (t o n : Nat) : List Byte :=
  (List.range n).map (fun i =>
    BitVec.ofNat 8 (if (o + i) % 8 < 4 then (s.reg (Reg.BIL_OWN t ((o + i) / 8))).toNat / 256 ^ ((o + i) % 8) else 0))

/-- What an access of a master to the mover port, or of the window, ends in. -/
inductive PortResult where
  | done
  | waits
  | violation
  | outside
deriving DecidableEq, Repr

/-- A violation at the mover port is recorded (R160): a host function is frozen, and firmware and the security core are refused alone. The
partition that a mover serves is frozen by the permission fault that the same access raises (R181, R188). `kind` is 1 read, 2 write,
3 handover. -/
def State.portViolation (s : State) (t a b code : Nat) (part : Option Nat) (kind : Nat) : State :=
  let own := s.fld (Reg.BIL_OWN.OWNER t b)
  let s := s.setReg (Reg.BIL_VIOL t) (BitVec.ofNat 32 (2 ^ 31 + kind * 2 ^ 24 + code * 2 ^ 16 + own * 2 ^ 8 + b))
  let d := bankDetail b own code kind
  if 0xC0 ≤ code then s.hostViolation (code - 0xC0) 1 t a d
  else s.logFault ⟨BitVec.ofNat 64 s.tick, t, codeViolation, part.getD 0xFFFF, a, d⟩

/-- The entries of the owner window that a write touches, with the value written and whether it covers bytes 0 to 3 (R157). -/
def ownerWrites (o : Nat) (data : List Byte) : List (Nat × Nat × Bool) :=
  (List.range 48).filterMap (fun b =>
    let inEntry := (List.range 4).map (fun i => decide (o ≤ 8 * b + i) && decide (8 * b + i < o + data.length))
    if inEntry.any id then
      some (b, leNat ((List.range 4).map (fun i => data.getD (8 * b + i - o) 0)), inEntry.all id)
    else none)

/-- A write to one entry of the owner window: whether it is a violation, and the state after it (R157). -/
def State.ownerEntry (s : State) (t code : Nat) (part : Option Nat) (e : Nat × Nat × Bool) : Bool × State :=
  let b := e.1
  let v := e.2.1
  if e.2.2 = false then (true, s.portViolation t (0xC00000 + 8 * b) b code part 3)
  else if v = (s.reg (Reg.BIL_OWN t b)).toNat then (false, s)
  else if s.mayHandOver t b code part = false then (true, s.portViolation t (0xC00000 + 8 * b) b code part 3)
  else (false, s.handOver t b v)

/-- A write to the owner window acts on each entry in ascending order, each as its own access (R157). -/
def State.ownerWrite (s : State) (t code : Nat) (part : Option Nat) (es : List (Nat × Nat × Bool)) : Bool × State :=
  es.foldl (fun r e => (r.1 || (r.2.ownerEntry t code part e).1, (r.2.ownerEntry t code part e).2)) (false, s)

/-- A read of `n` bytes through the mover port or the SRAM window: the bytes, and the state after it. A locked bank makes the
access wait. -/
def State.portRead (s : State) (t a n code : Nat) (part : Option Nat) (ecc : ReadEcc) : PortResult × List Byte × State :=
  match windowOf a, windowOf (a + n - 1) with
  | some (.owner, o), some (.owner, _) => (.done, s.ownerBytes t o n, s)
  | some (w, d), some (w', d') =>
    if w ≠ w' then (.outside, [], s)
    else if s.bankLocked t (bankOf d) || s.bankLocked t (bankOf d') then (.waits, [], s)
    else if s.bankLegal t (bankOf d) code part true = false then (.violation, [], s.portViolation t a (bankOf d) code part 1)
    else if s.bankLegal t (bankOf d') code part true = false then (.violation, [], s.portViolation t a (bankOf d') code part 1)
    else
      let r := (s.flipBytes (storeAt t d) n ecc).readBank t d n
      (.done, natLE n r.1, r.2.eccBank t part ecc)
  | _, _ => (.outside, [], s)

/-- A write through the mover port or the SRAM window. One through the bit-set or bit-clear window reads the bytes first (R161, R173). -/
def State.portWrite (s : State) (t a : Nat) (data : List Byte) (code : Nat) (part : Option Nat) (ecc : ReadEcc) : PortResult × State :=
  let n := data.length
  match windowOf a, windowOf (a + n - 1) with
  | some (.owner, o), some (.owner, _) =>
    let r := s.ownerWrite t code part (ownerWrites o data)
    (if r.1 then .violation else .done, r.2)
  | some (w, d), some (w', d') =>
    if w ≠ w' then (.outside, s)
    else if s.bankLocked t (bankOf d) || s.bankLocked t (bankOf d') then (.waits, s)
    else if s.bankLegal t (bankOf d) code part false = false then (.violation, s.portViolation t a (bankOf d) code part 2)
    else if s.bankLegal t (bankOf d') code part false = false then (.violation, s.portViolation t a (bankOf d') code part 2)
    else if w = .direct then (.done, s.writeBank t w d n (leNat data))
    else (.done, ((s.flipBytes (storeAt t d) n ecc).eccBank t part ecc).writeBank t w d n (leNat data))
  | _, _ => (.outside, s)

/-- The value an atomic of R196 writes over `old`. -/
def atomicNew (op : AccessOp) (old : Nat) : Nat :=
  match op with
  | .atomicAdd v => (old + v.toNat) % 2 ^ 64
  | .atomicAnd v => old &&& v.toNat
  | .atomicOr v => old ||| v.toNat
  | .atomicSwap v => v.toNat
  | .atomicCas c v => if old = c.toNat then v.toNat else old
  | .read _ => old
  | .write _ => old

/-- An atomic on a bank: it must be the direct window's, aligned, and legal as a write (R156, R196). -/
def State.portAtomic (s : State) (t a code : Nat) (part : Option Nat) (op : AccessOp) (ecc : ReadEcc) : PortResult × List Byte × State :=
  if 0x300000 ≤ a ∨ a % 8 ≠ 0 then (.outside, [], s)
  else if s.bankLocked t (bankOf a) then (.waits, [], s)
  else if s.bankLegal t (bankOf a) code part false = false then (.violation, [], s.portViolation t a (bankOf a) code part 2)
  else
    let r := (s.flipBytes (storeAt t a) 8 ecc).readBank t a 8
    (.done, natLE 8 r.1, (r.2.eccBank t part ecc).writeBank t .direct a 8 (atomicNew op r.1))

/-- An access of the master with requester code `code` that serves `part`. -/
def State.portAccess (s : State) (t a code : Nat) (part : Option Nat) (op : AccessOp) (ecc : ReadEcc) : PortResult × List Byte × State :=
  match op with
  | .read n => s.portRead t a n code part ecc
  | .write data =>
    let r := s.portWrite t a data code part ecc
    (r.1, [], r.2)
  | _ => s.portAtomic t a code part op ecc

/-! ## The tile's own program -/

/-- The first address of a program's access of `n` bytes at a direct address that R156 refuses. -/
def State.progRefused (s : State) (t d : Nat) (read : Bool) : Bool := !s.bankLegal t (bankOf d) 1 (s.partOf t) read

/-- A unit of the store written by an engine of the tile: in a Billet tile the bank must be the program's (R156). The state, or
the local address of the violation. -/
def State.progWrite (s : State) (t a : Nat) (v : Payload) : State ⊕ Nat :=
  if tileType t = 2 ∧ s.progRefused t a false then .inr a else .inl (s.setLunit t a v)

/-- A unit of the store read by an engine of the tile. -/
def State.progRead (s : State) (t a : Nat) : (Payload × State) ⊕ Nat :=
  if tileType t = 2 then
    if s.progRefused t a true then .inr a
    else
      let r := s.readBank t a 128
      .inl (BitVec.ofNat 1024 r.1, r.2)
  else .inl (s.lunit t a, s)

/-- A bank of the tile's own store that an engine would reach is locked by a march, so that the engine waits (R168). -/
def State.progWaits (s : State) (t a : Nat) : Bool := tileType t == 2 && s.bankLocked t (bankOf a)

/-- A WLD that has begun to read uses the half of W staging that holds address `a` (R104). -/
def State.wldUses (s : State) (t a : Nat) : Bool :=
  let w := s.heldWord t 3
  let n := bits w 48 4
  tileType t == 0 && s.engineBusy t 3 && wOp w == 0x40 && s.tileRuns t && decide (0 < (s.reg (Reg.SEQ_PROG t 3)).toNat) &&
    decide (s.strm t n 0 / 0x80000 ≤ a / 0x80000) &&
    decide (a / 0x80000 ≤ (s.sRow t n (s.sOuter t n - 1) + 128 * s.sInner t n - 1) / 0x80000)

/-- A write by an engine of the tile waits: for a march, or for a WLD that uses the half it writes. -/
def State.progWaitsWrite (s : State) (t a : Nat) : Bool := s.progWaits t a || s.wldUses t a

/-- The ECC counters of a tile's own store, by tile type (R122, R127, R173, R215). -/
def State.eccStore (s : State) (t : Nat) (e : ReadEcc) : State :=
  match tileType t with
  | 0 => s.eccTile t (Reg.ANV_ECC_CNT.CE t) (Reg.ANV_ECC_CNT.UE t) e
  | 1 => s.eccTile t (Reg.TMP_ECC_CNT.CE t) (Reg.TMP_ECC_CNT.UE t) e
  | 2 => s.eccTile t (Reg.BIL_ECC_CNT.CE t) (Reg.BIL_ECC_CNT.UE t) e
  | _ => if e.ue = 0 then s else (s.markTile t 3).suspect t

/-! ## The march engine -/

/-- The banks of a mask. -/
def maskBanks (mask : Nat) : List Nat := (List.range 48).filter (bitOf mask)

/-- Every byte of a unit is `v`. -/
def fillUnit (v : Nat) : Payload := BitVec.ofNat 1024 ((List.range 16).foldl (fun n i => n + v % 2 ^ 64 * 2 ^ (64 * i)) 0)

/-- The PATTERN lanes of the unit at local address `a` (R168). -/
def patternUnit (a pat : Nat) : Payload :=
  BitVec.ofNat 1024 ((List.range 16).foldl (fun n i => n + (pat % 2 ^ 64 ^^^ (a + 8 * i)) * 2 ^ (64 * i)) 0)

/-- The units of a march before its first pass ends, or of the whole march (R170). -/
def marchUnits (op : Nat) : Nat := if op = 3 then 3072 else 512

/-- A row of the banks that `mismatch` names is marked failing (R169). -/
def State.markRows (s : State) (t mask row mismatch : Nat) : State :=
  (maskBanks mask).foldl (fun s b =>
    if bitOf mismatch b ∧ (s.bank t b).failing.contains row = false then
      let k := s.bank t b
      let found := if k.found.contains row then k.found else k.found ++ [row]
      let s := s.setBank t b { k with failing := k.failing ++ [row], found := found }
      s.setFld (Reg.BIL_REPAIR.FAILROWS t b) (satAt 255 found.length)
    else s) s

/-- A bank becomes FAILED (R169). -/
def State.failBank (s : State) (t b : Nat) : State :=
  let s := s.setFlag (Reg.BIL_REPAIR.FAILED t b) true
  let s := s.setReg64 (Reg.BIL_FAIL_LO t) (s.failMask t ||| 2 ^ b)
  s.setFlag (Reg.BIL_MARCH_STAT.FAILED_NEW t) true

/-- The end of a repairing pass on one bank (R169): each failing row is mapped to the next free spare row, and the bank is FAILED where it has
more than 8 failing rows, where the spares do not suffice, or where the second pass still fails. -/
def State.repairBank (s : State) (t b pass : Nat) : State :=
  let k := s.bank t b
  if k.failing.isEmpty then s
  else
    let room := 8 - k.spares.length
    let s := s.setBank t b { k with spares := k.spares ++ k.failing.take room, again := decide (0 < room) }
    let s := s.setFld (Reg.BIL_REPAIR.SPARES t b) (s.bank t b).spares.length
    if pass ≠ 0 ∨ 8 < k.failing.length ∨ room < k.failing.length then s.failBank t b else s

/-- The failing rows of a mask's banks are forgotten as a pass begins, and with the first pass those that BIL_REPAIRn shows for the last test. -/
def State.beginPass (s : State) (t mask : Nat) (first : Bool) : State :=
  (maskBanks mask).foldl (fun s b =>
    let k := s.bank t b
    let s := s.setBank t b { k with failing := [], found := if first then [] else k.found, again := !first && k.again }
    if first then s.setFld (Reg.BIL_REPAIR.FAILROWS t b) 0 else s) s

/-- Unit `c` of a march on the banks of `mask`: the state after it, and whether the march has ended (R168 to R170). -/
def State.marchUnit (s : State) (t op mask pat c : Nat) (repair : Bool) (ecc : ReadEcc) (mismatch : Nat) : State × Bool :=
  let put := fun (s : State) (u : Nat) (f : Nat → Payload) =>
    (maskBanks mask).foldl (fun s b => s.setLunit t (0x10000 * b + 128 * u) (f (0x10000 * b + 128 * u))) s
  match op with
  | 0 => (put s c (fun _ => 0), decide (511 ≤ c))
  | 1 => (put s c (fun _ => fillUnit pat), decide (511 ≤ c))
  | 2 => (put s c (fun a => patternUnit a pat), decide (511 ≤ c))
  | 3 =>
    let pass := c / 3072
    let el := c % 3072 / 512
    let u := if el = 3 ∨ el = 4 then 511 - c % 512 else c % 512
    let s := if c % 3072 = 0 then s.beginPass t mask (pass == 0) else s
    let s := if el = 0 then s else s.markRows t mask (u / 8) mismatch
    let s := if el = 5 then s else put s u (fun _ => if el = 1 ∨ el = 3 then fillUnit (2 ^ 64 - 1) else 0)
    if c % 3072 = 3071 then
      if repair then
        let s := (maskBanks mask).foldl (fun s b => s.repairBank t b pass) s
        (s, pass != 0 || (maskBanks mask).all (fun b => !(s.bank t b).again))
      else (s, true)
    else (s, false)
  | _ =>
    let s := if c = 0 then s.beginPass t mask true else s
    let s := s.markRows t mask (c / 8) mismatch
    let s := (s.countEcc (Reg.BIL_ECC_CNT.CE t) ecc.ce).countEcc (Reg.BIL_ECC_CNT.UE t) ecc.ue
    let s := if ecc.ue = 0 then s else
        let s := s.setFlag (Reg.BIL_MARCH_STAT.UE t) true
        (maskBanks mask).foldl (fun s b =>
          if s.fld (Reg.BIL_OWN.OWNER t b) = 0 then s else s.markOpen (s.fld (Reg.BIL_OWN.PART t b)) 3) s
    (s, decide (511 ≤ c))

end Sys2Proof.Machine
end

