-- ==== Sys2Proof/Machine/Sequencer.lean ====
section
/-! DEFINITION. The tile sequencer and the common instructions (chapter 04). A command of an instruction's row is one attempt of the
sequencer to issue the word at its program counter: where the word is another instruction's, the command has no effect; where it
must wait (R61), the tile is left in WAIT. -/
namespace Sys2Proof.Machine

/-! ## The sequencer -/

def State.pc (s : State) (t : Nat) : Nat := s.fld (Reg.SEQ_STATUS.PC t)
def State.setPc (s : State) (t a : Nat) : State := s.setFld (Reg.SEQ_STATUS.PC t) (a % 4096)
def State.seqState (s : State) (t : Nat) : Nat := s.fld (Reg.SEQ_STATUS.STATE t)
def State.setSeqState (s : State) (t n : Nat) : State := s.setFld (Reg.SEQ_STATUS.STATE t) n

/-- An instruction word of the Active half (R61, R86). -/
def State.imemWord (s : State) (t a : Nat) : Nat := s.num (imemAt t (s.fld (Reg.SEQ_IMEM.ACTIVE t)) a) 8

/-- The register that keeps the VALUE of a tile's last fault of its own kinds (Tables 05-12, 06-10, 07-9 and 09-14). -/
def faultValueReg (t : Nat) : Nat :=
  match tileType t with
  | 0 => Reg.ANV_FAULT_VALUE t
  | 1 => Reg.TMP_FAULT_VALUE t
  | 2 => Reg.BIL_FAULT_VALUE t
  | _ => Reg.MOV_FAULT_VALUE t

/-- A fault raised by the sequencer or an engine: TILE_SEQ_FAULT and the record with the detail of Table 04-7, and the partition
freezes (R92). `engine` is none for a fault at issue. VALUE of a tile type's own kind is kept in its register. -/
def State.seqFault (s : State) (t code kind : Nat) (engine : Option Nat) (pc value : Nat) : State :=
  let e := engine.getD 0
  let s := s.setReg (Reg.SEQ_FAULT t) (BitVec.ofNat 32 (2 ^ 31 + ofBool engine.isNone * 2 ^ 26 + e * 2 ^ 24 + kind * 2 ^ 16 + pc))
  let s := if 0x40 ≤ kind then s.setReg (faultValueReg t) (BitVec.ofNat 32 value) else s
  s.faultTile t code (pc + kind * 2 ^ 16 + engine.getD 0xFF * 2 ^ 24 + value % 2 ^ 32 * 2 ^ 32)

/-- A fault at issue of the word at the program counter. -/
def State.issueFault (s : State) (t code kind value : Nat) : State := s.seqFault t code kind none (s.pc t) value

/-- The instruction retires and control goes on at the next address (R72). -/
def State.retire (s : State) (t : Nat) : State := (s.setPc t (s.pc t + 1)).setSeqState t 1

/-- The sequencer waits with the instruction (R61). -/
def State.seqWait (s : State) (t : Nat) : State := s.setSeqState t 2

/-- The open loop frames: those before the lowest-numbered frame whose VALID is 0 (R93). -/
def State.openFrames (s : State) (t : Nat) : Nat :=
  ((List.range 4).find? (fun n => !s.flag (Reg.SEQ_LOOP_CTL.VALID t n))).getD 4

/-- The words that the busy engines among `es` hold. -/
def State.heldInfos (s : State) (t : Nat) (es : List Nat) : List OpInfo :=
  (es.filter (s.engineBusy t)).filterMap (fun e => opInfo (tileType t) (s.heldWord t e))

/-- The specifiers of registers that an instruction in flight on an engine among `es` will still write; g0 and p0 are none (R62, R64). -/
def State.pendingWrites (s : State) (t : Nat) (es : List Nat) : List Nat :=
  ((s.heldInfos t es).flatMap (·.writes)).filter (fun n => n != 0 && n != 0x20)

/-- The specifiers of the stream fields that an instruction in flight on an engine among `es` reads (R62). -/
def State.pendingStreams (s : State) (t : Nat) (es : List Nat) : List Nat :=
  ((s.heldInfos t es).flatMap (·.streams)).flatMap (fun n => (List.range 4).map (fun f => 0x40 + 4 * n + f))

/-- The specifiers a word reads: its operands, the fields of its streams, and for ENDL the IDX register it will write. -/
def OpInfo.readSpecs (i : OpInfo) : List Nat :=
  i.reads ++ i.streams.flatMap (fun n => (List.range 4).map (fun f => 0x40 + 4 * n + f))

/-- The register dependences of R62 on the instructions of engines `es` that hold a word back. -/
def State.hazardOf (s : State) (t : Nat) (es : List Nat) (w : Nat) : Bool :=
  match opInfo (tileType t) w with
  | none => false
  | some i =>
    let idx := if wOp w = 0x1A ∧ 0 < s.openFrames t then [s.fld (Reg.SEQ_LOOP_IDX.IDX t (s.openFrames t - 1))] else []
    let ws := i.writes ++ idx
    (i.readSpecs ++ ws).any (fun n => (s.pendingWrites t es).contains n) || ws.any (fun n => (s.pendingStreams t es).contains n)

/-- The engines of a tile. -/
def allEngines : List Nat := [0, 1, 2, 3]

/-- The register dependences of R62 that hold a word back. -/
def State.hazard (s : State) (t w : Nat) : Bool := s.hazardOf t allEngines w

/-- Every engine of a mask is idle. E3 of a port tile runs no instruction: it is idle when every command that the tile queued
has completed (R81, R214). -/
def State.enginesIdle (s : State) (t mask : Nat) : Bool :=
  (List.range 4).all (fun e => !bitOf mask e || (!s.engineBusy t e &&
    (e != 3 || tileType t != 3 || (List.range 4).all (fun m => (s.mover (4 * tileBay t + m)).queue.isEmpty))))

/-- QUENCH is in flight: the sequencer issues nothing after it (log 12). -/
def State.quenching (s : State) (t : Nat) : Bool := s.engineBusy t 0 && wOp (s.heldWord t 0) == 0x31

/-- The engine that a word runs on can accept it (R62). A firmware march holds E3 of a Billet tile (R171). -/
def State.engineFree (s : State) (t w : Nat) : Bool :=
  match (opInfo (tileType t) w).bind (·.engine) with
  | none => true
  | some e => !s.engineBusy t e && (e != 3 || (s.tile t).fwMarch.isNone)

/-- The word reaches the END of the innermost loop frame and is not ENDL (R73). -/
def State.atLoopEnd (s : State) (t w : Nat) : Bool :=
  decide (0 < s.openFrames t) && s.fld (Reg.SEQ_LOOP_CTL.END t (s.openFrames t - 1)) == s.pc t && wOp w != 0x1A

/-- One attempt to issue the word at the program counter, as an instruction that `mine` accepts and that `body` executes: the
fetch (R87), the decode checks (R68), the predicate (R67), the dependences (R61, R62) and the end of a loop body (R73). -/
def State.issue (s : State) (t : Nat) (fetch : Ecc) (mine : Nat → Bool) (body : Nat → State → State) : State :=
  if s.tileWorks t = false ∨ (s.seqState t ≠ 1 ∧ s.seqState t ≠ 2) ∨ s.quenching t = true then s
  else if fetch = .uncorrectable then ((s.markTile t 3).suspect t).issueFault t codeAborted 0x31 0
  else
    let w := s.imemWord t (s.pc t)
    let s' := if fetch = .corrected then s.satFld (Reg.SEQ_IMEM.CE t) 1 else s
    match decodeFault (tileType t) w with
    | some 0x20 => s'.issueFault t codeViolation 0x20 0
    | some k => if mine w then s'.issueFault t codeViolation k 0 else s
    | none =>
      if mine w = false then s
      else if wPred w ≠ 0 ∧ (s.pendingWrites t allEngines).contains (predSpec (wPred w)) = true then s'.seqWait t
      else if (s.pred t (wPred w) != wPneg w) = false then s'.retire t
      else if s.hazard t w || !s.engineFree t w then s'.seqWait t
      else if s.atLoopEnd t w then s'.issueFault t codeViolation 0x25 0
      else body w s'

/-- The word is of the given opcode. -/
def isOp (op : Nat) (w : Nat) : Bool := wOp w == op

/-- The values of the registers that a word reads. -/
def State.readRegs (s : State) (t w : Nat) : List DWord :=
  (((opInfo (tileType t) w).map (·.reads)).getD []).map (fun n => BitVec.ofNat 64 (s.operand t n))

/-- An engine holds a word with the values it formed (R62, R88). -/
def State.holdWord (s : State) (t e w : Nat) (ops : List Nat) : State :=
  let s := s.setReg64 (Reg.SEQ_INST t e 0) w
  let s := s.setFld (Reg.SEQ_STATUS.BUSY t) (s.fld (Reg.SEQ_STATUS.BUSY t) ||| 2 ^ e)
  let s := s.setReg (Reg.SEQ_PROG t e) 0
  s.setEngine t e ⟨s.pc t, ops.map (BitVec.ofNat 64), BitVec.ofNat 64 w, s.readRegs t w⟩

/-- A long instruction is issued to its engine with the values it formed (R62, R88). -/
def State.startEngine (s : State) (t e w : Nat) (ops : List Nat) : State := (s.holdWord t e w ops).retire t

/-- The units that the instruction in flight on an engine has completed (R88). -/
def State.prog (s : State) (t e : Nat) : Nat := (s.reg (Reg.SEQ_PROG t e)).toNat
def State.setProg (s : State) (t e n : Nat) : State := s.setReg (Reg.SEQ_PROG t e) (BitVec.ofNat 32 n)

/-- The instruction on an engine completes. -/
def State.completeEngine (s : State) (t e : Nat) : State :=
  s.setFld (Reg.SEQ_STATUS.BUSY t) (withBits (s.fld (Reg.SEQ_STATUS.BUSY t)) e 1 0)

/-- A fault of the instruction in flight on an engine. -/
def State.unitFault (s : State) (t e code kind value : Nat) : State := s.seqFault t code kind (some e) (s.engine t e).pc value

/-- An operand that the instruction on an engine read at issue. -/
def State.op (s : State) (t e i : Nat) : Nat := ((s.engine t e).ops.getD i 0).toNat

/-! ## The short instructions -/

/-- ADD, SUB, AND, OR, SHL and SHR of a register or immediate form (R70). -/
def aluBody (op : AluOp) (imm : Bool) (t w : Nat) (s : State) : State :=
  let a := BitVec.ofNat 64 (s.operand t (bits w 36 8))
  let b := BitVec.ofNat 64 (if imm then imm32 w else s.operand t (bits w 28 8))
  (s.setOperand t (bits w 44 8) (alu op a b).toNat).retire t

/-- MOV (R70). -/
def movBody (imm : Bool) (t w : Nat) (s : State) : State :=
  (s.setOperand t (bits w 44 8) (if imm then imm32 w else s.operand t (bits w 36 8))).retire t

/-- CMP (R71). -/
def cmpBody (imm : Bool) (t w : Nat) (s : State) : State :=
  let a := BitVec.ofNat 64 (s.operand t (bits w 36 8))
  let b := BitVec.ofNat 64 (if imm then imm32 w else s.operand t (bits w 28 8))
  let c := if imm then bits w 32 3 else bits w 0 3
  (s.setOperand t (bits w 44 8) (ofBool (condHolds c a b))).retire t

/-- The frame's body holds an address (R73). -/
def State.frameHolds (s : State) (t n a : Nat) : Bool :=
  decide (s.fld (Reg.SEQ_LOOP_CTL.START t n) ≤ a) && decide (a ≤ s.fld (Reg.SEQ_LOOP_CTL.END t n))

def State.popFrame (s : State) (t n : Nat) : State := s.setFlag (Reg.SEQ_LOOP_CTL.VALID t n) false

/-- The frames from the innermost outward that do not contain a target are popped; `n` frames are open (R75). -/
def State.popFrames (s : State) (t a : Nat) : Nat → State
  | 0 => s
  | n + 1 => if s.frameHolds t n a then s else (s.popFrame t n).popFrames t a n

/-- BR, taken (R72, R75). -/
def brBody (t w : Nat) (s : State) : State :=
  ((s.popFrames t (bits w 0 12) (s.openFrames t)).setPc t (bits w 0 12)).setSeqState t 1

/-- LOOP (R73, R74). Where one LOOP breaks several rules of R73, the first of these is raised: a fifth level, END not ahead, a trip count too
large; a word at the innermost END comes before all (DESIGN CHOICE, log 48). -/
def loopBody (t w : Nat) (s : State) : State :=
  let n := s.openFrames t
  let endA := bits w 24 12
  let trip := if bitOf w 23 then bits w 0 16 else s.operand t (bits w 44 8)
  if 4 ≤ n then s.issueFault t codeViolation 0x24 0
  else if endA ≤ s.pc t then s.issueFault t codeViolation 0x25 0
  else if 2 ^ 32 ≤ trip then s.issueFault t codeViolation 0x26 (trip / 2 ^ 32)
  else if trip = 0 then (s.setPc t (endA + 1)).setSeqState t 1
  else
    let idx := bits w 36 8
    let s := s.setReg (Reg.SEQ_LOOP_REMAIN t n) (BitVec.ofNat 32 (trip - 1))
    let s := s.setReg (Reg.SEQ_LOOP_TOTAL t n) (BitVec.ofNat 32 trip)
    let s := s.setReg (Reg.SEQ_LOOP_CTL t n) (BitVec.ofNat 32 (2 ^ 31 + endA * 2 ^ 16 + (s.pc t + 1) % 4096))
    let s := s.setReg (Reg.SEQ_LOOP_IDX t n) (BitVec.ofNat 32 idx)
    (s.setOperand t idx 0).retire t

/-- ENDL (R73): the iteration number that begins is the trip count less the iterations left after it, less 1. -/
def endlBody (t : Nat) (s : State) : State :=
  match s.openFrames t with
  | 0 => s.issueFault t codeViolation 0x25 0
  | n + 1 =>
    let left := s.fld (Reg.SEQ_LOOP_REMAIN.COUNT t n)
    if s.fld (Reg.SEQ_LOOP_CTL.END t n) ≠ s.pc t then s.issueFault t codeViolation 0x25 0
    else if left = 0 then (s.popFrame t n).retire t
    else
      let s := s.setReg (Reg.SEQ_LOOP_REMAIN t n) (BitVec.ofNat 32 (left - 1))
      let s := s.setOperand t (s.fld (Reg.SEQ_LOOP_IDX.IDX t n)) (s.fld (Reg.SEQ_LOOP_TOTAL.COUNT t n) - left)
      (s.setPc t (s.fld (Reg.SEQ_LOOP_CTL.START t n))).setSeqState t 1

/-- SHAPE (R80). -/
def shapeBody (t w : Nat) (s : State) : State :=
  let v := s.operand t (bits w 36 8) % 2 ^ 32
  if bits w 0 24 < v then s.issueFault t codeShapeLimit 0x30 v
  else ((s.setOperand t (bits w 44 8) (roundShape v (bits w 30 3))).setOperand t (predSpec (bits w 33 3)) (ofBool (v = 0))).retire t

/-- FENCE (R81). -/
def fenceBody (t w : Nat) (s : State) : State :=
  let mask := if bits w 0 4 = 0 then 15 else bits w 0 4
  if s.enginesIdle t mask && (!bitOf w 4 || (List.range 32).all (fun q => !s.localIn t q || (s.queue t q).held.isEmpty)) then
    s.retire t
  else s.seqWait t

/-- HALT (R84). The program counter stays on it (DESIGN CHOICE, log 48). -/
def haltBody (t : Nat) (s : State) : State := if s.enginesIdle t 15 then s.setSeqState t 4 else s.seqWait t

/-! ## The channel instructions -/

/-- The check of RECV, PEEK and BSCAT on their queue, and that of SEND and BGATH (R76, R77). -/
def State.recvQueueOk (s : State) (t q : Nat) : Bool := s.localOut t q
def State.sendQueueOk (s : State) (t q : Nat) : Bool := s.localIn t q

/-- The first issue check that a word of a common long instruction fails: its code, kind and VALUE (R66, R76 to R78). The spec does not order
the check of the queue and that of the stream: the queue's comes first (DESIGN CHOICE, log 48). -/
def State.commonIssueFault (s : State) (t w : Nat) : Option (Nat × Nat × Nat) :=
  let q := bits w 31 5
  let n := bits w 27 4
  match wOp w with
  | 0x20 =>
    if s.recvQueueOk t q = false then some (codeViolation, 0x23, q)
    else if s.streamOk t n = false then some (codeViolation, 0x27, 0) else none
  | 0x21 =>
    if s.sendQueueOk t q = false then some (codeViolation, 0x23, q)
    else if s.streamOk t n = false then some (codeViolation, 0x27, 0) else none
  | 0x22 => if s.recvQueueOk t q = false then some (codeViolation, 0x23, q) else none
  | _ => none

/-- RECV and SEND are issued to E0 and E1. -/
def channelBody (e t w : Nat) (s : State) : State :=
  match s.commonIssueFault t w with
  | some f => s.issueFault t f.1 f.2.1 f.2.2
  | none => s.startEngine t e w []

/-- KIND as its code (Table 03-1). -/
def kindCode : FlitKind → Nat
  | .data => 0
  | .dataEnd => 1
  | .empty => 2
  | .quench => 3

/-- What PEEK writes for the flit at the head of its queue, which it reads (R58, R78). -/
def State.peekWrite (s : State) (t w : Nat) (h : Held) (ecc : FlitEcc) : State :=
  let r := s.readHead t h ecc
  (r.2.setOperand t (bits w 44 8) (r.1.toNat % 2 ^ 64)).setOperand t (bits w 36 8)
    (kindCode h.kind + (s.queue t (bits w 31 5)).occ * 2 ^ 16)

/-- PEEK (R78): it completes at once where a flit is at the head, and waits on E0 otherwise. -/
def peekBody (ecc : FlitEcc) (t w : Nat) (s : State) : State :=
  match s.commonIssueFault t w with
  | some f => s.issueFault t f.1 f.2.1 f.2.2
  | none => match s.headFor t (bits w 31 5) 4 with
    | some h => (s.peekWrite t w h ecc).retire t
    | none => s.startEngine t 0 w []

/-! ## QUENCH -/

/-- The queues that phases 1, 2 and 3 of QUENCH still have to serve (R82). -/
def State.quenchPhase1 (s : State) (t : Nat) : List Nat :=
  (List.range 32).filter (fun q => s.localOut t q && s.rtIn t q != 4 && !s.markTaken t q)
def State.quenchPhase2 (s : State) (t : Nat) : List Nat :=
  (List.range 32).filter (fun q => s.localIn t q && !(s.queue t q).quenched && !(s.queue t q).held.any (·.kind == .quench))
def State.quenchPhase3 (s : State) (t : Nat) : List Nat :=
  (List.range 32).filter (fun q => s.localIn t q && s.localOut t q && !s.markTaken t q)

/-- Every phase is complete. -/
def State.quenchOver (s : State) (t : Nat) : Bool :=
  (s.quenchPhase1 t).isEmpty && (s.quenchPhase2 t).isEmpty && (s.quenchPhase3 t).isEmpty

/-- In a port tile, QUENCH waits for every started stream entry and every queued command (R231). -/
def State.moversQuiet (s : State) (t : Nat) : Bool :=
  tileType t != 3 || ((List.range 4).all (fun m => (s.mover (4 * tileBay t + m)).queue.isEmpty &&
    (s.mover (4 * tileBay t + m)).inflight.isEmpty) && (List.range 16).all (fun n =>
      (s.stream (tileBay t) n).started.isEmpty && (s.stream (tileBay t) n).redo.isEmpty))

/-- QUENCH is issued once every engine is idle, and holds E0 and E1 together (R61); a tile with no queue to serve is quenched (R82). The
program counter stays on a QUENCH that has no queue to serve, and steps past one that starts (DESIGN CHOICE, log 48). -/
def quenchBody (t w : Nat) (s : State) : State :=
  if s.enginesIdle t 7 = false ∨ s.engineBusy t 3 then s.seqWait t
  else if s.moversQuiet t && s.quenchOver t then s.setSeqState t 3
  else ((s.holdWord t 1 w []).startEngine t 0 w []).setSeqState t 2

/-- QUENCH has completed a unit: both engines that run it count it (R88). -/
def State.quenchCount (s : State) (t : Nat) : State := (s.setProg t 1 (s.prog t 0 + 1)).setProg t 0 (s.prog t 0 + 1)

/-- The tile takes the head flit of a queue through its Local output. -/
def State.takeLocal (s : State) (t q : Nat) : State := s.sendHead t q 4

/-- The tile reads and takes the head flit of a queue, of which it uses only the sideband (R58). -/
def State.takeMark (s : State) (t q : Nat) (ecc : FlitEcc) : State := (s.flitEcc t ecc).takeLocal t q

/-- A phase of QUENCH that takes markers: a flit of another kind at a head it waits on is a fault (R82). -/
def State.quenchTake (s : State) (t : Nat) (qs : List Nat) (ecc : FlitEcc) : State :=
  match qs.find? (fun q => match s.headFor t q 4 with
    | some h => h.kind != .quench
    | none => false) with
  | some q => s.unitFault t 0 codeViolation 0x28 q
  | none => match qs.find? (fun q => (s.headFor t q 4).isSome) with
    | some q => (s.takeMark t q ecc).quenchCount t
    | none => s

/-- One unit of QUENCH: one marker taken or written (R82). -/
def State.quenchUnit (s : State) (t : Nat) (ecc : FlitEcc) : State :=
  if s.moversQuiet t = false then s
  else
    let s := if (s.quenchPhase1 t).isEmpty = false then s.quenchTake t (s.quenchPhase1 t) ecc
      else match s.quenchPhase2 t with
        | q :: qs => match (q :: qs).find? (fun q => !s.noRoom t q) with
          | some q => (s.pushFlit t q ⟨.quench, 0⟩).quenchCount t
          | none => s
        | [] => s.quenchTake t (s.quenchPhase3 t) ecc
    if s.quenchOver t ∧ s.tileRuns t then ((s.completeEngine t 0).completeEngine t 1).setSeqState t 3 else s

/-! ## Units of RECV, SEND and PEEK -/

/-- RECV ends with a count and PE (R76). Where DST names the predicate of PE too, PE is written last, as PZ of SHAPE and DST2 of PEEK are
(DESIGN CHOICE, log 48). -/
def State.recvEnd (s : State) (t w n : Nat) (pe : Bool) : State :=
  ((s.setOperand t (bits w 44 8) n).setOperand t (predSpec (bits w 24 3)) (ofBool pe)).completeEngine t 0

/-- One unit of RECV: one flit (R76). -/
def State.recvUnit (s : State) (t w : Nat) (ecc : FlitEcc) : State :=
  let q := bits w 31 5
  let n := bits w 27 4
  let c := s.prog t 0
  match s.headFor t q 4 with
  | none => s
  | some h =>
    if h.kind = .quench then s.recvEnd t w c true
    else if h.kind = .empty then (s.takeMark t q ecc).recvEnd t w c true
    else if s.sLen t n = 0 then s.recvEnd t w 0 false
    else if s.progWaitsWrite t (s.sAddr t n c) then s
    else
      let r := s.readHead t h ecc
      match r.2.progWrite t (s.sAddr t n c) r.1 with
      | .inr a => s.unitFault t 0 codeViolation 0x40 a
      | .inl s =>
        let s := (s.takeLocal t q).setProg t 0 (c + 1)
        if h.kind = .dataEnd ∨ c + 1 = s.sLen t n then s.recvEnd t w (c + 1) false else s

/-- One unit of SEND: one flit (R77). -/
def State.sendUnit (s : State) (t w : Nat) : State :=
  let q := bits w 31 5
  let n := bits w 27 4
  let c := s.prog t 1
  if s.noRoom t q then s
  else if s.sLen t n = 0 then (s.pushFlit t q ⟨.empty, 0⟩).completeEngine t 1
  else if s.progWaits t (s.sAddr t n c) then s
  else match s.progRead t (s.sAddr t n c) with
    | .inr a => s.unitFault t 1 codeViolation 0x40 a
    | .inl r =>
      let last := decide (c + 1 = s.sLen t n)
      let k := if last && !bitOf w 23 then FlitKind.dataEnd else .data
      let s := (r.2.pushFlit t q ⟨k, r.1⟩).setProg t 1 (c + 1)
      if last then s.completeEngine t 1 else s

/-- PEEK waiting on E0 completes when a flit reaches the head (R78). -/
def State.peekUnit (s : State) (t w : Nat) (ecc : FlitEcc) : State :=
  match s.headFor t (bits w 31 5) 4 with
  | none => s
  | some h => (s.peekWrite t w h ecc).completeEngine t 0

/-! ## The rows -/

def execNop (t : Fin 240) (fetch : Ecc) (s : State) : Host.Outcome State Fault Refusal :=
  .next (s.issue t fetch (isOp 0x00) (fun _ s => s.retire t))
def execMovRegister (t : Fin 240) (fetch : Ecc) (s : State) : Host.Outcome State Fault Refusal :=
  .next (s.issue t fetch (isOp 0x01) (movBody false t))
def execMovImmediate (t : Fin 240) (fetch : Ecc) (s : State) : Host.Outcome State Fault Refusal :=
  .next (s.issue t fetch (isOp 0x02) (movBody true t))
def execAddRegister (t : Fin 240) (fetch : Ecc) (s : State) : Host.Outcome State Fault Refusal :=
  .next (s.issue t fetch (isOp 0x04) (aluBody .add false t))
def execAddImmediate (t : Fin 240) (fetch : Ecc) (s : State) : Host.Outcome State Fault Refusal :=
  .next (s.issue t fetch (isOp 0x05) (aluBody .add true t))
def execSubRegister (t : Fin 240) (fetch : Ecc) (s : State) : Host.Outcome State Fault Refusal :=
  .next (s.issue t fetch (isOp 0x06) (aluBody .sub false t))
def execSubImmediate (t : Fin 240) (fetch : Ecc) (s : State) : Host.Outcome State Fault Refusal :=
  .next (s.issue t fetch (isOp 0x07) (aluBody .sub true t))
def execAndRegister (t : Fin 240) (fetch : Ecc) (s : State) : Host.Outcome State Fault Refusal :=
  .next (s.issue t fetch (isOp 0x08) (aluBody .and false t))
def execAndImmediate (t : Fin 240) (fetch : Ecc) (s : State) : Host.Outcome State Fault Refusal :=
  .next (s.issue t fetch (isOp 0x09) (aluBody .and true t))
def execOrRegister (t : Fin 240) (fetch : Ecc) (s : State) : Host.Outcome State Fault Refusal :=
  .next (s.issue t fetch (isOp 0x0A) (aluBody .or false t))
def execOrImmediate (t : Fin 240) (fetch : Ecc) (s : State) : Host.Outcome State Fault Refusal :=
  .next (s.issue t fetch (isOp 0x0B) (aluBody .or true t))
def execShlRegister (t : Fin 240) (fetch : Ecc) (s : State) : Host.Outcome State Fault Refusal :=
  .next (s.issue t fetch (isOp 0x0C) (aluBody .shl false t))
def execShlImmediate (t : Fin 240) (fetch : Ecc) (s : State) : Host.Outcome State Fault Refusal :=
  .next (s.issue t fetch (isOp 0x0D) (aluBody .shl true t))
def execShrRegister (t : Fin 240) (fetch : Ecc) (s : State) : Host.Outcome State Fault Refusal :=
  .next (s.issue t fetch (isOp 0x0E) (aluBody .shr false t))
def execShrImmediate (t : Fin 240) (fetch : Ecc) (s : State) : Host.Outcome State Fault Refusal :=
  .next (s.issue t fetch (isOp 0x0F) (aluBody .shr true t))
def execCmpRegister (t : Fin 240) (fetch : Ecc) (s : State) : Host.Outcome State Fault Refusal :=
  .next (s.issue t fetch (isOp 0x10) (cmpBody false t))
def execCmpImmediate (t : Fin 240) (fetch : Ecc) (s : State) : Host.Outcome State Fault Refusal :=
  .next (s.issue t fetch (isOp 0x11) (cmpBody true t))
def execBr (t : Fin 240) (fetch : Ecc) (s : State) : Host.Outcome State Fault Refusal :=
  .next (s.issue t fetch (isOp 0x18) (brBody t))
def execLoop (t : Fin 240) (fetch : Ecc) (s : State) : Host.Outcome State Fault Refusal :=
  .next (s.issue t fetch (isOp 0x19) (loopBody t))
def execEndl (t : Fin 240) (fetch : Ecc) (s : State) : Host.Outcome State Fault Refusal :=
  .next (s.issue t fetch (isOp 0x1A) (fun _ => endlBody t))
def execRecv (t : Fin 240) (fetch : Ecc) (s : State) : Host.Outcome State Fault Refusal :=
  .next (s.issue t fetch (isOp 0x20) (channelBody 0 t))
def execSend (t : Fin 240) (fetch : Ecc) (s : State) : Host.Outcome State Fault Refusal :=
  .next (s.issue t fetch (isOp 0x21) (channelBody 1 t))
def execPeek (t : Fin 240) (fetch : PeekFetch) (s : State) : Host.Outcome State Fault Refusal :=
  .next (s.issue t fetch.word (isOp 0x22) (peekBody fetch.flit t))
def execShape (t : Fin 240) (fetch : Ecc) (s : State) : Host.Outcome State Fault Refusal :=
  .next (s.issue t fetch (isOp 0x28) (shapeBody t))
def execFence (t : Fin 240) (fetch : Ecc) (s : State) : Host.Outcome State Fault Refusal :=
  .next (s.issue t fetch (isOp 0x30) (fenceBody t))
def execQuench (t : Fin 240) (fetch : Ecc) (s : State) : Host.Outcome State Fault Refusal :=
  .next (s.issue t fetch (isOp 0x31) (quenchBody t))
def execHalt (t : Fin 240) (fetch : Ecc) (s : State) : Host.Outcome State Fault Refusal :=
  .next (s.issue t fetch (isOp 0x3F) (fun _ => haltBody t))

end Sys2Proof.Machine
end

