-- ==== Sys2Proof/Machine/Taps.lean ====
section
/-! DEFINITION. What the Anvil and Temper tiles share: the counter-based generator (R136), and the Slag taps and witness digests
of chapter 17 (R400 to R404). -/
namespace Sys2Proof.Machine

/-! ## The generator -/

/-- The shift counts of R136. -/
def rngShifts : List Nat := [11, 3, 19, 7, 14, 26, 5, 22]

/-- The words and round keys of the generator. -/
structure Rng where
  x0 : Word
  x1 : Word
  x2 : Word
  x3 : Word
  ka : Word
  kb : Word
deriving DecidableEq, Repr

/-- Round `r` of the generator. -/
def Rng.round (g : Rng) (r : Nat) : Rng :=
  let x0 := (g.x0 ^^^ g.ka) * 0x6F35A1C3
  let x2 := (g.x2 ^^^ g.kb) * 0x91E74B2D
  let x1 := g.x1 + x0.rotateLeft (rngShifts.getD r 0)
  let x3 := g.x3 + x2.rotateLeft (rngShifts.getD (7 - r) 0)
  let x0 := x0 ^^^ (x3 >>> 17)
  let x2 := x2 ^^^ (x1 >>> 13)
  let ka := g.ka + 0x5C4E1D27
  ⟨x3, x0, x1, x2, ka, g.kb ^^^ ka.rotateLeft 9⟩

/-- The four words for key halves k0, k1 and counter words c0 to c3 (R136). -/
def rngWords (k0 k1 c0 c1 c2 c3 : Word) : List Word :=
  let g := (List.range 8).foldl Rng.round ⟨c0, c1, c2, c3, k0, k1⟩
  [g.x0 + k0, g.x1 ^^^ k1, g.x2 + (k0 ^^^ k1), g.x3 ^^^ 0xA3F16B0D]

/-- Word `i` of the generator for a key, position, purpose and draw index (R137). -/
def rngWord (key pos purpose index i : Nat) : Nat :=
  ((rngWords (BitVec.ofNat 32 key) (BitVec.ofNat 32 (key / 2 ^ 32)) (BitVec.ofNat 32 pos)
    (BitVec.ofNat 32 (pos / 2 ^ 32 % 2 ^ 16)) (BitVec.ofNat 32 purpose) (BitVec.ofNat 32 index)).getD i 0).toNat

/-- The uniform value of a word, as FP32 (R136). -/
def uniform (w : Nat) : Nat := toF32 (.fin false (w / 256) (-24))

/-! ## Steps and envelopes -/

/-- The step whose work the partition's tiles are doing: the oldest of the resident job that has not ended. -/
def State.currentStep (s : State) (p : Nat) : Option OpenStep :=
  (s.part p).steps.find? (fun o => o.phase == .running && o.job == s.fld (Reg.PRT_P_STAT.RESIDENT p))

/-- A W1C condition of SLG_STATUS sets (R420): it interrupts firmware where INT_EN allows. -/
def State.slgBit (s : State) (f : Field) : State := (s.setFlag f true).interruptIf (s.flag Reg.SLG_CTRL.INT_EN) 420

/-- The envelope that a tap applies; 0 selects none (R115, R400). -/
def State.envelope (s : State) (t env : Nat) : Option Envelope :=
  if env = 0 then none else (s.partOf t).bind (fun p => ((s.part p).envelopes.getD (env - 1) none))

/-- The producer envelope of a witness pair. -/
def State.producer (s : State) (p pair : Nat) : Option Envelope :=
  ((s.part p).envelopes.filterMap id).find? (fun e => e.wrole == 1 && e.wpair == pair)

/-- The row group that step `n` of partition `p` samples of product `k` of a pair (R403). -/
def State.sampled (s : State) (n p pair k : Nat) : Option Nat :=
  let w := fun i => ((rngWords (s.reg Reg.SLG_WKEY_LO) (s.reg Reg.SLG_WKEY_HI) (BitVec.ofNat 32 n)
    (BitVec.ofNat 32 (n / 2 ^ 32 % 2 ^ 16)) (BitVec.ofNat 32 (0x100 + p)) (BitVec.ofNat 32 (16 * pair + k))).getD i 0).toNat
  match s.producer p pair with
  | none => none
  | some e =>
    let r := max 1 (s.fld Reg.SLG_CTRL.WIT_RATE)
    let x := w 0 % r
    if e.wg = 0 then none
    else if r ≤ e.wg then some (w 1 % e.wg) else if x < e.wg then some x else none

/-! ## The envelopes (R400) -/

/-- The SLG region of a job, as an offset of the slot. -/
def State.slgBase (s : State) (p j : Nat) : Nat :=
  (s.fld (Reg.SLG_P_JOB_BASE_LO.ADDR p j) * 2 ^ 16 + s.fld (Reg.SLG_P_JOB_BASE_HI.ADDR p j) * 2 ^ 32) % 2 ^ 54

/-- An envelope entry, or none where a field lies outside Table 17-2. -/
def envelopeOf (b : List Byte) : Option Envelope :=
  let f := fun o n => leNat ((b.drop o).take n)
  let magOk := match ofF32 (f 0 4) with
    | .nan => false
    | .inf neg => !neg
    | .fin neg m _ => !neg || m == 0
  let roleOk := match f 13 1 with
    | 0 => f 14 1 == 0 && f 15 1 == 0
    | 1 => decide (f 14 1 < 32) && decide (1 ≤ f 15 1) && decide (f 15 1 ≤ 128)
    | 2 => decide (f 14 1 < 32) && f 15 1 == 0
    | _ => false
  if magOk && roleOk && decide (f 12 1 < 8) then
    some ⟨BitVec.ofNat 32 (f 0 4), BitVec.ofNat 32 (f 4 4), BitVec.ofNat 32 (f 8 4), BitVec.ofNat 8 (f 12 1), f 13 1, f 14 1, f 15 1⟩
  else none

/-- The SLG block reads the Active table of the resident job into every tap of the partition (R400). A job with no region in use has
no envelope. -/
def State.readEnvelopes (s : State) (p : Nat) : State :=
  let j := s.fld (Reg.PRT_P_STAT.RESIDENT p)
  if s.flag (Reg.SLG_P_JOB_CTL.VALID p j) = false then s.modPart p (fun x => { x with envelopes := [] })
  else
    let base := s.slgBase p j + (if s.flag (Reg.SLG_P_JOB_CTL.ENVSEL p j) then 0x200 else 0x100)
    let es := (List.range' 1 15).map (fun i => envelopeOf (s.bytes (base + 16 * i) 16))
    let s := (s.pass (base + 16) 240 false).modPart p (fun x => { x with envelopes := es })
    if es.any (·.isNone) then s.slgBit Reg.SLG_STATUS.ENV_BAD else s

/-- A swap of the resident job: ENVSEL inverts, and the taps take the table that is Active now (R400). -/
def State.swapEnvelopes (s : State) (p : Nat) : State :=
  let j := s.fld (Reg.PRT_P_STAT.RESIDENT p)
  (s.setFlag (Reg.SLG_P_JOB_CTL.ENVSEL p j) (!s.flag (Reg.SLG_P_JOB_CTL.ENVSEL p j))).readEnvelopes p

/-- The witness selection table of step `n` is written into the resident job's region (R403): entry (w, s) holds the 8 rows of the sampled
row group, or 0xFFFF_FFFF eight times. -/
def State.writeSelection (s : State) (p n : Nat) : State :=
  let j := s.fld (Reg.PRT_P_STAT.RESIDENT p)
  if s.flag Reg.SLG_CTRL.WIT_EN && s.flag (Reg.SLG_P_JOB_CTL.VALID p j) then
    let base := s.slgBase p j + (if n % 2 = 0 then 0x8000 else 0xC000)
    (s.pass base 16384 true).write base ((List.range 512).flatMap (fun i =>
      match s.sampled n p (i / 16) (i % 16) with
      | some g => (List.range 8).flatMap (fun r => natLE 4 (8 * g + r))
      | none => natLE 32 (2 ^ 256 - 1)))
  else s

/-! ## The tap -/

/-- A value passes the envelope (R401). -/
def Envelope.passes (e : Envelope) (v : Nat) : Bool :=
  match ofF32 v with
  | .nan => bitOf e.flags.toNat 0
  | .inf _ => bitOf e.flags.toNat 1
  | .fin _ _ _ => fle (v % 2 ^ 31) e.maxMag.toNat

/-- A tap failure at row `row`: the first of an instruction writes its record (R402). -/
def State.tapFailure (s : State) (t env kind row : Nat) : State :=
  let s := s.add64 Reg.SLG_SLAG_LO 1
  let s := (s.markTile t 1).suspect t
  match (s.tile t).tapFail with
  | some _ => s
  | none =>
    let p := (s.partOf t).getD 0xFFFF
    (s.modTile t (fun x => { x with tapFail := some row })).logFault
      ⟨BitVec.ofNat 64 s.tick, t, codeReplayed, p, s.stepNo p, kind + env * 2 ^ 8 + row * 2 ^ 32⟩

/-- The sum of squares of a row's finite values (R401). -/
def rowSsq (vals : List Nat) : Nat :=
  reduceRow fadd 0 (vals.map (fun v => if (ofF32 v).isFinite then fmul v v else 0))

/-- Row `row` of an instruction passes envelope `env`; `last` says that no row follows (R401). Neither the row nor the
instruction changes. -/
def State.tapRow (s : State) (t env row : Nat) (last : Bool) (vals : List Nat) : State :=
  let s := if row = 0 then s.modTile t (fun x => { x with tapFail := none }) else s
  match s.envelope t env with
  | none => s
  | some e =>
    let s := if vals.all e.passes then s else s.tapFailure t env 1 row
    if bitOf e.flags.toNat 2 then
      let sum := if row % 8 = 0 then rowSsq vals else fadd (s.tile t).tapSum.toNat (rowSsq vals)
      let s := s.modTile t (fun x => { x with tapSum := BitVec.ofNat 32 sum })
      if (row % 8 = 7 ∨ last) ∧ (fle e.ssqMin.toNat sum && fle sum e.ssqMax.toNat) = false then
        s.tapFailure t env 2 (row / 8 * 8)
      else s
    else s

/-! ## Witness digests (R404) -/

/-- The digest of values in order, begun at index `k`. -/
def digestFrom (k : Nat) (d : DWord) : List Nat → DWord
  | [] => d
  | v :: vs => digestFrom (k + 1) (d + BitVec.ofNat 64 (v * (2 * k + 1))) vs

/-- A digest goes to the SLG block. -/
def State.sendDigest (s : State) (t pair product cols : Nat) (witness : Bool) : State :=
  match s.partOf t with
  | none => s
  | some p => s.modPart p (fun x => { x with
      digests := x.digests ++ [⟨((s.currentStep p).map (·.n)).getD 0, witness, pair, product, t, cols, (s.tile t).digest⟩] })

/-- The count that a tap holds for an envelope in the step. -/
def State.tapCount (s : State) (t env : Nat) : Nat := Sparse.get (fun _ => 0) (s.tile t).witness env

/-- A DRAIN with a witness role begins: a producer DRAIN from row 0 is a new product, and a witness DRAIN is one by itself. -/
def State.witnessBegin (s : State) (t env row0 : Nat) : State :=
  match s.envelope t env with
  | none => s
  | some e =>
    if (e.wrole = 1 ∧ row0 = 0) ∨ e.wrole = 2 then
      s.modTile t (fun x => { x with witness := Sparse.set (fun _ => 0) x.witness env (s.tapCount t env + 1) })
    else s

/-- Row `row` of the accumulator half, drained as row `c` of a DRAIN of `rows` rows, enters the digest that the DRAIN forms: of the
sampled row group for a producer, of its 8 rows for a witness. -/
def State.witnessRow (s : State) (t env row c rows : Nat) (vals : List Nat) : State :=
  match s.envelope t env, s.partOf t with
  | some e, some p =>
    let k := s.tapCount t env - 1
    if s.tapCount t env = 0 ∨ 16 ≤ k then s
    else
      let feed := fun (s : State) (i : Nat) => s.modTile t (fun x =>
        let n := if i = 0 then 0 else x.digestCount
        { x with digest := digestFrom n (if i = 0 then 0 else x.digest) vals, digestCount := n + vals.length })
      if e.wrole = 1 then
        match (s.currentStep p).bind (fun o => s.sampled o.n p e.wpair k) with
        | none => s
        | some g =>
          if row / 8 ≠ g then s
          else
            let s := feed s (row % 8)
            if row % 8 = 7 then s.sendDigest t e.wpair k vals.length false else s
      else if e.wrole = 2 ∧ rows = 8 then
        let s := feed s c
        if c = 7 then s.sendDigest t e.wpair k vals.length true else s
      else s
  | _, _ => s

end Sys2Proof.Machine
end

