-- ==== Sys2Proof/Machine/Anvil.lean ====
section
/-! DEFINITION. The Anvil tile (chapter 05): weight blocks, WLD, WSWAP, MMA and DRAIN. -/
namespace Sys2Proof.Machine

/-! ## Formats and block geometry -/

/-- The legal pairs of Table 05-2. -/
def pairOk (af wf : Nat) : Bool :=
  (decide (af ≤ 1) && decide (wf ≤ 4)) || (af == 5 && wf == 5) ||
    (decide (2 ≤ af) && decide (af ≤ 4) && decide (2 ≤ wf) && decide (wf ≤ 4)) || (af == 6 && wf == 6) || (af == 7 && wf == 7)

/-- d of R98: 2 for the double class. -/
def dClass (af : Nat) : Nat := if 2 ≤ af ∧ af ≤ 4 then 2 else 1
/-- s of R98: 2 for 2:4 sparse weights. -/
def sClass (sp : Bool) : Nat := if sp then 2 else 1
/-- The logical K that one block covers. -/
def kBlock (af : Nat) (sp : Bool) : Nat := 1024 * dClass af * sClass sp
/-- The bytes of a block's element, index and scale parts. -/
def elemPart (af wf : Nat) : Nat := 32768 * dClass af * fmtBits wf / 8
def indexPart (af : Nat) (sp : Bool) : Nat := if sp then 8192 * dClass af else 0
def scalePart (af wf : Nat) (sp : Bool) : Nat := if fmtMx wf then kBlock af sp else 0
/-- The units of a block with its header. -/
def blockUnits (af wf : Nat) (sp : Bool) : Nat := 1 + (elemPart af wf + indexPart af sp + scalePart af wf sp) / 128
/-- The units of an A line. -/
def lineUnits (af : Nat) (sp : Bool) : Nat := kBlock af sp * fmtBits af / 8 / 128 + (if fmtMx af then 1 else 0)

/-! ## The weight sets -/

/-- The bytes of a weight set as one number, unit 0 lowest. -/
def setValue : List Payload → Nat
  | [] => 0
  | u :: us => u.toNat + 2 ^ 1024 * setValue us

/-- The header fields of a block (R99). -/
def hdrKidx (h : Nat) : Nat := bits h 0 24
def hdrAf (h : Nat) : Nat := bits h 32 8
def hdrWf (h : Nat) : Nat := bits h 40 8
def hdrSp (h : Nat) : Nat := bits h 48 8
/-- The reserved bytes of a header unit are 0. -/
def hdrClean (h : Nat) : Bool := bits h 24 8 == 0 && h / 2 ^ 56 == 0
/-- A header names the formats of an instruction. -/
def hdrMatches (h af wf : Nat) (sp : Bool) : Bool :=
  hdrAf h == af && hdrWf h == wf && hdrSp h == ofBool sp && hdrClean h
/-- VALUE of kind 0x43 (Table 05-9). -/
def hdrValue (h : Nat) : Nat := hdrAf h + hdrWf h * 2 ^ 8 + hdrSp h * 2 ^ 16

/-- The header unit of the active and of the shadow set. -/
def State.actHeader (s : State) (t : Nat) : Nat := ((s.tile t).wact.headD 0).toNat
def State.shdHeader (s : State) (t : Nat) : Nat := ((s.tile t).wshd.headD 0).toNat
def State.actValid (s : State) (t : Nat) : Bool := s.flag (Reg.ANV_STATUS.ACTIVE_VALID t)
/-- 0 EMPTY, 1 LOADING, 2 FULL (R106). -/
def State.shadow (s : State) (t : Nat) : Nat := s.fld (Reg.ANV_STATUS.SHADOW t)

/-- The fields of a header as ANV_WACT and ANV_WSHD hold them (Table 05-15). -/
def headerWord (h : Nat) (valid : Bool) : Word :=
  BitVec.ofNat 32 (hdrKidx h + hdrAf h % 8 * 2 ^ 24 + hdrWf h % 8 * 2 ^ 27 + hdrSp h % 2 * 2 ^ 30 + ofBool valid * 2 ^ 31)

/-- The shadow set moves into the active set and becomes EMPTY (R106). KIDX, AF, WF and SP of ANV_WSHD stay as they were while VALID is 0
(DESIGN CHOICE, log 55). -/
def State.swapSets (s : State) (t : Nat) : State :=
  let h := s.shdHeader t
  let s := s.modTile t (fun x => { x with wact := x.wshd, wshd := [] })
  let s := s.setReg (Reg.ANV_WACT t) (headerWord h true)
  let s := s.setFlag (Reg.ANV_WSHD.VALID t) false
  (s.setFlag (Reg.ANV_STATUS.ACTIVE_VALID t) true).setFld (Reg.ANV_STATUS.SHADOW t) 0

/-- The sets after a configuration swap or a reset: the active set INVALID and the shadow set EMPTY (R121, R125). The other fields of ANV_WACT
and ANV_WSHD stay as last written while VALID is 0 (DESIGN CHOICE, log 55). -/
def State.dropSets (s : State) (t : Nat) : State :=
  let s := s.modTile t (fun x => { x with wact := [], wshd := [] })
  let s := (s.setFlag (Reg.ANV_WACT.VALID t) false).setFlag (Reg.ANV_WSHD.VALID t) false
  (s.setFlag (Reg.ANV_STATUS.ACTIVE_VALID t) false).setFld (Reg.ANV_STATUS.SHADOW t) 0

/-! ## The array -/

/-- Stored weight `k` of DPU (i, j) of a block: its value and the logical position of its chunk that it multiplies (R99, R100). -/
def weightAt (set af wf : Nat) (sp : Bool) (i j k : Nat) : Num × Nat :=
  let per := 32 * dClass af
  let n := (32 * i + j) * per + k
  let v := bits set (1024 + n * fmtBits wf) (fmtBits wf)
  let pos := if sp then 4 * (k / 2) + bits set (8 * (128 + elemPart af wf) + 2 * n) 2 else k
  let sc := bits set (8 * (128 + elemPart af wf + indexPart af sp +
    (32 * i + j) * (dClass af * sClass sp) + pos / 32)) 8
  (if fmtMx wf then mxNum wf v sc else elemNum wf v, pos)

/-- Element `pos` of chunk `i` of an A line that begins at local address `a` (R99). -/
def State.lineElem (s : State) (t a af : Nat) (sp : Bool) (i pos : Nat) : Num :=
  let c := kBlock af sp * fmtBits af / 32
  let bit := i * c + pos * fmtBits af
  let v := bits (s.lnum t (a + bit / 8) 3) (bit % 8) (fmtBits af)
  if fmtMx af then
    mxNum af v (s.lnum t (a + 128 * (lineUnits af sp - 1) + i * (kBlock af sp / 1024) + pos / 32) 1)
  else elemNum af v

/-- The exact sum of products; an exact zero is +0 (R95, R96). -/
def dpuSum (ps : List (Num × Num)) : Num :=
  match ps.foldl (fun (z : Num) p => z.add (p.1.mul p.2)) (Num.fin false 0 0) with
  | .fin neg m e => .fin (m != 0 && neg) m e
  | n => n

/-- The products of DPU (i, j) for an A line. -/
def State.dpuTerms (s : State) (t set a af wf : Nat) (sp : Bool) (i j : Nat) : List (Num × Num) :=
  (List.range (32 * dClass af)).map (fun k =>
    let w := weightAt set af wf sp i j k
    (s.lineElem t a af sp i w.2, w.1))

/-- The total of column j for row `r`: the rounded DPU results added in the order row 0 to row 31 (R95). Line r + i holds chunk i of
the row (R105). -/
def State.columnTotal (s : State) (t set panel af wf : Nat) (sp : Bool) (j r : Nat) : Nat :=
  let dpu := fun i => toF32 (dpuSum (s.dpuTerms t set (panel + 128 * lineUnits af sp * (r + i)) af wf sp i j))
  (List.range' 1 31).foldl (fun x i => fadd x (dpu i)) (dpu 0)

/-- A DPU is gated for a wavefront (R101): one operand's elements are all zero, and neither holds a NaN or an infinity. -/
def State.gated (s : State) (t set a af wf : Nat) (sp : Bool) (i j : Nat) : Bool :=
  let as := (List.range (kBlock af sp / 32)).map (s.lineElem t a af sp i)
  let ws := (List.range (32 * dClass af)).map (fun k => (weightAt set af wf sp i j k).1)
  (as.all Num.isZero || ws.all Num.isZero) && as.all Num.isFinite && ws.all Num.isFinite

/-! ## MMA -/

/-- The fields of an MMA word. -/
def mmaSa (w : Nat) : Nat := bits w 40 4
def mmaAf (w : Nat) : Nat := bits w 37 3
def mmaWf (w : Nat) : Nat := bits w 34 3
def mmaSp (w : Nat) : Bool := bitOf w 33
def mmaP (w : Nat) : Nat := if bits w 31 2 = 3 then 1 else 2 ^ bits w 31 2
def mmaHalf (w : Nat) : Nat := 0x300000 + 0x80000 * bits w 30 1
def mmaInit (w : Nat) : Bool := bitOf w 29
def mmaWs (w : Nat) : Bool := bitOf w 28
/-- The fields of its DIMS register (R107). -/
def dimM (d : Nat) : Nat := bits d 0 16
def dimKb (d : Nat) : Nat := bits d 16 16
def dimN (d : Nat) : Nat := bits d 32 16
def dimCol (d : Nat) : Nat := bits d 48 16

/-- KIDX is below the OUTER of every A stream. -/
def State.kidxOk (s : State) (t w kidx : Nat) : Bool :=
  (List.range (mmaP w)).all (fun p => decide (kidx < s.sOuter t (mmaSa w + p)))

/-- An A stream meets check 6 of Table 05-6. -/
def State.aStreamOk (s : State) (t w m n : Nat) : Bool :=
  s.sInner t n == lineUnits (mmaAf w) (mmaSp w) * (m + 31) % 2 ^ 16 &&
    decide (lineUnits (mmaAf w) (mmaSp w) * (m + 31) < 2 ^ 16) && decide (1 ≤ s.sOuter t n) && s.strm t n 0 % 128 == 0 &&
    s.strm t n 3 % 128 == 0 && decide (s.sRow t n (s.sOuter t n - 1) + 128 * s.sInner t n ≤ 0x200000)

/-- The first of checks 1 to 7 that fails (Table 05-6); M and KB of 0 make check 1 alone (R112). -/
def State.mmaCheck (s : State) (t w d : Nat) : Option Nat :=
  let p := mmaP w
  let width := 32 / p
  if pairOk (mmaAf w) (mmaWf w) = false ∨ bits w 31 2 = 3 then some 1
  else if dimM d = 0 ∨ dimKb d = 0 then none
  else if dimM d % 8 ≠ 0 then some 2
  else if dimN d = 0 ∨ dimN d % width ≠ 0 ∨ dimCol d % width ≠ 0 ∨ dimN d < dimCol d + width then some 3
  else if 524288 < p * dimM d * dimN d * 4 then some 4
  else if 16 < mmaSa w + p then some 5
  else if ((List.range p).all (fun i => s.aStreamOk t w (dimM d) (mmaSa w + i))) = false then some 6
  else if mmaWs w = false ∧ dimKb d ≠ 1 then some 7
  else none

/-- The first issue check of an MMA that fails: code, kind and VALUE (R111, R123). -/
def State.mmaIssueFault (s : State) (t w d : Nat) : Option (Nat × Nat × Nat) :=
  if dimM d = 0 ∨ dimKb d = 0 then (s.mmaCheck t w d).map (fun n => (codeTileShape, 0x40, n))
  else if ((List.range (mmaP w)).all (fun i => decide (15 < mmaSa w + i) || s.streamOk t (mmaSa w + i))) = false then
    some (codeViolation, 0x27, 0)
  else match s.mmaCheck t w d with
    | some n => some (codeTileShape, 0x40, n)
    | none =>
      if mmaWs w then none
      else if s.actValid t = false then some (codeViolation, 0x43, 0xFFFFFFFF)
      else if hdrMatches (s.actHeader t) (mmaAf w) (mmaWf w) (mmaSp w) = false then
        some (codeViolation, 0x43, hdrValue (s.actHeader t))
      else if s.kidxOk t w (hdrKidx (s.actHeader t)) = false then some (codeViolation, 0x44, hdrKidx (s.actHeader t))
      else none

/-- MMA is issued to E2 with its DIMS; a write of ANV_CTRL takes effect at its start (R124). -/
def mmaBody (t w : Nat) (s : State) : State :=
  let d := s.operand t (bits w 44 8)
  match s.mmaIssueFault t w d with
  | some f => s.issueFault t f.1 f.2.1 f.2.2
  | none =>
    if dimM d = 0 ∨ dimKb d = 0 then s.retire t
    else (s.modTile t (fun x => { x with ctrl := s.reg (Reg.ANV_CTRL t) })).startEngine t 2 w [d]

/-- WSWAP is issued to E2. -/
def wswapBody (t w : Nat) (s : State) : State := s.startEngine t 2 w []

/-- The sequencer waits for engine `e` to complete or to become free. -/
def State.seqWaitsFor (s : State) (t e : Nat) : Bool :=
  let w := s.imemWord t (s.pc t)
  s.seqState t == 2 && (((opInfo (tileType t) w).bind (·.engine)) == some e || wOp w == 0x31 || wOp w == 0x3F ||
    (wOp w == 0x30 && (bits w 0 4 == 0 || bitOf w e)) || s.hazardOf t [e] w)

/-- R114: no later instruction could supply the block that E2 waits for. -/
def State.starved (s : State) (t : Nat) : Bool :=
  bitOf (s.tile t).ctrl.toNat 1 && s.shadow t == 0 && !(s.engineBusy t 3 && wOp (s.heldWord t 3) == 0x40) && s.seqWaitsFor t 2

/-- E2 waits for a FULL shadow set, or raises weight starvation. -/
def State.waitBlock (s : State) (t : Nat) : State := if s.starved t then s.unitFault t 2 codeDeadlock 0x45 0 else s

/-- What E2 counts in a unit (Table 05-12). -/
def State.arrayTime (s : State) (t : Nat) (env : UnitEnv) : State :=
  (s.add64 (Reg.ANV_BUSY_LO t) env.cycles).add64 (Reg.ANV_WSTALL_LO t) env.waited

/-- The accumulator address of row r, column c of problem p. -/
def accAddr (w d p r c : Nat) : Nat := mmaHalf w + 4 * ((p * dimM d + r) * dimN d + dimCol d + c)

/-- Row `r` of problem `p` of the active block, added to or written into its panel (R95, R110, R117). -/
def State.mmaRow (s : State) (t w d k r p : Nat) : State :=
  let width := 32 / mmaP w
  let n := mmaSa w + p
  let set := setValue (s.tile t).wact
  let panel := s.sRow t n (hdrKidx (s.actHeader t))
  let total := fun c => s.columnTotal t set panel (mmaAf w) (mmaWf w) (mmaSp w) (p * width + c) r
  let vals := (List.range width).map (fun c =>
    if mmaInit w ∧ k = 0 then total c else fadd (s.lnum t (accAddr w d p r c) 4) (total c))
  s.write (storeAt t (accAddr w d p r 0)) (vals.flatMap (natLE 4))

/-- The gated DPU operations of row `r`'s wavefront (R101). -/
def State.gatedCount (s : State) (t w r : Nat) : Nat :=
  let width := 32 / mmaP w
  let set := setValue (s.tile t).wact
  let kidx := hdrKidx (s.actHeader t)
  ((List.range 1024).filter (fun x =>
    let i := x / 32
    let j := x % 32
    let a := s.sRow t (mmaSa w + j / width) kidx + 128 * lineUnits (mmaAf w) (mmaSp w) * (r + i)
    s.gated t set a (mmaAf w) (mmaWf w) (mmaSp w) i j)).length

/-- The rows of row group `g` of block `k` (R119). -/
def State.mmaGroup (s : State) (t w d k g : Nat) : State :=
  let s := if bitOf (s.tile t).ctrl.toNat 0 then
      s.add64 (Reg.ANV_GATED_LO t) (((List.range' (8 * g) 8).map (s.gatedCount t w)).foldl (· + ·) 0)
    else s
  let s := s.add64 (Reg.ANV_WAVES_LO t) 8
  (List.range' (8 * g) 8).foldl (fun s r => (List.range (mmaP w)).foldl (fun s p => s.mmaRow t w d k r p) s) s

/-- One unit of MMA: a row group of a block, which the block's first row group takes from the shadow set (R110, R111, R119). -/
def State.mmaUnit (s : State) (t w : Nat) (env : UnitEnv) : State :=
  let d := s.op t 2 0
  let groups := dimM d / 8
  let c := s.prog t 2
  let k := c / max 1 groups
  let g := c % max 1 groups
  let finish := fun (s : State) =>
    let s := ((s.mmaGroup t w d k g).arrayTime t env).setProg t 2 (c + 1)
    if dimKb d * groups ≤ c + 1 then s.completeEngine t 2 else s
  if g = 0 ∧ mmaWs w = true then
    if s.shadow t ≠ 2 then s.waitBlock t
    else
      let h := s.shdHeader t
      if hdrMatches h (mmaAf w) (mmaWf w) (mmaSp w) = false then s.unitFault t 2 codeViolation 0x43 (hdrValue h)
      else if s.kidxOk t w (hdrKidx h) = false then s.unitFault t 2 codeViolation 0x44 (hdrKidx h)
      else finish (s.swapSets t)
  else finish s

/-- WSWAP's one unit (R109). -/
def State.wswapUnit (s : State) (t : Nat) : State :=
  if s.shadow t ≠ 2 then s.waitBlock t else ((s.swapSets t).setProg t 2 1).completeEngine t 2

/-! ## WLD -/

def wldSw (w : Nat) : Nat := bits w 48 4
def wldAf (w : Nat) : Nat := bits w 45 3
def wldWf (w : Nat) : Nat := bits w 42 3
def wldSp (w : Nat) : Bool := bitOf w 41

/-- Checks 13 and 14 of Table 05-6, after the stream check. R111 has them made at issue, of an empty stream too, whose length is no block's
(DEDUCED, log 49). -/
def State.wldIssueFault (s : State) (t w : Nat) : Option (Nat × Nat × Nat) :=
  let n := wldSw w
  let lo := s.strm t n 0
  let hi := s.sRow t n (s.sOuter t n - 1) + 128 * s.sInner t n
  if s.streamOk t n = false then some (codeViolation, 0x27, 0)
  else if pairOk (wldAf w) (wldWf w) = false ∨ s.sLen t n ≠ blockUnits (wldAf w) (wldWf w) (wldSp w) then
    some (codeTileShape, 0x42, 13)
  else if lo < 0x200000 ∨ 0x300000 < hi then some (codeTileShape, 0x42, 14)
  else none

/-- WLD is issued to E3. -/
def wldBody (t w : Nat) (s : State) : State :=
  match s.wldIssueFault t w with
  | some f => s.issueFault t f.1 f.2.1 f.2.2
  | none => s.startEngine t 3 w []

/-- One unit of WLD: a unit of the block copied into the shadow set, the header checked as it is read (R108). -/
def State.wldUnit (s : State) (t w : Nat) : State :=
  let c := s.prog t 3
  if c = 0 ∧ s.shadow t ≠ 0 ∧ (s.shadow t ≠ 1 ∨ (s.tile t).wshd ≠ []) then s
  else
    let s := s.setFld (Reg.ANV_STATUS.SHADOW t) 1
    let u := s.lunit t (s.sAddr t (wldSw w) c)
    if c = 0 ∧ hdrMatches u.toNat (wldAf w) (wldWf w) (wldSp w) = false then s.unitFault t 3 codeViolation 0x43 (hdrValue u.toNat)
    else
      let s := s.modTile t (fun x => { x with wshd := x.wshd ++ [u] })
      let s := if c = 0 then s.setReg (Reg.ANV_WSHD t) (headerWord u.toNat false) else s
      let s := s.setProg t 3 (c + 1)
      if c + 1 = s.sLen t (wldSw w) then
        ((s.setFld (Reg.ANV_STATUS.SHADOW t) 2).setFlag (Reg.ANV_WSHD.VALID t) true).completeEngine t 3
      else s

/-! ## DRAIN -/

def drSo (w : Nat) : Nat := bits w 40 4
def drOf (w : Nat) : Nat := bits w 37 3
def drClr (w : Nat) : Bool := bitOf w 36
def drHalf (w : Nat) : Nat := 0x300000 + 0x80000 * bits w 35 1
def drEnv (w : Nat) : Nat := bits w 31 4
/-- R, ROW0 and N of DRAIN's DIMS register. -/
def drR (d : Nat) : Nat := bits d 0 16
def drRow0 (d : Nat) : Nat := bits d 16 16
def drN (d : Nat) : Nat := bits d 32 16
/-- U: the whole units of an output row (R115). -/
def drU (w d : Nat) : Nat := ceilDiv (rowLen (drOf w) (drN d)) 128

/-- The stream check and checks 8 to 12 (R111, R116). -/
def State.drainIssueFault (s : State) (t w d : Nat) : Option (Nat × Nat × Nat) :=
  let n := drSo w
  if drR d = 0 then (if 4 < drOf w then some (codeTileShape, 0x41, 8) else none)
  else if s.streamOk t n = false then some (codeViolation, 0x27, 0)
  else if 4 < drOf w then some (codeTileShape, 0x41, 8)
  else if drN d = 0 ∨ drN d % 8 ≠ 0 ∨ (3 ≤ drOf w ∧ drN d % 32 ≠ 0) then some (codeTileShape, 0x41, 9)
  else if 524288 < (drRow0 d + drR d) * drN d * 4 then some (codeTileShape, 0x41, 10)
  else if s.sLen t n < drR d * drU w d ∨ s.strm t n 0 < 0x400000 then some (codeTileShape, 0x41, 11)
  else if drEnv w ≠ 0 ∧ (drRow0 d % 8 ≠ 0 ∨ drR d % 8 ≠ 0) then some (codeTileShape, 0x41, 12)
  else none

/-- DRAIN is issued to E3 with its DIMS. -/
def drainBody (t w : Nat) (s : State) : State :=
  let d := s.operand t (bits w 44 8)
  match s.drainIssueFault t w d with
  | some f => s.issueFault t f.1 f.2.1 f.2.2
  | none => if drR d = 0 then s.retire t else s.startEngine t 3 w [d]

/-- Bytes written as `u` consecutive units of a stream, from unit `k`. -/
def State.writeUnits (s : State) (t n k u : Nat) (bs : List Byte) : State :=
  (List.range u).foldl (fun s i => s.setLunit t (s.sAddr t n (k + i)) (Sys2Proof.Machine.payloadOf (bs.drop (128 * i)))) s

/-- One unit of DRAIN: one row, through its envelope and into output staging (R115, R401, R404). What the last unit of a row holds
beyond the row's length is not stated, so it is free (log 8). -/
def State.drainUnit (s : State) (t w : Nat) : State :=
  let d := s.op t 3 0
  let c := s.prog t 3
  let a := drHalf w + 4 * (drRow0 d + c) * drN d
  let vals := (List.range (drN d)).map (fun i => s.lnum t (a + 4 * i) 4)
  let s := if c = 0 then s.witnessBegin t (drEnv w) (drRow0 d) else s
  let s := s.tapRow t (drEnv w) c (decide (drR d ≤ c + 1)) vals
  let s := s.witnessRow t (drEnv w) (drRow0 d + c) c (drR d) vals
  let pad := 128 * drU w d - rowLen (drOf w) (drN d)
  let fill := s.fresh
  let s := if pad = 0 then s else s.took
  let s := s.writeUnits t (drSo w) (c * drU w d) (drU w d) (rowBytes (drOf w) vals ++ natLE pad fill)
  let s := if drClr w then s.zeroRange (storeAt t a) (4 * drN d) else s
  let s := s.setProg t 3 (c + 1)
  if drR d ≤ c + 1 then s.completeEngine t 3 else s

/-! ## The rows -/

def execWld (t : Fin 240) (fetch : Ecc) (s : State) : Host.Outcome State Fault Refusal :=
  .next (s.issue t fetch (fun w => isOp 0x40 w && tileType t == 0) (wldBody t))
def execWswap (t : Fin 240) (fetch : Ecc) (s : State) : Host.Outcome State Fault Refusal :=
  .next (s.issue t fetch (fun w => isOp 0x41 w && tileType t == 0) (wswapBody t))
def execMma (t : Fin 240) (fetch : Ecc) (s : State) : Host.Outcome State Fault Refusal :=
  .next (s.issue t fetch (fun w => isOp 0x44 w && tileType t == 0) (mmaBody t))
def execDrain (t : Fin 240) (fetch : Ecc) (s : State) : Host.Outcome State Fault Refusal :=
  .next (s.issue t fetch (fun w => isOp 0x48 w && tileType t == 0) (drainBody t))

end Sys2Proof.Machine
end

