-- ==== Sys2Proof/Machine/Billet.lean ====
section
/-! DEFINITION. The Billet instructions, the firmware march and handovers (chapter 07). -/
namespace Sys2Proof.Machine

/-- The instructions that reach the banks through the switch port (R153). -/
def switchPortOps : List Nat := [0x20, 0x21, 0x80, 0x81, 0x84, 0x85]

/-- The f-cycles a unit of a Billet tile waited for the mover port are counted; while it waited, the mover port moved data (R54, R154). -/
def State.conflicts (s : State) (t w : Nat) (env : UnitEnv) : State :=
  if tileType t = 2 ∧ switchPortOps.contains (wOp w) = true ∧ env.waited ≠ 0 then
    (s.add64 (Reg.BIL_CONFLICT_LO t) env.waited).movedAt t
  else s

/-! ## BRD and BWR -/

/-- The address that BRD and BWR form (R163). -/
def bwAddr (w a : Nat) : Nat := (a % 2 ^ 24 + bits w 12 24) % 2 ^ 24

/-- An address that BRD and BWR may name. -/
def bwAddrOk (a : Nat) : Bool := a % 8 == 0 && (windowOf a).isSome

def brdBody (t w : Nat) (s : State) : State := s.startEngine t 2 w [bwAddr w (s.operand t (bits w 36 8))]
def bwrBody (t w : Nat) (s : State) : State :=
  s.startEngine t 2 w [bwAddr w (s.operand t (bits w 36 8)), s.operand t (bits w 44 8)]

/-- The one unit of BRD (R163). -/
def State.brdUnit (s : State) (t w : Nat) : State :=
  let a := s.op t 2 0
  let done := fun (s : State) (v : Nat) => ((s.setOperand t (bits w 44 8) v).setProg t 2 1).completeEngine t 2
  if bwAddrOk a = false then s.unitFault t 2 codeViolation 0x42 a
  else match windowOf a with
    | some (.owner, o) => done s (leNat (s.ownerBytes t o 8))
    | some (_, d) =>
      if s.bankLocked t (bankOf d) then s
      else if s.progRefused t d true then s.unitFault t 2 codeViolation 0x40 a
      else
        let r := s.readBank t d 8
        done r.2 r.1
    | none => s

/-- The one unit of BWR (R163): a write of 8 bytes, or a handover. -/
def State.bwrUnit (s : State) (t : Nat) : State :=
  let a := s.op t 2 0
  let v := s.op t 2 1
  let done := fun (s : State) => (s.setProg t 2 1).completeEngine t 2
  if bwAddrOk a = false then s.unitFault t 2 codeViolation 0x42 a
  else match windowOf a with
    | some (.owner, o) =>
      let b := o / 8
      if v % 2 ^ 32 = (s.reg (Reg.BIL_OWN t b)).toNat then done s
      else if ownerCodeOk (v % 256) = false ∨ s.mayHandOver t b 1 (s.partOf t) = false then
        s.unitFault t 2 codeViolation 0x41 b
      else done (s.handOver t b (v % 2 ^ 32))
    | some (win, d) =>
      if s.bankLocked t (bankOf d) then s
      else if s.progRefused t d false then s.unitFault t 2 codeViolation 0x40 a
      else done (s.writeBank t win d 8 v)
    | none => s

/-! ## BGATH and BSCAT -/

def bgQ (w : Nat) : Nat := bits w 39 5
def bgS (w : Nat) : Nat := bits w 35 4

/-- The checks of BGATH and BSCAT at issue, in order (R164 to R166); with N = 0 only the queue is checked. -/
def State.gatherIssueFault (s : State) (t w : Nat) (queueOk : Bool) (n rbase : Nat) : Option (Nat × Nat × Nat) :=
  if queueOk = false then some (codeViolation, 0x23, bgQ w)
  else if n = 0 then none
  else if s.streamOk t (bgS w) = false then some (codeViolation, 0x27, 0)
  else if rbase % 128 ≠ 0 then some (codeTileShape, 0x46, 1)
  else if 128 * s.sLen t (bgS w) < 4 * n then some (codeTileShape, 0x46, 2)
  else none

/-- BGATH is issued to E1, and BSCAT to E0, with N and RBASE as read. -/
def gatherBody (e t w : Nat) (s : State) : State :=
  let n := s.operand t (bits w 44 8)
  let rbase := s.operand t (bits w 27 8) % 2 ^ 24
  match s.gatherIssueFault t w (if e = 1 then s.sendQueueOk t (bgQ w) else s.recvQueueOk t (bgQ w)) n rbase with
  | some f => s.issueFault t f.1 f.2.1 f.2.2
  | none => s.startEngine t e w [n, rbase]

/-- The unit of SIDX that holds index `k`, and the index (R166); one of a FAILED bank is free (R169). -/
def State.idxUnit (s : State) (t w k : Nat) : Nat := s.sAddr t (bgS w) (k / 32)
def State.idx (s : State) (t w k : Nat) : Nat := (s.readBank t (s.idxUnit t w k + 4 * (k % 32)) 4).1
/-- The state after index `k` was read. -/
def State.idxRead (s : State) (t w k : Nat) : State := (s.readBank t (s.idxUnit t w k + 4 * (k % 32)) 4).2

/-- What stands against unit `k` of BGATH or BSCAT on engine `e`: a fault kind with its VALUE, checked index first. -/
def State.gatherFault (s : State) (t w e k : Nat) (read : Bool) : Option (Nat × Nat) :=
  let i := s.idx t w k
  let a := s.op t e 1 + 128 * i
  if s.progRefused t (s.idxUnit t w k) true then some (0x40, s.idxUnit t w k)
  else if i = 2 ^ 32 - 1 then none
  else if 0x300000 < a + 128 then some (0x43, i)
  else if s.progRefused t a read then some (0x40, a)
  else none

/-- The bank of the unit's index, and the bank that it gathers from or scatters to, are locked by a march. -/
def State.idxWaits (s : State) (t w k : Nat) : Bool := s.bankLocked t (bankOf (s.idxUnit t w k))
def State.targetWaits (s : State) (t w e k : Nat) : Bool :=
  s.idx t w k != 2 ^ 32 - 1 && s.bankLocked t (bankOf (s.op t e 1 + 128 * s.idx t w k))

/-- One unit of BGATH: one flit (R164). -/
def State.bgathUnit (s : State) (t w : Nat) : State :=
  let n := s.op t 1 0
  let k := s.prog t 1
  if s.noRoom t (bgQ w) then s
  else if n = 0 then (s.pushFlit t (bgQ w) ⟨.empty, 0⟩).completeEngine t 1
  else if s.idxWaits t w k || s.targetWaits t w 1 k then s
  else match s.gatherFault t w 1 k true with
    | some f => s.unitFault t 1 codeViolation f.1 f.2
    | none =>
      let i := s.idx t w k
      let s := s.idxRead t w k
      let r := if i = 2 ^ 32 - 1 then (0, s) else s.readBank t (s.op t 1 1 + 128 * i) 128
      let last := decide (k + 1 = n)
      let kind := if last && !bitOf w 26 then FlitKind.dataEnd else .data
      let s := r.2.pushFlit t (bgQ w) ⟨kind, BitVec.ofNat 1024 r.1⟩
      let s := s.setProg t 1 (k + 1)
      if last then s.completeEngine t 1 else s

/-- BSCAT ends with its count and PE (R76, R165). -/
def State.bscatEnd (s : State) (t w n : Nat) (pe : Bool) : State :=
  ((s.setOperand t (bits w 19 8) n).setOperand t (predSpec (bits w 16 3)) (ofBool pe)).completeEngine t 0

/-- BSCAT writes unit `k` with a flit that it has taken. -/
def State.scatterWrite (s : State) (t w k : Nat) (f : Flit) : State :=
  let i := s.idx t w k
  let a := s.op t 0 1 + 128 * i
  let n := s.op t 0 0
  let s := s.idxRead t w k
  let s := if i = 2 ^ 32 - 1 then s else s.setLunit t a f.payload
  let s := s.setProg t 0 (k + 1)
  if f.kind = .dataEnd ∨ k + 1 = n then s.bscatEnd t w (k + 1) false else s

/-- One unit of BSCAT: one flit taken and written. While its bank is locked the flit is held in the tile (R165). -/
def State.bscatUnit (s : State) (t w : Nat) (env : UnitEnv) : State :=
  let n := s.op t 0 0
  let k := s.prog t 0
  match (s.tile t).scatter, s.headFor t (bgQ w) 4 with
  | some f, _ =>
    if s.targetWaits t w 0 k then s
    else match s.gatherFault t w 0 k false with
      | some x => (s.modTile t (fun y => { y with scatter := none })).unitFault t 0 codeViolation x.1 x.2
      | none => (s.modTile t (fun y => { y with scatter := none })).scatterWrite t w k f
  | none, none => s
  | none, some h =>
    if h.kind = .quench then s.bscatEnd t w k true
    else if h.kind = .empty then (s.takeMark t (bgQ w) env.flit).bscatEnd t w k true
    else if n = 0 then s.bscatEnd t w 0 false
    else if s.idxWaits t w k then s
    else
      let r := s.readHead t h env.flit
      let f : Flit := ⟨h.kind, r.1⟩
      if s.targetWaits t w 0 k then (r.2.takeLocal t (bgQ w)).modTile t (fun y => { y with scatter := some f })
      else match s.gatherFault t w 0 k false with
        | some x => s.unitFault t 0 codeViolation x.1 x.2
        | none => (r.2.takeLocal t (bgQ w)).scatterWrite t w k f

/-! ## MARCH -/

def mrOp (w : Nat) : Nat := bits w 25 3
def mrRepair (w : Nat) : Bool := bitOf w 24

/-- The checks of MARCH at issue: kind 0x45 before kind 0x44 (R167). -/
def State.marchIssueFault (s : State) (t w mask : Nat) : Option (Nat × Nat × Nat) :=
  if 5 ≤ mrOp w then some (codeTileShape, 0x45, mrOp w)
  else if 2 ^ 48 ≤ mask then some (codeTileShape, 0x45, 8)
  else match (maskBanks mask).find? (fun b => !(s.fld (Reg.BIL_OWN.OWNER t b) == 1 &&
      s.partOf t == some (s.fld (Reg.BIL_OWN.PART t b)))) with
    | some b => some (codeViolation, 0x44, b)
    | none => none

/-- MARCH is issued to E3; with MASK 0 it completes in one issue slot, writes 0 to DST and raises nothing beyond its decode checks (R91,
R168). -/
def marchBody (t w : Nat) (s : State) : State :=
  let mask := s.operand t (bits w 44 8)
  if mask = 0 then (s.setOperand t (bits w 28 8) 0).retire t
  else match s.marchIssueFault t w mask with
    | some f => s.issueFault t f.1 f.2.1 f.2.2
    | none => s.startEngine t 3 w [mask, s.operand t (bits w 36 8)]

/-- One unit of a program's MARCH (R168 to R170). -/
def State.programMarchUnit (s : State) (t w : Nat) (env : UnitEnv) : State :=
  let mask := s.op t 3 0
  let c := s.prog t 3
  let r := s.marchUnit t (mrOp w) mask (s.op t 3 1) c (mrRepair w) env.ecc env.mismatch.toNat
  let s := r.1.setProg t 3 (c + 1)
  if r.2 then ((s.setOperand t (bits w 28 8) (mask &&& s.failMask t)).completeEngine t 3).lateHandovers t mask else s

/-- One unit of a firmware march (R171). -/
def State.firmwareMarchUnit (s : State) (t : Nat) (m : March) (env : UnitEnv) : State :=
  let r := s.marchUnit t m.op m.mask m.pat m.units m.repair env.ecc env.mismatch.toNat
  if r.2 then (r.1.modTile t (fun x => { x with fwMarch := none })).lateHandovers t m.mask
  else r.1.modTile t (fun x => { x with fwMarch := some { m with units := m.units + 1 } })

/-! ## Firmware's commands -/

/-- A write of BIL_MARCH_CTRL by firmware: OP and REPAIR take the value, and START starts a march or is refused (R171). -/
def State.marchStart (s : State) (t : Nat) (v : Word) : State :=
  let s := (s.setFld (Reg.BIL_MARCH_CTRL.OP t) (bits v.toNat 1 3)).setFld (Reg.BIL_MARCH_CTRL.REPAIR t) (bits v.toNat 4 1)
  let mask := s.reg64 (Reg.BIL_MARCH_MASK_LO t) % 2 ^ 48
  if bitOf v.toNat 0 = false ∨ mask = 0 then s
  else if s.engineBusy t 3 ∨ (s.tile t).fwMarch.isSome ∨ 5 ≤ bits v.toNat 1 3 ∨
      (maskBanks mask).any (fun b => s.fld (Reg.BIL_OWN.OWNER t b) != 0) then
    s.setFlag (Reg.BIL_MARCH_STAT.REFUSED t) true
  else s.modTile t (fun x => { x with
    fwMarch := some ⟨0, mask, s.reg64 (Reg.BIL_MARCH_PAT_LO t), bits v.toNat 1 3, bitOf v.toNat 4⟩ })

def bilMarchStart (m : Master) (t : Nat) (v : Word) (s : State) : State :=
  if tileType t = 2 then s.byFirmware m (Reg.BIL_MARCH_CTRL t) (·.marchStart t v) else s

/-- A write of BIL_OWN_BULK hands over every bank of BIL_MARCH_MASK (R174). -/
def State.ownBulk (s : State) (t : Nat) (v : Word) : State :=
  (maskBanks (s.reg64 (Reg.BIL_MARCH_MASK_LO t))).foldl (fun s b => s.handOver t b v.toNat) s

def bilOwnBulk (m : Master) (t : Nat) (v : Word) (s : State) : State :=
  if tileType t = 2 then s.byFirmware m (Reg.BIL_OWN_BULK t) (·.ownBulk t v) else s

/-- HANDOVER: a write of BIL_OWNn through the control window (R157, R174). Other masters hand over through the owner window. -/
def handover (m : Master) (t bank : Nat) (v : Word) (s : State) : State :=
  if tileType t = 2 then s.byFirmware m (Reg.BIL_OWN t bank) (·.handOver t bank v.toNat) else s

/-! ## Accesses of other masters -/

/-- The partition that host function `f` serves (R434). -/
def State.fnPart (s : State) (f : Nat) : Option Nat :=
  let b := bits (s.reg (Reg.SEC_FNPART (f / 4))).toNat (8 * (f % 4)) 8
  if bitOf b 7 then some (b % 16) else none

/-- The partition that a mover serves: a port-tile mover the one that holds its bay, an I/O-die mover its descriptor's, which names none
where its addresses are physical (R232). -/
def State.moverPart (s : State) (m : Nat) : Option Nat :=
  if m < 48 then s.bayPart (m / 4) else ((s.mover m).job.filter (fun j => !j.phys)).map (·.part)

/-! ## The rows -/

def execBrd (t : Fin 240) (fetch : Ecc) (s : State) : Host.Outcome State Fault Refusal :=
  .next (s.issue t fetch (fun w => isOp 0x80 w && tileType t == 2) (brdBody t))
def execBwr (t : Fin 240) (fetch : Ecc) (s : State) : Host.Outcome State Fault Refusal :=
  .next (s.issue t fetch (fun w => isOp 0x81 w && tileType t == 2) (bwrBody t))
def execBgath (t : Fin 240) (fetch : Ecc) (s : State) : Host.Outcome State Fault Refusal :=
  .next (s.issue t fetch (fun w => isOp 0x84 w && tileType t == 2) (gatherBody 1 t))
def execBscat (t : Fin 240) (fetch : Ecc) (s : State) : Host.Outcome State Fault Refusal :=
  .next (s.issue t fetch (fun w => isOp 0x85 w && tileType t == 2) (gatherBody 0 t))
def execMarch (t : Fin 240) (fetch : Ecc) (s : State) : Host.Outcome State Fault Refusal :=
  .next (s.issue t fetch (fun w => isOp 0x88 w && tileType t == 2) (marchBody t))
def execBilMarchStart (m : Master) (t : Fin 240) (v : Word) (s : State) : Host.Outcome State Fault Refusal :=
  .next (bilMarchStart m t v s)
def execBilOwnBulk (m : Master) (t : Fin 240) (v : Word) (s : State) : Host.Outcome State Fault Refusal :=
  .next (bilOwnBulk m t v s)
def execHandover (m : Master) (t : Fin 240) (bank : Fin 48) (v : Word) (s : State) : Host.Outcome State Fault Refusal :=
  .next (handover m t bank v s)

end Sys2Proof.Machine
end

