-- ==== Sys2Proof/Machine/Tiers.lean ====
section
/-! DEFINITION. The regions of a board physical address (R176 to R179), the state of the tiers, the Hearth cache (chapter 09), and the
on-die SRAM window (R180, R181). -/
namespace Sys2Proof.Machine

/-- The bytes an access covers. -/
def opLen : AccessOp → Nat
  | .read n => n
  | .write d => d.length
  | _ => 8

def opWrites : AccessOp → Bool
  | .read _ => false
  | _ => true

/-! ## Regions -/

/-- What a board physical address names. -/
inductive Home where
  /-- Stack and offset within it. -/
  | hot (b off : Nat)
  /-- Warm port and offset in its slice. -/
  | warm (n off : Nat)
  | cold (off : Nat)
  /-- Offset in the on-die SRAM window. -/
  | sram (off : Nat)
  | control (off : Nat)
  /-- Another slot of the board. -/
  | remote (slot off : Nat)
  | hole
deriving DecidableEq, Repr

/-- What an offset of a slot names (Table 08-1); `backed` gives the bytes behind each warm port (R177). -/
def homeOfOffset (backed : Nat → Nat) (off : Nat) : Home :=
  if off < 12 * stackSize then .hot (off / stackSize) (off % stackSize)
  else if 0x10000000000 ≤ off ∧ off < 0x90000000000 then
    let n := off / 0x10000000000 - 1
    if off % 0x10000000000 < backed n then .warm n (off % 0x10000000000) else .hole
  else if 0x200000000000 ≤ off ∧ off < 0x2001E0000000 then .sram (off - 0x200000000000)
  else if 0x300000000000 ≤ off ∧ off < 0x300100000000 then .control (off - 0x300000000000)
  else if 0x400000000000 ≤ off ∧ off < 0x800000000000 then .cold (off - 0x400000000000)
  else .hole

def State.ownSlot (s : State) : Nat := s.fld Reg.DEV_SLOT.SLOT

/-- The slot of the buddy: slots 0 and 1 pair with each other, and slots 2 and 3 (R22). -/
def State.buddySlot (s : State) : Nat := s.ownSlot ^^^ 1

/-- The bytes behind a warm port. -/
def State.backed (s : State) (n : Nat) : Nat := min (2 ^ 40) (s.fld (Reg.TIER_WARM_CAP.MIB n) * 2 ^ 20)

/-- What a board physical address names. Of another slot, only whether its offset lies in a region is known here. -/
def State.homeOf (s : State) (pa : Nat) : Home :=
  let slot := pa / 2 ^ 54 % 4
  let off := pa % 2 ^ 54
  if slot ≠ s.ownSlot then
    match homeOfOffset (fun _ => 2 ^ 40) off with
    | .hole => .hole
    | _ => .remote slot off
  else homeOfOffset s.backed off

/-! ## Tiers -/

/-- The TIER_ register of a stack, a warm port or a pool port, counted from TIER_HOT0 (Table 09-20). -/
def unitHot (b : Nat) : Nat := b
def unitWarm (n : Nat) : Nat := 16 + n
def unitCold (n : Nat) : Nat := 24 + n

/-- The tier is ON and not DEGRADED (R208). -/
def State.tierUp (s : State) (u : Nat) : Bool := s.fld (Reg.TIER_UNIT.STATE u) == 2 && !s.flag (Reg.TIER_UNIT.DEGRADED u)

/-- The pool port that carries an access at an offset of the cold window; none where neither can (R445). -/
def State.coldPort (s : State) (off : Nat) : Option Nat :=
  let own := off / 256 % 2
  if s.tierUp (unitCold own) then some own
  else if s.flag Reg.CXL_CTRL.POOL_FAILOVER && s.tierUp (unitCold (1 - own)) then some (1 - own)
  else none

/-- The tier behind an address can serve it. -/
def State.homeUp (s : State) : Home → Bool
  | .hot b _ => s.tierUp (unitHot b)
  | .warm n _ => s.tierUp (unitWarm n)
  | .cold off => (s.coldPort off).isSome
  | _ => true

/-! ## Tags and fills -/

/-- The transactions of 64 bytes that an access makes (R209). -/
def opTags (op : AccessOp) : Nat := max 1 (ceilDiv (opLen op) 64)

/-- The holder of an access's tags: a mover, or the I/O die's ports (Table 09-3). -/
def Issuer.holder : Issuer → Option Nat
  | .mover m => some m
  | .dropped m => some m
  | _ => none

/-- The tags of a holder (Table 09-3). -/
def tagLimit : Option Nat → Nat
  | some m => if m < 48 then 2048 else 4096
  | none => 98304

/-- The tags that a holder uses: those of its accesses that were sent, and two for each line that it has filled (R213). -/
def State.tagsUsed (s : State) (h : Option Nat) : Nat :=
  ((s.outstanding.filter (fun o => o.sent && decide (o.issuer.holder = h))).map (fun o => opTags o.op)).sum +
    2 * (s.hearthFills.filter (fun f => decide (some f.owner = h))).length

/-- A holder has `n` tags left. -/
def State.tagsLeft (s : State) (h : Option Nat) (n : Nat) : Bool := decide (s.tagsUsed h + n ≤ tagLimit h)

/-- Mover `m` waits for a line: on a fill under way, or on one that its miss starts (R203). -/
def State.startFill (s : State) (m b off : Nat) : State :=
  let s := s.add64 Reg.TIER_HEARTH_MISS_LO 1
  if s.filling b off then
    { s with hearthFills := s.hearthFills.map (fun f => if f.bay = b ∧ f.line = lineOf off then { f with movers := m :: f.movers } else f) }
  else { s with hearthFills := s.hearthFills ++ [⟨b, lineOf off, m, [m]⟩] }

/-- An access at an offset of the slot that lies in memory: the data read or the old value, and the state after it. -/
def State.memOp (s : State) (off : Nat) (op : AccessOp) : List Byte × State :=
  match op with
  | .read n => (s.bytes off n, s)
  | .write d => ([], s.write off d)
  | _ => (s.bytes off 8, s.writeNum off 8 (atomicNew op (s.num off 8)))

/-- The ECC events of a read of a stack are counted (R202). -/
def State.stackEcc (s : State) (b : Nat) (e : ReadEcc) : State :=
  (s.countEcc (Reg.TIER_UNIT.CE (unitHot b)) e.ce).countEcc (Reg.TIER_UNIT.UE (unitHot b)) e.ue

/-- An error in data received from a home is counted: an uncorrectable one of a stack, or poison at the port of a partner (R202, R448). -/
def State.countError (s : State) : Home → State
  | .hot b _ => s.stackEcc b ⟨0, 1, []⟩
  | .warm n _ => s.satFld (Reg.CXL_PORT_ERR.POISON_RX n) 1
  | .cold off => match s.coldPort off with
    | some i => s.satFld (Reg.CXL_PORT_ERR.POISON_RX (8 + i)) 1
    | none => s
  | _ => s

/-- An access to a home in the hot, warm or cold tier, made at once; in the hot tier it passes through the Hearth cache. -/
def State.homeAccess (s : State) (h : Home) (op : AccessOp) (na : Bool) : List Byte × State :=
  match h with
  | .hot b off => (s.hearthLines b off (opLen op) (opWrites op) na).memOp (b * stackSize + off) op
  | .warm n off => s.memOp ((n + 1) * 0x10000000000 + off) op
  | .cold off => s.memOp (0x400000000000 + off) op
  | _ => ([], s)

/-! ## The on-die SRAM window -/

/-- The old data an atomic or a read returns, and whether an access of a window happened. -/
abbrev WindowEnd := PortResult × List Byte × State

/-- An access to a local store other than a Billet tile's. -/
def State.storeAccess (s : State) (t o : Nat) (op : AccessOp) (ecc : ReadEcc) : WindowEnd :=
  if storeSize t < o + opLen op then (.outside, [], s)
  else match op with
    | .read n =>
      let s := s.flipBytes (storeAt t o) n ecc
      (.done, s.bytes (storeAt t o) n, s.eccStore t ecc)
    | .write d =>
      if s.wldUses t o || s.wldUses t (o + d.length - 1) then (.waits, [], s) else (.done, [], s.write (storeAt t o) d)
    | _ => (.outside, [], s)

/-- A write of instruction memory (R86): ignored where a byte falls in the Active half, or in the Shadow half while ARMED. -/
def State.imemWrite (s : State) (t o : Nat) (d : List Byte) : State :=
  let act := s.fld (Reg.SEQ_IMEM.ACTIVE t)
  let h0 := o / 0x8000
  let h1 := (o + d.length - 1) / 0x8000
  if h0 = act ∨ h1 = act ∨ s.tileArmed t = true then s.setFlag (Reg.SEQ_IMEM.WR_IGNORED t) true
  else s.write (imemAt t 0 0 + o) d

/-- An access at an offset of the window by the master with requester code `code` that serves `part` (R180, R181). -/
def State.window (s : State) (off code : Nat) (part : Option Nat) (op : AccessOp) (ecc : ReadEcc) : WindowEnd :=
  let t := off / 0x2000000
  let o := off % 0x2000000
  let n := opLen op
  if 240 ≤ t ∨ 0x2000000 < o + n then (.outside, [], s)
  else if o + n ≤ 0x1000000 then
    if tileType t = 2 then s.portAccess t o code part op ecc else s.storeAccess t o op ecc
  else if 0x1000000 ≤ o ∧ o + n ≤ 0x1010000 then
    match op with
    | .read n => (.done, s.bytes (sramBase t + o) n, s)
    | .write d => (.done, [], s.imemWrite t (o - 0x1000000) d)
    | _ => (.outside, [], s)
  else if 0x1800000 ≤ o ∧ o + n ≤ 0x1840000 then
    match op with
    | .read n => (.done, s.bytes (sramBase t + o) n, s)
    | .write d => if s.tileRuns t then (.done, [], s.setFlag Reg.XLT_STATUS.WR_IGNORED true)
      else (.done, [], s.write (sramBase t + o) d)
    | _ => (.outside, [], s)
  else (.outside, [], s)

/-- A physical access that names a hole is recorded (R178). -/
def State.hole (s : State) (pa : Nat) : State := (s.setFlag Reg.XLT_STATUS.HOLE true).setReg64 Reg.XLT_HOLE_LO pa

/-- A window access by host function `f` outside the first three windows of Billet tiles: a violation of kind 2. What the record's
bank and OWNER bytes hold is not stated (log 3). -/
def State.windowViolation (s : State) (f off : Nat) (op : AccessOp) : State :=
  let bank := s.fresh % 256
  let s := s.took
  let owner := s.fresh % 256
  s.took.hostViolation f 2 (off / 0x2000000) (off % 0x2000000) (bankDetail bank owner (0xC0 + f) (if opWrites op then 2 else 1))

/-- The offset lies in the direct, bit-set or bit-clear window of a Billet tile, every byte in one window. -/
def hostWindowOk (off n : Nat) : Bool :=
  let o := off % 0x2000000
  tileType (off / 0x2000000) == 2 && decide (o + n ≤ 0x2000000) &&
    (match windowOf o, windowOf (o + n - 1) with
      | some (w, _), some (w', _) => w == w' && w != .owner
      | _, _ => false)

/-- An atomic that breaks R196, by a master that is no mover: it is not performed, and its record names no mover. What its first
bytes hold is not stated (log 3). -/
def State.atomicRefused (s : State) (addr : Nat) : State :=
  s.took.logFault ⟨BitVec.ofNat 64 s.tick, s.fresh % 2 ^ 32, codeViolation, 0xFFFF, addr, 0x11 + 3 * 2 ^ 16⟩

/-- A data answer, where there is one. -/
def State.answer (s : State) (data : List Byte) : State := if data.isEmpty then s else s.emit (.readData data)

/-- An access by firmware or the security core (R178, R180, R181, R196). One that must wait is made again by its sender, and is a transaction
outstanding in its tile meanwhile (R54, R168). -/
def State.windowFirmware (s : State) (off : Nat) (op : AccessOp) (ecc : ReadEcc) : State :=
  let r := s.window off 0 none op ecc
  match r.1 with
  | .outside => match op with
    | .read n => (s.hole (s.ownSlot * 2 ^ 54 + 0x200000000000 + off)).answer (natLE n 0)
    | .write _ => s.hole (s.ownSlot * 2 ^ 54 + 0x200000000000 + off)
    | _ => s.atomicRefused off
  | .waits => s.movedAt (off / 0x2000000)
  | _ => r.2.2.answer r.2.1

/-- An access by host function `f` (R181); what an atomic that it may not make comes to is its BAR's (R442). -/
def State.windowHost (s : State) (f off : Nat) (op : AccessOp) (ecc : ReadEcc) : State :=
  if s.fnFrozen f then s
  else if hostWindowOk off (opLen op) then
    let r := s.window off (0xC0 + f) (s.fnPart f) op ecc
    match r.1 with
    | .waits => s.movedAt (off / 0x2000000)
    | _ => r.2.2.answer r.2.1
  else match op with
    | .read _ => s.windowViolation f off op
    | .write _ => s.windowViolation f off op
    | _ => s

/-- The access code of Table 08-6's records for an operation. -/
def opAccess : AccessOp → Nat
  | .read _ => 1
  | .write _ => 2
  | _ => 3

/-- A mover's fault on an access that names no VA: its record's VA is free (log 3). -/
def State.portFault (s : State) (m p kind : Nat) (op : AccessOp) : State :=
  s.took.faultPart p ⟨BitVec.ofNat 64 s.tick, (if m < 48 then 20 * (m / 4) else 0xFFFF) + m * 2 ^ 16, codeViolation, p, s.fresh % 2 ^ 48,
    kind + opAccess op * 2 ^ 16⟩

/-- An access by mover `m` (R156, R181, R188): it reaches only tiles of the partition it serves, and what breaks R181 is a permission fault. One
whose descriptor gives physical addresses serves no partition and acts as firmware does (R232). -/
def State.windowMover (s : State) (m off : Nat) (op : AccessOp) (ecc : ReadEcc) : State :=
  match (s.mover m).job.any (·.phys), s.moverPart m with
  | true, _ => s.windowFirmware off op ecc
  | false, none => s
  | false, some p =>
    if s.partOf (off / 0x2000000) ≠ some p then s.portFault m p 0x10 op
    else
      let r := s.window off (0x40 + m) (some p) op ecc
      match r.1 with
      | .outside => s.portFault m p (if opAccess op = 3 then 0x11 else 0x10) op
      | .waits => s.movedAt (off / 0x2000000)
      | .violation => r.2.2.portFault m p 0x10 op
      | .done => r.2.2.answer r.2.1

/-- An access of a master that is no mover. -/
def State.windowMaster (s : State) (m : Master) (off : Nat) (op : AccessOp) (ecc : ReadEcc) : State :=
  match m with
  | .firmware => s.windowFirmware off op ecc
  | .security => s.windowFirmware off op ecc
  | .rackManager => s
  | .host f => s.windowHost f off op ecc

/-- SRAM_WINDOW_ACCESS (R181). -/
def sramWindowAccess (m : Master) (off : Nat) (op : AccessOp) (ecc : ReadEcc) (s : State) : State :=
  if s.live then s.windowMaster m off op ecc else s

/-- MOVER_PORT_ACCESS (R156): an access at a local address of a Billet tile. -/
def moverPortAccess (r : Requester) (t a : Nat) (op : AccessOp) (ecc : ReadEcc) (s : State) : State :=
  if tileType t ≠ 2 ∨ s.live = false then s
  else match r with
    | .master m => s.windowMaster m (t * 0x2000000 + a) op ecc
    | .mover m => s.windowMover m (t * 0x2000000 + a) op ecc

def execSramWindowAccess (m : Master) (off : Nat) (op : AccessOp) (ecc : ReadEcc) (s : State) : Host.Outcome State Fault Refusal :=
  .next (sramWindowAccess m off op ecc s)
def execMoverPortAccess (r : Requester) (t : Fin 240) (a : Nat) (op : AccessOp) (ecc : ReadEcc) (s : State) :
    Host.Outcome State Fault Refusal := .next (moverPortAccess r t a op ecc s)

end Sys2Proof.Machine
end

