-- ==== Sys2Proof/Machine/Xlt.lean ====
section
/-! DEFINITION. Translation: page tables, walks, the translation caches, demand fetches and invalidations (chapter 08). -/
namespace Sys2Proof.Machine

/-! ## Page tables -/

/-- A translation fault: its kind of Table 08-6, the level and the value of the entry at fault. -/
structure XlateFault where
  kind : Nat
  level : Nat
  entry : Nat
deriving DecidableEq, Repr

/-- The code of a translation fault kind (Table 08-6). -/
def xlateCode (kind : Nat) : Nat := if kind < 0x10 then codeXlate else if kind < 0x20 then codeViolation else codeTierDegraded

/-- Where a walk ends: a present leaf, a leaf that is not present and has a home, or a fault. `size` is the page size as a power of
two, and `at_` the address of the leaf's entry. -/
inductive WalkEnd where
  | present (size leaf : Nat)
  | absent (size at_ leaf : Nat)
  | fault (f : XlateFault)
deriving DecidableEq, Repr

/-- ADDR of an entry. -/
def leafAddr (e : Nat) : Nat := bits e 12 44 * 2 ^ 12

/-- The page size of a leaf at a level, as a power of two (Table 08-4). -/
def levelSize (level : Nat) : Nat :=
  match level with
  | 2 => 30
  | 3 => 21
  | 4 => 16
  | _ => 39

/-- The index of a VA at a level. -/
def levelIndex (level va : Nat) : Nat :=
  match level with
  | 1 => bits va 39 9
  | 2 => bits va 30 9
  | 3 => bits va 21 9
  | _ => bits va 16 5

/-- The offset of the SRAM window lies in one of the regions of its tile's 32 MiB that Table 08-2 defines, and not in the rest, a hole
(R180). -/
def sramDefined (off : Nat) : Bool :=
  let t := off / 0x2000000
  let o := off % 0x2000000
  decide (t < 240) && (if o < 0x1000000 then (if tileType t = 2 then (windowOf o).isSome else decide (o < storeSize t))
    else decide (o < 0x1010000) || (decide (0x1800000 ≤ o) && decide (o < 0x1840000)))

/-- A frame that a present leaf may name (R185): no hole, no unbacked warm slice and not the control window. -/
def State.frameOk (s : State) (pa size : Nat) : Bool :=
  (match s.homeOf pa with
    | .hole => false
    | .control _ => false
    | .sram off => sramDefined off
    | .remote _ off => !(decide (0x300000000000 ≤ off) && decide (off < 0x300100000000))
    | _ => true) && s.homeOf (pa + 2 ^ size - 1) != .hole

/-- A page's home lies in the own slot's warm tier or cold window (R185). -/
def State.homeOk (s : State) (pa : Nat) : Bool :=
  let off := pa % 2 ^ 54
  pa / 2 ^ 54 % 4 == s.ownSlot && ((decide (0x10000000000 ≤ off) && decide (off < 0x90000000000)) ||
    (decide (0x400000000000 ≤ off) && decide (off < 0x800000000000)))

/-- An address lies in the own slot's hot tier. -/
def State.inOwnHot (s : State) (pa : Nat) : Bool := pa / 2 ^ 54 % 4 == s.ownSlot && decide (pa % 2 ^ 54 < 12 * stackSize)

/-- The checks of R185 on an entry read at a level, and what it says; none where it names a further table. -/
def State.checkEntry (s : State) (level at_ e : Nat) : Option WalkEnd :=
  let bad := some (.fault ⟨0x02, level, e⟩)
  let a := leafAddr e
  let size := levelSize level
  let v := bitOf e 0
  let leaf := bitOf e 1
  let home := bitOf e 5
  if e / 2 ^ 56 ≠ 0 ∨ bits e 6 6 ≠ 0 then bad
  else if v = false ∧ home = false then some (.fault ⟨0x01, level, e⟩)
  else if (level = 1 ∧ leaf) ∨ (level = 4 ∧ leaf = false) then bad
  else if v then
    if leaf then
      if a % 2 ^ size ≠ 0 ∨ s.frameOk a size = false then bad else some (.present size e)
    else if s.inOwnHot a = false then bad else none
  else if leaf = false ∨ a % 2 ^ size ≠ 0 ∨ s.homeOk a = false then bad
  else if s.flag Reg.XLT_CTRL.DEMAND_EN then some (.absent size at_ e)
  else some (.fault ⟨0x01, level, e⟩)

/-- A walk from the table of a level (R183): where it ends, and the offsets of the entries it reads. A fault met before the entry of its level
is read names no entry (R194). -/
def State.walkFrom (s : State) (va base : Nat) : Nat → Nat → WalkEnd × List Nat
  | _, 0 => (.fault ⟨0x02, 0, 0⟩, [])
  | level, n + 1 =>
    let at_ := base + 8 * levelIndex level va
    if s.inOwnHot at_ = false then (.fault ⟨0x02, 0, 0⟩, [])
    else if s.homeUp (s.homeOf at_) = false then (.fault ⟨0x20, 0, 0⟩, [])
    else
      let e := s.num (at_ % 2 ^ 54) 8
      match s.checkEntry level at_ e with
      | some r => (r, [at_ % 2 ^ 54])
      | none =>
        let r := s.walkFrom va (leafAddr e) (level + 1) n
        (r.1, at_ % 2 ^ 54 :: r.2)

/-- A walk for a VA from a level-1 table, given as XLT_PTBASEp holds it: VALID in bit 0 (R183, R184). -/
def State.walkPath (s : State) (table va : Nat) : WalkEnd × List Nat :=
  if 2 ^ 48 ≤ va ∨ bitOf table 0 = false then (.fault ⟨0x03, 0, 0⟩, [])
  else s.walkFrom va (table / 2 ^ 12 % 2 ^ 44 * 2 ^ 12) 1 4

/-- Where such a walk ends. -/
def State.walkTable (s : State) (table va : Nat) : WalkEnd := (s.walkPath table va).1

/-- A walk from a table whose reads pass through the Hearth cache: where it ends, and the state after it (R177, R200). -/
def State.walkRead (s : State) (table va : Nat) : WalkEnd × State :=
  let r := s.walkPath table va
  (r.1, r.2.foldl (fun s a => s.pass a 8 false) s)

/-- XLT_PTBASEp. -/
def State.ptBase (s : State) (p : Nat) : Nat := s.reg64 (Reg.XLT_PTBASE_LO p)

/-- A walk for a VA of a partition. -/
def State.walk (s : State) (p va : Nat) : WalkEnd := s.walkTable (s.ptBase p) va

/-! ## Translation caches -/

/-- The entry covers a VA of a partition. -/
def TlbEntry.covers (e : TlbEntry) (p va : Nat) : Bool := e.part == p && e.va == va / 2 ^ e.size * 2 ^ e.size

def tlbFill (n : Nat) (e : TlbEntry) (l : List TlbEntry) : List TlbEntry :=
  (e :: l.filter (fun x => !(x.part == e.part && x.va == e.va && x.size == e.size))).take n

def State.bayTlb (s : State) (b : Nat) : List TlbEntry := Sparse.get (fun _ => []) s.tlb1 b
def State.setBayTlb (s : State) (b : Nat) (l : List TlbEntry) : State := { s with tlb1 := Sparse.set (fun _ => []) s.tlb1 b l }

/-- The second-level cache and, for a port-tile mover, its tile's cache are filled (R186). -/
def State.fillTlb2 (s : State) (e : TlbEntry) : State := { s with tlb2 := tlbFill 8192 e s.tlb2 }
def State.fillTlb1 (s : State) (m : Nat) (e : TlbEntry) : State :=
  if m < 48 then s.setBayTlb (m / 4) (tlbFill 1024 e (s.bayTlb (m / 4))) else s

/-- The cached translation that mover `m` finds, its own unit's first. -/
def State.cached (s : State) (m p va : Nat) : Option TlbEntry :=
  ((s.mover m).work.grants.find? (·.covers p va)).or
    (((if m < 48 then s.bayTlb (m / 4) else []).find? (·.covers p va)).or (s.tlb2.find? (·.covers p va)))

/-- Entries that a filter keeps, in every cache. -/
def State.dropTlb (s : State) (drop : TlbEntry → Bool) : State :=
  let s := { s with tlb2 := s.tlb2.filter (fun e => !drop e) }
  (List.range 12).foldl (fun s b => s.setBayTlb b ((s.bayTlb b).filter (fun e => !drop e))) s


/-- The invalidation covers a page of a partition. -/
def Inval.covers (i : Inval) (p va size : Nat) : Bool :=
  match i.op with
  | 1 => p == i.part
  | 2 => p == i.part && decide (0 < i.pages) && decide (va < i.va + 65536 * i.pages) && decide (i.va < va + 2 ^ size)
  | _ => true

/-! ## Faults -/

/-- The code of a kind of access in a record (R194). -/
def accessCode : Access → Nat
  | .read => 1
  | .write => 2
  | .atomic => 3

/-- Bytes 8 to 11 of a mover's record (R194). -/
def moverSource (m : Nat) : Nat := (if m < 48 then 20 * (m / 4) else 0xFFFF) + m * 2 ^ 16

/-- A fault of mover `m` that serves partition `p` (R188, R194, R235): the record, and the partition freezes. -/
def State.moverFault (s : State) (m p code kind level va acc info : Nat) : State :=
  let s := s.interruptIf (decide (m < 48) && s.flag (Reg.MOV_CTRL.INT_EN (20 * (m / 4)))) 236
  s.faultPart p ⟨BitVec.ofNat 64 s.tick, moverSource m, code, p, va,
    kind + level * 2 ^ 8 + acc * 2 ^ 16 + info % 2 ^ 32 * 2 ^ 32⟩

/-- A translation fault of mover `m`. A unit of PREF drops, and raises nothing (R193); a descriptor with PHYS set serves no
partition. -/
def State.raiseXlate (s : State) (m p va : Nat) (acc : Access) (f : XlateFault) : State :=
  s.moverFault m p (xlateCode f.kind) f.kind f.level va (accessCode acc) f.entry

/-- The oldest unit of a mover is dropped (R193). -/
def State.dropUnit (s : State) (m : Nat) : State :=
  (s.setReg Reg.XLT_PF_DROP (s.reg Reg.XLT_PF_DROP + 1)).modMover m (fun x => { x with work := { x.work with drop := true } })

/-! ## Demand fetches -/

/-- The frame ring of a partition for a page size: 0, 1 or 2 (Table 08-7). -/
def ringOf (size : Nat) : Nat := if size = 16 then 0 else if size = 21 then 1 else 2

def State.rcb (s : State) (p : Nat) : Nat := s.reg64 (Reg.XLT_RCB_LO p) / 2 ^ 6 % 2 ^ 50 * 2 ^ 6 % 2 ^ 54

/-- A fetch of the leaf at an address is in progress. -/
def State.fetchAt (s : State) (at_ : Nat) : Option Fetch := s.fetches.find? (·.leafAt == at_)

/-- A waiting access joins the fetch of its leaf (R190). -/
def State.joinFetch (s : State) (at_ : Nat) (w : Walk) : State :=
  { s with fetches := s.fetches.map (fun f => if f.leafAt = at_ then { f with waiters := f.waiters ++ [w] } else f) }

/-- Foreman firmware is interrupted by translation (Table 08-10). -/
def State.xltInterrupt (s : State) (rule : Nat) : State := s.interruptIf (s.flag Reg.XLT_CTRL.INT_EN) rule

/-- FRAME_WAIT falls once no walk waits for a descriptor (R190). -/
def State.settleWait (s : State) : State :=
  if s.walks.any (·.blocked) then s else s.setFlag Reg.XLT_STATUS.FRAME_WAIT false

/-- A demand fetch starts (R189): the next descriptor of the ring is taken, or the walk waits for one (R190). A walk whose unit was abandoned
takes none. -/
def State.startFetch (s : State) (w : Walk) (size at_ leaf : Nat) : State :=
  if (match w.who with
      | .abandoned _ => true
      | _ => false) then { s with walks := s.walks.erase w }
  else if (s.fetchAt at_).isSome then { s with walks := s.walks.erase w }.joinFetch at_ w
  else if 64 ≤ s.fetches.length then s
  else
    let r := s.rcb w.part + 16 * ringOf size
    let s := s.pass r 16 false
    let head := s.num (r + 8) 4
    if head = s.num (r + 12) 4 then
      let s := { s with walks := s.walks.map (fun x => if x = w then { x with blocked := true } else x) }
      if s.flag Reg.XLT_STATUS.FRAME_WAIT then s else (s.setFlag Reg.XLT_STATUS.FRAME_WAIT true).xltInterrupt 190
    else
      let d := s.num r 6 % 2 ^ 54 + 16 * (head % 2 ^ s.num (r + 6) 2)
      let page := w.va / 2 ^ size * 2 ^ size
      let f : Fetch := ⟨w.part, page, size, at_, BitVec.ofNat 64 leaf, d, s.num d 8, [w],
        w.stale.any (fun i => i.covers w.part page size)⟩
      let s := ((s.pass d 8 false).pass (r + 8) 4 true).pass (d + 8) 8 true
      let s := (s.writeNum (r + 8) 4 (head + 1)).writeNum (d + 8) 8 (page + w.part * 2 ^ 48)
      let s := match w.who with
        | .early _ _ => s.add64 Reg.EXP_EARLY_LO 1
        | _ => s
      { s with fetches := s.fetches ++ [f], walks := s.walks.erase w }

/-- What a walk that ends in a fault means to the access that waits for it (R188, R193, R256, R301). The first fault of a fill leaves its
descriptors as they are. `ends` ends the descriptor of an I/O-die mover with the fault's kind (R232). -/
def State.walkFault (s : State) (ends : Nat → Nat → State → State) (w : Walk) (f : XlateFault) : State :=
  match w.who with
  | .mover m => ends m f.kind (s.raiseXlate m w.part w.shown w.access f)
  | .prefetch m => s.dropUnit m
  | .abandoned _ => s
  | .fill => s
  | .early _ _ => s
  | .engine => s.took.moverFault (s.fresh % 64) w.part (xlateCode f.kind) f.kind f.level w.shown (accessCode w.access) f.entry

/-- The mover whose port tile's cache a walk fills. -/
def Walk.cacheOf (w : Walk) : Option Nat :=
  match w.who with
  | .mover m => some m
  | .prefetch m => some m
  | .abandoned m => some m
  | _ => none

/-- The table that a walk walks: a fill's is that of its partition as it is walked (R301). -/
def State.tableOf (s : State) (w : Walk) : Nat := if w.who = .fill then s.ptBase w.part else w.table

/-- One walk is done (R186, R189); `ends` as in `State.walkFault`. -/
def State.doWalk (s : State) (ends : Nat → Nat → State → State) (w : Walk) : State :=
  let r := s.walkRead (s.tableOf w) w.va
  let s := r.2
  match r.1 with
  | .fault f => { s with walks := s.walks.erase w }.walkFault ends w f
  | .absent size at_ leaf => s.startFetch w size at_ leaf
  | .present size leaf =>
    let s := { s with walks := s.walks.erase w }
    let e : TlbEntry := ⟨w.part, w.va / 2 ^ size * 2 ^ size, size, BitVec.ofNat 64 leaf⟩
    if w.stale.any (fun i => i.covers e.part e.va e.size) then s
    else match w.cacheOf with
      | some m => (s.fillTlb2 e).fillTlb1 m e
      | none => s.fillTlb2 e

/-- A walk can go on: it is not blocked, no line it reads is being filled (R203), and where it needs a new fetch, fewer than 64 run (R190). -/
def State.canWalk (s : State) (w : Walk) : Bool :=
  let r := s.walkPath (s.tableOf w) w.va
  !w.blocked && !r.2.any (fun a => s.fillingIn a 8) && (match r.1 with
    | .absent _ at_ _ => (s.fetchAt at_).isSome || decide (s.fetches.length < 64)
    | _ => true)

/-- The walk serves mover `m`. -/
def Walk.serves (w : Walk) (m : Nat) : Bool := w.who == .mover m || w.who == .prefetch m

/-- A walk is asked for, once; a second-level miss is counted (R186). A fault of it records the VA `shown`. -/
def State.askWalk (s : State) (who : Walker) (p table va shown : Nat) (acc : Access) : State :=
  let page := va / 2 ^ 16
  if s.walks.any (fun w => w.who == who && w.part == p && w.va / 2 ^ 16 == page) ||
      s.fetches.any (fun f => f.part == p && f.va == va / 2 ^ f.size * 2 ^ f.size && f.waiters.any (·.who == who)) then s
  else { s.add64 Reg.XLT_MISS_LO 1 with walks := s.walks ++ [⟨who, p, table, va, shown, acc, [], false⟩] }

/-! ## The end of a fetch -/

/-- A flag of the claimed lookup of a residency entry is set. -/
def State.markLookup (s : State) (p e : Nat) (failed discarded : Bool) : State :=
  { s with lookups := s.lookups.map (fun l =>
      if l.part = p ∧ l.entry = e ∧ l.claimed then { l with failed := l.failed || failed, discarded := l.discarded || discarded } else l) }

/-- The level of a leaf of a page size. -/
def sizeLevel (size : Nat) : Nat := if size = 30 then 2 else if size = 21 then 3 else 4

/-- The unit of a mover that waited on a fetch that received poison completes with the data as read: its translation serves this unit alone
(R191). -/
def State.grantRead (s : State) (f : Fetch) (m : Nat) : State :=
  s.modMover m (fun x => { x with work := { x.work with
    poison := 4
    grants := ⟨f.part, f.va, f.size, BitVec.ofNat 64 (f.frame + f.leaf.toNat % 32 / 2 * 2 + 1)⟩ :: x.work.grants } })

/-- Each access that waited on a fetch that ended FAILED. `tier` says why: a lost home, or poison (R191). The entry at fault is the leaf; `ends`
as in `State.walkFault`. -/
def State.failWaiter (s : State) (ends : Nat → Nat → State → State) (f : Fetch) (tier : Bool) (w : Walk) : State :=
  let e : XlateFault := ⟨0x20, sizeLevel f.size, f.leaf.toNat⟩
  match w.who with
  | .mover m => if tier then ends m 0x20 (s.raiseXlate m f.part w.shown w.access e) else s.grantRead f m
  | .prefetch m => if tier then s.dropUnit m else s.grantRead f m
  | .abandoned _ => s
  | .fill => { s with fillJob := s.fillJob.map (fun j => { j with failed := true }) }
  | .early p e => s.markLookup p e true false
  | .engine =>
    if tier then s.walkFault ends w e
    else s

/-- The descriptor's second word with its flag (Table 08-7): bit 63 DONE, 62 FAILED, 61 DISCARDED. -/
def State.markDescriptor (s : State) (f : Fetch) (flag : Nat) : State :=
  (s.pass (f.descAt + 8) 8 true).writeNum (f.descAt + 8) 8 (f.va + f.part * 2 ^ 48 + 2 ^ flag)

/-- A partition reset completes once every fetch of its partition has ended, unless another is latched (R191, R395). -/
def State.settleReset (s : State) (p : Nat) : State :=
  if s.fetches.any (·.part == p) || (s.part p).resetLatched || !(s.part p).jobResets.isEmpty then s
  else s.setFlag (Reg.PRT_P_STAT.RESET_BUSY p) false

/-- The page is copied from its home to its frame, through the frame's Hearth slice. -/
def State.fetchCopy (s : State) (f : Fetch) : State :=
  (s.pass (f.frame % 2 ^ 54) (2 ^ f.size) true).copyRange (leafAddr f.leaf.toNat % 2 ^ 54) (f.frame % 2 ^ 54) (2 ^ f.size)

/-- A fetch has ended as `res` says (R189, R191); `ends` as in `State.walkFault`. -/
def State.fetchEnd (s : State) (ends : Nat → Nat → State → State) (f : Fetch) (res : EndKind) : State :=
  let home := leafAddr f.leaf.toNat
  if res = .tier ∨ s.homeUp (s.homeOf home) = false then
    let s := ((s.markDescriptor f 62).setFlag Reg.XLT_STATUS.FETCH_ERR true).xltInterrupt 191
    f.waiters.foldl (fun s w => s.failWaiter ends f true w) s
  else if res = .poison then
    f.waiters.foldl (fun s w => s.failWaiter ends f false w) (((s.fetchCopy f).markDescriptor f 62).countError (s.homeOf home))
  else
    let copied := (s.fetchCopy f).pass (f.leafAt % 2 ^ 54) 8 false
    if copied.num (f.leafAt % 2 ^ 54) 8 = f.leaf.toNat then
      let leaf := f.frame % 2 ^ 56 / 2 ^ 12 * 2 ^ 12 + f.leaf.toNat % 32 / 2 * 2 + 1
      let s := ((copied.pass (f.leafAt % 2 ^ 54) 8 true).writeNum (f.leafAt % 2 ^ 54) 8 leaf).markDescriptor f 63
      let s := s.add64 Reg.XLT_DEMAND_LO 1
      if f.stale then s else s.fillTlb2 ⟨f.part, f.va, f.size, BitVec.ofNat 64 leaf⟩
    else
      let s := copied.markDescriptor f 61
      f.waiters.foldl (fun s w => match w.who with
        | .early p e => s.markLookup p e false true
        | _ => s) s

/-- XLT_KICK: every TAIL is reread, so that waiting fetches try again (R190). -/
def State.kickRings (s : State) : State :=
  ({ s with walks := s.walks.map (fun w : Walk => { w with blocked := false }) }).setFlag Reg.XLT_STATUS.FRAME_WAIT false

/-- A write of XLT_CTRL by firmware. -/
def State.writeXltCtrl (s : State) (v : Word) : State :=
  let s := s.setReg Reg.XLT_CTRL (v &&& 3)
  if bitOf v.toNat 2 then s.kickRings else s

/-! ## Invalidation -/

/-- A write of XLT_INV_CTRL with START (R187): every matching cached entry is dropped, and walks and fetches in progress that match
will fill no cache. -/
def State.startInval (s : State) : State :=
  if s.flag Reg.XLT_STATUS.INV_BUSY then s.setFlag Reg.XLT_STATUS.INV_IGNORED true
  else
    let op := if s.fld Reg.XLT_INV_CTRL.OP = 3 then 0 else s.fld Reg.XLT_INV_CTRL.OP
    let i : Inval := ⟨op, s.fld Reg.XLT_INV_CTRL.PART,
      s.fld Reg.XLT_INV_VA_LO.VA * 2 ^ 16 + s.fld Reg.XLT_INV_VA_HI.VA * 2 ^ 32, s.fld Reg.XLT_INV_PAGES.PAGES, []⟩
    let units := (List.range 64).filter (fun m =>
      !(s.mover m).inflight.isEmpty && (match s.moverPart m with
        | some p => op == 0 || p == i.part
        | none => false))
    let s := s.dropTlb (fun e => i.covers e.part e.va e.size)
    let s := { s with
      walks := s.walks.map (fun w : Walk => { w with stale := i :: w.stale })
      fetches := s.fetches.map (fun f : Fetch => { f with stale := f.stale || i.covers f.part f.va f.size })
      inval := some { i with units := units } }
    s.setFlag Reg.XLT_STATUS.INV_BUSY true

/-- The hardware invalidates the translations of a partition (R187, R378, R379, R388). It takes the invalidation engine where that is
free. -/
def State.invalidatePart (s : State) (p : Nat) : State :=
  let i : Inval := ⟨1, p, 0, 0, []⟩
  let s := s.dropTlb (fun e => e.part == p)
  let s := { s with
    walks := s.walks.map (fun w : Walk => { w with stale := i :: w.stale })
    fetches := s.fetches.map (fun f : Fetch => { f with stale := f.stale || f.part == p }) }
  if s.inval.isSome then s else { s with inval := some i }.setFlag Reg.XLT_STATUS.INV_BUSY true

/-- A write of XLT_INV_CTRL: OP and PART take the value, unless an invalidation is in progress and START is written. -/
def State.writeInvCtrl (s : State) (v : Word) : State :=
  if bitOf v.toNat 31 && s.flag Reg.XLT_STATUS.INV_BUSY then s.setFlag Reg.XLT_STATUS.INV_IGNORED true
  else
    let s := s.setReg Reg.XLT_INV_CTRL (v &&& 0x030F0000)
    if bitOf v.toNat 31 then s.startInval else s

/-- A write of XLT_INV_CTRL as the row of an operation: START is set, and OP is one of those given. -/
def State.invalidate (s : State) (m : Master) (ops : List Nat) (v : Word) : State :=
  if bitOf v.toNat 31 && ops.contains (bits v.toNat 24 2) then s.byFirmware m Reg.XLT_INV_CTRL (·.writeInvCtrl v) else s

/-- A mover has no unit in flight that had used a matching translation: the units of a stopped partition are abandoned (R187). -/
def State.unitOver (s : State) (m : Nat) : Bool :=
  (s.mover m).inflight.isEmpty || (match s.moverPart m with
    | some p => !s.running p
    | none => false)

/-- A unit of mover `m` has ended: an invalidation no longer waits for it. -/
def State.invalUnit (s : State) (m : Nat) : State :=
  { s with inval := s.inval.map (fun i => { i with units := i.units.filter (· != m) }) }

/-- INVALIDATION_COMPLETE: INV_BUSY falls once nothing that used a matching translation is in flight (R187). -/
def invalidationComplete (s : State) : State :=
  match s.inval with
  | none => s
  | some i => if i.units.all s.unitOver then { s with inval := none }.setFlag Reg.XLT_STATUS.INV_BUSY false else s

/-! ## The rows -/

def execXltKick (m : Master) (v : Word) (s : State) : Host.Outcome State Fault Refusal :=
  .next (s.byFirmware m Reg.XLT_CTRL (·.writeXltCtrl v))
def execInvalidateAll (m : Master) (v : Word) (s : State) : Host.Outcome State Fault Refusal := .next (s.invalidate m [0, 3] v)
def execInvalidatePartition (m : Master) (v : Word) (s : State) : Host.Outcome State Fault Refusal := .next (s.invalidate m [1] v)
def execInvalidateRange (m : Master) (v : Word) (s : State) : Host.Outcome State Fault Refusal := .next (s.invalidate m [2] v)
def execInvalidationComplete (s : State) : Host.Outcome State Fault Refusal := .next (invalidationComplete s)

end Sys2Proof.Machine
end

