-- ==== Sys2Proof/Machine/Admission.lean ====
section
/-! DEFINITION. The entries of a capture list as the admission engine handles them (R298 to R300). -/
namespace Sys2Proof.Machine

/-- A job is resident and no switch is in progress (R382). -/
def State.hasJob (s : State) (p : Nat) : Bool :=
  s.partState p == 2 && s.flag (Reg.PRT_P_STAT.RES_VALID p) && s.fld (Reg.PRT_P_STAT.SWITCH p) == 0

/-! ## Weight sets -/

def State.wsCur (s : State) (w : Nat) : Nat := s.fld (Reg.CFG_WS_W0.CUR w)
def State.wsBase (s : State) (w k : Nat) : Nat :=
  s.fld (Reg.CFG_WS_BASE_LO.BASE w k) * 2 ^ 16 + s.fld (Reg.CFG_WS_BASE_HI.BASE w k) * 2 ^ 32
def State.wsCapt (s : State) (w k : Nat) : Nat := (s.reg (Reg.CFG_WS_CAPT w k)).toNat
def State.wsGen (s : State) (w k : Nat) : Nat := (s.reg (Reg.CFG_WS_GEN w k)).toNat

/-- FREED of a slot sets (R300). -/
def State.setFreed (s : State) (w k : Nat) : State :=
  s.setFlag (if k = 0 then Reg.CFG_WS_W0.FREED0 w else Reg.CFG_WS_W0.FREED1 w) true

/-- A weight set is VALID and belongs to a partition. -/
def State.wsOf (s : State) (w p : Nat) : Bool := decide (w < 512) && s.flag (Reg.CFG_WS_W0.VALID w) && s.fld (Reg.CFG_WS_W0.PART w) == p

/-! ## Lists -/

/-- One entry of a CAPTURE: the state and the entry after it, or the kind of the check that fails (R299). -/
def State.captureEntry (s : State) (part : Nat) (e : List Byte) : Except Nat (State × List Byte) :=
  let w := leNat (e.take 2)
  let k := s.wsCur w
  if s.wsOf w part = false then .error 1
  else if s.wsCapt w k = 2 ^ 32 - 1 then .error 2
  else
    .ok (s.setReg (Reg.CFG_WS_CAPT w k) (BitVec.ofNat 32 (s.wsCapt w k + 1)),
      e.take 2 ++ natLE 1 k ++ (e.drop 3).take 1 ++ natLE 4 (s.wsGen w k) ++ natLE 8 (s.wsBase w k))

/-- One entry of a RELEASE (R299, R300). -/
def State.releaseEntry (s : State) (part : Nat) (e : List Byte) : Except Nat (State × List Byte) :=
  let w := leNat (e.take 2)
  let slot := leNat ((e.drop 2).take 1)
  let k := slot % 2
  if s.wsOf w part = false then .error 1
  else if s.wsCapt w k = 0 ∨ s.wsGen w k ≠ leNat ((e.drop 4).take 4) ∨ 1 < slot then .error 3
  else
    let s := s.setReg (Reg.CFG_WS_CAPT w k) (BitVec.ofNat 32 (s.wsCapt w k - 1))
    .ok (if s.wsCapt w k = 0 ∧ k ≠ s.wsCur w then s.setFreed w k else s, e)

/-- The entries of a list, in order: the state and the list after them, or the kind and the number of the first that fails. -/
def State.admitEntries (s : State) (one : State → List Byte → Except Nat (State × List Byte)) : Nat → List Byte → Nat → Except (Nat × Nat) (State × List Byte)
  | 0, _, _ => .ok (s, [])
  | n + 1, l, i =>
    match one s (l.take 16) with
    | .error k => .error (k, i)
    | .ok (s, e) => match s.admitEntries one n (l.drop 16) (i + 1) with
      | .error k => .error k
      | .ok (s, r) => .ok (s, e ++ r)

/-- CAPTURE (0) or RELEASE (1) of a list for a partition. CAPTURE writes the witness selection of the step about to be admitted (R403). -/
def State.captureOrRelease (s : State) (op part : Nat) (l : List Byte) : Except (Nat × Nat) (State × List Byte) :=
  match s.admitEntries (fun s e => if op = 0 then s.captureEntry part e else s.releaseEntry part e) (l.length / 16) l 0 with
  | .error k => .error k
  | .ok (s, r) => .ok (if op = 0 ∧ s.hasJob part then s.writeSelection part (s.part part).nextStep else s, r)

/-- An operation that changes nothing is recorded. -/
def State.admitError (s : State) (kind entry : Nat) : State :=
  ((s.setFlag Reg.CFG_ADMIT_STAT.ERR true).setFld Reg.CFG_ADMIT_STAT.KIND kind).setFld Reg.CFG_ADMIT_STAT.ENTRY entry

end Sys2Proof.Machine
end

