-- ==== Sys2Proof/Machine/Enabling.lean ====
section
/-! DEFINITION. The enable and disable rule of R377, which partitions, stacks, ports and Banking share. -/
namespace Sys2Proof.Machine

/-- Where a block keeps STATE, ENABLE_PENDING and DISABLE_PENDING. -/
structure EnFields where
  state : Field
  enp : Field
  disp : Field

/-- The pending bits clear as the block enters OFF or ON (R377). -/
def State.clearPending (s : State) (f : EnFields) : State := (s.setFlag f.enp false).setFlag f.disp false

/-- EN is written (Table 16-1). -/
def State.enWritten (s : State) (f : EnFields) : State :=
  match s.fld f.state with
  | 0 => s.setFld f.state 1
  | 1 => s.setFlag f.disp false
  | 2 => s
  | _ => s.setFlag f.enp true

/-- DIS is written (Table 16-1). -/
def State.disWritten (s : State) (f : EnFields) : State :=
  match s.fld f.state with
  | 0 => s
  | 1 => s.setFlag f.disp true
  | 2 => s.setFld f.state 3
  | _ => s.setFlag f.enp false

/-- The work of an ENABLING or DISABLING completes (Table 16-1). -/
def State.workDone (s : State) (f : EnFields) : State :=
  match s.fld f.state with
  | 1 => (s.clearPending f).setFld f.state (if s.flag f.disp then 3 else 2)
  | 3 => (s.clearPending f).setFld f.state (if s.flag f.enp then 1 else 0)
  | _ => s

/-- The work of an ENABLING fails (Table 16-1). -/
def State.workFailed (s : State) (f : EnFields) : State :=
  if s.fld f.state = 1 then (s.clearPending f).setFld f.state 0 else s

/-- EN and DIS of one write: EN first (R377). -/
def State.enDis (s : State) (f : EnFields) (en dis : Bool) : State :=
  let s := if en then s.enWritten f else s
  if dis then s.disWritten f else s

/-- A Lipin port's fields. -/
def enPort (n : Nat) : EnFields :=
  ⟨Reg.MSH_PORT_STAT.STATE n, Reg.MSH_PORT_STAT.ENABLE_PENDING n, Reg.MSH_PORT_STAT.DISABLE_PENDING n⟩

/-- The fields of a stack, a warm port or a pool port. -/
def enTier (u : Nat) : EnFields :=
  ⟨Reg.TIER_UNIT.STATE u, Reg.TIER_UNIT.ENABLE_PENDING u, Reg.TIER_UNIT.DISABLE_PENDING u⟩

end Sys2Proof.Machine
end

