-- ==== Sys2Proof/Machine/Mesh.lean ====
section
/-! DEFINITION. The Lipin links (chapter 13): frames, retry, port states, packets, routing, loads and stores to other slots, and
messages. The places of fields in a packet's body after the header of Table 13-6 are the model's (log 14). -/
namespace Sys2Proof.Machine

/-! ## Coordinates and routing -/

def State.ownLogical (s : State) : Nat := 8 * s.fld Reg.MSH_COORD.LY + s.fld Reg.MSH_COORD.LX
def State.ownPhys (s : State) : Nat := 8 * s.fld Reg.MSH_COORD.PY + s.fld Reg.MSH_COORD.PX

/-- The physical index of a logical one (R316). -/
def State.l2p (s : State) (i : Nat) : Nat := s.fld (Reg.MSH_L2P.PHYS (i % 64))

/-- The coordinates disagree with the slot (R315). -/
def State.coordErr (s : State) : Bool :=
  s.fld Reg.MSH_COORD.PX % 2 != s.ownSlot % 2 || s.fld Reg.MSH_COORD.PY % 2 != s.ownSlot / 2

/-- A port carries packets (R311). -/
def State.portOn (s : State) (n : Nat) : Bool := s.fld (Reg.MSH_PORT_STAT.STATE n) == 2
def State.carries (s : State) (n : Nat) : Bool := s.portOn n && !s.flag (Reg.MSH_PORT_STAT.RETRAINING n)

/-- A port waits in DISABLING for acknowledgements (R311). -/
def State.stopping (s : State) (n : Nat) : Bool :=
  s.fld (Reg.MSH_PORT_STAT.STATE n) == 3 && !s.flag (Reg.MSH_PORT_STAT.RETRAINING n)

/-- The port of dimension order toward a physical index: east or west until PX matches, then north or south. -/
def dimOrder (px py d : Nat) : Nat :=
  if px < d % 8 then 1 else if d % 8 < px then 3 else if py < d / 8 then 0 else 2

/-- The routing rule of R316. -/
def State.route (s : State) (d : Nat) : Route :=
  let hop := fun n => if s.portOn n then Route.port n else .nowhere
  if d = 0xFF then hop 4
  else if d = s.ownPhys then .here
  else match bits (s.reg (Reg.MSH_RT (d / 8))).toNat (4 * (d % 8)) 4 with
    | 0 => hop (dimOrder (s.fld Reg.MSH_COORD.PX) (s.fld Reg.MSH_COORD.PY) d)
    | 1 => hop 0
    | 2 => hop 1
    | 3 => hop 2
    | 4 => hop 3
    | 5 => hop 4
    | _ => .nowhere

/-- Frames are discarded and counted (R316, R318). -/
def State.unrouted (s : State) (n : Nat) : State :=
  (s.setReg Reg.MSH_UNROUTED (s.reg Reg.MSH_UNROUTED + BitVec.ofNat 32 n)).setFlag Reg.MSH_STATUS.UNROUTED true

/-- Firmware is interrupted by the mesh (Table 13-12). -/
def State.mshInterrupt (s : State) (rule : Nat) : State := s.interruptIf (s.flag Reg.MSH_CTRL.INT_EN) rule

/-! ## Sending -/

def LipinPort.credit (x : LipinPort) (c : Nat) : Nat := Sparse.get (fun _ => 0) x.credits c
def LipinPort.owes (x : LipinPort) (v : Nat) : Nat := Sparse.get (fun _ => 0) x.owed v
def LipinPort.passes (x : LipinPort) (v : Nat) : Nat := Sparse.get (fun _ => 0) x.passing v

/-- The class of a packet's frames: its virtual channel, or 8 for a response of VC 0 (R312). -/
def packetClass (vc : Nat) (first : List Byte) : Nat := if vc = 0 ∧ first.getD 2 0 = 2 then 8 else vc

/-- The virtual channel of a class. -/
def classVc (c : Nat) : Nat := c % 8

/-- The share of a class: VC 0 divides its credits equally between requests and responses (R312). -/
def State.classShare (s : State) (c : Nat) : Nat :=
  let n := s.fld (Reg.MSH_VCCRD.FRAMES (classVc c))
  if c = 0 then n - n / 2 else if c = 8 then n / 2 else n

/-- Credits that come back for a channel. Those of VC 0 do not say which half they belong to: they go to the responses first, which a requester
always sinks (DESIGN CHOICE, log 9). -/
def State.giveCredits (s : State) (n v k : Nat) : State :=
  s.modPort n (fun x =>
    let add := fun (m : Sparse Nat) (c d : Nat) => Sparse.modify (fun _ => 0) m c (· + d)
    if v = 0 then
      let r := min k (s.classShare 8 - x.credit 8)
      { x with credits := add (add x.credits 8 r) 0 (k - r) }
    else { x with credits := add x.credits v k })

/-- The 40 bits of a frame's header (Table 13-4). -/
def frameHeader (f : Frame) : Nat :=
  f.vc % 8 * 2 ^ 37 + f.type % 4 * 2 ^ 35 + f.seq % 4096 * 2 ^ 23 + f.ack % 4096 * 2 ^ 11 + f.cvc % 8 * 2 ^ 8 + f.ccnt % 256

/-- One bit of the CRC-24 of R308. -/
def crcBit (c : Nat) : Nat := if bitOf c 23 then (2 * c % 2 ^ 24) ^^^ 0x864CFB else 2 * c

/-- The CRC-24 of bytes, most significant bit first (log 50), from a value. -/
def crc24 (c : Nat) : List Byte → Nat
  | [] => c
  | b :: bs => crc24 (Nat.repeat crcBit 8 (c ^^^ b.toNat * 2 ^ 16)) bs

/-- Every other byte of a list. -/
def everyOther : List Byte → List Byte
  | [] => []
  | [b] => [b]
  | b :: _ :: bs => b :: everyOther bs

/-- A frame on the wire (Table 13-3): its header, its payload, its CRC and the parity of the two interleaved codewords. -/
def frameWire (f : Frame) : List Byte :=
  let body := natLE 5 (frameHeader f) ++ (f.payload ++ natLE 256 0).take 256
  let data := body ++ natLE 3 (crc24 0xFFFFFF body)
  let even := everyOther data
  let odd := everyOther (data.drop 1)
  data ++ (List.range 8).map (fun i => BitVec.ofNat 8 (Sys2Proof.Config.fecParity (if i % 2 = 0 then even else odd) (i / 2)))

/-- The header of a frame as it leaves: the acknowledgement and one channel's credits (Table 13-4). -/
def LipinPort.header (x : LipinPort) (f : Frame) : Frame × LipinPort :=
  let ack := (x.rxSeq + 4095) % 4096
  match x.owed.head? with
  | some e => ({ f with ack := ack, cvc := e.1, ccnt := min 255 e.2 },
      { x with owed := Sparse.set (fun _ => 0) x.owed e.1 (e.2 - min 255 e.2) })
  | none => ({ f with ack := ack, cvc := 0, ccnt := 0 }, x)

/-- A frame leaves on a port. -/
def State.emitFrame (s : State) (n : Nat) (f : Frame) : State :=
  let r := (s.port n).header f
  (s.setPort n r.2).emit (.frame n r.1 (frameWire r.1))

/-- An IDLE frame carries an acknowledgement and credits. -/
def State.sendIdle (s : State) (n : Nat) : State :=
  if s.carries n then s.emitFrame n ⟨0, 2, 0, 0, 0, 0, []⟩ else s

/-- A CTRL frame: its code, its reason and the first bytes of an offending packet (R308). -/
def State.sendCtrl (s : State) (n code reason : Nat) (what : List Byte) : State :=
  if s.portOn n then
    s.emitFrame n ⟨0, 3, 0, 0, 0, 0, [BitVec.ofNat 8 code, BitVec.ofNat 8 reason] ++ natLE 14 0 ++ (what ++ natLE 16 0).take 16 ++ natLE 224 0⟩
  else s

/-- The classes in their order of R313: VERDICT, CONTROL, JOURNAL and LOADSTORE responses before all others. -/
def strictClasses : List Nat := [3, 5, 4, 8]

/-- The classes that share the port round-robin, one packet at a time. -/
def sharedClasses : List Nat := [0, 1, 2, 6, 7]

/-- The frames of the first packet queued in a class. -/
def LipinPort.packetLeft (x : LipinPort) (c : Nat) : Nat :=
  let l := x.queued.filter (·.cls == c)
  min l.length ((l.takeWhile (fun q => q.frame.type != 1)).length + 1)

/-- The frame of a class that may leave: it has a credit, and a new packet may begin where `begin` says so. A packet of one class of VC 0 waits
for the other's to end, and a request begins only with credits for all of it, so that no response waits for it (R312, R313). -/
def LipinPort.ready (x : LipinPort) (begin_ : Bool) (c : Nat) : Option Queued :=
  let going := x.open_.contains c
  let other := if c = 0 then 8 else 0
  let need := if classVc c = 0 ∧ going = false then x.packetLeft c else 1
  if (begin_ || going) && decide (need ≤ x.credit c) && !(classVc c == 0 && x.open_.contains other) then x.queued.find? (·.cls == c)
  else none

/-- The frame that leaves next (R313). -/
def LipinPort.next (x : LipinPort) (begin_ : Bool) : Option Queued :=
  (strictClasses ++ (sharedClasses.drop (x.turn % 5) ++ sharedClasses.take (x.turn % 5))).findSome? (x.ready begin_)

/-- The port after a frame of a class has left: its packet is open until its END, and the turn of a shared class passes with it. -/
def LipinPort.left (x : LipinPort) (q : Queued) : LipinPort :=
  let ended := q.frame.type == 1
  let at_ := sharedClasses.idxOf q.cls
  { x with
    open_ := if ended then x.open_.filter (· != q.cls) else if x.open_.contains q.cls then x.open_ else q.cls :: x.open_
    turn := if at_ < 5 then (if ended then (at_ + 1) % 5 else at_) else x.turn
    credits := Sparse.modify (fun _ => 0) x.credits q.cls (· - 1) }

/-- A forwarded frame leaves the receive buffer of the port by which it came, and its credit returns (R312). -/
def State.leaveBuffer (s : State) (q : Queued) : State :=
  match q.src with
  | none => s
  | some k =>
    (s.modPort k (fun x => { x with
      passing := Sparse.modify (fun _ => 0) x.passing q.frame.vc (· - 1)
      owed := Sparse.modify (fun _ => 0) x.owed q.frame.vc (· + 1) })).sendIdle k

/-- Queued frames leave while the port carries packets, credits last and fewer than 2,048 are unacknowledged (R309, R312). A port in DISABLING
ends the packets it has begun and sends no new one (R311). -/
def State.pump (s : State) (n : Nat) : Nat → State
  | 0 => s
  | k + 1 =>
    let x := s.port n
    if (s.carries n = false ∧ s.stopping n = false) ∨ x.resuming = true ∨ 2048 ≤ x.replay.length then s
    else match x.next (s.carries n) with
      | none => s
      | some q =>
        let g := { q.frame with seq := x.txSeq }
        let s := s.setPort n { x.left q with
          queued := x.queued.erase q
          txSeq := (x.txSeq + 1) % 4096
          replay := x.replay ++ [g]
          since := if x.replay.isEmpty then s.fcycles else x.since }
        ((s.emitFrame n g).leaveBuffer q).pump n k

def State.pumpAll (s : State) (n : Nat) : State := s.pump n (s.port n).queued.length

/-- A list cut into pieces of `n`, at most `k` of them. -/
def pieces {α : Type} (n : Nat) : Nat → List α → List (List α)
  | 0, _ => []
  | k + 1, l => if l.isEmpty then [] else l.take n :: pieces n k (l.drop n)

/-- The payloads of a packet's frames. -/
def packetPayloads (bytes : List Byte) : List (List Byte) :=
  (pieces 256 16 bytes).map (fun p => p ++ natLE (256 - p.length) 0)

/-- Payloads as frames of a channel; the last is END (R314). -/
def packetFrames (vc : Nat) (ps : List (List Byte)) : List Frame :=
  (List.range ps.length).map (fun i => ⟨vc, if i + 1 = ps.length then 1 else 0, 0, 0, 0, 0, ps.getD i []⟩)

/-- The frames of a packet are queued at a port. -/
def State.enqueue (s : State) (n vc : Nat) (src : Option Nat) (ps : List (List Byte)) : State :=
  (s.modPort n (fun x => { x with
    queued := x.queued ++ (packetFrames vc ps).map (fun f => ⟨packetClass vc (ps.headD []), src, f⟩) })).pumpAll n

/-- A packet of the module's own goes where its first frame's DST says (R316). -/
def State.forward (s : State) (vc : Nat) (ps : List (List Byte)) : State :=
  match s.route ((ps.headD []).headD 0).toNat with
  | .here => s.modPort 0 (fun x => { x with packets := x.packets ++ [⟨vc, ps, BitVec.ofNat 64 s.tick, true⟩] })
  | .nowhere => s.unrouted ps.length
  | .port n => s.enqueue n vc none ps

/-- The header of Table 13-6. -/
def packetHeader (dst src kind epoch tag info : Nat) : List Byte :=
  [BitVec.ofNat 8 dst, BitVec.ofNat 8 src, BitVec.ofNat 8 kind, BitVec.ofNat 8 epoch] ++ natLE 4 tag ++ natLE 8 info

/-- A packet is sent to a physical index. -/
def State.sendPacket (s : State) (dst vc kind epoch tag info : Nat) (body : List Byte) : State :=
  s.forward vc (packetPayloads (packetHeader dst s.ownLogical kind epoch tag info ++ body))

/-! ## Packets received -/

def Packet.bytes (p : Packet) : List Byte := p.frames.flatten
def Packet.field (p : Packet) (o n : Nat) : Nat := leNat ((p.bytes.drop o).take n)
def Packet.dst (p : Packet) : Nat := p.field 0 1
def Packet.src (p : Packet) : Nat := p.field 1 1
def Packet.kind (p : Packet) : Nat := p.field 2 1
def Packet.epoch (p : Packet) : Nat := p.field 3 1
def Packet.tag (p : Packet) : Nat := p.field 4 4
def Packet.info (p : Packet) : Nat := p.field 8 8
def Packet.body (p : Packet) : List Byte := p.bytes.drop 16

/-- The first packet of a port that meets a test. -/
def State.firstPacket (s : State) (n : Nat) (test : Packet → Bool) : Option Packet := (s.port n).packets.find? test

/-- A packet leaves the receive buffer, and its credits return (R312). -/
def State.takePacket (s : State) (n : Nat) (p : Packet) : State :=
  let s := s.modPort n (fun x => { x with
    packets := x.packets.erase p
    owed := if p.loop then x.owed else Sparse.modify (fun _ => 0) x.owed p.vc (· + p.frames.length) })
  if p.loop then s else s.sendIdle n

/-- A logical index of a group's mask. -/
def State.groupMask (s : State) (g : Nat) : Nat := s.reg64 (Reg.MSH_GRP_MASK_LO g)
def State.groupValid (s : State) (g : Nat) : Bool := s.flag (Reg.MSH_GRP_CTL.VALID g)
def State.groupPart (s : State) (g : Nat) : Nat := s.fld (Reg.MSH_GRP_CTL.PART g)

/-- The members of a group by logical index, in rank order (R320). -/
def State.members (s : State) (g : Nat) : List Nat := (List.range 64).filter (bitOf (s.groupMask g))

/-- The rank of a logical index in a group. -/
def State.rank (s : State) (g i : Nat) : Nat := ((s.members g).filter (· < i)).length

/-- The group that a collective or broadcast packet names: bits [29:24] of TAG (log 14). -/
def Packet.group (p : Packet) : Nat := bits p.tag 24 6

/-- The members that a broadcast packet carries (log 14). -/
def Packet.mask (p : Packet) : Nat := leNat (p.body.take 8)

/-- A port faces another module of the board (R306). -/
def State.boardPort (s : State) (n : Nat) : Bool :=
  match n with
  | 0 => s.ownSlot / 2 == 0
  | 1 => s.ownSlot % 2 == 0
  | 2 => s.ownSlot / 2 == 1
  | 3 => s.ownSlot % 2 == 1
  | _ => false

/-- A logical index belongs to the own board. -/
def State.onBoard (s : State) (i : Nat) : Bool :=
  let p := s.l2p i
  p % 8 / 2 == s.fld Reg.MSH_COORD.PX / 2 && p / 8 / 2 == s.fld Reg.MSH_COORD.PY / 2

/-- A request with the tag is outstanding to another slot. -/
def State.tagOut (s : State) (tag : Nat) : Option Outstanding := s.outstanding.find? (fun o => o.tag == tag && decide (16 ≤ o.port) && o.sent)

/-- The packet is a collective's or a broadcast's, for this module. -/
def State.groupPacket (s : State) (p : Packet) : Bool :=
  (p.kind == 3 && p.dst == s.ownPhys) || (p.kind == 5 && bitOf p.mask s.ownLogical)

/-- A collective or broadcast packet of another EPOCH than the group's partition has (R326). -/
def State.otherEpoch (s : State) (p : Packet) : Bool :=
  s.groupPacket p && s.groupValid p.group && p.epoch != s.fld (Reg.MSH_P_CTRL.EPOCH (s.groupPart p.group))

/-- The violation of Table 13-9 that a whole packet makes, as the NAK's reason; 0 where it makes none. A late response is none (R318), nor is a
packet of another EPOCH (R326). -/
def State.packetViolation (s : State) (n : Nat) (p : Packet) : Nat :=
  if 16 < p.frames.length ∨ p.kind = 0 ∨ 5 < p.kind ∨ (127 < p.dst ∧ p.dst ≠ 0xFF) ∨
      (p.epoch ≠ 0 ∧ p.kind ≠ 3 ∧ p.kind ≠ 5) ∨ (p.kind = 4 ∧ p.info ≠ 0) then 2
  else if (p.vc = 0 ∨ p.vc = 4) ∧ (s.boardPort n = false ∨ s.onBoard p.src = false) then 3
  else if p.dst = s.ownPhys ∧ p.kind = 2 ∧ (p.vc = 0 ∨ p.vc = 4) ∧ (s.tagOut p.tag).isNone ∧ s.lateTags.contains p.tag = false then 4
  else if s.groupPacket p ∧ s.otherEpoch p = false ∧ (s.groupValid p.group = false ∨ bitOf (s.groupMask p.group) p.src = false) then 5
  else 0

/-- What a port held when it leaves ON is discarded and counted: its replay buffer, the frames queued for it, and the received frames routed
to it (R311). Frames that were forwarded leave their receive buffers. -/
def State.dropPort (s : State) (n : Nat) : State :=
  let x := s.port n
  let coming := fun (k : Nat) => ((s.port k).arriving.filter (fun a => a.route == .port n)).map (fun a => (a.vc, a.frames.length))
  let count := ((List.range 5).flatMap coming).map (·.2)
  let s := s.satFld (Reg.MSH_PORT_ERR_HI.DROP n) (x.replay.length + x.queued.length + count.sum)
  let s := (List.range 5).foldl (fun s k => s.modPort k (fun y => { y with
    owed := (coming k).foldl (fun m e => Sparse.modify (fun _ => 0) m e.1 (· + e.2)) y.owed
    arriving := y.arriving.map (fun a => if a.route = .port n then { a with route := .nowhere, frames := [] } else a) })) s
  let s := x.queued.foldl State.leaveBuffer s
  s.modPort n (fun x => { LipinPort.reset with packets := x.packets.filter (·.loop), violations := x.violations, period := x.period })

/-- A port in ON begins to disable, for a request or by itself; the tick is noted (R311). -/
def State.stopPort (s : State) (n : Nat) (f : State → State) : State :=
  let was := s.fld (Reg.MSH_PORT_STAT.STATE n)
  let s := f s
  if was ≠ 3 ∧ s.fld (Reg.MSH_PORT_STAT.STATE n) = 3 then s.modPort n (fun x => { x with stopTick := BitVec.ofNat 64 s.tick }) else s

/-- A port disables. -/
def State.disablePort (s : State) (n : Nat) : State := s.stopPort n (·.disWritten (enPort n))

/-- A violation is answered with a protocol NAK and counted; at the limit the port is isolated (R329, R330). -/
def State.violated (s : State) (n reason : Nat) (what : List Byte) : State :=
  let s := (s.satFld (Reg.MSH_PORT_ERR_HI.VIOL n) 1).sendCtrl n 2 reason what
  let x := s.port n
  let now := s.tick / 2 ^ 20
  let c := if x.period = now then x.violations + 1 else 1
  let s := s.setPort n { x with violations := c, period := now }
  if max 1 (s.fld Reg.MSH_CTRL.VIOL_LIMIT) ≤ c ∧ s.flag (Reg.MSH_PORT_STAT.ISOLATED n) = false then
    ((s.setFlag (Reg.MSH_PORT_STAT.ISOLATED n) true).disablePort n).mshInterrupt 330
  else s

/-- The packet leaves the receive buffer unused. -/
def State.discard (s : State) (n : Nat) (p : Packet) : State := (s.modPort n (fun x => { x with packets := x.packets ++ [p] })).takePacket n p

/-- The frames of a packet of another EPOCH are counted (R326). -/
def State.epochDrop (s : State) (p : Packet) : State :=
  s.setReg Reg.MSH_EPOCH_DROP (s.reg Reg.MSH_EPOCH_DROP + BitVec.ofNat 32 p.frames.length)

/-- A packet has arrived whole: it is refused, kept for its command, or forwarded as its first frame was routed (R314, R316, R319, R326, R329). A
forwarded packet stands in the receive buffer until its frames leave (R312). -/
def State.packetIn (s : State) (n : Nat) (route : Route) (p : Packet) : State :=
  match s.packetViolation n p with
  | 0 =>
    if s.otherEpoch p then (s.discard n p).epochDrop p
    else if p.kind = 5 then s.modPort n (fun x => { x with packets := x.packets ++ [p] })
    else match route with
      | .here => s.modPort n (fun x => { x with packets := x.packets ++ [p] })
      | .nowhere => (s.discard n p).unrouted p.frames.length
      | .port k =>
        if s.portOn k then
          (s.modPort n (fun x => { x with passing := Sparse.modify (fun _ => 0) x.passing p.vc (· + p.frames.length) })).enqueue k p.vc (some n) p.frames
        else (s.discard n p).unrouted p.frames.length
  | r => (s.discard n p).violated n r p.bytes

/-! ## Receiving frames -/

/-- The frames of the replay buffer that an ACK covers; none where it names a frame not yet sent (R309, R329). -/
def LipinPort.ackedBy (x : LipinPort) (ack : Nat) : Option Nat :=
  let sent := (ack + 1 + 4096 - (x.txSeq + 4096 - x.replay.length) % 4096) % 4096
  if sent ≤ x.replay.length then some sent else none

/-- The packet that arrives on a channel. -/
def LipinPort.coming (x : LipinPort) (v : Nat) : Option Arriving := x.arriving.find? (·.vc == v)

/-- The first bytes of the packet that a frame belongs to. -/
def LipinPort.packetStart (x : LipinPort) (f : Frame) : List Byte := ((x.coming f.vc).bind (·.frames.head?)).getD f.payload

/-- The acknowledgement and the credits of a good frame's header (R309, R312). -/
def State.headerIn (s : State) (n : Nat) (f : Frame) : State :=
  let s := s.giveCredits n f.cvc f.ccnt
  let x := s.port n
  match x.ackedBy f.ack with
  | some 0 => s
  | some k => s.setPort n { x with replay := x.replay.drop k, resent := 0, since := s.fcycles }
  | none => s.violated n 6 (x.packetStart f)

/-- The frames of the receive buffer on a channel, with those whose credit has not been returned. -/
def LipinPort.holds (x : LipinPort) (v : Nat) : Nat :=
  ((x.arriving.filter (·.vc == v)).map (·.frames.length)).sum +
    ((x.packets.filter (fun p => p.vc == v && !p.loop)).map (·.frames.length)).sum + x.passes v + x.owes v

/-- Where the first frame of a packet that arrives on port `n` says that it goes: what comes on the far port for 0xFF is for this module
(R316, R319). -/
def State.routeIn (s : State) (n : Nat) (first : List Byte) : Route :=
  let d := (first.headD 0).toNat
  if n = 4 ∧ d = 0xFF then .here else s.route d

/-- A DATA or END frame in SEQ order (R309, R312, R314): the route is decided from the packet's first frame. -/
def State.frameIn (s : State) (n : Nat) (f : Frame) : State :=
  let x := s.port n
  if f.seq ≠ x.rxSeq then s
  else
    let full := decide (s.fld (Reg.MSH_VCCRD.FRAMES f.vc) ≤ x.holds f.vc)
    let s := s.setPort n { x with rxSeq := (x.rxSeq + 1) % 4096, skipping := false }
    if full then s.violated n 1 (x.packetStart f)
    else
      let a := (x.coming f.vc).getD ⟨f.vc, s.routeIn n f.payload, []⟩
      let a := { a with frames := a.frames ++ [f.payload] }
      let rest := x.arriving.filter (·.vc != f.vc)
      if f.type = 0 then s.modPort n (fun x => { x with arriving := rest ++ [a] })
      else (s.modPort n (fun x => { x with arriving := rest })).packetIn n a.route ⟨f.vc, a.frames, BitVec.ofNat 64 s.tick, false⟩

/-- Every unacknowledged frame is sent again, the oldest first; after eight times the port must retrain (R309, R310). -/
def State.resend (s : State) (n : Nat) : State :=
  let x := s.port n
  if x.replay.isEmpty ∨ s.carries n = false then s
  else
    let s := s.setPort n { x with resent := x.resent + 1, since := s.fcycles }
    let s := x.replay.foldl (fun s f => s.emitFrame n f) s
    if 8 ≤ x.resent + 1 then s.setFlag (Reg.MSH_PORT_STAT.RETRAINING n) true else s

/-- REPLAY_TIMEOUT: ACK has not advanced for 1,800 f-cycles while frames are outstanding (R309). -/
def replayTimeout (n : Nat) (s : State) : State := if (s.port n).since + 1800 ≤ s.fcycles then s.resend n else s

/-- Sending resumes after a retrain, with the partner's first header (R310): what its ACK does not cover is sent again. -/
def State.resume (s : State) (n : Nat) : State :=
  if (s.port n).resuming then
    let s := s.modPort n (fun x => { x with resuming := false, since := s.fcycles })
    (s.port n).replay.foldl (fun s f => s.emitFrame n f) s
  else s

/-- What a good frame of each TYPE does beside its header. -/
def State.goodFrame (s : State) (n : Nat) (f : Frame) : State :=
  match f.type with
  | 0 => s.frameIn n f
  | 1 => s.frameIn n f
  | 2 => s
  | _ => match (f.payload.headD 0).toNat with
    | 1 => s.resend n
    | 2 => s.satFld (Reg.MSH_PORT_ERR_HI.NAK_RX n) 1
    | 3 => s.setFlag (Reg.MSH_PORT_STAT.RETRAINING n) true
    | _ => s.violated n 2 (f.payload.take 16)

/-- FRAME_RECEIVE (R309). A port in DISABLING takes acknowledgements and nothing else (R311). -/
def frameReceive (n : Nat) (chk : FrameCheck) (f : Frame) (s : State) : State :=
  let good := fun (s : State) =>
    if s.carries n then ((((s.headerIn n f).resume n).goodFrame n f)).pumpAll n else (s.headerIn n f).pumpAll n
  if s.carries n = false ∧ s.stopping n = false then s
  else match chk with
    | .good => good s
    | .fecCorrected => good (s.satFld (Reg.MSH_PORT_ERR_LO.CE n) 1)
    | .failed idle =>
      let s := s.satFld (Reg.MSH_PORT_ERR_LO.CRC n) 1
      if idle then s else (s.sendCtrl n 1 0 []).modPort n (fun x => { x with skipping := true })

/-- NAK: a CTRL NAK makes the transmitter resend from the oldest unacknowledged frame (R309). -/
def nakIn (n : Nat) (f : Frame) (s : State) : State :=
  if s.carries n then ((s.headerIn n f).resume n).resend n else if s.stopping n then s.headerIn n f else s

/-! ## Port states -/

/-- A write of MSH_PORTn_CTRL: CLASS while it is not locked, then EN and DIS (R307, R311, R315). -/
def State.writePortCtrl (s : State) (n : Nat) (v : Word) : State :=
  let s := if s.flag Reg.MSH_LOCK.LOCK ∨ n = 4 then s else s.setFld (Reg.MSH_PORT_CTRL.CLASS n) (bits v.toNat 2 2)
  let en := bitOf v.toNat 0 && !s.coordErr
  let was := s.fld (Reg.MSH_PORT_STAT.STATE n)
  let s := s.stopPort n (·.enDis (enPort n) en (bitOf v.toNat 1))
  if was = 0 ∧ en then s.setFlag (Reg.MSH_PORT_STAT.ISOLATED n) false else s

/-- A port that comes ON starts with the shares of every class (R312). -/
def State.linkUp (s : State) (n : Nat) : State :=
  s.setPort n { LipinPort.reset with
    credits := (List.range 9).foldl (fun m c => Sparse.set (fun _ => 0) m c (s.classShare c)) []
    packets := (s.port n).packets.filter (·.loop) }

/-- PORT_TRAINED (R307, R311). -/
def portTrained (n : Nat) (res : TrainResult) (s : State) : State :=
  if s.live = false ∨ s.fld (Reg.MSH_PORT_STAT.STATE n) ≠ 1 then s
  else match res with
    | .trained _ _ _ => (s.linkUp n).stopPort n (·.workDone (enPort n))
    | .failed => ((s.workFailed (enPort n)).setFlag (Reg.MSH_PORT_STAT.TRAIN_FAIL n) true).mshInterrupt 307

/-- DISABLING may end: every frame sent is acknowledged, the port retrains, or a Strike has passed (R311). -/
def State.mayStop (s : State) (n : Nat) : Bool :=
  (s.port n).replay.isEmpty || s.flag (Reg.MSH_PORT_STAT.RETRAINING n) || decide ((s.port n).stopTick.toNat + 1024 ≤ s.tick)

/-- PORT_DISABLE_COMPLETE (R311). -/
def portDisableComplete (n : Nat) (s : State) : State :=
  if s.fld (Reg.MSH_PORT_STAT.STATE n) ≠ 3 ∨ s.mayStop n = false then s
  else
    let s := ((s.dropPort n).setFlag (Reg.MSH_PORT_STAT.RETRAINING n) false).workDone (enPort n)
    if s.fld (Reg.MSH_PORT_STAT.STATE n) = 1 then s.setFlag (Reg.MSH_PORT_STAT.ISOLATED n) false else s

/-- RETRAIN: a port that must retrain does so, or fails; after three failures in a row it disables itself. After a retrain both partners send a
header, and sending goes on when the partner's has come (R310). -/
def retrain (n : Nat) (res : TrainResult) (s : State) : State :=
  if s.portOn n = false ∨ s.flag (Reg.MSH_PORT_STAT.RETRAINING n) = false then s
  else
    let s := s.satFld (Reg.MSH_PORT_STAT.RETRAINS n) 1
    match res with
    | .trained _ _ _ =>
      ((s.setFlag (Reg.MSH_PORT_STAT.RETRAINING n) false).modPort n (fun x => { x with resent := 0, failed := 0, resuming := true })).sendIdle n
    | .failed =>
      let k := (s.port n).failed + 1
      let s := s.modPort n (fun x => { x with failed := k })
      if 3 ≤ k then
        (((s.setFlag (Reg.MSH_PORT_STAT.RETRAINING n) false).disablePort n).setFlag
          (Reg.MSH_PORT_STAT.TRAIN_FAIL n) true).mshInterrupt 310
      else s

/-! ## Loads, stores and atomics on the board -/

/-- The physical index of the module at a slot of the board (R318). -/
def State.slotPhys (s : State) (slot : Nat) : Nat :=
  8 * (s.fld Reg.MSH_COORD.PY / 2 * 2 + slot / 2) + (s.fld Reg.MSH_COORD.PX / 2 * 2 + slot % 2)

/-- The code of an access in a request's body, and its operands (log 14). -/
def opBody (op : AccessOp) : List Byte :=
  match op with
  | .read n => natLE 2 0 ++ natLE 2 n ++ natLE 12 0
  | .write d => natLE 2 1 ++ natLE 2 d.length ++ natLE 12 0 ++ d
  | .atomicAdd v => natLE 2 2 ++ natLE 2 8 ++ natLE 12 0 ++ natLE 8 v.toNat
  | .atomicAnd v => natLE 2 3 ++ natLE 2 8 ++ natLE 12 0 ++ natLE 8 v.toNat
  | .atomicOr v => natLE 2 4 ++ natLE 2 8 ++ natLE 12 0 ++ natLE 8 v.toNat
  | .atomicSwap v => natLE 2 5 ++ natLE 2 8 ++ natLE 12 0 ++ natLE 8 v.toNat
  | .atomicCas c v => natLE 2 6 ++ natLE 2 8 ++ natLE 12 0 ++ natLE 8 c.toNat ++ natLE 8 v.toNat

/-- The access that a request's body spells. -/
def bodyOp (b : List Byte) : AccessOp :=
  let n := leNat ((b.drop 2).take 2)
  let v := BitVec.ofNat 64 (leNat ((b.drop 16).take 8))
  match leNat (b.take 2) with
  | 0 => .read n
  | 1 => .write ((b.drop 16).take n)
  | 2 => .atomicAdd v
  | 3 => .atomicAnd v
  | 4 => .atomicOr v
  | 5 => .atomicSwap v
  | _ => .atomicCas v (BitVec.ofNat 64 (leNat ((b.drop 24).take 8)))

/-- The slot can be reached: a route leads to it over a port that is ON. -/
def State.slotReachable (s : State) (slot : Nat) : Bool :=
  match s.route (s.slotPhys slot) with
  | .port _ => true
  | _ => false

/-- An access that has its tags leaves: to a CXL partner, or as a request packet to another slot (R318). -/
def State.launch (s : State) (o : Outstanding) : State :=
  if o.port < 16 then s.emit (.request o.port o.tag o.addr o.op)
  else s.sendPacket (s.slotPhys o.slot) (o.port - 16) 1 0 o.tag o.addr (opBody o.op)

/-- An access is asked for. It is sent if its holder has the tags, and waits for them otherwise (R213). -/
def State.ask (s : State) (port slot pa : Nat) (op : AccessOp) (who : Issuer) : State :=
  let o : Outstanding := ⟨s.nextTag, port, slot, s.tagsLeft who.holder (opTags op), who, pa, op, BitVec.ofNat 64 s.tick⟩
  let s := { s with outstanding := s.outstanding ++ [o], nextTag := s.nextTag + 1 }
  if o.sent then s.launch o else s

/-- Accesses that wait for tags are sent, in order, as far as the tags that have come back go (R213). -/
def State.sendWaiting (s : State) : State :=
  (s.outstanding.filter (fun o => !o.sent)).foldl (fun s o =>
    if s.tagsLeft o.issuer.holder (opTags o.op) then
      { s with outstanding := s.outstanding.map (fun (x : Outstanding) => if x.tag = o.tag then { x with sent := true, issued := BitVec.ofNat 64 s.tick } else x) }.launch o
    else s) s

/-- HEARTH_FILL: the oldest fill of a slice ends, and the units that waited on it may go on; an uncorrectable error is data as
read for them (R202, R203). The tags of the fill come back (R213). -/
def hearthFill (bay : Nat) (ecc : ReadEcc) (s : State) : State :=
  match s.hearthFills.find? (·.bay == bay) with
  | none => s
  | some f =>
    if s.gridLive = false then s
    else
      let s := { s with hearthFills := s.hearthFills.erase f }.sendWaiting
      let s := s.flipBytes (bay * stackSize + 128 * f.line) 128 ecc
      let s := (s.stackEcc bay ecc).hearthPut bay (128 * f.line) false
      if ecc.ue ≠ 0 then
        f.movers.foldl (fun s m => s.modMover m (fun x => { x with work := { x.work with poison := 3 } })) s
      else s

/-- Accesses that meet a test are given up. A response that still comes to one is late (R318). -/
def State.forget (s : State) (test : Outstanding → Bool) : State :=
  { s with
    outstanding := s.outstanding.filter (fun o => !test o)
    lateTags := s.lateTags ++ (s.outstanding.filter (fun o => test o && o.sent && decide (16 ≤ o.port))).map (fun (o : Outstanding) => o.tag) }.sendWaiting

/-- A request is sent to another slot and stands outstanding (R318); `vc` is 0, or 4 for a journal write. -/
def State.sendRequest (s : State) (vc slot pa : Nat) (op : AccessOp) (who : Issuer) : State := s.ask (16 + vc) slot pa op who

/-- What the home answers to a request from another slot: a status (0 served, 0x12 not served remotely, 0x20 its tier is not up)
and the data (R179, R318). An atomic must be aligned and on the hot tier (R196). -/
def State.serve (s : State) (pa : Nat) (op : AccessOp) : Nat × List Byte × State :=
  let run := fun (h : Home) =>
    if s.homeUp h then
      let r := s.homeAccess h op false
      (0, r.1, r.2)
    else (0x20, [], s)
  let atomic : Bool := match op with
    | .read _ => false
    | .write _ => false
    | _ => true
  match s.homeOf (s.ownSlot * 2 ^ 54 + pa % 2 ^ 54) with
  | .hot b off => if atomic ∧ off % 8 ≠ 0 then (0x11, [], s) else run (.hot b off)
  | .warm n off => if atomic then (0x11, [], s) else run (.warm n off)
  | _ => (0x12, [], s)

/-- The list that the admission engine has read in another slot is admitted, and written back; or the operation ends (R299). -/
def State.admitRemote (s : State) (op part pa : Nat) (data : List Byte) (kind : Nat) : State :=
  let ends := fun (s : State) => s.setFlag Reg.CFG_ADMIT_STAT.BUSY false
  if kind ≠ 0 then (ends s).admitError 4 0
  else match s.captureOrRelease op part data with
    | .error e => (ends s).admitError e.1 e.2
    | .ok (s, r) => if op = 0 then s.sendRequest 0 (pa / 2 ^ 54 % 4) pa (.write r) .admitted else ends s

/-- LOADSTORE_REQUEST: the oldest request packet of a port is served and answered (R318); it waits on a line that is being filled (R203). -/
def loadstoreRequest (n : Nat) (s : State) : State :=
  match s.firstPacket n (fun p => p.kind == 1 && (p.vc == 0 || p.vc == 4)) with
  | none => s
  | some p =>
    if s.fillingIn (p.info % 2 ^ 54) (opLen (bodyOp p.body)) then s else
    let s := s.takePacket n p
    let r := s.serve p.info (bodyOp p.body)
    r.2.2.sendPacket (s.l2p p.src) p.vc 2 0 p.tag p.info (natLE 2 r.1 ++ natLE 2 r.2.1.length ++ natLE 12 0 ++ r.2.1)

/-- What the end of an outstanding access means to its issuer: its data, whether poison came with it, and a fault kind or 0. A journal write
that was not served ends its copy: the records it belongs to are not acknowledged (R318, R371). -/
def State.accessEnd (s : State) (o : Outstanding) (data : List Byte) (poison : Bool) (kind : Nat) : State :=
  let s := { s with outstanding := s.outstanding.filter (fun x => x.tag != o.tag) }.sendWaiting
  match o.issuer with
  | .mover m => s.modMover m (fun x => { x with work := { x.work with
      data := if opWrites o.op then x.work.data else x.work.data ++ [(o.addr, data)]
      poison := if poison then 4 else x.work.poison
      fail := if kind = 0 then x.work.fail else kind
      failAt := if kind = 0 then x.work.failAt else o.addr } })
  | .firmware => if opWrites o.op then s else s.answer (if kind = 0 then data else natLE (opLen o.op) 0)
  | .host f _ =>
    match o.op with
    | .write _ => s
    | _ => if kind = 0 then s.emit (.completion f 0 data poison) else s.emit (.completion f 2 [] false)
  | .engine k =>
    if kind = 0 then s
    else
      let s := { s with collectives := s.collectives.map (fun (c : Collective) => if (c.part, c.epoch, c.step, c.seq) = k then { c with written := false } else c) }
      if s.running k.1 then s.took.moverFault 48 k.1 (xlateCode kind) kind 0 (s.fresh % 2 ^ 48) 2 0 else s
  | .admission op part pa => s.admitRemote op part pa data kind
  | .admitted => s.setFlag Reg.CFG_ADMIT_STAT.BUSY false
  | .journal => if kind = 0 then s else { s with journal := { s.journal with unmirrored := true } }
  | .dropped _ => s

/-- LOADSTORE_RESPONSE: the oldest response packet of a port completes its access, or is late (R318). -/
def loadstoreResponse (n : Nat) (s : State) : State :=
  match s.firstPacket n (fun p => p.kind == 2 && (p.vc == 0 || p.vc == 4)) with
  | none => s
  | some p =>
    let s := s.takePacket n p
    match s.tagOut p.tag with
    | none => { s with lateTags := s.lateTags.erase p.tag }.unrouted p.frames.length
    | some o => s.accessEnd o ((p.body.drop 16).take (leNat ((p.body.drop 2).take 2))) false (leNat (p.body.take 2))

/-- LOADSTORE_TIMEOUT: no response within LS_TO Strikes (R318). -/
def loadstoreTimeout (tag : Nat) (s : State) : State :=
  match s.tagOut tag with
  | none => s
  | some o =>
    if o.issued.toNat + 1024 * max 1 (s.fld Reg.MSH_CTRL.LS_TO) ≤ s.tick then
      let s := { s with lateTags := s.lateTags ++ [tag] }
      let s := match o.issuer, opWrites o.op with
        | .firmware, false => (s.setFlag Reg.MSH_STATUS.LS_TIMEOUT true).mshInterrupt 318
        | _, _ => s
      s.accessEnd o [] false 0x20
    else s

/-! ## Messages -/

/-- The channel of a message ring: VERDICT, CONTROL, BULK0, BULK1 (R319). -/
def ringVc (ch : Nat) : Nat := [3, 5, 6, 7].getD ch 7

/-- The base of a message ring, its size, and a slot; `d` is 0 transmit, 1 receive. -/
def State.msgBase (s : State) (ch d : Nat) : Nat :=
  (s.fld (Reg.MSH_MSG_BASE_LO.BASE ch d) * 2 ^ 6 + s.fld (Reg.MSH_MSG_BASE_HI.BASE ch d) * 2 ^ 32) % 2 ^ 54
def State.msgSize (s : State) (ch d : Nat) : Nat := 2 ^ s.fld (Reg.MSH_MSG_BASE_HI.LOG2N ch d)
def State.msgSlot (s : State) (ch d i : Nat) : Nat := s.msgBase ch d + 4096 * (i % s.msgSize ch d)

/-- The messages of a transmit ring up to its TAIL are sent (R319). A length outside 1 to 4,032 is not sent (log 14). -/
def State.sendRing (s : State) (ch : Nat) : Nat → State
  | 0 => s
  | k + 1 =>
    let head := s.fld (Reg.MSH_MSG_HEAD.INDEX ch 0)
    if head = s.fld (Reg.MSH_MSG_TAIL.INDEX ch 0) then s
    else
      let a := s.msgSlot ch 0 head
      let s := s.pass a (64 + s.num (a + 2) 2) false
      let d := s.num a 1
      let len := s.num (a + 2) 2
      let body := s.bytes (a + 64) len
      let s := s.setFld (Reg.MSH_MSG_HEAD.INDEX ch 0) (head + 1)
      let s := if 0 < len ∧ len ≤ 4032 then s.sendPacket (if d = 0xFF then 0xFF else s.l2p d) (ringVc ch) 4 0 len 0 body else s
      s.sendRing ch k

/-- A write of MSH_CTRL: the limits and INT_EN, and MSG_KICK rereads every transmit TAIL (R319). -/
def State.writeMshCtrl (s : State) (v : Word) : State :=
  let s := s.setReg Reg.MSH_CTRL (v &&& 0xFFFF0002)
  if bitOf v.toNat 2 then (List.range 4).foldl (fun s ch => s.sendRing ch 65536) s else s

/-- The receive ring of a channel is full (R319). -/
def State.ringFull (s : State) (ch : Nat) : Bool :=
  decide (s.msgSize ch 1 ≤ (s.fld (Reg.MSH_MSG_HEAD.INDEX ch 1) + 2 ^ 16 - s.fld (Reg.MSH_MSG_TAIL.INDEX ch 1)) % 2 ^ 16)

/-- MESSAGE_RECEIVE: the oldest message packet of a channel enters the receive ring, or waits while it is full (R319).
The VERDICT rings belong to the SLG block while VERDICT_EN is 1 (R412). -/
def messageReceive (n ch : Nat) (s : State) : State :=
  match s.firstPacket n (fun p => p.kind == 4 && p.vc == ringVc ch) with
  | none => s
  | some p =>
    let head := s.fld (Reg.MSH_MSG_HEAD.INDEX ch 1)
    if s.ringFull ch = true ∨ (ch = 0 ∧ s.flag Reg.SLG_CTRL.VERDICT_EN) then s
    else
      let a := s.msgSlot ch 1 head
      let hdr := [BitVec.ofNat 8 s.ownLogical, BitVec.ofNat 8 p.src] ++ natLE 2 p.tag ++ natLE 4 0 ++ natLE 8 p.stamp.toNat ++ natLE 48 0
      let s := ((s.takePacket n p).pass a (64 + p.tag) true).write a (hdr ++ p.body.take p.tag)
      let s := s.setFld (Reg.MSH_MSG_HEAD.INDEX ch 1) (head + 1)
      (s.setFlag Reg.MSH_STATUS.MSG_RX true).mshInterrupt 319

/-! ## The rows -/

def execFrameReceive (n : Fin 5) (chk : FrameCheck) (f : Frame) (s : State) : Host.Outcome State Fault Refusal :=
  .next (frameReceive n chk f s)
def execHearthFill (bay : Fin 12) (ecc : ReadEcc) (s : State) : Host.Outcome State Fault Refusal := .next (hearthFill bay ecc s)
def execNak (n : Fin 5) (f : Frame) (s : State) : Host.Outcome State Fault Refusal := .next (nakIn n f s)
def execReplayTimeout (n : Fin 5) (s : State) : Host.Outcome State Fault Refusal := .next (replayTimeout n s)
def execRetrain (n : Fin 5) (res : TrainResult) (s : State) : Host.Outcome State Fault Refusal := .next (retrain n res s)
def execMshPortEnable (m : Master) (n : Fin 5) (v : Word) (s : State) : Host.Outcome State Fault Refusal :=
  .next (s.byFirmwareOrRack m (Reg.MSH_PORT_CTRL n) (·.writePortCtrl n v))
def execMshPortDisable (m : Master) (n : Fin 5) (v : Word) (s : State) : Host.Outcome State Fault Refusal :=
  .next (s.byFirmwareOrRack m (Reg.MSH_PORT_CTRL n) (·.writePortCtrl n v))
def execPortTrained (n : Fin 5) (res : TrainResult) (s : State) : Host.Outcome State Fault Refusal := .next (portTrained n res s)
def execPortDisableComplete (n : Fin 5) (s : State) : Host.Outcome State Fault Refusal := .next (portDisableComplete n s)
def execLoadstoreRequest (n : Fin 5) (s : State) : Host.Outcome State Fault Refusal := .next (loadstoreRequest n s)
def execLoadstoreTimeout (tag : Nat) (s : State) : Host.Outcome State Fault Refusal := .next (loadstoreTimeout tag s)
def execMsgKick (m : Master) (v : Word) (s : State) : Host.Outcome State Fault Refusal :=
  .next (s.byFirmwareOrRack m Reg.MSH_CTRL (·.writeMshCtrl v))
def execMshLock (m : Master) (v : Word) (s : State) : Host.Outcome State Fault Refusal :=
  .next (s.byFirmwareOrRack m Reg.MSH_LOCK (·.writeLock Reg.MSH_LOCK.LOCK v))

end Sys2Proof.Machine
end

