-- ==== Sys2Proof/Machine/Units.lean ====
section
/-! DEFINITION. The units of the movers (chapter 09). A unit is formed as one function of the state: it either can complete, with
everything it reads, writes, takes and sends, or it says what it waits for or which fault it meets (R192). -/
namespace Sys2Proof.Machine

/-- The mover that runs the unit, the partition it serves, and whether its addresses are physical, it allocates no lines (R204), and
it is a prefetch unit (R193). -/
structure Ctx where
  m : Nat
  p : Nat
  phys : Bool
  na : Bool
  prefetch : Bool
deriving DecidableEq, Repr

/-- A unit as it is formed: the state with its writes, the lines it reads in the hot tier (stack and offset), its accesses to CXL
partners (port and address) and its writes to other slots, the flits it sends (queue and flit) and those it takes from a queue; what the checks
of its next reads and of the flits it takes next find, and whether a read of a stack or of a line met an uncorrectable error. -/
structure Forming where
  s : State
  lines : List (Nat × Nat)
  partner : List (Nat × Nat × AccessOp)
  remote : List (Nat × Nat × AccessOp)
  outs : List (Nat × Flit)
  takes : List Nat
  total : Nat
  reads : List ReadEcc
  flits : List FlitEcc
  ue : Bool

/-- Why a unit cannot complete. -/
inductive Stop where
  /-- It waits: for a flit, for room in a queue or for its turn (true), or for a memory (false). -/
  | waits (queue : Bool)
  /-- It needs a translation of a partition. -/
  | walk (p va : Nat) (acc : Access)
  /-- It needs data of another slot. -/
  | fetch (slot pa n : Nat)
  /-- A fault: code, kind, level, VA, access and the last word of the record. -/
  | fault (code kind level va acc info : Nat)
  /-- A Billet bank refuses it (R160): tile, local address, kind of access; and the VA and the access code of its fault (R181, R188). -/
  | bank (t a kind va acc : Nat)
deriving DecidableEq, Repr

/-- A computation of a unit. -/
abbrev U (α : Type) := ReaderT Ctx (StateT Forming (Except Stop)) α

/-- A fault of Table 08-6 on an access. -/
def U.xlate {α : Type} (kind level va : Nat) (acc : Access) (entry : Nat) : U α :=
  throw (.fault (xlateCode kind) kind level va (accessCode acc) entry)

/-- A mover execution fault (R235): its kind, the address and cause it records. -/
def U.exec {α : Type} (kind va cause : Nat) : U α := throw (.fault codeViolation kind 0 va 0 cause)

def U.change (f : State → State) : U Unit := modify (fun e => { e with s := f e.s })

/-! ## Accesses -/

/-- The permission bit of a leaf for an access (Table 08-5). -/
def accBit : Access → Nat
  | .read => 2
  | .write => 3
  | .atomic => 4

/-- The board physical address of a VA for an access (R183, R186, R188). -/
def U.translate (va : Nat) (acc : Access) : U Nat := do
  let c ← read
  let e ← get
  if c.phys then return va % 2 ^ 56
  if 2 ^ 48 ≤ va then U.xlate 0x03 0 va acc 0
  match e.s.cached c.m c.p va with
  | none => throw (.walk c.p va acc)
  | some x =>
    if bitOf x.leaf.toNat (accBit acc) = false then U.xlate 0x10 (sizeLevel x.size) va acc x.leaf.toNat
    else
      if ((e.s.mover c.m).work.grants.contains x) = false then U.change (·.fillTlb1 c.m x)
      return leafAddr x.leaf.toNat + va % 2 ^ x.size

/-- What the check of the unit's next read finds. -/
def U.nextRead : U ReadEcc := do
  let e ← get
  match e.reads with
  | [] => return .clean
  | r :: l => do
    set { e with reads := l }
    return r

/-- What the check of the next flit that the unit takes finds. -/
def U.nextFlit : U FlitEcc := do
  let e ← get
  match e.flits with
  | [] => return .clean
  | r :: l => do
    set { e with flits := l }
    return r

/-- The data of an access to the SRAM window. -/
def U.sram (off va : Nat) (acc : Access) (op : AccessOp) : U (List Byte) := do
  let c ← read
  let ecc ← U.nextRead
  let e ← get
  let t := off / 0x2000000
  if c.phys = false ∧ e.s.partOf t ≠ some c.p then U.xlate 0x10 0 va acc 0
  let code := if c.phys then 0 else 0x40 + c.m
  let r := e.s.window off code (if c.phys then none else some c.p) op ecc
  match r.1 with
  | .done => do
    U.change (fun _ => r.2.2)
    return r.2.1
  | .waits => throw (.waits false)
  | .violation => throw (.bank t (off % 0x2000000) (if opWrites op then 2 else 1) va (accessCode acc))
  | .outside => U.xlate (match acc with | .atomic => 0x11 | _ => 0x10) 0 va acc 0

/-- A read of stack `b`. Its errors are counted, of a line that its slice holds only the uncorrectable ones; data in error are used as read (R202,
R205). -/
def U.hotRead (b off n : Nat) : U Unit := do
  let ecc ← U.nextRead
  modify (fun e =>
    let seen : ReadEcc := if e.s.hearthHas b off then { ecc with ce := 0 } else ecc
    { e with s := (e.s.flipBytes (b * stackSize + off) n ecc).stackEcc b seen, ue := e.ue || decide (ecc.ue ≠ 0) })

/-- An access to stack `b` through its Hearth slice (R203). A read with NA = 1 waits on a line that is being filled; the unit of one with NA = 0
waits for its lines when it commits. -/
def U.hotAccess (b off : Nat) (op : AccessOp) : U (List Byte) := do
  let c ← read
  let e ← get
  let w := opWrites op
  if w = false ∧ c.na = true ∧ e.s.filling b off = true then throw (.waits false)
  if w = false ∧ c.na = false then modify (fun e => { e with lines := e.lines ++ [(b, off / 128 * 128)] })
  if w = false then U.hotRead b off (opLen op)
  let e ← get
  let r := (if w || c.na then e.s.hearthLines b off (opLen op) w c.na else e.s).memOp (b * stackSize + off) op
  U.change (fun _ => r.2)
  return r.1

/-- An access to home `h` behind interface `i` of the partners, which serve no atomic (R196). -/
def U.partnerAccess (i pa va : Nat) (h : Home) (acc : Access) (op : AccessOp) : U (List Byte) := do
  let c ← read
  let e ← get
  if acc = .atomic then U.xlate 0x11 0 va acc 0
  let r := e.s.homeAccess h op c.na
  modify (fun e => { e with s := r.2, partner := e.partner ++ [(i, pa, op)] })
  return r.1

/-- An access to board slot `slot`: a write is sent, and a read waits for the data that the slot answers (R196, R197). -/
def U.remoteAccess (slot off pa va : Nat) (acc : Access) (op : AccessOp) : U (List Byte) := do
  let c ← read
  let e ← get
  if 0x90000000000 ≤ off then U.xlate 0x12 0 va acc 0
  if e.s.slotReachable slot = false then U.xlate 0x20 0 va acc 0
  if opWrites op then do
    modify (fun e => { e with remote := e.remote ++ [(slot, pa, op)] })
    return []
  else match (e.s.mover c.m).work.data.find? (·.1 == pa) with
    | some d => return d.2
    | none => throw (.fetch slot pa (opLen op))

/-- One access of at most 128 bytes within an aligned unit; the data read, or the old value. -/
def U.access (va : Nat) (acc : Access) (op : AccessOp) : U (List Byte) := do
  let pa ← U.translate va acc
  let c ← read
  let e ← get
  let up := e.s.homeUp (e.s.homeOf pa)
  let k := (e.s.mover c.m).work
  if k.fail ≠ 0 ∧ k.failAt = pa then U.xlate k.fail 0 va acc 0
  match e.s.homeOf pa with
  | .hot b off => if up then U.hotAccess b off op else U.xlate 0x20 0 va acc 0
  | .warm i off => if up then U.partnerAccess i pa va (.warm i off) acc op else U.xlate 0x20 0 va acc 0
  | .cold off => match e.s.coldPort off with
    | some i => U.partnerAccess (8 + i) pa va (.cold off) acc op
    | none => U.xlate 0x20 0 va acc 0
  | .sram off => U.sram off va acc op
  | .control _ => U.xlate 0x10 0 va acc 0
  | .remote slot off => U.remoteAccess slot off pa va acc op
  | .hole => do
    U.change (·.hole pa)
    return if opWrites op then [] else natLE (opLen op) 0

/-- Bytes of a range of VAs, unit by unit; `k` bounds the units. -/
def U.readRange : Nat → Nat → Nat → U (List Byte)
  | 0, _, _ => return []
  | k + 1, va, n => do
    if n = 0 then return []
    let m := min n (128 - va % 128)
    let a ← U.access va .read (.read m)
    let b ← U.readRange k (va + m) (n - m)
    return a ++ b

/-- `n` bytes at a VA. -/
def U.readVa (va n : Nat) : U (List Byte) := U.readRange (n / 128 + 2) va n

/-- The number in `n` bytes at a VA. -/
def U.numVa (va n : Nat) : U Nat := do
  let b ← U.readVa va n
  return leNat b

/-- Bytes written at a VA, a multiple of 128, unit by unit. -/
def U.writeVa : Nat → Nat → List Byte → U Unit
  | 0, _, _ => return ()
  | k + 1, va, d => do
    if d.isEmpty then return ()
    let m := min d.length (128 - va % 128)
    let _ ← U.access va .write (.write (d.take m))
    U.writeVa k (va + m) (d.drop m)

def U.write (va : Nat) (d : List Byte) : U Unit := U.writeVa (d.length / 128 + 2) va d

/-- A range of VAs is checked for writing before any byte of the unit is written (R192). -/
def U.checkWrite (va units : Nat) : U Unit :=
  (List.range units).forM (fun i => do
    let _ ← U.translate (va + 128 * i) .write
    return ())

/-! ## Queues -/

/-- The port tile of a mover. -/
def moverTile (m : Nat) : Nat := 20 * (m / 4)

/-- The payload of flit `i` waiting at the Local output of a queue, which the unit takes. -/
def U.takeFlit (q i : Nat) : U (List Byte) := do
  let c ← read
  let e ← get
  let t := moverTile c.m
  match (e.s.queue t q).held[i]? with
  | none => throw (.waits true)
  | some h =>
    if h.kind = .quench ∨ bitOf h.sent.toNat 4 then throw (.waits true)
    else do
      let ecc ← U.nextFlit
      let r := e.s.readHead t h ecc
      modify (fun e => { e with s := r.2, takes := e.takes ++ [q] })
      return payloadBytes r.1

/-- A flit sent to a queue of the port tile. -/
def U.send (q : Nat) (kind : FlitKind) (d : List Byte) : U Unit :=
  modify (fun e => { e with outs := e.outs ++ [(q, ⟨kind, payloadOf d⟩)] })

/-- Destination units, to a VA or to the queue that DSTQ names; `last` says that the command ends with them (R216). -/
def U.deliver (c : Cmd) (va : Nat) (last : Bool) (d : List Byte) : U Unit :=
  if c.dstq then
    let us := pieces 128 (d.length / 128 + 1) d
    (List.range us.length).forM (fun i =>
      U.send (c.dst % 32) (if last && i + 1 == us.length then .dataEnd else .data) (us.getD i []))
  else do
    U.checkWrite va (d.length / 128)
    U.write va d

/-! ## MOVE -/

/-- Source units of a row: from a VA, or flits of the queue that SRCQ names (R216). -/
def U.source (c : Cmd) (va units : Nat) : U (List Byte) :=
  if c.srcq then do
    let l ← (List.range units).mapM (fun i => U.takeFlit (c.src % 32) i)
    return l.flatten
  else U.readVa va (128 * units)

/-- The count of GATHER and SCATTER rows, and their length in units. -/
def rowCount (cnt : Nat) : Nat := cnt % 2 ^ 32
def rowUnits (cnt : Nat) : Nat := max 1 (bits cnt 32 16)

def copyUnit (c : Cmd) (k : Nat) : U Unit := do
  let d ← U.source c (c.src + 128 * k) 1
  U.deliver c (c.dst + 128 * k) (k + 1 == c.cnt) d

def gatherUnit (c : Cmd) (j : Nat) : U Unit := do
  let l := rowUnits c.cnt
  let i ← U.numVa (c.aux + 4 * j) 4
  let d ← if i = 2 ^ 32 - 1 then pure (natLE (128 * l) 0) else U.readVa (c.src + 128 * l * i) (128 * l)
  U.deliver c (c.dst + 128 * l * j) (j + 1 == rowCount c.cnt) d

/-- Every index of a list from entry `j` on, of which `k` remain, drops its row. -/
def U.restDropped (aux : Nat) : Nat → Nat → U Bool
  | 0, _ => return true
  | k + 1, j => do
    let i ← U.numVa (aux + 4 * j) 4
    if i = 2 ^ 32 - 1 then U.restDropped aux k (j + 1) else return false

/-- The last flit that goes to a queue carries DATA_END: that of the last row that is not dropped. -/
def scatterUnit (c : Cmd) (j : Nat) : U Unit := do
  let l := rowUnits c.cnt
  let i ← U.numVa (c.aux + 4 * j) 4
  if i = 2 ^ 32 - 1 ∧ c.srcq = false then return ()
  let d ← U.source c (c.src + 128 * l * j) l
  if i = 2 ^ 32 - 1 then return ()
  let last ← if c.dstq then U.restDropped c.aux (rowCount c.cnt - (j + 1)) (j + 1) else pure false
  U.deliver c (c.dst + 128 * l * i) last d

/-- DIAG's fields (R217): LU, SB, the pitch and the chunk size. -/
def diagLu (aux : Nat) : Nat := bits aux 0 6
def diagSb (aux : Nat) : Nat := bits aux 8 8
def diagPitch (aux : Nat) : Nat := bits aux 32 32
def diagChunk (aux : Nat) : Nat := if 0 < diagSb aux then (diagLu aux - 1) * 4 else diagLu aux * 4

/-- Output line `w` of DIAG (R217). -/
def diagUnit (c : Cmd) (w : Nat) : U Unit := do
  let lu := diagLu c.aux
  let ch := diagChunk c.aux
  let sb := diagSb c.aux
  let parts ← (List.range 32).mapM (fun i => do
    if i ≤ w ∧ w - i < c.cnt then do
      let row := c.src + (w - i) * diagPitch c.aux
      let e ← U.readVa (row + ch * i) ch
      let x ← U.readVa (row + 128 * (lu - 1) + sb * i) sb
      return (e, x)
    else return (natLE ch 0, natLE sb 0))
  let line := if 0 < sb
    then ((parts.flatMap (·.1) ++ natLE (128 * (lu - 1)) 0).take (128 * (lu - 1))) ++ ((parts.flatMap (·.2) ++ natLE 128 0).take 128)
    else parts.flatMap (·.1)
  U.deliver c (c.dst + 128 * lu * w) (w == c.cnt + 30) line

/-! ## Ingot records -/

/-- The bits of bytes, least significant first. -/
def bitsOf (bs : List Byte) : List Bool := bs.flatMap (fun b => (List.range 8).map (fun i => bitOf b.toNat i))

/-- A rank read from the code bits (R224), and the bits after it; none where the bits end or read x < 7. -/
def nextRank : List Bool → Option (Nat × List Bool)
  | false :: r => some (0, r)
  | true :: false :: a :: r => some (1 + ofBool a, r)
  | true :: true :: false :: a :: b :: r => some (3 + ofBool a + 2 * ofBool b, r)
  | true :: true :: true :: a :: b :: c :: d :: r =>
    let x := ofBool a + 2 * ofBool b + 4 * ofBool c + 8 * ofBool d
    if x < 7 then none else some (x, r)
  | _ => none

/-- `n` bytes of a NIBBLE granule from its ranks and its 32 literal bytes (R224). -/
def nibbles (rank : Nat) (lit : List Byte) : Nat → Nat → List Bool → Option (List Byte × List Bool)
  | 0, _, bs => some ([], bs)
  | n + 1, j, bs =>
    match nextRank bs with
    | none => none
    | some (r, rest) =>
      let lo := (lit.getD (j / 2) 0).toNat / 16 ^ (j % 2) % 16
      (nibbles rank lit n (j + 1) rest).map (fun x => (BitVec.ofNat 8 (bits rank (4 * r) 4 * 16 + lo) :: x.1, x.2))

/-- The raw granules of a record (R224): the modes of the granules, the literal bytes and the code bits left. -/
def granules (rank : Nat) : List Nat → List Byte → List Bool → Option (List Byte × List Byte × List Bool)
  | [], lit, bs => some ([], lit, bs)
  | mode :: ms, lit, bs =>
    match mode with
    | 0 => (granules rank ms lit bs).map (fun x => (natLE 64 0 ++ x.1, x.2))
    | 1 => if lit.length < 64 then none else (granules rank ms (lit.drop 64) bs).map (fun x => (lit.take 64 ++ x.1, x.2))
    | 2 =>
      if lit.length < 32 then none
      else match nibbles rank lit 64 0 bs with
        | none => none
        | some (d, rest) => (granules rank ms (lit.drop 32) rest).map (fun x => (d ++ x.1, x.2))
    | _ => none

/-- An Ingot record of `raw` units decoded; none where it is malformed (R225). -/
def ingotDecode (raw : Nat) (rec : List Byte) : Option (List Byte) :=
  let f := fun o n => leNat ((rec.drop o).take n)
  let m := ceilDiv raw 128
  let litBytes := f 12 4
  let codeBits := f 16 4
  let litGran := ceilDiv litBytes 64
  let codeGran := ceilDiv codeBits 512
  let map := f 64 (64 * m)
  let lit := (rec.drop (64 * (1 + m))).take litBytes
  let code := (rec.drop (64 * (1 + m + litGran))).take (64 * codeGran)
  if f 2 1 ≠ 1 ∨ f 0 2 ≠ raw ∨ f 3 1 ≠ 0 ∨ f 20 44 ≠ 0 ∨ rec.length ≠ 64 * (1 + m + litGran + codeGran) then none
  else
    match granules (f 4 8) ((List.range (2 * raw)).map (fun g => bits map (2 * g) 2)) lit ((bitsOf code).take codeBits) with
    | some (d, [], []) => some d
    | _ => none

/-- An engine-ready tile from its index entry (R223), which is at a VA; the fault records the entry's VA. -/
def U.ingotTile (entry : Nat) : U (Nat × List Byte) := do
  let e ← U.readVa entry 16
  let f := fun o n => leNat ((e.drop o).take n)
  let gran := f 8 2
  let raw := f 10 2
  let form := f 12 1
  if 2 ^ 48 ≤ f 0 8 ∨ f 0 8 % 64 ≠ 0 ∨ raw = 0 ∨ 640 < raw ∨ 1 < form ∨ f 13 3 ≠ 0 ∨ (form = 1 ∧ gran ≠ 2 * raw) then
    U.exec 0x48 entry 0
  if form = 0 ∧ gran = 0 then return (raw, natLE (128 * raw) 0)
  let rec ← U.readVa (f 0 8) (64 * gran)
  if form = 1 then return (raw, rec)
  match ingotDecode raw rec with
  | some d => return (raw, d)
  | none => U.exec 0x48 entry 0

/-- Tile `k` of INGOT (R222, R223): directly after tile k − 1 where AUX is 0. -/
def ingotUnit (c : Cmd) (k : Nat) : U Unit := do
  let before ← if c.aux = 0 ∧ c.dstq = false then do
      let l ← (List.range k).mapM (fun i => U.numVa (c.src + 16 * i + 10) 2)
      pure l.sum
    else pure (k * c.aux)
  let r ← U.ingotTile (c.src + 16 * k)
  U.deliver c (c.dst + 128 * before) (k + 1 == c.cnt) r.2

/-! ## Sources that are not rows -/

/-- A transform whose source is not a run of units, with SRCQ set: what it delivers is not stated (log 15). -/
def openUnit (c : Cmd) (va units : Nat) (last : Bool) : U Unit := do
  let e ← get
  U.change (·.took)
  U.deliver c va last (natLE (128 * units) e.s.fresh)

/-- Chunk `k` of PREF WARM: 32 KiB read into the Hearth slices of their stacks (R219). -/
def warmUnit (c : Cmd) (k : Nat) : U Unit :=
  (List.range 256).forM (fun i => do
    let _ ← U.access (c.src + 32768 * k + 128 * i) .read (.read 128)
    return ())

end Sys2Proof.Machine
end

