-- ==== Sys2Proof/Machine/Experts.lean ====
section
/-! DEFINITION. Expert routing (chapter 10): the units of PERM and UNPERM, and the residency engine. -/
namespace Sys2Proof.Machine

/-! ## Control block -/

/-- The control block of PERM and UNPERM (Table 10-1), and T, the count of tokens. -/
structure PermCtl where
  at_ : Nat
  tokens : Nat
  recs : Nat
  segs : Nat
  rows : Nat
  out : Nat
  place : Nat
  groups : Nat
  base : Nat
  experts : Nat
  ebase : Nat
  k : Nat
  fmt : Nat
  flags : Nat
  len : Nat
  plan : Nat
  sid : Nat
deriving DecidableEq, Repr

/-- A VA field of a control block: a multiple of 128 with bits [63:48] at 0. -/
def vaField (v : Nat) : Bool := v % 128 == 0 && decide (v < 2 ^ 48)

/-- The control block as read by unit `k`; ROUTE cause 1 where a field breaks R243 or Table 10-1, which only unit 0 raises (R254). -/
def U.permCtl (c : Cmd) (perm : Bool) (k : Nat) : U PermCtl := do
  let b ← U.readVa c.aux 128
  let f := fun o n => leNat ((b.drop o).take n)
  let p : PermCtl := ⟨c.aux, c.cnt, f 0 8, f 8 8, f 16 8, f 24 8, f 32 8, f 40 8, f 48 8, f 56 2, f 58 2, f 60 1, f 61 1, f 62 1,
    f 64 4, f 68 4, f 72 2⟩
  let common := decide (c.cnt ≤ 2 ^ 20) && [p.recs, p.segs, p.rows, p.out, p.place, p.groups, p.base].all vaField &&
    decide (1 ≤ p.experts) && decide (p.experts ≤ 1024) && decide (p.ebase + p.experts ≤ 65536) &&
    decide (1 ≤ p.k) && decide (p.k ≤ 16) && f 63 1 == 0 && f 74 54 == 0
  let own := if perm then
      p.base == 0 && p.fmt == 0 && decide (p.flags ≤ 1) && decide (1 ≤ p.len) && decide (p.len ≤ 640)
    else
      p.groups == 0 && p.flags == 0 && p.plan == 0 && p.sid == 0 && decide (p.fmt / 4 ≤ 1) && decide (p.fmt % 4 ≤ 1) &&
        p.len % 64 == 0 && decide (64 ≤ p.len) && decide (p.len ≤ 20480)
  if k ≠ 0 || (common && own) then return p else U.exec 0x4B c.aux 1

/-! ## Dispatch records -/

/-- The valid slots of a record: slot, global expert index and weight (R241). -/
def slotsOf (b : List Byte) : List (Nat × Nat × Nat) :=
  (List.range 16).filterMap (fun m =>
    let i := leNat ((b.drop (64 + 4 * m)).take 4)
    if i = 2 ^ 32 - 1 then none else some (m, i, leNat ((b.drop (4 * m)).take 4)))

/-- A record and its token's segment. -/
structure Token where
  seg : Nat
  slots : List (Nat × Nat × Nat)
deriving DecidableEq, Repr

/-- Every record and segment number of the layer (R247). -/
def U.tokens (p : PermCtl) : U (List Token) :=
  (List.range p.tokens).mapM (fun t => do
    let b ← U.readVa (p.recs + 128 * t) 128
    let g ← U.numVa (p.segs + 2 * t) 2
    return ⟨g, slotsOf b⟩)

/-- Two equal valid indices. -/
def hasTwins : List Nat → Bool
  | [] => false
  | i :: l => l.contains i || hasTwins l

/-- The checks of causes 2 and 3 on every record, in token order (R254). -/
def U.checkRecords (p : PermCtl) (ts : List Token) : U Unit :=
  (List.range ts.length).forM (fun t => do
    let is := ((ts.getD t ⟨0, []⟩).slots).map (·.2.1)
    if is.any (fun i => decide (i < p.ebase) || decide (p.ebase + p.experts ≤ i)) then U.exec 0x4B (p.recs + 128 * t) 2
    if hasTwins is || decide (p.k < is.length) then U.exec 0x4B (p.recs + 128 * t) 3)

/-- The tokens of the group of a layer's expert, in ascending index (R244). -/
def groupOf (p : PermCtl) (ts : List Token) (e : Nat) : List Nat :=
  (List.range ts.length).filter (fun t =>
    (ts.getD t ⟨0, []⟩).seg != 0 && (ts.getD t ⟨0, []⟩).slots.any (fun x => x.2.1 == p.ebase + e))

/-- A count rounded up to the row group of 8. -/
def padded (n : Nat) : Nat := ceilDiv n 8 * 8

/-- The groups of a layer with their first rows: tokens and F_e, in ascending expert (R244). -/
def groupsOf (p : PermCtl) (ts : List Token) : List (List Nat × Nat) :=
  ((List.range p.experts).foldl (fun a e =>
    let g := groupOf p ts e
    (a.1 ++ [(g, a.2)], a.2 + padded g.length)) (([] : List (List Nat × Nat)), 0)).1

/-- R_tot. -/
def totalRows (gs : List (List Nat × Nat)) : Nat := (gs.map (fun g => padded g.1.length)).sum

/-! ## PERM -/

/-- The shape word of a group (R258, R259). -/
def shapeWord (p : PermCtl) (ts : List Token) (e : Nat) (g : List Nat) : Nat :=
  let seg := fun i => (ts.getD (g.getD i 0) ⟨0, []⟩).seg
  let c := g.length
  c + (if c = 0 then 0 else if c ≤ p.plan then seg 0 else seg p.plan) % 2 ^ 16 * 2 ^ 32 + (p.sid + e) % 2 ^ 16 * 2 ^ 48

/-- The group table entry of an expert (Table 10-2). -/
def groupEntry (p : PermCtl) (ts : List Token) (e : Nat) (g : List Nat × Nat) : List Byte :=
  natLE 8 (shapeWord p ts e g.1) ++ natLE 4 g.2 ++ natLE 4 (padded g.1.length) ++ natLE 2 (p.ebase + e) ++ natLE 2 0xFFFF ++
    natLE 4 (if p.plan < g.1.length then g.1.getD p.plan 0 else 2 ^ 32 - 1) ++ natLE 104 0

/-- The destination row of a token's slot that names a global expert. -/
def destRow (p : PermCtl) (gs : List (List Nat × Nat)) (t i : Nat) : Nat :=
  let g := gs.getD (i - p.ebase) ([], 0)
  g.2 + (g.1.findIdx (· == t))

/-- The placement words of a token (R245). -/
def placeWords (p : PermCtl) (ts : List Token) (gs : List (List Nat × Nat)) (t : Nat) : List Byte :=
  let k := ts.getD t ⟨0, []⟩
  (List.range 16).flatMap (fun m => natLE 4 (match k.slots.find? (·.1 == m) with
    | some x => if k.seg = 0 then 2 ^ 32 - 1 else destRow p gs t x.2.1
    | none => 2 ^ 32 - 1))

/-- Destination row `r`: a copy of the token placed there, or zeros (R244). -/
def U.permRow (p : PermCtl) (r : Nat) (tok : Option Nat) : U Unit := do
  let d ← match tok with
    | some t => U.readVa (p.rows + 128 * p.len * t) (128 * p.len)
    | none => pure (natLE (128 * p.len) 0)
  U.checkWrite (p.out + 128 * p.len * r) p.len
  U.write (p.out + 128 * p.len * r) d

/-- The token placed in a destination row. -/
def tokenAt (gs : List (List Nat × Nat)) (r : Nat) : Option Nat :=
  match gs.find? (fun g => decide (g.2 ≤ r) && decide (r < g.2 + padded g.1.length)) with
  | some g => g.1[r - g.2]?
  | none => none

/-- The offset of an expert's entry in its partition's residency table (R255). -/
def State.rtEntry (s : State) (p e : Nat) : Nat := (s.reg64 (Reg.EXP_RTBASE_LO p) / 2 ^ 12 % 2 ^ 44 * 2 ^ 12) % 2 ^ 54 + 32 * e

/-- The non-empty experts are handed to the residency engine (R256). -/
def State.handExperts (s : State) (part : Nat) (p : PermCtl) (gs : List (List Nat × Nat)) : State :=
  if p.flags = 1 ∧ s.flag Reg.EXP_CTRL.EARLY_EN ∧ s.flag (Reg.EXP_RTBASE_LO.VALID part) then
    let es := (List.range p.experts).filter (fun e => !(gs.getD e ([], 0)).1.isEmpty)
    { s with lookups := s.lookups ++ es.map (fun e => ⟨part, s.rtEntry part (p.ebase + e), false, false, false⟩) }
  else s

/-- Unit 0 of PERM: the count phase, the group table, the placement array and destination row 0 (R247). -/
def permFirst (c : Cmd) : U Unit := do
  let x ← read
  let p ← U.permCtl c true 0
  let ts ← U.tokens p
  U.checkRecords p ts
  let gs := groupsOf p ts
  let tot := totalRows gs
  U.checkWrite p.groups p.experts
  U.checkWrite p.place (ceilDiv (64 * p.tokens) 128)
  (List.range p.experts).forM (fun e => U.write (p.groups + 128 * e) (groupEntry p ts e (gs.getD e ([], 0))))
  (List.range p.tokens).forM (fun t => U.write (p.place + 64 * t) (placeWords p ts gs t))
  if 0 < tot then U.permRow p 0 (tokenAt gs 0)
  modify (fun e => { e with total := max 1 tot })
  U.change (fun s =>
    let s := s.add64 Reg.EXP_EMPTY_LO (gs.filter (·.1.isEmpty)).length
    let s := s.add64 Reg.EXP_OVER_LO (gs.filter (fun g => decide (p.plan < g.1.length))).length
    s.handExperts x.p p gs)

/-- A later unit of PERM, from the group table and the placement array as they stand (R247). -/
def permNext (c : Cmd) (r : Nat) : U Unit := do
  let p ← U.permCtl c true r
  let last ← U.readVa (p.groups + 128 * (p.experts - 1)) 16
  let tot := leNat ((last.drop 8).take 4) + leNat ((last.drop 12).take 4)
  let rows ← (List.range p.tokens).mapM (fun t => U.readVa (p.place + 64 * t) 64)
  let tok := (List.range p.tokens).find? (fun t =>
    (List.range 16).any (fun m => leNat ((((rows.getD t []).drop (4 * m)).take 4)) == r))
  U.permRow p r tok
  modify (fun e => { e with total := max 1 tot })

/-- Unit `k` of PERM: unit 0 writes the group table, and each further unit a row of the permuted rows (R246 to R248). -/
def permUnit (c : Cmd) (k : Nat) : U Unit := if k = 0 then permFirst c else permNext c k

/-- The rows PERM has placed, which its notice carries: R_tot, 0 where the layer has no tokens. -/
def U.permNotice (c : Cmd) : U Nat := do
  let p ← U.permCtl c true 1
  let last ← U.readVa (p.groups + 128 * (p.experts - 1)) 16
  return leNat ((last.drop 8).take 4) + leNat ((last.drop 12).take 4)

/-! ## UNPERM -/

/-- The element of a row of a format: 0 FP32, 1 BF16, as FP32. -/
def rowElem (fmt : Nat) (b : List Byte) (i : Nat) : Nat :=
  if fmt = 0 then leNat ((b.drop (4 * i)).take 4) else leNat ((b.drop (2 * i)).take 2) * 2 ^ 16

/-- The bytes of an FP32 value in a format. -/
def elemBytes (fmt v : Nat) : List Byte := if fmt = 0 then natLE 4 (toF32 (ofF32 v)) else natLE 2 (fmtBf16.encode (ofF32 v))

/-- The bytes of a row of elements. -/
def elemRow (fmt n : Nat) : Nat := if fmt = 0 then 4 * n else 2 * n

/-- A list in ascending order of a key. -/
def insertBy (key : Nat × Nat × Nat → Nat) (x : Nat × Nat × Nat) : List (Nat × Nat × Nat) → List (Nat × Nat × Nat)
  | [] => [x]
  | y :: l => if key x ≤ key y then x :: y :: l else y :: insertBy key x l
def sortBy (key : Nat × Nat × Nat → Nat) (l : List (Nat × Nat × Nat)) : List (Nat × Nat × Nat) := l.foldl (fun a x => insertBy key x a) []

/-- Unit `t` of UNPERM: one combined row, written whole (R252, R253). -/
def unpermUnit (c : Cmd) (t : Nat) : U Unit := do
  let p ← U.permCtl c false t
  let ts ← U.tokens p
  let tot := totalRows (groupsOf p ts)
  let k := ts.getD t ⟨0, []⟩
  let words ← U.readVa (p.place + 64 * t) 64
  let word := fun m => leNat ((words.drop (4 * m)).take 4)
  let bad := (List.range 16).any (fun m =>
    let valid := k.seg != 0 && k.slots.any (·.1 == m)
    if valid then decide (tot ≤ word m) else word m != 2 ^ 32 - 1)
  if bad then U.exec 0x4B (p.recs + 128 * t) 4
  let fi := p.fmt % 4
  let fo := p.fmt / 4
  let inBytes := elemRow fi p.len
  let base ← if p.base = 0 then pure none else do
    let b ← U.readVa (p.base + inBytes * t) inBytes
    pure (some b)
  let terms := if k.seg = 0 then [] else sortBy (·.2.1) k.slots
  let rows ← terms.mapM (fun x => do
    let b ← U.readVa (p.rows + inBytes * word x.1) inBytes
    return (x.2.2, b))
  let vals := (List.range p.len).map (fun i =>
    rows.foldl (fun acc r => fma (rowElem fi r.2 i) r.1 acc) (match base with
      | some b => rowElem fi b i
      | none => 0))
  let o := elemRow fo p.len
  U.checkWrite (p.out + o * t) (o / 128)
  U.write (p.out + o * t) (vals.flatMap (elemBytes fo))

/-! ## The residency engine -/

/-- EXP_STATUS sets a bit, and firmware is interrupted where it is enabled. -/
def State.expStatus (s : State) (f : Field) : State := (s.setFlag f true).interruptIf (s.flag Reg.EXP_CTRL.INT_EN) 256

/-- RESIDENCY_LOOKUP: the first expert not yet looked up gets its update and, where it is HOMED, its claim and its walks (R256). Its entry is read
through the Hearth cache, once no line of it is being filled (R203). -/
def residencyLookup (s : State) : State :=
  match s.lookups.findIdx? (fun l => !l.claimed) with
  | none => s
  | some i =>
    let l := s.lookups.getD i ⟨0, 0, false, false, false⟩
    let a := l.entry
    if s.gridLive = false ∨ s.fillingIn a 32 then s
    else
      let s := s.pass a 32 false
      let region := s.num a 8
      let pages := s.num (a + 8) 2
      let psize := s.num (a + 10) 1
      let size := [16, 21, 30].getD psize 16
      let st := s.num (a + 11) 1
      let drop := { s with lookups := s.lookups.eraseIdx i }
      if region % 2 ^ 48 = 0 then drop
      else if 2 < psize ∨ 2 < st ∨ s.num (a + 12) 1 / 2 ≠ 0 ∨ s.num (a + 13) 3 ≠ 0 ∨ 2 ^ 48 ≤ region ∨ pages = 0 ∨
          region % 2 ^ size ≠ 0 then
        drop.expStatus Reg.EXP_STATUS.RT_ERR
      else
        let step := s.stepNo l.part
        let up := fun (s : State) =>
          let s := s.add64 Reg.EXP_LOOKUPS_LO 1
          if s.num (a + 16) 8 % 2 ^ 48 = step then s
          else ((s.pass a 32 true).writeNum (a + 16) 8 step).writeNum (a + 24) 8 (s.num (a + 24) 8 + 1)
        if st ≠ 1 then up drop
        else
          let s := ((up s).pass a 32 true).writeNum (a + 11) 1 2
          { s with
            lookups := s.lookups.set i { l with claimed := true }
            walks := s.walks ++ (List.range pages).map (fun i =>
              let va := region + i * 2 ^ size
              ⟨.early l.part a, l.part, s.ptBase l.part, va, va, .read, [], false⟩) }

/-- A walk or a fetch of the lookup is still under way. -/
def State.earlyBusy (s : State) (l : Lookup) : Bool :=
  s.walks.any (·.who == .early l.part l.entry) || s.fetches.any (fun f => f.waiters.any (·.who == .early l.part l.entry))

/-- RESIDENCY_CLOSE: when every fetch of a claimed expert has ended, its entry closes (R256). -/
def residencyClose (i : Nat) (s : State) : State :=
  match s.lookups[i]? with
  | none => s
  | some l =>
    if l.claimed = false ∨ s.earlyBusy l then s
    else
      let a := l.entry
      let s := { s with lookups := s.lookups.eraseIdx i }
      let s := if s.num (a + 11) 1 = 2 then (s.pass a 32 true).writeNum (a + 11) 1 (if l.failed || l.discarded then 1 else 0) else s
      if l.failed then s.expStatus Reg.EXP_STATUS.FETCH_ERR else s

def execResidencyLookup (s : State) : Host.Outcome State Fault Refusal := .next (residencyLookup s)
def execResidencyClose (i : Nat) (s : State) : Host.Outcome State Fault Refusal := .next (residencyClose i s)

end Sys2Proof.Machine
end

