-- ==== Sys2Proof/Machine/Kv.lean ====
section
/-! DEFINITION. KV contexts and pages, APPEND and the KV transform (chapter 11). -/
namespace Sys2Proof.Machine

/-! ## Geometry -/

/-- A KV geometry (R264). -/
structure KvGeo where
  kf : Nat
  dl : Nat
  dr : Nat
deriving DecidableEq, Repr

def KvGeo.ok (g : KvGeo) : Bool :=
  (g.kf == 0 || g.kf == 6) && g.dl % 128 == 0 && decide (128 ≤ g.dl) && decide (g.dl ≤ 1024) && (g.dr == 0 || g.dr == 64 || g.dr == 128)

/-- The units of the latent and the rotary part (Table 11-1), and LR. -/
def KvGeo.lat (g : KvGeo) : Nat := if g.kf = 0 then g.dl / 128 + 1 else g.dl / 64
def KvGeo.rot (g : KvGeo) : Nat := g.dr / 64
def KvGeo.lr (g : KvGeo) : Nat := g.lat + g.rot

/-- Positions of a page (R265). -/
def KvGeo.pp (g : KvGeo) : Nat := 512 / g.lr

/-! ## Contexts and pages -/

/-- A KV context record (Table 11-2). -/
structure KvCtx where
  at_ : Nat
  ptab : Nat
  length : Nat
  layers : Nat
  maxPages : Nat
deriving DecidableEq, Repr

/-- The context at a VA; KV cause 2 where it is malformed, its geometry is another one, or the layer is not one of its (R278). -/
def U.kvCtx (va : Nat) (g : KvGeo) (layer : Nat) : U KvCtx := do
  if vaField va = false then U.exec 0x4C va 2
  let b ← U.readVa va 128
  let f := fun o n => leNat ((b.drop o).take n)
  let c : KvCtx := ⟨va, f 0 8, f 8 6, f 14 2, f 16 4⟩
  let good := vaField c.ptab && decide (1 ≤ c.layers) && decide (c.layers ≤ 1024) && decide (1 ≤ c.maxPages) &&
    decide (c.maxPages ≤ 2 ^ 20) && f 21 1 == 0 && f 26 102 == 0
  if good && KvGeo.ok ⟨f 20 1, f 22 2, f 24 2⟩ && (⟨f 20 1, f 22 2, f 24 2⟩ : KvGeo) == g && decide (layer < c.layers) then
    return c
  else U.exec 0x4C va 2

/-- The VA of the row of a position (R265, R267), with causes 3 and 5. -/
def U.kvRow (c : KvCtx) (g : KvGeo) (layer pos : Nat) : U Nat := do
  if c.maxPages * g.pp ≤ pos then U.exec 0x4C c.at_ 3
  let e ← U.numVa (c.ptab + 8 * (layer * c.maxPages + pos / g.pp)) 8
  if e = 0 ∨ e % 2 ^ 16 ≠ 0 ∨ 2 ^ 48 ≤ e then U.exec 0x4C c.at_ 5
  return e + 128 * g.lr * (pos % g.pp)

/-! ## APPEND -/

/-- The control block of APPEND (Table 11-3). -/
structure AppendCtl where
  ent : Nat
  rot : Nat
  layer : Nat
  geo : KvGeo
deriving DecidableEq, Repr

/-- The control block of APPEND as unit `r` reads it, with cause 1, which only unit 0 raises (R278). -/
def U.appendCtl (c : Cmd) (r : Nat) : U AppendCtl := do
  let b ← U.readVa c.aux 128
  let f := fun o n => leNat ((b.drop o).take n)
  let a : AppendCtl := ⟨f 0 8, f 8 8, f 16 2, ⟨f 18 1, f 20 2, f 22 2⟩⟩
  let good := a.geo.ok && a.ent % 16 == 0 && decide (a.ent < 2 ^ 48) && f 19 1 == 0 && f 24 104 == 0 &&
    (if a.geo.dr = 0 then a.rot == 0 else vaField a.rot)
  if r ≠ 0 || good then return a else U.exec 0x4C c.aux 1

/-- The append entry of row `r`: the VA of its context record, 0 to skip the row, and the position (R270). -/
def U.appendEntry (a : AppendCtl) (r : Nat) : U (Nat × Nat) := do
  let e ← U.readVa (a.ent + 16 * r) 16
  return (leNat (e.take 8), leNat ((e.drop 8).take 6))

/-- LENGTH of the context of row `r`, which the unit reads as it starts (R271); none for a row that is skipped. -/
def U.appendLength (c : Cmd) (r : Nat) : U (Option Nat) := do
  let a ← U.appendCtl c r
  let e ← U.appendEntry a r
  if e.1 % 2 ^ 48 = 0 then return none
  let k ← U.kvCtx e.1 a.geo a.layer
  return some k.length

/-- Unit `r` of APPEND: one row written, or skipped (R270, R271). -/
def appendUnit (c : Cmd) (r : Nat) : U Unit := do
  let a ← U.appendCtl c r
  let e ← U.appendEntry a r
  if e.1 % 2 ^ 48 = 0 then return ()
  let k ← U.kvCtx e.1 a.geo a.layer
  let x ← read
  let u ← get
  let length := match (u.s.mover x.m).lens.find? (·.1 == r) with
    | some l => l.2
    | none => k.length
  if k.maxPages * a.geo.pp ≤ e.2 then U.exec 0x4C e.1 3
  if e.2 < length then U.exec 0x4C e.1 4
  let row ← U.kvRow k a.geo a.layer e.2
  let lat ← U.readVa (c.src + 128 * a.geo.lat * r) (128 * a.geo.lat)
  let rot ← U.readVa (a.rot + 128 * a.geo.rot * r) (128 * a.geo.rot)
  U.checkWrite row a.geo.lr
  U.write row (lat ++ rot)

/-! ## The KV transform -/

/-- The control block of the KV transform (Table 11-4). -/
structure KvCtl where
  src : Nat
  p0 : Nat
  mode : Nat
  kind : Nat
  limit : Nat
  layer : Nat
  geo : KvGeo
  col0 : Nat
  rpos : Nat
  kidx0 : Nat
  nk : Nat
  qd : Nat
  kd : Nat
deriving DecidableEq, Repr

/-- The control block as unit `n` reads it, with cause 1, which only unit 0 raises (R278). -/
def U.kvCtl (c : Cmd) (n : Nat) : U KvCtl := do
  let b ← U.readVa c.aux 128
  let f := fun o n => leNat ((b.drop o).take n)
  let k : KvCtl := ⟨f 0 8, f 8 6, f 14 1, f 15 1, f 16 6, f 22 2, ⟨f 24 1, f 26 2, f 28 2⟩, f 30 2, f 32 6, f 40 4, f 44 4, f 48 8, f 56 8⟩
  let good := decide (k.mode ≤ 2) && decide (k.kind ≤ 1) && k.geo.ok && f 25 1 == 0 && f 38 2 == 0 && f 64 64 == 0 &&
    (if k.mode = 2 then decide (1 ≤ k.nk) && decide (k.nk ≤ 65536) && decide (k.qd < 2 ^ 48) && decide (k.kd < 2 ^ 48)
      else vaField k.src) &&
    (k.mode != 1 || (k.col0 % 32 == 0 && decide (k.col0 + 32 * c.cnt ≤ k.geo.dl)))
  if n ≠ 0 || good then return k else U.exec 0x4C c.aux 1

/-- The bytes of the row of a position; none for one at or beyond LIMIT, which is never read (R277). A plain array has no row for a
position below RPOS: what stands there is not stated (log 15). -/
def U.kvPos (k : KvCtl) (ctx : Option KvCtx) (pos : Nat) : U (Option (List Byte)) := do
  let n := 128 * k.geo.lr
  if k.limit ≤ pos then return none
  match ctx with
  | some c => do
    let row ← U.kvRow c k.geo k.layer pos
    let b ← U.readVa row n
    return some b
  | none =>
    if pos < k.rpos then do
      let e ← get
      U.change (·.took)
      return some (natLE n e.s.fresh)
    else do
      let b ← U.readVa (k.src + n * (pos - k.rpos)) n
      return some b

/-- The element code and the scale code of an element of a part of a row: its base byte, its elements and its index. -/
def partElem (kf base n i : Nat) (b : List Byte) : Nat × Nat :=
  if kf = 0 then ((b.getD (base + i) 0).toNat, (b.getD (base + n + i / 32) 0).toNat)
  else (leNat ((b.drop (base + 2 * i)).take 2), 0)

/-- Element κ of a row: latent, rotary or padding (R274). -/
def scoreElem (g : KvGeo) (b : Option (List Byte)) (kappa : Nat) : Nat × Nat :=
  match b with
  | none => (0, 0)
  | some b =>
    if kappa < g.dl then partElem g.kf 0 g.dl kappa b
    else if kappa < g.dl + g.dr then partElem g.kf (128 * g.lat) g.dr (kappa - g.dl) b
    else (0, 0)

/-- The header unit of a block (R99). -/
def blockHeader (kidx kf : Nat) : List Byte := natLE 4 (kidx % 2 ^ 24) ++ natLE 1 kf ++ natLE 1 kf ++ natLE 122 0

/-- A weight block of 32 × 32 DPUs from its elements and scales by DPU row, column and position (R98, R99). -/
def weightBlock (kidx kf : Nat) (elem : Nat → Nat → Nat → Nat × Nat) : List Byte :=
  let ij := (List.range 1024).map (fun n => (n / 32, n % 32))
  let w := if kf = 0 then 1 else 2
  blockHeader kidx kf ++ ij.flatMap (fun e => (List.range 32).flatMap (fun x => natLE w (elem e.1 e.2 x).1)) ++
    (if kf = 0 then ij.flatMap (fun e => natLE 1 (elem e.1 e.2 0).2) else [])

/-- Block `c` of SCORE (R274). -/
def U.scoreBlock (k : KvCtl) (ctx : Option KvCtx) (c : Nat) : U (List Byte) := do
  let g := ceilDiv (k.geo.dl + k.geo.dr) 1024
  let rows ← (List.range 32).mapM (fun j => U.kvPos k ctx (k.p0 + 32 * (c / g) + j))
  return weightBlock (k.kidx0 + c % g) k.geo.kf (fun i j x => scoreElem k.geo (rows.getD j none) (1024 * (c % g) + 32 * i + x))

/-- Block `c` of VALUE: BF16, each element rounded once (R275). -/
def U.valueBlock (k : KvCtl) (ctx : Option KvCtx) (c : Nat) : U (List Byte) := do
  let rows ← (List.range 1024).mapM (fun i => U.kvPos k ctx (k.p0 + i))
  return weightBlock k.kidx0 6 (fun i j x =>
    match rows.getD (32 * i + x) none with
    | none => (0, 0)
    | some b =>
      let v := partElem k.geo.kf 0 k.geo.dl (k.col0 + 32 * c + j) b
      (if k.geo.kf = 0 then fmtBf16.encode (mxNum 0 v.1 v.2) else v.1, 0))

/-- Row `r` of MASK (R276). -/
def U.maskRow (k : KvCtl) (r : Nat) : U (List Byte) := do
  let q ← U.numVa (k.qd + 8 * r) 8
  let keys ← if k.kd = 0 then pure [] else do
    let b ← U.readVa k.kd (8 * k.nk)
    pure b
  let open_ := fun j =>
    let d := if k.kd = 0 then (k.p0 + j) + q / 2 ^ 48 * 2 ^ 48 else leNat ((keys.drop (8 * j)).take 8)
    decide (q / 2 ^ 48 ≠ 0) && d / 2 ^ 48 == q / 2 ^ 48 && decide (d % 2 ^ 48 ≤ q % 2 ^ 48) && decide (d % 2 ^ 48 < k.limit)
  let row := (List.range k.nk).flatMap (fun j => natLE 4 (if open_ j then 0 else negInf))
  return row ++ natLE (128 * ceilDiv k.nk 32 - row.length) 0

/-- Unit `n` of the KV transform: one block or mask row (R273). -/
def kvUnit (c : Cmd) (n : Nat) : U Unit := do
  let k ← U.kvCtl c n
  let ctx ← if k.mode ≠ 2 ∧ k.kind = 1 then do
      let x ← U.kvCtx k.src k.geo k.layer
      pure (some x)
    else pure none
  let d ← match k.mode with
    | 0 => U.scoreBlock k ctx n
    | 1 => U.valueBlock k ctx n
    | _ => U.maskRow k n
  U.deliver c (c.dst + d.length * n) (n + 1 == c.cnt) d

end Sys2Proof.Machine
end

