-- ==== Sys2Proof/Machine/Coll.lean ====
section
/-! DEFINITION. Collectives and broadcasts (R320 to R328, R391) and the exchanges of R251. The layouts of the packets' bodies are the
model's (log 14), and so are the readings that log 16 lists. -/
namespace Sys2Proof.Machine

/-! ## Writes of the ports' engines -/

/-- What a VA of a partition is to a write of the engines (R391): an address, a leaf that must be fetched, or a fault. -/
inductive EngineVa where
  | at_ (pa : Nat)
  | fetch (size leafAt leaf : Nat)
  | fault (f : XlateFault)
deriving DecidableEq, Repr

/-- The fault kind of a write of partition `p` at a physical address, or 0. -/
def State.engineKind (s : State) (p pa : Nat) : Nat :=
  match s.homeOf pa with
  | .sram off => if s.partOf (off / 0x2000000) = some p then 0 else 0x10
  | .control _ => 0x10
  | .remote slot off => if 0x90000000000 ≤ off then 0x12 else if s.slotReachable slot then 0 else 0x20
  | h => if s.homeUp h then 0 else 0x20

/-- A VA translated for a write by a level-1 table. No cache is filled. -/
def State.engineVa (s : State) (p table va : Nat) : EngineVa :=
  match s.walkTable table va with
  | .fault f => .fault f
  | .absent size at_ leaf => .fetch size at_ leaf
  | .present size leaf =>
    if bitOf leaf 3 = false then .fault ⟨0x10, sizeLevel size, leaf⟩
    else
      let pa := leafAddr leaf + va % 2 ^ size
      if s.engineKind p pa = 0 then .at_ pa else .fault ⟨s.engineKind p pa, 0, 0⟩

/-- A write of the engines that lies in the SRAM window, which they reach with the code of mover `m`. -/
def State.engineWindow (s : State) (m p pa : Nat) (d : List Byte) : Option WindowEnd :=
  match s.homeOf pa with
  | .sram off => some (s.window off (0x40 + m) (some p) (.write d) .clean)
  | _ => none

/-- One write of at most a unit. Those to partners and to other slots stand outstanding until they are acknowledged (R197). -/
def State.engineWrite (s : State) (key : Nat × Nat × Nat × Nat) (m p pa : Nat) (d : List Byte) : State :=
  match s.homeOf pa with
  | .sram off => (s.window off (0x40 + m) (some p) (.write d) .clean).2.2
  | .remote slot _ => s.sendRequest 0 slot pa (.write d) (.engine key)
  | .warm i off => (s.homeAccess (.warm i off) (.write d) false).2.ask i 0 pa (.write d) (.engine key)
  | .cold off => (s.homeAccess (.cold off) (.write d) false).2.ask (8 + (s.coldPort off).getD 0) 0 pa (.write d) (.engine key)
  | .hole => s.hole pa
  | .control _ => s
  | .hot b off => (s.homeAccess (.hot b off) (.write d) false).2

/-- Writes of the engines with the key are not all acknowledged yet. -/
def State.writesOut (s : State) (key : Nat × Nat × Nat × Nat) : Bool := s.outstanding.any (·.issuer == .engine key)

/-- Bytes at a VA cut at the boundaries of units. -/
def unitsAt : Nat → Nat → List Byte → List (Nat × List Byte)
  | 0, _, _ => []
  | k + 1, va, d => if d.isEmpty then [] else (va, d.take (128 - va % 128)) :: unitsAt k (va + (128 - va % 128)) (d.drop (128 - va % 128))

/-- How writes of the engines fare. -/
inductive EngineEnd where
  | done
  | waits
  | fault
deriving DecidableEq, Repr

/-- A fault of an engine's write is raised as mover `m`'s, once while the partition runs. -/
def State.engineFault (s : State) (m p va : Nat) (f : XlateFault) : EngineEnd × State :=
  (.fault, if s.running p then s.raiseXlate m p va .write f else s)

/-- Writes of the engines, all of them or none: every page is translated first, by a walk through the Hearth cache. A page that is not present is
fetched, and a bank that refuses the write, or a place that does not exist, is a permission fault (R188). -/
def State.engineWrites (s : State) (key : Nat × Nat × Nat × Nat) (m p table : Nat) (ws : List (Nat × List Byte)) : EngineEnd × State :=
  let us := ws.flatMap (fun w => unitsAt (w.2.length / 128 + 2) w.1 w.2)
  let pages := (us.map (fun u => u.1 / 2 ^ 16 * 2 ^ 16)).eraseDups
  if pages.any (fun va => (s.walkPath table va).2.any (fun a => s.fillingIn a 8)) then (.waits, s)
  else
    let s := pages.foldl (fun s va => (s.walkRead table va).2) s
    let pas := us.map (fun u => (u.1, s.engineVa p table u.1, u.2))
    let stop := pas.find? (fun u => match u.2.1 with
      | .at_ pa => (match s.engineWindow m p pa u.2.2 with
        | some w => w.1 != .done
        | none => false)
      | _ => true)
    match stop with
    | some (va, .fetch size at_ leaf, _) => (.waits, s.startFetch ⟨.engine, p, table, va, va, .write, [], false⟩ size at_ leaf)
    | some (va, .fault f, _) => s.engineFault m p va f
    | some (va, .at_ pa, d) => match s.engineWindow m p pa d with
      | some (.violation, _, t) => t.engineFault m p va ⟨0x10, 0, 0⟩
      | some (.outside, _, t) => t.engineFault m p va ⟨0x10, 0, 0⟩
      | _ => (.waits, s)
    | none => (.done, pas.foldl (fun s u => match u.2.1 with
      | .at_ pa => s.engineWrite key m p pa u.2.2
      | _ => s) s)

/-! ## A collective's shape -/

/-- Two entries are the same collective: (EPOCH, STEP, SEQ) of a partition (R325). -/
def Collective.key (c : Collective) : Nat × Nat × Nat × Nat := (c.part, c.epoch, c.step, c.seq)
def Contribution.key (x : Contribution) : Nat × Nat × Nat × Nat := (x.part, x.epoch, x.step, x.seq)
def CollRecord.key (r : CollRecord) : Nat × Nat × Nat × Nat := (r.part, r.epoch, r.step, r.seq)

def State.coll (s : State) (k : Nat × Nat × Nat × Nat) : Option Collective := s.collectives.find? (·.key == k)
def State.putColl (s : State) (c : Collective) : State :=
  { s with collectives := s.collectives.map (fun x => if x.key = c.key then c else x) }

/-- The number of members, and the own rank. -/
def State.collN (s : State) (c : Collective) : Nat := (s.members c.group).length
def State.collRank (s : State) (c : Collective) : Nat := s.rank c.group s.ownLogical

/-- The members that this one exchanges data with (R323). -/
def State.partners (s : State) (c : Collective) : List Nat :=
  let others := (s.members c.group).filter (· != s.ownLogical)
  match c.kind with
  | 0 => if s.collRank c = c.peer then others else ((s.members c.group)[c.peer]?).toList
  | 5 => [c.peer]
  | 6 => [c.peer]
  | _ => others

/-- IF and OF (Table 13-7). -/
def Collective.fmtIn (c : Collective) : Nat := c.fmt % 4
def Collective.fmtOut (c : Collective) : Nat := c.fmt / 4 % 4

/-- The bytes of a chunk of a reduction, as it is sent and as it is reduced (R322). -/
def State.chunkIn (s : State) (c : Collective) : Nat := 128 * (c.len / s.collN c)
def State.chunkElems (s : State) (c : Collective) : Nat := s.chunkIn c / elemRow c.fmtIn 1
def State.chunkOut (s : State) (c : Collective) : Nat := elemRow c.fmtOut (s.chunkElems c)

/-- A descriptor that names no collective of Tables 13-7 and 13-8, or a member that is not in the group (R323, log 16). -/
def State.collBad (s : State) (c : Collective) : Bool :=
  decide (6 < c.kind) || decide (63 < c.group) || !([2, 6, 7].contains c.vc) || decide (1 < c.fmtIn) || decide (1 < c.fmtOut) ||
    decide (1 < c.op) || (c.kind == 4 && decide (2 < c.mode)) || (c.kind == 0 && decide (s.collN c ≤ c.peer)) ||
    (decide (5 ≤ c.kind) && !(s.members c.group).contains c.peer)

/-! ## What a member has received -/

/-- The place from which the reduced chunks of an all-reduce are numbered. -/
def secondPhase : Nat := 2 ^ 40

def Collective.header (c : Collective) (i : Nat) : Option Contribution := c.got.find? (fun g => g.source == i && g.header)

/-- The data of a phase from a source, in the order sent. -/
def Collective.dataOf (c : Collective) (i : Nat) (second : Bool) : List Byte :=
  (c.got.filter (fun g => g.source == i && !g.header && (decide (secondPhase ≤ g.off) == second))).flatMap (·.data)

/-- Number `o` of `n` bytes in a header's data: KIND, GROUP, LEN and the bytes of the block that follows. -/
def headNum (h : Contribution) (o n : Nat) : Nat := leNat ((h.data.drop o).take n)

/-- The header agrees with the collective (R323). SENDTO and RECVFROM are each other's counterpart. -/
def Collective.agrees (c : Collective) (h : Contribution) : Bool :=
  (headNum h 0 1 == (match c.kind with
    | 5 => 6
    | 6 => 5
    | k => k)) && headNum h 1 1 == c.group && headNum h 4 4 == c.len

/-- Some header disagrees, or comes from a member that is not in the group. -/
def State.disagrees (s : State) (c : Collective) : Bool :=
  c.got.any (fun h => h.header && h.source != s.ownLogical && (!c.agrees h || !(s.members c.group).contains h.source))

/-- Everything of the first phase has arrived from a member. -/
def Collective.whole (c : Collective) (i : Nat) : Bool :=
  match c.header i with
  | some h => (c.dataOf i false).length == headNum h 8 8
  | none => false

def State.firstWhole (s : State) (c : Collective) : Bool := (s.partners c).all c.whole

/-- Every header and result has arrived. -/
def State.collWhole (s : State) (c : Collective) : Bool :=
  s.firstWhole c && (c.kind != 3 || (c.phase == 1 && (s.partners c).all (fun i => (c.dataOf i true).length == s.chunkOut c)))

/-! ## Reduction -/

/-- An element combined over the ranks in ascending order (R322). -/
def combine (op : Nat) : List Nat → Nat
  | [] => 0
  | v :: vs => vs.foldl (fun a b => if op = 0 then fadd a b else fmax a b) v

/-- The own chunk, reduced. LEN must be a multiple of n: where it is not, no result is stated (log 16). -/
def State.reduced (s : State) (c : Collective) : List Byte × State :=
  if c.len % s.collN c ≠ 0 then (natLE (s.chunkOut c) s.fresh, s.took)
  else
    let parts := (s.members c.group).map (fun i => c.dataOf i false)
    ((List.range (s.chunkElems c)).flatMap (fun k => elemBytes c.fmtOut (combine c.op (parts.map (fun p => rowElem c.fmtIn p k)))), s)

/-! ## Packets -/

/-- The most data bytes of a packet: 31 units, after the place and the length of the data. -/
def packetData : Nat := 3968

/-- The header packet to a member: KIND, GROUP, LEN and how many bytes follow. -/
def Collective.headData (c : Collective) (total : Nat) : List Byte :=
  natLE 1 c.kind ++ natLE 1 c.group ++ natLE 2 0 ++ natLE 4 c.len ++ natLE 8 total

/-- A packet of a collective is sent to a member. -/
def State.sendColl (s : State) (c : Collective) (dest : Nat) (header : Bool) (off : Nat) (d : List Byte) : State :=
  s.sendPacket (s.l2p dest) c.vc 3 c.epoch (ofBool header * 2 ^ 31 + c.group * 2 ^ 24) (c.step + c.seq * 2 ^ 48)
    (natLE 8 off ++ natLE 4 d.length ++ natLE 4 0 ++ d)

/-- A block of data is sent in packets. -/
def State.sendBlock (s : State) (c : Collective) (dest base : Nat) (d : List Byte) : State :=
  let ps := pieces packetData (d.length / packetData + 1) d
  (List.range ps.length).foldl (fun s i => s.sendColl c dest false (base + packetData * i) (ps.getD i [])) s

/-! ## Ends -/

/-- The records of a partition are kept for its last 256 collectives (R325). -/
def State.addRecord (s : State) (r : CollRecord) : State :=
  let mine := s.collRecords.filter (·.part == r.part)
  let kept := if 256 ≤ mine.length then s.collRecords.erase (mine.headD r) else s.collRecords
  { s with collRecords := kept ++ [r] }

/-- The oldest unit of a mover is the COLL of a descriptor. -/
def Mover.waitsFor (x : Mover) (desc : Nat) : Bool :=
  match x.inflight, x.queue with
  | .command _ :: _, c :: _ => c.op == 0xA0 && c.xfm == 6 && c.aux == desc
  | _, _ => false

/-- A collective ends (R321, R324): its record is kept where `keep` says so, and its mover's command may complete. -/
def State.collEnd (s : State) (c : Collective) (aborted keep : Bool) : State :=
  let s := { s with
    collectives := s.collectives.filter (fun x => !(x.key == c.key))
    staging := s.staging.filter (fun x => !(x.key == c.key)) }
  let s := if keep then s.addRecord ⟨c.part, c.epoch, c.step, c.seq, aborted⟩ else s
  s.modMover c.mover (fun x => if x.waitsFor c.desc then { x with work := { x.work with ended := true } } else x)

/-- A collective ends ABORTED (R324): its step is marked, and its command completes when STATUS has been written; DST holds undefined data.
`keep` says whether its completion record is kept. -/
def State.collAbort (s : State) (c : Collective) (keep : Bool) : State :=
  let s := s.putColl { c with got := [], abort := some (keep && c.abort.getD true) }
  if c.abort.isSome then s else s.markStep c.part c.step 5

/-- What can follow from what has arrived: a disagreement ends the collective, and an all-reduce sends its reduced chunk. -/
def State.collAdvance (s : State) (k : Nat × Nat × Nat × Nat) : State :=
  match s.coll k with
  | none => s
  | some c =>
    if c.abort.isSome then s
    else if s.disagrees c then s.collAbort c true
    else if c.kind = 3 ∧ c.phase = 0 ∧ s.firstWhole c then
      let r := s.reduced c
      let own : Contribution := ⟨c.part, s.ownLogical, c.epoch, c.step, c.seq, false, secondPhase, r.1, 0⟩
      let s := r.2.putColl { c with phase := 1, got := c.got ++ [own] }
      (s.partners c).foldl (fun s i => s.sendBlock c i secondPhase r.1) s
    else s

/-! ## The exchanges of R251 -/

def U.exNum (c : Collective) (k : Nat) : U Nat := U.numVa (c.cnts + Config.exchangeAt k) 8

/-- An expert's count and first row in the own PERM's group table. -/
def U.exEntry (groups ebase e : Nat) : U (Nat × Nat) := do
  let b ← U.readVa (groups + 128 * (e - ebase)) 16
  return (leNat (b.take 4), leNat ((b.drop 8).take 4))

/-- The tokens that the own PERM placed in `k` rows from `first` on, by its placement array, given as a list of words (R245). -/
def placedTokens (words : List Nat) (first k : Nat) : List Nat := (List.range k).map (fun i => words.findIdx (· == first + i) / 16)

/-- The control of an exchange of `n` members, of which the own rank is `own`; fields 0 and 1 are the own group table and its first expert, and
136 and 137 the own placement array and its tokens. -/
def U.exchange (c : Collective) (n own : Nat) : U Exchange := do
  let groups ← U.exNum c 0
  let ebase ← U.exNum c 1
  let len ← U.exNum c 2
  let layer ← U.exNum c 3
  let plan ← U.exNum c 4
  let out ← U.exNum c 5
  let counts ← U.exNum c 6
  let sid ← U.exNum c 7
  let held ← (List.range n).mapM (fun r => do
    let f ← U.exNum c (8 + 2 * r)
    let k ← U.exNum c (9 + 2 * r)
    return (f, k))
  let firsts ← if c.mode = 1 then pure [] else held.flatMapM (fun h => (List.range h.2).mapM (fun i => do
    let x ← U.exEntry groups ebase (h.1 + i)
    return (h.1 + i, x.2)))
  let tokens ← if c.mode = 1 then do
      let place ← U.exNum c 136
      let t ← U.exNum c 137
      let b ← U.readVa place (64 * t)
      let words := (List.range (16 * t)).map (fun i => leNat ((b.drop (4 * i)).take 4))
      let h := held.getD own (0, 0)
      (List.range h.2).mapM (fun i => do
        let x ← U.exEntry groups ebase (h.1 + i)
        return placedTokens words x.2 x.1)
    else pure []
  return ⟨len, layer, plan, out, counts, sid, held, firsts, tokens⟩

/-- The header of an exchange (Table 10-4) and its counts. -/
def exHeader (c : Collective) (x : Exchange) (source first : Nat) (counts : List Nat) : List Byte :=
  natLE 6 c.step ++ natLE 2 x.layer ++ natLE 2 source ++ natLE 2 counts.length ++ natLE 2 first ++ natLE 2 0 ++
    natLE 4 counts.sum ++ natLE 108 0 ++ counts.flatMap (natLE 4) ++ natLE (128 * ceilDiv counts.length 32 - 4 * counts.length) 0

/-- The block for rank `r` of a dispatch: the rows of each expert it holds, from the own groups. -/
def U.dispatchBlock (c : Collective) (x : Exchange) (own r : Nat) : U (List Byte) := do
  let h := x.held.getD r (0, 0)
  let groups ← U.exNum c 0
  let ebase ← U.exNum c 1
  let es ← (List.range h.2).mapM (fun i => U.exEntry groups ebase (h.1 + i))
  let rows ← es.flatMapM (fun e => U.readVa (c.src + 128 * x.len * e.2) (128 * x.len * e.1))
  return exHeader c x own h.1 (es.map (·.1)) ++ rows

/-- The block for rank `r` of a return: that source's output rows of each expert held here, which `own` ranks. -/
def U.returnBlock (c : Collective) (x : Exchange) (own ownRank n r : Nat) : U (List Byte) := do
  let h := x.held.getD ownRank (0, 0)
  let cs ← (List.range h.2).mapM (fun e => (List.range n).mapM (fun i => U.numVa (x.counts + 4 * (e * n + i)) 4))
  let base := fun e => ((cs.take e).map (fun l => padded l.sum)).sum
  let rows ← (List.range h.2).flatMapM (fun e =>
    let l := cs.getD e []
    U.readVa (c.src + 128 * x.len * (base e + (l.take r).sum)) (128 * x.len * l.getD r 0))
  return exHeader c x own h.1 (cs.map (fun l => l.getD r 0)) ++ rows

/-- The counts and the rows of a block received. -/
def exCounts (b : List Byte) : List Nat :=
  (List.range (leNat ((b.drop 10).take 2))).map (fun i => leNat ((b.drop (128 + 4 * i)).take 4))
def exRows (b : List Byte) : List Byte := b.drop (128 + 128 * ceilDiv (leNat ((b.drop 10).take 2)) 32)

/-- The rows of expert `e` in a block. -/
def exRowsOf (x : Exchange) (b : List Byte) (e : Nat) : List Byte :=
  ((exRows b).drop (128 * x.len * ((exCounts b).take e).sum)).take (128 * x.len * (exCounts b).getD e 0)

/-- The rank that sent row `i` of a group whose counts by rank are given. -/
def exSource : List Nat → Nat → Nat → Nat
  | [], _, r => r
  | n :: l, i, r => if i < n then r else exSource l (i - n) (r + 1)

/-- What a dispatch writes at its receiver: the groups' rows, padded; the group table; and the counts by source. The first token beyond PLAN is
known where this module is its source; no header says which token of another source it is: `token` is free (log 16). -/
def State.dispatchWrites (s : State) (c : Collective) (x : Exchange) (token : Nat) : List (Nat × List Byte) :=
  let ms := s.members c.group
  let bs := ms.map (fun i => c.dataOf i false)
  let h := x.held.getD (s.collRank c) (0, 0)
  let cs := (List.range h.2).map (fun e => bs.map (fun b => (exCounts b).getD e 0))
  let first := fun e => ((cs.take e).map (fun l => padded l.sum)).sum
  (List.range h.2).flatMap (fun e =>
    let l := cs.getD e []
    let n := l.sum
    let rows := bs.flatMap (fun b => exRowsOf x b e)
    let more := decide (x.plan < n)
    let src := exSource l x.plan 0
    let tok := if src = s.collRank c then (x.tokens.getD e []).getD (x.plan - (l.take src).sum) 0 else token
    [(c.dst + 128 * x.len * first e, rows ++ natLE (128 * x.len * (padded n - n)) 0),
     (x.groups + 128 * e, natLE 4 n ++ natLE 2 (if n = 0 then 0 else 0xFFFF) ++ natLE 2 (x.sid + e) ++ natLE 4 (first e) ++
        natLE 4 (padded n) ++ natLE 2 (h.1 + e) ++ natLE 2 (if more then ms.getD src 0 else 0xFFFF) ++
        natLE 4 (if more then tok else 2 ^ 32 - 1) ++ natLE 104 0),
     (x.counts + 4 * (e * bs.length), l.flatMap (natLE 4))])

/-- What a return writes at the source: each row where the own PERM placed it. -/
def State.returnWrites (s : State) (c : Collective) (x : Exchange) : List (Nat × List Byte) :=
  let ms := s.members c.group
  (List.range ms.length).flatMap (fun r =>
    let b := c.dataOf (ms.getD r 0) false
    let h := x.held.getD r (0, 0)
    (List.range h.2).map (fun e =>
      (c.dst + 128 * x.len * ((x.firsts.find? (·.1 == h.1 + e)).map (·.2)).getD 0, exRowsOf x b e)))

/-! ## The handover -/

/-- The block that the member of rank `r` receives in the first phase (Table 13-8). -/
def U.block (c : Collective) (ex : Option Exchange) (own ownRank n r : Nat) : U (List Byte) :=
  match c.kind with
  | 0 => if ownRank = c.peer then U.readVa c.src (128 * c.len) else pure []
  | 1 => U.readVa c.src (128 * c.len)
  | 2 => U.readVa (c.src + 128 * (c.len / n) * r) (128 * (c.len / n))
  | 3 => U.readVa (c.src + 128 * (c.len / n) * r) (128 * (c.len / n))
  | 4 => match ex with
    | some x => if c.mode = 1 then U.dispatchBlock c x own r else U.returnBlock c x own ownRank n r
    | none => do
      let cs ← (List.range n).mapM (fun i => U.numVa (c.cnts + 4 * i) 4)
      U.readVa (c.src + 128 * (cs.take r).sum) (128 * cs.getD r 0)
  | 5 => U.readVa c.src (128 * c.len)
  | _ => pure []

/-- The base of a partition's staging area (R327). -/
def State.stageBase (s : State) (p : Nat) : Nat :=
  s.fld (Reg.MSH_P_STAGE_LO.BASE p) * 2 ^ 26 + s.fld (Reg.MSH_P_STAGE_HI.BASE p) * 2 ^ 32

/-- The bytes that a staged contribution takes: a packet's header and its data. -/
def Contribution.size (x : Contribution) : Nat := 32 + x.data.length

/-- The place in its partition's staging area of a contribution that is to be staged: the first that is free, if there is room (log 51). -/
def State.stagePlace (s : State) (x : Contribution) : Option Nat :=
  let l := s.staging.filter (·.part == x.part)
  (0 :: l.map (fun y => y.place + y.size)).find? (fun a =>
    decide (a + x.size ≤ 2 ^ 26) && l.all (fun y => decide (a + x.size ≤ y.place) || decide (y.place + y.size ≤ a)))

/-- A contribution is written into the staging area, in the own hot tier (R327): its source, EPOCH and mark, STEP, SEQ, the place and the
length of its data in 32 bytes, and the data (log 51). -/
def State.stage (s : State) (x : Contribution) (at_ : Nat) : State :=
  let a := (s.stageBase x.part + at_) % 2 ^ 54
  let d := natLE 2 x.source ++ natLE 1 x.epoch ++ natLE 1 (ofBool x.header) ++ natLE 6 x.step ++ natLE 2 x.seq ++ natLE 8 x.off ++
    natLE 4 x.data.length ++ natLE 8 0 ++ x.data
  let s := (s.pass a d.length true).write a d
  { s with staging := s.staging ++ [{ x with place := at_ }] }

/-- A collective begins: its own part, what was staged for it, and its packets to every member it exchanges data with. -/
def State.launchColl (s : State) (c : Collective) (own : List Byte) (blocks : List (Nat × List Byte)) : State :=
  let mine : Contribution := ⟨c.part, s.ownLogical, c.epoch, c.step, c.seq, false, 0, own, 0⟩
  let early := s.staging.filter (·.key == c.key)
  let s := early.foldl (fun s x => s.pass ((s.stageBase x.part + x.place) % 2 ^ 54) x.size false) s
  let s := { s with
    collectives := s.collectives ++ [{ c with got := mine :: early }]
    staging := s.staging.filter (fun x => !(x.key == c.key)) }
  let s := blocks.foldl (fun s b => (s.sendColl c b.1 true 0 (c.headData b.2.length)).sendBlock c b.1 0 b.2) s
  s.collAdvance c.key

/-- The descriptor of Table 13-7 at a VA, as a collective of mover `m` and partition `p`. -/
def State.collOf (s : State) (m p desc : Nat) (b : List Byte) : Collective :=
  let f := fun o n => leNat ((b.drop o).take n)
  ⟨p, m, desc, s.fld (Reg.MSH_P_CTRL.EPOCH p), f 24 6, f 30 2, f 32 1, f 33 1, f 40 4, f 0 8, f 8 8, f 16 8, f 34 1, f 35 1, f 36 1,
    f 37 1, f 38 1, s.ptBase p, none, BitVec.ofNat 64 s.tick, 0, [], false, none⟩

/-- The units that a member's DST will hold, where the descriptor alone says so. -/
def State.collOut (s : State) (c : Collective) : Nat :=
  match c.kind with
  | 0 => c.len
  | 1 => s.collN c * c.len
  | 2 => ceilDiv (s.chunkOut c) 128
  | 3 => ceilDiv (s.collN c * s.chunkOut c) 128
  | 6 => c.len
  | _ => 0

/-- COLL's unit (R321, R325): the collective is handed over, a running one is waited for, and one that has ended completes the
unit. Whether the unit is complete. -/
def collUnit (cmd : Cmd) : U Bool := do
  let x ← read
  let b ← U.readVa cmd.aux 64
  let e ← get
  let s := e.s
  let c := s.collOf x.m x.p cmd.aux b
  if (s.mover x.m).work.ended || s.collRecords.any (·.key == c.key) then return true
  if (s.coll c.key).isSome then throw (.waits false)
  if s.collBad c then do
    U.change (fun s => { s with collectives := s.collectives ++ [c] }.collAbort c true)
    return false
  let n := s.collN c
  let own := s.ownLogical
  let rk := s.collRank c
  let ex ← if c.kind = 4 ∧ c.mode ≠ 0 then do
      let y ← U.exchange c n rk
      pure (some y)
    else pure none
  let c := { c with exchange := ex }
  let blocks ← (s.partners c).mapM (fun j => do
    let d ← U.block c ex own rk n (s.rank c.group j)
    return (j, d))
  let mine ← if c.kind = 5 then pure [] else U.block c ex own rk n rk
  U.checkWrite c.dst (s.collOut c)
  U.change (·.launchColl c mine blocks)
  return false

/-! ## The end of a collective -/

/-- What a complete collective writes at DST and CNTS (Table 13-8). -/
def State.collWrites (s : State) (c : Collective) : List (Nat × List Byte) :=
  let ms := s.members c.group
  match c.kind with
  | 0 => [(c.dst, c.dataOf (ms.getD c.peer 0) false)]
  | 1 => [(c.dst, ms.flatMap (fun i => c.dataOf i false))]
  | 2 => [(c.dst, (s.reduced c).1)]
  | 3 => [(c.dst, ms.flatMap (fun i => c.dataOf i true))]
  | 4 => match c.exchange with
    | some x => if c.mode = 1 then s.dispatchWrites c x s.fresh else s.returnWrites c x
    | none => [(c.dst, ms.flatMap (fun i => c.dataOf i false)),
        (c.cnts + 4 * ms.length, ms.flatMap (fun i => natLE 4 ((c.dataOf i false).length / 128)))]
  | 6 => [(c.dst, c.dataOf c.peer false)]
  | _ => []

/-- The shard that a RECVFROM of a ring has received names another step, layer or shard than expected (R283). -/
def Collective.ringBad (c : Collective) : Bool :=
  let h := fun o n => leNat (((c.dataOf c.peer false).drop o).take n)
  match c.kind, Config.ringExpected c.part c.step c.seq with
  | 6, some (layer, shard) => h 0 6 != c.step || h 6 2 != layer || h 8 2 != shard
  | _, _ => false

/-- STATUS of a collective is written, and it ends; one that ended ABORTED ends even where its descriptor can no longer be written. -/
def State.collStatus (s : State) (c : Collective) : State :=
  let r := s.engineWrites c.key c.mover c.part c.table [(c.desc + 56, natLE 8 (2 ^ 63 + ofBool c.abort.isSome))]
  match r.1, c.abort with
  | .done, some keep => r.2.collEnd c true keep
  | .fault, some keep => r.2.collEnd c true keep
  | .done, none => if c.ringBad then (r.2.collEnd c false true).markStep c.part c.step 6 else r.2.collEnd c false true
  | _, _ => r.2

/-- COLLECTIVE_COMPLETE: every header and result has arrived. The results are written, and STATUS once all of them are acknowledged (R197, R321,
R323). -/
def collectiveComplete (i : Nat) (s : State) : State :=
  match s.collectives[i]? with
  | none => s
  | some c =>
    if c.abort.isSome then s.collStatus c
    else if c.written then if s.writesOut c.key then s else s.collStatus c
    else if s.collWhole c = false ∨ s.writesOut c.key then s
    else
      let r := s.engineWrites c.key c.mover c.part c.table (s.collWrites c)
      if r.1 = .done then
        let s := r.2.took.putColl { c with written := true }
        if s.writesOut c.key then s else s.collStatus { c with written := true }
      else r.2

/-- COLL_TIMEOUT (R324, R328): a collective, or after the collectives a broadcast, that has not completed within MSH_COLL_TO. -/
def collTimeout (i : Nat) (s : State) : State :=
  let late := fun (since : DWord) => decide (since.toNat + 1024 * max 1 (s.fld Reg.MSH_COLL_TO.STRIKES) ≤ s.tick)
  match s.collectives[i]? with
  | some c => if late c.handed then s.collAbort c true else s
  | none =>
    match s.broadcasts[i - s.collectives.length]? with
    | none => s
    | some b =>
      if late b.since ∧ b.aborted = false ∧ b.waiting.isEmpty = false then
        let s := { s with broadcasts := s.broadcasts.map (fun x => if x = b then { x with aborted := true } else x) }
        match s.moverPart b.mover with
        | some p => s.markStep p (s.stepNo p) 5
        | none => s
      else s

/-- The contributions for a partition that wait in the ports' receive buffers are discarded. -/
def State.dropContributions (s : State) (p : Nat) : State :=
  (List.range 5).foldl (fun s n =>
    ((s.port n).packets.filter (fun q => q.kind == 3 && s.groupPart q.group == p)).foldl (fun s q => s.takePacket n q) s) s

/-- A write of MSH_Pp_CTRL: ABORT ends the partition's collectives, and EPOCH takes the value (R326). -/
def State.writeMshPart (s : State) (p : Nat) (v : Word) : State :=
  let s := if bitOf v.toNat 31 then
      let s := (s.collectives.filter (·.part == p)).foldl (fun s c => s.collAbort c false) s
      { s with
        staging := s.staging.filter (fun x => x.part != p)
        collRecords := s.collRecords.filter (fun x => x.part != p) }.dropContributions p
    else s
  s.setFld (Reg.MSH_P_CTRL.EPOCH p) (v.toNat % 256)

/-! ## Packets received -/

/-- The contribution that a collective packet carries. -/
def Packet.contribution (p : Packet) (part : Nat) : Contribution :=
  ⟨part, p.src, p.epoch, p.info % 2 ^ 48, p.info / 2 ^ 48, bitOf p.tag 31, leNat (p.body.take 8),
    (p.body.drop 16).take (leNat ((p.body.drop 8).take 4)), 0⟩

/-- COLLECTIVE_CONTRIBUTION: the oldest collective packet of a channel joins its collective, is staged, or waits (R323, R326, R327). -/
def collectiveContribution (n vc : Nat) (s : State) : State :=
  match s.firstPacket n (fun p => p.kind == 3 && p.vc == vc) with
  | none => s
  | some p =>
    let part := s.groupPart p.group
    let x := p.contribution part
    if p.epoch ≠ s.fld (Reg.MSH_P_CTRL.EPOCH part) then (s.takePacket n p).epochDrop p
    else match s.coll x.key with
      | some c =>
        if c.abort.isSome then s.takePacket n p
        else ((s.takePacket n p).putColl { c with got := c.got ++ [x] }).collAdvance c.key
      | none =>
        if s.collRecords.any (·.key == x.key) then s.takePacket n p
        else if s.stageBase part = 0 then s
        else match s.stagePlace x with
          | none => s.setFlag (Reg.MSH_P_STATUS.STAGE_FULL part) true
          | some at_ => (s.takePacket n p).stage x at_

/-! ## Broadcasts -/

/-- Module `x` lies on the dimension-order path from `a` to `b`, all physical indices. -/
def onPath (a b x : Nat) : Bool :=
  let between := fun p q r => (decide (min p q ≤ r) && decide (r ≤ max p q))
  (x / 8 == a / 8 && between (a % 8) (b % 8) (x % 8)) || (x % 8 == b % 8 && between (a / 8) (b / 8) (x / 8))

/-- The ports by which a broadcast from a physical index leads on to other members (R328). -/
def State.treePorts (s : State) (from_ mask : Nat) : List Nat :=
  let own := s.ownPhys
  let ms := ((List.range 64).filter (bitOf mask)).map s.l2p
  (List.range 4).filter (fun d => ms.any (fun m => m != own && m != from_ && onPath from_ m own && dimOrder (own % 8) (own / 8) m == d))

/-- The physical index beyond a port. -/
def State.beyond (s : State) (d : Nat) : Nat :=
  match d with
  | 0 => s.ownPhys + 8
  | 1 => s.ownPhys + 1
  | 2 => s.ownPhys - 8
  | _ => s.ownPhys - 1

/-- The payloads of a packet with another DST. -/
def redirect (dst : Nat) (ps : List (List Byte)) : List (List Byte) :=
  match ps with
  | [] => []
  | f :: fs => (BitVec.ofNat 8 dst :: f.drop 1) :: fs

/-- A broadcast packet leaves by every port of its tree. -/
def State.fanOut (s : State) (from_ mask : Nat) (ps : List (List Byte)) : State :=
  (s.treePorts from_ mask).foldl (fun s d =>
    if s.portOn d then s.enqueue d 1 none (redirect (s.beyond d) ps) else s.unrouted ps.length) s

/-- The units of BCAST's unit `k`. -/
def bcastUnits (c : Cmd) (k : Nat) : Nat := min 256 (c.cnt - 256 * k)

/-- A unit of BCAST is sent: 30 units to a packet, the last of them marked by bit 31 of TAG (R220, R328). -/
def State.bcastSend (s : State) (m p k : Nat) (c : Cmd) (d : List Byte) : State :=
  let g := c.aux % 64
  let mask := s.groupMask g
  let ps := pieces 3840 (d.length / 3840 + 1) d
  let s := { s with broadcasts := s.broadcasts ++ [⟨m, k, (s.members g).filter (· != s.ownLogical), BitVec.ofNat 64 s.tick, false⟩] }
  (List.range ps.length).foldl (fun s i =>
    let x := ps.getD i []
    s.fanOut s.ownPhys mask (packetPayloads (packetHeader 0 s.ownLogical 5 (s.fld (Reg.MSH_P_CTRL.EPOCH p))
      (ofBool (i + 1 == ps.length) * 2 ^ 31 + g * 2 ^ 24) (s.stepNo p) ++
      (natLE 8 mask ++ natLE 8 (c.dst + 32768 * k + 3840 * i) ++ natLE 8 (m + 2 ^ 16 * k) ++ natLE 8 x.length ++ x)))) s

/-- BCAST's unit `k`: sent once, and complete when every receiver has acknowledged it, or when it ended ABORTED. The source, where it is a
member, writes the units at its own DST, in the partition of its own group entry. -/
def bcastUnit (c : Cmd) (k : Nat) : U Bool := do
  let x ← read
  let e ← get
  match e.s.broadcasts.find? (fun b => b.mover == x.m && b.unit == k) with
  | some b =>
    if b.waiting.isEmpty || b.aborted then do
      U.change (fun s => { s with broadcasts := s.broadcasts.erase b })
      return true
    else throw (.waits false)
  | none => do
    let d ← U.readVa (c.src + 32768 * k) (128 * bcastUnits c k)
    if bitOf (e.s.groupMask (c.aux % 64)) e.s.ownLogical then
      withReader (fun x => { x with p := e.s.groupPart (c.aux % 64) }) (do
        U.checkWrite (c.dst + 32768 * k) (bcastUnits c k)
        U.write (c.dst + 32768 * k) d)
    U.change (·.bcastSend x.m x.p k c d)
    return false

/-- An acknowledgement of a broadcast unit. -/
def State.bcastAck (s : State) (src cookie : Nat) : State :=
  { s with broadcasts := s.broadcasts.map (fun b =>
      if b.mover = cookie % 2 ^ 16 ∧ b.unit = cookie / 2 ^ 16 then { b with waiting := b.waiting.filter (· != src) } else b) }

/-- An acknowledgement that a source is owed is sent. -/
def State.sendAck (s : State) (a : BcastAck) : State := s.sendPacket (s.l2p a.src) 1 2 0 a.tag a.cookie []

/-- The acknowledgements whose writes have all ended are sent (R197, R220). -/
def State.sendAcks (s : State) : State :=
  let ready := s.bcastAcks.filter (fun a => !s.writesOut a.key)
  ready.foldl State.sendAck { s with bcastAcks := s.bcastAcks.filter (fun a => s.writesOut a.key) }

/-- BCAST_RECEIVE: the oldest broadcast packet of a port is copied onward, written at its member's DST and, with the last packet of its
unit, acknowledged once all is written (R328). The engine writes a local store with the code of mover 48. -/
def bcastReceive (n : Nat) (s : State) : State :=
  let s := s.sendAcks
  match s.firstPacket n (fun p => p.vc == 1 && (p.kind == 5 || p.kind == 2)) with
  | none => s
  | some p =>
    if p.kind = 2 then (s.takePacket n p).bcastAck p.src p.info
    else
      let part := s.groupPart p.group
      let f := fun o => leNat ((p.body.drop o).take 8)
      let on := fun (s : State) => (s.takePacket n p).fanOut (s.l2p p.src) p.mask p.frames
      let key := (part, p.epoch, 2 ^ 48 + p.src, f 16)
      if bitOf p.mask s.ownLogical = false then on s
      else if p.epoch ≠ s.fld (Reg.MSH_P_CTRL.EPOCH part) then (s.takePacket n p).epochDrop p
      else
        let r := s.engineWrites key 48 part (s.ptBase part) [(f 8, (p.body.drop 32).take (f 24))]
        if r.1 = .done then
          let s := on r.2
          if bitOf p.tag 31 then { s with bcastAcks := s.bcastAcks ++ [(⟨p.src, p.tag, f 16, key⟩ : BcastAck)] }.sendAcks else s
        else r.2

/-! ## The rows -/

def execCollectiveContribution (n : Fin 5) (vc : Fin 8) (s : State) : Host.Outcome State Fault Refusal :=
  .next (collectiveContribution n vc s)
def execCollectiveComplete (i : Nat) (s : State) : Host.Outcome State Fault Refusal := .next (collectiveComplete i s)
def execCollTimeout (i : Nat) (s : State) : Host.Outcome State Fault Refusal := .next (collTimeout i s)
def execAbort (m : Master) (p : Fin 12) (v : Word) (s : State) : Host.Outcome State Fault Refusal :=
  .next (s.byFirmwareOrRack m (Reg.MSH_P_CTRL p) (·.writeMshPart p v))
def execBcastReceive (n : Fin 5) (s : State) : Host.Outcome State Fault Refusal := .next (bcastReceive n s)

end Sys2Proof.Machine
end

