-- ==== Sys2Proof/Machine/MoverCmds.lean ====
section
/-! DEFINITION. The mover instructions, the command queues and the streams' notices (chapter 09). -/
namespace Sys2Proof.Machine

/-! ## Issue -/

/-- The mover that a word names (Table 09-4). -/
def wMover (t w : Nat) : Nat := 4 * tileBay t + bits w 50 2

/-- XFM of a word; for PREF its OP. -/
def wXfm (w : Nat) : Nat := if wOp w = 0xA2 then bits w 5 2 else bits w 5 4

/-- The command of a word with the given captured values. -/
def cmdWith (w src dst cnt aux : Nat) : Cmd :=
  ⟨wOp w, wXfm w, bits w 13 5, bitOf w 12, bitOf w 11, bitOf w 10, bitOf w 9, src, dst, cnt, aux, 0, 0⟩

/-- The command with the values of its registers (R214). -/
def State.cmdOf (s : State) (t w : Nat) : Cmd :=
  cmdWith w (s.operand t (bits w 42 8)) (s.operand t (bits w 34 8)) (s.operand t (bits w 26 8)) (s.operand t (bits w 18 8))

/-- SRC, DST and AUX are VAs of units (true), VAs of lists and blocks, or no VAs. -/
structure CmdVas where
  src : Option Bool
  dst : Option Bool
  aux : Option Bool

/-- What the fields of a command are (R216 to R220, R273, R321). -/
def Cmd.vas (c : Cmd) : CmdVas :=
  let src := if c.srcq then none else some true
  let dst := if c.dstq then none else some true
  match c.op with
  | 0xA0 => match c.xfm with
    | 0 => ⟨src, dst, none⟩
    | 1 => ⟨if c.srcq then none else some false, dst, none⟩
    | 2 => ⟨src, dst, none⟩
    | 5 => ⟨none, dst, some false⟩
    | 6 => ⟨none, none, some false⟩
    | _ => ⟨src, dst, some false⟩
  | 0xA2 => if c.xfm = 0 then ⟨some true, none, none⟩ else ⟨none, none, none⟩
  | 0xA8 => ⟨some true, none, some false⟩
  | 0xAC => ⟨some true, some true, none⟩
  | _ => ⟨none, none, some false⟩

/-- A value that is to be a VA is one (check 2 of Table 09-6). -/
def vaOk (what : Option Bool) (v : Nat) : Bool :=
  match what with
  | none => true
  | some unit => v % (if unit then 128 else 16) == 0 && decide (v < 2 ^ 48)

/-- The first check of Table 09-6 that a command of a tile fails. -/
def State.cmdCheck (s : State) (t : Nat) (c : Cmd) : Option Nat :=
  let v := c.vas
  let isMove := c.op == 0xA0
  if isMove && decide (6 < c.xfm) then some 1
  else if !(vaOk v.src c.src && vaOk v.dst c.dst && vaOk v.aux c.aux) then some 2
  else if (c.srcq && !s.recvQueueOk t (c.src % 32)) || (c.dstq && !s.sendQueueOk t (c.dst % 32)) ||
      (c.ntf && !s.sendQueueOk t c.nq) then some 3
  else if isMove && ((c.xfm == 0 && decide (2 ^ 32 ≤ c.cnt)) || (c.xfm == 1 && decide (65535 < c.cnt)) ||
      (c.xfm == 2 && (decide (diagLu c.aux = 0) || decide (32 < diagLu c.aux) || decide (1024 < c.cnt))) ||
      ((c.xfm == 3 || c.xfm == 4) && decide (640 < rowUnits c.cnt))) then some 4
  else if c.op == 0xA2 && c.xfm != 0 && !s.flag (Reg.MOV_STR_A_CFG.VALID t (c.src % 16)) then some 5
  else if (isMove && c.xfm == 2 && (bits c.aux 6 2 != 0 || bits c.aux 16 16 != 0)) || (c.op == 0xAC && decide (64 ≤ c.aux)) then some 6
  else none

/-! ## Streams -/

/-- The fields of a stream of bay `b`. -/
def State.strState (s : State) (b n : Nat) : Nat := s.fld (Reg.MOV_STR_STAT.STATE (20 * b) n)
def State.strFilled (s : State) (b n : Nat) : Nat := s.fld (Reg.MOV_STR_STAT.FILLED (20 * b) n)
def State.strSlots (s : State) (b n : Nat) : Nat := s.fld (Reg.MOV_STR_A_CFG.SLOTS (20 * b) n) + 1
def State.strEntries (s : State) (b n : Nat) : Nat := s.fld (Reg.MOV_STR_A_LIST_HI.NENT (20 * b) n)
def State.strWrap (s : State) (b n : Nat) : Bool := s.flag (Reg.MOV_STR_A_CFG.WRAP (20 * b) n)
def State.strList (s : State) (b n : Nat) : Nat :=
  s.fld (Reg.MOV_STR_A_LIST_LO.VA (20 * b) n) * 2 ^ 4 + s.fld (Reg.MOV_STR_A_LIST_HI.VA (20 * b) n) * 2 ^ 32
def State.strBmap (s : State) (b n : Nat) : Nat :=
  s.fld (Reg.MOV_STR_A_BMAP_LO.VA (20 * b) n) * 2 ^ 3 + s.fld (Reg.MOV_STR_A_BMAP_HI.VA (20 * b) n) * 2 ^ 32
def State.strRing (s : State) (b n : Nat) : Nat :=
  s.fld (Reg.MOV_STR_A_RING_LO.VA (20 * b) n) * 2 ^ 7 + s.fld (Reg.MOV_STR_A_RING_HI.VA (20 * b) n) * 2 ^ 32

/-- The first entry of a stream that is not completed. -/
def Stream.at_ (x : Stream) : Nat := ((x.started.head?.or x.redo.head?).map (·.entry)).getD x.next

/-- The bound of a PREF STOP in the pass that the stream starts entries of. -/
def Stream.bound (x : Stream) : Option Nat :=
  match x.stopAt with
  | some (p, e) => if p = x.pass then some e else none
  | none => none

/-- The stream may start no further entry: it has passed its last entry, or the bound of a PREF STOP. -/
def State.strSpent (s : State) (b n : Nat) : Bool :=
  let x := s.stream b n
  x.redo.isEmpty && (decide (s.strEntries b n ≤ x.next) || (match x.bound with
    | some a => decide (a ≤ x.next)
    | none => false))

/-- POS names the first entry not completed (log 52), and a stream that may start no entry and has none started has STOPPED. -/
def State.strSettle (s : State) (b n : Nat) : State :=
  let x := s.stream b n
  let s := s.setFld (Reg.MOV_STR_POS.COMPLETE (20 * b) n) x.at_
  if s.strSpent b n then s.setFld (Reg.MOV_STR_STAT.STATE (20 * b) n) (if x.started.isEmpty then 3 else 2) else s

/-- A stream notice's payload (Table 09-9). -/
def noticeBytes (entry slot flags count n : Nat) : List Byte :=
  natLE 4 entry ++ natLE 2 slot ++ natLE 1 flags ++ natLE 1 0 ++ natLE 2 count ++ natLE 2 n

/-- The first item of a stream is done: a pass whose last entry is completed under WRAP is followed by the next. -/
def State.strPop (s : State) (b n : Nat) : State :=
  match (s.stream b n).started with
  | [] => s
  | x :: rest =>
    let s := s.modStream b n (fun y => { y with started := rest })
    let s := if s.strWrap b n ∧ x.entry + 1 = s.strEntries b n then s.addFld (Reg.MOV_STR_POS.PASS (20 * b) n) 1 else s
    s.strSettle b n

/-- A group close at an entry: a notice where the group has delivered entries, and an EMPTY flit where it has none (R228). -/
def State.closeFlit (s : State) (b n entry : Nat) : Flit :=
  let g := s.fld (Reg.MOV_STR_STAT.GCOUNT (20 * b) n)
  if g = 0 then ⟨.empty, 0⟩ else ⟨.dataEnd, Sys2Proof.Machine.payloadOf (noticeBytes entry 0xFFFF 2 g n)⟩

/-- Skipped entries at the front of a stream are passed: each is counted, and a group close is written while its queue has room and accepts
it (R44, R228). -/
def State.strFlush (s : State) (b n : Nat) : Nat → State
  | 0 => s
  | k + 1 =>
    let t := 20 * b
    let q := s.fld (Reg.MOV_STR_A_CFG.NQ t n)
    match (s.stream b n).started with
    | [] => s
    | x :: _ => match x.kind with
      | .tile => s
      | .skip => ((s.add64 (Reg.MOV_SKIP_LO t) 1).strPop b n).strFlush b n k
      | .close => match s.refuse t q 4 with
        | some s' => s'
        | none =>
          if s.noRoom t q then s
          else
            let s := (s.pushFlit t q (s.closeFlit b n x.entry)).setFld (Reg.MOV_STR_STAT.GCOUNT t n) 0
            ((s.add64 (Reg.MOV_SKIP_LO t) 1).strPop b n).strFlush b n k

/-- Every skipped entry that may be passed. -/
def State.strFlushAll (s : State) (b n : Nat) : State := s.strFlush b n (s.stream b n).started.length

/-- PREF CANCEL (R219): the pass is the one that the stream starts entries of. -/
def State.strCancel (s : State) (b n first count : Nat) : State :=
  s.modStream b n (fun x => { x with cancelled := x.cancelled ++ [(first, count)] })

/-- PREF START: a new pass at an entry, with T_rel at the f-cycle of the START (R219, R229). -/
def State.strStart (s : State) (b n entry : Nat) : State :=
  let s := s.modStream b n (fun x =>
    { x with pass := x.pass + 1, next := entry, cancelled := [], stopAt := none, lastRelease := s.fcycles })
  let s := s.setFld (Reg.MOV_STR_STAT.STATE (20 * b) n) 1
  let s := s.setFld (Reg.MOV_STR_STAT.GCOUNT (20 * b) n) 0
  (s.addFld (Reg.MOV_STR_POS.PASS (20 * b) n) 1).strSettle b n

/-- PREF STOP takes effect: no entry at or beyond the bound starts in the pass. -/
def State.strStop (s : State) (b n bound : Nat) : State :=
  (s.modStream b n (fun x => { x with
    stopAt := some (x.pass, bound)
    redo := x.redo.filter (fun i => i.pass != x.pass || decide (i.entry < bound)) })).strSettle b n

/-- A PREF STOP is complete: nothing that the stream has started in that pass or before is left, and it starts nothing more in it. -/
def State.strStopped (s : State) (b n : Nat) : Bool :=
  let x := s.stream b n
  match x.stopAt with
  | none => true
  | some (p, _) => (s.strSpent b n && x.started.isEmpty) || (decide (p < x.pass) && (x.started ++ x.redo).all (fun i => decide (p < i.pass)))

/-! ## Heads of command queues -/

/-- The command leaves its queue, with the count of its units. -/
def State.popCmd (s : State) (m : Nat) : State :=
  let s := s.modMover m (fun x => { x with queue := x.queue.drop 1, prog := 0 })
  if m < 48 then s.setReg (Reg.MOV_M_PROG (20 * (m / 4)) (m % 4)) 0 else s

/-- The head command of a mover reaches its place: the f-cycle is noted, and PREF CANCEL, STOP and START take effect (R219). -/
def State.headStep (s : State) (m : Nat) : Nat → State
  | 0 => s
  | k + 1 =>
    match (s.mover m).queue with
    | [] => s
    | c :: _ =>
      let b := m / 4
      let n := c.src % 16
      if c.op = 0xA2 ∧ c.xfm = 1 then ((s.strCancel b n c.aux c.cnt).popCmd m).headStep m k
      else if c.op = 0xA2 ∧ c.xfm = 3 then ((s.strStart b n c.aux).popCmd m).headStep m k
      else if c.op = 0xA2 ∧ c.xfm = 2 then
        let s := s.strStop b n c.aux
        if s.strStopped b n then (s.popCmd m).headStep m k else s
      else s.modMover m (fun x => { x with queue := match x.queue with
        | c :: l => { c with headAt := s.fcycles } :: l
        | [] => [] })

/-- A PREF STOP at the head of a queue of the bay completes when its stream has stopped. -/
def State.stopsDone (s : State) (b n : Nat) : State :=
  (List.range 4).foldl (fun s i =>
    match (s.mover (4 * b + i)).queue with
    | c :: _ => if c.op = 0xA2 ∧ c.xfm = 2 ∧ c.src % 16 = n ∧ s.strStopped b n then ((s.popCmd (4 * b + i)).headStep (4 * b + i) 8) else s
    | [] => s) s

/-- A command is placed in its mover's queue (R214). -/
def State.pushCmd (s : State) (m : Nat) (c : Cmd) : State :=
  let first := (s.mover m).queue.isEmpty
  let s := s.modMover m (fun x => { x with queue := x.queue ++ [c] })
  if first then s.headStep m 8 else s

/-- A mover instruction: the command is checked and placed in its queue, or waits on E2 while the queue is full (R214, R221). -/
def cmdBody (t w : Nat) (s : State) : State :=
  let c := s.cmdOf t w
  match s.cmdCheck t c with
  | some k => s.issueFault t codeViolation 0x40 k
  | none =>
    if (s.mover (wMover t w)).queue.length < 8 then (s.pushCmd (wMover t w) c).retire t
    else s.startEngine t 2 w [c.src, c.dst, c.cnt, c.aux]

/-- A command that waits on E2 is placed once its queue has room. -/
def State.cmdUnit (s : State) (t w : Nat) : State :=
  if (s.mover (wMover t w)).queue.length < 8 then
    (s.pushCmd (wMover t w) (cmdWith w (s.op t 2 0) (s.op t 2 1) (s.op t 2 2) (s.op t 2 3))).completeEngine t 2
  else s

/-- The word is the mover instruction of an opcode and XFM. -/
def isMove (t op : Nat) (xfm : Nat → Bool) (w : Nat) : Bool := tileType t == 3 && isOp op w && xfm (wXfm w)

/-! ## The rows. An XFM outside Table 09-5 fails check 1, whichever MOVE row is sent. -/

/-- MOVE of a transform. -/
def moveRow (t x : Nat) (fetch : Ecc) (s : State) : State := s.issue t fetch (isMove t 0xA0 (fun y => y == x || decide (6 < y))) (cmdBody t)

/-- PREF of an OP. -/
def prefRow (t x : Nat) (fetch : Ecc) (s : State) : State := s.issue t fetch (isMove t 0xA2 (· == x)) (cmdBody t)

def execCopy (t : Fin 240) (fetch : Ecc) (s : State) : Host.Outcome State Fault Refusal := .next (moveRow t 0 fetch s)
def execIngot (t : Fin 240) (fetch : Ecc) (s : State) : Host.Outcome State Fault Refusal := .next (moveRow t 1 fetch s)
def execDiag (t : Fin 240) (fetch : Ecc) (s : State) : Host.Outcome State Fault Refusal := .next (moveRow t 2 fetch s)
def execGather (t : Fin 240) (fetch : Ecc) (s : State) : Host.Outcome State Fault Refusal := .next (moveRow t 3 fetch s)
def execScatter (t : Fin 240) (fetch : Ecc) (s : State) : Host.Outcome State Fault Refusal := .next (moveRow t 4 fetch s)
def execKv (t : Fin 240) (fetch : Ecc) (s : State) : Host.Outcome State Fault Refusal := .next (moveRow t 5 fetch s)
def execColl (t : Fin 240) (fetch : Ecc) (s : State) : Host.Outcome State Fault Refusal := .next (moveRow t 6 fetch s)
def execWarm (t : Fin 240) (fetch : Ecc) (s : State) : Host.Outcome State Fault Refusal := .next (prefRow t 0 fetch s)
def execCancelEntries (t : Fin 240) (fetch : Ecc) (s : State) : Host.Outcome State Fault Refusal := .next (prefRow t 1 fetch s)
def execStopStream (t : Fin 240) (fetch : Ecc) (s : State) : Host.Outcome State Fault Refusal := .next (prefRow t 2 fetch s)
def execStartStream (t : Fin 240) (fetch : Ecc) (s : State) : Host.Outcome State Fault Refusal := .next (prefRow t 3 fetch s)
def execPerm (t : Fin 240) (fetch : Ecc) (s : State) : Host.Outcome State Fault Refusal :=
  .next (s.issue t fetch (isMove t 0xA4 (fun _ => true)) (cmdBody t))
def execUnperm (t : Fin 240) (fetch : Ecc) (s : State) : Host.Outcome State Fault Refusal :=
  .next (s.issue t fetch (isMove t 0xA5 (fun _ => true)) (cmdBody t))
def execAppend (t : Fin 240) (fetch : Ecc) (s : State) : Host.Outcome State Fault Refusal :=
  .next (s.issue t fetch (isMove t 0xA8 (fun _ => true)) (cmdBody t))
def execBcast (t : Fin 240) (fetch : Ecc) (s : State) : Host.Outcome State Fault Refusal :=
  .next (s.issue t fetch (isMove t 0xAC (fun _ => true)) (cmdBody t))

end Sys2Proof.Machine
end

