-- ==== Sys2Proof/Machine/Movers.lean ====
section
/-! DEFINITION. The movers' units, the streams' entries and the rings of the I/O-die movers (chapter 09). -/
namespace Sys2Proof.Machine

/-! ## Counts -/

/-- The units of a command; for PERM the count is known once unit 0 is done. -/
def cmdTotal (c : Cmd) : Nat :=
  match c.op with
  | 0xA0 => match c.xfm with
    | 2 => if c.cnt = 0 then 0 else c.cnt + 31
    | 3 => rowCount c.cnt
    | 4 => rowCount c.cnt
    | 6 => min 1 c.cnt
    | _ => c.cnt
  | 0xA2 => if c.xfm = 0 then c.cnt else 0
  | 0xA4 => if c.cnt = 0 then 0 else c.total
  | 0xAC => ceilDiv c.cnt 256
  | _ => c.cnt

/-- A count that resolves to 0 (R218). PREF CANCEL, STOP and START run no unit and are no such command. -/
def cmdEmpty (c : Cmd) : Bool := if c.op = 0xA4 then c.cnt == 0 else if c.op = 0xA2 ∧ c.xfm ≠ 0 then false else cmdTotal c == 0

/-- The units that the head command of a mover has completed. -/
def State.moverProg (s : State) (m : Nat) : Nat :=
  if m < 48 then (s.reg (Reg.MOV_M_PROG (20 * (m / 4)) (m % 4))).toNat else (s.mover m).prog

def State.setMoverProg (s : State) (m v : Nat) : State :=
  if m < 48 then s.setReg (Reg.MOV_M_PROG (20 * (m / 4)) (m % 4)) (BitVec.ofNat 32 v) else s.modMover m (fun x => { x with prog := v })

/-- The addresses of the mover's descriptor are physical. -/
def Mover.phys (x : Mover) : Bool := match x.job with
  | some j => j.phys
  | none => false

/-- A mover works: its partition runs, or its descriptor's addresses are physical (R232). -/
def State.moverRuns (s : State) (m : Nat) : Bool :=
  s.gridLive && ((s.mover m).phys || (match s.moverPart m with
    | some p => s.running p
    | none => false))

/-- A mover may start work: it runs, and Bellows grants its partition credit in the tick (R335). -/
def State.moverWorks (s : State) (m : Nat) : Bool :=
  s.moverRuns m && ((s.mover m).phys || (match s.moverPart m with
    | some p => s.granted p
    | none => false))

/-- The next unit of the head command that may start. -/
def State.nextUnit (s : State) (m : Nat) : Option Nat :=
  match (s.mover m).queue with
  | [] => none
  | c :: _ =>
    let busy := ((s.mover m).inflight.filter (fun u => match u with
      | .command _ => true
      | _ => false)).length
    let k := s.moverProg m + busy
    if cmdEmpty c then none
    else if c.op = 0xA4 ∧ c.total = 0 then (if busy = 0 then some k else none)
    else if k < cmdTotal c then some k else none

/-! ## Streams start -/

/-- A stream may start its next entry (R227, R229). From QUENCH on until the swap it starts only those that a stop abandoned (R231, R234). -/
def State.strEligible (s : State) (b n : Nat) : Bool :=
  let t := 20 * b
  s.flag (Reg.MOV_STR_A_CFG.VALID t n) && (s.strState b n == 1 || s.strState b n == 2) && s.flag (Reg.MOV_CTRL.SCHED_EN t) &&
    (!(s.stream b n).redo.isEmpty || (!s.quenching t && s.seqState t != 3)) && decide (s.strFilled b n < s.strSlots b n) && !s.strSpent b n

/-- D of a stream. -/
def State.strDeadline (s : State) (b n : Nat) : Nat :=
  (s.stream b n).lastRelease + s.strFilled b n * s.fld (Reg.MOV_STR_A_PERIOD.PERIOD (20 * b) n)

/-- The stream with the smallest deadline, the lower on a tie. -/
def State.strWinner (s : State) (b : Nat) : Option Nat :=
  ((List.range 16).filter (s.strEligible b)).foldl (fun best n => match best with
    | none => some n
    | some k => if s.strDeadline b n < s.strDeadline b k then some n else some k) none

/-- The mover of a bay with the fewest units in flight, the lower on a tie. -/
def State.idlest (s : State) (b : Nat) : Nat :=
  let f := fun m => (s.mover m).inflight.length
  (List.range 4).foldl (fun k i => if f (4 * b + i) < f k then 4 * b + i else k) (4 * b)

/-- A command of mover `m` starts before a stream with deadline `d`. -/
def State.cmdFirst (s : State) (m d : Nat) : Bool :=
  (s.nextUnit m).isSome && (match (s.mover m).queue with
    | c :: _ => decide (c.headAt ≤ d)
    | [] => false)

/-- A list entry (Table 09-8). -/
structure Entry where
  src : Nat
  units : Nat
  ingot : Bool
  groupEnd : Bool
  na : Bool

/-- The VA of list entry `i` of a stream. -/
def State.entryAt (s : State) (b n i : Nat) : Nat := s.strList b n + 16 * i

/-- List entry `i`, and the fault STREAM where it is malformed (R226). -/
def U.entry (b n i : Nat) : U Entry := do
  let e ← get
  let at_ := e.s.entryAt b n i
  let d ← U.readVa at_ 16
  let f := fun o k => leNat ((d.drop o).take k)
  if 2 ^ 48 ≤ f 0 8 ∨ f 8 2 = 0 ∨ 640 < f 8 2 ∨ e.s.fld (Reg.MOV_STR_A_CFG.SLOTUNITS (20 * b) n) < f 8 2 ∨ f 10 1 / 8 ≠ 0 ∨
      f 11 5 ≠ 0 then
    U.exec 0x4A at_ 0
  return ⟨f 0 8, f 8 2, bitOf (f 10 1) 0, bitOf (f 10 1) 1, bitOf (f 10 1) 2⟩

/-- The entry is skipped: cancelled, or marked in the bitmap (R228). -/
def U.skipped (b n i : Nat) : U Bool := do
  let e ← get
  if (e.s.stream b n).cancelled.any (fun r => decide (r.1 ≤ i) && decide (i < r.1 + r.2)) then return true
  if e.s.flag (Reg.MOV_STR_A_CFG.BMAP_EN (20 * b) n) then do
    let v ← U.numVa (e.s.strBmap b n + i / 8) 1
    return bitOf v (i % 8)
  else return false

/-- What starting an entry finds: it is skipped, and whether it closes a group; or it is delivered, and then it must be well formed (R226). -/
def U.startItem (b n i : Nat) : U ItemKind := do
  let k ← U.skipped b n i
  if k then do
    let e ← get
    let v ← U.numVa (e.s.entryAt b n i + 10) 1
    return if bitOf v 1 then .close else .skip
  else do
    let _ ← U.entry b n i
    return .tile

/-- What starting an entry again finds, whose kind is known: one that is delivered must be well formed. -/
def U.restartItem (b n : Nat) (x : Item) : U ItemKind := do
  match x.kind with
  | .tile => do
    let _ ← U.entry b n x.entry
    return .tile
  | k => return k

/-- A unit's computation on a state; `e` is what the checks of its reads and flits find. -/
def runU {α : Type} (u : U α) (c : Ctx) (e : MoverEnd) (s : State) : Except Stop (α × Forming) :=
  (u c).run ⟨s, [], [], [], [], [], 0, e.reads, e.flits, false⟩

/-- The LENGTH that unit `k` of APPEND reads as it starts, or as soon as it can be read (R271). -/
def State.readLength (s : State) (m k : Nat) : State :=
  match (s.mover m).queue with
  | c :: _ =>
    if c.op ≠ 0xA8 ∨ (s.mover m).lens.any (·.1 == k) then s
    else match runU (U.appendLength c k) ⟨m, (s.moverPart m).getD 0, (s.mover m).phys, c.na, false⟩ .quiet s with
      | .ok (some n, _) => s.modMover m (fun x => { x with lens := x.lens ++ [(k, n)] })
      | _ => s
  | [] => s

/-- MOVER_UNIT_START (R209, R229). -/
def moverUnitStart (m : Nat) (s : State) : State :=
  if s.moverWorks m = false ∨ 8 ≤ (s.mover m).inflight.length then s
  else match s.nextUnit m with
    | none => s
    | some k =>
      let b := m / 4
      let streamFirst : Bool := decide (m < 48) && s.idlest b == m && (match s.strWinner b with
        | some n => !s.cmdFirst m (s.strDeadline b n)
        | none => false)
      if streamFirst then s else (s.modMover m (fun x => { x with inflight := x.inflight ++ [.command k] })).readLength m k

/-- The next entry of a stream after one has started: under WRAP the first one again, in a new pass (R230). -/
def State.strNext (s : State) (b n : Nat) : State :=
  s.modStream b n (fun x =>
    if s.strWrap b n ∧ x.next + 1 = s.strEntries b n then { x with pass := x.pass + 1, next := 0, cancelled := [] }
    else { x with next := x.next + 1 })

/-- Whether the oldest unit of a mover waits for a flit, for room in a queue or for its turn (R54). -/
def State.noteWait (s : State) (m : Nat) (q : Bool) : State := s.modMover m (fun x => { x with work := { x.work with waits := q } })

/-- What a stop of a computation of mover `m` means before its unit exists or as it runs; a fault records `va` where it is given
(R190, R194, R235). What a Billet bank refuses is a permission fault too (R181, R188), and is dropped for a prefetch (R193). -/
def State.stopped (s : State) (c : Ctx) (va : Option Nat) (e : Stop) : State :=
  match e with
  | .waits q => s.noteWait c.m q
  | .walk p v acc => s.askWalk (if c.prefetch then .prefetch c.m else .mover c.m) p (s.ptBase p) v (va.getD v) acc
  | .fetch slot pa n =>
    if (s.mover c.m).work.asked.contains (2 * pa) then s
    else (s.modMover c.m (fun x => { x with work := { x.work with asked := 2 * pa :: x.work.asked } })).sendRequest 0 slot pa (.read n) (.mover c.m)
  | .fault code kind level v acc info =>
    if c.prefetch && decide (kind < 0x40) then s.dropUnit c.m
    else if c.phys then
      s.logFault ⟨BitVec.ofNat 64 s.tick, moverSource c.m, code, 0xFFFF, va.getD v, kind + level * 2 ^ 8 + acc * 2 ^ 16 + info % 2 ^ 32 * 2 ^ 32⟩
    else s.moverFault c.m c.p code kind level (va.getD v) acc info
  | .bank t a kind v acc =>
    if c.prefetch then s.dropUnit c.m
    else
      let s := s.portViolation t a (windowBank a) (if c.phys then 0 else 0x40 + c.m) (if c.phys then none else some c.p) kind
      if c.phys then s else s.moverFault c.m c.p codeViolation 0x10 0 (va.getD v) acc 0

/-- Every stream of a bay passes what it may, and a PREF STOP that this completes leaves its queue. -/
def State.passAll (s : State) (b : Nat) : State := (List.range 16).foldl (fun s n => (s.strFlushAll b n).stopsDone b n) s

/-- An item of a stream starts on mover `m`, where it is delivered in the slot after those held, or is passed (R227, R228). -/
def State.startStream (s : State) (b n m : Nat) (x : Item) : State :=
  let s := s.modStream b n (fun y => { y with started := y.started ++ [x] })
  match x.kind with
  | .tile =>
    let slot := ((s.stream b n).base + s.strFilled b n) % s.strSlots b n
    let s := s.modMover m (fun y => { y with inflight := y.inflight ++ [.stream n x.pass x.entry slot] })
    (s.setFld (Reg.MOV_STR_STAT.FILLED (20 * b) n) (s.strFilled b n + 1)).strSettle b n
  | _ => ((s.strSettle b n).strFlushAll b n).stopsDone b n

/-- STREAM_ENTRY_START: entries already passed are flushed; then the winning stream's next entry starts, or is skipped (R227 to R230). Those that a
stop abandoned come first (R234). -/
def streamEntryStart (b : Nat) (s : State) : State :=
  match s.bayPart b with
  | none => s
  | some p =>
    if s.running p = false then s
    else
      let s := s.passAll b
      match s.strWinner b with
      | none => s
      | some n =>
        let m := s.idlest b
        if s.running p = false ∨ s.granted p = false ∨ 8 ≤ (s.mover m).inflight.length ∨ s.cmdFirst m (s.strDeadline b n) then s
        else
          let y := s.stream b n
          let c : Ctx := ⟨m, p, false, false, false⟩
          match y.redo with
          | x :: rest => match runU (U.restartItem b n x) c .quiet s with
            | .error e => s.stopped c (some (s.entryAt b n x.entry)) e
            | .ok (_, f) => (f.s.modStream b n (fun y => { y with redo := rest })).startStream b n m x
          | [] => match runU (U.startItem b n y.next) c .quiet s with
            | .error e => s.stopped c (some (s.entryAt b n y.next)) e
            | .ok (k, f) => (f.s.strNext b n).startStream b n m ⟨y.pass, y.next, k⟩

/-- A stream's entry: the tile is written into its slot, and once every earlier entry is done its notice follows (R227). -/
def streamUnit (b n pass i slot : Nat) : U Unit := do
  let e ← get
  let t := 20 * b
  let x ← U.entry b n i
  let d ← withReader (fun c : Ctx => { c with na := x.na }) (if x.ingot then do
      let r ← U.ingotTile x.src
      if r.1 ≠ x.units then U.exec 0x4A (e.s.entryAt b n i) 0
      return r.2
    else U.readVa x.src (128 * x.units))
  let at_ := e.s.strRing b n + 128 * e.s.fld (Reg.MOV_STR_A_CFG.SLOTUNITS t n) * slot
  U.checkWrite at_ (d.length / 128)
  U.write at_ d
  if ((e.s.stream b n).started.head?.map (fun x => (x.pass, x.entry))) ≠ some (pass, i) then throw (.waits true)
  let g := e.s.fld (Reg.MOV_STR_STAT.GCOUNT t n) + 1
  U.send (e.s.fld (Reg.MOV_STR_A_CFG.NQ t n)) .dataEnd (noticeBytes i slot (ofBool x.groupEnd) g n)
  U.change (·.setFld (Reg.MOV_STR_STAT.GCOUNT t n) (if x.groupEnd then 0 else g))

/-! ## Units run -/

/-- The unit of a command; whether it is complete. -/
def cmdUnitOf (c : Cmd) (k : Nat) : U Bool := do
  match c.op with
  | 0xA0 => match c.xfm with
    | 0 => copyUnit c k
    | 1 => if c.srcq then openUnit c (c.dst + 128 * k * c.aux) (max 1 (min 640 c.aux)) (k + 1 == c.cnt) else ingotUnit c k
    | 2 => if c.srcq then openUnit c (c.dst + 128 * diagLu c.aux * k) (diagLu c.aux) (k == c.cnt + 30) else diagUnit c k
    | 3 => if c.srcq then openUnit c (c.dst + 128 * rowUnits c.cnt * k) (rowUnits c.cnt) (k + 1 == rowCount c.cnt) else gatherUnit c k
    | 4 => scatterUnit c k
    | 5 => kvUnit c k
    | _ => return (← collUnit c)
  | 0xA2 => warmUnit c k
  | 0xA4 => permUnit c k
  | 0xA5 => unpermUnit c k
  | 0xA8 => appendUnit c k
  | _ => return (← bcastUnit c k)
  return true

/-- The unit with the notice that its command's end carries (R218, R247). -/
def cmdUnitEnd (c : Cmd) (k : Nat) : U Bool := do
  let done ← cmdUnitOf c k
  let e ← get
  let total := if c.op = 0xA4 then e.total else cmdTotal c
  if done && c.ntf && k + 1 == total then do
    let v ← if c.op = 0xA4 then U.permNotice c else pure total
    U.send c.nq .dataEnd (natLE 4 v)
  return done

/-- A unit in flight. -/
def unitOf (m : Nat) (q : List Cmd) (u : MoverUnit) : U Bool :=
  match u with
  | .command k => match q with
    | c :: _ => cmdUnitEnd c k
    | [] => pure true
  | .stream n pass i slot => do
    streamUnit (m / 4) n pass i slot
    return true

/-- The context of a mover's unit. -/
def State.ctxOf (s : State) (m : Nat) (u : MoverUnit) : Ctx :=
  let x := s.mover m
  let c := x.queue.head?
  let isCmd : Bool := match u with
    | .command _ => true
    | _ => false
  ⟨m, (s.moverPart m).getD 0, x.phys, isCmd && (match c with
    | some c => c.na
    | none => false), isCmd && (match c with
    | some c => c.op == 0xA2
    | none => false)⟩

/-- Flits written into a tile's queues while these have room and accept them (R44, R50): how many were written, whether one was refused, and
the state. -/
def State.pushOuts (s : State) (t : Nat) : List (Nat × Flit) → Nat × Bool × State
  | [] => (0, false, s)
  | (q, f) :: l => match s.refuse t q 4 with
    | some s' => (0, true, s')
    | none =>
      if s.noRoom t q then (0, false, s)
      else
        let r := (s.pushFlit t q f).pushOuts t l
        (r.1 + 1, r.2)

/-! ## Stops -/

/-- A mover's units in flight are abandoned, to be redone from the first uncompleted one (R89, R233, R234). Flits that its oldest
unit has written are not written again; its accesses keep their tags until they end (R213), and its walks serve no unit any more (R192). -/
def State.abandon (s : State) (m : Nat) : State :=
  let flits := match (s.mover m).inflight with
    | .command _ :: _ => (s.mover m).work.flits
    | _ => 0
  let s := s.modMover m (fun x => { x with inflight := [], work := { Work.reset with flits := flits }, lens := [] })
  { s with
    hearthFills := s.hearthFills.map (fun f : LineFill => { f with movers := f.movers.filter (· != m) })
    outstanding := (s.outstanding.filter (fun (o : Outstanding) => o.sent || o.issuer != Issuer.mover m)).map
      (fun o : Outstanding => if o.issuer = Issuer.mover m then { o with issuer := Issuer.dropped m } else o)
    walks := (s.walks.filter (fun (w : Walk) => !(w.serves m && w.blocked))).map (fun w : Walk => if w.serves m then { w with who := .abandoned m } else w)
    fetches := s.fetches.map (fun f : Fetch => { f with waiters := f.waiters.filter (fun w => !w.serves m) })
    broadcasts := s.broadcasts.filter (fun b => b.mover != m) }.settleWait

/-! ## The end of a descriptor -/

/-- HEAD of a ring advances past every descriptor that is done with all before it. -/
def State.ringAdvance (s : State) (r : Nat) : Nat → State
  | 0 => s
  | k + 1 =>
    let h := s.fld (Reg.TIER_IORING_HEAD.INDEX r)
    if s.ringDone.contains (r, h) then
      ({ s with ringDone := s.ringDone.erase (r, h) }.setFld (Reg.TIER_IORING_HEAD.INDEX r) (h + 1)).ringAdvance r k
    else s

/-- The descriptor of a mover is done. -/
def State.ringDoneWith (s : State) (m : Nat) (j : RingJob) : State :=
  let s := { s.modMover m (fun x => { x with job := none, prog := 0 }) with ringDone := (j.ring, j.index) :: s.ringDone }
  s.ringAdvance j.ring s.ringDone.length

/-- The completion word of a descriptor that has ended is written, and the descriptor is done (R232). The word is a VA unless PHYS is set (log
16); a page of it that must be fetched is waited for, and where it cannot be written the descriptor is done without it. -/
def State.ringWord (s : State) (m : Nat) : State :=
  match (s.mover m).job with
  | some j => match j.result with
    | some (kind, units) =>
      let word := natLE 8 (units % 2 ^ 32 + kind % 256 * 2 ^ 40 + 2 ^ 63)
      let key := (j.part, 0, 2 ^ 49 + m, 0)
      if j.phys then (s.engineWrite key m j.part j.completion word).ringDoneWith m j
      else
        let r := s.engineWrites key m j.part (s.ptBase j.part) [(j.completion, word)]
        if r.1 = .waits then r.2 else r.2.ringDoneWith m j
    | none => s
  | none => s

/-- A descriptor ends with a fault kind, or 0, and the units it has completed. -/
def State.ringFinish (s : State) (m kind units : Nat) : State :=
  ((s.abandon m).modMover m (fun x => { x with
    queue := []
    work := Work.reset
    job := x.job.map (fun j => { j with result := some (kind, units) }) })).ringWord m

/-- A walk or a fetch of an I/O-die mover that ends in a fault ends its descriptor with the kind (R232). -/
def State.walkEnds (m kind : Nat) (s : State) : State := if m < 48 then s else s.ringFinish m kind (s.moverProg m)

/-- The head command of a mover is complete (R214, R232). -/
def State.cmdDone (s : State) (m units : Nat) : State :=
  if m < 48 then (s.popCmd m).headStep m 8 else s.ringFinish m 0 units

/-- The oldest unit of a mover is complete (R197, R209). -/
def State.unitDone (s : State) (m : Nat) (u : MoverUnit) (total : Nat) : State :=
  let s := (s.modMover m (fun x => { x with
    inflight := x.inflight.drop 1
    work := Work.reset
    lens := match u with
      | .command k => x.lens.filter (·.1 != k)
      | _ => x.lens })).invalUnit m
  let s := if m < 48 then s.add64 (Reg.MOV_UNITS_LO (20 * (m / 4))) 1 else s
  match u with
  | .command k =>
    let s := s.setMoverProg m (k + 1)
    let s := s.modMover m (fun x => { x with queue := match x.queue with
      | c :: l => (if c.op = 0xA4 then { c with total := total } else c) :: l
      | [] => [] })
    match (s.mover m).queue with
    | c :: _ => if cmdTotal c ≤ k + 1 then s.cmdDone m (k + 1) else s
    | [] => s
  | .stream n _ _ _ => (((s.strPop (m / 4) n).strFlushAll (m / 4) n).stopsDone (m / 4) n)

/-- One Hearth line that a unit of mover `m` reads: a hit is counted and used, and a miss starts a fill that the unit waits for, if the mover has
the tags for it (R203, R213). -/
def State.useLine (s : State) (m : Nat) (l : Nat × Nat) : Option State :=
  if s.hearthHas l.1 l.2 then some (s.hearthAccess l.1 l.2 false false)
  else if s.filling l.1 l.2 || s.tagsLeft (some m) 2 then some (s.startFill m l.1 l.2)
  else none

/-- The Hearth lines that a unit reads, in order, as far as the tags go. -/
def State.useLines (s : State) (m : Nat) : List (Nat × Nat) → State
  | [] => s
  | l :: ls => match s.useLine m l with
    | some s' => (s'.modMover m (fun x => { x with work := { x.work with used := x.work.used + 1 } })).useLines m ls
    | none => s

/-- An access of a unit to a CXL partner, or a write to another slot, sent once (R318, R446). -/
def State.askOnce (s : State) (m port slot pa : Nat) (op : AccessOp) : State :=
  let k := 2 * pa + ofBool (opWrites op)
  if (s.mover m).work.asked.contains k then s
  else (s.modMover m (fun x => { x with work := { x.work with asked := k :: x.work.asked } })).ask port slot pa op (.mover m)

/-- Every access of a unit to partners and other slots is sent. -/
def State.askAll (s : State) (m : Nat) (f : Forming) : State :=
  let s := f.partner.foldl (fun s x => s.askOnce m x.1 0 x.2.1 x.2.2) s
  f.remote.foldl (fun s x => s.askOnce m 16 x.1 x.2.1 x.2.2) s

/-- The unit waits for a fill or an answer. -/
def State.unitWaits (s : State) (m : Nat) : Bool :=
  s.hearthFills.any (fun f => f.movers.contains m) || s.outstanding.any (fun o => o.issuer == .mover m)

/-- The error that came with a unit's data marks the open steps of its partition (R188, R202, R411). -/
def State.unitPoison (s : State) (c : Ctx) (f : Forming) : State :=
  let k := (s.mover c.m).work.poison
  if c.phys then s
  else if k ≠ 0 then s.markOpen c.p k
  else if f.ue then s.markOpen c.p 3
  else s

/-- A unit that can complete: it waits for its lines and accesses, its flits are written, and it completes. -/
def State.commitUnit (s : State) (c : Ctx) (u : MoverUnit) (done : Bool) (f : Forming) : State :=
  let m := c.m
  let rest := f.lines.drop (s.mover m).work.used
  let asked := s.askAll m f
  if rest.any (fun l => !s.hearthHas l.1 l.2) then s.useLines m rest
  else if (asked.mover m).work.asked ≠ (s.mover m).work.asked then asked
  else if s.unitWaits m then s
  else
    let t := moverTile m
    let todo := f.outs.drop (s.mover m).work.flits
    let p := s.pushOuts t todo
    if p.1 < todo.length then
      p.2.2.modMover m (fun x => { x with work := { x.work with flits := x.work.flits + p.1, waits := !p.2.1 } })
    else
      let s := f.s.unitPoison c f
      let s := rest.foldl (fun s l => s.hearthAccess l.1 l.2 false false) s
      let s := f.takes.foldl (fun s q => s.takeLocal t q) (s.pushOuts t todo).2.2
      if done then s.unitDone m u f.total else s

/-- What a fault does to the unit of an I/O-die mover: its descriptor ends with the fault's kind (R232). -/
def State.unitFaulted (s : State) (m : Nat) (e : Stop) : State :=
  match e with
  | .fault _ kind _ _ _ _ => s.walkEnds m kind
  | .bank _ _ _ _ _ => s.walkEnds m 0x10
  | _ => s

/-- MOVER_UNIT_COMPLETE: the oldest unit of a mover is tried; `e` is what the checks of its reads find (R192, R197). A fault of a stream's entry
records the VA of the list entry (R235). -/
def moverUnitComplete (m : Nat) (e : MoverEnd) (s : State) : State :=
  match (s.mover m).inflight with
  | [] => s
  | u :: _ =>
    if s.moverRuns m = false then s
    else
      let s := (s.noteWait m false).readLength m (match u with
        | .command k => k
        | _ => 0)
      let c := s.ctxOf m u
      let va := match u with
        | .stream n _ i _ => some (s.entryAt (m / 4) n i)
        | _ => none
      if (s.mover m).work.drop then s.unitDone m u 0
      else match runU (unitOf m (s.mover m).queue u) c e s with
        | .error x => (s.stopped c va x).unitFaulted m x
        | .ok (done, f) => s.commitUnit c u done f

/-- ZERO_COUNT_COMMAND (R218). -/
def zeroCountCommand (m : Nat) (s : State) : State :=
  match (s.mover m).queue with
  | [] => s
  | c :: _ =>
    if s.moverRuns m = false ∨ cmdEmpty c = false then s
    else
      let outs := (if c.ntf then [(c.nq, (⟨.empty, 0⟩ : Flit))] else []) ++ (if c.dstq then [(c.dst % 32, (⟨.empty, 0⟩ : Flit))] else [])
      match outs.findSome? (fun x => s.refuse (moverTile m) x.1 4) with
      | some s' => s'
      | none =>
        let r := s.pushOuts (moverTile m) outs
        if r.1 < outs.length then s else r.2.2.cmdDone m 0

/-- STREAM_RELEASE (R227): the flit is read and checked (R58). A fault of kind RELEASE names no mover and no VA: these are free (log 3). -/
def streamRelease (b : Nat) (r : ReleaseRead) (s : State) : State :=
  let t := 20 * b
  let n := r.stream.val
  let q := s.fld (Reg.MOV_STR_A_CFG.RQ t n)
  match s.bayPart b, s.headFor t q 4 with
  | some p, some h =>
    if s.running p = false ∨ s.flag (Reg.MOV_STR_A_CFG.VALID t n) = false ∨ h.kind = .quench then s
    else
      let read := s.readHead t h r.flit
      let s := read.2
      let k := read.1.toNat % 2 ^ 16
      if h.kind = .empty then s.takeLocal t q
      else if k = 0 ∨ s.strFilled b n < k then
        s.took.took.moverFault (4 * b + s.fresh % 4) p codeViolation 0x49 0 (s.took.fresh) 0 0
      else
        let s := (s.takeLocal t q).setFld (Reg.MOV_STR_STAT.FILLED t n) (s.strFilled b n - k)
        s.modStream b n (fun x => { x with base := (x.base + k) % s.strSlots b n, lastRelease := s.fcycles })
  | _, _ => s

/-! ## Rings -/

/-- The base of a ring. -/
def State.ringBase (s : State) (r : Nat) : Nat :=
  (s.fld (Reg.TIER_IORING_BASE_LO.BASE r) * 2 ^ 6 + s.fld (Reg.TIER_IORING_BASE_HI.BASE r) * 2 ^ 32) % 2 ^ 54

/-- A descriptor's command (Table 09-10). -/
def descCmd (b : List Byte) : Cmd :=
  let f := fun o n => leNat ((b.drop o).take n)
  ⟨f 0 1, f 1 1, 0, false, false, false, bitOf (f 2 1) 0, f 8 8, f 16 8, f 24 8, f 32 8, 0, 0⟩

/-- A descriptor that names no work of R232 and R321: what its completion word says is not stated (log 16). -/
def descBad (c : Cmd) (phys : Bool) : Bool :=
  !(c.op == 0xA0 && decide (c.xfm ≤ 6) && !(c.xfm == 6 && phys)) && c.op != 0xAC

/-- A demand fetch occupies a mover of ring 0 ahead of its descriptors (R232). -/
def State.ringIdle (s : State) (r : Nat) : Bool :=
  r != 0 || decide (s.fetches.length < ((List.range' 48 4).filter (fun m => (s.mover m).job.isNone)).length)

/-- IORING_DESCRIPTOR: I/O-die mover 48 + `k` takes the next descriptor of its ring, or tries again to write the completion word of the one that it
has ended (R232). -/
def ioringDescriptor (k : Nat) (s : State) : State :=
  let m := 48 + k
  let r := k / 4
  let i := s.ringNext.toList.getD r 0
  let a := s.ringBase r + 64 * (i % 2 ^ s.fld (Reg.TIER_IORING_BASE_HI.LOG2N r))
  if s.gridLive = false then s
  else if (s.mover m).job.isSome then s.ringWord m
  else if i = s.ringTail.toList.getD r 0 ∨ s.ringIdle r = false ∨ s.fillingIn a 64 then s
  else
    let s := s.pass a 64 false
    let b := s.bytes a 64
    let f := fun o n => leNat ((b.drop o).take n)
    let c := descCmd b
    let j : RingJob := ⟨r, i, f 3 1 % 16, bitOf (f 2 1) 1, f 40 8, none⟩
    let s := { s with ringNext := s.ringNext.setIfInBounds r ((i + 1) % 2 ^ 16) }
    let s := s.modMover m (fun x => { x with job := some j, queue := [{ c with headAt := s.fcycles }], prog := 0, work := Work.reset })
    if descBad c j.phys then s.took.ringFinish m s.fresh 0
    else if cmdEmpty c then s.ringFinish m 0 0
    else s

/-- A write of TIER_CTRL: INT_EN takes the value, and RING_KICK rereads every TAIL (R232). -/
def State.writeTierCtrl (s : State) (v : Word) : State :=
  let s := s.setFld Reg.TIER_CTRL.INT_EN (bits v.toNat 1 1)
  if bitOf v.toNat 0 then
    let t := fun r => s.fld (Reg.TIER_IORING_TAIL.INDEX r)
    { s with ringTail := #v[t 0, t 1, t 2, t 3] }
  else s

/-! ## Walks and fetches -/

/-- TRANSLATION_WALK: the oldest walk that can go on is done. -/
def translationWalk (s : State) : State :=
  if s.gridLive = false then s
  else match s.walks.find? s.canWalk with
    | none => s
    | some w => (s.doWalk State.walkEnds w).settleWait

/-- DEMAND_FETCH_COMPLETE (R189, R191): the leaf is read again, once its line is not being filled (R203). -/
def demandFetchComplete (i : Nat) (res : EndKind) (s : State) : State :=
  match s.fetches[i]? with
  | none => s
  | some f =>
    if s.gridLive = false ∨ s.fillingIn (f.leafAt % 2 ^ 54) 8 then s
    else ({ s with fetches := s.fetches.erase f }.fetchEnd State.walkEnds f res).settleReset f.part

/-! ## Restarts -/

/-- A stream restarts at its first uncompleted entry, FILLED counts the completed slots that are held, and T_rel is now (R234). Where firmware has
written another COMPLETE, the stream restarts there. -/
def State.strRestart (s : State) (b n : Nat) : State :=
  let x := s.stream b n
  let tiles := (x.started.filter (fun i => i.kind == .tile)).length
  let at_ := s.fld (Reg.MOV_STR_POS.COMPLETE (20 * b) n)
  let s := s.setFld (Reg.MOV_STR_STAT.FILLED (20 * b) n) (s.strFilled b n - tiles)
  (s.modStream b n (fun x =>
    if at_ = x.at_ then { x with redo := x.started ++ x.redo, started := [], lastRelease := s.fcycles }
    else { x with next := at_, redo := [], started := [], lastRelease := s.fcycles })).strSettle b n

/-- The movers that work for a partition: those of its bays, and those of the I/O die that run a descriptor of it. -/
def State.moversOf (s : State) (p : Nat) : List Nat :=
  (s.baysOf p).flatMap (fun b => (List.range 4).map (4 * b + ·)) ++
    (List.range' 48 16).filter (fun m => match (s.mover m).job with
      | some j => j.part == p && !j.phys
      | none => false)

/-- The movers and streams of a partition restart as its job runs again (R234). -/
def State.restartMovers (s : State) (p : Nat) : State :=
  let s := (s.moversOf p).foldl State.abandon s
  (s.baysOf p).foldl (fun s b => (List.range 16).foldl (fun s n =>
    if s.strState b n = 1 ∨ s.strState b n = 2 then s.strRestart b n else s) s) s

/-! ## The rows -/

def execMoverUnitStart (mv : Fin 64) (s : State) : Host.Outcome State Fault Refusal := .next (moverUnitStart mv s)
def execMoverUnitComplete (mv : Fin 64) (res : MoverEnd) (s : State) : Host.Outcome State Fault Refusal := .next (moverUnitComplete mv res s)
def execZeroCountCommand (mv : Fin 64) (s : State) : Host.Outcome State Fault Refusal := .next (zeroCountCommand mv s)
def execStreamEntryStart (bay : Fin 12) (s : State) : Host.Outcome State Fault Refusal := .next (streamEntryStart bay s)
def execStreamRelease (bay : Fin 12) (stream : ReleaseRead) (s : State) : Host.Outcome State Fault Refusal := .next (streamRelease bay stream s)
def execTranslationWalk (s : State) : Host.Outcome State Fault Refusal := .next (translationWalk s)
def execDemandFetchComplete (i : Nat) (res : EndKind) (s : State) : Host.Outcome State Fault Refusal := .next (demandFetchComplete i res s)
def execIoringDescriptor (mv : Fin 16) (s : State) : Host.Outcome State Fault Refusal := .next (ioringDescriptor mv s)
def execRingKick (m : Master) (v : Word) (s : State) : Host.Outcome State Fault Refusal :=
  .next (s.byFirmware m Reg.TIER_CTRL (·.writeTierCtrl v))

end Sys2Proof.Machine
end

