-- ==== Sys2Proof/Machine/Temper.lean ====
section
/-! DEFINITION. The Temper tile (chapter 06): FN, SMAX, ROPE, TOPK, SAMPLE, STOPCHK and RNG. -/
namespace Sys2Proof.Machine

/-! ## Rows and streams -/

/-- Element `i` of row `r` of a stream of `n` elements in a format of R128, as FP32. -/
def State.inElem (s : State) (t n f len r i : Nat) : Nat :=
  match f with
  | 0 => s.rowNum t n r (4 * i) 4
  | 1 => toF32 (fmtBf16.decode (s.rowNum t n r (2 * i) 2))
  | 2 => toF32 (fmtF16.decode (s.rowNum t n r (2 * i) 2))
  | 3 => toF32 (mxNum 0 (s.rowNum t n r i 1) (s.rowNum t n r (len + i / 32) 1))
  | _ => toF32 (mxNum 1 (s.rowNum t n r i 1) (s.rowNum t n r (len + i / 32) 1))

/-- Row `r` of a stream as FP32 values. -/
def State.inRow (s : State) (t n f len r : Nat) : List Nat := (List.range len).map (s.inElem t n f len r)

/-- The address of byte `b` of a stream's walk. -/
def State.streamByte (s : State) (t n b : Nat) : Nat := s.sAddr t n (b / 128) + b % 128

/-- The number in `w` bytes at byte `b` of a stream's walk, within one unit. -/
def State.strmNum (s : State) (t n b w : Nat) : Nat := s.lnum t (s.streamByte t n b) w
def State.setStrmNum (s : State) (t n b w v : Nat) : State := s.writeNum (storeAt t (s.streamByte t n b)) w v

/-- A row written in an output format. -/
def State.outRow (s : State) (t n f r : Nat) (vals : List Nat) : State := s.write (storeAt t (s.sRow t n r)) (rowBytes f vals)

/-- A row of `len` elements in format `f` fits in the INNER units of a stream. -/
def State.rowFits (s : State) (t n f len : Nat) : Bool := decide (rowLen f len ≤ 128 * s.sInner t n)
/-- A stream holds `b` bytes. -/
def State.holds (s : State) (t n b : Nat) : Bool := decide (b ≤ 128 * s.sLen t n)

/-! ## FN -/

def fnSa (w : Nat) : Nat := bits w 48 4
def fnSb (w : Nat) : Nat := bits w 44 4
def fnSo (w : Nat) : Nat := bits w 40 4
def fnFunc (w : Nat) : Nat := bits w 34 6
def fnIf (w : Nat) : Nat := bits w 31 3
def fnOf (w : Nat) : Nat := bits w 28 3
def fnEnv (w : Nat) : Nat := bits w 16 4

def funcAssigned (f : Nat) : Bool :=
  decide (f ≤ 9) || (decide (0x10 ≤ f) && decide (f ≤ 0x18)) || f == 0x20 || f == 0x21
def funcReduces (f : Nat) : Bool := f == 0x20 || f == 0x21

/-- The elementwise functions of Table 06-1 on a, b, the scalar c and the row scale. -/
def fnApply (f a b c cr : Nat) : Nat :=
  match f with
  | 0x00 => fadd a b
  | 0x01 => fsub a b
  | 0x02 => fmul a b
  | 0x03 => fmax a b
  | 0x04 => fmin a b
  | 0x05 => fmul a c
  | 0x06 => fadd a c
  | 0x07 => fma a c b
  | 0x09 => fmul a cr
  | 0x10 => fexp2 a
  | 0x11 => flog2 a
  | 0x12 => frcp a
  | 0x13 => frsqrt a
  | 0x14 => ftanh a
  | 0x15 => fsigmoid a
  | 0x16 => ferf a
  | 0x17 => numSin (ofF32 a)
  | 0x18 => numCos (ofF32 a)
  | _ => a

/-- The first of the checks of FN that fails (R146). -/
def State.fnIssueFault (s : State) (t w n : Nat) : Option (Nat × Nat × Nat) :=
  let sa := fnSa w
  let sb := fnSb w
  let so := fnSo w
  let f := fnFunc w
  let usesB := funcBinary f || f == 9
  let rows := s.sOuter t sa
  if s.sLen t sa = 0 then none
  else if (s.streamOk t sa && (!usesB || s.streamOk t sb) && s.streamOk t so) = false then some (codeViolation, 0x27, 0)
  else if funcAssigned f = false ∨ 4 < fnIf w ∨ 4 < fnOf w then some (codeTileShape, 0x40, 1)
  else if n = 0 ∨ s.rowFits t sa (fnIf w) n = false ∨ (funcReduces f = false ∧ s.rowFits t so (fnOf w) n = false) then
    some (codeTileShape, 0x40, 2)
  else if n % 32 ≠ 0 ∧ (3 ≤ fnIf w ∨ 3 ≤ fnOf w) then some (codeTileShape, 0x40, 3)
  else if (funcBinary f ∧ (s.sOuter t sb ≠ rows ∨ s.sInner t sb ≠ s.sInner t sa)) ∨ (f = 9 ∧ s.holds t sb (16 * rows) = false) then
    some (codeTileShape, 0x40, 4)
  else if (funcReduces f = true ∧ s.holds t so (4 * rows) = false) ∨ (funcReduces f = false ∧ s.sOuter t so < rows) then
    some (codeTileShape, 0x40, 5)
  else none

/-- Is the tap applied? TMP_CTRL takes effect at the next start on E2 (R149), so its bit is read at issue. -/
def State.tapEn (s : State) (t : Nat) : Nat := s.fld (Reg.TMP_CTRL.TAP_EN t)

def fnBody (t w : Nat) (s : State) : State :=
  let n := s.operand t (bits w 8 8)
  match s.fnIssueFault t w n with
  | some f => s.issueFault t f.1 f.2.1 f.2.2
  | none => if s.sLen t (fnSa w) = 0 then s.retire t else s.startEngine t 2 w [n, s.operand t (bits w 20 8), s.tapEn t]

/-- The envelope an instruction on E2 applies. -/
def State.tapEnv (s : State) (t i env : Nat) : Nat := if s.op t 2 i = 1 then env else 0

/-- A unit of E2 or E3 ends: its time and its progress. -/
def State.temperUnitEnd (s : State) (t e total : Nat) (env : UnitEnv) : State :=
  let c := s.prog t e + 1
  let s := s.add64 (if e = 2 then Reg.TMP_VBUSY_LO t else Reg.TMP_SBUSY_LO t) env.cycles
  let s := s.setProg t e c
  if total ≤ c then s.completeEngine t e else s

/-- One row of FN (R131). -/
def State.fnUnit (s : State) (t w : Nat) (env : UnitEnv) : State :=
  let n := s.op t 2 0
  let c := s.op t 2 1 % 2 ^ 32
  let f := fnFunc w
  let r := s.prog t 2
  let rows := s.sOuter t (fnSa w)
  let as := s.inRow t (fnSa w) (fnIf w) n r
  let last := decide (rows ≤ r + 1)
  let tap := s.tapEnv t 2 (fnEnv w)
  if funcReduces f then
    let v := reduceRow fadd 0 (if f = 0x21 then as.map (fun a => fmul a a) else as)
    ((s.tapRow t tap r last [v]).setStrmNum t (fnSo w) (4 * r) 4 v).temperUnitEnd t 2 rows env
  else
    let cr := s.strmNum t (fnSb w) (16 * r + 8) 4
    let vals := (List.range n).map (fun i =>
      fnApply f (as.getD i 0) (if funcBinary f then s.inElem t (fnSb w) (fnIf w) n r i else 0) c cr)
    ((s.tapRow t tap r last vals).outRow t (fnSo w) (fnOf w) r vals).temperUnitEnd t 2 rows env

/-! ## SMAX -/

def smSi (w : Nat) : Nat := bits w 48 4
def smSo (w : Nat) : Nat := bits w 44 4
def smSs (w : Nat) : Nat := bits w 40 4
def smMode (w : Nat) : Nat := bits w 38 2
def smIf (w : Nat) : Nat := bits w 35 3
def smOf (w : Nat) : Nat := bits w 32 3
def smEnv (w : Nat) : Nat := bits w 20 4

/-- The checks of SMAX. FINAL writes nothing to SO, so what the checks say of SO's rows does not apply to it; N and the rows of SI are checked in
every mode. A format code that R128 does not list fails check 1 (log 8). -/
def State.smaxIssueFault (s : State) (t w n : Nat) : Option (Nat × Nat × Nat) :=
  let rows := s.sOuter t (smSi w)
  let final := smMode w == 2
  if s.sLen t (smSi w) = 0 then none
  else if (s.streamOk t (smSi w) && (final || s.streamOk t (smSo w)) && (smMode w == 0 || s.streamOk t (smSs w))) = false then
    some (codeViolation, 0x27, 0)
  else if 4 < smIf w ∨ 4 < smOf w then some (codeTileShape, 0x40, 1)
  else if n = 0 ∨ s.rowFits t (smSi w) (smIf w) n = false ∨ (final = false ∧ s.rowFits t (smSo w) (smOf w) n = false) then
    some (codeTileShape, 0x40, 2)
  else if n % 32 ≠ 0 ∧ (3 ≤ smIf w ∨ 3 ≤ smOf w) then some (codeTileShape, 0x40, 3)
  else if final = false ∧ s.sOuter t (smSo w) < rows then some (codeTileShape, 0x40, 5)
  else if smMode w = 3 ∨ (smMode w ≠ 0 ∧ s.holds t (smSs w) (16 * rows) = false) then some (codeTileShape, 0x40, 6)
  else none

def smaxBody (t w : Nat) (s : State) : State :=
  let n := s.operand t (bits w 12 8)
  match s.smaxIssueFault t w n with
  | some f => s.issueFault t f.1 f.2.1 f.2.2
  | none => if s.sLen t (smSi w) = 0 then s.retire t else s.startEngine t 2 w [n, s.operand t (bits w 24 8), s.tapEn t]

/-- One row of SMAX (R133). -/
def State.smaxUnit (s : State) (t w : Nat) (env : UnitEnv) : State :=
  let n := s.op t 2 0
  let sc := s.op t 2 1 % 2 ^ 32
  let r := s.prog t 2
  let rows := s.sOuter t (smSi w)
  let last := decide (rows ≤ r + 1)
  let tap := s.tapEnv t 2 (smEnv w)
  let ss := smSs w
  if smMode w = 2 then
    let l := s.strmNum t ss (16 * r + 4) 4
    let c := if (ofF32 l).isZero then 0 else frcp l
    (s.setStrmNum t ss (16 * r + 8) 4 c).temperUnitEnd t 2 rows env
  else
    let ts := (s.inRow t (smSi w) (smIf w) n r).map (fmul sc)
    let top := reduceRow fmax negInf ts
    if smMode w = 0 then
      let es := ts.map (fun x => fexp2 (fsub x top))
      let l := reduceRow fadd 0 es
      let ys := if top = negInf then ts.map (fun _ => 0) else es.map (fun e => fdiv e l)
      ((s.tapRow t tap r last ys).outRow t (smSo w) (smOf w) r ys).temperUnitEnd t 2 rows env
    else
      let m := s.strmNum t ss (16 * r) 4
      let l := s.strmNum t ss (16 * r + 4) 4
      let m' := fmax m top
      let ys := if m' = negInf then ts.map (fun _ => 0) else ts.map (fun x => fexp2 (fsub x m'))
      let s := (s.tapRow t tap r last ys).outRow t (smSo w) (smOf w) r ys
      let s := if m' = negInf then s.setStrmNum t ss (16 * r + 8) 4 oneF32
        else
          let c := fexp2 (fsub m m')
          let s := s.setStrmNum t ss (16 * r) 4 m'
          let s := s.setStrmNum t ss (16 * r + 4) 4 (fadd (fmul l c) (reduceRow fadd 0 ys))
          s.setStrmNum t ss (16 * r + 8) 4 c
      s.temperUnitEnd t 2 rows env

/-! ## ROPE -/

def rpSi (w : Nat) : Nat := bits w 48 4
def rpSo (w : Nat) : Nat := bits w 44 4
def rpPos (w : Nat) : Nat := bits w 40 4
def rpSf (w : Nat) : Nat := bits w 36 4
def rpIf (w : Nat) : Nat := bits w 33 3
def rpOf (w : Nat) : Nat := bits w 30 3
def rpEnv (w : Nat) : Nat := bits w 9 4

/-- The checks of ROPE. A format code that R128 does not list fails check 1 (DEDUCED, log 8). -/
def State.ropeIssueFault (s : State) (t w d n : Nat) : Option (Nat × Nat × Nat) :=
  let rows := s.sOuter t (rpSi w)
  if s.sLen t (rpSi w) = 0 then none
  else if (s.streamOk t (rpSi w) && s.streamOk t (rpSo w) && s.streamOk t (rpPos w) && s.streamOk t (rpSf w)) = false then
    some (codeViolation, 0x27, 0)
  else if 4 < rpIf w ∨ 4 < rpOf w then some (codeTileShape, 0x40, 1)
  else if n = 0 ∨ s.rowFits t (rpSi w) (rpIf w) n = false ∨ s.rowFits t (rpSo w) (rpOf w) n = false then
    some (codeTileShape, 0x40, 2)
  else if n % 32 ≠ 0 ∧ (3 ≤ rpIf w ∨ 3 ≤ rpOf w) then some (codeTileShape, 0x40, 3)
  else if s.sOuter t (rpSo w) < rows then some (codeTileShape, 0x40, 5)
  else if d % 2 ≠ 0 ∨ d < 2 ∨ n < d ∨ s.holds t (rpSf w) (2 * d) = false ∨ s.holds t (rpPos w) (4 * rows) = false then
    some (codeTileShape, 0x40, 7)
  else none

def ropeBody (t w : Nat) (s : State) : State :=
  let d := s.operand t (bits w 21 8)
  let n := s.operand t (bits w 13 8)
  match s.ropeIssueFault t w d n with
  | some f => s.issueFault t f.1 f.2.1 f.2.2
  | none => if s.sLen t (rpSi w) = 0 then s.retire t else s.startEngine t 2 w [n, d, s.tapEn t]

/-- One row of ROPE (R134). -/
def State.ropeUnit (s : State) (t w : Nat) (env : UnitEnv) : State :=
  let n := s.op t 2 0
  let d := s.op t 2 1
  let r := s.prog t 2
  let rows := s.sOuter t (rpSi w)
  let xs := s.inRow t (rpSi w) (rpIf w) n r
  let halves := bitOf w 29
  let pos := Num.fin false (s.strmNum t (rpPos w) (4 * r) 4) 0
  let vals := (List.range n).map (fun i =>
    if d ≤ i then xs.getD i 0
    else
      let k := if halves then i % (d / 2) else i / 2
      let first := if halves then decide (i < d / 2) else i % 2 == 0
      let x0 := ofF32 (xs.getD (if halves then k else 2 * k) 0)
      let x1 := ofF32 (xs.getD (if halves then k + d / 2 else 2 * k + 1) 0)
      let angle := pos.mul (ofF32 (s.strmNum t (rpSf w) (4 * k) 4))
      let sn := ofF32 (numSin angle)
      let cs := ofF32 (numCos angle)
      if first then toF32 ((x0.mul cs).add (x1.mul sn).neg) else toF32 ((x0.mul sn).add (x1.mul cs)))
  let s := s.tapRow t (s.tapEnv t 2 (rpEnv w)) r (decide (rows ≤ r + 1)) vals
  (s.outRow t (rpSo w) (rpOf w) r vals).temperUnitEnd t 2 rows env

/-! ## Ranking (R135) -/

/-- Candidate (value, index) `a` ranks before `b`: larger values first, NaN last, equal values by lower index. -/
def ranksBefore (a b : Nat × Nat) : Bool :=
  if fnan a.1 then fnan b.1 && decide (a.2 < b.2)
  else if fnan b.1 then true
  else flt b.1 a.1 || (!flt a.1 b.1 && decide (a.2 < b.2))

def insertRanked (x : Nat × Nat) : List (Nat × Nat) → List (Nat × Nat)
  | [] => [x]
  | y :: ys => if ranksBefore x y then x :: y :: ys else y :: insertRanked x ys

/-- The `k` best candidates in rank order. -/
def bestOf (k : Nat) (l : List (Nat × Nat)) : List (Nat × Nat) := l.foldl (fun acc x => (insertRanked x acc).take k) []

def tkSi (w : Nat) : Nat := bits w 48 4
def tkSo (w : Nat) : Nat := bits w 44 4
def tkK (w : Nat) : Nat := bits w 39 5
def tkIf (w : Nat) : Nat := bits w 36 3

/-- The checks of TOPK; a format code that R128 does not list fails check 8 (log 8). -/
def State.topkIssueFault (s : State) (t w n : Nat) : Option (Nat × Nat × Nat) :=
  if s.sLen t (tkSi w) = 0 then none
  else if (s.streamOk t (tkSi w) && s.streamOk t (tkSo w)) = false then some (codeViolation, 0x27, 0)
  else if tkK w = 0 ∨ 16 < tkK w ∨ 1024 < n ∨ 4 < tkIf w ∨ s.rowFits t (tkSi w) (tkIf w) n = false ∨
      s.sLen t (tkSo w) < s.sOuter t (tkSi w) then some (codeTileShape, 0x41, 8)
  else none

def topkBody (t w : Nat) (s : State) : State :=
  let n := s.operand t (bits w 20 8)
  match s.topkIssueFault t w n with
  | some f => s.issueFault t f.1 f.2.1 f.2.2
  | none => if s.sLen t (tkSi w) = 0 then s.retire t else s.startEngine t 3 w [n, s.operand t (bits w 28 8)]

/-- One row of TOPK (R135). -/
def State.topkUnit (s : State) (t w : Nat) (env : UnitEnv) : State :=
  let n := s.op t 3 0
  let base := s.op t 3 1 % 2 ^ 32
  let r := s.prog t 3
  let vals := s.inRow t (tkSi w) (tkIf w) n r
  let best := bestOf (tkK w) ((List.range n).map (fun j => (vals.getD j 0, j)))
  let entry := fun m => best.getD m (negInf, 2 ^ 33)
  let bytes := (List.range 16).flatMap (fun m => natLE 4 (if fnan (entry m).1 then nanF32 else (entry m).1)) ++
    (List.range 16).flatMap (fun m => natLE 4 (if (entry m).2 = 2 ^ 33 then 0xFFFFFFFF else base + (entry m).2))
  (s.write (storeAt t (s.sAddr t (tkSo w) r)) bytes).temperUnitEnd t 3 (s.sOuter t (tkSi w)) env

/-! ## SAMPLE -/

def saSl (w : Nat) : Nat := bits w 48 4
def saSp (w : Nat) : Nat := bits w 44 4
def saSo (w : Nat) : Nat := bits w 40 4
def saLf (w : Nat) : Nat := bits w 37 3
def saMode (w : Nat) : Nat := bits w 35 2
def saSd (w : Nat) : Nat := bits w 23 4

/-- The checks of SAMPLE at issue; a format code that R128 does not list fails check 9 (log 8). -/
def State.sampleIssueFault (s : State) (t w v : Nat) : Option (Nat × Nat × Nat) :=
  let rows := s.sOuter t (saSl w)
  if s.sLen t (saSl w) = 0 then none
  else if (s.streamOk t (saSl w) && s.streamOk t (saSp w) && s.streamOk t (saSo w) &&
      (saMode w != 2 || s.streamOk t (saSd w))) = false then some (codeViolation, 0x27, 0)
  else if saMode w = 3 ∨ v = 0 ∨ 262144 < v ∨ 4 < saLf w ∨ s.rowFits t (saSl w) (saLf w) v = false ∨ s.sLen t (saSp w) < rows ∨
      s.sLen t (saSo w) < rows ∨ (saMode w = 2 ∧ (s.rowFits t (saSd w) 0 v = false ∨ s.sOuter t (saSd w) < rows)) then
    some (codeTileShape, 0x42, 9)
  else none

def sampleBody (t w : Nat) (s : State) : State :=
  let v := s.operand t (bits w 27 8)
  match s.sampleIssueFault t w v with
  | some f => s.issueFault t f.1 f.2.1 f.2.2
  | none => if s.sLen t (saSl w) = 0 then s.retire t else s.startEngine t 3 w [v]

/-- A sampling record (Table 06-3). -/
structure SampleRec where
  seed : Nat
  temp : Nat
  topP : Nat
  minP : Nat
  topK : Nat
  pos : Nat
  draft : Nat
  draftQ : Nat
deriving DecidableEq, Repr

def sampleRec (u : Nat) : SampleRec :=
  ⟨bits u 0 64, bits u 64 32, bits u 96 32, bits u 128 32, bits u 160 16, bits u 192 48, bits u 256 32, bits u 288 32⟩

/-- Check 11 of Table 06-8 on a record. -/
def SampleRec.ok (r : SampleRec) (u : Nat) : Bool :=
  (ofF32 r.temp).isFinite && fle 0 r.temp && flt 0 r.topP && fle r.topP oneF32 && fle 0 r.minP && flt r.minP oneF32 &&
    decide (r.topK ≤ 1024) && bits u 176 16 == 0 && bits u 240 16 == 0 && u / 2 ^ 320 == 0

/-- A sampling result (Table 06-4); none stands for a value the spec does not state. -/
structure SampleOut where
  token : Nat
  prob : Option Nat
  accept : Nat
  status : Nat
  kept : Option Nat
deriving DecidableEq, Repr

/-- log2 e as FP32. -/
def log2e : Nat := 0x3FB8AA3B

/-- The first of (index, weight) pairs whose running sum exceeds a target, and the last pair whose weight `may` accepts otherwise. -/
def walk (target : Nat) (may : Nat → Bool) : Nat → Option Nat → List (Nat × Nat) → Option Nat
  | _, last, [] => last
  | sum, last, x :: xs =>
    if flt target (fadd sum x.2) then some x.1
    else walk target may (fadd sum x.2) (if may x.2 then some x.1 else last) xs

/-- The prefix whose running sum reaches a bound, or all (R140). -/
def prefixTo (bound : Nat) : Nat → List (Nat × Nat) → List (Nat × Nat)
  | _, [] => []
  | sum, x :: xs => if fle bound (fadd sum x.2) then [x] else x :: prefixTo bound (fadd sum x.2) xs

/-- The distribution that SAMPLE draws from: the numerators and their sum l, the candidates that the filters keep as (index, pj) in
order, their mass S, and whether a filter is enabled (R140). -/
structure Distr where
  num : List Nat
  l : Nat
  kept : List (Nat × Nat)
  mass : Nat
  filtered : Bool
deriving DecidableEq, Repr

def distrOf (r : SampleRec) (xs : List Nat) : Distr :=
  let best := bestOf 1024 ((List.range xs.length).map (fun j => (xs.getD j 0, j)))
  let xmax := (best.headD (negInf, 0)).1
  let num := xs.map (fun x => fexp2 (fdiv (fmul (fsub x xmax) log2e) r.temp))
  let l := reduceRow fadd 0 num
  let p := fun j => fdiv (num.getD j 0) l
  let filtered := r.topK != 0 || !(ofF32 r.minP).isZero || r.topP != oneF32
  let c := best.map (fun e => (e.2, p e.2))
  let c := if r.topK = 0 then c else c.take r.topK
  let c := if (ofF32 r.minP).isZero then c else c.filter (fun e => fle (fmul r.minP (c.headD (0, 0)).2) e.2)
  let c := if r.topP = oneF32 then c else prefixTo r.topP 0 c
  ⟨num, l, c, c.foldl (fun s e => fadd s e.2) 0, filtered⟩

/-- The renormalised probability of index `j`: 0 where it was filtered out (R141). -/
def Distr.prob (d : Distr) (j : Nat) : Nat :=
  if d.filtered then
    match d.kept.find? (fun e => e.1 == j) with
    | some e => fdiv e.2 d.mass
    | none => 0
  else if j < d.num.length then fdiv (d.num.getD j 0) d.l else 0

/-- One request of SAMPLE (R140, R141): the result and how many draws it made. -/
def sampleDecide (mode : Nat) (r : SampleRec) (xs qs : List Nat) : SampleOut × Nat :=
  let xs := xs.map (fun x => if fnan x then negInf else x)
  let greedy := (bestOf 1 ((List.range xs.length).map (fun j => (xs.getD j 0, j)))).headD (negInf, 0)
  let cold := (ofF32 r.temp).isZero
  if xs.all (· == negInf) then (⟨0xFFFFFFFF, some 0, 0, 1, some 0⟩, 0)
  else if mode = 1 then
    if cold then
      if greedy.2 = r.draft then (⟨r.draft, some oneF32, 1, 0, none⟩, 0) else (⟨0xFFFFFFFF, none, 0, 0, none⟩, 0)
    else
      let d := distrOf r xs
      let kept := if d.filtered then some d.kept.length else none
      let p := d.prob r.draft
      if flt (uniform (rngWord r.seed r.pos 1 0 0)) (fmin oneF32 (fdiv p r.draftQ)) then (⟨r.draft, some p, 1, 0, kept⟩, 1)
      else (⟨0xFFFFFFFF, none, 0, 0, kept⟩, 1)
  else if cold then (⟨greedy.2, some oneF32, 0, 0, none⟩, 0)
  else
    let d := distrOf r xs
    let kept := if d.filtered then some d.kept.length else none
    if mode = 2 then
      let res := (List.range xs.length).map (fun j => (j, fmax 0 (fsub (d.prob j) (qs.getD j 0))))
      let total := reduceRow fadd 0 (res.map (·.2))
      let u := uniform (rngWord r.seed r.pos 2 0 0)
      let tok := (walk (fmul u total) (flt 0) 0 none res).getD greedy.2
      (⟨tok, some (d.prob tok), 0, 0, kept⟩, 1)
    else
      let u := uniform (rngWord r.seed r.pos 0 0 0)
      if d.filtered then
        let tok := (walk (fmul u d.mass) (fun _ => true) 0 (d.kept.getLast?.map (·.1)) d.kept).getD greedy.2
        (⟨tok, some (d.prob tok), 0, 0, kept⟩, 1)
      else
        let tok := (walk (fmul u d.l) (fun x => flt 0 (fdiv x d.l)) 0 none ((List.range xs.length).map (fun j => (j, d.num.getD j 0)))).getD greedy.2
        (⟨tok, some (d.prob tok), 0, 0, kept⟩, 1)

/-- One request of SAMPLE (R139, R148). PROB where no token is chosen, and KEPT where no filter acts, are not stated, so they are open functions of the
operands (R129, log 8). -/
def State.sampleUnit (s : State) (t w : Nat) (env : UnitEnv) : State :=
  let v := s.op t 3 0
  let r := s.prog t 3
  let u := (s.lunit t (s.sAddr t (saSp w) r)).toNat
  let q := sampleRec u
  if q.ok u = false then s.unitFault t 3 codeTileShape 0x42 (11 + r % 2 ^ 16 * 2 ^ 16)
  else
    let xs := s.inRow t (saSl w) (saLf w) v r
    let o := sampleDecide (saMode w) q xs (s.inRow t (saSd w) 0 v r)
    let prob := o.1.prob.getD (openF32 (Sys2Proof.Config.sampleOpen 0 (saMode w) u xs))
    let kept := o.1.kept.getD (Sys2Proof.Config.sampleOpen 1 (saMode w) u xs % 2 ^ 16)
    let s := if o.1.status = 1 then s.setFlag (Reg.TMP_STATUS.NO_CAND t) true else s
    let s := s.add64 (Reg.TMP_DRAWS_LO t) o.2
    let bytes := natLE 4 o.1.token ++ natLE 4 prob ++ natLE 1 o.1.accept ++ natLE 1 o.1.status ++ natLE 2 kept ++ natLE 116 0
    (s.write (storeAt t (s.sAddr t (saSo w) r)) bytes).temperUnitEnd t 3 (s.sOuter t (saSl w)) env

/-! ## STOPCHK -/

def stSt (w : Nat) : Nat := bits w 48 4
def stSr (w : Nat) : Nat := bits w 44 4
def stSo (w : Nat) : Nat := bits w 40 4

def State.stopIssueFault (s : State) (t w : Nat) : Option (Nat × Nat × Nat) :=
  let n := s.sLen t (stSt w)
  if n = 0 then none
  else if (s.streamOk t (stSt w) && s.streamOk t (stSr w) && s.streamOk t (stSo w)) = false then some (codeViolation, 0x27, 0)
  else if s.sLen t (stSr w) < 6 * n ∨ s.sLen t (stSo w) < n then some (codeTileShape, 0x43, 10)
  else none

def stopchkBody (t w : Nat) (s : State) : State :=
  match s.stopIssueFault t w with
  | some f => s.issueFault t f.1 f.2.1 f.2.2
  | none => if s.sLen t (stSt w) = 0 then s.retire t else s.startEngine t 3 w []

/-- The history then the tokens up to the i-th end with sequence `q`. -/
def endsWith (l q : List Nat) : Bool := decide (q.length ≤ l.length) && l.drop (l.length - q.length) == q

/-- The decision of R142 at token `i`: REASON, RELEASE and the index that matched. -/
def stopAt (toks hist stops : List Nat) (seqs : List (List Nat)) (first maxpos : Nat) : Nat → Nat → Nat × Nat × Nat
  | 0, i => (0, i, 0xFF)
  | n + 1, i =>
    let tok := toks.getD i 0
    if maxpos ≤ first + i then (2, i, 0xFF)
    else match stops.findIdx? (· == tok) with
      | some k => (3, i + 1, k)
      | none => match seqs.findIdx? (endsWith (hist ++ toks.take (i + 1))) with
        | some k => (4, i + 1, k)
        | none => stopAt toks hist stops seqs first maxpos n (i + 1)

/-- One request of STOPCHK (R142). -/
def State.stopUnit (s : State) (t w : Nat) (env : UnitEnv) : State :=
  let r := s.prog t 3
  let u := (s.lunit t (s.sAddr t (stSt w) r)).toNat
  let f := fun b n => s.strmNum t (stSr w) (768 * r + b) n
  let count := bits u 256 8
  let first := bits u 320 48
  let nseq := f 585 1
  let hlen := f 586 1
  let zero := fun (b n : Nat) => (List.range n).all (fun i => f (b + i) 1 == 0)
  let bad12 := decide (8 < count) || decide (16 < f 584 1) || decide (8 < nseq) || decide (15 < hlen) ||
    (List.range nseq).any (fun i => f (576 + i) 1 == 0 || decide (16 < f (576 + i) 1)) ||
    !(zero 587 5 && zero 598 2 && zero 668 100)
  if bad12 then s.unitFault t 3 codeTileShape 0x43 (12 + r % 2 ^ 16 * 2 ^ 16)
  else if 2 ^ 48 < first + count then s.unitFault t 3 codeTileShape 0x43 (13 + r % 2 ^ 16 * 2 ^ 16)
  else
    let toks := (List.range count).map (fun i => bits u (32 * i) 32)
    let hist := (List.range hlen).map (fun i => f (608 + 4 * i) 4)
    let stops := (List.range (f 584 1)).map (fun i => f (4 * i) 4)
    let seqs := (List.range nseq).map (fun i => (List.range (f (576 + i) 1)).map (fun j => f (64 + 64 * i + 4 * j) 4))
    let late := decide (f 600 8 ≤ s.strike)
    let d := if late then (1, 0, 0xFF) else stopAt toks hist stops seqs first (f 592 6) count 0
    let s := if late then s else
      let all := hist ++ toks.take d.2.1
      let h := all.drop (all.length - 15)
      let s := s.setStrmNum t (stSr w) (768 * r + 586) 1 h.length
      (List.range h.length).foldl (fun s i => s.setStrmNum t (stSr w) (768 * r + 608 + 4 * i) 4 (h.getD i 0)) s
    let bytes := natLE 1 d.1 ++ natLE 1 d.2.1 ++ natLE 1 d.2.2 ++ natLE 125 0
    (s.write (storeAt t (s.sAddr t (stSo w) r)) bytes).temperUnitEnd t 3 (s.sLen t (stSt w)) env

/-! ## RNG -/

def rgSo (w : Nat) : Nat := bits w 32 4

def State.rngIssueFault (s : State) (t w : Nat) : Option (Nat × Nat × Nat) :=
  if s.streamOk t (rgSo w) = false then some (codeViolation, 0x27, 0) else none

def rngBody (t w : Nat) (s : State) : State :=
  match s.rngIssueFault t w with
  | some f => s.issueFault t f.1 f.2.1 f.2.2
  | none => if s.sLen t (rgSo w) = 0 then s.retire t
    else s.startEngine t 3 w [s.operand t (bits w 44 8), s.operand t (bits w 36 8)]

/-- One output unit of RNG: eight counter values (R138). -/
def State.rngUnit (s : State) (t w : Nat) (env : UnitEnv) : State :=
  let k := s.prog t 3
  let key := s.op t 3 0
  let pos := s.op t 3 1 % 2 ^ 48
  let bytes := (List.range 8).flatMap (fun i => (List.range 4).flatMap (fun j => natLE 4 (rngWord key pos (bits w 24 8) (8 * k + i) j)))
  let s := s.add64 (Reg.TMP_DRAWS_LO t) 8
  (s.write (storeAt t (s.sAddr t (rgSo w) k)) bytes).temperUnitEnd t 3 (s.sLen t (rgSo w)) env

/-! ## The rows -/

def execFn (t : Fin 240) (fetch : Ecc) (s : State) : Host.Outcome State Fault Refusal :=
  .next (s.issue t fetch (fun w => isOp 0x60 w && tileType t == 1) (fnBody t))
def execSmax (t : Fin 240) (fetch : Ecc) (s : State) : Host.Outcome State Fault Refusal :=
  .next (s.issue t fetch (fun w => isOp 0x64 w && tileType t == 1) (smaxBody t))
def execRope (t : Fin 240) (fetch : Ecc) (s : State) : Host.Outcome State Fault Refusal :=
  .next (s.issue t fetch (fun w => isOp 0x66 w && tileType t == 1) (ropeBody t))
def execTopk (t : Fin 240) (fetch : Ecc) (s : State) : Host.Outcome State Fault Refusal :=
  .next (s.issue t fetch (fun w => isOp 0x68 w && tileType t == 1) (topkBody t))
def execSample (t : Fin 240) (fetch : Ecc) (s : State) : Host.Outcome State Fault Refusal :=
  .next (s.issue t fetch (fun w => isOp 0x6A w && tileType t == 1) (sampleBody t))
def execStopchk (t : Fin 240) (fetch : Ecc) (s : State) : Host.Outcome State Fault Refusal :=
  .next (s.issue t fetch (fun w => isOp 0x6C w && tileType t == 1) (stopchkBody t))
def execRng (t : Fin 240) (fetch : Ecc) (s : State) : Host.Outcome State Fault Refusal :=
  .next (s.issue t fetch (fun w => isOp 0x6E w && tileType t == 1) (rngBody t))

end Sys2Proof.Machine
end

