-- ==== Sys2Proof/Machine/Engine.lean ====
section
/-! DEFINITION. ENGINE_UNIT: one unit of work of the long instruction that an engine holds (R88), with the ECC checks of what it reads and what
overlapping instructions show it (R63). -/
namespace Sys2Proof.Machine

/-- A unit of a common instruction on engine `e`, E0 or E1 (R76 to R78, R82). QUENCH, which holds both, works as E0. -/
def State.commonUnit (s : State) (t e w : Nat) (env : UnitEnv) : State :=
  match wOp w with
  | 0x20 => s.recvUnit t w env.flit
  | 0x21 => s.sendUnit t w
  | 0x22 => s.peekUnit t w env.flit
  | 0x31 => if e = 0 then s.quenchUnit t env.flit else s
  | _ => s

/-- A unit of an instruction of the tile's own type (05, 06, 07, 09). -/
def State.typeUnit (s : State) (t w : Nat) (env : UnitEnv) : State :=
  match tileType t, wOp w with
  | 0, 0x40 => s.wldUnit t w
  | 0, 0x41 => s.wswapUnit t
  | 0, 0x44 => s.mmaUnit t w env
  | 0, 0x48 => s.drainUnit t w
  | 1, 0x60 => s.fnUnit t w env
  | 1, 0x64 => s.smaxUnit t w env
  | 1, 0x66 => s.ropeUnit t w env
  | 1, 0x68 => s.topkUnit t w env
  | 1, 0x6A => s.sampleUnit t w env
  | 1, 0x6C => s.stopUnit t w env
  | 1, 0x6E => s.rngUnit t w env
  | 2, 0x80 => s.brdUnit t w
  | 2, 0x81 => s.bwrUnit t
  | 2, 0x84 => s.bgathUnit t w
  | 2, 0x85 => s.bscatUnit t w env
  | 3, _ => s.cmdUnit t w
  | _, _ => s

/-! ## Errors in what a unit reads -/

/-- The bytes in error of a run of units that are counted from `base` on. -/
def flipUnits (base : Nat) (us : List Payload) (e : ReadEcc) : List Payload :=
  (List.range us.length).map (fun i => e.flips.foldl (fun u x =>
    if base + 128 * i ≤ x.1 ∧ x.1 < base + 128 * (i + 1) then u ^^^ BitVec.ofNat 1024 (x.2.toNat * 2 ^ (8 * (x.1 - base - 128 * i))) else u)
    (us.getD i 0))

/-- The store and the weight sets of a tile as uncorrectable errors have left them: the bytes are used as read (R122, R127, R173). -/
def State.readErrors (s : State) (t : Nat) (e : ReadEcc) : State :=
  if e.ue = 0 then s
  else (s.flipBytes (storeAt t 0) (storeSize t) e).modTile t (fun x => { x with
    wact := flipUnits 0x1000000 x.wact e
    wshd := flipUnits 0x2000000 x.wshd e })

/-! ## Overlap of instructions in flight -/

/-- The instruction in flight on engine `e` may write byte `a` of the local store. -/
def State.mayWrite (s : State) (t e a : Nat) : Bool :=
  let w := s.heldWord t e
  s.engineBusy t e && ((((opInfo (tileType t) w).map (·.dests)).getD []).any (fun n => s.inStream t n a) ||
    (match tileType t, wOp w with
      | 0, 0x44 => decide (mmaHalf w ≤ a) && decide (a < mmaHalf w + 0x80000)
      | 0, 0x48 => drClr w && decide (drHalf w ≤ a) && decide (a < drHalf w + 0x80000)
      | 2, 0x81 => (match windowOf (s.op t e 0) with
        | some (.owner, _) => false
        | some (_, d) => decide (d ≤ a) && decide (a < d + 8)
        | none => false)
      | 2, 0x85 => decide (s.op t e 1 ≤ a)
      | 2, 0x88 => bitOf (s.op t e 0) (bankOf a)
      | _, _ => false))

/-- The bytes among `l` that an instruction in flight on another engine than `e` may write: for these a unit of `e` may find the old or the
new value, and of two writes either may stand (R63). -/
def State.contested (s : State) (t e : Nat) (l : List (Nat × Byte)) : List (Nat × Byte) :=
  l.filter (fun x => decide (x.1 < storeSize t) && allEngines.any (fun k => k != e && s.mayWrite t k x.1))

/-- Bytes of the local store take the given values. -/
def State.putBytes (s : State) (t : Nat) (l : List (Nat × Byte)) : State := l.foldl (fun s x => s.setByte (storeAt t x.1) x.2) s

/-- After a unit, a contested byte that still holds what the unit was shown takes its own value again. -/
def State.settleBytes (s before : State) (t : Nat) (l : List (Nat × Byte)) : State :=
  l.foldl (fun s x => if s.byte (storeAt t x.1) = x.2 then s.setByte (storeAt t x.1) (before.byte (storeAt t x.1)) else s) s

/-! ## One unit -/

/-- The unit of the word that an engine holds. -/
def State.unitBody (s : State) (t e w : Nat) (env : UnitEnv) : State :=
  if wOp w < 0x40 then s.commonUnit t e w env else s.typeUnit t w env

/-- Between `s` and `r` the engine has completed a unit or its instruction, or has raised a fault. -/
def State.worked (s r : State) (t e : Nat) : Bool :=
  r.prog t e != s.prog t e || !r.engineBusy t e || s.faultLog.length != r.faultLog.length

/-- One unit on engine `e`. Where it does its work, what its reads found is counted, and what it waited for the mover port. -/
def State.oneUnit (s : State) (t e w : Nat) (env : UnitEnv) : State :=
  if tileType t = 2 ∧ wOp w = 0x88 then s.programMarchUnit t w env
  else
    let read := s.readErrors t env.ecc
    let l := read.contested t e env.overlap
    let r := (read.putBytes t l).unitBody t e w env
    if s.worked r t e then ((r.settleBytes read t l).eccStore t env.ecc).conflicts t w env
    else s.unitBody t e w env

/-- BSCAT holds a flit that it has taken, so that a stop lets its unit complete (R165). -/
def State.scatters (s : State) (t e : Nat) : Bool := e == 0 && (s.tile t).scatter.isSome

/-- ENGINE_UNIT. A firmware march runs on E3 of a Billet tile whether or not the partition runs (R171). -/
def engineUnit (t e : Nat) (env : UnitEnv) (s : State) : State :=
  if s.gridLive = false then s
  else match (s.tile t).fwMarch, decide (e = 3 ∧ tileType t = 2) with
    | some m, true => s.firmwareMarchUnit t m env
    | _, _ =>
      if (s.tileWorks t = false ∧ s.scatters t e = false) ∨ s.engineBusy t e = false then s
      else s.oneUnit t e (s.heldWord t e) env

def execEngineUnit (t : Fin 240) (e : Fin 4) (env : UnitEnv) (s : State) : Host.Outcome State Fault Refusal :=
  .next (engineUnit t e env s)

end Sys2Proof.Machine
end

