-- ==== Sys2Proof/Machine/Sha.lean ====
section
/-! DEFINITION. SHA-256, the digest of measurements (R289, R430): FIPS 180-4, which the spec names and does not repeat. -/
namespace Sys2Proof.Machine

/-- The round constants. -/
def shaK : List Nat :=
  [
    0x428A2F98, 0x71374491, 0xB5C0FBCF, 0xE9B5DBA5, 0x3956C25B, 0x59F111F1, 0x923F82A4, 0xAB1C5ED5,
    0xD807AA98, 0x12835B01, 0x243185BE, 0x550C7DC3, 0x72BE5D74, 0x80DEB1FE, 0x9BDC06A7, 0xC19BF174,
    0xE49B69C1, 0xEFBE4786, 0x0FC19DC6, 0x240CA1CC, 0x2DE92C6F, 0x4A7484AA, 0x5CB0A9DC, 0x76F988DA,
    0x983E5152, 0xA831C66D, 0xB00327C8, 0xBF597FC7, 0xC6E00BF3, 0xD5A79147, 0x06CA6351, 0x14292967,
    0x27B70A85, 0x2E1B2138, 0x4D2C6DFC, 0x53380D13, 0x650A7354, 0x766A0ABB, 0x81C2C92E, 0x92722C85,
    0xA2BFE8A1, 0xA81A664B, 0xC24B8B70, 0xC76C51A3, 0xD192E819, 0xD6990624, 0xF40E3585, 0x106AA070,
    0x19A4C116, 0x1E376C08, 0x2748774C, 0x34B0BCB5, 0x391C0CB3, 0x4ED8AA4A, 0x5B9CCA4F, 0x682E6FF3,
    0x748F82EE, 0x78A5636F, 0x84C87814, 0x8CC70208, 0x90BEFFFA, 0xA4506CEB, 0xBEF9A3F7, 0xC67178F2]

/-- The initial hash value. -/
def shaInit : List Nat :=
  [
    0x6A09E667, 0xBB67AE85, 0x3C6EF372, 0xA54FF53A, 0x510E527F, 0x9B05688C, 0x1F83D9AB, 0x5BE0CD19]

/-- `f x`, with the value of `x` worked out first. -/
def forced {α : Type} (x : Nat) (f : Nat → α) : α :=
  match x with
  | 0 => f 0
  | n + 1 => f (n + 1)

/-- A word of 32 bits rotated right. -/
def rotr (x n : Nat) : Nat := x >>> n ||| (x <<< (32 - n)) % 2 ^ 32

def shaBig0 (x : Nat) : Nat := rotr x 2 ^^^ rotr x 13 ^^^ rotr x 22
def shaBig1 (x : Nat) : Nat := rotr x 6 ^^^ rotr x 11 ^^^ rotr x 25
def shaSmall0 (x : Nat) : Nat := rotr x 7 ^^^ rotr x 18 ^^^ x >>> 3
def shaSmall1 (x : Nat) : Nat := rotr x 17 ^^^ rotr x 19 ^^^ x >>> 10

/-- The message schedule: the last sixteen words, newest first, give the next; `n` words are added. -/
def shaSchedule : Nat → List Nat → List Nat
  | 0, w => w
  | n + 1, w =>
    forced ((shaSmall1 (w.getD 1 0) + w.getD 6 0 + shaSmall0 (w.getD 14 0) + w.getD 15 0) % 2 ^ 32) (fun x => shaSchedule n (x :: w))

/-- The rounds on the working variables a to h, with the constant and the word of each. -/
def shaRounds : List (Nat × Nat) → Nat → Nat → Nat → Nat → Nat → Nat → Nat → Nat → List Nat
  | [], a, b, c, d, e, f, g, h => [a, b, c, d, e, f, g, h]
  | kw :: l, a, b, c, d, e, f, g, h =>
    forced (h + shaBig1 e + (e &&& f ^^^ (2 ^ 32 - 1 - e) &&& g) + kw.1 + kw.2) (fun t1 =>
      forced ((t1 + shaBig0 a + (a &&& b ^^^ a &&& c ^^^ b &&& c)) % 2 ^ 32) (fun x =>
        forced ((d + t1) % 2 ^ 32) (fun y => shaRounds l x a b c y e f g)))

/-- The big-endian words of a block, newest first. -/
def shaWords : Nat → List Byte → List Nat → List Nat
  | 0, _, w => w
  | n + 1, b, w => forced (leNat (b.take 4).reverse) (fun x => shaWords n (b.drop 4) (x :: w))

/-- One block of 64 bytes. -/
def shaBlock (v : List Nat) (b : List Byte) : List Nat :=
  match v with
  | [a, b', c, d, e, f, g, h] =>
    (v.zip (shaRounds (shaK.zip (shaSchedule 48 (shaWords 16 b [])).reverse) a b' c d e f g h)).map (fun x => (x.1 + x.2) % 2 ^ 32)
  | v => v

/-- `n` blocks. -/
def shaBlocks : Nat → List Nat → List Byte → List Nat
  | 0, h, _ => h
  | n + 1, h, b => shaBlocks n (shaBlock h (b.take 64)) (b.drop 64)

/-- The message with its padding. -/
def shaPad (b : List Byte) : List Byte :=
  b ++ [0x80] ++ natLE ((119 - b.length % 64) % 64) 0 ++ (natLE 8 (8 * b.length)).reverse

/-- The 32 bytes of the digest. -/
def sha256 (b : List Byte) : List Byte :=
  let p := shaPad b
  (shaBlocks (p.length / 64) shaInit p).flatMap (fun w => (natLE 4 w).reverse)

end Sys2Proof.Machine
end

