-- ==== Sys2Proof/Machine/Cfg.lean ====
section
/-! DEFINITION. Configurations, swaps, ingress channels and weight sets (chapter 12). -/
namespace Sys2Proof.Machine

/-! ## Shadow states -/

/-- The Shadow set's state (Table 12-5): 0 EMPTY, 1 LOADING, 2 LOADED, 3 ARMED. -/
def State.shadowSet (s : State) (p : Nat) : Nat := s.fld (Reg.CFG_P_STATUS.SHADOW p)
def State.activeValid (s : State) (p : Nat) : Bool := s.flag (Reg.CFG_P_STATUS.ACTIVE_VALID p)

/-- LOAD is written (R287, R292, R382). -/
def State.requestLoad (s : State) (p : Nat) : State :=
  if s.hasJob p = true ∧ (s.shadowSet p = 0 ∨ s.shadowSet p = 2) then
    { s.setFld (Reg.CFG_P_STATUS.SHADOW p) 1 with loads := s.loads ++ [⟨p, false⟩] }
  else s.setFlag (Reg.CFG_P_STATUS.LOAD_REFUSED p) true

/-- The conditions of R293. -/
def State.mayArm (s : State) (p : Nat) : Bool :=
  s.hasJob p && s.shadowSet p == 2 && s.flag Reg.TIME_STATUS.ALIGNED && (s.tilesOf p).all (fun t => !s.layoutErr t)

/-- ARM is written (R292, R293): each Active ingress channel awaits its Quench marker, behind the flits posted. -/
def State.requestArm (s : State) (p : Nat) : State :=
  if s.mayArm p then
    (s.setFld (Reg.CFG_P_STATUS.SHADOW p) 3).modPart p (fun x => { x with
      marks := List.range x.ingActive.length
      drain := 0
      armedRan := false
      reportTick := none })
  else s.setFlag (Reg.CFG_P_STATUS.ARM_REFUSED p) true

/-- A write of CFG_Pp_CTRL: DRAIN_LIMIT takes the value, then LOAD and ARM act. -/
def State.writeCfgCtrl (s : State) (p : Nat) (v : Word) : State :=
  let s := s.setFld (Reg.CFG_P_CTRL.DRAIN_LIMIT p) v.toNat
  let s := if bitOf v.toNat 31 then s.requestLoad p else s
  if bitOf v.toNat 30 then s.requestArm p else s

/-! ## Images -/

/-- The registers of a set: Active or Shadow. -/
def routeReg (act : Bool) (t q : Nat) : Nat := if act then Reg.GRD_RT_A t q else Reg.GRD_RT_S t q
def depthReg (act : Bool) (t q : Nat) : Nat := if act then Reg.GRD_QD_A t q else Reg.GRD_QD_S t q
def streamReg (act : Bool) (t n w : Nat) : Nat := (if act then Reg.MOV_STR_A_CFG t n else Reg.MOV_STR_S_CFG t n) + 4 * w

/-- The bits of a register that hold anything. -/
def shownMask (o : Nat) : Word := BitVec.ofNat 32 (if ((regSpec o).map (·.rw)).getD 0 = 0 then 2 ^ 32 - 1 else ((regSpec o).map (·.rw)).getD 0)

/-- The bits of a register that are writable. -/
def rwMask (o : Nat) : Word := BitVec.ofNat 32 (((regSpec o).map (·.rw)).getD 0)

/-- A word of an image is written into a set; the Shadow copy's reserved bits read 0 in either. -/
def State.putWord (s : State) (o shadow : Nat) (v : Nat) : State := s.setReg o (BitVec.ofNat 32 v &&& rwMask shadow)

/-- The instruction-memory half of a set. -/
def State.setHalf (s : State) (t : Nat) (act : Bool) : Nat :=
  if act then s.fld (Reg.SEQ_IMEM.ACTIVE t) else 1 - s.fld (Reg.SEQ_IMEM.ACTIVE t)

/-- The program of a tile: the instructions given, and HALT up to word 4,095 (R287). -/
def State.putProgram (s : State) (t : Nat) (act : Bool) (n : Nat) (b : List Byte) : State :=
  s.writeRun (imemAt t (s.setHalf t act) 0) (b.take (8 * n) ++ (List.range (4096 - n)).flatMap (fun _ => natLE 8 0x3F00000000000000))

/-- The route entries and queue descriptors of a tile from the words of 2 units, and the streams from those of 4. -/
def State.putRoutes (s : State) (t : Nat) (act : Bool) (b : List Byte) : State :=
  (List.range 32).foldl (fun s q =>
    (s.putWord (routeReg act t q) (Reg.GRD_RT_S t q) (leNat ((b.drop (4 * q)).take 4))).putWord (depthReg act t q)
      (Reg.GRD_QD_S t q) (leNat ((b.drop (128 + 4 * q)).take 4))) s

def State.putStreams (s : State) (t : Nat) (act : Bool) (b : List Byte) : State :=
  (List.range 128).foldl (fun s i =>
    s.putWord (streamReg act t (i / 8) (i % 8)) (streamReg false t (i / 8) (i % 8)) (leNat ((b.drop (4 * i)).take 4))) s

/-- A tile that no section names: one QUENCH, and no valid route and stream (R287). -/
def State.putNothing (s : State) (t : Nat) (act : Bool) : State :=
  let s := s.putProgram t act 1 (natLE 8 0x3100000000000000)
  let s := (List.range 32).foldl (fun s q => s.setReg (routeReg act t q) (s.reg (routeReg act t q) &&& 0x7FFFFFFF)) s
  if tileType t = 3 then
    (List.range 16).foldl (fun s n => s.setReg (streamReg act t n 0) (s.reg (streamReg act t n 0) &&& 0x7FFFFFFF)) s
  else s

/-- `n` units of an image, which must lie in the own slot's hot or warm tier with the tier up (R287, R288). -/
def State.imageUnits (s : State) (pa n : Nat) : Except (Nat × Nat) (List Byte) :=
  let good := fun a => match s.homeOf a with
    | .hot b o => s.homeUp (.hot b o)
    | .warm k o => s.homeUp (.warm k o)
    | _ => false
  if (List.range n).all (fun i => good (pa + 128 * i)) then .ok (s.bytes (pa % 2 ^ 54) (128 * n)) else .error (7, 0)

/-- How far a load has come: the next unit, the tiles named, and the state. -/
structure Loading where
  s : State
  unit : Nat
  named : List Nat

/-- One tile section (R286, R288). -/
def Loading.section_ (l : Loading) (p base bays : Nat) (act : Bool) : Except (Nat × Nat) Loading := do
  let s := l.s
  let h ← s.imageUnits (base + 128 * l.unit) 1
  let f := fun o n => leNat ((h.drop o).take n)
  let t := 20 * s.partFirst p + 10 * f 0 1 + f 1 1
  let n := f 4 2
  let fl := f 6 1
  if f 3 1 ≠ 0 ∨ f 7 121 ≠ 0 then throw (1, l.unit + 1)
  if 2 * bays ≤ f 0 1 ∨ 2 * s.partCount p ≤ f 0 1 ∨ 9 < f 1 1 ∨ l.named.contains t then throw (2, l.unit + 1)
  if f 2 1 ≠ tileType t ∨ (bitOf fl 1 ∧ tileType t ≠ 3) then throw (3, l.unit + 1)
  if n = 0 ∨ 4096 < n ∨ fl / 4 ≠ 0 then throw (4, l.unit + 1)
  let u := l.unit + 1
  let k := ceilDiv n 16
  let prog ← s.imageUnits (base + 128 * u) k
  let s := s.putProgram t act n prog
  let u := u + k
  let r ← s.imageUnits (base + 128 * u) (if bitOf fl 0 then 2 else 0)
  let s := if bitOf fl 0 then s.putRoutes t act r else s
  let u := if bitOf fl 0 then u + 2 else u
  let x ← s.imageUnits (base + 128 * u) (if bitOf fl 1 then 4 else 0)
  let s := if bitOf fl 1 then s.putStreams t act x else s
  let u := if bitOf fl 1 then u + 4 else u
  return ⟨s, u, l.named ++ [t]⟩

/-- The sections of an image. -/
def Loading.sections (p base bays : Nat) (act : Bool) : Nat → Loading → Except (Nat × Nat) Loading
  | 0, l => .ok l
  | k + 1, l => do
    let l ← l.section_ p base bays act
    Loading.sections p base bays act k l

/-- An image is read, checked and written into a set: the state, the ingress channels and the measurement, or the cause of Table
12-4 and the units read. What it reads of the hot tier passes through the Hearth cache (R200). -/
def State.loadImage (s : State) (p base : Nat) (act : Bool) : Except (Nat × Nat) (State × List (Nat × Nat) × List Byte) := do
  let h ← s.imageUnits base 1
  let f := fun o n => leNat ((h.drop o).take n)
  let ing := (List.range (f 5 1)).map (fun i => (f (16 + 4 * i) 1, f (17 + 4 * i) 1))
  if f 0 2 ≠ 1 ∨ f 2 2 = 0 ∨ 240 < f 2 2 ∨ f 4 1 = 0 ∨ 12 < f 4 1 ∨ 8 < f 5 1 ∨ f 6 2 ≠ 0 ∨ f 12 4 ≠ 0 ∨ f 48 80 ≠ 0 ∨
      (List.range (f 5 1)).any (fun i => f (18 + 4 * i) 2 != 0) then throw (1, 1)
  let l ← Loading.sections p base (f 4 1) act (f 2 2) ⟨s, 1, []⟩
  let s := ((s.tilesOf p).filter (fun t => !l.named.contains t)).foldl (fun s t => s.putNothing t act) l.s
  if l.unit ≠ f 8 4 then throw (5, l.unit)
  let chan := fun (e : Nat × Nat) => (20 * s.partFirst p + 10 * e.1 + 9, e.2)
  let bad := fun (e : Nat × Nat) =>
    let v := (s.reg (routeReg act (chan e).1 e.2)).toNat
    decide (2 * s.partCount p ≤ e.1) || decide (32 ≤ e.2) || !bitOf v 31 || bits v 20 3 != 0
  if ing.any bad then throw (6, l.unit)
  return (s.pass (base % 2 ^ 54) (128 * l.unit) false, ing.map chan, sha256 (s.bytes (base % 2 ^ 54) (128 * l.unit)))

/-! ## Loads -/

/-- Bytes whose values the spec leaves open. -/
def State.freeBytes (s : State) (a : Nat) : Nat → State
  | 0 => s
  | n + 1 => ((s.setByte a (BitVec.ofNat 8 s.fresh)).took).freeBytes (a + 1) n

def State.freeWord (s : State) (o : Nat) : State := (s.setReg o (BitVec.ofNat 32 s.fresh &&& shownMask o)).took

/-- The channels, at most eight, that an ingress list with open contents names. -/
def State.freeChannels (s : State) (p : Nat) : Nat → State
  | 0 => s
  | n + 1 =>
    let c := (20 * s.partFirst p + 10 * (s.fresh % max 1 (2 * s.partCount p)) + 9, s.took.fresh % 32)
    (s.took.took.modPart p (fun x => { x with ingShadow := x.ingShadow ++ [c] })).freeChannels p n

/-- The Shadow set's contents are undefined after a failed load (R288): its routes, descriptors, streams, programs, ingress list and
measurement (Table 12-1). -/
def State.undefineShadow (s : State) (p : Nat) : State :=
  let s := (s.took.modPart p (fun x => { x with ingShadow := [] })).freeChannels p (s.fresh % 9)
  let s := (List.range 8).foldl (fun s j => s.freeWord (Reg.CFG_P_SMEAS p j)) s
  (s.tilesOf p).foldl (fun s t =>
    let s := (List.range 32).foldl (fun s q => (s.freeWord (Reg.GRD_RT_S t q)).freeWord (Reg.GRD_QD_S t q)) s
    let s := if tileType t = 3 then (List.range 128).foldl (fun s i => s.freeWord (streamReg false t (i / 8) (i % 8))) s else s
    s.freeBytes (imemAt t (s.setHalf t false) 0) 0x8000) s

/-- A digest as eight words, word 0 holding bytes 0 to 3 (Table 12-13). -/
def digestWord (d : List Byte) (j : Nat) : Word := BitVec.ofNat 32 (leNat ((d.drop (4 * j)).take 4))

def State.setMeas (s : State) (p : Nat) (act : Bool) (d : List Byte) : State :=
  (List.range 8).foldl (fun s j => s.setReg (if act then Reg.CFG_P_AMEAS p j else Reg.CFG_P_SMEAS p j) (digestWord d j)) s

def State.sameMeas (s : State) (p : Nat) (act : Bool) (d : List Byte) : Bool :=
  (List.range 8).all (fun j => s.reg (if act then Reg.CFG_P_AMEAS p j else Reg.CFG_P_SMEAS p j) == digestWord d j)

/-- A load of the Shadow set ends (R287 to R289, R292). -/
def State.shadowLoad (s : State) (p : Nat) (res : EndKind) : State :=
  let base := s.reg64 (Reg.CFG_P_SIMG_LO p)
  let failed := fun (k units : Nat) =>
    (((s.pass (base % 2 ^ 54) (128 * units) false).undefineShadow p).setFld (Reg.CFG_P_STATUS.SHADOW p) 0).setFld (Reg.CFG_P_STATUS.LOAD_ERR p) k
  if s.shadowSet p ≠ 1 then s
  else if res ≠ .ok then failed 7 0
  else match s.loadImage p base false with
    | .error (k, units) => failed k units
    | .ok (s, ing, d) =>
      let s := (s.setMeas p false d).modPart p (fun x => { x with ingShadow := ing })
      (s.setFld (Reg.CFG_P_STATUS.SHADOW p) 2).setFld (Reg.CFG_P_STATUS.LOAD_ERR p) 0

/-- A partition whose job has no Active configuration: no route and no stream is valid, and no ingress channel is listed (R296, R297). -/
def State.noActive (s : State) (p : Nat) : State :=
  let s := (s.tilesOf p).foldl (fun s t =>
    let s := (List.range 32).foldl (fun s q => s.setFlag (Reg.GRD_RT_A.VALID t q) false) s
    if tileType t = 3 then (List.range 16).foldl (fun s n => s.setFlag (Reg.MOV_STR_A_CFG.VALID t n) false) s else s) s
  (s.setFlag (Reg.CFG_P_STATUS.ACTIVE_VALID p) false).modPart p (fun x => { x with ingActive := [] })

/-- An image of an incoming job fails: a FRESH job goes on without that set, a saved one finds its measurement wrong (R296, R388). -/
def State.resumeFail (s : State) (p : Nat) (fresh act : Bool) (k : Nat) : State :=
  let s := s.setFld (Reg.CFG_P_STATUS.LOAD_ERR p) k
  if fresh then (if act then s.noActive p else s.setFld (Reg.CFG_P_STATUS.SHADOW p) 0)
  else s.modPart p (fun x => { x with measBad := true })

/-- One image of an incoming job (R296, R388). That of a saved job must have the measurement saved with it; that of a FRESH job is
measured. -/
def State.resumeOne (s : State) (p : Nat) (res : EndKind) (fresh act want : Bool) (base : Nat) : State :=
  if want = false then (if act then s.noActive p else s)
  else if res ≠ .ok then s.resumeFail p fresh act 7
  else match s.loadImage p base act with
    | .error (k, units) => (s.pass (base % 2 ^ 54) (128 * units) false).resumeFail p fresh act (if fresh then k else 7)
    | .ok (s', ing, d) =>
      if fresh || s.sameMeas p act d then
        (s'.setMeas p act d).modPart p (fun x => if act then { x with ingActive := ing } else { x with ingShadow := ing })
      else s'.resumeFail p fresh act 7

/-- The images of an incoming job are loaded (R296, R388). -/
def State.resumeLoad (s : State) (p : Nat) (res : EndKind) : State :=
  let fresh := (s.part p).fresh
  let s := s.resumeOne p res fresh true (s.activeValid p) (s.reg64 (Reg.CFG_P_AIMG_LO p))
  (s.resumeOne p res fresh false (decide (2 ≤ s.shadowSet p)) (s.reg64 (Reg.CFG_P_SIMG_LO p))).modPart p (fun x => { x with loaded := true })

/-- A line of the image at a board address is being filled: the load engine waits for it (R203). -/
def State.imageFilling (s : State) (base : Nat) : Bool := s.fillingIn (base % 2 ^ 54) (128 * max 1 (s.num (base % 2 ^ 54 + 8) 4))

/-- LOAD_COMPLETE: the load engine ends the first load asked for (R287). -/
def loadComplete (res : EndKind) (s : State) : State :=
  match s.loads with
  | [] => s
  | j :: rest =>
    if s.gridLive = false ∨ s.imageFilling (s.reg64 (Reg.CFG_P_SIMG_LO j.part)) ∨
        (j.resume ∧ s.imageFilling (s.reg64 (Reg.CFG_P_AIMG_LO j.part))) then s
    else
      let s := { s with loads := rest }
      let from_ := s.homeOf (s.reg64 (if j.resume then Reg.CFG_P_AIMG_LO j.part else Reg.CFG_P_SIMG_LO j.part))
      let s := if res = .poison then s.countError from_ else s
      if j.resume then s.resumeLoad j.part res else s.shadowLoad j.part res

/-! ## Ingress -/

/-- A write of CFG_Pp_ING_POST (R290). -/
def State.ingPost (s : State) (p : Nat) (v : Word) : State :=
  let kind := bits v.toNat 4 2
  if kind = 3 ∨ 64 ≤ (s.part p).ingress.length then s.setFlag (Reg.CFG_P_STATUS.ING_OVF p) true
  else
    let d := (List.range 32).flatMap (fun j => natLE 4 (s.reg (Reg.CFG_P_ING_D p j)).toNat)
    let k := if kind = 0 then FlitKind.data else if kind = 1 then .dataEnd else .empty
    s.modPart p (fun x => { x with ingress := x.ingress ++ [⟨bits v.toNat 0 3, ⟨k, Sys2Proof.Machine.payloadOf d⟩, decide (s.shadowSet p = 3), false⟩] })

/-- INGRESS_DELIVERY: the next flit of a channel enters its link, or the channel's Quench marker behind the flits posted, unless the north port
is fenced (R47). Flits held over a swap go in post order, whatever their channels (R290, R293). -/
def ingressDelivery (p ch : Nat) (s : State) : State :=
  let x := s.part p
  match x.ingActive[ch]? with
  | none => s
  | some (t, q) =>
    let k := s.queue t q
    let send := fun (s : State) (f : Flit) =>
      let s := s.setQueue t q { k with attach := k.attach - 1 }
      { s with flights := s.flights ++ [⟨t, 0, q, f, .attachment⟩] }
    if s.running p = false ∨ k.attach = 0 ∨ s.fenced t 0 = true then s
    else match x.ingress.find? (fun f => f.ch == ch && !f.late) with
      | some f => if f.held && x.ingress.find? (·.held) != some f then s else send (s.modPart p (fun x => { x with ingress := x.ingress.erase f })) f.flit
      | none =>
        if x.marks.contains ch then send (s.modPart p (fun x => { x with marks := x.marks.erase ch })) ⟨.quench, 0⟩ else s

/-! ## The swap -/

/-- A tile reports (R294). -/
def State.reports (s : State) (t : Nat) : Bool := (s.seqState t == 3 || s.seqState t == 0) && s.drained t

/-- The report of a partition is complete. -/
def State.reported (s : State) (p : Nat) : Bool := (s.tilesOf p).all s.reports

/-- Two registers exchange. -/
def State.exchange (s : State) (a b : Nat) : State := (s.setReg a (s.reg b)).setReg b (s.reg a)

/-- The sequencer's registers, loop frames and progress counters are cleared (R64, R83). -/
def State.clearSequencer (s : State) (t : Nat) : State :=
  let s := (List.range 32).foldl (fun s k => (s.setReg (Reg.SEQ_G t k 0) 0).setReg (Reg.SEQ_G t k 1) 0) s
  let s := (List.range 16).foldl (fun s k => (List.range 4).foldl (fun s f => s.setReg (Reg.SEQ_S t k f) 0) s) s
  let s := s.setFld (Reg.SEQ_PRED.P t) 0
  let s := (List.range 4).foldl (fun s k =>
    let s := (s.setReg (Reg.SEQ_LOOP_REMAIN t k) 0).setReg (Reg.SEQ_LOOP_TOTAL t k) 0
    ((s.setReg (Reg.SEQ_LOOP_CTL t k) 0).setReg (Reg.SEQ_LOOP_IDX t k) 0).setReg (Reg.SEQ_PROG t k) 0) s
  (s.setFld (Reg.SEQ_STATUS.BUSY t) 0).setPc t 0

/-- The switch of a tile is empty: no flit is held, no queue is quenched, no stall is counted. -/
def State.clearSwitch (s : State) (t : Nat) : State := s.modTile t (fun x => { x with queues := [], stall := 0, withdrawn := false })

/-- The streams of a port tile begin under their Active configuration (R231). -/
def State.beginStreams (s : State) (t : Nat) : State :=
  (List.range 16).foldl (fun s n =>
    let s := s.setStream (tileBay t) n { Stream.reset with lastRelease := s.fcycles }
    let s := (s.setReg (Reg.MOV_STR_POS t n) 0).setReg (Reg.MOV_STR_STAT t n) 0
    s.setFld (Reg.MOV_STR_STAT.STATE t n) (ofBool (s.flag (Reg.MOV_STR_A_CFG.VALID t n)))) s

/-- A tile's part of a swap (R49, R83, R121, R226, R285). -/
def State.swapTile (s : State) (t : Nat) : State :=
  let s := (List.range 32).foldl (fun s q =>
    (s.exchange (Reg.GRD_RT_A t q) (Reg.GRD_RT_S t q)).exchange (Reg.GRD_QD_A t q) (Reg.GRD_QD_S t q)) s
  let s := s.setFld (Reg.SEQ_IMEM.ACTIVE t) (1 - s.fld (Reg.SEQ_IMEM.ACTIVE t))
  let s := ((s.clearSequencer t).clearSwitch t).setSeqState t 1
  let s := if tileType t = 0 then s.dropSets t else s
  if tileType t = 3 then
    ((List.range 128).foldl (fun s i => s.exchange (streamReg true t (i / 8) (i % 8)) (streamReg false t (i / 8) (i % 8))) s).beginStreams t
  else s

/-- The swap of a partition. -/
def State.swap (s : State) (p : Nat) : State :=
  let s := (s.tilesOf p).foldl State.swapTile s
  let s := s.modPart p (fun x => { x with
    ingActive := x.ingShadow
    ingShadow := x.ingActive
    ingress := x.ingress.map (fun f => { f with late := false, held := f.held || f.late })
    marks := []
    drain := 0
    armedRan := false
    reportTick := none })
  let s := (List.range 8).foldl (fun s j => s.exchange (Reg.CFG_P_SMEAS p j) (Reg.CFG_P_AMEAS p j)) s
  let s := (s.exchange (Reg.CFG_P_SIMG_LO p) (Reg.CFG_P_AIMG_LO p)).exchange (Reg.CFG_P_SIMG_HI p) (Reg.CFG_P_AIMG_HI p)
  let s := s.setFld (Reg.CFG_P_STATUS.SHADOW p) (if s.activeValid p then 2 else 0)
  let s := s.setFlag (Reg.CFG_P_STATUS.ACTIVE_VALID p) true
  let s := (s.setReg64 (Reg.CFG_P_SWAP_TICK_LO p) s.tick).setReg (Reg.CFG_P_SWAPS p) (s.reg (Reg.CFG_P_SWAPS p) + 1)
  (s.swapEnvelopes p).rebuildCredits p

/-- A tick is none, or before the current one. -/
def State.before (s : State) (t : Option DWord) : Bool :=
  match t with
  | none => true
  | some x => decide (x.toNat < s.tick)

/-- A swap may be taken at this boundary (R294). -/
def State.maySwap (s : State) (p : Nat) : Bool :=
  s.gridLive && s.hasJob p && s.shadowSet p == 3 && !s.flag (Reg.PRT_P_STAT.FROZEN p) &&
    (s.part p).reportTick.isSome && s.before (s.part p).reportTick && s.before (s.part p).releaseTick && s.reported p

/-- CONFIGURATION_SWAP (R294, R35). -/
def configurationSwap (p : Nat) (s : State) : State :=
  if s.place 3 ∧ s.maySwap p then { s.swap p with boundary := 3 } else s

/-- The detail of a drain timeout (Table 03-3). -/
def State.drainDetail (s : State) (t : Nat) : Nat :=
  match (List.range 32).find? (fun q => s.rtValid t q && !(s.queue t q).quenched) with
  | some q => q + s.seqState t * 2 ^ 8 + 6 * 2 ^ 16 + (s.queue t q).occ * 2 ^ 32
  | none => 0xFF + s.seqState t * 2 ^ 8 + 6 * 2 ^ 16

/-- DRAIN_TIMEOUT (R295). -/
def drainTimeout (p : Nat) (s : State) : State :=
  let limit := s.fld (Reg.CFG_P_CTRL.DRAIN_LIMIT p)
  if s.running p = false ∨ s.shadowSet p ≠ 3 ∨ limit = 0 ∨ (s.part p).drain < limit then s
  else match (s.tilesOf p).find? (fun t => !s.reports t) with
    | some t => s.faultTile t codeDeadlock (s.drainDetail t)
    | none => s

/-! ## Weight sets -/

/-- CAPTURE or RELEASE of a list that has been read, whose new entries `back` writes; an error is recorded. -/
def State.admitList (s : State) (op part : Nat) (l : List Byte) (back : State → List Byte → State) : State :=
  match s.captureOrRelease op part l with
  | .error e => s.admitError e.1 e.2
  | .ok (s, r) => if op = 0 then back s r else s

/-- A list in a tier that is up, which passes through the Hearth cache where it is hot. -/
def State.admitMem (s : State) (op part off n : Nat) : State :=
  (s.pass off n false).admitList op part (s.bytes off n) (fun s r => (s.pass off n true).write off r)

/-- A list in the on-die SRAM window. One that must wait for a bank is asked for again by its sender. -/
def State.admitSram (s : State) (op part off n : Nat) : State :=
  let r := s.window off 0 none (.read n) .clean
  match r.1 with
  | .done => r.2.2.admitList op part r.2.1 (fun s d => (s.window off 0 none (.write d) .clean).2.2)
  | .waits => s.movedAt (off / 0x2000000)
  | _ => s.admitError 4 0

/-- The admission engine runs CAPTURE or RELEASE (R299). A list in another slot is read by a request, and the operation is BUSY until its last
answer (R179). -/
def State.runAdmission (s : State) : State :=
  let n := 16 * s.fld Reg.CFG_ADMIT_CTRL.COUNT
  let op := s.fld Reg.CFG_ADMIT_CTRL.OP
  let part := s.fld Reg.CFG_ADMIT_CTRL.PART
  let pa := s.fld Reg.CFG_ADMIT_LIST_LO.ADDR * 2 ^ 4 + s.fld Reg.CFG_ADMIT_LIST_HI.ADDR * 2 ^ 32
  let whole := s.homeUp (s.homeOf pa) && s.homeUp (s.homeOf (pa + n - 1))
  if s.flag Reg.CFG_ADMIT_STAT.BUSY then s.admitError 5 0
  else if n = 0 ∨ 1024 < n then s.admitError 6 0
  else match s.homeOf pa, s.homeOf (pa + n - 1) with
    | .hot _ _, .hot _ _ => if whole then s.admitMem op part (pa % 2 ^ 54) n else s.admitError 4 0
    | .warm _ _, .warm _ _ => if whole then s.admitMem op part (pa % 2 ^ 54) n else s.admitError 4 0
    | .cold _, .cold _ => if whole then s.admitMem op part (pa % 2 ^ 54) n else s.admitError 4 0
    | .sram off, .sram _ => s.admitSram op part off n
    | .remote slot _, .remote _ _ =>
      if s.slotReachable slot then
        (s.setFlag Reg.CFG_ADMIT_STAT.BUSY true).sendRequest 0 slot pa (.read n) (.admission op part pa)
      else s.admitError 4 0
    | _, _ => s.admitError 4 0

/-- A write of CFG_ADMIT_CTRL. -/
def State.writeAdmit (s : State) (v : Word) : State :=
  let s := s.setReg Reg.CFG_ADMIT_CTRL (v &&& 0x1F00007F)
  if bitOf v.toNat 31 then s.runAdmission else s

/-- A write of CFG_ADMIT_CTRL as the row of an OP. -/
def State.admitRow (s : State) (m : Master) (op : Nat) (v : Word) : State :=
  if bitOf v.toNat 31 ∧ bits v.toNat 28 1 = op then s.byFirmware m Reg.CFG_ADMIT_CTRL (·.writeAdmit v) else s

/-- A command of CFG_WS_CMD is refused. -/
def State.wsRefused (s : State) : State := s.setFlag Reg.CFG_WS_STAT.REFUSED true

/-- SWITCH (R299, R300). -/
def State.wsSwitch (s : State) (w : Nat) : State :=
  let old := s.wsCur w
  let new := 1 - old
  if s.flag (Reg.CFG_WS_W0.VALID w) = false ∨ s.fld (Reg.CFG_WS_LEN.LEN w new) = 0 then s.wsRefused
  else
    let first := !Sparse.get (fun _ => false) s.switched w
    let s := s.setReg (Reg.CFG_WS_GEN w new) (if first then 1 else s.reg (Reg.CFG_WS_GEN w old) + 1)
    let s : State := { s.setFld (Reg.CFG_WS_W0.CUR w) new with switched := Sparse.set (fun _ => false) s.switched w true }
    if s.wsCapt w old = 0 then s.setFreed w old else s

/-- FILL (R301). -/
def State.wsFill (s : State) (w k : Nat) : State :=
  if s.flag (Reg.CFG_WS_W0.VALID w) = false ∨ s.flag Reg.CFG_WS_STAT.FILL_BUSY then s.wsRefused
  else
    let p := s.fld (Reg.CFG_WS_W0.PART w)
    let n := s.fld (Reg.CFG_WS_LEN.LEN w k)
    let s := (s.setFlag Reg.CFG_WS_STAT.FILL_BUSY true).setFld Reg.CFG_WS_STAT.FILL_WS w
    { s with
      fillJob := some ⟨w, k, false⟩
      walks := s.walks ++ (List.range n).map (fun i => let va := s.wsBase w k + 65536 * i
        ⟨.fill, p, s.ptBase p, va, va, .read, [], false⟩) }

/-- A write of CFG_WS_CMD. -/
def State.writeWsCmd (s : State) (v : Word) : State :=
  let s := s.setReg Reg.CFG_WS_CMD (v &&& 0x110001FF)
  if bitOf v.toNat 31 = false then s
  else if bitOf v.toNat 28 then s.wsFill (bits v.toNat 0 9) (bits v.toNat 24 1)
  else s.wsSwitch (bits v.toNat 0 9)

/-- A write of CFG_WS_CMD as the row of an OP. -/
def State.wsRow (s : State) (m : Master) (op : Nat) (v : Word) : State :=
  if bitOf v.toNat 31 ∧ bits v.toNat 28 1 = op then s.byFirmware m Reg.CFG_WS_CMD (·.writeWsCmd v) else s

/-- FILL_COMPLETE: the walk and its fetches have ended (R301). -/
def fillComplete (s : State) : State :=
  match s.fillJob with
  | none => s
  | some j =>
    if s.walks.any (·.who == .fill) || s.fetches.any (fun f => f.waiters.any (·.who == .fill)) then s
    else
      let s := { s with fillJob := none }.setFlag Reg.CFG_WS_STAT.FILL_BUSY false
      if j.failed then s.setFlag Reg.CFG_WS_STAT.FILL_ERR true else s

/-- A write of a BASE or LEN word of slot `k` (R298). -/
def State.writeWsSlot (s : State) (w k o : Nat) (v : Word) : State :=
  if s.flag (Reg.CFG_WS_W0.VALID w) = false ∨ (k ≠ s.wsCur w ∧ s.wsCapt w k = 0) then s.setReg o (v &&& rwMask o) else s.wsRefused

/-- A write of W0: VALID, PART and the W1C bits FREED. VALID set anew forgets earlier switches (R299). -/
def State.writeWsW0 (s : State) (w : Nat) (v : Word) : State :=
  let was := s.flag (Reg.CFG_WS_W0.VALID w)
  let s := s.setReg (Reg.CFG_WS_W0 w) (v &&& 0x8F000000 ||| s.reg (Reg.CFG_WS_W0 w) &&& ~~~ v &&& 0xC ||| s.reg (Reg.CFG_WS_W0 w) &&& 2)
  if was = false ∧ s.flag (Reg.CFG_WS_W0.VALID w) then { s with switched := Sparse.set (fun _ => false) s.switched w false } else s

/-! ## The rows -/

def execLoad (m : Master) (p : Fin 12) (v : Word) (s : State) : Host.Outcome State Fault Refusal :=
  .next (if bitOf v.toNat 31 then s.byFirmware m (Reg.CFG_P_CTRL p) (·.writeCfgCtrl p v) else s)
def execLoadComplete (res : EndKind) (s : State) : Host.Outcome State Fault Refusal := .next (loadComplete res s)
def execArm (m : Master) (p : Fin 12) (v : Word) (s : State) : Host.Outcome State Fault Refusal :=
  .next (if bitOf v.toNat 30 then s.byFirmware m (Reg.CFG_P_CTRL p) (·.writeCfgCtrl p v) else s)
def execConfigurationSwap (p : Fin 12) (s : State) : Host.Outcome State Fault Refusal := .next (configurationSwap p s)
def execIngPost (m : Master) (p : Fin 12) (v : Word) (s : State) : Host.Outcome State Fault Refusal :=
  .next (s.byFirmware m (Reg.CFG_P_ING_POST p) (·.ingPost p v))
def execIngressDelivery (p : Fin 12) (ch : Fin 8) (s : State) : Host.Outcome State Fault Refusal := .next (ingressDelivery p ch s)
def execDrainTimeout (p : Fin 12) (s : State) : Host.Outcome State Fault Refusal := .next (drainTimeout p s)
def execCapture (m : Master) (v : Word) (s : State) : Host.Outcome State Fault Refusal := .next (s.admitRow m 0 v)
def execRelease (m : Master) (v : Word) (s : State) : Host.Outcome State Fault Refusal := .next (s.admitRow m 1 v)
def execSwitch (m : Master) (v : Word) (s : State) : Host.Outcome State Fault Refusal := .next (s.wsRow m 0 v)
def execFill (m : Master) (v : Word) (s : State) : Host.Outcome State Fault Refusal := .next (s.wsRow m 1 v)
def execFillComplete (s : State) : Host.Outcome State Fault Refusal := .next (fillComplete s)

end Sys2Proof.Machine
end

