-- ==== Sys2Proof/Machine/Reissue.lean ====
section
/-! DEFINITION. How a tile goes on after a stop or a release: each engine reissues the word it holds (R90, R394). -/
namespace Sys2Proof.Machine

/-- The issue of a long instruction, whichever it is. -/
def longBody (t w : Nat) (s : State) : State :=
  match tileType t, wOp w with
  | _, 0x20 => channelBody 0 t w s
  | _, 0x21 => channelBody 1 t w s
  | _, 0x22 => peekBody .clean t w s
  | 0, 0x40 => wldBody t w s
  | 0, 0x41 => wswapBody t w s
  | 0, 0x44 => mmaBody t w s
  | 0, 0x48 => drainBody t w s
  | 1, 0x60 => fnBody t w s
  | 1, 0x64 => smaxBody t w s
  | 1, 0x66 => ropeBody t w s
  | 1, 0x68 => topkBody t w s
  | 1, 0x6A => sampleBody t w s
  | 1, 0x6C => stopchkBody t w s
  | 1, 0x6E => rngBody t w s
  | 2, 0x80 => brdBody t w s
  | 2, 0x81 => bwrBody t w s
  | 2, 0x84 => gatherBody 1 t w s
  | 2, 0x85 => gatherBody 0 t w s
  | 2, 0x88 => marchBody t w s
  | _, _ => s

/-- The engine holds the word with the values read for it anew; its progress counter stands. -/
def State.rehold (s : State) (t e w : Nat) (ops : List DWord) : State :=
  s.setEngine t e { s.engine t e with ops := ops, word := BitVec.ofNat 64 w, regs := s.readRegs t w }

/-- The state in which a word reads its registers as it did at its issue. -/
def State.asIssued (s : State) (t w : Nat) (vals : List DWord) : State :=
  (((((opInfo (tileType t) w).map (·.reads)).getD []).zip vals).foldl (fun s x => s.setOperand t x.1 x.2.toNat) s)

/-- The registers that a word writes take the values they hold in `r`. -/
def State.takeWrites (s : State) (t w : Nat) (r : State) : State :=
  (((opInfo (tileType t) w).map (·.writes)).getD []).foldl (fun s n => s.setOperand t n (r.operand t n)) s

/-- The issue of a held word, repeated at its own address. One that stands as it was issued reads what it read then; one that firmware wrote
reads its registers anew (R90). A failing check is a fault of the engine, an instruction that completes at once does so (R91), and any
other goes on from its progress counter. -/
def State.recheck (s : State) (t e w : Nat) : State :=
  let g := s.engine t e
  let same := decide (g.word = BitVec.ofNat 64 w)
  let from_ := if same then s.asIssued t w g.regs else s
  if tileType t = 3 ∧ 0xA0 ≤ wOp w then
    let c := from_.cmdOf t w
    match s.cmdCheck t c with
    | some k => s.unitFault t e codeViolation 0x40 k
    | none => if same then s else s.rehold t e w ([c.src, c.dst, c.cnt, c.aux].map (BitVec.ofNat 64))
  else
    let tried := longBody t w ((from_.completeEngine t e).setPc t g.pc)
    match tried.faultLog.drop s.faultLog.length with
    | r :: _ => s.unitFault t e r.code (tried.fld (Reg.SEQ_FAULT.KIND t)) (r.detail / 2 ^ 32)
    | [] =>
      if tried.engineBusy t e then (if same then s else s.rehold t e w (tried.engine t e).ops)
      else (s.completeEngine t e).takeWrites t w tried

/-- An engine reissues the word in TILE_SEQ_INSTn with its progress counter: it makes the decode checks, must run on the engine, and makes its
issue checks (R90). QUENCH, which runs on E0 and E1 together (R61), has none. -/
def State.reissue (s : State) (t e : Nat) : State :=
  let w := s.heldWord t e
  if s.engineBusy t e = false then s
  else match decodeFault (tileType t) w, opInfo (tileType t) w with
    | some k, _ => s.unitFault t e codeViolation k 0
    | none, some i =>
      if wOp w = 0x31 ∧ e ≤ 1 then s.rehold t e w []
      else if i.engine = some e then s.recheck t e w
      else s.unitFault t e codeViolation 0x20 0
    | none, none => s

/-- Every engine of a tile. -/
def State.reissueTile (s : State) (t : Nat) : State := (List.range 4).foldl (fun s e => s.reissue t e) s

/-- The job of a partition goes on: credits follow R51, stall counters start from 0, writes that waited take effect, held instructions and
abandoned units are reissued (R52, R54, R59, R90, R394). -/
def State.goOn (s : State) (p : Nat) : State :=
  let s := (s.setCredits p).applyDeferred p
  let s := (s.tilesOf p).foldl (fun s t => (s.modTile t (fun x => { x with stall := 0 })).reissueTile t) s
  (s.restartMovers p).modPart p (fun x => { x with releaseTick := some (BitVec.ofNat 64 s.tick) })

end Sys2Proof.Machine
end

