-- ==== Sys2Proof/Machine/Prt.lean ====
section
/-! DEFINITION. Partitions, jobs, time slices and switches (chapter 16), but for the writes of PRT_Pp_CTRL and PRT_Pp_JSTATj (PrtCtl.lean). -/
namespace Sys2Proof.Machine

def enPrt (p : Nat) : EnFields := ⟨Reg.PRT_P_STAT.STATE p, Reg.PRT_P_STAT.ENABLE_PENDING p, Reg.PRT_P_STAT.DISABLE_PENDING p⟩

/-- Firmware is interrupted where PRT_CTRL.INT_EN allows it. -/
def State.prtInterrupt (s : State) (rule : Nat) : State := s.interruptIf (s.flag Reg.PRT_CTRL.INT_EN) rule

/-- An ERR cause (Table 16-10). -/
def State.partErr (s : State) (p k : Nat) : State :=
  ((s.setFlag (Reg.PRT_P_STAT.ERR_VALID p) true).setFld (Reg.PRT_P_STAT.ERR p) k).prtInterrupt 396

def State.jobState (s : State) (p j : Nat) : Nat := s.fld (Reg.PRT_P_JSTAT.STATE p j)
def State.setJob (s : State) (p j st : Nat) : State := s.setFld (Reg.PRT_P_JSTAT.STATE p j) st
def State.resident (s : State) (p : Nat) : Option Nat :=
  if s.flag (Reg.PRT_P_STAT.RES_VALID p) then some (s.fld (Reg.PRT_P_STAT.RESIDENT p)) else none
def State.switching (s : State) (p : Nat) : Bool := s.fld (Reg.PRT_P_STAT.SWITCH p) != 0

def State.savedJob (s : State) (p j : Nat) : Saved := Sparse.get (fun _ => Saved.none) s.saved (8 * p + j)
def State.setSaved (s : State) (p j : Nat) (v : Saved) : State :=
  { s with saved := Sparse.set (fun _ => Saved.none) s.saved (8 * p + j) v }

/-! ## Banks and fences -/

/-- Every bank of a Billet tile gets an owner and is cleared, while no march runs on the tile (R378, R379, R388). -/
def State.giveBanks (s : State) (t v : Nat) : State :=
  let s := (List.range 48).foldl (fun s b => s.handOver t b v) s
  s.zeroRange (storeAt t 0) 0x300000

/-- The banks of every Billet tile of a partition. -/
def State.giveAllBanks (s : State) (p v : Nat) : State :=
  (s.tilesOf p).foldl (fun s t => if tileType t = 2 then s.giveBanks t v else s) s

/-- A firmware march runs on a Billet tile of the partition. It is part of no job, and what it has locked waits for it (R171). -/
def State.marching (s : State) (p : Nat) : Bool := (s.tilesOf p).any (fun t => (s.tile t).fwMarch.isSome)

/-- The fences of a tile of a run: links that leave the run are fenced, and those within it, the north port of row 9 among them,
are not (R47, R378). -/
def State.fenceRun (s : State) (p t : Nat) : State :=
  let bit := fun (d : Nat) => match neighbour t d with
    | some u => if s.partOf u = some p then 0 else 1
    | none => if d = 0 ∧ tileRow t = 9 then 0 else bits (s.fld (Reg.GRD_LINK.FENCE t)) d 1
  s.setFld (Reg.GRD_LINK.FENCE t) (bit 0 + 2 * bit 1 + 4 * bit 2 + 8 * bit 3)

/-! ## The partition reset -/

/-- A mover is emptied, and its walks are dropped. -/
def State.resetMover (s : State) (m : Nat) : State :=
  ({ s with walks := s.walks.filter (fun w : Walk => !w.serves m) }.abandon m).setMover m Mover.reset

/-- A tile holds no flit and no instruction in flight, and its sequencer is IDLE. -/
def State.idleTile (s : State) (t : Nat) : State :=
  let s := (s.dropMarch t).modTile t (fun x => { x with queues := [], stall := 0, withdrawn := false, engines := [], scatter := none, witness := [] })
  let s := (s.setFld (Reg.SEQ_STATUS.BUSY t) 0).setSeqState t 0
  if tileType t = 0 then s.dropSets t else s

/-- A port tile's movers are emptied. -/
def State.resetMovers (s : State) (t : Nat) : State :=
  (List.range 4).foldl (fun s i => (s.resetMover (4 * tileBay t + i)).setReg (Reg.MOV_M_PROG t i) 0) s

/-- A tile's part of a partition reset (R297, R395): no valid Active route, no flit, no instruction in flight, IDLE. The counts of its taps
begin anew, so that a replay samples the same row groups (R403). A write of GRD_CTRL or GRD_LINK that waits stays until the partition next
runs (DESIGN CHOICE, log 48; R59). -/
def State.resetTile (s : State) (t : Nat) : State :=
  let s := (List.range 32).foldl (fun s q => s.setFlag (Reg.GRD_RT_A.VALID t q) false) s
  let s := s.idleTile t
  if tileType t = 3 then
    let s := s.resetMovers t
    (List.range 16).foldl (fun s n =>
      let s := (s.setFlag (Reg.MOV_STR_A_CFG.VALID t n) false).setStream (tileBay t) n Stream.reset
      (s.setReg (Reg.MOV_STR_POS t n) 0).setReg (Reg.MOV_STR_STAT t n) 0) s
  else s

/-- The partition reset (R395, R297, R199): it is busy until every demand fetch of the partition has ended (R191). -/
def State.partitionReset (s : State) (p : Nat) : State :=
  let mine := fun t => s.partOf t == some p
  let s := { s with
    flights := s.flights.filter (fun f => !mine f.dst)
    creditFlights := s.creditFlights.filter (fun c => !mine c.t) }
  let s := (s.tilesOf p).foldl State.resetTile s
  let s := (s.dropTlb (fun e => e.part == p)).setFlag (Reg.CFG_P_STATUS.ACTIVE_VALID p) false
  let s := if s.shadowSet p = 3 then s.setFld (Reg.CFG_P_STATUS.SHADOW p) 2 else s
  let s := s.modPart p (fun x => { x with
    marks := [], drain := 0, armedRan := false, reportTick := none, faults := [], digests := [], asked := none, named := [] })
  let s := s.setFlag (Reg.PRT_P_STAT.FROZEN p) false
  if s.fetches.any (·.part == p) then s.setFlag (Reg.PRT_P_STAT.RESET_BUSY p) true else s

/-- RELEASE of a frozen resident job (R394). -/
def State.releasePart (s : State) (p : Nat) : State :=
  if s.hasJob p && s.flag (Reg.PRT_P_STAT.FROZEN p) then
    ((s.setFlag (Reg.PRT_P_STAT.FROZEN p) false).modPart p (fun x => { x with faults := [] })).goOn p
  else s

/-! ## Contexts and saved records -/

/-- The context block of a job, as an offset of the slot (R380). -/
def State.ctxPa (s : State) (p j : Nat) : Nat :=
  s.fld (Reg.PRT_P_JOB_CTX_LO.ADDR p j) * 2 ^ 12 + s.fld (Reg.PRT_P_JOB_CTX_HI.ADDR p j) * 2 ^ 32
def State.ctxAt (s : State) (p j : Nat) : Nat := s.ctxPa p j % 2 ^ 54

/-- A board address lies in the stack of bay `b`, which is up, with `n` bytes from it. -/
def State.inStack (s : State) (pa b n : Nat) : Bool :=
  match s.homeOf pa with
  | .hot c off => c == b && s.homeUp (.hot c off) && decide (off + n ≤ stackSize)
  | _ => false

/-- The length of a tile record by the tile's type, in KiB (Table 16-5). -/
def recordKib (t : Nat) : Nat := [4628, 1284, 3332, 332].getD (tileType t) 0

/-- The length of a bay's region (R386). -/
def regionLen : Nat := 67324 * 1024

/-- The offset of a tile's record in its bay's region: after the header and the records of the tiles before it. -/
def recordAt (t : Nat) : Nat := 4096 + 1024 * ((List.range' (20 * tileBay t) (t % 20)).map recordKib).sum

/-- REGION of a bay of a partition, as a board address. -/
def State.regionPa (s : State) (p j b : Nat) : Nat := s.num (s.ctxAt p j + 128 + 8 * (b - s.partFirst p)) 8

/-- What is wrong with a job's context: cause 2 or 3 of ERR, or 0 (R380, R387, R388). -/
def State.ctxCause (s : State) (p j : Nat) : Nat :=
  let a := s.ctxAt p j
  let zero := fun o n => (s.bytes (a + o) n).all (· == 0)
  if (s.baysOf p).any (fun b => s.inStack (s.ctxPa p j) b 256) = false then 2
  else if !([0, 2, 3].contains (s.num (a + 40) 1)) || !zero 41 1 || !zero 44 20 || !zero 232 24 then 2
  else if (s.baysOf p).all (fun b => s.regionPa p j b % 4096 == 0 && s.inStack (s.regionPa p j b) b regionLen) then 0
  else 3

/-- Bytes of the slot that the save engines write pass through their slices with NA set (R200, R204, R387). -/
def State.passSave (s : State) (off n : Nat) : State := s.hearthLines (off / stackSize) (off % stackSize) n true true

/-- A line of the context block of a job, or of one of its regions, is being filled: the save engines wait for it (R203). -/
def State.recordFilling (s : State) (p j : Nat) : Bool :=
  s.fillingIn (s.ctxAt p j) 256 || (s.baysOf p).any (fun b => s.fillingIn (s.regionPa p j b % 2 ^ 54) regionLen)

/-- BIL_REPAIR of a tile's banks. -/
def repairRegs (t : Nat) : List Nat := (List.range 48).map (Reg.BIL_REPAIR t)

/-- The registers of a tile's type state (Table 16-5). -/
def typeStateRegs (t : Nat) : List Nat :=
  match tileType t with
  | 0 => [Reg.ANV_CTRL t, Reg.ANV_STATUS t, Reg.ANV_WACT t, Reg.ANV_WSHD t]
  | 1 => [Reg.TMP_CTRL t]
  | 2 => (List.range 48).map (Reg.BIL_OWN t) ++ repairRegs t
  | _ => Reg.MOV_CTRL t :: ((List.range 4).map (Reg.MOV_M_PROG t) ++
      (List.range 16).flatMap (fun n => [Reg.MOV_STR_POS t n, Reg.MOV_STR_STAT t n]))

/-- GRD_QOCC of a queue (Table 03-14). -/
def State.qoccWord (s : State) (t q : Nat) : Nat :=
  let x := s.queue t q
  x.occ + ofBool x.quenched * 2 ^ 29 + ofBool x.held.isEmpty * 2 ^ 30 + ofBool (s.rtValid t q && s.qFull t q) * 2 ^ 31

/-- The head slot of a queue: its oldest flit's, or the one that the next flit takes. -/
def State.headSlot (s : State) (t q : Nat) : Nat :=
  match (s.queue t q).held.head? with
  | some h => h.slot
  | none => s.qBase t q + (if s.qDepth t q = 0 then 0 else (s.queue t q).tail % s.qDepth t q)

/-- A tile's record is written (Table 16-5, R120). The layout of the type state and of the mover records is not stated: free bytes stand there,
and what they hold is kept in `Saved` (log 19). -/
def State.saveTile (s : State) (a t : Nat) : State :=
  let s := s.write a ((List.range 256).flatMap (fun i => natLE 4 (s.reg (tileBase t + 0x1000 + 4 * i)).toNat))
  let s := s.write (a + 1024) ((List.range 32).flatMap (fun q => natLE 4 (s.qoccWord t q)))
  let s := s.write (a + 1152) ((List.range 32).flatMap (fun q => natLE 2 (s.headSlot t q)))
  let s := (s.writeNum (a + 1216) 4 (s.reg (Reg.GRD_CTRL t)).toNat).freeBytes (a + 2048) 2048
  let s := s.copyRange (sramBase t + 0x1800000) (a + 4096) 0x40000
  let s := s.copyRange (storeAt t 0) (a + 260 * 1024) (storeSize t)
  let sets := fun (s : State) (o : Nat) (l : List Payload) => (s.zeroRange (a + o) 73728).write (a + o) (l.flatMap payloadBytes)
  if tileType t = 0 then sets (sets s (4484 * 1024) (s.tile t).wact) (4484 * 1024 + 73728) (s.tile t).wshd
  else if tileType t = 3 then s.freeBytes (a + 324 * 1024) 8192
  else s

/-- The bay header (Table 16-4). -/
def State.saveHeader (s : State) (p a : Nat) : State :=
  let f := ((s.part p).faults).take 64
  let rec_ := fun (r : FaultRecord) =>
    natLE 8 r.stamp.toNat ++ natLE 4 r.source ++ natLE 2 r.code ++ natLE 2 r.part ++ natLE 8 r.info ++ natLE 8 r.detail
  (s.zeroRange a 4096).write a (natLE 8 (s.part p).stopTick.toNat ++ natLE 6 (s.stepNo p) ++ natLE 2 f.length ++ natLE 48 0 ++
    f.flatMap rec_)

/-- Every region of a job is written (R386 to R388). -/
def State.saveRecord (s : State) (p j : Nat) : State :=
  let region := fun (b : Nat) => s.regionPa p j b % 2 ^ 54
  let s := (s.baysOf p).foldl (fun s b => s.passSave (region b) regionLen) s
  let s := s.setSaved p j { s.savedJob p j with
    regs := (s.tilesOf p).flatMap (fun t => (typeStateRegs t).map (fun o => (o, s.reg o)))
    tiles := (s.tilesOf p).map (fun t => (t, s.tile t))
    movers := (s.baysOf p).flatMap (fun b => (List.range 4).map (fun i => (4 * b + i, s.mover (4 * b + i))))
    streams := (s.baysOf p).flatMap (fun b => (List.range 16).map (fun n => (16 * b + n, s.stream b n))) }
  let s := (s.baysOf p).foldl (fun s b => s.saveHeader p (region b)) s
  (s.tilesOf p).foldl (fun s t => s.saveTile (region (tileBay t) + recordAt t) t) s

/-- SEG and VALUE of the shape word that the SHAPE at a tile's faulting address read (R258, R260). -/
def State.overrun (s : State) (t : Nat) : Nat × Nat :=
  let w := s.num (imemAt t (s.fld (Reg.SEQ_IMEM.ACTIVE t)) (s.fld (Reg.SEQ_FAULT.PC t))) 8
  let v := s.operand t (bits w 36 8)
  (bits v 32 16, bits v 0 32)

/-- The context fields that the hardware writes at a save (Table 16-2). No load of the Shadow set is in progress (R292). -/
def State.saveContext (s : State) (p j : Nat) : State :=
  let a := s.ctxAt p j
  let meas := fun (act : Bool) => (List.range 8).flatMap (fun k =>
    natLE 4 (s.reg (if act then Reg.CFG_P_AMEAS p k else Reg.CFG_P_SMEAS p k)).toNat)
  let s := s.passSave a 256
  let s := s.writeNum (a + 24) 8 (if s.activeValid p then s.reg64 (Reg.CFG_P_AIMG_LO p) else 0)
  let s := s.writeNum (a + 32) 8 (s.reg64 (Reg.CFG_P_SIMG_LO p))
  let s := s.writeNum (a + 40) 1 (s.shadowSet p)
  let s := ((s.writeNum (a + 42) 2 ((s.part p).drain + ofBool (s.part p).armedRan)).write (a + 64) (meas true)).write (a + 96) (meas false)
  let f := (s.part p).faults
  let overruns := (f.filter (·.code == codeShapeLimit)).map (fun r => s.overrun r.source)
  s.setSaved p j { s.savedJob p j with marks := (s.part p).marks, faults := f, overruns := overruns }

/-- The incoming job's tables, images and measurements are taken from its context (R388, R296). A FRESH job has none of a drain. -/
def State.takeContext (s : State) (p j : Nat) : State :=
  let a := s.ctxAt p j
  let fresh := (s.part p).fresh
  let s := s.pass a 256 false
  let pair := fun (s : State) (lo hi v : Nat) =>
    (s.setReg lo (BitVec.ofNat 32 v &&& rwMask lo)).setReg hi (BitVec.ofNat 32 (v / 2 ^ 32) &&& rwMask hi)
  let s := pair s (Reg.XLT_PTBASE_LO p) (Reg.XLT_PTBASE_HI p) (s.num a 8)
  let s := pair s (Reg.XLT_RCB_LO p) (Reg.XLT_RCB_HI p) (s.num (a + 8) 8)
  let s := (pair s (Reg.EXP_RTBASE_LO p) (Reg.EXP_RTBASE_HI p) (s.num (a + 16) 8)).invalidatePart p
  let s := s.setReg64 (Reg.CFG_P_AIMG_LO p) (s.num (a + 24) 8 % 2 ^ 56)
  let s := (s.setReg64 (Reg.CFG_P_SIMG_LO p) (s.num (a + 32) 8 % 2 ^ 56)).setFlag (Reg.CFG_P_STATUS.ACTIVE_VALID p)
    (s.num (a + 24) 8 != 0)
  let sh := s.num (a + 40) 1
  let s := s.setFld (Reg.CFG_P_STATUS.SHADOW p) (if fresh then min 2 sh else sh)
  let s := if fresh then s else (s.setMeas p true (s.bytes (a + 64) 32)).setMeas p false (s.bytes (a + 96) 32)
  let s := s.modPart p (fun x => { x with
    drain := if fresh then 0 else s.num (a + 42) 2
    armedRan := false
    marks := if fresh then [] else (s.savedJob p j).marks
    reportTick := none })
  { s with loads := s.loads ++ [⟨p, true⟩] }

/-- The repair state of the banks of a MARCH in flight is as it was saved, so that the march goes on as if it had never stopped (R170). What other
marches did to the other banks stands, and a bank that one of them made FAILED stays so. -/
def State.restoreRepair (s : State) (t mask : Nat) (x : Tile) (regs : List (Nat × Word)) : State :=
  (maskBanks mask).foldl (fun s b =>
    let failed := s.failedBank t b
    let old := Sparse.get (fun _ => Bank.reset) x.banks b
    let s := s.setBank t b { s.bank t b with spares := old.spares, failing := old.failing, found := old.found, again := old.again }
    match regs.find? (fun r => r.1 == Reg.BIL_REPAIR t b) with
    | some r =>
      let s := s.setReg r.1 r.2
      if failed then s.setFlag (Reg.BIL_REPAIR.FAILED t b) true else s
    | none => s) s

/-- A tile of a saved job is read back from its record. The half of instruction memory that is Active stays: the images were loaded into
it. What firmware's marches did to the banks stands. -/
def State.restoreTile (s : State) (p j t : Nat) : State :=
  let a := s.regionPa p j (tileBay t) % 2 ^ 54 + recordAt t
  let v := s.savedJob p j
  let act := s.fld (Reg.SEQ_IMEM.ACTIVE t)
  let s := s.pass a (1024 * recordKib t) false
  let s := (List.range 256).foldl (fun s i =>
    let o := tileBase t + 0x1000 + 4 * i
    if (regSpec o).isSome then s.setReg o (BitVec.ofNat 32 (s.num (a + 4 * i) 4)) else s) s
  let s := (s.setFld (Reg.SEQ_IMEM.ACTIVE t) act).setReg (Reg.GRD_CTRL t) (BitVec.ofNat 32 (s.num (a + 1216) 4) &&& rwMask (Reg.GRD_CTRL t))
  let s := (v.regs.filter (fun r => (typeStateRegs t).contains r.1 && !(repairRegs t).contains r.1)).foldl (fun s r => s.setReg r.1 r.2) s
  let s := s.copyRange (a + 4096) (sramBase t + 0x1800000) 0x40000
  let s := s.copyRange (a + 260 * 1024) (storeAt t 0) (storeSize t)
  let units := fun (o n : Nat) => (List.range n).map (fun k => s.unit (a + o + 128 * k))
  match v.tiles.find? (fun x => x.1 == t) with
  | none => s
  | some (_, x) =>
    let s := s.modTile t (fun y => { x with
      wact := units (4484 * 1024) x.wact.length
      wshd := units (4484 * 1024 + 73728) x.wshd.length
      banks := y.banks
      fwMarch := y.fwMarch
      deferCtrl := y.deferCtrl
      deferLink := y.deferLink })
    if tileType t = 2 ∧ s.engineBusy t 3 = true ∧ wOp (s.heldWord t 3) = 0x88 then
      s.restoreRepair t (s.op t 3 0) x v.regs
    else s

/-- The movers and streams of a saved job. -/
def State.restoreMovers (s : State) (p j : Nat) : State :=
  let v := s.savedJob p j
  let s := v.movers.foldl (fun s x => s.setMover x.1 x.2) s
  v.streams.foldl (fun s x => s.setStream (x.1 / 16) (x.1 % 16) x.2) s

/-- A tile of a FRESH job (R388): its local store and queue memory are zeroed, its sequencer is as at a partition reset, its banks are
the job's, and with an Active image it starts at address 0 as at a swap (R83). -/
def State.freshTile (s : State) (p t : Nat) : State :=
  let s := (s.zeroRange (storeAt t 0) (storeSize t)).zeroRange (sramBase t + 0x1800000) 0x40000
  let s := s.idleTile t
  let s := if tileType t = 2 then s.giveBanks t (1 + p * 2 ^ 24) else s
  let s := if tileType t = 3 then s.resetMovers t else s
  if s.activeValid p then
    let s := (s.clearSequencer t).setSeqState t 1
    if tileType t = 3 then s.beginStreams t else s
  else s

/-! ## Switches -/

/-- A switch starts: the resident job, if any, is to be saved, and job `inn` comes in (R385, R388). -/
def State.startSwitch (s : State) (p : Nat) (inn : Option Nat) : State :=
  let out := s.resident p
  if out.isNone && inn.isNone then s
  else
    let s := (s.setFld (Reg.PRT_P_STAT.SWITCH p) 1).setReg64 (Reg.PRT_P_SWTICK_LO p) s.tick
    let s := s.modPart p (fun x => { x with
      outgoing := out
      incoming := inn
      stopped := false
      loaded := false
      measBad := false
      saving := out.isSome
      fresh := (inn.map (s.jobState p ·)) == some 1
      jobRestart := none })
    let s := (s.setFlag (Reg.PRT_P_STAT.RES_VALID p) false).setFlag (Reg.PRT_P_STAT.FROZEN p) false
    let s := match out with
      | some j => s.setJob p j 5
      | none => s
    match inn with
    | some j => s.setJob p j 3
    | none => s

/-- PREEMPT: the resident job is saved, and no job comes in (R385, R473). -/
def State.preempt (s : State) (p : Nat) : State :=
  if s.switching p then
    (s.modPart p (fun x => { x with preemptLatched := true })).setFlag (Reg.PRT_P_STAT.PREEMPT_PENDING p) true
  else s.startSwitch p none

/-- A job may take a slice (R381). A frozen resident job may not. -/
def State.runnable (s : State) (p j : Nat) : Bool :=
  !s.flag (Reg.PRT_P_JSTAT.FAULT_PENDING p j) && !s.flag (Reg.PRT_P_JSTAT.HOLD p j) &&
    (match s.jobState p j with
      | 1 => true
      | 2 => true
      | 4 => !s.flag (Reg.PRT_P_STAT.FROZEN p)
      | _ => false)

/-- The job of slice `k` (R383). -/
def State.sliceJob (s : State) (p k : Nat) : Option Nat :=
  let n := max 1 (min 8 (s.fld (Reg.PRT_P_SCHED.LEN p)))
  ((List.range n).map (fun i => bits (s.fld (Reg.PRT_P_SCHED.ENTRY p)) (3 * ((k + i) % n)) 3)).find? (s.runnable p)

/-- A slice boundary: the selected job continues, or a switch starts, or the boundary is latched during a switch (R383, R392). A frozen
job is saved at the boundary (R393). Where a pass of some tile is due, firmware pre-empts the partition for the slice (R409). -/
def State.sliceBoundary (s : State) (p k : Nat) : State :=
  if s.switching p then
    (s.modPart p (fun x => { x with sliceLatched := true })).setFlag (Reg.PRT_P_STAT.PREEMPT_PENDING p) true
  else if (s.part p).coverDue then (s.modPart p (fun x => { x with coverDue := false })).startSwitch p none
  else
    let sel := s.sliceJob p k
    let s := match sel with
      | some j => s.addFld (Reg.PRT_P_JSTAT.SLICES p j) 1
      | none => s
    let sel := sel.or (if s.resident p = none then (s.part p).jobRestart else none)
    if sel = s.resident p then s else s.startSwitch p sel

/-- A new SLICE takes effect at a Strike boundary that is a multiple of it (R383). -/
def State.rollSlice (s : State) (p : Nat) : State :=
  let n := max 1 (s.fld (Reg.PRT_P_SLICE.STRIKES p))
  if s.strike % n = 0 ∧ (s.part p).sliceLen ≠ n then s.modPart p (fun x => { x with sliceLen := n }) else s

/-- TIME_SLICE: a partition's turn at a Strike boundary (R35, R383, R395). -/
def timeSlice (p : Nat) (s : State) : State :=
  if s.live ∧ s.place 5 ∧ s.partState p = 2 ∧ (s.part p).sliceSeen ≠ some (BitVec.ofNat 64 s.tick) then
    let s := { s with boundary := 5 }.rollSlice p
    let s := s.modPart p (fun x => { x with sliceSeen := some (BitVec.ofNat 64 s.tick) })
    let n := (s.part p).sliceLen
    if s.strike % n = 0 then s.sliceBoundary p (s.strike / n)
    else match (s.part p).jobRestart with
      | some j => if !s.switching p && s.resident p == none && s.jobState p j == 1 then s.startSwitch p (some j) else s
      | none => s
  else s

/-- A job reset (R395). It is latched while the job is coming in or going out (R392). A resident job is reset with its partition, and
starts as FRESH at the next Strike boundary. -/
def State.jobReset (s : State) (p j : Nat) : State :=
  if s.switching p && ((s.part p).outgoing == some j || (s.part p).incoming == some j) then
    (s.modPart p (fun x => { x with jobResets := x.jobResets ++ [j] })).setFlag (Reg.PRT_P_STAT.RESET_BUSY p) true
  else if s.resident p = some j then
    let s := (s.partitionReset p).setFlag (Reg.PRT_P_STAT.RES_VALID p) false
    ((s.setJob p j 1).setFlag (Reg.PRT_P_JSTAT.FAULT_PENDING p j) false).modPart p (fun x => { x with jobRestart := some j })
  else if [1, 2, 6].contains (s.jobState p j) then
    ((s.setJob p j 1).setFlag (Reg.PRT_P_JSTAT.FAULT_PENDING p j) false).setSaved p j Saved.none
  else s

/-! ## Disabling and enabling -/

/-- Every job of a partition becomes NONE, and its record is discarded. -/
def State.dropJobs (s : State) (p : Nat) : State :=
  (List.range 8).foldl (fun s j =>
    (((s.setJob p j 0).setFlag (Reg.PRT_P_JSTAT.FAULT_PENDING p j) false).setFlag (Reg.PRT_P_JOB_CTX_LO.VALID p j) false).setSaved p j
      Saved.none) s

/-- DISABLING begins (R379, steps 1 to 3): the resident job is stopped and reset, every job is dropped, collectives are aborted, and walks
that wait are abandoned. -/
def State.beginDisabling (s : State) (p : Nat) : State :=
  let s := (s.setFld (Reg.PRT_P_STAT.STATE p) 3).partitionReset p
  let s := ((s.setFlag (Reg.PRT_P_STAT.RES_VALID p) false).setFld (Reg.PRT_P_STAT.RESIDENT p) 0).dropJobs p
  let s := s.writeMshPart p (BitVec.ofNat 32 (2 ^ 31 + s.fld (Reg.MSH_P_CTRL.EPOCH p)))
  let s := s.modPart p (fun x => { x with jobRestart := none, jobResets := [], resetLatched := false, preemptLatched := false, sliceLatched := false })
  { s with walks := s.walks.filter (fun w : Walk => w.part != p || w.who == Walker.engine) }.settleWait

/-- The run of a partition is out of range or holds a bay of another partition that is not OFF (R378). -/
def State.baysBad (s : State) (p : Nat) : Bool :=
  let n := s.partCount p
  n == 0 || decide (12 < s.partFirst p + n) ||
    (s.baysOf p).any (fun b => (List.range 12).any (fun q => q != p && s.holdsBay q b))

/-- Steps 2 to 4 of ENABLING (R378): banks, tiles, translations. The partition then holds no job. -/
def State.enablingWork (s : State) (p : Nat) : State :=
  let s := (s.modPart p (fun x => { x with clearLate := false })).giveAllBanks p 0
  ((s.partitionReset p).invalidatePart p).dropJobs p

/-- ENABLING begins (R378): it sets the fences, and goes on once no firmware march runs on a tile of the run (R171). -/
def State.beginEnabling (s : State) (p : Nat) : State :=
  let s := s.setFld (Reg.PRT_P_STAT.STATE p) 1
  let s := (s.tilesOf p).foldl (fun s t => s.fenceRun p t) s
  if s.marching p then s.modPart p (fun x => { x with clearLate := true }) else s.enablingWork p

/-- EN is written (R377, R378). -/
def State.partEnable (s : State) (p : Nat) : State :=
  if s.partState p = 0 then (if s.baysBad p then s.partErr p 1 else s.beginEnabling p) else s.enWritten (enPrt p)

/-- DIS is written (R377, R379). During a switch it is latched (R392). -/
def State.partDisable (s : State) (p : Nat) : State :=
  if s.partState p = 2 then
    if s.switching p then s.setFlag (Reg.PRT_P_STAT.DISABLE_PENDING p) true else s.beginDisabling p
  else s.disWritten (enPrt p)

/-- The work of a partition's ENABLING or DISABLING ends (R377 to R379). Both wait for the firmware marches on the run's tiles (R171). DISABLING
waits for the demand fetches and for a load in progress (R292), then gives the banks back, fences the run's tiles and invalidates the
partition. -/
def State.partStateDone (s : State) (p : Nat) (ok : Bool) : State :=
  match s.partState p with
  | 1 =>
    let s := if (s.part p).clearLate && !s.marching p then s.enablingWork p else s
    if ok = false then s.workFailed (enPrt p)
    else if (s.part p).clearLate then s
    else if s.flag (Reg.PRT_P_STAT.DISABLE_PENDING p) then (s.clearPending (enPrt p)).beginDisabling p
    else s.workDone (enPrt p)
  | 3 =>
    if s.fetches.any (·.part == p) ∨ s.loads.any (·.part == p) ∨ s.marching p = true then s
    else
      let s := (s.giveAllBanks p 0).invalidatePart p
      let s := (s.tilesOf p).foldl (fun s t => s.setFld (Reg.GRD_LINK.FENCE t) 15) s
      if s.flag (Reg.PRT_P_STAT.ENABLE_PENDING p) then (s.clearPending (enPrt p)).beginEnabling p else s.workDone (enPrt p)
  | _ => s

/-! ## The end of a switch -/

/-- What was latched during a switch acts (R392): DIS first, then resets, then PREEMPT, or else a slice boundary. -/
def State.latched (s : State) (p : Nat) : State :=
  let x := s.part p
  let s := s.modPart p (fun x => { x with resetLatched := false, jobResets := [], preemptLatched := false, sliceLatched := false })
  let s := s.setFlag (Reg.PRT_P_STAT.PREEMPT_PENDING p) false
  let s := if s.fetches.any (·.part == p) then s else s.setFlag (Reg.PRT_P_STAT.RESET_BUSY p) false
  if s.flag (Reg.PRT_P_STAT.DISABLE_PENDING p) then (s.clearPending (enPrt p)).beginDisabling p
  else
    let s := if x.resetLatched then s.partitionReset p else s
    let s := x.jobResets.foldl (fun s j => s.jobReset p j) s
    if x.preemptLatched then s.preempt p
    else if x.sliceLatched then s.sliceBoundary p (s.strike / (s.part p).sliceLen)
    else s

/-- A switch is complete. -/
def State.finishSwitch (s : State) (p : Nat) : State :=
  let s := (s.setFld (Reg.PRT_P_STAT.SWITCH p) 0).addFld (Reg.PRT_P_SWITCHES.VALUE p) 1
  let s := s.modPart p (fun x => { x with incoming := none, outgoing := none, stopped := false, saving := false })
  (s.prtInterrupt 396).latched p

/-- Nothing of the partition is on its way between switches, and no Billet tile holds a flit that it has taken (R52, R165, R385). -/
def State.settled (s : State) (p : Nat) : Bool :=
  (s.tilesOf p).all (fun t => (s.tile t).scatter.isNone) && s.flights.all (fun f => s.partOf f.dst != some p) && s.creditFlights.all (fun c => s.partOf c.t != some p)

/-- The incoming job's context is read: its tables and images are taken, or it enters ERROR (R388). -/
def State.readContext (s : State) (p j : Nat) : State :=
  match s.ctxCause p j with
  | 0 => s.takeContext p j
  | k => ((s.setJob p j 6).partErr p k).modPart p (fun x => { x with incoming := none })

/-- The partition's engines are stopped: SWITCH is 2, the tick is kept, and units that wait are abandoned. -/
def State.stopEngines (s : State) (p : Nat) : State :=
  let s := (s.setFld (Reg.PRT_P_STAT.SWITCH p) 2).modPart p (fun x => { x with stopped := true, stopTick := BitVec.ofNat 64 s.tick })
  (s.moversOf p).foldl State.abandon s

/-- The context of the outgoing job, if any, is written. -/
def State.saveOutgoing (s : State) (p : Nat) : State :=
  match (s.part p).outgoing with
  | some j => s.saveContext p j
  | none => s

/-- The context of the incoming job, if any, is read. -/
def State.readIncoming (s : State) (p : Nat) : State :=
  match (s.part p).incoming with
  | some j => s.readContext p j
  | none => s

/-- The contexts that a switch writes and reads are not being filled (R203). -/
def State.contextsReady (s : State) (p : Nat) : Bool :=
  ((s.part p).outgoing.toList ++ (s.part p).incoming.toList).all (fun j => !s.fillingIn (s.ctxAt p j) 256)

/-- STOP_COMPLETE (R385, R388): every engine stands at a unit boundary and every switch has settled; units that wait are abandoned. A load in
progress is not aborted (R292). -/
def stopComplete (p : Nat) (s : State) : State :=
  if s.fld (Reg.PRT_P_STAT.SWITCH p) ≠ 1 ∨ s.settled p = false ∨ s.loads.any (·.part == p) ∨ s.contextsReady p = false then s
  else
    let s := ((s.stopEngines p).saveOutgoing p).readIncoming p
    if (s.part p).outgoing.isNone && (s.part p).incoming.isNone then s.finishSwitch p else s

/-- SAVE_COMPLETE (R388, R392): the outgoing job is SAVED, with a fault pending if one was. The save engines wait for banks that a firmware march
has locked (R171). -/
def saveComplete (p : Nat) (s : State) : State :=
  match (s.part p).outgoing with
  | none => s
  | some j =>
    if s.fld (Reg.PRT_P_STAT.SWITCH p) ≠ 2 ∨ (s.part p).saving = false ∨ s.marching p = true ∨ s.recordFilling p j = true then s
    else
      let s := (s.saveRecord p j).passSave (s.ctxAt p j + 224) 8 |>.writeNum (s.ctxAt p j + 224) 8 s.tick
      let s := (s.setJob p j 2).setFlag (Reg.PRT_P_JSTAT.FAULT_PENDING p j) (!(s.part p).faults.isEmpty)
      let s := s.modPart p (fun x => { x with saving := false, faults := [] })
      match (s.part p).incoming with
      | none => s.finishSwitch p
      | some _ => if (s.part p).loaded then s else s.setFld (Reg.PRT_P_STAT.SWITCH p) 3

/-- An uncorrectable error in a record is counted at a stack of the partition's bays; the event does not say which (R202). -/
def State.recordError (s : State) (p : Nat) : State := (s.stackEcc (s.partFirst p + s.fresh % max 1 (s.partCount p)) ⟨0, 1, []⟩).took

/-- RESTORE_COMPLETE (R388, R392): every tile of the incoming job is restored and its images are loaded, so that it is RESIDENT and goes
on, or stays frozen where a measurement differs. After an error in the record it is reset. -/
def restoreComplete (p : Nat) (res : EndKind) (s : State) : State :=
  match (s.part p).incoming with
  | none => s
  | some j =>
    let x := s.part p
    if s.fld (Reg.PRT_P_STAT.SWITCH p) < 2 ∨ x.saving = true ∨ x.loaded = false ∨ s.marching p = true ∨
        s.recordFilling p j = true then s
    else
      let s := if !x.fresh && res = .poison then s.recordError p else s
      let s := if x.fresh then (s.tilesOf p).foldl (fun s t => s.freshTile p t) s
        else ((s.tilesOf p).foldl (fun s t => s.restoreTile p j t) s).restoreMovers p j
      let s := ((s.setJob p j 4).setFlag (Reg.PRT_P_STAT.RES_VALID p) true).setFld (Reg.PRT_P_STAT.RESIDENT p) j
      let s := ((s.setFld (Reg.PRT_P_STAT.SWITCH p) 0).setSaved p j Saved.none).readEnvelopes p
      let s := if x.measBad then ((s.partErr p 5).setFlag (Reg.PRT_P_STAT.FROZEN p) true).prtInterrupt 56 else s.goOn p
      let s := if !x.fresh && res != .ok then ((s.partErr p 4).markOpen p (if res = .poison then 3 else 7)).jobReset p j else s
      s.finishSwitch p

/-! ## Writes of job registers -/

/-- A write of PRT_Pp_JOBj_CTX_LO (R381, Table 16-12). -/
def State.writeCtxLo (s : State) (p j : Nat) (v : Word) : State :=
  let st := s.jobState p j
  if [3, 4, 5].contains st then s
  else
    let on := bitOf v.toNat 0
    let s := (s.setFld (Reg.PRT_P_JOB_CTX_LO.ADDR p j) (bits v.toNat 12 20)).setFlag (Reg.PRT_P_JOB_CTX_LO.VALID p j) on
    if st = 0 ∧ on then s.setJob p j 1
    else if st ≠ 0 ∧ on = false then ((s.setJob p j 0).setFlag (Reg.PRT_P_JSTAT.FAULT_PENDING p j) false).setSaved p j Saved.none
    else s

/-! ## The rows -/

def execJobContextValid (m : Master) (p : Fin 12) (j : Fin 8) (v : Word) (s : State) : Host.Outcome State Fault Refusal :=
  .next (s.byFirmware m (Reg.PRT_P_JOB_CTX_LO p j) (·.writeCtxLo p j v))
def execTimeSlice (p : Fin 12) (s : State) : Host.Outcome State Fault Refusal := .next (timeSlice p s)
def execStopComplete (p : Fin 12) (s : State) : Host.Outcome State Fault Refusal := .next (stopComplete p s)
def execSaveComplete (p : Fin 12) (s : State) : Host.Outcome State Fault Refusal := .next (saveComplete p s)
def execRestoreComplete (p : Fin 12) (res : EndKind) (s : State) : Host.Outcome State Fault Refusal := .next (restoreComplete p res s)

end Sys2Proof.Machine
end

