-- ==== Sys2Proof/Machine/Hostlink.lean ====
section
/-! DEFINITION. The module's side of the host link: writes to host memory, the watch lines of the submission logs and the output
rings (chapter 15, R441, R453). -/
namespace Sys2Proof.Machine

/-! ## Host memory -/

/-- The host link is trained. -/
def State.hostUp (s : State) : Bool := s.flag Reg.CXL_HOST_STAT.TRAINED

/-- A write to host memory; it waits while the link is down (R453). -/
def State.hostWrite (s : State) (a : Nat) (d : List Byte) : State :=
  if s.hostUp then s.emit (.hostWrite a d) else { s with outHeld := s.outHeld ++ [.hostWrite a d] }

/-- The host is interrupted where SRV_CTRL.INT_EN allows it (Table 15-10). -/
def State.hostInterrupt (s : State) (rule : Nat) : State :=
  if s.flag Reg.SRV_CTRL.INT_EN then s.emit (.interrupt true rule) else s

/-! ## Logs -/

def State.logBase (s : State) (n : Nat) : Nat :=
  s.fld (Reg.SRV_LOG_BASE_LO.ADDR n) * 2 ^ 12 + s.fld (Reg.SRV_LOG_BASE_HI.ADDR n) * 2 ^ 32
def State.outBase (s : State) (n : Nat) : Nat :=
  s.fld (Reg.SRV_LOG_OUT_LO.ADDR n) * 2 ^ 12 + s.fld (Reg.SRV_LOG_OUT_HI.ADDR n) * 2 ^ 32

/-- The host address of a watch line (Table 15-1). -/
def State.lineAt (s : State) (l : WatchLine) : Nat := s.logBase l.log + (if l.outHead then 128 else 0)

/-- A watch line is held Shared, or its RdShared is outstanding. -/
def State.lineHeld (s : State) (l : WatchLine) : Bool := if l.outHead then (s.log l.log).outHeld else (s.log l.log).tailHeld
def State.lineFilling (s : State) (l : WatchLine) : Bool := if l.outHead then (s.log l.log).outFill else (s.log l.log).tailFill

def State.setLine (s : State) (l : WatchLine) (held fill : Bool) : State :=
  s.modLog l.log (fun x => if l.outHead then { x with outHeld := held, outFill := fill } else { x with tailHeld := held, tailFill := fill })

/-- RdShared is issued for a watch line (R441). -/
def State.takeLine (s : State) (l : WatchLine) : State := (s.setLine l false true).emit (.hostRead (s.lineAt l) 64)

/-- Both watch lines of a log. -/
def linesOf (n : Fin 64) : List WatchLine := [⟨n, false⟩, ⟨n, true⟩]

/-- The logs by number. -/
def allLogs : List (Fin 64) := (List.range 64).map (Fin.ofNat 64)

/-- WATCH_LINE_SNOOP (R441). -/
def watchLineSnoop (l : WatchLine) (s : State) : State :=
  if s.hostUp = false then s
  else
    let s := s.add64 Reg.CXL_SNOOPS_LO 1
    if s.lineHeld l then (s.emit (.snoopResponse true)).takeLine l else s.emit (.snoopResponse false)

/-! ## Requests -/

/-- Every request is changed by `f`, which takes its slot too. -/
def State.eachRequest (s : State) (f : Nat → Request → Request) : State :=
  s.requests.foldl (fun s e => s.setRequest e.1 (f e.1 e.2)) s

/-- A field of a request's descriptor (Table 15-2). -/
def Request.field (r : Request) (o n : Nat) : Nat := leNat ((r.desc.drop o).take n)
def Request.target (r : Request) : Nat := r.field 4 2 % 256
def Request.account (r : Request) : Nat := r.field 6 2
def Request.plen (r : Request) : Nat := r.field 24 4
def Request.spec (r : Request) : Bool := r.field 1 1 % 2 == 1

/-- The partition that serves a request. -/
def State.reqPart (s : State) (r : Request) : Nat := s.fld (Reg.SRV_TGT.PART r.target)

/-- The id of the request in a slot (R355). -/
def Request.id (r : Request) (slot : Nat) : Nat := slot * 2 ^ 15 + r.gen

/-- A request that has been accepted and not ended. -/
def Request.live (r : Request) : Bool := r.state != .free && r.state != .accepting

/-- The state of a HELD request once it is held no more (Table 15-3). -/
def Request.unheld (r : Request) : Request :=
  { r with state := if r.heldReady then .ready else if r.done = 0 then .queued else .prefill, heldRing := false }

/-! ## Output rings -/

/-- An output record (Table 15-4) but for its PHASE. -/
structure OutRecord where
  id : Nat
  pos : Nat
  kind : Nat
  status : Nat
  value : Nat
  prob : Nat
  reason : Nat
  tick : Nat
  client : Nat
  step : Nat
deriving DecidableEq, Repr

/-- The 64 bytes of a record. -/
def OutRecord.bytes (r : OutRecord) (phase : Nat) : List Byte :=
  natLE 4 r.id ++ natLE 6 r.pos ++ natLE 1 r.kind ++ natLE 1 r.status ++ natLE 4 r.value ++ natLE 4 r.prob ++ natLE 1 r.reason ++
    natLE 2 0 ++ natLE 1 phase ++ natLE 8 r.tick ++ natLE 8 r.client ++ natLE 6 r.step ++ natLE 18 0

def State.ringIndex (s : State) (n : Nat) : Nat := (s.reg (Reg.SRV_LOG_OUTIDX n)).toNat
def State.ringSize (s : State) (n : Nat) : Nat := 2 ^ s.fld (Reg.SRV_LOG_CTL.OUT_LOG2N n)

/-- The slots of a ring below OUT_HEAD + 2^OUT_LOG2N that are neither written nor reserved (R358, R361). -/
def State.ringFree (s : State) (n : Nat) : Nat :=
  s.ringSize n - (s.ringIndex n + 2 ^ 32 - (s.log n).outHead.toNat) % 2 ^ 32 - (s.log n).reserved

/-- A record is written at an index of the ring of log `n` (R357, R358). -/
def State.putRecord (s : State) (n idx : Nat) (r : OutRecord) : State :=
  s.hostWrite (s.outBase n + 64 * (idx % s.ringSize n)) (r.bytes (ofBool (idx / s.ringSize n % 2 = 0)))

/-- The next `k` indices of a ring are taken. -/
def State.takeIndices (s : State) (n k : Nat) : State :=
  s.setReg (Reg.SRV_LOG_OUTIDX n) (s.reg (Reg.SRV_LOG_OUTIDX n) + BitVec.ofNat 32 k)

/-- The next record of a ring. -/
def State.nextRecord (s : State) (n : Nat) (r : OutRecord) : State := (s.putRecord n (s.ringIndex n) r).takeIndices n 1

/-- Ring slots are reserved, or reservations return (R361). -/
def State.reserve (s : State) (n k : Nat) : State := s.modLog n (fun x => { x with reserved := x.reserved + k })
def State.unreserve (s : State) (n k : Nat) : State := s.modLog n (fun x => { x with reserved := x.reserved - k })

/-- The host has advanced OUT_HEAD: the log's requests held for ring space are held no more (R361, Table 15-3). -/
def State.ringSpace (s : State) (n : Nat) : State :=
  (s.setFlag (Reg.SRV_LOG_STAT.OUT_WAIT n) false).eachRequest (fun _ r =>
    if r.state = .held ∧ r.heldRing = true ∧ r.log = n then r.unheld else r)

/-- WATCH_LINE_FILL: a watch line is held again, and the module acts on the index it carries (R351, R441). -/
def watchLineFill (l : WatchLine) (index : Word) (s : State) : State :=
  if s.hostUp = false ∨ s.lineFilling l = false then s
  else
    let s := s.setLine l true false
    if l.outHead then
      if index = (s.log l.log).outHead then s
      else (s.modLog l.log (fun x => { x with outHead := index })).ringSpace l.log
    else s.modLog l.log (fun x => { x with tail := index })

def execWatchLineSnoop (l : WatchLine) (s : State) : Host.Outcome State Fault Refusal := .next (watchLineSnoop l s)
def execWatchLineFill (l : WatchLine) (index : Word) (s : State) : Host.Outcome State Fault Refusal := .next (watchLineFill l index s)

end Sys2Proof.Machine
end

