-- ==== Sys2Proof/Machine/Journal.lean ====
section
/-! DEFINITION. The journal (R368 to R371): records, their room, the two copies and their tail words. The layout of the lines after a
record's header is not stated, so free bytes stand there, and what a record holds is kept in `Journal` (log 20). -/
namespace Sys2Proof.Machine

/-- The lines of the ring, line 0 among them. -/
def State.jrnlLines (s : State) : Nat := s.fld Reg.SRV_JRNL_SIZE.MIB * 16384
def State.jmode (s : State) : Nat := s.fld Reg.SRV_STATUS.JMODE

/-- The line of the ring at which a line counted without wrapping stands: line 0 holds the tail word. -/
def State.ringLine (s : State) (k : Nat) : Nat := 1 + (k - 1) % (s.jrnlLines - 1)

/-- The local journal, as an offset of the slot; its copies in the buddy, whose slot the latched SLOT sets (R22), and in host memory. -/
def State.jrnlBase (s : State) : Nat :=
  (s.fld Reg.SRV_JRNL_BASE_LO.ADDR * 2 ^ 12 + s.fld Reg.SRV_JRNL_BASE_HI.ADDR * 2 ^ 32) % 2 ^ 54
def State.jrnlMirror (s : State) : Nat :=
  s.buddySlot * 2 ^ 54 + (s.fld Reg.SRV_JRNL_MIRROR_LO.ADDR * 2 ^ 12 + s.fld Reg.SRV_JRNL_MIRROR_HI.ADDR * 2 ^ 32) % 2 ^ 54
def State.jrnlHost (s : State) : Nat := s.fld Reg.SRV_JRNL_HOST_LO.ADDR * 2 ^ 12 + s.fld Reg.SRV_JRNL_HOST_HI.ADDR * 2 ^ 32

/-- Line `k` of the local journal is written through its Hearth slice (R177). -/
def State.passLine (s : State) (k : Nat) : State := s.pass (s.jrnlBase + 64 * k) 64 true

/-- Line `k` of the local journal goes to the copy that JMODE names (R368). -/
def State.copyLine (s : State) (k : Nat) : State :=
  let d := s.bytes (s.jrnlBase + 64 * k) 64
  let s := if s.jmode = 0 ∨ s.jmode = 1 then s.pass (s.jrnlBase + 64 * k) 64 false else s
  match s.jmode with
  | 0 => s.sendRequest 4 s.buddySlot (s.jrnlMirror + 64 * k) (.write d) .journal
  | 1 => s.hostWrite (s.jrnlHost + 64 * k) d
  | _ => s

/-- The lines of a record go to the copy. -/
def State.copyRecord (s : State) (r : JournalRecord) : State :=
  (List.range r.lines).foldl (fun s i => s.copyLine (s.ringLine (r.offset + i))) s

/-- A record's header line (Table 15-7). -/
def JournalRecord.header (r : JournalRecord) : List Byte :=
  natLE 1 r.type ++ natLE 3 r.lines ++ natLE 4 0 ++ natLE 8 r.seq ++ natLE 8 r.stamp.toNat ++ natLE 2 r.part ++ natLE 6 r.step ++
    natLE 32 0

/-- A record is appended to the local journal and to the copy; records that it overwrites are gone. An ACCEPT record gives its id to a new
request, which has not ended. -/
def State.appendRecord (s : State) (r : JournalRecord) : State :=
  let r := { r with seq := s.journal.nextSeq, offset := s.journal.nextLine }
  let s := (s.passLine (s.ringLine r.offset)).write (s.jrnlBase + 64 * s.ringLine r.offset) r.header
  let s := (List.range (r.lines - 1)).foldl (fun s i =>
    let k := s.ringLine (r.offset + 1 + i)
    (s.passLine k).freeBytes (s.jrnlBase + 64 * k) 64) s
  let s := s.copyRecord r
  let next := r.offset + r.lines
  { s with journal := { s.journal with
    records := s.journal.records.filter (fun x => decide (next ≤ x.offset + (s.jrnlLines - 1))) ++ [r]
    nextLine := next
    nextSeq := r.seq + 1
    ended := if r.type = 1 then s.journal.ended.filter (fun e => !r.requests.any (fun x => x.1 == e.1 && x.2.gen == e.2)) else s.journal.ended } }

/-! ## Room -/

/-- A live request still needs a record: no RESTATE of it follows, nor the ACCEPT of a later request of its id (R368). -/
def State.needs (s : State) (r : JournalRecord) (slot : Nat) (q : Request) : Bool :=
  (s.request slot).state != .free && (s.request slot).gen == q.gen &&
    !s.journal.records.any (fun x => (x.type == 3 || x.type == 1) && decide (r.seq < x.seq) &&
      x.requests.any (fun e => e.1 == slot && e.2.gen == q.gen))

/-- A record is needed: for a live request, or because its tail word is not yet written. -/
def State.needed (s : State) (r : JournalRecord) : Bool :=
  decide (s.journal.tail < r.seq) || r.requests.any (fun e => s.needs r e.1 e.2)

/-- The oldest record that is needed. -/
def State.oldestNeeded (s : State) : Option JournalRecord := s.journal.records.find? s.needed

/-- `n` more lines overwrite no record that is needed. -/
def State.jrnlRoom (s : State) (n : Nat) : Bool :=
  match s.oldestNeeded with
  | none => decide (n ≤ s.jrnlLines - 1)
  | some r => decide (s.journal.nextLine + n ≤ r.offset + (s.jrnlLines - 1))

/-- The lines that a request's ACCEPT content takes, and those of its emitted tokens and generations (log 20). -/
def Request.acceptLines (r : Request) : Nat := 5 + ceilDiv r.stop.length 64 + ceilDiv r.prompt.length 16
def Request.restateLines (r : Request) : Nat := 1 + r.acceptLines + ceilDiv r.emitted.length 8 + ceilDiv r.gens.length 4

/-- A RESTATE record of the request in a slot. -/
def State.restatement (s : State) (slot : Nat) : JournalRecord :=
  let q := s.request slot
  ⟨3, q.restateLines, 0, 0, BitVec.ofNat 64 s.tick, s.reqPart q, 0, [(slot, q)], [], [], []⟩

/-- The requests that need a record are restated, one after the other; none where one finds no room. -/
def State.restate (s : State) : List Nat → Option State
  | [] => some s
  | slot :: rest => if s.jrnlRoom (s.restatement slot).lines then (s.appendRecord (s.restatement slot)).restate rest else none

/-- The state in which `n` lines have room, the requests of the oldest records restated where that is needed; none where the ring cannot
take a RESTATE (R368). -/
def State.makeRoom (s : State) (n : Nat) : Nat → Option State
  | 0 => if s.jrnlRoom n then some s else none
  | k + 1 =>
    if s.jrnlRoom n then some s
    else match s.oldestNeeded with
      | none => none
      | some r =>
        if s.journal.tail < r.seq then none
        else match s.restate ((r.requests.filter (fun e => s.needs r e.1 e.2)).map (·.1)) with
          | none => none
          | some s => s.makeRoom n k

def State.roomFor (s : State) (n : Nat) : Option State := s.makeRoom n (s.journal.records.length + 1)

/-! ## Acknowledgements and tail words -/

/-- A journal write to the buddy is outstanding that meets a test of its line. -/
def State.mirrorOut (s : State) (test : Nat → Bool) : Bool :=
  s.outstanding.any (fun o => o.issuer == Issuer.journal && decide (s.jrnlMirror ≤ o.addr) && test ((o.addr - s.jrnlMirror) / 64))

/-- A line of the ring belongs to a record. -/
def State.inRecord (s : State) (r : JournalRecord) (line : Nat) : Bool :=
  line != 0 && decide ((line - 1 + (s.jrnlLines - 1) - (r.offset - 1) % (s.jrnlLines - 1)) % (s.jrnlLines - 1) < r.lines)

/-- Every line of the records up to a sequence number has been acknowledged in the copy. -/
def State.recordsAcked (s : State) (seq : Nat) : Bool :=
  match s.jmode with
  | 0 => !s.journal.unmirrored && !s.mirrorOut (fun l => s.journal.records.any (fun r => decide (r.seq ≤ seq) && s.inRecord r l))
  | 1 => s.hostUp
  | 2 => false
  | _ => true

/-- The copy's tail word has been acknowledged. -/
def State.tailAcked (s : State) : Bool :=
  match s.jmode with
  | 0 => !s.journal.unmirrored && !s.mirrorOut (· == 0)
  | 1 => s.hostUp
  | 2 => false
  | _ => true

/-- Line 0 of a journal whose last complete record is `r`: its sequence number and its line (the places are the model's, log 20). -/
def State.tailLine (s : State) (r : JournalRecord) : List Byte := natLE 8 r.seq ++ natLE 8 (s.ringLine r.offset) ++ natLE 48 0

/-- Both tail words name a record, unless they name a later one already. -/
def State.writeTail (s : State) (r : JournalRecord) : State :=
  if r.seq ≤ s.journal.tail then s
  else
    let s := ((s.passLine 0).write s.jrnlBase (s.tailLine r)).copyLine 0
    { s with journal := { s.journal with tail := r.seq } }

/-! ## The copy's place -/

/-- The live part of the local journal, with the records that are pending and the tail word, goes to the copy (R369). -/
def State.copyLive (s : State) : State :=
  let from_ := (s.oldestNeeded.map (·.seq)).getD s.journal.nextSeq
  ((s.journal.records.filter (fun r => decide (from_ ≤ r.seq))).foldl (fun s r => s.copyRecord r) s).copyLine 0

/-- The journal writes that were outstanding to the buddy have ended. -/
def State.dropMirrorWrites (s : State) : State :=
  { s with journal := { s.journal with unmirrored := false } }.forget (fun o => o.issuer == Issuer.journal)

/-- The copy in the buddy is lost: it moves to host memory, or journaling stalls (R369). -/
def State.mirrorLost (s : State) (hostWritable : Bool) : State :=
  let s := (s.dropMirrorWrites.setFlag Reg.SRV_STATUS.MIRROR_LOST true).hostInterrupt 369
  if s.flag Reg.SRV_CTRL.HOSTJ_EN && hostWritable then (s.setFld Reg.SRV_STATUS.JMODE 1).copyLive
  else (s.setFld Reg.SRV_STATUS.JMODE 2).hostInterrupt 369

/-- The whole live journal goes to the buddy, which JMODE names again (R369). -/
def State.mirrorBack (s : State) : State := (s.dropMirrorWrites.setFld Reg.SRV_STATUS.JMODE 0).copyLive

/-- The buddy can be reached: its slot answers over a port that is ON (R22, R318). -/
def State.buddyReachable (s : State) : Bool := s.slotReachable s.buddySlot

/-- BUDDY_EN and HOSTJ_EN as written decide where the copy goes (R368, R369). A buddy that is enabled anew gets the live journal, or
is absent. -/
def State.chooseCopy (s : State) (wasBuddy : Bool) : State :=
  let b := s.flag Reg.SRV_CTRL.BUDDY_EN
  let h := s.flag Reg.SRV_CTRL.HOSTJ_EN
  if b = false then
    if h then (if s.jmode = 1 then s else (s.dropMirrorWrites.setFld Reg.SRV_STATUS.JMODE 1).copyLive)
    else s.dropMirrorWrites.setFld Reg.SRV_STATUS.JMODE 3
  else if wasBuddy = false then (if s.buddyReachable then s.mirrorBack else s.mirrorLost true)
  else if s.jmode = 1 ∧ h = false then (s.setFld Reg.SRV_STATUS.JMODE 2).hostInterrupt 369
  else if s.jmode = 2 ∧ h = true then (s.setFld Reg.SRV_STATUS.JMODE 1).copyLive
  else s

/-! ## Acceptance (R355) -/

/-- The ACCEPT record of the request in a slot: the latest, since its id may have been another request's. -/
def State.acceptRecord (s : State) (slot : Nat) : Option JournalRecord :=
  s.journal.records.reverse.find? (fun r => r.type == 1 && r.requests.any (fun e => e.1 == slot && e.2.gen == (s.request slot).gen))

/-- The ACCEPT output record of a request (Table 15-4). -/
def Request.acceptance (r : Request) (slot tick : Nat) : OutRecord :=
  ⟨r.id slot, 0, 1, 0, r.index.toNat, 0, 0, tick, r.field 8 8, 0⟩

/-- HEAD moves past a descriptor (R351). -/
def State.advanceHead (s : State) (n : Nat) : State :=
  let h := (s.log n).head + 1
  let s := (s.modLog n (fun x => { x with head := h })).setFld (Reg.SRV_LOG_STAT.HEAD n) h.toNat
  s.hostWrite (s.logBase n + 64) (natLE 8 h.toNat ++ natLE 56 0)

/-- The request's stamp and deadline: those of the tick in which the write of its ACCEPT record is issued. -/
def Request.stamped (r : Request) (tick : Nat) : Request :=
  { r with
    state := .queued
    stamp := BitVec.ofNat 64 tick
    deadline := if r.field 56 4 = 0 then 2 ^ 54 - 1 else tick / 1024 + r.field 56 4 }

/-- A request's ACCEPT record with the request as it is stamped. -/
def JournalRecord.withStamped (r : JournalRecord) (slot : Nat) (q : Request) : JournalRecord :=
  if r.type = 1 then { r with requests := r.requests.map (fun e => if e.1 = slot ∧ e.2.gen = q.gen then (slot, q) else e) } else r

/-- Steps 3 and 4 of R355: the ACCEPT record is written and HEAD advances. -/
def State.accepted (s : State) (n slot idx : Nat) : State :=
  let q := (s.request slot).stamped s.tick
  let s := s.setRequest slot q
  let s := { s with journal := { s.journal with records := s.journal.records.map (fun (r : JournalRecord) => r.withStamped slot q) } }
  let s := (s.putRecord n idx (q.acceptance slot s.tick)).add64 Reg.SRV_ACCEPTS_LO 1
  (s.modLog n (fun x => { x with accepting := none })).advanceHead n

/-- The acceptance that a log has begun goes on as far as the acknowledgements allow. -/
def State.finishAccept (s : State) (n : Nat) : State :=
  match (s.log n).accepting with
  | none => s
  | some (slot, tail) =>
    match s.acceptRecord slot with
    | none => s
    | some r =>
      let idx := ((r.ringSlots.headD (0, 0)).2).toNat
      let s := if !tail && s.recordsAcked r.seq then
          (s.writeTail r).modLog n (fun x => { x with accepting := some (slot, true) })
        else s
      if (s.log n).accepting = some (slot, true) ∧ s.tailAcked then s.accepted n slot idx else s

/-- Every acceptance that waits for its copy. -/
def State.finishAccepts (s : State) : State := (List.range 64).foldl State.finishAccept s

/-! ## The rows -/

/-- JOURNAL_MIRROR_LOSS (R369): a write to the buddy's copy ended with kind TIER. -/
def journalMirrorLoss (hostWritable : Bool) (s : State) : State :=
  if s.live ∧ s.jmode = 0 ∧ s.journal.unmirrored then (s.mirrorLost hostWritable).finishAccepts else s

/-- JOURNAL_MIRROR_RESTORE (R369): the buddy has returned. -/
def journalMirrorRestore (s : State) : State :=
  if s.live ∧ s.flag Reg.SRV_CTRL.BUDDY_EN ∧ (s.jmode = 1 ∨ s.jmode = 2) ∧ s.buddyReachable then s.mirrorBack.finishAccepts else s

def execJournalMirrorLoss (hostWritable : Bool) (s : State) : Host.Outcome State Fault Refusal :=
  .next (journalMirrorLoss hostWritable s)
def execJournalMirrorRestore (s : State) : Host.Outcome State Fault Refusal := .next (journalMirrorRestore s)
/-- LOADSTORE_RESPONSE (R318); one for a journal write may complete an acceptance (R355). -/
def execLoadstoreResponse (n : Fin 5) (s : State) : Host.Outcome State Fault Refusal := .next (loadstoreResponse n s).finishAccepts

end Sys2Proof.Machine
end

