-- ==== Sys2Proof/Machine/Submit.lean ====
section
/-! DEFINITION. Submission logs: SUBMIT, CANCEL and the writes of SRV_LOGn (R350 to R356). -/
namespace Sys2Proof.Machine

/-! ## Reading descriptors -/

/-- Foreman firmware reads logs: it accepts nothing while ALIGNED is 0 (R26, R369, R370, Table 15-10). -/
def State.readsLogs (s : State) : Bool :=
  s.live && s.flag Reg.TIME_STATUS.ALIGNED && s.hostUp && s.flag Reg.SRV_CTRL.ACCEPT_EN && s.fld Reg.SRV_JRNL_SIZE.MIB != 0 && s.jmode != 2 &&
    !s.flag Reg.SRV_STATUS.RECOVERING

/-- A log has a descriptor to read (R351, R352). -/
def State.hasWork (s : State) (n : Nat) : Bool :=
  s.flag (Reg.SRV_LOG_CTL.EN n) && !s.flag (Reg.SRV_LOG_STAT.FROZEN n) && (s.log n).head != (s.log n).tail && (s.log n).accepting.isNone

/-- The log whose descriptor is taken next: round-robin in ascending number (R354). -/
def State.turn (s : State) : Option Nat := ((List.range 64).map (fun i => (s.nextLog + i) % 64)).find? s.hasWork

/-- The descriptor at HEAD of log `n` may be taken. -/
def State.mayTake (s : State) (n : Nat) : Bool := s.readsLogs && s.turn == some n

/-- A number in a descriptor (Table 15-2). -/
def dsc (d : List Byte) (o n : Nat) : Nat := leNat ((d.drop o).take n)

/-- The descriptor of log `n` is taken and read (R354, R441). -/
def State.takeDescriptor (s : State) (n : Nat) : State :=
  { s with nextLog := (n + 1) % 64 }.emit
    (.hostRead (s.logBase n + 256 + 256 * ((s.log n).head.toNat % 2 ^ s.fld (Reg.SRV_LOG_CTL.LOG2N n))) 256)

/-- What R352 requires of every descriptor of log `n`. -/
def State.badDescriptor (s : State) (n : Nat) (d : List Byte) : Bool :=
  let zero := fun o k => (List.range k).all (fun i => dsc d (o + i) 1 == 0)
  let spec := dsc d 1 1 % 2
  let k := dsc d 2 1
  decide (1 < dsc d 0 1) || decide (1 < dsc d 1 1) || !zero 3 1 || !zero 54 2 || !zero 60 4 || !zero 76 180 ||
    (dsc d 0 1 == 0 && !zero 72 4) ||
    decide (dsc d 6 2 < s.fld (Reg.SRV_LOG_ACCT.ACCT_LO n)) || decide (s.fld (Reg.SRV_LOG_ACCT.ACCT_HI n) < dsc d 6 2) ||
    (if spec = 1 then k == 0 || decide (8 < k) else k != 0) ||
    dsc d 16 8 % 64 != 0 || dsc d 64 8 % 64 != 0 ||
    decide (2 ^ s.fld (Reg.SRV_LOG_CTL.LOG2N n) < ((s.log n).tail - (s.log n).head).toNat)

/-- The sampling fields of a descriptor as a record of Table 06-3: check 11 of Table 06-8. -/
def badSampling (d : List Byte) : Bool :=
  let r : SampleRec := ⟨0, dsc d 40 4, dsc d 44 4, dsc d 48 4, dsc d 52 2, 0, 0, 0⟩
  !r.ok 0

/-- The NTOK, NSEQ and length parts of check 12 of Table 06-8. -/
def badStop (b : List Byte) : Bool :=
  let nseq := dsc b 585 1
  decide (16 < dsc b 584 1) || decide (8 < nseq) || (List.range nseq).any (fun i => dsc b (576 + i) 1 == 0 || decide (16 < dsc b (576 + i) 1))

/-- What R352 requires of a SUBMIT. -/
def badSubmit (d stop : List Byte) : Bool :=
  dsc d 24 4 == 0 || dsc d 28 4 == 0 || decide (4194304 < dsc d 24 4 + dsc d 28 4) || badSampling d ||
    (dsc d 64 8 != 0 && !stop.isEmpty && badStop stop)

/-- A REJECT record, and HEAD past the descriptor (R352, R353). -/
def State.reject (s : State) (n : Nat) (d : List Byte) (status reason : Nat) : State :=
  (s.nextRecord n ⟨0xFFFFFFFF, 0, 2, status, (s.log n).head.toNat, 0, reason, s.tick, dsc d 8 8, 0⟩).advanceHead n

/-- A malformed descriptor is a violation of kind 3 by the log's function. What its record's tile, address, bank, OWNER and kind of access
hold is not stated (log 3). -/
def State.malformed (s : State) (n : Nat) (d : List Byte) : State :=
  let s := s.reject n d codeViolation 0
  let f := s.fld (Reg.SRV_LOG_CTL.FUNC n) % 64
  let v := s.fresh
  s.took.hostViolation f 3 (v % 2 ^ 32) (v / 2 ^ 32 % 2 ^ 64) (bankDetail (v / 2 ^ 96 % 256) (v / 2 ^ 104 % 256) (0xC0 + f) (v / 2 ^ 112 % 256))

/-! ## SUBMIT -/

/-- The case of R353 in which a well-formed SUBMIT is rejected; 0 where it is not. -/
def State.rejectCase (s : State) (d : List Byte) (res : EndKind) : Nat :=
  let t := dsc d 4 2 % 256
  if s.flag (Reg.SRV_TGT.VALID t) = false then 1
  else if s.fld (Reg.SRV_TGT.MAXCTX t) * 1024 < dsc d 24 4 + dsc d 28 4 then 2
  else if dsc d 1 1 % 2 = 1 ∧ s.flag (Reg.SRV_TGT.SPEC_OK t) = false then 3
  else if s.partState (s.fld (Reg.SRV_TGT.PART t)) ≠ 2 then 4
  else if res ≠ .ok then 5
  else 0

/-- The lowest slot from `k` on that is FREE, of `n`. -/
def State.freeSlot (s : State) : Nat → Nat → Option Nat
  | 0, _ => none
  | n + 1, k => if (s.request k).state = .free then some k else s.freeSlot n (k + 1)

/-- The request of a descriptor in a slot whose generation was `gen` (R355). -/
def newRequest (n : Nat) (index : Word) (gen : Nat) (d stop : List Byte) (prompt : List Word) : Request :=
  { Request.free with
    gen := (gen + 1) % 0x7FFF
    state := .accepting
    log := n
    index := index
    desc := d
    prompt := prompt
    stop := stop
    pos := dsc d 24 4 }

/-- Steps 1 and 2 of R355: the slot is taken, a ring slot is assigned and the ACCEPT journal record is written. -/
def State.beginAccept (s : State) (n slot : Nat) (d stop : List Byte) (prompt : List Word) : State :=
  let q := newRequest n (s.log n).head (s.request slot).gen d stop prompt
  let idx := s.reg (Reg.SRV_LOG_OUTIDX n)
  let s := ((s.setRequest slot q).takeIndices n 1).modLog n (fun x => { x with accepting := some (slot, false) })
  s.appendRecord ⟨1, 1 + q.acceptLines, 0, 0, BitVec.ofNat 64 s.tick, s.reqPart q, 0, [(slot, { q with state := .queued })], [], [],
    [(slot, idx)]⟩

/-- What the host's memory gives for a SUBMIT fits its descriptor. -/
def submitFits (d stop : List Byte) (prompt : List Word) (res : EndKind) : Bool :=
  res != .ok || ((prompt.length == dsc d 24 4 || decide (4194304 < dsc d 24 4)) && stop.length == (if dsc d 64 8 = 0 then 0 else 586))

/-- A well-formed SUBMIT that is not rejected (R353, R355). -/
def State.submitGood (s : State) (n : Nat) (d stop : List Byte) (prompt : List Word) : State :=
  match s.freeSlot 131072 0 with
  | none => s
  | some slot =>
    let q := newRequest n (s.log n).head (s.request slot).gen d stop prompt
    match s.roomFor (1 + q.acceptLines) with
    | none => s.setFlag Reg.SRV_STATUS.JRNL_FULL true
    | some s => ((s.setFlag Reg.SRV_STATUS.JRNL_FULL false).beginAccept n slot d stop prompt).finishAccept n

/-- SUBMIT: the descriptor at HEAD of log `n` is accepted, rejected, or left waiting (R351 to R355). -/
def submit (n : Nat) (d : List Byte) (prompt : List Word) (stop : List Byte) (res : EndKind) (s : State) : State :=
  if s.mayTake n = false ∨ dsc d 0 1 = 1 ∨ submitFits d stop prompt res = false then s
  else
    let s := s.takeDescriptor n
    if s.ringFree n = 0 then s
    else if s.badDescriptor n d || badSubmit d (if res = .ok then stop else []) then s.malformed n d
    else
      let s := s.emit (.hostRead (dsc d 16 8) (4 * dsc d 24 4))
      let s := if dsc d 64 8 = 0 then s else s.emit (.hostRead (dsc d 64 8) 586)
      match s.rejectCase d res with
      | 0 => s.submitGood n d stop prompt
      | k => s.reject n d codeAborted k

/-! ## CANCEL -/

/-- A CANCEL names a live request of an account in the log's range (R356). -/
def State.cancels (s : State) (n id : Nat) : Bool :=
  let q := s.request (id / 2 ^ 15)
  q.live && q.gen == id % 2 ^ 15 && decide (s.fld (Reg.SRV_LOG_ACCT.ACCT_LO n) ≤ q.account) &&
    decide (q.account ≤ s.fld (Reg.SRV_LOG_ACCT.ACCT_HI n))

/-- CANCEL (R352, R356). A malformed one waits for the ring slot of its REJECT record. -/
def cancel (n : Nat) (d : List Byte) (s : State) : State :=
  if s.mayTake n = false ∨ dsc d 0 1 ≠ 1 then s
  else
    let s := s.takeDescriptor n
    let id := dsc d 72 4
    if s.badDescriptor n d then (if s.ringFree n = 0 then s else s.malformed n d)
    else if s.cancels n id then (s.modRequest (id / 2 ^ 15) (fun q => { q with cancelled := true })).advanceHead n
    else (s.setReg Reg.SRV_CANCEL_MISS (s.reg Reg.SRV_CANCEL_MISS + 1)).advanceHead n

/-! ## The registers of a log -/

/-- Who may write SRV_LOGn: firmware, and the host driver during recovery (R373). -/
def State.byLogMasters (s : State) (m : Master) (o : Nat) (act : State → State) : State :=
  if s.reaches m o = false then s
  else match m with
  | .host f => if s.fnFrozen f then s else if s.flag Reg.SRV_STATUS.RECOVERING then act s else s.closedWrite f o
  | .firmware => act s
  | .rackManager => s
  | .security => s

/-- A write of SRV_LOGn_CTL (Table 15-13). A log that comes into service takes its watch lines, and one that leaves it holds them no
more (log 21). -/
def State.writeLogCtl (s : State) (n : Fin 64) (v : Word) : State :=
  let was := s.flag (Reg.SRV_LOG_CTL.EN n)
  let s := s.setReg (Reg.SRV_LOG_CTL n) (v &&& 0x80FFFF00)
  let s := if bitOf v.toNat 30 then s.setFlag (Reg.SRV_LOG_STAT.FROZEN n) false else s
  let now := bitOf v.toNat 31
  if was = now then s
  else if now then (if s.hostUp then (linesOf n).foldl State.takeLine s else s)
  else (linesOf n).foldl (fun s l => s.setLine l false false) s

def execSubmit (log : Fin 64) (desc : List Byte) (prompt : List Word) (stop : List Byte) (res : EndKind) (s : State) :
    Host.Outcome State Fault Refusal := .next (submit log desc prompt stop res s)
def execCancel (log : Fin 64) (desc : List Byte) (s : State) : Host.Outcome State Fault Refusal := .next (cancel log desc s)
def execLogRelease (m : Master) (log : Fin 64) (v : Word) (s : State) : Host.Outcome State Fault Refusal :=
  .next (if bitOf v.toNat 30 then s.byLogMasters m (Reg.SRV_LOG_CTL log) (·.writeLogCtl log v) else s)

end Sys2Proof.Machine
end

