-- ==== Sys2Proof/Machine/Compose.lean ====
section
/-! DEFINITION. Composing and admitting steps, deadlines and budget windows (R299, R361, R362, R364, R367, R403). -/
namespace Sys2Proof.Machine

/-! ## The end of a request -/

/-- A capture is released (R299, R300). -/
def State.uncapture (s : State) (c : CapturedSet) : State :=
  let n := s.wsCapt c.set c.slot
  let s := s.setReg (Reg.CFG_WS_CAPT c.set c.slot) (BitVec.ofNat 32 (n - 1))
  if n ≤ 1 ∧ c.slot ≠ s.wsCur c.set then s.setFreed c.set c.slot else s

/-- A generation is captured once more (R300). -/
def State.recapture (s : State) (c : CapturedSet) : State :=
  s.setReg (Reg.CFG_WS_CAPT c.set c.slot) (BitVec.ofNat 32 (s.wsCapt c.set c.slot + 1))

/-- The slot of a request becomes FREE, and its captures of R300 are released. -/
def State.freeRequest (s : State) (slot : Nat) : State :=
  let q := s.request slot
  (q.gens.foldl State.uncapture s).setRequest slot { Request.free with gen := q.gen }

/-- A request ends outside a commit: its END record is written. The spec gives such a record no commit stamp and no committing step, so both
are free (log 3). The journal knows that it ended (log 23). -/
def State.endRequest (s : State) (slot status reason : Nat) : State :=
  let q := s.request slot
  let v := s.fresh
  let s := { s with journal := { s.journal with ended := s.journal.ended ++ [(slot, q.gen)] } }
  (s.took.nextRecord q.log ⟨q.id slot, q.pos, 5, status, 0, 0, reason, v % 2 ^ 64, 0, v / 2 ^ 64 % 2 ^ 48⟩).freeRequest slot

/-- An EVENT record of a request (R367, R370), whose commit stamp is free (log 3). -/
def State.eventRecord (s : State) (slot status : Nat) : State :=
  let q := s.request slot
  s.took.nextRecord q.log ⟨q.id slot, q.pos, 4, status, 0, 0, 0, s.fresh % 2 ^ 64, 0, 0⟩

/-! ## Candidates -/

/-- The tokens that a request's prefill runs over: its prompt and what it has emitted (R362, R370). -/
def Request.work (r : Request) : Nat := r.prompt.length + r.emitted.length

/-- A pair of numbers in ascending order of keys, the lower slot first among equals. -/
def insertKey (x : Nat × Nat) : List (Nat × Nat) → List (Nat × Nat)
  | [] => [x]
  | y :: l => if x.1 < y.1 ∨ (x.1 = y.1 ∧ x.2 ≤ y.2) then x :: y :: l else y :: insertKey x l

/-- The slots of the requests that meet a test, by a key. -/
def State.slotsBy (s : State) (test : Request → Bool) (key : Request → Nat) : List Nat :=
  ((s.requests.filter (fun e => test e.2)).foldl (fun l e => insertKey (key e.2, e.1) l) []).map (·.2)

/-- The READY requests of a partition, oldest last commit first; its waiting prompts, in acceptance order. -/
def State.readySlots (s : State) (p : Nat) : List Nat :=
  s.slotsBy (fun r => r.state == .ready && s.reqPart r == p) (·.lastCommit.toNat)
def State.promptSlots (s : State) (p : Nat) : List Nat :=
  s.slotsBy (fun r => (r.state == .queued || r.state == .prefill) && s.reqPart r == p) (·.stamp.toNat)

/-- The account of a request has used its budget (R367). -/
def State.overBudget (s : State) (r : Request) : Bool :=
  let b := (s.reg (Reg.SRV_ACCT_BUDGET (r.account % 4096))).toNat
  s.flag Reg.SRV_CTRL.BUDGET_EN && b != 2 ^ 32 - 1 && decide (b ≤ (s.reg (Reg.SRV_ACCT_USED (r.account % 4096))).toNat)

/-- A request is HELD (R361, R367). -/
def State.hold (s : State) (slot : Nat) (ring : Bool) : State :=
  s.modRequest slot (fun r => { r with state := .held, heldReady := r.state == .ready, heldRing := ring })

/-! ## Composition -/

/-- A composition under way: the rows taken and how many tokens they hold. -/
structure Compose where
  s : State
  rows : List StepRow
  tokens : Nat

/-- A request that its ring or its budget keeps out of a step (R361, R367). -/
def State.keptOut (s : State) (slot : Nat) : Bool := decide (s.ringFree (s.request slot).log < 10) || s.overBudget (s.request slot)

/-- What becomes of a request that is to be taken: it is HELD for ring space or by its budget, or stands in the step. -/
def State.takeSlot (s : State) (slot : Nat) : State :=
  let q := s.request slot
  if s.ringFree q.log < 10 then (s.hold slot true).setFlag (Reg.SRV_LOG_STAT.OUT_WAIT q.log) true
  else if s.overBudget q then
    if q.deferred then s.hold slot false
    else ((s.hold slot false).eventRecord slot 7).modRequest slot (fun r => { r with deferred := true })
  else (s.reserve q.log 10).modRequest slot (fun r => { r with state := .inStep })

/-- A request is taken with `n` rows, or kept out. -/
def Compose.take (c : Compose) (slot pos n : Nat) (prompt : Bool) : Compose :=
  if c.s.keptOut slot then ⟨c.s.takeSlot slot, c.rows, c.tokens⟩
  else ⟨c.s.takeSlot slot, c.rows ++ [⟨slot, c.rows.length + 1, pos, n, prompt⟩], c.tokens + n⟩

/-- The rows of a decode request: one, and SPEC_K more for a speculative one (R362). -/
def Request.decodeRows (r : Request) : Nat := if r.spec then r.field 2 1 + 1 else 1

/-- Step 1 of R362. -/
def Compose.decode (bmax tmax : Nat) : List Nat → Compose → Compose
  | [], c => c
  | slot :: rest, c =>
    let q := c.s.request slot
    if bmax ≤ c.rows.length ∨ tmax < c.tokens + q.decodeRows then c
    else Compose.decode bmax tmax rest (c.take slot q.pos q.decodeRows false)

/-- Step 2 of R362: prompts in acceptance order while their remaining tokens fit; one longer than TOK_MAX runs alone. -/
def Compose.prefill (tmax : Nat) : List Nat → Compose → Compose
  | [], c => c
  | slot :: rest, c =>
    let q := c.s.request slot
    let left := q.work - q.done
    if tmax < left then (if c.rows.isEmpty then c.take slot q.done tmax true else c)
    else if tmax < c.tokens + left then c
    else Compose.prefill tmax rest (c.take slot q.done left true)

/-- A chunk limit of SRV_Pp_CHUNK as it acts. -/
def chunkLimit (v : Nat) : Nat := max 64 (min 8192 v)

/-- Step 3 of R362: one chunk of the oldest waiting prompt rides along. -/
def Compose.chunk (c : Compose) (p tmax : Nat) : Compose :=
  match c.s.promptSlots p with
  | [] => c
  | slot :: _ =>
    let s := c.s
    let q := s.request slot
    let since := q.stamp.toNat / 1024
    let aged := decide (since + s.fld (Reg.SRV_P_AGE.AGE_LIMIT p) < s.strike)
    let gap := decide (max since (s.part p).lastPrefill + s.fld (Reg.SRV_P_AGE.GAP_LIMIT p) ≤ s.strike)
    let left := q.work - q.done
    let n := min (chunkLimit (s.fld (Reg.SRV_P_CHUNK.CHUNK_MAX p))) (min (tmax - c.tokens) left)
    if (aged || gap) && n != 0 && (decide (chunkLimit (s.fld (Reg.SRV_P_CHUNK.CHUNK_MIN p)) ≤ n) || n == left) then
      c.take slot q.done n true
    else c

/-- The composition of a step of partition `p` (R362), and whether it is a prefill step. -/
def State.compose (s : State) (p : Nat) : Compose × Bool :=
  let tmax := s.fld (Reg.SRV_P_CAP.TOK_MAX p)
  let c := Compose.decode (min 4096 (s.fld (Reg.SRV_P_CAP.B_MAX p))) tmax (s.readySlots p) ⟨s, [], 0⟩
  if c.rows.isEmpty then (Compose.prefill tmax (c.s.promptSlots p) c, true) else (c.chunk p tmax, false)

/-! ## Admission -/

/-- Requests that were cancelled, or that are to end, and that no step holds end now (R356, R365); one whose ring has no room waits. -/
def State.endWaiting (s : State) (p : Nat) : State :=
  (s.slotsBy (fun r => r.live && r.state != .inStep && s.reqPart r == p && (r.cancelled || r.ending.isSome)) (fun _ => 0)).foldl
    (fun s slot =>
      let q := s.request slot
      if s.ringFree q.log = 0 then s
      else match q.ending with
        | some e => s.endRequest slot e.1 e.2
        | none => s.endRequest slot codeAborted 6) s

/-- The weight sets that firmware captures for a step: every VALID one of the partition, in ascending number (log 21). -/
def State.setsOf (s : State) (p : Nat) : List Nat := (List.range 512).filter (fun w => s.wsOf w p)

/-- CAPTURE of one set (R299). -/
def State.captureSet (s : State) (w : Nat) : CapturedSet :=
  ⟨w, s.wsCur w, BitVec.ofNat 32 (s.wsGen w (s.wsCur w)), BitVec.ofNat 64 (s.wsBase w (s.wsCur w))⟩

/-- A step may be admitted (R362, R382, R453). -/
def State.mayAdmit (s : State) (p : Nat) : Bool :=
  s.running p && s.hostUp && s.fld (Reg.SRV_P_CAP.TOK_MAX p) != 0 && !s.flag Reg.SRV_STATUS.RECOVERING &&
    (s.part p).steps.all (fun o => o.phase != .bad && o.phase != .rolled)

/-- A composed step is admitted: its captures are taken and its witness selection is written (R299, R362, R403). -/
def State.admitStep (s : State) (p : Nat) (rows : List StepRow) (prefill : Bool) : State :=
  let caps := (s.setsOf p).map s.captureSet
  let s := caps.foldl State.recapture s
  let n := (s.part p).nextStep
  let s := s.writeSelection p n
  s.modPart p (fun x => { x with
    nextStep := (n + 1) % 2 ^ 48
    lastPrefill := if prefill then s.strike else x.lastPrefill
    steps := x.steps ++ [⟨n, s.fld (Reg.PRT_P_STAT.RESIDENT p), rows, caps, .running, BitVec.ofNat 64 s.tick, 0, 0, 0, [], false⟩] })

/-- STEP_ADMISSION (R361, R362). -/
def stepAdmission (p : Nat) (s : State) : State :=
  if s.mayAdmit p = false then s
  else match (s.setsOf p).find? (fun w => s.wsCapt w (s.wsCur w) == 2 ^ 32 - 1) with
    | some w => s.admitError 2 ((s.setsOf p).findIdx (· == w))
    | none =>
      let c := (s.endWaiting p).compose p
      if c.1.rows.isEmpty then c.1.s else c.1.s.admitStep p c.1.rows c.2

/-! ## Deadlines and windows -/

/-- REQUEST_DEADLINE_CHECK (R364): a request whose ring has no room waits for the next boundary. -/
def requestDeadlineCheck (s : State) : State :=
  if s.live && s.onBoundary then
    (s.slotsBy (fun r => r.live && r.state != .inStep && decide (r.deadline ≤ s.strike)) (fun _ => 0)).foldl
      (fun s slot => if s.ringFree (s.request slot).log = 0 then s else s.endRequest slot codeStopped 1) s
  else s

/-- An account is charged; USED saturates (R367, Table 15-14). -/
def State.charge (s : State) (a n : Nat) : State :=
  let o := Reg.SRV_ACCT_USED (a % 4096)
  s.setReg o (BitVec.ofNat 32 (satAt (2 ^ 32 - 1) ((s.reg o).toNat + n)))

/-- The units that one request's part in a step costs (R367): its emitted tokens, and its prompt tokens in units of 2^PSHIFT. -/
def State.cost (s : State) (q : Request) (w : StepRow) (emitted : Nat) : Nat :=
  let n := if w.prompt then min (w.pos + w.rows) q.plen - min w.pos q.plen else 0
  emitted + ceilDiv n (2 ^ s.fld Reg.SRV_CTRL.PSHIFT)

/-- How many tokens of a request's result are committed (R364, R365). -/
def releasedCount (o : OpenStep) (slot : Nat) : Nat :=
  match o.results.find? (·.slot == slot) with
  | some r => min r.release r.emitted.length
  | none => 0

/-- The commit of a step is charged to the accounts of its requests, once. -/
def State.chargeStep (s : State) (p : Nat) (o : OpenStep) : State :=
  if o.charged then s
  else
    let s := (o.rows.filter (·.segment != 0)).foldl (fun s w =>
      let q := s.request w.slot
      s.charge q.account (s.cost q w (releasedCount o w.slot))) s
    s.modPart p (fun x => { x with steps := x.steps.map (fun y => if y.n = o.n then { y with charged := true } else y) })

/-- A step has decided GOOD and is not yet committed. -/
def StepPhase.commits : StepPhase → Bool
  | .committing _ => true
  | _ => false

/-- USED of every account at a roll (R367). -/
def State.rollAccounts (s : State) : State :=
  (List.range 4096).foldl (fun s a =>
    let u := (s.reg (Reg.SRV_ACCT_USED a)).toNat
    if u = 0 then s else s.setReg (Reg.SRV_ACCT_USED a) (BitVec.ofNat 32 (u - (s.reg (Reg.SRV_ACCT_BUDGET a)).toNat))) s

/-- A budget window ends at this tick, and its roll has not taken its turn (R35, R367). -/
def State.rollDue (s : State) : Bool :=
  s.live && s.place 4 && s.strike % s.budgetLen == 0 && s.strike != s.budgetStart

/-- A step's commit is stamped in the window that ends at this tick: a stamp of the boundary tick lies in the next one (R32). -/
def State.endedWith (s : State) (o : OpenStep) : Bool := o.phase.commits && decide (o.commitTick.toNat < s.tick)

/-- BUDGET_WINDOW_ROLL (R35, R367): commits stamped in the window that ends are charged to it first. -/
def budgetWindowRoll (s : State) : State :=
  if s.rollDue then
    let s := (List.range 12).foldl (fun s p =>
      ((s.part p).steps.filter s.endedWith).foldl (fun s o => s.chargeStep p o) s) s
    let s := s.rollAccounts.eachRequest (fun _ r =>
      let r := { r with deferred := false }
      if r.state = .held ∧ r.heldRing = false then r.unheld else r)
    { s with budgetStart := s.strike, budgetLen := max 1 (s.fld Reg.SRV_WIN.STRIKES), boundary := 4 }
  else s

def execRequestDeadlineCheck (s : State) : Host.Outcome State Fault Refusal := .next (requestDeadlineCheck s)
def execBudgetWindowRoll (s : State) : Host.Outcome State Fault Refusal := .next (budgetWindowRoll s)

end Sys2Proof.Machine
end

