-- ==== Sys2Proof/Machine/Power.lean ====
section
/-! DEFINITION. Bellows, Banking and the sensors (chapter 14). Powers are in units of 1/1,024 W (R334); Δ is one Strike. -/
namespace Sys2Proof.Machine

/-- A power of whole watts. -/
def watts (w : Nat) : Nat := w * 1024

/-- Who may write the PWR_ block: the rack manager, the host driver and Foreman firmware (R337). -/
def State.byPower (s : State) (m : Master) (act : State → State) : State :=
  if s.reaches m Reg.PWR_CAP = false then s
  else match m with
  | .firmware => act s
  | .rackManager => act s
  | .security => s
  | .host f => if s.fnFrozen f then s else act s

/-- An event of Table 14-2 with its stamp. -/
def State.powerEvent (s : State) (kind stamp : Nat) : State :=
  let s := s.setReg64 Reg.PWR_EVT_TICK_LO stamp
  ((s.setFlag Reg.PWR_EVT_KIND.VALID true).setFld Reg.PWR_EVT_KIND.KIND kind).interruptIf (s.flag Reg.PWR_CTRL.INT_EN) 348

/-- The change that a rate in W/ms allows in one Strike of 10.24 µs: 10.48576 units of 1/1,024 W for each W/ms, rounded down. A
rate of 0 acts as 1 (R334, Table 14-8; log 18). -/
def rampStep (rate : Nat) : Nat := max 1 rate * 1048576 / 100000

/-- The same rounded up, so that a target that falls by it is rounded down. -/
def rampFall (rate : Nat) : Nat := ceilDiv (max 1 rate * 1048576) 100000

def State.upStep (s : State) : Nat := rampStep (s.fld Reg.PWR_RAMP.UP)
def State.downStep (s : State) : Nat := rampFall (s.fld Reg.PWR_RAMP.DOWN)

/-- A cap as it acts: 400 W at the least and 3,000 W at the most (R337, Table 14-8). -/
def capWatts (w : Nat) : Nat := max 400 (min 3000 w)

def State.failsafe (s : State) : Nat := watts (capWatts (s.fld Reg.PWR_SAFE.FAILSAFE))

/-- The f-cycles of a tick (R16). -/
def cyclesPerTick : Nat := 18

/-! ## Measuring -/

/-- The mean of a Strike's 8 products, from units of 10 µW (R333; rounded down, log 18). -/
def meanPower (samples : List Nat) : Nat := samples.sum * 1024 / (samples.length * 100000)

/-- The 128-tick period in which a sample falls: of the tick counter once the module is aligned, of its own clock before (R26, R333). -/
def State.samplePeriod (s : State) : Bool × Nat :=
  let aligned := s.flag Reg.TIME_STATUS.ALIGNED
  (aligned, if aligned then s.tick / 128 else s.fcycles / (128 * cyclesPerTick))

/-- The samples held of the Strike in which a period lies. -/
def Power.ofStrike (x : Power) (k : Bool × Nat) : List Nat :=
  match x.sampled with
  | some y => if y.1 = k.1 ∧ y.2 / 8 = k.2 / 8 then x.samples else []
  | none => []

/-- POWER_SAMPLE (R333): one sample each 128 ticks; the eighth of a Strike gives P(n), which joins the energy count. The sensors run on after a trip
(R345). -/
def powerSample (mv tenMa : Nat) (s : State) : State :=
  let k := s.samplePeriod
  if s.pins.powered = false ∨ s.power.sampled = some k then s
  else
    let s := (s.setReg (Reg.PWR_SENS 28) (BitVec.ofNat 32 (2 ^ 31 + mv))).setReg (Reg.PWR_SENS 29) (BitVec.ofNat 32 (2 ^ 31 + tenMa))
    let l := s.power.ofStrike k ++ [mv * tenMa]
    if l.length < 8 then { s with power := { s.power with sampled := some k, samples := l } }
    else
      let p := meanPower l
      let e := s.power.energyRest + p
      let s := { s with power := { s.power with sampled := some k, samples := [], history := (p :: s.power.history).take 1953, energyRest := e % 100000 } }
      s.add64 Reg.PWR_ENERGY_LO (e / 100000)

/-- Does some sensor from `lo` to `hi` read at or above `v` eighths of a degree? -/
def anyAbove (v : List (BitVec 16)) (lo n : Nat) (limit : Int) : Bool :=
  ((v.drop lo).take n).any (fun x => decide (limit ≤ x.toInt))

/-- A junction sensor at or above `j` °C or an HBM3E sensor at or above `h` °C. -/
def hotter (v : List (BitVec 16)) (j h : Int) : Bool := anyAbove v 0 14 (8 * j) || anyAbove v 14 12 (8 * h)

/-- Every sensor at or below its throttle-end value: none is an eighth of a degree above it. -/
def cooled (v : List (BitVec 16)) : Bool := !(anyAbove v 0 14 (8 * 98 + 1) || anyAbove v 14 12 (8 * 93 + 1))

/-- A condition that comes with an event when it begins. -/
def State.condition (s : State) (f : Field) (now : Bool) (event : Nat) : State :=
  let s' := s.setFlag f now
  if now && !s.flag f then s'.powerEvent event s.tick else s'

/-- TEMPERATURE_SAMPLE: the readings are shown and compared with the thresholds of Table 14-3 (R343, R344). -/
def temperatureSample (v : List (BitVec 16)) (s : State) : State :=
  if s.pins.powered = false then s
  else
    let s := (List.range 28).foldl (fun s n => s.setReg (Reg.PWR_SENS n) (BitVec.ofNat 32 (2 ^ 31 + (v.getD n 0).toNat))) s
    let start := hotter v 100 95
    let s := if start && !s.flag Reg.PWR_STATUS.THROTTLE then { s with power := { s.power with theta := s.power.target } } else s
    let s := if start then s.condition Reg.PWR_STATUS.THROTTLE true 6 else s
    let s : State := { s with power := { s.power with
      recovering := !start && (s.power.recovering || cooled v)
      tjTick := if hotter v 105 100 && !s.power.tjMax then BitVec.ofNat 64 s.tick else s.power.tjTick
      tjMax := hotter v 105 100 || (s.power.tjMax && !cooled v) } }
    let s := s.setFlag Reg.PWR_STATUS.TJ_MAX s.power.tjMax
    let s := s.condition Reg.PWR_STATUS.COOLANT_ALERT (anyAbove v 27 1 (8 * 65)) 8
    s.condition Reg.PWR_STATUS.INLET_HIGH (anyAbove v 26 1 (8 * 40 + 1)) 9

/-! ## Caps, leases and alerts -/

/-- A write of PWR_CAP: a cap write, stamped on arrival (R337). -/
def State.writeCap (s : State) (v : Word) : State :=
  let w := bits v.toNat 0 12
  let s := s.setFld Reg.PWR_CAP.WATTS w
  let now := BitVec.ofNat 64 s.tick
  { s with power := { s.power with
    capStamp := some now
    pendingCaps := s.power.pendingCaps ++ [(now, capWatts w)] } }

/-- LEASE_LAPSE (R340): the first boundary at or after the stamp of the last cap write plus the lease, which is 1,000 Strikes at
the least. -/
def leaseLapse (s : State) : State :=
  match s.power.capStamp with
  | none => s
  | some st =>
    if s.on ∧ s.onBoundary ∧ s.boundary < 2 ∧ s.flag Reg.PWR_STATUS.LEASE_LAPSED = false ∧
        st.toNat + 1024 * max 1000 (s.fld Reg.PWR_LEASE.STRIKES) ≤ s.tick then
      { (s.setFlag Reg.PWR_STATUS.LEASE_LAPSED true).powerEvent 4 s.tick with boundary := 1 }
    else s

/-- ALERT_ASSERT (R340). -/
def alertAssert (s : State) : State :=
  if s.on = false ∨ s.power.alert = true then s
  else { s.setFlag Reg.PWR_STATUS.ALERT true with
    power := { s.power with alert := true, alertPulse := true, alertTick := BitVec.ofNat 64 s.tick } }

/-- ALERT_RELEASE (R340). An alert that its power step has not yet seen still applies at that step. -/
def alertRelease (s : State) : State :=
  if s.on = false ∨ s.power.alert = false then s
  else { s.setFlag Reg.PWR_STATUS.ALERT false with power := { s.power with alert := false } }

/-! ## The power step -/

/-- Cap writes that take effect at a step: those stamped before its boundary (R337). -/
def State.dueCaps (s : State) : List (DWord × Nat) := s.power.pendingCaps.filter (fun c => decide (c.1.toNat < s.tick))

/-- A hard cap that applies (Table 14-1): its value, the kind of the event it brings when it overrides the ramp, and the tick of its
cause. -/
structure HardCap where
  value : Nat
  event : Nat
  cause : Nat

/-- The lower of two caps; the first of equals. -/
def HardCap.least (a b : HardCap) : HardCap := if b.value < a.value then b else a

/-- C_hard(n) with its cause, when the rack cap is `rack` W, written at tick `stamp`. -/
def State.hardCap (s : State) (rack stamp : Nat) : HardCap :=
  let c := ⟨watts rack, 1, stamp⟩
  let c := if s.power.alert || s.power.alertPulse then
    c.least ⟨watts (capWatts (s.fld Reg.PWR_SAFE.ALERT_CAP)), 2, s.power.alertTick.toNat⟩ else c
  if s.power.tjMax then c.least ⟨s.failsafe, 3, s.power.tjTick.toNat⟩ else c

/-- C_soft(n) without the throttle limit. -/
def State.leaseCap (s : State) : Option Nat := if s.flag Reg.PWR_STATUS.LEASE_LAPSED then some s.failsafe else none

/-- The lesser of a number and one that may be absent. -/
def capBy (a : Nat) : Option Nat → Nat
  | none => a
  | some b => min a b

/-- Θ at a step (R344): it falls while a sensor is at or above its throttle start, rises once all are at or below their
throttle-end values, and throttling ends when it reaches the least of the other caps. -/
def State.throttleStep (s : State) (others : Nat) : State :=
  if s.flag Reg.PWR_STATUS.THROTTLE = false then s
  else if s.power.recovering then
    let th := s.power.theta + s.upStep
    if others ≤ th then ((s.setFlag Reg.PWR_STATUS.THROTTLE false).powerEvent 7 s.tick)
    else { s with power := { s.power with theta := th } }
  else if hotter ((List.range 26).map (fun n => (s.reg (Reg.PWR_SENS n)).setWidth 16)) 100 95 then
    { s with power := { s.power with theta := s.power.theta - s.downStep } }
  else s

/-- Bound 2 of R334. -/
def softBound (soft : Option Nat) (p down : Nat) : Option Nat := soft.map (fun c => max c (p - down))

/-- T(n) (R334): the least of the four bounds, by C_hard, C_soft, P(n − 1), the ramp steps and the sum of P over the 1,952 Strikes
before n. -/
def targetOf (hard : Nat) (soft : Option Nat) (p up down sum : Nat) : Nat :=
  let c := capBy hard soft
  capBy (min (min hard (p + up)) (c * 1953 - sum)) (softBound soft p down)

/-- FLOOR_CLIPPED at a step (R339). -/
def State.floorStep (s : State) (c : Nat) : State :=
  let clipped := decide (c < watts (s.fld Reg.PWR_FLOOR.WATTS))
  s.condition Reg.PWR_STATUS.FLOOR_CLIPPED clipped 5

/-- Banking at a step (R342): the Strike that ends is compared with its envelope, and the next envelope is set. -/
def State.bankStep (s : State) (c p t : Nat) : State :=
  let on := s.fld Reg.PWR_BANK.STATE == 2
  let s := if on && decide (p < s.power.envelope) then (s.setFlag Reg.PWR_BANK.SHORT true).powerEvent 10 s.tick else s
  let f := min (watts (s.fld Reg.PWR_FLOOR.WATTS)) c
  { s with power := { s.power with envelope := if on then min t (max f (p - s.downStep)) else 0 } }

/-- The place in the history of the oldest of the last 195 Strikes with P above a cap; none while there are fewer. -/
def oldestAbove (c : Nat) (history : List Nat) : Option Nat :=
  ((List.range history.length).filter (fun i => decide (c < history.getD i 0)))[194]?

/-- Bursts at a step (R341): 195 Strikes of the last 1,953 above C(n) refuse further burst credit until the oldest of them leaves the
window, which is counted in steps. -/
def State.burstStep (s : State) (c : Nat) : State :=
  let s := { s with power := { s.power with burstWait := s.power.burstWait - 1 } }.setFlag Reg.PWR_STATUS.BURST false
  if s.power.burstWait ≠ 0 ∨ s.flag Reg.PWR_CTRL.PEAK_EN = false then s
  else match oldestAbove c s.power.history with
    | none => s
    | some i =>
      let s := (s.satFld Reg.PWR_OVR_CNT.PEAK 1).powerEvent 11 s.tick
      { s with power := { s.power with burstWait := 1953 - i } }

/-- The weights of the energy estimate are scaled by the ratio of the measured power to the estimate of the Strike that ends (R333). The
ratio to an estimate of nothing is not stated: free (log 3). -/
def State.rescale (s : State) (p : Nat) : State :=
  let e := s.power.estimate
  if e = 0 then { s.took with power := { s.power with scaleNum := s.fresh, scaleDen := 1 } }
  else
    let a := s.power.scaleNum * (p * 1024)
    let b := s.power.scaleDen * e
    let g := Nat.gcd a b
    { s with power := { s.power with estimate := 0, scaleNum := a / g, scaleDen := b / g } }

/-- PWR_TARGET and PWR_MEAS of a step. -/
def State.showPower (s : State) (c t p : Nat) : State :=
  let s := (s.setFld Reg.PWR_TARGET.CAP (c / 1024)).setFld Reg.PWR_TARGET.WATTS (t / 1024)
  (s.setFld Reg.PWR_MEAS.LAST (p / 1024)).setFld Reg.PWR_MEAS.AVG20 (s.power.history.sum / 1953 / 1024)

/-- The last measured Strike mean; where none has been measured it is not stated: free (log 3). -/
def State.lastPower (s : State) : Nat := s.power.history.headD (s.fresh % 2 ^ 22)

/-- The caps of a step are formed from every cap write, lease expiry, alert and junction reading before it, and the target, the floor,
Banking, the bursts and the estimate follow (R334 to R344). -/
def State.stepCaps (s : State) : State :=
  let p := s.lastPower
  let s := if s.power.history.isEmpty then s.took else s
  let due := s.dueCaps
  let rack := (due.getLast?.map (·.2)).getD s.power.rackCap
  let stamp := (due.getLast?.map (·.1.toNat)).getD s.tick
  let s := if due.isEmpty then s else s.setFlag Reg.PWR_STATUS.LEASE_LAPSED false
  let hard := s.hardCap rack stamp
  let s := s.throttleStep (capBy hard.value s.leaseCap)
  let soft := if s.flag Reg.PWR_STATUS.THROTTLE then some (capBy s.power.theta s.leaseCap) else s.leaseCap
  let c := capBy hard.value soft
  let t := targetOf hard.value soft p s.upStep s.downStep (s.power.history.take 1952).sum
  let s := ((s.floorStep c).bankStep c p t).burstStep c
  let s := if hard.value < s.power.hardCap ∧ hard.value < p then
    ((s.setFlag Reg.PWR_STATUS.RAMP_OVR true).satFld Reg.PWR_OVR_CNT.RAMP 1).powerEvent hard.event hard.cause else s
  let s := (s.rescale p).showPower c t p
  { s with power := { s.power with
    target := t
    capNow := c
    rackCap := rack
    hardCap := hard.value
    pendingCaps := s.power.pendingCaps.filter (fun x => decide (s.tick ≤ x.1.toNat))
    alertPulse := false } }

/-- POWER_STEP: once at each Strike boundary after alignment, in its place in the order of R35. A hard cap below the draw sets the target
at once (R338), and a fall of the demand is not held back (R336). -/
def powerStep (s : State) : State :=
  if s.on ∧ s.onBoundary ∧ s.boundary < 2 then
    let s := s.setFlag Reg.PWR_STATUS.ALIGNED_WAIT false
    { s.stepCaps with boundary := 2 }
  else s

/-! ## Credit -/

/-- The credit of a tick: T(n), or the fail-safe cap before the first power step (R335, R340). -/
def State.tickCredit (s : State) : Nat := if s.flag Reg.PWR_STATUS.ALIGNED_WAIT then s.failsafe else s.power.target

/-- H of R341: what may be spent in a tick above its credit; none while bursts are not allowed. -/
def State.burstHead (s : State) : Nat :=
  if s.flag Reg.PWR_CTRL.PEAK_EN ∧ s.flag Reg.PWR_STATUS.ALIGNED_WAIT = false then min (watts 600) (watts 3600 - s.power.target) else 0

/-- A hard cap other than the rack cap, a lapsed lease or throttling empties the burst store (R341). -/
def State.burstBarred (s : State) : Bool :=
  s.power.alert || s.power.alertPulse || s.power.tjMax || s.flag Reg.PWR_STATUS.LEASE_LAPSED || s.flag Reg.PWR_STATUS.THROTTLE

/-- A pool is dealt out in order, to each at most what it still wants. -/
def deal : Nat → List Nat → List Nat
  | _, [] => []
  | r, w :: l => min w r :: deal (r - w) l

/-- What a partition has wanted and got of a tick's credit (R335). It is refused where it got less; when in the tick is free. -/
def withheldOf (free p want got : Nat) : Option Withheld :=
  if want ≤ got then none
  else if got = 0 then some ⟨p, 0, true⟩
  else some ⟨p, free / 2 ^ (32 * 13 + 8 * p) % cyclesPerTick, false⟩

/-- Bellows releases a tick's credit (R335, R341): each running partition gets what it wants of its share by bays, what it leaves passes to the
others and to the work of no partition, and then to Banking, up to the lower envelope (R342). Above T(n) it comes from the burst store. The
class weights of the energy estimate are fixed at manufacture and not stated, so what each wants is free (log 18). -/
def State.releaseCredit (s : State) : State :=
  let t := s.tickCredit
  let h := if s.burstBarred then 0 else s.burstHead
  let store := if s.burstBarred then 0 else min s.power.burst (h * 200000)
  let grant := if s.power.burstWait ≠ 0 then 0 else min h store
  let ps := (List.range 12).filter s.running
  let bays := max 1 (ps.map s.partCount).sum
  let want := fun (k : Nat) => s.fresh / 2 ^ (32 * k) % 2 ^ 32
  let own := ps.map (fun p => min (want p) (t * s.partCount p / bays))
  let more := deal (t + grant - own.sum) (((ps.zip own).map (fun x => want x.1 - x.2)) ++ [want 12])
  let spent := own.sum + more.sum
  let banked := if s.fld Reg.PWR_BANK.STATE = 2 ∧ s.flag Reg.PWR_STATUS.ALIGNED_WAIT = false then min (t - spent) (s.power.envelope - spent) else 0
  let withheld := (ps.zip (own.zip more)).filterMap (fun x => withheldOf s.fresh x.1 (want x.1) (x.2.1 + x.2.2))
  let s := if t < spent then s.setFlag Reg.PWR_STATUS.BURST true else s
  { s.took with power := { s.power with
    credit := t
    spent := spent
    banked := banked
    withheld := withheld
    estimate := s.power.estimate + spent + banked
    burst := min (h * 200000) (store + t - spent - banked) } }

/-! ## Trip -/

/-- THERMTRIP (R345): every tile stops, every port is disabled without a drain, and the dies and the stacks lose power. -/
def thermtrip (sensor : Nat) (v : BitVec 16) (s : State) : State :=
  if s.on = false ∨ v.toInt < 8 * (if sensor < 14 then 118 else 110) then s
  else
    let s := (List.range 5).foldl (fun s n => (s.clearPending (enPort n)).setFld (enPort n).state 0) s
    let s := (List.range' 16 10).foldl (fun s u => (s.clearPending (enTier u)).setFld (enTier u).state 0) s
    let s := s.setFlag Reg.PWR_STATUS.THERMTRIP true
    { s with pins := { s.pins with railsOn := false, faultPin := true, thermtripPin := true } }

/-! ## Banking -/

def enBanking : EnFields := ⟨Reg.PWR_BANK.STATE, Reg.PWR_BANK.ENABLE_PENDING, Reg.PWR_BANK.DISABLE_PENDING⟩

/-- A write of PWR_BANK: SHORT is W1C, then EN and DIS act (R342, R377). -/
def State.writePwrBank (s : State) (v : Word) : State :=
  let s := if bitOf v.toNat 27 then s.setFlag Reg.PWR_BANK.SHORT false else s
  if s.on then s.enDis enBanking (bitOf v.toNat 0) (bitOf v.toNat 1) else s

/-! ## The rows -/

def execCapWrite (m : Master) (v : Word) (s : State) : Host.Outcome State Fault Refusal := .next (s.byPower m (·.writeCap v))
def execPwrLock (m : Master) (v : Word) (s : State) : Host.Outcome State Fault Refusal :=
  .next (s.byPower m (·.writeLock Reg.PWR_LOCK.LOCK v))
def execPowerStep (s : State) : Host.Outcome State Fault Refusal := .next (powerStep s)
def execLeaseLapse (s : State) : Host.Outcome State Fault Refusal := .next (leaseLapse s)
def execAlertAssert (s : State) : Host.Outcome State Fault Refusal := .next (alertAssert s)
def execAlertRelease (s : State) : Host.Outcome State Fault Refusal := .next (alertRelease s)
def execPowerSample (mv tenMa : BitVec 16) (s : State) : Host.Outcome State Fault Refusal :=
  .next (powerSample mv.toNat tenMa.toNat s)
def execTemperatureSample (v : List (BitVec 16)) (s : State) : Host.Outcome State Fault Refusal := .next (temperatureSample v s)
def execThermtrip (sensor : Fin 26) (v : BitVec 16) (s : State) : Host.Outcome State Fault Refusal := .next (thermtrip sensor v s)
def execBankEnable (m : Master) (v : Word) (s : State) : Host.Outcome State Fault Refusal :=
  .next (if bitOf v.toNat 0 then s.byPower m (·.writePwrBank v) else s)
def execBankDisable (m : Master) (v : Word) (s : State) : Host.Outcome State Fault Refusal :=
  .next (if bitOf v.toNat 1 then s.byPower m (·.writePwrBank v) else s)

end Sys2Proof.Machine
end

