-- ==== Sys2Proof/Machine/Cxl.lean ====
section
/-! DEFINITION. The enabling and disabling of the tiers, and the module and pool ports of CXL (R202, R208, R377, R439, R444 to R448). Port n is
0 to 7 for WARM0 to WARM7 and 8 or 9 for POOL0 and POOL1 (R449). -/
namespace Sys2Proof.Machine

/-- The TIER_ register of a CXL port (R438, Table 19-1). -/
def unitCxl (n : Nat) : Nat := 16 + n

def State.tierState (s : State) (u : Nat) : Nat := s.fld (Reg.TIER_UNIT.STATE u)

/-- A tier becomes DEGRADED (R202, R208). -/
def State.degrade (s : State) (u : Nat) : State :=
  if s.flag (Reg.TIER_UNIT.DEGRADED u) then s
  else (s.setFlag (Reg.TIER_UNIT.DEGRADED u) true).interruptIf (s.flag Reg.TIER_CTRL.INT_EN) 208

/-- A tier that leaves OFF is DEGRADED and isolated no more (R208, R447). The tick in which a port begins ENABLING is kept (R439). -/
def State.leaveOff (s : State) (u : Nat) : State :=
  let s := s.setFlag (Reg.TIER_UNIT.DEGRADED u) false
  if 16 ≤ u then
    { s.setFlag (Reg.CXL_PORT_STAT.ISOLATED (u - 16)) false with
      enabledAt := Sparse.set (fun _ => 0) s.enabledAt u (BitVec.ofNat 64 s.tick) }
  else s

/-- A write of a TIER_ register: the error counts are cleared whole, then EN and DIS act (Table 09-22). -/
def State.writeTier (s : State) (u : Nat) (v : Word) : State :=
  let s := if bits v.toNat 16 8 ≠ 0 then s.setFld (Reg.TIER_UNIT.UE u) 0 else s
  let s := if bits v.toNat 8 8 ≠ 0 then s.setFld (Reg.TIER_UNIT.CE u) 0 else s
  let was := s.tierState u
  if s.live then
    let s := s.enDis (enTier u) (bitOf v.toNat 0) (bitOf v.toNat 1)
    if was = 0 ∧ bitOf v.toNat 0 then s.leaveOff u else s
  else s

/-- The link of a port is up no more. -/
def State.linkGone (s : State) (n : Nat) : State :=
  let s := ((s.setFlag (Reg.CXL_PORT_STAT.TRAINED n) false).setFlag (Reg.CXL_PORT_STAT.LATOPT n) false)
  (s.setFld (Reg.CXL_PORT_STAT.WIDTH n) 0).setFld (Reg.CXL_PORT_STAT.RATE n) 0

/-- A port trains at x16 or x8, and at 64 or 32 GT/s (R439). -/
def linkOk (width rate : Nat) : Bool := (width == 16 || width == 8) && (rate == 64 || rate == 32)

/-- A port has trained within 100 Strikes of entering ENABLING (R439). -/
def State.inTime (s : State) (u : Nat) : Bool := decide (s.tick ≤ (Sparse.get (fun _ => 0) s.enabledAt u).toNat + 102400)

/-! ## The end of ENABLING and DISABLING (R377) -/

/-- A tier enters ENABLING again from DISABLING through OFF. -/
def State.tierDone (s : State) (u : Nat) : State :=
  let s := s.workDone (enTier u)
  if s.tierState u = 1 then s.leaveOff u else s

/-- A stack's work ends (R208, R459). -/
def State.stackDone (s : State) (b : Nat) (ok : Bool) : State :=
  let u := unitHot b
  match s.tierState u with
  | 1 => if ok then s.workDone (enTier u) else (s.workFailed (enTier u)).degrade u
  | 3 => if s.hearthFills.any (·.bay == b) then s else s.tierDone u
  | _ => s

/-- The link and the capacity of a port that has trained (R207, R439, R444). -/
def State.linkFound (s : State) (n width rate : Nat) (latOpt : Bool) (mib : Nat) : State :=
  let s := s.setFlag (Reg.CXL_PORT_STAT.TRAINED n) true
  let s := s.setFlag (Reg.CXL_PORT_STAT.LATOPT n) (latOpt && s.flag Reg.CXL_CTRL.LAT_OPT)
  let s := (s.setFld (Reg.CXL_PORT_STAT.WIDTH n) width).setFld (Reg.CXL_PORT_STAT.RATE n) rate
  if n < 8 then s.setFld (Reg.TIER_WARM_CAP.MIB n) (min mib 0x100000) else s

/-- A warm or pool port's work ends; DISABLING ends once every access issued has completed (R208, R439). -/
def State.cxlDone (s : State) (n : Nat) (w : WorkEnd) : State :=
  let u := unitCxl n
  match s.tierState u, w with
  | 1, .done width rate latOpt mib =>
    if linkOk width rate && s.inTime u then (s.linkFound n width rate latOpt mib).workDone (enTier u) else s.workFailed (enTier u)
  | 1, .failed => s.workFailed (enTier u)
  | 3, _ => if s.outstanding.any (·.port == n) then s else (s.linkGone n).tierDone u
  | _, _ => s

/-- Did the work succeed? -/
def endedWell : WorkEnd → Bool
  | .done _ _ _ _ => true
  | .failed => false

/-- PARTITION_STATE_DONE: the work of a block's ENABLING or DISABLING ends. -/
def stateDone (b : EnBlock) (w : WorkEnd) (s : State) : State :=
  if s.live = false then s
  else match b with
    | .partition p => s.partStateDone p (endedWell w)
    | .stack b => s.stackDone b (endedWell w)
    | .warm n => s.cxlDone n w
    | .cold n => s.cxlDone (8 + n) w
    | .banking => if endedWell w then s.workDone enBanking else s.workFailed enBanking

/-- The TIER_ register that a tier's row names; none for a block that is no tier. -/
def tierUnit : EnBlock → Option Nat
  | .stack b => some (unitHot b)
  | .warm n => some (unitWarm n)
  | .cold n => some (unitCold n)
  | .partition _ => none
  | .banking => none

/-- A write of a TIER_ register as the row of EN or DIS. -/
def State.tierRow (s : State) (m : Master) (b : EnBlock) (bit : Nat) (v : Word) : State :=
  match tierUnit b with
  | some u => if bitOf v.toNat bit then s.byFirmware m (Reg.TIER_UNIT u) (·.writeTier u v) else s
  | none => s

/-- STACK_TRAINING_LOST (R202). -/
def stackTrainingLost (b : Nat) (s : State) : State :=
  if s.live && decide (2 ≤ s.tierState (unitHot b)) then s.degrade (unitHot b) else s

/-! ## Partners (R446 to R448) -/

/-- Every access outstanding on a port ends with kind TIER. -/
def State.endPort (s : State) (n : Nat) : State :=
  (s.outstanding.filter (·.port == n)).foldl (fun s o => s.accessEnd o [] false 0x20) { s with outstanding := s.outstanding.filter (·.port != n) }

/-- A port is isolated (R447). -/
def State.isolate (s : State) (n : Nat) : State :=
  let u := unitCxl n
  if s.tierState u = 0 ∨ s.flag (Reg.CXL_PORT_STAT.ISOLATED n) = true then s
  else
    let s := (s.setFlag (Reg.CXL_PORT_STAT.ISOLATED n) true).degrade u
    let s := if s.tierState u = 1 then (s.linkGone n).workFailed (enTier u) else s.disWritten (enTier u)
    (s.endPort n).interruptIf (s.flag Reg.CXL_CTRL.INT_EN) 447

/-- A partner's violation is counted, and isolates the port at the limit of a period (R446, R447). -/
def State.cxlViolation (s : State) (n : Nat) : State :=
  let now := s.tick / 2 ^ 20
  let x := Sparse.get (fun _ => (0, 0)) s.cxlViolations n
  let c := if x.2 = now then x.1 + 1 else 1
  let s := s.satFld (Reg.CXL_PORT_ERR.VIOL n) 1
  let s : State := { s with cxlViolations := Sparse.set (fun _ => (0, 0)) s.cxlViolations n (c, now) }
  if max 1 (s.fld Reg.CXL_CTRL.VIOL_LIMIT) ≤ c then s.isolate n else s

/-- An access outstanding on a port, which was sent. -/
def State.cxlAccess (s : State) (n tag : Nat) : Option Outstanding := s.outstanding.find? (fun o => o.port == n && o.sent && o.tag == tag)

/-- PARTNER_RESPONSE (R446, R448). No access of the module waits for a tag on the host link (port 10): what arrives there is discarded and
counted. -/
def partnerResponse (n tag : Nat) (res : EndKind) (lengthOk : Bool) (s : State) : State :=
  if s.live = false then s
  else if n = 10 then
    if s.flag Reg.CXL_HOST_STAT.TRAINED then (s.satFld Reg.CXL_HOST_ERR.VIOL 1).setFlag Reg.CXL_STATUS.HOST_VIOL true else s
  else if s.flag (Reg.CXL_PORT_STAT.TRAINED n) = false then s
  else match s.cxlAccess n tag with
    | none => s.cxlViolation n
    | some o =>
      if lengthOk = false ∧ opWrites o.op = false then (s.accessEnd o [] false 0x20).cxlViolation n
      else match res with
        | .ok => s.accessEnd o [] false 0
        | .poison => (s.satFld (Reg.CXL_PORT_ERR.POISON_RX n) 1).accessEnd o [] true 0
        | .tier => s.accessEnd o [] false 0x20

/-- CPL_TIMEOUT (R446). -/
def cplTimeout (n tag : Nat) (s : State) : State :=
  match s.cxlAccess n tag with
  | none => s
  | some o =>
    if o.issued.toNat + 1024 * max 1 (s.fld Reg.CXL_CTRL.CPL_TO) ≤ s.tick then
      ((s.satFld (Reg.CXL_PORT_ERR.TIMEOUT n) 1).accessEnd o [] false 0x20).cxlViolation n
    else s

/-- SURPRISE_LINK_DOWN (R447): it counts as an isolation. -/
def surpriseLinkDown (n : Nat) (s : State) : State :=
  if s.live && s.flag (Reg.CXL_PORT_STAT.TRAINED n) then (s.linkGone n).isolate n else s

/-! ## The rows -/

def execPartitionStateDone (b : EnBlock) (w : WorkEnd) (s : State) : Host.Outcome State Fault Refusal := .next (stateDone b w s)
def execTierEnable (m : Master) (b : EnBlock) (v : Word) (s : State) : Host.Outcome State Fault Refusal := .next (s.tierRow m b 0 v)
def execTierDisable (m : Master) (b : EnBlock) (v : Word) (s : State) : Host.Outcome State Fault Refusal := .next (s.tierRow m b 1 v)
def execStackTrainingLost (b : Fin 12) (s : State) : Host.Outcome State Fault Refusal := .next (stackTrainingLost b s)
def execPartnerResponse (port : Fin 11) (tag : Nat) (res : EndKind) (lengthOk : Bool) (s : State) :
    Host.Outcome State Fault Refusal := .next (partnerResponse port tag res lengthOk s)
def execCplTimeout (port : Fin 10) (tag : Nat) (s : State) : Host.Outcome State Fault Refusal := .next (cplTimeout port tag s)
def execSurpriseLinkDown (port : Fin 10) (s : State) : Host.Outcome State Fault Refusal := .next (surpriseLinkDown port s)
def execCxlLock (m : Master) (v : Word) (s : State) : Host.Outcome State Fault Refusal :=
  .next (s.byFirmwareOrRack m Reg.CXL_LOCK (·.writeLock Reg.CXL_LOCK.LOCK v))

end Sys2Proof.Machine
end

