-- ==== Sys2Proof/Machine/Verdict.lean ====
section
/-! DEFINITION. Step ends, verdicts, commits, rollback and replay (R260, R261, R365, R366, R399, R404, R405, R411 to R417). -/
namespace Sys2Proof.Machine

/-! ## Verdict groups -/

def State.vgEn (s : State) (p : Nat) : Bool := s.flag (Reg.SLG_P_VCTRL.VG_EN p) && s.flag Reg.SLG_CTRL.VERDICT_EN
def State.vgrp (s : State) (p : Nat) : Nat := s.fld (Reg.SLG_P_VCTRL.VGRP p)

/-- The other members of a partition's verdict group (R412). -/
def State.peers (s : State) (p : Nat) : List Nat :=
  if s.vgEn p then (s.members (s.vgrp p)).filter (· != s.ownLogical) else []

/-- The body of a verdict (Table 17-5): code 1 GOOD, 2 BAD, 3 DECIDED_BAD, 4 COMMITTED. -/
def verdictBody (n code group tick cause : Nat) : List Byte :=
  natLE 6 n ++ natLE 1 code ++ natLE 1 group ++ natLE 8 tick ++ natLE 1 cause ++ natLE 15 0

/-- A verdict goes to a member on the VERDICT channel (R319, R412). -/
def State.sendVerdict (s : State) (p n code cause : Nat) (tick : DWord) (m : Nat) : State :=
  s.sendPacket (s.l2p m) (ringVc 0) 4 0 32 0 (verdictBody n code (s.vgrp p) tick.toNat cause)

def State.sendVerdicts (s : State) (p n code cause : Nat) (tick : DWord) : State :=
  (s.peers p).foldl (fun s m => s.sendVerdict p n code cause tick m) s

/-! ## Decisions -/

def State.setSteps (s : State) (p : Nat) (l : List OpenStep) : State := s.modPart p (fun x => { x with steps := l })
def State.openStep (s : State) (p n : Nat) : Option OpenStep := (s.part p).steps.find? (fun o => o.n == n && o.open_)

/-- The oldest step that has not been decided. -/
def State.undecided (s : State) (p : Nat) : Option OpenStep := (s.part p).steps.find? (·.open_)

/-- The last decision (Table 17-9). -/
def State.decided (s : State) (p n dec : Nat) : State :=
  ((s.setFld (Reg.SLG_P_VSTAT.LAST_DEC p) dec).setFld (Reg.SLG_P_LAST_LO.STEP p) n).setFld (Reg.SLG_P_LAST_HI.STEP p) (n / 2 ^ 32)

/-- Step `n` decides BAD with a cause, 0x10 for absence, and so does every later open step (R413). DECIDED_BAD is sent unless the own BAD
has been. -/
def State.decideBad (s : State) (p n cause : Nat) (ownSent : Bool) : State :=
  let tick := ((s.openStep p n).map (·.endTick)).getD 0
  let s := s.setSteps p ((s.part p).steps.map (fun o => if n ≤ o.n ∧ o.open_ then { o with phase := .bad } else o))
  let s := ((s.decided p n 2).setFld (Reg.SLG_P_VSTAT.CAUSE p) cause).interruptIf (s.flag Reg.SLG_CTRL.INT_EN) 420
  if ownSent then s else s.sendVerdicts p n 3 (if cause = 0x10 then 0 else cause) tick

/-! ## The step end -/

/-- The number of the envelope that produces for a pair. -/
def State.producerNo (s : State) (p pair : Nat) : Nat :=
  1 + (s.part p).envelopes.findIdx (fun e => match e with
    | some x => x.wrole == 1 && x.wpair == pair
    | none => false)

/-- Two digests of a sampled entry differ (R405). -/
def State.witnessMismatch (s : State) (p pair : Nat) (a b : Digest) : State :=
  let s := s.setReg Reg.SLG_WITMIS (s.reg Reg.SLG_WITMIS + 1)
  let s := ((s.markOpen p 2).suspect a.tile).suspect b.tile
  s.logFault ⟨BitVec.ofNat 64 s.tick, a.tile, codeReplayed, p, s.stepNo p,
    3 + s.producerNo p pair * 2 ^ 8 + a.tile * 2 ^ 32 + b.tile * 2 ^ 48⟩

/-- One sampled entry of step `n` (R405). -/
def State.compareEntry (s : State) (p n pair k : Nat) : State :=
  let of_ := fun (w : Bool) => (s.part p).digests.find? (fun d => d.step == n && d.pair == pair && d.product == k && d.witness == w)
  match s.sampled n p pair k, of_ false, of_ true with
  | none, _, _ => s
  | some _, none, none => s
  | some _, some a, some b =>
    if a.value = b.value ∧ a.cols = b.cols then s.add64 Reg.SLG_WITCMP_LO 1 else s.witnessMismatch p pair a b
  | _, _, _ => s.slgBit Reg.SLG_STATUS.WIT_MISSING

/-- The digests of a step are compared and go (R405). -/
def State.compareDigests (s : State) (p n : Nat) : State :=
  let s := if s.flag Reg.SLG_CTRL.WIT_EN then
      (List.range 512).foldl (fun s i => s.compareEntry p n (i / 16) (i % 16)) s
    else s
  s.modPart p (fun x => { x with digests := x.digests.filter (fun d => d.step != n) })

/-- A bad verdict for step `n` heard from a member: its cause. -/
def State.heardBad (s : State) (p n : Nat) : Option Nat :=
  ((s.part p).heard.find? (fun h => h.step == n && (h.code == 2 || h.code == 3))).map (·.cause)

/-- STEP_END (R399, R404, R405, R411 to R413): the write of `n` to the step-end word of the resident job's region. -/
def stepEnd (p n : Nat) (s : State) : State :=
  let j := s.fld (Reg.PRT_P_STAT.RESIDENT p)
  let known : Bool := match s.openStep p n with
    | some o => o.phase == .running && o.job == j
    | none => false
  if s.hasJob p = false ∨ s.flag (Reg.SLG_P_JOB_CTL.VALID p j) = false ∨ known = false then s
  else
    let s := ((s.pass (s.slgBase p j) 6 true).writeNum (s.slgBase p j) 6 n).compareDigests p n
    let s := (s.tilesOf p).foldl (fun s t => s.modTile t (fun x => { x with witness := [] })) s
    let now := BitVec.ofNat 64 s.tick
    let s := s.setSteps p ((s.part p).steps.map (fun o => if o.n = n ∧ o.phase = .running then { o with phase := .ended, endTick := now } else o))
    let cause := ((s.openStep p n).map (·.cause)).getD 0
    if cause ≠ 0 then (s.sendVerdicts p n 2 cause now).decideBad p n cause true
    else
      let s := s.sendVerdicts p n 1 0 now
      match s.heardBad p n with
      | some c => s.decideBad p n c false
      | none => s

/-! ## Verdicts received -/

/-- The tick at which the window of a step that ended at `e` opens (R413). -/
def windowStart (e : Nat) : Nat := (e + 1023) / 1024 * 1024

/-- The tick at which the window of a step closes. -/
def State.windowEnd (s : State) (p : Nat) (o : OpenStep) : Nat :=
  windowStart o.endTick.toNat + max 1 (s.fld (Reg.SLG_P_VCTRL.VWIN p)) * 1024

/-- GOOD has been heard from a member for a step, within its window. -/
def State.heardGood (s : State) (p : Nat) (o : OpenStep) (m : Nat) : Bool :=
  (s.part p).heard.any (fun h => h.step == o.n && h.member == m && h.code == 1 && decide (h.stamp.toNat < s.windowEnd p o))

/-- The members whose verdict for a step is missing. -/
def State.missing (s : State) (p : Nat) (o : OpenStep) : List Nat := (s.peers p).filter (fun m => !s.heardGood p o m)

/-- A step has been decided GOOD. -/
def State.committed (s : State) (p n : Nat) : Bool :=
  (s.part p).steps.any (fun o => o.n == n && o.phase.commits) ||
    (n != 0 && decide (n ≤ s.fld (Reg.SRV_P_STEP_LO.STEP p) + 2 ^ 32 * s.fld (Reg.SRV_P_STEP_HI.STEP p)))

/-- Uncommitted steps of a partition are abandoned, and their requests go on from their committed state. -/
def State.dropStep (s : State) (p : Nat) (o : OpenStep) : State :=
  let s := (o.rows.filter (·.segment != 0)).foldl (fun s w =>
    let q := s.request w.slot
    (s.unreserve q.log 10).setRequest w.slot { q with state := if !w.prompt then .ready else if q.done = 0 then .queued else .prefill }) s
  let s := o.captures.foldl State.uncapture s
  s.modPart p (fun x => { x with
    steps := x.steps.filter (fun y => y.n != o.n)
    heard := x.heard.filter (fun h => h.step != o.n)
    digests := x.digests.filter (fun d => d.step != o.n) })

/-- Every step of a partition that has not begun its commit. -/
def State.dropSteps (s : State) (p : Nat) : State :=
  ((s.part p).steps.filter (fun o => !o.phase.commits)).foldl (fun s o => s.dropStep p o) s

/-- A live request is to be prefilled anew: its prompt and the tokens it has emitted (R370). -/
def Request.again (r : Request) : Request := { r with state := .queued, done := 0, kvLen := 0, heldRing := false }

/-- Where the KV context record of a request's slot lies for a partition, as an offset of the slot (R266; log 53). -/
def State.kvRecord (p slot : Nat) : Nat := 128 * (Config.kvContext p slot % (12 * stackSize / 128))

/-- The partitions that hold KV rows of a request: its own, and its draft's where it is speculative (R363). -/
def State.kvParts (s : State) (q : Request) : List Nat :=
  s.reqPart q :: (if q.spec then [s.fld (Reg.SRV_TGT.DRAFT_PART q.target)] else [])

/-- Firmware writes LENGTH of a request's KV contexts (R268). -/
def State.showKv (s : State) (slot : Nat) (q : Request) : State :=
  (s.kvParts q).foldl (fun s p => (s.pass (State.kvRecord p slot + 8) 6 true).writeNum (State.kvRecord p slot + 8) 6 q.kvLen) s

/-- A request resumes by a replay of its content: the host sees an EVENT with status REPLAYED (R370). -/
def State.replayRequest (s : State) (slot : Nat) : State :=
  let s := (if s.ringFree (s.request slot).log = 0 then s else s.eventRecord slot codeReplayed).modRequest slot Request.again
  s.showKv slot (s.request slot)

/-- A split has been seen (R414): the partition is reset, and its open requests are recovered from the journal's commits. -/
def State.split (s : State) (p : Nat) : State :=
  let s := ((s.slgBit Reg.SLG_STATUS.SPLIT).dropSteps p).partitionReset p
  (s.slotsBy (fun r => r.live && r.state != .inStep && s.reqPart r == p) (fun _ => 0)).foldl State.replayRequest s

/-- The port in which a message on the VERDICT channel waits that meets a test, and the message. -/
def State.waitingVerdict (s : State) (test : Packet → Bool) : Option (Nat × Packet) :=
  (List.range 5).findSome? (fun n => (s.firstPacket n (fun k => k.kind == 4 && k.vc == ringVc 0 && test k)).map (fun k => (n, k)))

/-- The member's message of a body. -/
def State.verdictOf (s : State) (m : Nat) (body : List Byte) : Option (Nat × Packet) :=
  s.waitingVerdict (fun k => k.src == m && k.body.take 32 == body)

/-- The member's message, if it waits in a port, is taken. -/
def State.takeVerdict (s : State) (m : Nat) (body : List Byte) : State :=
  match s.verdictOf m body with
  | some (n, k) => s.takePacket n k
  | none => s

/-- The stamp of a verdict: the tick in which it arrived (Table 02-2). -/
def State.verdictStamp (s : State) (m : Nat) (body : List Byte) : DWord :=
  match s.verdictOf m body with
  | some (_, k) => k.stamp
  | none => BitVec.ofNat 64 s.tick

/-- A verdict of the partition's group has arrived and is not yet taken. -/
def State.verdictWaits (s : State) (p : Nat) : Bool :=
  (s.waitingVerdict (fun k => (s.peers p).contains k.src && leNat ((k.body.drop 7).take 1) == s.vgrp p)).isSome

/-- A verdict of a member for a step of partition `p` with its stamp (R413, R414). -/
def State.verdictIn (s : State) (p m : Nat) (body : List Byte) (stamp : DWord) : State :=
  let f := fun o k => leNat ((body.drop o).take k)
  let n := f 0 6
  let hear := s.modPart p (fun x => { x with heard := x.heard ++ [⟨n, m, f 6 1, f 16 1, stamp⟩] })
  match f 6 1 with
  | 1 => hear
  | 2 => match s.openStep p n with
    | some _ => hear.decideBad p n (f 16 1) false
    | none => hear
  | 3 =>
    if s.committed p n then (s.sendVerdict p n 4 0 (BitVec.ofNat 64 s.tick) m).split p
    else match s.openStep p n with
      | some _ => hear.decideBad p n (f 16 1) false
      | none => hear
  | 4 => s.split p
  | _ => s

/-- VERDICT_RECEIVE (R412 to R414). -/
def verdictReceive (g m : Nat) (body : List Byte) (s : State) : State :=
  if s.live = false ∨ s.flag Reg.SLG_CTRL.VERDICT_EN = false ∨ bitOf (s.groupMask g) m = false ∨ m = s.ownLogical ∨
      leNat ((body.drop 7).take 1) ≠ g then s
  else
    ((List.range 12).filter (fun p => s.flag (Reg.SLG_P_VCTRL.VG_EN p) && s.vgrp p == g)).foldl
      (fun t p => t.verdictIn p m body (s.verdictStamp m body)) (s.takeVerdict m body)

/-- VERDICT_WINDOW_EXPIRY (R413): a verdict that is missing counts as BAD. No window ends while ALIGNED is 0 (R26), and one that has arrived
is taken first. -/
def verdictWindowExpiry (p : Nat) (s : State) : State :=
  match s.undecided p with
  | none => s
  | some o =>
    if s.live = false ∨ o.phase ≠ .ended then s
    else if o.cause ≠ 0 then s.decideBad p o.n o.cause false
    else
      let k := (s.missing p o).length
      if s.flag Reg.TIME_STATUS.ALIGNED ∧ s.verdictWaits p = false ∧ s.windowEnd p o ≤ s.tick ∧ k ≠ 0 then (s.setFld (Reg.SLG_P_VSTAT.MISSING p) k).decideBad p o.n 0x10 false else s

/-! ## The commit -/

/-- The lines of a COMMIT record (R368): the header, the capture list, and one for each request. -/
def commitLines (o : OpenStep) : Nat := 1 + ceilDiv o.captures.length 4 + (o.rows.filter (·.segment != 0)).length

/-- What a request becomes by a commit (R268, R364, R365): a prompt goes on, or its last token or a decode row lets tokens out; `ending` is
set where the request ends. -/
def Request.committed (q : Request) (w : StepRow) (res : StepResult) (caps : List CapturedSet) (stamp : DWord) : Request :=
  let q := { q with lastCommit := stamp, gens := q.gens ++ caps.filter (fun c => !q.gens.contains c) }
  if w.prompt ∧ w.pos + w.rows < q.work then { q with state := .prefill, done := w.pos + w.rows, kvLen := w.pos + w.rows }
  else
    let k := min res.release res.emitted.length
    let stop : Option (Nat × Nat) :=
      if res.noCandidate then some (codeAborted, 7) else if res.reason ≠ 0 then some (codeStopped, res.reason) else none
    { q with
      state := .ready
      pos := q.pos + k
      done := if w.prompt then w.pos + w.rows else q.done
      kvLen := if w.prompt then w.pos + w.rows else q.pos + k - 1
      emitted := q.emitted ++ res.emitted.take k
      ending := stop }

/-- The tokens that a commit releases for a request. -/
def Request.newTokens (after before : Request) : List Emitted := after.emitted.drop before.emitted.length

/-- The result of a slot; none given counts as nothing emitted. -/
def resultOf (l : List StepResult) (slot : Nat) : StepResult := (l.find? (·.slot == slot)).getD ⟨slot, [], 0, 0, false⟩

/-- The rows of a step that are a request's, in ascending slot. -/
def OpenStep.slots (o : OpenStep) : List StepRow :=
  let rows := o.rows.filter (·.segment != 0)
  (rows.foldl (fun l w => insertKey (w.slot, w.segment) l) []).filterMap (fun k => rows.find? (fun w => w.slot == k.1))

/-- Ring slots are assigned to the records of a commit, in ascending request slot (R360). -/
def State.assignRing (s : State) : List (Nat × Request) → State × List (Nat × Word)
  | [] => (s, [])
  | (slot, q) :: rest =>
    let k := (q.newTokens (s.request slot)).length + ofBool q.ending.isSome
    let idx := s.reg (Reg.SRV_LOG_OUTIDX q.log)
    let r := ((s.unreserve q.log 10).takeIndices q.log k).assignRing rest
    (r.1, (slot, idx) :: r.2)

/-- Steps 1 and 2 of Table 15-6: the commit begins, and its record is written to the journal and its copy. -/
def State.beginCommit (s : State) (p : Nat) (o : OpenStep) (results : List StepResult) : State :=
  let now := BitVec.ofNat 64 s.tick
  let after := o.slots.map (fun w => (w.slot, (s.request w.slot).committed w (resultOf results w.slot) o.captures now))
  let r := s.assignRing after
  let s := r.1.setSteps p ((s.part p).steps.map (fun y =>
    if y.n = o.n then { y with phase := .committing 1, commitTick := now, results := results } else y))
  (s.decided p o.n 1).appendRecord ⟨2, commitLines o, 0, 0, now, p, o.n, after, o.captures, results, r.2⟩

/-- The most tokens that a step emits for a request (R363): one, or for a speculative request whose verification proposes k of them one more
than k, and never above 8. -/
def Request.emitLimit (q : Request) (w : StepRow) : Nat :=
  if w.prompt || !q.spec then 1 else min 8 (min (q.field 2 1) (q.plen + q.field 28 4 - q.pos) + 1)

/-- No result emits more tokens for its request than a step can. -/
def State.mayEmit (s : State) (o : OpenStep) (results : List StepResult) : Bool :=
  o.slots.all (fun w => decide ((resultOf results w.slot).emitted.length ≤ (s.request w.slot).emitLimit w))

/-- The tick from which a step may decide GOOD: at once where verdicts are not exchanged (R413, Table 17-8). -/
def State.goodFrom (s : State) (p : Nat) (o : OpenStep) : Nat :=
  if s.flag Reg.SLG_CTRL.VERDICT_EN then windowStart o.endTick.toNat + s.fld (Reg.SLG_P_VCTRL.GUARD p) else 0

/-- A step may decide GOOD at this tick: its window is open, which no window is while ALIGNED is 0, and every verdict that has arrived is
taken (R26, R413). -/
def State.goodNow (s : State) (p : Nat) (o : OpenStep) : Bool :=
  (!s.flag Reg.SLG_CTRL.VERDICT_EN || s.flag Reg.TIME_STATUS.ALIGNED) && decide (s.goodFrom p o ≤ s.tick) &&
    (s.missing p o).isEmpty && !s.verdictWaits p

/-- VERDICT_GOOD_DECISION (R366, R413): the oldest undecided step decides GOOD with its results. A step that a cause has marked decides
BAD, a COMMIT record that finds no room waits, and results that no step can have (R363) decide nothing (log 10). -/
def verdictGoodDecision (p : Nat) (results : List StepResult) (s : State) : State :=
  match s.undecided p with
  | none => s
  | some o =>
    if s.live = false ∨ o.phase ≠ .ended then s
    else if o.cause ≠ 0 then s.decideBad p o.n o.cause false
    else if s.goodNow p o = false ∨ s.mayEmit o results = false then s
    else match s.roomFor (commitLines o) with
      | none => s.setFlag Reg.SRV_STATUS.JRNL_FULL true
      | some s => (s.setFlag Reg.SRV_STATUS.JRNL_FULL false).beginCommit p o results

/-- The COMMIT record of a step: the latest, since step numbers may begin anew. -/
def State.commitRecord (s : State) (p n : Nat) : Option JournalRecord :=
  s.journal.records.reverse.find? (fun r => r.type == 2 && r.part == p && r.step == n)

/-- The oldest step of a partition whose commit stands at a step of Table 15-6. -/
def State.commitAt (s : State) (p k : Nat) : Option OpenStep := (s.part p).steps.find? (fun o => o.phase == .committing k)

/-- COMMIT_RECORD_ACK: step 3 of Table 15-6. -/
def commitRecordAck (p : Nat) (s : State) : State :=
  match s.commitAt p 1 with
  | none => s
  | some o => match s.commitRecord p o.n with
    | none => s
    | some r =>
      if s.live = false ∨ s.recordsAcked r.seq = false then s
      else (s.writeTail r).setSteps p ((s.part p).steps.map (fun y => if y.n = o.n then { y with phase := .committing 2 } else y))

/-- The records of one request of a commit, from an index of its ring on: its tokens in ascending position, then its END (R360,
Table 15-4). -/
def commitRecords (n : Nat) (stamp : DWord) (slot : Nat) (q : Request) (toks : List Emitted) : List OutRecord :=
  let first := q.pos - toks.length
  (List.range toks.length).map (fun i =>
    let e := toks.getD i ⟨0, 0⟩
    ⟨q.id slot, first + i, 3, 0, e.token.toNat, e.prob.toNat, 0, stamp.toNat, 0, n⟩) ++
  (match q.ending with
    | some e => [⟨q.id slot, q.pos, 5, e.1, 0, 0, e.2, stamp.toNat, 0, n⟩]
    | none => [])

/-- Records are written at consecutive indices of a ring. -/
def State.putRecords (s : State) (n idx : Nat) : List OutRecord → State
  | [] => s
  | r :: rest => (s.putRecord n idx r).putRecords n ((idx + 1) % 2 ^ 32) rest

/-- Steps 4 and 5 of Table 15-6 for one request: its state advances, it captures the generations it has used, and its records are
written; an ended one becomes FREE. -/
def State.commitRequest (s : State) (n : Nat) (stamp : DWord) (slot idx : Nat) (q : Request) : State :=
  let old := s.request slot
  let toks := q.newTokens old
  let s := ((q.gens.filter (fun c => !old.gens.contains c)).foldl State.recapture s).setRequest slot
    { q with cancelled := old.cancelled, deferred := old.deferred }
  let s := ((s.showKv slot q).putRecords q.log idx (commitRecords n stamp slot q toks)).add64 Reg.SRV_TOKENS_LO toks.length
  if q.ending.isSome then s.freeRequest slot else s

/-- Earlier commits, of whichever partition, have been completed: records appear in the order of their commits (R360). -/
def State.commitsBefore (s : State) (seq : Nat) : Bool :=
  (List.range 12).any (fun p => (s.part p).steps.any (fun o => o.phase.commits &&
    (match s.commitRecord p o.n with
      | some r => decide (r.seq < seq)
      | none => false)))

/-- The last committed step of a partition. -/
def State.setLastStep (s : State) (p n : Nat) : State :=
  (s.setFld (Reg.SRV_P_STEP_LO.STEP p) n).setFld (Reg.SRV_P_STEP_HI.STEP p) (n / 2 ^ 32)

/-- TAIL_WORD_ACK: steps 4 and 5 of Table 15-6. A commit stamped in the tick of a roll that is still to come is charged after it (R32). -/
def tailWordAck (p : Nat) (s : State) : State :=
  match s.commitAt p 2 with
  | none => s
  | some o => match s.commitRecord p o.n with
    | none => s
    | some r =>
      if s.live = false ∨ s.tailAcked = false ∨ s.commitsBefore r.seq ∨ (s.rollDue && !s.endedWith o) = true then s
      else
        let s := s.chargeStep p o
        let s := (r.requests.zip r.ringSlots).foldl (fun s e => s.commitRequest o.n o.commitTick e.1.1 e.2.2.toNat e.1.2) s
        let s := (o.captures.foldl State.uncapture s).setLastStep p o.n
        let s := (s.tilesOf p).foldl (fun s t => s.setSparkTile t { s.sparkTile t with served := true }) s
        (s.setReg (Reg.SLG_P_REPLAYS p) 0).modPart p (fun x => { x with
          steps := x.steps.filter (fun y => y.n != o.n)
          heard := x.heard.filter (fun h => h.step != o.n) })

/-! ## Rollback and replay -/

/-- Every request of a step ends with a status and a REASON, and the step is abandoned (R260, R365, R417). -/
def State.abandonStep (s : State) (p : Nat) (o : OpenStep) (status reason : Nat) : State :=
  let s := o.slots.foldl (fun s w => (s.unreserve (s.request w.slot).log 10).endRequest w.slot status reason) s
  ({ o with rows := [] } : OpenStep) |> s.dropStep p

/-- A step has been decided BAD, and waits for its replay. -/
def OpenStep.isBad (o : OpenStep) : Bool := o.phase == .bad || o.phase == .rolled

/-- The bad steps of a partition. -/
def State.badSteps (s : State) (p : Nat) : List OpenStep := (s.part p).steps.filter (·.isBad)

/-- The rollback of the bad steps of a partition has been done. -/
def State.setRolled (s : State) (p : Nat) : State :=
  s.setSteps p ((s.part p).steps.map (fun o => if o.phase = .bad then { o with phase := .rolled } else o))

/-- A replay of the partition may begin: the targeted pass of every newly SUSPECT tile is done, and no tile of its run is QUARANTINED, until
firmware has moved the partition to another run by its own commands (R418; log 54). -/
def State.mayReplay (s : State) (p : Nat) : Bool :=
  (s.tilesOf p).all (fun t => !(s.sparkTile t).target && s.fld (Reg.SLG_TILE_STATE.STATE t) != 2)

/-- The bad steps run again from their checkpoints (R415). -/
def State.replayBad (s : State) (p : Nat) : State :=
  let bad := (s.badSteps p).map (·.n)
  (s.setReg (Reg.SLG_P_REPLAYS p) (s.reg (Reg.SLG_P_REPLAYS p) + 1)).modPart p (fun x => { x with
    steps := x.steps.map (fun o => if o.isBad then { o with phase := .running, cause := 0, endTick := 0 } else o)
    heard := x.heard.filter (fun h => !bad.contains h.step)
    digests := x.digests.filter (fun d => !bad.contains d.step) })

/-- Steps 1 and 2 of R415: collectives are aborted, a new EPOCH is set, and the partition, or the job where it is not resident, is
reset. -/
def State.rollStop (s : State) (p j : Nat) : State :=
  let s := s.writeMshPart p (BitVec.ofNat 32 (2 ^ 31 + (s.fld (Reg.MSH_P_CTRL.EPOCH p) + 1) % 256))
  if s.resident p = some j then s.partitionReset p else s.jobReset p j

/-- The bad steps, rolled back, run again as soon as they may (R415, R418). -/
def State.replayWhenFit (s : State) (p : Nat) : State := if s.mayReplay p then s.replayBad p else s.setRolled p

/-- ROLLBACK (R415, R417, R418): beyond MAXREPLAY replays the requests of the oldest bad step end, and the others go on from their
committed state. Steps that have been rolled back already go on to their replay. -/
def rollback (p : Nat) (s : State) : State :=
  match s.badSteps p with
  | [] => s
  | o :: rest =>
    if s.live = false then s
    else if (o :: rest).all (fun x => x.phase == .rolled) then s.replayWhenFit p
    else
      let s := s.rollStop p o.job
      if s.fld (Reg.SLG_P_VCTRL.MAXREPLAY p) ≤ (s.reg (Reg.SLG_P_REPLAYS p)).toNat then
        ((s.abandonStep p o codeAborted 9).dropSteps p).setReg (Reg.SLG_P_REPLAYS p) 0
      else s.replayWhenFit p

/-- Firmware abandons the step that ran when a fault other than SHAPE_LIMIT stopped job `j` (R365): it receives a bad verdict, its requests
end with the fault's code, and the others go on from their committed state, with no replay. -/
def State.abandonFaulted (s : State) (p j code : Nat) : State :=
  match (s.part p).steps.find? (fun o => o.open_ && o.job == j) with
  | none => s
  | some o => ((s.decideBad p o.n 7 false).abandonStep p { o with phase := .bad } code 0).dropSteps p

/-! ## Shape overrun -/

/-- The body of a firmware message about a shape overrun, whose layout is not stated (log 22): code 1 asks for the request of a token,
2 answers with its id, 3 removes the request of an id that a module serves. -/
def overrunBody (code group n a b : Nat) : List Byte := natLE 1 code ++ natLE 1 group ++ natLE 6 n ++ natLE 4 a ++ natLE 4 b

/-- A message about a shape overrun goes to a member over the control channel (R260). -/
def State.sendControl (s : State) (p n code a b m : Nat) : State :=
  s.sendPacket (s.l2p m) (ringVc 1) 4 0 16 0 (overrunBody code (s.vgrp p) n a b)

/-- Every other module that takes part in the step is told of a request's removal (R260). -/
def State.tellRemoval (s : State) (p n id member : Nat) : State := (s.peers p).foldl (fun s m => s.sendControl p n 3 id member m) s

/-- Step `n` of a partition. -/
def State.stepOf (s : State) (p n : Nat) : Option OpenStep := (s.part p).steps.find? (·.n == n)

/-- The rows of a request of a step become padding, and the request ends with SHAPE_LIMIT (R260). -/
def State.removeRow (s : State) (p n : Nat) (w : StepRow) : State :=
  let s := (s.unreserve (s.request w.slot).log 10).endRequest w.slot codeShapeLimit 0
  s.modPart p (fun x => { x with steps := x.steps.map (fun o =>
    if o.n = n then { o with rows := o.rows.map (fun y => if y.segment = w.segment then { y with segment := 0 } else y) } else o) })

/-- The request of a segment is removed from a step, and the other modules are told (R260). -/
def State.removeSegment (s : State) (p n seg : Nat) : State :=
  match (s.stepOf p n).bind (fun o => o.rows.find? (fun w => w.segment == seg)) with
  | none => s
  | some w => (s.tellRemoval p n ((s.request w.slot).id w.slot) s.ownLogical).removeRow p n w

/-- The id that says no request. -/
def noRequest : Nat := 2 ^ 32 - 1

/-- The row of a step that a token's index names: rows follow one another in ascending segment (R362). -/
def tokenRow : List StepRow → Nat → Option StepRow
  | [], _ => none
  | w :: rest, k => if k < w.rows then some w else tokenRow rest (k - w.rows)

/-- The request of a source token of step `n`, by the step's segment map (R260). -/
def State.tokenRequest (s : State) (p n token : Nat) : Nat :=
  match (s.stepOf p n).bind (fun o => tokenRow o.rows token) with
  | some w => if w.segment = 0 then noRequest else (s.request w.slot).id w.slot
  | none => noRequest

/-- A removal that a module names: where this module serves the request, its row of the step goes. -/
def State.removeNamed (s : State) (p n id member : Nat) : State :=
  if member ≠ s.ownLogical then s
  else match (s.stepOf p n).bind (fun o => o.rows.find? (fun w => w.segment != 0 && (s.request w.slot).id w.slot == id)) with
    | some w => s.removeRow p n w
    | none => s

/-- Firmware acts on a message about a shape overrun from a member of a partition's group (R260). -/
def State.overrunMessage (s : State) (p m : Nat) (body : List Byte) : State :=
  let f := fun o k => leNat ((body.drop o).take k)
  let n := f 2 6
  match f 0 1 with
  | 1 => s.sendControl p n 2 (s.tokenRequest p n (f 8 4)) 0 m
  | 2 => if (s.part p).asked.any (·.1 == n) then s.modPart p (fun x => { x with named := x.named ++ [(f 8 4, m)] }) else s
  | 3 => s.removeNamed p n (f 8 4) (f 12 4)
  | _ => s

/-- The partitions whose group a control message names, with its source a member. -/
def State.groupParts (s : State) (m : Nat) (body : List Byte) : List Nat :=
  (List.range 12).filter (fun p => (s.peers p).contains m && s.vgrp p == leNat ((body.drop 1).take 1))

/-- MESSAGE_RECEIVE: the message enters its ring (R319), and firmware acts on one about a shape overrun (R260). -/
def messageTaken (n ch : Nat) (s : State) : State :=
  match s.firstPacket n (fun k => k.kind == 4 && k.vc == ringVc ch) with
  | none => s
  | some k =>
    let r := messageReceive n ch s
    if ch ≠ 1 ∨ s.live = false ∨ k.tag ≠ 16 ∨ s.ringFull ch = true then r
    else (s.groupParts k.src k.body).foldl (fun t p => t.overrunMessage p k.src (k.body.take 16)) r

/-- SEG and VALUE of every SHAPE that overran in job `j`, the resident job or a saved one; none where no SHAPE_LIMIT is pending (R260,
R261). -/
def State.overruns (s : State) (p j : Nat) : List (Nat × Nat) :=
  if s.resident p = some j then ((s.part p).faults.filter (·.code == codeShapeLimit)).map (fun r => s.overrun r.source)
  else (s.savedJob p j).overruns

/-- The code of a fault of job `j` that is not SHAPE_LIMIT. -/
def State.otherFault (s : State) (p j : Nat) : Option Nat :=
  let l := if s.resident p = some j then (s.part p).faults else (s.savedJob p j).faults
  (l.find? (·.code != codeShapeLimit)).map (·.code)

/-- The job of a partition with a pending SHAPE_LIMIT: the frozen resident job, or the first saved one. -/
def State.overrunJob (s : State) (p : Nat) : Option Nat :=
  let saved := (List.range 8).find? (fun j => s.jobState p j == 2 && s.flag (Reg.PRT_P_JSTAT.FAULT_PENDING p j) && !(s.savedJob p j).overruns.isEmpty)
  match s.resident p with
  | some j => if s.flag (Reg.PRT_P_STAT.FROZEN p) && !(s.overruns p j).isEmpty then some j else saved
  | none => saved

/-- A SEG that lies on another module: firmware sends the source token of the group table entry to the source module (R260). Where that entry
lies is not stated, so which other member and which token are free (log 22). -/
def State.askSource (s : State) (p n : Nat) : State :=
  let l := s.peers p
  let v := s.fresh
  s.took.sendControl p n 1 (v / 64 % 2 ^ 32) 0 (l.getD (v % 64 % l.length) 0)

/-- The overruns of a step whose request another module has to name. -/
def elsewhere (segs : List (Nat × Nat)) : List (Nat × Nat) := segs.filter (fun e => e.1 == 0xFFFF)

/-- The questions of an overrun of step `n` go out once. -/
def State.askModules (s : State) (p n : Nat) (segs : List (Nat × Nat)) : State :=
  if (s.part p).asked.any (·.1 == n) then s
  else ((elsewhere segs).foldl (fun s _ => s.askSource p n) s).modPart p (fun x =>
    { x with asked := some (n, (elsewhere segs).length), named := [] })

/-- Every question of step `n` has been answered, or there is none to ask, or nobody to ask. -/
def State.answered (s : State) (p n : Nat) (segs : List (Nat × Nat)) : Bool :=
  (elsewhere segs).isEmpty || (s.peers p).isEmpty ||
    ((s.part p).asked == some (n, (elsewhere segs).length) && decide ((elsewhere segs).length ≤ (s.part p).named.length))

/-- No request can be named for an overrun: its SEG is 0, or the other module names none (R260). -/
def State.cannotName (s : State) (p : Nat) (segs : List (Nat × Nat)) : Bool :=
  segs.any (fun e => e.1 == 0) || (!(elsewhere segs).isEmpty && ((s.peers p).isEmpty || (s.part p).named.any (·.1 == noRequest)))

/-- The requests that the answers name are removed, and the answers go. -/
def State.removeAnswers (s : State) (p n : Nat) : State :=
  ((s.part p).named.eraseDups.foldl (fun s e => if e.1 = noRequest then s else s.tellRemoval p n e.1 e.2) s).modPart p (fun x =>
    { x with asked := none, named := [] })

/-- SHAPE_OVERRUN_RECOVERY (R260, R261): every request that a SHAPE_LIMIT names is removed and its step replayed, once the modules that have to
name one have answered; where no request can be named, every request of the step ends. Records of another code are then handled as R365
states. -/
def shapeOverrunRecovery (p : Nat) (s : State) : State :=
  match s.overrunJob p with
  | none => s
  | some j =>
    match (s.part p).steps.find? (fun o => o.open_ && o.job == j) with
    | none => s
    | some o =>
      if s.live = false then s
      else
        let segs := s.overruns p j
        let other := s.otherFault p j
        if s.answered p o.n segs = false then s.askModules p o.n segs
        else
        let unnamed := s.cannotName p segs
        let s := segs.foldl (fun s e => if e.1 = 0 ∨ e.1 = 0xFFFF then s else s.removeSegment p o.n e.1) s
        let s := (s.removeAnswers p o.n).decideBad p o.n 7 false
        let s := s.rollStop p j
        match (s.badSteps p).find? (·.n == o.n) with
        | none => s
        | some b =>
          if unnamed then (s.abandonStep p b codeAborted 8).dropSteps p
          else match other with
            | some c => (s.abandonStep p b c 0).dropSteps p
            | none => s.replayWhenFit p

/-! ## The rows -/

/-- STEP_ADMISSION (R362): a step for which a member has already sent a BAD verdict decides BAD at once (R413). -/
def stepAdmitted (p : Nat) (s : State) : State :=
  let n := (s.part p).nextStep
  let s := stepAdmission p s
  match s.openStep p n, s.heardBad p n with
  | some _, some c => s.decideBad p n c false
  | _, _ => s

def execStepAdmission (p : Fin 12) (s : State) : Host.Outcome State Fault Refusal := .next (stepAdmitted p s)
def execStepEnd (p : Fin 12) (n : BitVec 48) (s : State) : Host.Outcome State Fault Refusal := .next (stepEnd p n.toNat s)
def execVerdictReceive (group member : Fin 64) (body : List Byte) (s : State) : Host.Outcome State Fault Refusal :=
  .next (verdictReceive group member body s)
def execVerdictWindowExpiry (p : Fin 12) (s : State) : Host.Outcome State Fault Refusal := .next (verdictWindowExpiry p s)
def execVerdictGoodDecision (p : Fin 12) (results : List StepResult) (s : State) : Host.Outcome State Fault Refusal :=
  .next (verdictGoodDecision p results s)
def execMessageReceive (n : Fin 5) (ch : Fin 4) (s : State) : Host.Outcome State Fault Refusal := .next (messageTaken n ch s)
def execCommitRecordAck (p : Fin 12) (s : State) : Host.Outcome State Fault Refusal := .next (commitRecordAck p s)
def execTailWordAck (p : Fin 12) (s : State) : Host.Outcome State Fault Refusal := .next (tailWordAck p s)
def execRollback (p : Fin 12) (s : State) : Host.Outcome State Fault Refusal := .next (rollback p s)
def execShapeOverrunRecovery (p : Fin 12) (s : State) : Host.Outcome State Fault Refusal := .next (shapeOverrunRecovery p s)

end Sys2Proof.Machine
end

