-- ==== Sys2Proof/Machine/PrtCtl.lean ====
section
/-! DEFINITION. Writes of PRT_Pp_CTRL and PRT_Pp_JSTATj (R377, R385, R394, R395, R473). A reset of a job that a fault other than
SHAPE_LIMIT stopped is firmware's abandonment of its step (R365). -/
namespace Sys2Proof.Machine

/-- The step of job `j` is abandoned where a fault other than SHAPE_LIMIT stopped it (R365). -/
def State.abandonIfFaulted (s : State) (p j : Nat) : State :=
  match s.otherFault p j with
  | some c => s.abandonFaulted p j c
  | none => s

/-- RESET of a partition (R395); it is latched during a switch (R392). -/
def State.requestReset (s : State) (p : Nat) : State :=
  if s.switching p then (s.modPart p (fun x => { x with resetLatched := true })).setFlag (Reg.PRT_P_STAT.RESET_BUSY p) true
  else
    let s := match s.resident p with
      | some j => s.abandonIfFaulted p j
      | none => s
    s.partitionReset p

/-- A write of PRT_Pp_CTRL, its bits in the order of R473. -/
def State.writePrtCtrl (s : State) (p : Nat) (v : Word) : State :=
  let on := s.partState p == 2
  let s := if on && bitOf v.toNat 29 then s.releasePart p else s
  let s := if on && bitOf v.toNat 30 then s.requestReset p else s
  let s := if on && bitOf v.toNat 31 then s.preempt p else s
  let s := if bitOf v.toNat 0 then s.partEnable p else s
  if bitOf v.toNat 1 then s.partDisable p else s

/-- A write of PRT_Pp_JSTATj: HOLD, then RELEASE of a saved job, then RESET (R394, R395). -/
def State.writeJstat (s : State) (p j : Nat) (v : Word) : State :=
  let s := s.setFlag (Reg.PRT_P_JSTAT.HOLD p j) (bitOf v.toNat 27)
  let s := if bitOf v.toNat 26 ∧ s.jobState p j = 2 then s.setFlag (Reg.PRT_P_JSTAT.FAULT_PENDING p j) false else s
  if bitOf v.toNat 25 then
    (if s.jobState p j = 4 ∨ s.flag (Reg.PRT_P_JSTAT.FAULT_PENDING p j) then s.abandonIfFaulted p j else s).jobReset p j
  else s

/-- A write of PRT_Pp_CTRL as the row of one of its bits. -/
def State.prtRow (s : State) (m : Master) (p bit : Nat) (v : Word) : State :=
  if bitOf v.toNat bit ∧ s.live then s.byFirmware m (Reg.PRT_P_CTRL p) (·.writePrtCtrl p v) else s

def execPartitionEnable (m : Master) (p : Fin 12) (v : Word) (s : State) : Host.Outcome State Fault Refusal := .next (s.prtRow m p 0 v)
def execPartitionDisable (m : Master) (p : Fin 12) (v : Word) (s : State) : Host.Outcome State Fault Refusal := .next (s.prtRow m p 1 v)
def execPreempt (m : Master) (p : Fin 12) (v : Word) (s : State) : Host.Outcome State Fault Refusal := .next (s.prtRow m p 31 v)
def execPartitionReset (m : Master) (p : Fin 12) (v : Word) (s : State) : Host.Outcome State Fault Refusal := .next (s.prtRow m p 30 v)
def execPartitionRelease (m : Master) (p : Fin 12) (v : Word) (s : State) : Host.Outcome State Fault Refusal := .next (s.prtRow m p 29 v)
def execJobRelease (m : Master) (p : Fin 12) (j : Fin 8) (v : Word) (s : State) : Host.Outcome State Fault Refusal :=
  .next (if bitOf v.toNat 26 then s.byFirmware m (Reg.PRT_P_JSTAT p j) (·.writeJstat p j v) else s)
def execJobReset (m : Master) (p : Fin 12) (j : Fin 8) (v : Word) (s : State) : Host.Outcome State Fault Refusal :=
  .next (if bitOf v.toNat 25 then s.byFirmware m (Reg.PRT_P_JSTAT p j) (·.writeJstat p j v) else s)

end Sys2Proof.Machine
end

