-- ==== Sys2Proof/Machine/Rsa.lean ====
section
/-! DEFINITION. The check of a signature: RSASSA-PSS with SHA-256, MGF1 with SHA-256 and a salt of 32 bytes, under an RSA-3072 key (R422).
The scheme is RFC 8017's, which the spec names and does not repeat (PRESUMED; log 24). -/
namespace Sys2Proof.Machine

/-- A big-endian number of bytes. -/
def beNat (b : List Byte) : Nat := leNat b.reverse

/-- The `n` big-endian bytes of a number. -/
def natBE (n v : Nat) : List Byte := (natLE n v).reverse

/-- b^e mod n, over the `k` low bits of `e` from the highest down. -/
def modPow (b e n : Nat) : Nat → Nat → Nat
  | 0, acc => acc
  | k + 1, acc =>
    let sq := acc * acc % n
    modPow b e n k (if bitOf e k then sq * b % n else sq)

/-- The mask of `len` bytes from a seed. -/
def mgf1 (seed : List Byte) (len : Nat) : List Byte :=
  ((List.range (ceilDiv len 32)).flatMap (fun i => sha256 (seed ++ natBE 4 i))).take len

/-- Two lists of bytes, bit by bit. -/
def xorBytes (a b : List Byte) : List Byte := (a.zip b).map (fun x => x.1 ^^^ x.2)

/-- The encoded message is right for the digest of the message. -/
def pssEncodes (em hash : List Byte) : Bool :=
  let masked := em.take 351
  let h := (em.drop 351).take 32
  let db := xorBytes masked (mgf1 h 351)
  let db := (db.headD 0 &&& 0x7F) :: db.drop 1
  let salt := db.drop 319
  em.getLast? == some 0xBC && (masked.headD 0).toNat < 128 && (db.take 318).all (· == 0) && db.getD 318 0 == 1 &&
    sha256 (natLE 8 0 ++ hash ++ salt) == h

/-- A signature of 384 bytes over a message is valid under a modulus and a public exponent, all of them big-endian. -/
def signatureOk (msg modulus exponent sig : List Byte) : Bool :=
  let n := beNat modulus
  let s := beNat sig
  decide (s < n) && pssEncodes (natBE 384 (modPow s (beNat exponent) n 32 1)) (sha256 msg)

end Sys2Proof.Machine
end

