-- ==== Sys2Proof/Machine/Spark.lean ====
section
/-! DEFINITION. Spark packs and coverage (R406 to R410, R418, R419). -/
namespace Sys2Proof.Machine

/-! ## Packs -/

/-- A number in the pack in force (Table 17-3). -/
def State.packNum (s : State) (o n : Nat) : Nat := leNat ((s.security.pack.drop o).take n)

/-- The units of a tile type in the pack, in pack order, by their number. -/
def State.packUnits (s : State) (ty : Nat) : List Nat :=
  (List.range (s.fld Reg.SLG_PACK.UNITS)).filter (fun u => s.packNum (128 + 64 * u) 1 == ty)

/-- SLG_PACK names the pack in force. -/
def State.showPack (s : State) : State :=
  (s.setFld Reg.SLG_PACK.VERSION (s.packNum 4 4)).setFld Reg.SLG_PACK.UNITS (s.packNum 8 4)

/-! ## Periods -/

/-- The length of a coverage period in Strikes (R408, Table 17-8). -/
def State.coverLen (s : State) : Nat := 2 ^ max 16 (min 24 (s.fld Reg.SLG_ROT.LOG2P))

def State.quarantined (s : State) (t : Nat) : Bool := s.fld (Reg.SLG_TILE_STATE.STATE t) == 2

/-- A tile at rest, on which the spark engine may run: no partition that is ON holds it, or its partition has no job resident, or the resident
job was reset and its Active set is not valid (R342, R407, R418). No march that firmware has started runs on it. -/
def State.sparkIdle (s : State) (t : Nat) : Bool :=
  (s.tile t).fwMarch.isNone && match s.partOf t with
  | none => true
  | some p => s.partState p != 2 ||
      (!s.switching p && (s.resident p == none || (!s.activeValid p && s.seqState t == 0)))

/-- The tiles of partitions that are ON whose pass in the period is still due. -/
def State.dueTiles (s : State) : List Nat :=
  (List.range 240).filter (fun t => !s.quarantined t && !(s.sparkTile t).passed &&
    (match s.partOf t with
      | some p => s.partState p == 2
      | none => false))

/-- COVER_DUE and SLG_DUE follow the tiles that are due. -/
def State.showDue (s : State) (l : List Nat) : State :=
  ((s.setFlag Reg.SLG_STATUS.COVER_DUE (!l.isEmpty)).setFlag Reg.SLG_DUE.VALID (!l.isEmpty)).setFld Reg.SLG_DUE.TILE (l.headD 0)

/-! ## Quarantine -/

/-- A failure on a tile that served committed steps since its last pass (R419): the record gives both ticks. Its code is not stated: free
(log 3). -/
def State.exposed (s : State) (t : Nat) : State :=
  if (s.sparkTile t).served = false then s
  else
    let s := s.slgBit Reg.SLG_STATUS.EXPOSED
    s.took.logFault ⟨BitVec.ofNat 64 s.tick, t, s.fresh % 2 ^ 16, (s.partOf t).getD 0xFFFF, s.reg64 (Reg.SLG_TILE_PASS_LO t), s.tick⟩

/-! ## Units -/

/-- The program and the data of a unit are written (R407). A unit's data follow its program, whose length is rounded up to whole
units. -/
def State.placeUnit (s : State) (t u : Nat) : State :=
  let h := 128 + 64 * u
  let n := s.packNum (h + 2) 2
  let at_ := 128 * s.packNum (h + 20) 4
  let prog := (s.security.pack.drop at_).take (8 * n)
  let data := (s.security.pack.drop (at_ + 128 * ceilDiv n 16)).take (128 * s.packNum (h + 4) 4)
  let s := if tileType t = 2 then
      (List.range 48).foldl (fun s b => if s.failedBank t b then s else s.setOwner t b (1 + 15 * 2 ^ 24)) s
    else s
  (s.write (imemAt t (s.fld (Reg.SEQ_IMEM.ACTIVE t)) 0) prog).write (storeAt t 0) data

/-- What a unit leaves in the tile: g1 is the signature; the other general registers, stream registers and predicates, and in a port tile
the top 64 MiB of the bay's stack, hold what the pack's program left there, which is free here (log 3). -/
def State.unitLeaves (s : State) (t : Nat) (signature : DWord) : State :=
  let s := (List.range' 1 31).foldl (fun s k => (s.freeWord (Reg.SEQ_G t k 0)).freeWord (Reg.SEQ_G t k 1)) s
  let s := (List.range 16).foldl (fun s k => (List.range 4).foldl (fun s f => s.freeWord (Reg.SEQ_S t k f)) s) s
  let s := (s.setFld (Reg.SEQ_PRED.P t) s.fresh).took
  let s := (s.setReg (Reg.SEQ_G t 1 0) (signature.setWidth 32)).setReg (Reg.SEQ_G t 1 1) ((signature >>> 32).setWidth 32)
  let s := if tileType t = 3 then s.freeBytes ((tileBay t + 1) * stackSize - 2 ^ 26) (2 ^ 26) else s
  (s.setFld (Reg.SEQ_STATUS.BUSY t) 0).setSeqState t 0

/-- The local store is cleared, or the banks, which go back to firmware (R407). -/
def State.clearAfter (s : State) (t : Nat) : State :=
  if tileType t = 2 then s.giveBanks t 0 else s.zeroRange (storeAt t 0) (storeSize t)

/-- A tile's pass is complete. -/
def State.passDone (s : State) (t : Nat) : State :=
  let s := (s.setReg64 (Reg.SLG_TILE_PASS_LO t) s.tick).addFld (Reg.SLG_TILE_STATE.PASSES t) 1
  let s := s.setSparkTile t { s.sparkTile t with unit := 0, passed := true, served := false, target := false }
  if s.flag Reg.SLG_STATUS.COVER_DUE then s.showDue s.dueTiles else s

/-- SPARK_UNIT: the next unit of a tile's pass runs and is judged (R407, R408, R418, R419). A fault that it raises freezes nothing. -/
def sparkUnit (t cycles : Nat) (signature : DWord) (halted faulted : Bool) (s : State) : State :=
  let us := s.packUnits (tileType t)
  if s.gridLive = false ∨ s.flag Reg.SLG_CTRL.SPARK_EN = false ∨ s.quarantined t ∨ s.sparkIdle t = false then s
  else match us[(s.sparkTile t).unit]? with
    | none => s
    | some u =>
      let h := 128 + 64 * u
      let good := halted && !faulted && decide (cycles ≤ s.packNum (h + 16) 4) && signature.toNat == s.packNum (h + 8) 8
      let last := (s.sparkTile t).unit + 1 == us.length
      let s := ((s.placeUnit t u).unitLeaves t signature).clearAfter t
      if good = false then
        let s := (s.setReg Reg.SLG_SPARKFAIL (s.reg Reg.SLG_SPARKFAIL + 1)).setSparkTile t { s.sparkTile t with unit := 0 }
        (s.quarantine t).exposed t
      else if last then s.passDone t
      else s.setSparkTile t { s.sparkTile t with unit := (s.sparkTile t).unit + 1 }

/-- SPARK_ROTATION (R35, R408): the idle tiles are offered to Banking, the one whose last completed pass is oldest first. -/
def sparkRotation (s : State) : State :=
  if s.live ∧ s.place 6 then
    let idle := (List.range 240).filter (fun t => !s.quarantined t && s.sparkIdle t)
    let l := idle.foldl (fun l t => insertKey (s.reg64 (Reg.SLG_TILE_PASS_LO t), t) l) []
    { s with offered := l.map (·.2), boundary := 6 }
  else s

/-- COVER_DUE (R409): from the three-quarter point on, a tile with no pass in the period is due; with FORCE_EN its partition is
pre-empted at the next slice boundary. -/
def coverDue (s : State) : State :=
  let len := s.coverLen
  if s.live && s.onBoundary && decide (3 * (len / 4) ≤ s.strike % len) then
    let l := s.dueTiles
    let s := s.showDue l
    if s.flag Reg.SLG_CTRL.FORCE_EN then
      (l.filterMap s.partOf).foldl (fun s p => s.modPart p (fun x => { x with coverDue := true })) s
    else s
  else s

/-- The held pack takes effect (R410): every tile starts its pass anew. -/
def State.swapPack (s : State) : State :=
  if s.flag Reg.SLG_STATUS.PACK_PENDING then
    let s := { s with security := { s.security with pack := s.security.packHeld, packHeld := [] } }
    let s := (s.setFlag Reg.SLG_STATUS.PACK_PENDING false).showPack
    (List.range 240).foldl (fun s t => s.setSparkTile t { s.sparkTile t with unit := 0 }) s
  else s

/-- COVERAGE_PERIOD_END (R409, R410): COVER_MISS sets where a tile that is not quarantined lacks a pass. -/
def coveragePeriodEnd (s : State) : State :=
  let k := s.strike / s.coverLen
  if s.live && s.onBoundary && s.strike % s.coverLen == 0 && k != s.coverPeriod then
    let s := if (List.range 240).any (fun t => !s.quarantined t && !(s.sparkTile t).passed) then s.slgBit Reg.SLG_STATUS.COVER_MISS else s
    let s := (List.range 240).foldl (fun s t => s.setSparkTile t { s.sparkTile t with passed := false }) s
    { (s.showDue []).swapPack with coverPeriod := k }
  else s

def execSparkUnit (t : Fin 240) (cycles : Nat) (signature : DWord) (halted faulted : Bool) (s : State) :
    Host.Outcome State Fault Refusal := .next (sparkUnit t cycles signature halted faulted s)
def execSparkRotation (s : State) : Host.Outcome State Fault Refusal := .next (sparkRotation s)
def execCoverDue (s : State) : Host.Outcome State Fault Refusal := .next (coverDue s)
def execCoveragePeriodEnd (s : State) : Host.Outcome State Fault Refusal := .next (coveragePeriodEnd s)

end Sys2Proof.Machine
end

