-- ==== Sys2Proof/Machine/Sec.lean ====
section
/-! DEFINITION. The security core: signed objects, boot, loads, fuse commands, attestation and released functions (chapter 18). The end
of a fuse command is in Reset.lean, since a warm reset may wait for it. -/
namespace Sys2Proof.Machine

/-! ## Signed objects (R423, R424) -/

/-- The bytes of an object: `n` from an offset. -/
abbrev Reader := Nat → Nat → List Byte

def Reader.num (r : Reader) (o n : Nat) : Nat := leNat (r o n)
def Reader.zero (r : Reader) (o n : Nat) : Bool := (r o n).all (· == 0)

def State.flashBytes (s : State) (base : Nat) : Reader := fun o n => (List.range n).map (fun i => Sparse.get memReset s.flash (base + o + i))
def State.memBytes (s : State) (base : Nat) : Reader := fun o n => s.bytes (base + o) n

/-- The bank of the boot flash: A at 0, B at 16 MiB. -/
def flashBank (b : Nat) : Nat := b * 0x1000000

def imageVersion (r : Reader) : Nat := r.num 4 4
def imageLen (r : Reader) : Nat := r.num 8 4
def imageSlot (r : Reader) : Nat := r.num 12 1
def imageMinArb (r : Reader) : Nat := r.num 16 4

/-- Check 1 of R424 for a firmware image (Table 18-2). -/
def imageFormat (r : Reader) : Bool :=
  r.num 0 4 == 0x454B4657 && decide (1 ≤ imageVersion r) && decide (imageVersion r ≤ 64) && imageLen r % 4096 == 0 &&
    decide (4096 ≤ imageLen r) && decide (imageLen r ≤ 0xFFF000) && decide (imageSlot r ≤ 1) && r.zero 13 3 &&
    decide (imageMinArb r ≤ imageVersion r) && r.zero 20 4076

def packLen (r : Reader) : Nat := 128 * r.num 12 4

/-- Check 1 of R424 for a spark pack (Table 17-3): every unit's program and data lie within LENGTH. -/
def packFormat (r : Reader) : Bool :=
  let units := r.num 8 4
  let unitOk := fun u =>
    let h := 128 + 64 * u
    decide (r.num h 1 ≤ 3) && decide (r.num (h + 1) 1 < 16) && r.zero (h + 24) 40 &&
      decide (128 * (r.num (h + 20) 4 + ceilDiv (r.num (h + 2) 2) 16 + r.num (h + 4) 4) ≤ packLen r)
  r.num 0 4 == 0x534B5031 && decide (1 ≤ units) && decide (units ≤ 4096) && r.zero 80 48 && decide (128 + 64 * units ≤ packLen r) &&
    decide (r.num (packLen r) 4 ≤ 1) && (List.range units).all unitOk

/-- The fuse words of a key slot. -/
def State.keyHash (s : State) (slot : Nat) : Nat := (if slot = 0 then s.fuses.key0 else s.fuses.key1).toNat

/-- Checks 2 to 5 of R424 on the public key at `k`, the signature after it, and the bytes before the signature; 0 where all pass. -/
def State.checkSigned (s : State) (r : Reader) (slot k : Nat) (versionOk : Bool) : Nat :=
  if bitOf s.fuses.revoke.toNat slot then 2
  else if leNat (sha256 (r k 388)) ≠ s.keyHash slot then 3
  else if versionOk = false then 4
  else if signatureOk (r 0 (k + 388)) (r k 384) (r (k + 384) 4) (r (k + 388) 384) then 0
  else 5

/-- The check of R424 that an image fails, or 0. -/
def State.checkImage (s : State) (r : Reader) : Nat :=
  if imageFormat r then s.checkSigned r (imageSlot r) (imageLen r) (decide (s.fuses.fwArb ≤ imageVersion r)) else 1

/-- The check of R424 that a pack fails, or 0. -/
def State.checkPack (s : State) (r : Reader) : Nat :=
  if packFormat r then s.checkSigned r (r.num (packLen r) 4) (packLen r + 4) (decide (s.fuses.packArb ≤ r.num 4 4)) else 1

/-! ## Boot (R425) -/

/-- The image of a bank runs. -/
def State.bootBank (s : State) (b : Nat) : State :=
  let r := s.flashBytes (flashBank b)
  let s := (s.setFld Reg.SEC_STATUS.BANK b).setFlag Reg.SEC_STATUS.BOOTED true
  let s := s.setFld Reg.SEC_STATUS.BOOT_ERR 0
  { s with
    security := { s.security with
      slot := imageSlot r
      minArb := imageMinArb r
      fwDigest := BitVec.ofNat 256 (leNat (sha256 (r 0 (imageLen r + 772)))) }
    pins := { s.pins with faultPin := false, barsOpen := true } }

/-- The security boot: the bank of the higher VERSION first, bank A where they are equal; FAULT# is asserted where neither passes. -/
def State.securityBoot (s : State) : State :=
  let v := fun b => imageVersion (s.flashBytes (flashBank b))
  let first := if v 0 < v 1 then 1 else 0
  if s.checkImage (s.flashBytes (flashBank first)) = 0 then s.bootBank first
  else match s.checkImage (s.flashBytes (flashBank (1 - first))) with
    | 0 => s.bootBank (1 - first)
    | k =>
      let s := s.setFld Reg.SEC_STATUS.BOOT_ERR k
      { s with pins := { s.pins with faultPin := true } }

/-! ## Loads (R406, R410, R426, R427) -/

/-- Where the object lies, as an offset of the slot; none unless that is the own hot tier with the tier up. -/
def State.loadBase (s : State) : Option Nat :=
  let pa := s.fld Reg.SEC_LOAD_ADDR_LO.ADDR * 2 ^ 12 + s.fld Reg.SEC_LOAD_ADDR_HI.ADDR * 2 ^ 32
  match s.homeOf pa with
  | .hot b o => if s.homeUp (.hot b o) then some (pa % 2 ^ 54) else none
  | _ => none

/-- A verified pack is held until the next period boundary (R410). -/
def State.holdPack (s : State) (r : Reader) : State :=
  { s with security := { s.security with packHeld := r 0 (packLen r + 776) } }.setFlag Reg.SLG_STATUS.PACK_PENDING true

/-- Bytes are written into the boot flash. -/
def State.writeFlash (s : State) (base : Nat) (d : List Byte) : State :=
  { s with flash := (List.range d.length).foldl (fun f i => Sparse.set memReset f (base + i) (d.getD i 0)) s.flash }

/-- A verified image is written into the bank that did not boot (R426). -/
def State.writeImage (s : State) (r : Reader) : State :=
  s.writeFlash (flashBank (1 - s.fld Reg.SEC_STATUS.BANK)) (r 0 (imageLen r + 772))

/-- The check of R424 that the object at an offset fails, or 0. -/
def State.checkLoad (s : State) (image : Bool) (r : Reader) : Nat := if image then s.checkImage r else s.checkPack r

/-- A verified object takes effect. -/
def State.takeLoad (s : State) (image : Bool) (r : Reader) : State := if image then s.writeImage r else s.holdPack r

/-- The bytes of an object that its check reads: all of it and its trailer, or its header alone where that is malformed. -/
def objectLen (image : Bool) (r : Reader) : Nat :=
  if image then (if imageFormat r then imageLen r + 772 else 4096) else if packFormat r then packLen r + 776 else 128

/-- RESULT of a load (Table 18-9). -/
def State.loadResult (s : State) (k : Nat) : State := s.setFld Reg.SEC_LOAD_CMD.RESULT k

/-- The object at an offset of the slot is read through the Hearth cache (R177) and checked, and takes effect where it passes. -/
def State.loadAt (s : State) (image : Bool) (a : Nat) : State :=
  let s := s.pass a (objectLen image (s.memBytes a)) false
  if s.checkLoad image (s.memBytes a) = 0 then (s.takeLoad image (s.memBytes a)).loadResult 1
  else s.loadResult (s.checkLoad image (s.memBytes a) + 1)

/-- A load of the object at an offset, if it can be read. -/
def State.loadFrom (s : State) (res : EndKind) : Option Nat → State
  | none => s.loadResult 8
  | some a => if res = .ok then s.loadAt (s.flag Reg.SEC_LOAD_CMD.TYPE) a else s.loadResult 8

/-- A load runs (R427). It ends within its command, so that START never finds LOAD_BUSY. -/
def State.runLoad (s : State) (res : EndKind) : State := s.loadFrom res s.loadBase

/-- A write of SEC_LOAD_CMD. -/
def State.writeLoadCmd (s : State) (v : Word) (res : EndKind) : State :=
  let s := s.setFlag Reg.SEC_LOAD_CMD.TYPE (bitOf v.toNat 8)
  if bitOf v.toNat 31 then s.runLoad res else s

/-- A write of SEC_LOAD_CMD as the row of a TYPE. -/
def State.loadRow (s : State) (m : Master) (image : Bool) (v : Word) (res : EndKind) : State :=
  if s.live && bitOf v.toNat 31 && bitOf v.toNat 8 == image then s.byFirmware m Reg.SEC_LOAD_CMD (·.writeLoadCmd v res) else s

/-! ## Fuse commands (R428) -/

/-- VERSION of the pack in force as PACK_ARB can count it; 0 where there is none (Table 17-3, Table 18-3). -/
def State.packTarget (s : State) : Nat := min 64 (s.packNum 4 4)

/-- An operation of Table 18-3: whether it is refused, and the count its counter is raised to. -/
def State.fuseRefused (s : State) (op : Nat) : Bool :=
  match op with
  | 1 => s.security.slot == 0 || bitOf s.fuses.revoke.toNat 1
  | 2 => s.security.slot == 1 || bitOf s.fuses.revoke.toNat 0
  | 3 => decide (s.security.minArb ≤ s.fuses.fwArb)
  | 4 => decide (s.packTarget ≤ s.fuses.packArb)
  | 5 => false
  | _ => true

def State.fuseTarget (s : State) (op : Nat) : Nat :=
  if op = 3 then s.security.minArb else if op = 4 then s.packTarget else 0

/-- START of a fuse command. -/
def State.startFuse (s : State) (op : Nat) : State :=
  let ok := s.security.confirmed
  let res := fun (k : Nat) => { s with security := { s.security with confirmed := false } }.setFld Reg.SEC_FUSE_CMD.RESULT k
  if s.flag Reg.SEC_STATUS.FUSE_BUSY then res 3
  else if ok = false ∨ s.fuseRefused op then res 2
  else if op = 5 ∧ s.fuses.debugLock then res 1
  else
    let t := s.fuseTarget op
    let s := ((res 0).setFlag Reg.SEC_STATUS.FUSE_BUSY true)
    { s with security := { s.security with fuseOp := some (op, t) } }

/-- A write of SEC_FUSE_CMD. -/
def State.writeFuseCmd (s : State) (v : Word) : State :=
  let s := s.setFld Reg.SEC_FUSE_CMD.OP (bits v.toNat 0 3)
  if bitOf v.toNat 31 then s.startFuse (bits v.toNat 0 3) else s

/-- A write of SEC_FUSE_CONFIRM. -/
def State.writeConfirm (s : State) (v : Word) : State :=
  { s with security := { s.security with confirmed := v == 0x46555345 } }

/-- A write of SEC_FUSE_CMD as the row of an operation. -/
def State.fuseRow (s : State) (m : Master) (ops : List Nat) (v : Word) : State :=
  if s.live && bitOf v.toNat 31 && ops.contains (bits v.toNat 0 3) then s.byFirmware m Reg.SEC_FUSE_CMD (·.writeFuseCmd v) else s

/-- The fuses after the command in progress has blown `blown` bits of its counter, and the single fuse if it has blown any. -/
def Fuses.blow (f : Fuses) (op target blown : Nat) : Fuses :=
  match op with
  | 1 => if blown = 0 then f else { f with revoke := f.revoke ||| 1 }
  | 2 => if blown = 0 then f else { f with revoke := f.revoke ||| 2 }
  | 3 => { f with fwArb := max f.fwArb (min target (f.fwArb + blown)) }
  | 4 => { f with packArb := max f.packArb (min target (f.packArb + blown)) }
  | _ => if blown = 0 then f else { f with debugLock := true }

/-- The command in progress ends (R428). -/
def State.endFuse (s : State) : State :=
  match s.security.fuseOp with
  | none => s
  | some (op, t) =>
    let s := (s.setFlag Reg.SEC_STATUS.FUSE_BUSY false).setFld Reg.SEC_FUSE_CMD.RESULT 1
    { s with fuses := s.fuses.blow op t 64, security := { s.security with fuseOp := none } }

/-! ## Released functions (R433) -/

/-- The functions of a half are released. -/
def State.releaseFns (s : State) (half : Nat) (v : Word) : State :=
  s.setReg (Reg.SEC_FNFRZ half) (s.reg (Reg.SEC_FNFRZ half) &&& ~~~ v)

/-- A write of SEC_FNREL. -/
def State.writeFnrel (s : State) (m : Master) (half : Nat) (v : Word) : State :=
  if s.reaches m (Reg.SEC_FNREL half) = false then s
  else match m with
  | .firmware => s.releaseFns half v
  | .rackManager => s
  | .security => s
  | .host f =>
    if s.fnFrozen f then s
    else if f.val = 0 then s.releaseFns half (if half = 0 then v &&& ~~~ 1 else v)
    else s.closedWrite f (Reg.SEC_FNREL half)

/-! ## Attestation (R429 to R431). The response codes and the places of fields are those of SPDM 1.2 (PRESUMED; log 24). -/

/-- An SPDM response, where the host can ask at all: ERROR Busy until BOOTED is set. -/
def State.spdm (s : State) (act : State → State) : State :=
  if s.on = false ∨ s.hostUp = false then s
  else if s.flag Reg.SEC_STATUS.BOOTED then act s
  else s.emit (.spdm 0x7F [0x03, 0])

def State.spdmError (s : State) (code : Byte) : State := s.emit (.spdm 0x7F [code, 0])

/-- Bytes that are open: responder nonces and signatures, whose salt is random (log 24). -/
def State.openBytes (s : State) (n : Nat) : List Byte × State := (natLE n s.fresh, s.took)

/-- The certificate chain in flash: its first two bytes give its length. -/
def State.chain (s : State) : List Byte :=
  let r := s.flashBytes 0x2000000
  r 0 (r.num 0 2)

def wordsBytes (s : State) (reg : Nat → Nat) : List Byte := (List.range 8).flatMap (fun k => natLE 4 (s.reg (reg k)).toNat)

/-- The value of a measurement (Table 18-5); none for an index that is not in the table. -/
def State.measurement (s : State) (i : Nat) : Option (List Byte) :=
  if i = 1 then some ((List.range 32).map (fun k => BitVec.ofNat 8 (Sys2Proof.Config.romDigest k)))
  else if i = 2 then some (natLE 32 s.security.fwDigest.toNat)
  else if i = 3 then some (if s.security.pack.isEmpty then natLE 32 0 else sha256 s.security.pack)
  else if i = 4 then some ([BitVec.ofNat 8 (ofBool s.fuses.debugLock), BitVec.ofNat 8 (s.fld Reg.SEC_STATUS.DEBUG_USED),
    BitVec.ofNat 8 s.fuses.revoke.toNat, BitVec.ofNat 8 s.fuses.fwArb, BitVec.ofNat 8 s.fuses.packArb] ++ natLE 3 0)
  else if 16 ≤ i ∧ i < 28 then some (if s.activeValid (i - 16) && s.hasJob (i - 16) then wordsBytes s (Reg.CFG_P_AMEAS (i - 16)) else natLE 32 0)
  else if 32 ≤ i ∧ i < 44 then some (if 2 ≤ s.shadowSet (i - 32) then wordsBytes s (Reg.CFG_P_SMEAS (i - 32)) else natLE 32 0)
  else none

/-- The indices of Table 18-5. -/
def measIndices : List Nat := List.range' 1 4 ++ List.range' 16 12 ++ List.range' 32 12

/-- A measurement block in the DMTF form. -/
def measBlock (i : Nat) (v : List Byte) : List Byte :=
  let type := if i = 1 then 0 else if i < 4 then 1 else if i = 4 then 0x82 else 3
  natLE 1 i ++ natLE 1 1 ++ natLE 2 (v.length + 3) ++ natLE 1 type ++ natLE 2 v.length ++ v

/-- Every block, read at one instant (R431). -/
def State.allBlocks (s : State) : List Byte := measIndices.flatMap (fun i => measBlock i ((s.measurement i).getD []))

/-- GET_MEASUREMENTS: index 0 asks for their number, 0xFF for all. -/
def State.measure (s : State) (i : Nat) (sign : Bool) : State :=
  let answer := fun (n : Nat) (d : List Byte) =>
    let r := s.openBytes (if sign then 32 + 384 else 32)
    r.2.emit (.spdm 0x60 (natLE 1 n ++ natLE 3 d.length ++ d ++ r.1))
  if i = 0 then answer measIndices.length []
  else if i = 0xFF then answer measIndices.length s.allBlocks
  else match s.measurement i with
    | some v => answer 1 (measBlock i v)
    | none => s.spdmError 0x01

/-- CHALLENGE for slot 0: the chain's digest, a nonce, the summary hash asked for and a signature. Which blocks the trusted base holds is
not stated, so that summary is free. -/
def State.challenge (s : State) (slot sumType : Nat) : State :=
  if slot ≠ 0 then s.spdmError 0x01
  else
    let n := s.openBytes 32
    let sum := if sumType = 0 then ([], n.2) else if sumType = 0xFF then (sha256 n.2.allBlocks, n.2) else n.2.openBytes 32
    let sig := sum.2.openBytes 384
    sig.2.emit (.spdm 0x03 (natLE 1 0 ++ natLE 1 1 ++ sha256 s.chain ++ n.1 ++ sum.1 ++ sig.1))

/-- GET_CERTIFICATE: a portion of the chain of slot 0, and how much follows it. -/
def State.certificate (s : State) (slot off len : Nat) : State :=
  let c := s.chain
  if slot ≠ 0 ∨ c.length ≤ off then s.spdmError 0x01
  else
    let d := (c.drop off).take len
    s.emit (.spdm 0x02 (natLE 1 0 ++ natLE 1 0 ++ natLE 2 d.length ++ natLE 2 (c.length - off - d.length) ++ d))

/-- DEBUG_SESSION_OPEN (R431, R435). -/
def debugSessionOpen (imagePermits : Bool) (s : State) : State :=
  if s.on = false ∨ s.fuses.debugLock = true then s
  else if s.flag Reg.SEC_STATUS.BOOTED = false ∨ imagePermits then s.setFlag Reg.SEC_STATUS.DEBUG_USED true
  else s

/-! ## The rows -/

def execPackLoad (m : Master) (v : Word) (res : EndKind) (s : State) : Host.Outcome State Fault Refusal := .next (s.loadRow m false v res)
def execImageLoad (m : Master) (v : Word) (res : EndKind) (s : State) : Host.Outcome State Fault Refusal := .next (s.loadRow m true v res)
def execRevokeSlot (m : Master) (v : Word) (s : State) : Host.Outcome State Fault Refusal := .next (s.fuseRow m [1, 2] v)
def execRaiseFwArb (m : Master) (v : Word) (s : State) : Host.Outcome State Fault Refusal := .next (s.fuseRow m [3] v)
def execRaisePackArb (m : Master) (v : Word) (s : State) : Host.Outcome State Fault Refusal := .next (s.fuseRow m [4] v)
def execBlowDebugLock (m : Master) (v : Word) (s : State) : Host.Outcome State Fault Refusal := .next (s.fuseRow m [5] v)
def execSecFnrel (m : Master) (high : Bool) (v : Word) (s : State) : Host.Outcome State Fault Refusal :=
  .next (s.writeFnrel m (ofBool high) v)
def execGetVersion (s : State) : Host.Outcome State Fault Refusal := .next (s.spdm (·.emit (.spdm 0x04 [0, 1, 0, 0x12])))
def execGetCapabilities (s : State) : Host.Outcome State Fault Refusal :=
  .next (s.spdm (·.emit (.spdm 0x61 (natLE 4 (2 + 4 + 16)))))
def execNegotiateAlgorithms (s : State) : Host.Outcome State Fault Refusal :=
  .next (s.spdm (·.emit (.spdm 0x63 (natLE 1 1 ++ natLE 4 2 ++ natLE 4 8 ++ natLE 4 1))))
def execGetDigests (s : State) : Host.Outcome State Fault Refusal :=
  .next (s.spdm (fun s => s.emit (.spdm 0x01 (natLE 1 1 ++ sha256 s.chain))))
def execGetCertificate (slot : BitVec 4) (off len : BitVec 16) (s : State) : Host.Outcome State Fault Refusal :=
  .next (s.spdm (·.certificate slot.toNat off.toNat len.toNat))
def execChallenge (slot : BitVec 8) (sumType : Byte) (_nonce : BitVec 256) (s : State) : Host.Outcome State Fault Refusal :=
  .next (s.spdm (·.challenge slot.toNat sumType.toNat))
def execGetMeasurements (index : Byte) (sign : Bool) (_nonce : BitVec 256) (s : State) : Host.Outcome State Fault Refusal :=
  .next (s.spdm (·.measure index.toNat sign))
def execDebugSessionOpen (imagePermits : Bool) (s : State) : Host.Outcome State Fault Refusal := .next (debugSessionOpen imagePermits s)

end Sys2Proof.Machine
end

