-- ==== Sys2Proof/Machine/Registers.lean ====
section
/-! DEFINITION. Writes and reads of the control-register window (R8, R9, R20, R182). A write takes effect by the access codes of the register's
fields and by the rules of its block; a write that a row of its own stands for takes effect here as it does there. -/
namespace Sys2Proof.Machine

/-! ## Access codes -/

/-- What a write leaves in a register: W1C bits and fields clear, RW and WO fields take the value, RWL fields do so until the block's
lock is set, and W1S bits set. -/
def RegSpec.written (r : RegSpec) (locked : Bool) (old v : Word) : Word :=
  let rw := BitVec.ofNat 32 (r.rw + r.wo + (if locked then 0 else r.rwl))
  let old := old &&& ~~~ (v &&& BitVec.ofNat 32 r.w1c)
  let old := r.w1cAll.foldl (fun (w : Word) m => if v &&& BitVec.ofNat 32 m = 0 then w else w &&& ~~~ BitVec.ofNat 32 m) old
  (old &&& ~~~ rw) ||| (v &&& rw) ||| (v &&& BitVec.ofNat 32 r.w1s)

/-- The lock of the block that holds an offset is set (R9, R23). -/
def State.lockedAt (s : State) (o : Nat) : Bool :=
  if o < 0x10000 then s.flag Reg.DEV_LOCK.LOCK
  else if o < 0x30000 then s.flag Reg.PWR_LOCK.LOCK
  else if o < 0xC000000 then s.flag Reg.MSH_LOCK.LOCK
  else s.flag Reg.CXL_LOCK.LOCK

/-- A write that the access codes alone govern. An offset that no block lists is not written (R20). -/
def State.writePlain (s : State) (o : Nat) (v : Word) : State :=
  match regSpec o with
  | some r => s.setReg o (r.written (s.lockedAt o) (s.reg o) v)
  | none => s

/-- The number of the copy of a register at an offset: `n` copies from `base` on. -/
def copyOf (o base stride n : Nat) : Option Nat :=
  if base ≤ o ∧ (o - base) % stride = 0 ∧ (o - base) / stride < n then some ((o - base) / stride) else none

/-- The numbers of the copy of a register that comes `n` times, each `n2` times. -/
def copyOf2 (o base stride n stride2 n2 : Nat) : Option (Nat × Nat) :=
  if base ≤ o ∧ (o - base) / stride < n ∧ (o - base) % stride % stride2 = 0 ∧ (o - base) % stride / stride2 < n2 then
    some ((o - base) / stride, (o - base) % stride / stride2)
  else none

/-! ## Blocks -/

def State.writePwr (s : State) (o : Nat) (v : Word) : State :=
  if o = Reg.PWR_CAP then s.writeCap v else if o = Reg.PWR_BANK then s.writePwrBank v else s.writePlain o v

def State.writeSec (s : State) (o : Nat) (v : Word) : State :=
  if o = Reg.SEC_FUSE_CMD then s.writeFuseCmd v
  else if o = Reg.SEC_FUSE_CONFIRM then s.writeConfirm v
  else if o = Reg.SEC_LOAD_CMD then s.writeLoadCmd v .ok
  else s.writePlain o v

/-- Firmware quarantines tiles (Table 17-10). -/
def State.writeQuar (s : State) (k : Nat) (v : Word) : State :=
  (List.range 32).foldl (fun s i =>
    if bitOf v.toNat i ∧ 32 * k + i < 240 ∧ s.quarantined (32 * k + i) = false then s.quarantine (32 * k + i) else s) s

/-- Firmware clears suspicions: the tiles are OK again (Table 17-10; DEDUCED, log 25). -/
def State.writeSusp (s : State) (k : Nat) (v : Word) : State :=
  let s := (List.range 32).foldl (fun s i =>
    if bitOf v.toNat i ∧ 32 * k + i < 240 ∧ s.fld (Reg.SLG_TILE_STATE.STATE (32 * k + i)) = 1 then
      s.setFld (Reg.SLG_TILE_STATE.STATE (32 * k + i)) 0
    else s) s
  s.setReg (Reg.SLG_SUSP k) (s.reg (Reg.SLG_SUSP k) &&& ~~~ v)

/-- SLG_Pp_JOBj_CTL: ENVSEL is writable while the job is not resident (Table 17-9). -/
def State.writeJobEnv (s : State) (p j : Nat) (v : Word) : State :=
  let s' := s.setFlag (Reg.SLG_P_JOB_CTL.VALID p j) (bitOf v.toNat 31)
  if s.resident p = some j then s' else s'.setFlag (Reg.SLG_P_JOB_CTL.ENVSEL p j) (bitOf v.toNat 0)

def State.writeSlg (s : State) (o : Nat) (v : Word) : State :=
  match copyOf o (Reg.SLG_QUAR 0) 4 8, copyOf o (Reg.SLG_SUSP 0) 4 8, copyOf2 o (Reg.SLG_P_JOB_CTL 0 0) 0x80 12 16 8 with
  | some k, _, _ => s.writeQuar k v
  | _, some k, _ => s.writeSusp k v
  | _, _, some (p, j) => s.writeJobEnv p j v
  | _, _, _ => s.writePlain o v

def State.writePrt (s : State) (o : Nat) (v : Word) : State :=
  match copyOf o (Reg.PRT_P_CTRL 0) 0x80 12, copyOf o (Reg.PRT_P_BAYS 0) 0x80 12, copyOf2 o (Reg.PRT_P_JOB_CTX_LO 0 0) 0x80 12 8 8,
      copyOf2 o (Reg.PRT_P_JSTAT 0 0) 0x80 12 4 8 with
  | some p, _, _, _ => if s.live then s.writePrtCtrl p v else s
  | _, some p, _, _ => if s.partState p = 0 then s.writePlain o v else s
  | _, _, some (p, j), _ => s.writeCtxLo p j v
  | _, _, _, some (p, j) => s.writeJstat p j v
  | _, _, _, _ => s.writePlain o v

/-- SRV_CTRL: BUDDY_EN and HOSTJ_EN decide where the journal's copy goes (R368, R369). -/
def State.writeSrvCtrl (s : State) (v : Word) : State :=
  ((s.writePlain Reg.SRV_CTRL v).chooseCopy (s.flag Reg.SRV_CTRL.BUDDY_EN)).finishAccepts

def State.writeSrv (s : State) (o : Nat) (v : Word) : State :=
  if o = Reg.SRV_CTRL then s.writeSrvCtrl v
  else match copyOf o (Reg.SRV_LOG_CTL 0) 0x20 64 with
    | some n => s.writeLogCtl (Fin.ofNat 64 n) v
    | none => s.writePlain o v

/-- A word of a weight-set descriptor (R298). -/
def State.writeWs (s : State) (o : Nat) (v : Word) : State :=
  let w := (o - Reg.CFG_WS_W0 0) / 0x40
  let i := (o - Reg.CFG_WS_W0 0) % 0x40
  if i = 0 then s.writeWsW0 w v
  else if 0x14 ≤ i ∧ i < 0x24 then s.writeWsSlot w ((i - 0x14) / 8) o v
  else if i = 0x24 ∨ i = 0x28 then s.writeWsSlot w ((i - 0x24) / 4) o v
  else s

def State.writeCfg (s : State) (o : Nat) (v : Word) : State :=
  if o = Reg.CFG_ADMIT_CTRL then s.writeAdmit v
  else if o = Reg.CFG_WS_CMD then s.writeWsCmd v
  else if Reg.CFG_WS_W0 0 ≤ o then s.writeWs o v
  else match copyOf o (Reg.CFG_P_CTRL 0) 0x80 12, copyOf o (Reg.CFG_P_ING_POST 0) 0x80 12 with
    | some p, _ => s.writeCfgCtrl p v
    | _, some p => s.ingPost p v
    | _, _ => s.writePlain o v

def State.writeXlt (s : State) (o : Nat) (v : Word) : State :=
  if o = Reg.XLT_CTRL then s.writeXltCtrl v else if o = Reg.XLT_INV_CTRL then s.writeInvCtrl v else s.writePlain o v

/-- The number of a TIER_ register, of those that Table 09-20 lists. -/
def tierAt (o : Nat) : Option Nat :=
  match copyOf o (Reg.TIER_UNIT 0) 4 26 with
  | some u => if u < 12 ∨ 16 ≤ u then some u else none
  | none => none

def State.writeTierBlock (s : State) (o : Nat) (v : Word) : State :=
  if o = Reg.TIER_CTRL then s.writeTierCtrl v
  else match tierAt o with
    | some u => s.writeTier u v
    | none => s.writePlain o v

/-- A write of MSH_VCCRDv takes effect only while every port is OFF, and a sum above 4,096 is refused (R313). -/
def State.writeShare (s : State) (k : Nat) (v : Word) : State :=
  let s' := s.writePlain (Reg.MSH_VCCRD k) v
  if (List.range 5).all (fun n => s.fld (Reg.MSH_PORT_STAT.STATE n) == 0) &&
      decide (((List.range 8).map (fun i => s'.fld (Reg.MSH_VCCRD.FRAMES i))).sum ≤ 4096) then s' else s

def State.writeMsh (s : State) (o : Nat) (v : Word) : State :=
  if o = Reg.MSH_CTRL then s.writeMshCtrl v
  else match copyOf o (Reg.MSH_PORT_CTRL 0) 4 5, copyOf o (Reg.MSH_VCCRD 0) 4 8, copyOf o (Reg.MSH_P_CTRL 0) 32 12 with
    | some n, _, _ => s.writePortCtrl n v
    | _, some k, _ => s.writeShare k v
    | _, _, some p => s.writeMshPart p v
    | _, _, _ => s.writePlain o v

/-! ## The blocks of a tile -/

/-- A Shadow copy is written, unless a swap is armed (R49). -/
def State.writeShadow (s : State) (t o : Nat) (v : Word) : State :=
  if s.tileArmed t then s.setFlag (Reg.GRD_STATUS.WR_IGNORED t) true else s.writePlain o v

/-- A register that is written only while the tile's partition is frozen or pre-empted (R93). -/
def State.writeAtRest (s : State) (t o : Nat) (v : Word) : State :=
  if (match s.partOf t with
      | some p => s.halted p
      | none => false) then s.writePlain o v
  else s.setFlag (Reg.SEQ_STATUS.WR_IGNORED t) true

def State.writeGrdBlock (s : State) (t o : Nat) (v : Word) : State :=
  let i := o % 0x10000
  if i = 4 then s.writeGrd t false v
  else if i = 8 then s.writeGrd t true v
  else if (0x200 ≤ i ∧ i < 0x280) ∨ (0x400 ≤ i ∧ i < 0x480) then s.writeShadow t o v
  else s.writePlain o v

/-- The TILE_SEQ_ registers: g0 is read-only and reads 0 (Table 04-16), and bits in a stream field's reserved positions are discarded
(R65, R93). -/
def State.writeSeq (s : State) (t o : Nat) (v : Word) : State :=
  let i := o % 0x10000
  if i < 0x100C then s.writePlain o v
  else if i = 0x1100 ∨ i = 0x1104 then s
  else if 0x1200 ≤ i ∧ i < 0x1300 then s.writeAtRest t o (BitVec.ofNat 32 (v.toNat % strmMask (i / 4 % 4)))
  else if (regSpec o).isSome then s.writeAtRest t o v
  else s

def State.writeBil (s : State) (t o : Nat) (v : Word) : State :=
  if o = Reg.BIL_MARCH_CTRL t then s.marchStart t v
  else if o = Reg.BIL_OWN_BULK t then s.ownBulk t v
  else match copyOf o (Reg.BIL_OWN t 0) 4 48 with
    | some b => s.handOver t b v.toNat
    | none => s.writePlain o v

def State.writeMov (s : State) (t o : Nat) (v : Word) : State :=
  let i := o % 0x10000
  if (0x1420 ≤ i ∧ i < 0x1430) ∨ (0x1C00 ≤ i ∧ i < 0x1C80) then s.writeAtRest t o v
  else if 0x1A00 ≤ i ∧ i < 0x1C00 then s.writeShadow t o v
  else s.writePlain o v

def State.writeTile (s : State) (t o : Nat) (v : Word) : State :=
  let i := o % 0x10000
  if i < 0x1000 then s.writeGrdBlock t o v
  else if i < 0x1400 then s.writeSeq t o v
  else if tileType t = 2 then s.writeBil t o v
  else if tileType t = 3 then s.writeMov t o v
  else s.writePlain o v

/-! ## The window -/

/-- A write of a register by a master, block by block (Table 08-3). An offset of no block is not written (R20). -/
def State.writeRegister (s : State) (m : Master) (o : Nat) (v : Word) : State :=
  if o < 0x10000 then s.byDevMasters m o (·.writePlain o v)
  else if o < 0x20000 then s.byFirmwareOrRack m o (fun s => if o = Reg.TIME_CTRL then s.writeTimeCtrl v else s.writePlain o v)
  else if o < 0x30000 then s.byPower m (·.writePwr o v)
  else if o < 0x40000 then
    match copyOf o (Reg.SEC_FNREL 0) 4 2 with
    | some h => s.writeFnrel m h v
    | none => s.byFirmware m o (·.writeSec o v)
  else if o < 0x50000 then s.byFirmware m o (·.writeSlg o v)
  else if o < 0x60000 then s.byFirmware m o (·.writePrt o v)
  else if 0x60400 ≤ o ∧ o < 0x60C00 then s.byLogMasters m o (·.writeSrv o v)
  else if o < 0x70000 then s.byFirmware m o (·.writeSrv o v)
  else if o < 0x80000 then s.byFirmware m o (·.writeCfg o v)
  else if 0x8000000 ≤ o ∧ o < 0x9000000 then s.byFirmware m o (·.writeXlt o v)
  else if 0x9000000 ≤ o ∧ o < 0xA000000 then s.byFirmware m o (·.writeTierBlock o v)
  else if 0xA000000 ≤ o ∧ o < 0xB000000 then s.byFirmware m o (·.writePlain o v)
  else if 0xB000000 ≤ o ∧ o < 0xC000000 then s.byFirmwareOrRack m o (·.writeMsh o v)
  else if 0xC000000 ≤ o ∧ o < 0xD000000 then s.byFirmwareOrRack m o (·.writePlain o v)
  else if 0x10000000 ≤ o ∧ o < 0x10F00000 then s.byFirmware m o (·.writeTile ((o - 0x10000000) / 0x10000) o v)
  else s

/-- REGISTER_WRITE: nothing is written while the write reaches no register (R10, R345). -/
def registerWrite (m : Master) (o : Nat) (v : Word) (s : State) : State := if s.reaches m o then s.writeRegister m o v else s

/-! ## Reads: fields that show the state of a block -/

/-- A field of a word replaced, where the word is the field's register. -/
def showFld (o : Nat) (f : Field) (v : Nat) (w : Nat) : Nat := if f.off = o then withBits w f.lo f.width v else w

/-- The opcode that E2 or E3 holds, as the position in a list of opcodes counted from 1; 0 where it holds none of them. -/
def State.showOp (s : State) (t e : Nat) (ops : List Nat) : Nat :=
  if s.engineBusy t e then (match ops.idxOf? (wOp (s.heldWord t e)) with
    | some k => k + 1
    | none => 0) else 0

/-- E2 waits for a block (Table 05-14). -/
def State.showWaiting (s : State) (t : Nat) : Bool :=
  let w := s.heldWord t 2
  let g := max 1 (dimM (s.op t 2 0) / 8)
  s.engineBusy t 2 && s.shadow t != 2 && (wOp w == 0x41 || (wOp w == 0x44 && mmaWs w && s.prog t 2 % g == 0))

/-- What a mover shows in MOV_Mm_STAT (Table 09-17). -/
def State.moverStat (s : State) (m : Nat) : Nat :=
  let x := s.mover m
  let h := x.queue.head?
  x.queue.length * 2 ^ 28 + x.inflight.length * 2 ^ 24 + ((h.map (·.op)).getD 0) * 2 ^ 16 + ((h.map (·.xfm)).getD 0) * 2 ^ 12 +
    ofBool (!x.queue.isEmpty || !x.inflight.isEmpty)

/-- STATE as a read shows it: FROZEN in a frozen partition, and SAVED where a pre-empted job's tile is not IDLE (Table 04-13; the latter
DEDUCED, log 25). -/
def State.showSeq (s : State) (t : Nat) : Nat :=
  match s.partOf t with
  | some p => if s.flag (Reg.PRT_P_STAT.FROZEN p) then 5
    else if s.partState p = 2 ∧ s.flag (Reg.PRT_P_STAT.RES_VALID p) = false ∧ s.seqState t ≠ 0 then 6
    else s.seqState t
  | none => s.seqState t

/-- The fields of a tile's registers that show its state. SHD_UNITS shows the units that the shadow set holds outside LOADING too (DESIGN CHOICE,
log 55). -/
def State.viewTile (s : State) (t o w : Nat) : Nat :=
  let p := s.partOf t
  let frozen := (p.map (fun p => s.flag (Reg.PRT_P_STAT.FROZEN p))).getD false
  match copyOf o (Reg.GRD_QOCC t 0) 4 32 with
  | some q => s.qoccWord t q
  | none =>
    let w := showFld o (Reg.SEQ_G.VALUE t 0 0) 0 (showFld o (Reg.SEQ_G.VALUE t 0 1) 0 w)
    let w := showFld o (Reg.GRD_STATUS.SWAP_ARMED t) (ofBool (s.tileArmed t)) w
    let w := if o = Reg.GRD_STATUS t then showFld o (Reg.GRD_STATUS.LAYOUT_ERR t) (ofBool (s.layoutErr t)) w else w
    let w := if o = Reg.GRD_STATUS t then showFld o (Reg.GRD_STATUS.DRAINED t) (ofBool (s.drained t)) w else w
    let w := showFld o (Reg.GRD_STATUS.FROZEN t) (ofBool frozen) w
    let w := showFld o (Reg.SEQ_STATUS.STATE t) (s.showSeq t) w
    let w := showFld o (Reg.SEQ_IMEM.ARMED t) (ofBool (s.tileArmed t)) w
    match tileType t with
    | 0 =>
      let w := showFld o (Reg.ANV_STATUS.WAITING t) (ofBool (s.showWaiting t)) w
      let w := showFld o (Reg.ANV_STATUS.E2_OP t) (s.showOp t 2 [0x44, 0x41]) w
      let w := showFld o (Reg.ANV_STATUS.E3_OP t) (s.showOp t 3 [0x40, 0x48]) w
      showFld o (Reg.ANV_STATUS.SHD_UNITS t) (s.tile t).wshd.length w
    | 1 =>
      let w := showFld o (Reg.TMP_STATUS.E2_OP t) (s.showOp t 2 [0x60, 0x64, 0x66]) w
      showFld o (Reg.TMP_STATUS.E3_OP t) (s.showOp t 3 [0x68, 0x6A, 0x6C, 0x6E]) w
    | 2 =>
      let march := (s.tile t).fwMarch.isSome
      let w := showFld o (Reg.BIL_STATUS.E2_OP t) (s.showOp t 2 [0x80, 0x81]) w
      let w := showFld o (Reg.BIL_STATUS.E3_OP t) (if march then 2 else s.showOp t 3 [0x88]) w
      showFld o (Reg.BIL_MARCH_STAT.BUSY t) (ofBool (march || s.engineBusy t 3)) w
    | _ =>
      let b := tileBay t
      let on := ((List.range 16).filter (fun n => s.strState b n == 1)).map (2 ^ ·)
      let busy := ((List.range 4).filter (fun i => bitOf (s.moverStat (4 * b + i)) 0)).map (2 ^ ·)
      let w := showFld o (Reg.MOV_STATUS.STR_ON t) on.sum w
      let w := showFld o (Reg.MOV_STATUS.M_BUSY t) busy.sum w
      match copyOf o (Reg.MOV_M_STAT t 0) 4 4, copyOf o (Reg.MOV_STR_STAT t 0) 8 16 with
      | some m, _ => s.moverStat (4 * b + m)
      | _, some n => showFld o (Reg.MOV_STR_STAT.INFLIGHT t n) ((s.stream b n).started.filter (fun i => i.kind == .tile)).length w
      | _, _ => w

/-- The sum of the bits whose numbers meet a test. -/
def bitsWhere (n : Nat) (test : Nat → Bool) : Nat := (((List.range n).filter test).map (2 ^ ·)).sum

/-- The fields of DEV_, SEC_ and SLG_ that show fuses and open steps. -/
def State.viewFused (s : State) (o w : Nat) : Nat :=
  let f := s.fuses
  let w := showFld o Reg.DEV_SERIAL_LO.SERIAL f.serial.toNat w
  let w := showFld o Reg.DEV_SERIAL_HI.SERIAL (f.serial.toNat / 2 ^ 32) w
  let w := showFld o Reg.SEC_STATUS.DEBUG_LOCKED (ofBool f.debugLock) w
  let w := showFld o Reg.SEC_STATUS.REVOKED f.revoke.toNat w
  let w := showFld o Reg.SEC_ARB.FW f.fwArb w
  let w := showFld o Reg.SEC_ARB.PACK f.packArb w
  match copyOf2 o (Reg.SEC_KEY_HASH 0 0) 32 2 4 8, copyOf o (Reg.SLG_P_VSTAT 0) 0x20 12 with
  | some (k, i), _ => (if k = 0 then f.key0 else f.key1).toNat / 2 ^ (32 * i) % 2 ^ 32
  | _, some p => showFld o (Reg.SLG_P_VSTAT.OPEN p) ((s.part p).steps.filter (·.open_)).length w
  | _, _ => w

/-- The fields of PRT_, SRV_ and CFG_ that show the state. -/
def State.viewWork (s : State) (o w : Nat) : Nat :=
  let w := showFld o Reg.PRT_STATUS.FROZEN (bitsWhere 12 (fun p => s.flag (Reg.PRT_P_STAT.FROZEN p))) w
  let w := showFld o Reg.PRT_STATUS.BAYMAP (bitsWhere 12 (fun b => (s.bayPart b).isSome)) w
  let w := if o = Reg.SRV_STATUS then
      let w := showFld o Reg.SRV_STATUS.RT_FULL (ofBool (decide (131072 ≤ (s.requests.filter (fun e => e.2.state != .free)).length))) w
      let w := showFld o Reg.SRV_STATUS.OUT_WAIT (ofBool ((List.range 64).any (fun n => s.flag (Reg.SRV_LOG_STAT.OUT_WAIT n)))) w
      showFld o Reg.SRV_STATUS.LOG_FROZEN (ofBool ((List.range 64).any (fun n => s.flag (Reg.SRV_LOG_STAT.FROZEN n)))) w
    else w
  let w := showFld o Reg.SRV_LIVE.COUNT (s.requests.filter (fun e => e.2.live)).length w
  match copyOf o (Reg.CFG_P_STATUS 0) 0x80 12 with
  | some p =>
    let w := showFld o (Reg.CFG_P_STATUS.REPORTED p) ((s.tilesOf p).filter s.reports).length w
    showFld o (Reg.CFG_P_STATUS.ING_SPACE p) (64 - (s.part p).ingress.length) w
  | none => w

/-- The fields of TIER_, EXP_, MSH_ and CXL_ that show the state. -/
def State.viewIo (s : State) (o w : Nat) : Nat :=
  let units := List.range 12 ++ List.range' 16 10
  let lines := (s.logs.map (fun e => ofBool e.2.tailHeld + ofBool e.2.outHeld)).sum
  let w := showFld o Reg.TIER_STATUS.DEGRADED (ofBool (units.any (fun u => s.flag (Reg.TIER_UNIT.DEGRADED u)))) w
  let w := showFld o Reg.EXP_STATUS.BUSY (ofBool (!s.lookups.isEmpty)) w
  let w := showFld o Reg.MSH_STATUS.ISOLATED (ofBool ((List.range 5).any (fun n => s.flag (Reg.MSH_PORT_STAT.ISOLATED n)))) w
  let w := showFld o Reg.MSH_STATUS.COORD_ERR (ofBool s.coordErr) w
  let w := showFld o Reg.CXL_STATUS.ISOLATED (bitsWhere 10 (fun n => s.flag (Reg.CXL_PORT_STAT.ISOLATED n))) w
  let w := showFld o Reg.CXL_CACHE_STAT.LINES lines w
  match copyOf o (Reg.MSH_P_STATUS 0) 32 12 with
  | some p => showFld o (Reg.MSH_P_STATUS.ACTIVE p) (s.collectives.filter (·.part == p)).length w
  | none => w

/-- The word that a read of an offset returns (R8, R20, R182): WO fields and offsets of no register read 0. -/
def State.viewReg (s : State) (o : Nat) : Word :=
  match regSpec o with
  | none => 0
  | some r =>
    let w := (s.reg o &&& ~~~ BitVec.ofNat 32 r.wo).toNat
    BitVec.ofNat 32 (if 0x10000000 ≤ o then s.viewTile ((o - 0x10000000) / 0x10000) o w
      else if o < 0x50000 then s.viewFused o w
      else if o < 0x80000 then s.viewWork o w
      else s.viewIo o w)

/-- The bytes that a read of the control window returns: all of one moment (R21). -/
def State.readWindow (s : State) (o n : Nat) : List Byte :=
  (List.range n).map (fun i => BitVec.ofNat 8 ((s.viewReg ((o + i) / 4 * 4)).toNat / 2 ^ (8 * ((o + i) % 4))))

/-- A write of bytes to the control window: every register of which it writes all four bytes is written, in ascending order (a write of
part of a register is not stated; log 25). -/
def State.writeWindow (s : State) (m : Master) (o : Nat) (d : List Byte) : State :=
  (List.range (d.length / 4 + 1)).foldl (fun s i =>
    let a := ceilDiv o 4 * 4 + 4 * i
    if a + 4 ≤ o + d.length then s.writeRegister m a (BitVec.ofNat 32 (leNat ((d.drop (a - o)).take 4))) else s) s

def execRegisterWrite (m : Master) (off : Nat) (v : Word) (s : State) : Host.Outcome State Fault Refusal :=
  .next (registerWrite m off v s)

end Sys2Proof.Machine
end

