-- ==== Sys2Proof/Machine/Hostio.lean ====
section
/-! DEFINITION. Requests of the host over CXL.io and CXL.mem (R440, R442, R443). -/
namespace Sys2Proof.Machine

/-- Does a request need a completion? Writes are posted. -/
def opPosted : AccessOp → Bool
  | .write _ => true
  | _ => false

def opAtomic : AccessOp → Bool
  | .read _ => false
  | .write _ => false
  | _ => true

/-- The end of a request of function `f` (Table 19-3): a completion, or a posted write is done or discarded. -/
def State.finishIo (s : State) (f : Nat) (op : AccessOp) (status : Nat) (data : List Byte) (aer : Bool) : State :=
  if opPosted op then s else s.emit (.completion f status data aer)

/-- Unsupported Request and Completer Abort. -/
def State.unsupported (s : State) (f : Nat) (op : AccessOp) : State := s.finishIo f op 1 [] false
def State.aborted (s : State) (f : Nat) (op : AccessOp) : State := s.finishIo f op 2 [] false

/-- A host read has returned data with an uncorrectable error (R443, Table 19-7). -/
def State.hostUe (s : State) (ecc : ReadEcc) : State :=
  if ecc.ue ≠ 0 then (s.setFlag Reg.CXL_STATUS.HOST_UE true).interruptIf (s.flag Reg.CXL_CTRL.INT_EN) 443 else s

/-- A request that is served: data of a read, or the old value of an atomic. -/
def State.served (s : State) (f : Nat) (op : AccessOp) (data : List Byte) (ecc : ReadEcc) : State :=
  if opPosted op then s else (s.hostUe ecc).finishIo f op 0 data (decide (ecc.ue ≠ 0))

/-- A request that names a hole (R178). -/
def State.holeIo (s : State) (f : Nat) (op : AccessOp) (pa : Nat) : State := (s.hole pa).unsupported f op

/-- BAR0: the control-register window. -/
def State.barControl (s : State) (f : Fin 64) (off : Nat) (op : AccessOp) : State :=
  match op with
  | .read n => s.served f op (s.readWindow off n) .clean
  | .write d => s.writeWindow (.host f) off d
  | _ => s.unsupported f op

/-- BAR2: the on-die SRAM window. Atomics reach the direct window of Billet tiles alone (R442). A request that meets a locked bank waits. -/
def State.barSram (s : State) (f : Fin 64) (off : Nat) (op : AccessOp) (ecc : ReadEcc) : State :=
  if 0x1E0000000 ≤ off then s.holeIo f op (s.ownSlot * 2 ^ 54 + 0x200000000000 + off)
  else if opAtomic op && !(hostWindowOk off 8 && decide (off % 2 ^ 25 < 0x400000) && decide (off % 8 = 0)) then s.unsupported f op
  else if hostWindowOk off (opLen op) then
    let r := s.window off (0xC0 + f) (s.fnPart f) op ecc
    match r.1 with
    | .done => r.2.2.served f op r.2.1 ecc
    | .waits => s.movedAt (off / 0x2000000)
    | .violation => r.2.2.aborted f op
    | .outside => (s.windowViolation f off op).aborted f op
  else (s.windowViolation f off op).aborted f op

/-- The pieces of at most 256 bytes in which a request goes to another slot (R318). -/
def pieceOps : Nat → Nat → AccessOp → List (Nat × AccessOp)
  | 0, _, _ => []
  | k + 1, a, .read n => if n = 0 then [] else (a, .read (min n 256)) :: pieceOps k (a + 256) (.read (n - 256))
  | k + 1, a, .write d => if d.isEmpty then [] else (a, .write (d.take 256)) :: pieceOps k (a + 256) (.write (d.drop 256))
  | _ + 1, a, op => [(a, op)]

/-- An access of the host to its own hot tier, at an offset of it: the data, with the errors of what it reads (R202, R443). -/
def State.hostHot (s : State) (o : Nat) (op : AccessOp) (ecc : ReadEcc) : List Byte × State :=
  let s := if opPosted op then s else (s.flipBytes o (opLen op) ecc).stackEcc (o / stackSize) ecc
  s.homeAccess (.hot (o / stackSize) (o % stackSize)) op false

/-- BAR4: the hot tier of the slots of the board. A request for a line that is being filled waits, and is made again (R203). A stack that cannot serve ends a request as an unreachable slot does (DEDUCED; log 26). -/
def State.barHot (s : State) (f : Fin 64) (off : Nat) (op : AccessOp) (ecc : ReadEcc) : State :=
  let slot := off / 2 ^ 40
  let o := off % 2 ^ 40
  let pa := slot * 2 ^ 54 + o
  if 12 * stackSize < o + opLen op then s.holeIo f op pa
  else if opAtomic op && o % 8 != 0 then s.unsupported f op
  else if slot = s.ownSlot then
    if s.homeUp (.hot (o / stackSize) (o % stackSize)) = false then s.aborted f op
    else if s.fillingIn o (opLen op) then s
    else
      let r := s.hostHot o op ecc
      r.2.served f op r.1 ecc
  else if s.slotReachable slot then
    (pieceOps 17 pa op).foldl (fun s x => s.sendRequest 0 slot x.1 x.2 (.host f s.nextTag)) s
  else s.aborted f op

/-- The size of a BAR (R440). -/
def barSize (bar : Nat) : Nat := if bar = 0 then 2 ^ 32 else if bar = 1 then 2 ^ 33 else 2 ^ 42

/-- A request of a virtual function at a BAR that it does not carry (R440). R24 still lets every host function read the DEV_ block and makes
a write of it by functions 1 to 63 a violation of kind 4; any other such request is answered Unsupported Request (DEDUCED, log 46). -/
def State.virtualIo (s : State) (f : Fin 64) (bar off : Nat) (op : AccessOp) : State :=
  if bar = 0 ∧ off + opLen op ≤ 0x10000 then
    match op with
    | .read n => s.served f op (s.readWindow off n) .clean
    | .write _ => s.closedWrite f off
    | _ => s.unsupported f op
  else s.unsupported f op

/-- HOST_IO_REQUEST: a CXL.io request that hits BAR0, BAR2 or BAR4 (numbered 0, 1 and 2). A virtual function carries BAR2 alone. -/
def hostIoRequest (f : Fin 64) (bar off : Nat) (op : AccessOp) (ecc : ReadEcc) (s : State) : State :=
  if s.on = false ∨ s.hostUp = false then s
  else if s.fnFrozen f ∨ s.pins.barsOpen = false then s.aborted f op
  else if barSize bar < off + opLen op then s.unsupported f op
  else if f.val ≠ 0 ∧ bar ≠ 1 then s.virtualIo f bar off op
  else if bar = 0 then s.barControl f off op
  else if bar = 1 then s.barSram f off op ecc
  else s.barHot f off op ecc

/-- HOST_MEM_REQUEST: a CXL.mem read or write of the HDM-D range, which waits for a line that is being filled (R203). CXL.mem carries no atomics. What a read of a stack that cannot serve
returns is not stated: free data with an error logged (log 26). -/
def hostMemRequest (a : Nat) (op : AccessOp) (ecc : ReadEcc) (s : State) : State :=
  if s.live = false ∨ s.hostUp = false ∨ 12 * stackSize < a + opLen op ∨ opAtomic op = true ∨ s.fillingIn a (opLen op) = true then s
  else if s.homeUp (.hot (a / stackSize) (a % stackSize)) then
    let r := s.hostHot a op ecc
    match op with
    | .read _ => (r.2.hostUe ecc).emit (.memData r.1 (decide (ecc.ue ≠ 0)))
    | _ => r.2
  else match op with
    | .read n => s.took.emit (.memData (natLE n s.fresh) true)
    | _ => s

def execHostIoRequest (fn : Fin 64) (bar : Fin 3) (off : Nat) (op : AccessOp) (ecc : ReadEcc) (s : State) :
    Host.Outcome State Fault Refusal := .next (hostIoRequest fn bar off op ecc s)
def execHostMemRequest (a : Nat) (op : AccessOp) (ecc : ReadEcc) (s : State) : Host.Outcome State Fault Refusal :=
  .next (hostMemRequest a op ecc s)

end Sys2Proof.Machine
end

