-- ==== Sys2Proof/Machine/Recovery.lean ====
section
/-! DEFINITION. Recovery from the journal, and the copy that a buddy keeps for a replacement (R370 to R372, R460). -/
namespace Sys2Proof.Machine

/-- A step of readiness: every stack is ON or DEGRADED (Table 20-4). -/
def State.hotReady (s : State) : Bool :=
  (List.range 12).all (fun b => s.fld (Reg.TIER_UNIT.STATE (unitHot b)) == 2 || s.flag (Reg.TIER_UNIT.DEGRADED (unitHot b)))

/-- The journal's copy can be reached (R460), or there is none. -/
def State.copyReachable (s : State) : Bool :=
  if s.journal.inHost then s.hostUp
  else (s.flag Reg.SRV_CTRL.BUDDY_EN && s.buddyReachable) || (s.jmode == 1 && s.hostUp) ||
    (!s.flag Reg.SRV_CTRL.BUDDY_EN && !s.flag Reg.SRV_CTRL.HOSTJ_EN)

/-- The records up to the tail word. -/
def State.complete (s : State) : List JournalRecord := s.journal.records.filter (fun r => decide (r.seq ≤ s.journal.tail))

/-- A request as a record leaves it. One whose ACCEPT record was never written is accepted now (R372). -/
def State.recovered (s : State) (q : Request) : Request := if q.deadline = 0 then q.stamped s.tick else q

/-- One record's part in the rebuilt table: ended requests are FREE (R370). -/
def State.rebuildRecord (s : State) (r : JournalRecord) : State :=
  r.requests.foldl (fun s e =>
    if e.2.ending.isSome ∨ s.journal.ended.contains (e.1, e.2.gen) then s.setRequest e.1 { Request.free with gen := e.2.gen }
    else s.setRequest e.1 (s.recovered e.2)) s

/-- The tokens that a COMMIT record releases for a request (R364, R365). -/
def JournalRecord.tokens (r : JournalRecord) (slot : Nat) (q : Request) : List Emitted :=
  let res := resultOf r.results slot
  if q.state = .prefill then [] else q.emitted.drop (q.emitted.length - min res.release res.emitted.length)

/-- A ring index at or above OUT_HEAD. -/
def State.unread (s : State) (n : Nat) (idx : Word) : Bool := decide ((idx - (s.log n).outHead).toNat < 2 ^ 31)

/-- Records are written again from an index on, those at or above OUT_HEAD (R370). -/
def State.rewrite (s : State) (n : Nat) (idx : Word) : List OutRecord → State
  | [] => s
  | r :: rest => (if s.unread n idx then s.putRecord n idx.toNat r else s).rewrite n (idx + 1) rest

/-- The output records that a journal record assigns to the request of an entry. -/
def JournalRecord.outputs (r : JournalRecord) (slot : Nat) (q : Request) : List OutRecord :=
  if r.type = 1 then [q.acceptance slot q.stamp.toNat]
  else if r.type = 2 then commitRecords r.step r.stamp slot q (r.tokens slot q) else []

/-- The output records that a journal record assigns to ring slots. -/
def State.rewriteRecord (s : State) (r : JournalRecord) : State :=
  (r.requests.zip r.ringSlots).foldl (fun s e =>
    let slot := e.1.1
    let q := e.1.2
    s.rewrite q.log e.2.2 (r.outputs slot (s.recovered q))) s

/-- The index after a log's last journaled acceptance (R370). -/
def State.resumeAt (s : State) (n : Nat) : Option Word :=
  (s.complete.filterMap (fun r => if r.type = 1 then (r.requests.find? (fun e => e.2.log == n)).map (·.2.index + 1) else none)).getLast?

/-- The index after the last ring slot that the journal assigns in log `n` (R368). -/
def State.assignedTo (s : State) (n : Nat) : List Word :=
  s.complete.flatMap (fun r => ((r.requests.zip r.ringSlots).filter (fun e => e.1.2.log == n)).map (fun e =>
    e.2.2 + BitVec.ofNat 32 (r.outputs e.1.1 (s.recovered e.1.2)).length))

/-- The later of two ring indices. -/
def laterIndex (a b : Word) : Word := if (b - a).toNat < 2 ^ 31 then b else a

/-- The next record index of a ring is at least OUT_HEAD and beyond every slot that the journal assigns: an input-power reset has set
SRV_LOGn_OUTIDX to 0, and no record may take the place of one that the host is to read (R5, R360; log 23). -/
def State.restoreIndex (s : State) (n : Nat) : State :=
  s.setReg (Reg.SRV_LOG_OUTIDX n)
    ((s.assignedTo n).foldl laterIndex (laterIndex (s.reg (Reg.SRV_LOG_OUTIDX n)) (s.log n).outHead))

def State.restoreIndices (s : State) : State := (List.range 64).foldl State.restoreIndex s

/-- The logs that the journal's records name. -/
def State.namedLogs (s : State) : List Nat := (s.complete.flatMap (fun r => r.requests.map (·.2.log))).eraseDups

/-- Log `n` stands as the driver has set it up, and its OUT_HEAD has been read (R370, R460). -/
def State.logKnown (s : State) (n : Nat) : Bool :=
  s.reg (Reg.SRV_LOG_CTL n) != 0 && (!s.flag (Reg.SRV_LOG_CTL.EN n) || (s.log n).outHeld)

/-- Reading of a log resumes. -/
def State.resumeLog (s : State) (n : Nat) : State :=
  match s.resumeAt n with
  | some h => (s.modLog n (fun x => { x with head := h })).setFld (Reg.SRV_LOG_STAT.HEAD n) h.toNat
  | none => s

/-- The slots of the live requests, in ascending order. -/
def State.liveSlots (s : State) : List Nat := s.slotsBy (·.live) (fun _ => 0)

/-- Every ring has room for an EVENT of each of its live requests. -/
def State.eventsFit (s : State) : Bool :=
  (List.range 64).all (fun n => decide ((s.slotsBy (fun r => r.live && r.log == n) (fun _ => 0)).length ≤ s.ringFree n))

/-- Ring slots that a record beyond the tail word was assigned are taken back where no later record follows them (log 23). -/
def State.takeBack (s : State) (r : JournalRecord) : State :=
  (r.requests.zip r.ringSlots).reverse.foldl (fun s e =>
    let k := (r.outputs e.1.1 e.1.2).length
    if s.reg (Reg.SRV_LOG_OUTIDX e.1.2.log) = e.2.2 + BitVec.ofNat 32 k then s.setReg (Reg.SRV_LOG_OUTIDX e.1.2.log) e.2.2 else s) s

/-- Records beyond the tail word are ignored (R368). -/
def State.cutJournal (s : State) : State :=
  let l := s.complete
  let s := (s.journal.records.filter (fun r => decide (s.journal.tail < r.seq))).reverse.foldl State.takeBack s
  { s with journal := { s.journal with
    records := l
    nextSeq := s.journal.tail + 1
    nextLine := (l.getLast?.map (fun r => r.offset + r.lines)).getD 1 } }

/-- Steps 1 and 2 of R370: the request table, its captures and the pending output records. -/
def State.rebuild (s : State) : State :=
  let s := s.cutJournal
  let s := s.complete.foldl State.rebuildRecord { s with requests := [] }
  let s := s.liveSlots.foldl (fun s slot => (s.request slot).gens.foldl State.recapture s) s
  let s := (List.range 64).foldl (fun s n => if s.flag (Reg.SRV_LOG_CTL.EN n) then s.emit (.hostRead (s.logBase n + 128) 64) else s) s
  (s.complete.foldl State.rewriteRecord s.restoreIndices)

/-- Firmware sets the residency entries that the reset left FETCHING to HOMED (R263). -/
def State.homeLeft (s : State) : State :=
  { s.leftFetching.foldl (fun s a => if s.num (a + 11) 1 = 2 then (s.pass a 32 true).writeNum (a + 11) 1 1 else s) s with leftFetching := [] }

/-- RECOVERY (R263, R370, R372, R460). It waits until the logs it writes to are known, and while a ring lacks room for the EVENT records. -/
def recovery (s : State) : State :=
  if s.live = false ∨ s.flag Reg.SRV_STATUS.RECOVERING = false ∨ s.hotReady = false ∨ s.flag Reg.TIME_STATUS.ALIGNED = false ∨
      s.copyReachable = false ∨ s.namedLogs.all s.logKnown = false then s
  else
    let r := s.rebuild
    if r.eventsFit = false then s
    else
      let r := r.liveSlots.foldl State.replayRequest r
      { ((List.range 64).foldl State.resumeLog r.homeLeft).setFlag Reg.SRV_STATUS.RECOVERING false with
        journal := { r.journal with inHost := false } }

/-! ## The copy kept for a replacement (R371) -/

/-- Where the copy of the buddy's journal stands in the own memory, as an offset of the slot: at the place of the own SRV_JRNL_MIRROR
(PRESUMED: the two modules of a pair are set up alike; log 20). -/
def State.keptBase (s : State) : Nat := s.jrnlMirror % 2 ^ 54

/-- A message on BULK0 (R319): a journal offset and bytes (log 20). -/
def State.sendBulk (s : State) (m off : Nat) (d : List Byte) : State :=
  let body := natLE 8 off ++ d
  s.sendPacket (s.l2p m) (ringVc 2) 4 0 body.length 0 body

/-- The lines of the copy from `line` on go out in messages of up to 62 lines, and the ring's end closes a message. -/
def State.sendLines (s : State) (m line last : Nat) : Nat → State
  | 0 => s
  | k + 1 =>
    let n := min 62 (if line ≤ last then last + 1 - line else s.jrnlLines - line)
    let s := (s.pass (s.keptBase + 64 * line) (64 * n) false).sendBulk m (64 * line) (s.bytes (s.keptBase + 64 * line) (64 * n))
    if line ≤ last ∧ last + 1 ≤ line + n then s
    else s.sendLines m (if s.jrnlLines ≤ line + n then 1 else line + n) last k

/-- JOURNAL_FETCH (R371): the live part of the copy goes to the replacement in journal order, then the tail word. Which record is the
oldest that a live request needs lies in records whose layout is not stated, so the first line is free (log 20). -/
def journalFetch (m : Nat) (s : State) : State :=
  if s.live = false ∨ s.jrnlLines = 0 then s
  else
    let r := s.num (s.keptBase + 8) 8
    let last := s.ringLine (r + s.num (s.keptBase + 64 * r + 1) 3 - 1)
    let first := 1 + s.fresh % (s.jrnlLines - 1)
    let s := s.took.sendLines m first last s.jrnlLines
    let s := (s.pass s.keptBase 64 false).sendBulk m 0 (s.bytes s.keptBase 64)
    { s with journal := { s.journal with keptFor := m :: s.journal.keptFor.erase m } }

/-- JOURNAL_DONE (R371): the copy need be kept no longer for that module. -/
def journalDone (m : Nat) (s : State) : State := { s with journal := { s.journal with keptFor := s.journal.keptFor.erase m } }

def execRecovery (s : State) : Host.Outcome State Fault Refusal := .next (recovery s)
def execJournalFetch (source : Fin 64) (s : State) : Host.Outcome State Fault Refusal := .next (journalFetch source s)
def execJournalDone (source : Fin 64) (s : State) : Host.Outcome State Fault Refusal := .next (journalDone source s)

end Sys2Proof.Machine
end

