-- ==== Sys2Proof/Machine/Tick.lean ====
section
/-! DEFINITION. The tick: what the module's own clocks do in one REFCLK_RACK period (R16, R25, R54, R294, R295, R335, R383). -/
namespace Sys2Proof.Machine

/-- What a walk or a fetch serves belongs to partition `p`: a mover, or a port channel. -/
def State.isOf (s : State) (p m : Nat) : Bool := s.moverPart m == some p

/-- A mover has a unit started whose transactions are under way: its oldest does not merely wait for a flit, for room in a queue or for its
turn. -/
def Mover.transacts (x : Mover) : Bool := !x.inflight.isEmpty && !x.work.waits

/-- A mover or a port channel that serves partition `p` has a memory or fabric transaction outstanding (R54). -/
def State.transacting (s : State) (p : Nat) : Bool :=
  (List.range 64).any (fun m => s.isOf p m && (s.mover m).transacts) ||
    s.walks.any (·.part == p) || s.fetches.any (·.part == p) || s.hearthFills.any (fun f => f.movers.any (s.isOf p)) ||
    s.outstanding.any (fun o => match o.issuer with
      | .mover m => s.isOf p m
      | _ => false) ||
    s.collectives.any (·.part == p) || s.broadcasts.any (fun b => s.isOf p b.mover)

/-- A stall counter advances in the f-cycles of the tick, or returns to 0 (R54), as it does in one in which the partition is refused issue
(R335): it then counts those after the last. -/
def State.countStall (s : State) (advance : Bool) (held : Option Withheld) (t : Nat) : State :=
  if advance && s.flag (Reg.GRD_CTRL.DL_EN t) && !(s.fullQueues t).isEmpty then
    match held with
    | none => s.modTile t (fun x => { x with stall := x.stall + cyclesPerTick })
    | some w => s.modTile t (fun x => { x with stall := w.after })
  else if (s.tile t).stall = 0 then s
  else s.modTile t (fun x => { x with stall := 0 })

/-- The stall counters of a partition. -/
def State.countStalls (s : State) (p : Nat) : State :=
  if s.partState p = 0 then s
  else
    let held := s.power.withheld.find? (·.part == p)
    let advance := s.running p && !(s.part p).moved && !s.transacting p
    let s := (s.tilesOf p).foldl (fun s t => s.countStall advance held t) s
    if (s.part p).moved then s.modPart p (fun x => { x with moved := false }) else s

/-- The report of an ARMED partition is noted in the tick in which it became complete, and dropped if it is no longer (R294). -/
def State.noteReport (s : State) (p : Nat) : State :=
  if s.armed p = false then s
  else if s.reported p then
    if (s.part p).reportTick.isSome then s
    else s.modPart p (fun x => { x with reportTick := some (BitVec.ofNat 64 s.tick) })
  else s.modPart p (fun x => { x with reportTick := none })

/-- A Strike in which a job of an ARMED partition has run counts toward the drain limit at its end (R295). -/
def State.countDrain (s : State) (p : Nat) : State :=
  let ran := s.armed p && (s.running p || (s.part p).armedRan)
  let ends := s.tick % 1024 == 1023
  if ran = false ∧ (s.part p).armedRan = false then s
  else s.modPart p (fun x => { x with drain := if ran && ends then x.drain + 1 else x.drain, armedRan := ran && !ends })

/-- TICK (R25): the tick that ends is accounted for, the counter advances if it is aligned, and Bellows releases the credit of the tick
that begins. -/
def tickStep (s : State) : State :=
  if s.refRuns = false then s
  else
    let s := if s.gridLive then (List.range 12).foldl (fun s p => ((s.countStalls p).noteReport p).countDrain p) s else s
    let s := if s.pins.clocksOn then { s with fcycles := s.fcycles + cyclesPerTick } else s
    let s := if s.flag Reg.TIME_STATUS.ALIGNED then
      { s.setReg64 Reg.TIME_TICK_LO (s.tick + 1) with edge := none, boundary := 0 } else s
    let s := if s.flag Reg.TIME_STATUS.ALIGNED ∧ s.tick % 1024 = 0 then (List.range 12).foldl State.rollSlice s else s
    if s.on then s.releaseCredit else s

def execTick (s : State) : Host.Outcome State Fault Refusal := .next (tickStep s)

end Sys2Proof.Machine
end

