-- ==== Sys2Proof/Machine/Reset.lean ====
section
/-! DEFINITION. The resets, the power-up and the readiness stages (chapter 20), the return of the reference (R31) and the end of a fuse
command (R428). -/
namespace Sys2Proof.Machine

/-! ## Input power -/

/-- The offsets of the warm and cold tiers, which lie in the expanders and the pool. -/
def tierByte (a : Nat) : Bool :=
  (decide (0x10000000000 ≤ a) && decide (a < 0x90000000000)) || (decide (0x400000000000 ≤ a) && decide (a < 0x800000000000))

/-- A copy of the journal lies outside the module: in the buddy or in host memory (R368). -/
def State.copyKept (s : State) : Bool := s.jmode == 0 || s.jmode == 1

/-- The journal after input power was removed: what its copy holds (R460; log 27). -/
def State.journalLeft (s : State) : Journal :=
  if s.copyKept then { s.journal with keptFor := [], inHost := s.jmode == 1, unmirrored := false } else Journal.reset

/-- The fuses after a command in progress has blown `blown` bits. -/
def State.fusesBlown (s : State) (blown : Nat) : Fuses :=
  match s.security.fuseOp with
  | some (op, t) => s.fuses.blow op t blown
  | none => s.fuses

/-- INPUT_POWER_RESET (R10, R451, R452): PWR_GOOD is low. What lies outside the module, the boot flash and the fuses stay. -/
def inputPowerReset (blown : Nat) (s : State) : State :=
  { State.reset with
    mem := s.mem.filter (fun c => tierByte c.1)
    flash := s.flash
    quarRecords := s.quarRecords
    fuses := s.fusesBlown blown
    journal := s.journalLeft
    pins := { Pins.reset with perst := s.pins.perst }
    out := s.out
    free := s.free
    pending := s.pending }

/-! ## Power-up (R456, R457, R459) -/

/-- A byte of a Billet bank. -/
def bankByte (a : Nat) : Bool :=
  decide (0x200000000000 ≤ a) && decide (a < 0x2001E0000000) && tileType ((a - 0x200000000000) / 0x2000000) == 2 &&
    decide ((a - 0x200000000000) % 0x2000000 < 0x300000)

/-- The tile and the offset in its block of a register offset. -/
def tileOff (o : Nat) : Option (Nat × Nat) :=
  if 0x10000000 ≤ o ∧ o < 0x10F00000 then some ((o - 0x10000000) / 0x10000, o % 0x10000) else none

/-- BIL_OWNn of some Billet tile. -/
def ownReg (o : Nat) : Bool :=
  match tileOff o with
  | some (t, i) => tileType t == 2 && decide (0x1500 ≤ i) && decide (i < 0x15C0)
  | none => false

/-- The rows of a bank that a pass of the start-up march finds failing: the bank's entries stand for its passes in order (log 28). -/
def failingRows (failing : List (Fin 240 × Fin 48 × List Nat)) (t b pass : Nat) : List Nat :=
  ((((failing.filter (fun e => e.1.val == t && e.2.1.val == b)).map (·.2.2)).getD pass []).filter (· < 64)).eraseDups

/-- A pass of the start-up march on the banks of a tile (R168, R169). -/
def State.startPass (s : State) (failing : List (Fin 240 × Fin 48 × List Nat)) (t pass : Nat) : State :=
  let s := s.beginPass t (2 ^ 48 - 1) (pass == 0)
  (List.range 48).foldl (fun s b =>
    ((failingRows failing t b pass).foldl (fun s r => s.markRows t (2 ^ b) r (2 ^ b)) s).repairBank t b pass) s

/-- The start-up march on a tile: MARCH_D with repair (R170, R172). -/
def State.startMarch (s : State) (failing : List (Fin 240 × Fin 48 × List Nat)) (t : Nat) : State :=
  let s := s.startPass failing t 0
  if (List.range 48).any (fun b => (s.bank t b).again) then s.startPass failing t 1 else s

/-- Every bank of every Billet tile after the start-up march (R172): zeros, owned by firmware. A tile none of whose rows fails is left as
it was. -/
def State.startBanks (s : State) (failing : List (Fin 240 × Fin 48 × List Nat)) : State :=
  let s := { s with mem := s.mem.filter (fun c => !bankByte c.1), regs := s.regs.filter (fun c => !ownReg c.1) }
  (((failing.map (·.1.val)).eraseDups).filter (fun t => tileType t == 2)).foldl (fun s t => s.startMarch failing t) s

/-- The twelve stacks have trained, or stay OFF and DEGRADED (R208, R459). -/
def State.trainStacks (s : State) (trained : BitVec 12) : State :=
  (List.range 12).foldl (fun s b =>
    if bitOf trained.toNat b then s.setFld (Reg.TIER_UNIT.STATE (unitHot b)) 2 else s.degrade (unitHot b)) s

/-- A byte whose value Table 20-2 leaves undefined at power-up: of the hot tier, or of a local store, an instruction memory or a queue
memory. -/
def undefinedByte (a : Nat) : Bool :=
  let i := (a - 0x200000000000) % 0x2000000
  let t := (a - 0x200000000000) / 0x2000000
  decide (a < 12 * stackSize) ||
    (decide (0x200000000000 ≤ a) && decide (a < 0x2001E0000000) &&
      ((tileType t != 2 && decide (i < storeSize t)) || (decide (0x1000000 ≤ i) && decide (i < 0x1010000)) ||
        (decide (0x1800000 ≤ i) && decide (i < 0x1840000))))

/-- The memory with the bytes of `l` written where Table 20-2 leaves them undefined. -/
def leftIn (m : List Host.Cell) (l : List (Nat × Byte)) : List Host.Cell :=
  l.foldl (fun m c => if undefinedByte c.1 then Sparse.set memReset m c.1 c.2 else m) m

/-- The memories that no reset clears hold arbitrary values after power-up (R60, R94, R127, R452): those of a free list (log 6). -/
def State.leaveResidue (s : State) : State := { s with mem := leftIn s.mem (Sys2Proof.Config.residue s.free) }.took

/-- POWER_UP: PWR_GOOD rises (Table 20-3). What the memories hold that no reset clears is free. A module whose security boot fails stays at step 3. That recovery is pending is read from R373
and R460 (DEDUCED; log 27). -/
def powerUp (slot : BitVec 2) (board : BitVec 6) (trained : BitVec 12) (failing : List (Fin 240 × Fin 48 × List Nat)) (s : State) : State :=
  if s.pins.powered then s
  else
    let s := (s.leaveResidue.setFld Reg.DEV_SLOT.SLOT slot.toNat).setFld Reg.DEV_SLOT.BOARD board.toNat
    let s := { s with pins := { s.pins with powered := true, railsOn := true, clocksOn := true, faultPin := true } }
    let s := s.securityBoot
    if s.flag Reg.SEC_STATUS.BOOTED then
      let s := (s.trainStacks trained).startBanks failing
      let s := s.quarRecords.foldl State.quarantine s
      { s.setFlag Reg.SRV_STATUS.RECOVERING true with pins := { s.pins with gridReady := true } }
    else s

/-! ## The host link (R453) -/

/-- Every watch line is dropped. -/
def State.dropLines (s : State) : State :=
  (List.range 64).foldl (fun s n =>
    s.modLog n (fun x => { x with tailHeld := false, outHeld := false, tailFill := false, outFill := false })) s

/-- An access was issued for the host. -/
def Outstanding.ofHost (o : Outstanding) : Bool :=
  match o.issuer with
  | .host _ _ => true
  | _ => false

/-- The host link goes down. -/
def State.hostDown (s : State) : State :=
  let s := if s.flag Reg.CXL_HOST_STAT.TRAINED then s.satFld Reg.CXL_HOST_ERR.RETRAIN 1 else s
  let s := (s.setFlag Reg.CXL_HOST_STAT.TRAINED false).setFlag Reg.CXL_HOST_STAT.LATOPT false
  let s := (s.setFld Reg.CXL_HOST_STAT.WIDTH 0).setFld Reg.CXL_HOST_STAT.RATE 0
  s.dropLines.forget (·.ofHost)

/-- PERST (R453). -/
def perst (s : State) : State :=
  let s := { s with pins := { s.pins with perst := true } }
  if s.pins.powered then s.hostDown else s

/-- PERST_DEASSERT. -/
def perstDeassert (s : State) : State := { s with pins := { s.pins with perst := false } }

/-- HOST_LINK_TRAINED (R439, R453): waiting writes go out, and the watch lines of every log that is enabled are taken again. -/
def hostLinkTrained (width rate : Nat) (s : State) : State :=
  if s.on = false ∨ s.pins.perst = true ∨ s.hostUp = true ∨ linkOk width rate = false then s
  else
    let s := s.setFlag Reg.CXL_HOST_STAT.TRAINED true
    let s := (s.setFld Reg.CXL_HOST_STAT.WIDTH width).setFld Reg.CXL_HOST_STAT.RATE rate
    let s : State := { s with out := s.out ++ s.outHeld, outHeld := [] }
    (allLogs.foldl (fun s n => if s.flag (Reg.SRV_LOG_CTL.EN n) then (linesOf n).foldl State.takeLine s else s) s).finishAccepts

/-! ## Warm reset (R452, R454) -/

/-- What a warm reset keeps of a tile's registers: the owners and repairs of the banks (R175). -/
def warmKeepsTile (t i : Nat) : Bool :=
  tileType t == 2 && ((decide (0x1500 ≤ i) && decide (i < 0x15C0)) || (decide (0x1600 ≤ i) && decide (i < 0x16C0)) || i == 0x1428 || i == 0x142C)

/-- Does a warm reset keep the register at an offset? (R24, R28, R60, R94, R125, R150, R175, R199, R237, R239, R263, R304, R332, R349, R374,
R397, R421, R437, R450). Fields that a kept register loses are cleared beside this. -/
def warmKeeps (o : Nat) : Bool :=
  if o < 0x80000 then
    match o / 0x10000 with
    | 0 => true
    | 1 => true
    | 2 => true
    | 3 => true
    | 4 => !(decide (0x100 ≤ o % 0x10000) && decide (o % 0x10000 < 0x280))
    | 6 => !(decide (0x4000 ≤ o % 0x10000) && decide (o % 0x10000 < 0xC000) && o % 8 == 4)
    | _ => false
  else if 0x8000000 ≤ o ∧ o < 0xD000000 then
    match o / 0x1000000 with
    | 9 => true
    | 11 => !(decide (0x800 ≤ o % 0x1000000) && decide (o % 0x1000000 < 0x980)) &&
        !(decide (0xC00 ≤ o % 0x1000000) && decide (o % 0x1000000 < 0xC80))
    | 12 => [Reg.CXL_POOL_CFG, Reg.CXL_LOCK, Reg.CXL_HOST_STAT].contains o || (List.range 10).any (fun n => Reg.CXL_PORT_STAT n == o)
    | _ => false
  else
    match tileOff o with
    | some (t, i) => warmKeepsTile t i
    | none => false

/-- The fields that a warm reset clears in registers it keeps. -/
def State.warmFields (s : State) : State :=
  let s := (s.setFld Reg.PWR_BANK.STATE 0).clearPending enBanking
  let s := s.setFlag Reg.SRV_CTRL.ACCEPT_EN false
  let s := s.setReg Reg.SRV_STATUS (BitVec.ofNat 32 (withBits (withBits 0 8 2 s.jmode) 7 1 1))
  let s := (List.range 64).foldl (fun s n => (s.setFlag (Reg.SRV_LOG_STAT.FROZEN n) false).setFlag (Reg.SRV_LOG_STAT.OUT_WAIT n) false) s
  let s := (List.range 10).foldl (fun s n => s.setFlag (Reg.CXL_PORT_STAT.ISOLATED n) false) s
  s.setFlag Reg.SEC_STATUS.BOOTED false

/-- A tile after a warm reset: the repairs of its banks are left. -/
def Tile.warm (x : Tile) : Tile :=
  { Tile.reset with banks := x.banks.filterMap (fun e => if e.2.spares.isEmpty then none else some (e.1, { Bank.reset with spares := e.2.spares })) }

/-- A partition after a warm reset: the number of its next step is left (R374: SRV_Pp_STEP is kept). -/
def Part.warm (x : Part) : Part := { Part.reset with nextStep := x.nextStep }

/-- A log after a warm reset. -/
def Log.warm (x : Log) : Log := { x with reserved := 0, accepting := none }

/-- A numbered group with each member changed by `f`, members left at their reset value listed no more. -/
def sparseMap {α : Type} [DecidableEq α] (r : Nat → α) (f : α → α) (m : Sparse α) : Sparse α :=
  m.filterMap (fun e => if f e.2 = r e.1 then none else some (e.1, f e.2))

/-- The host's accesses to other slots end with Completer Abort as the BARs close (R454). -/
def State.abortHost (s : State) : State :=
  s.outstanding.foldl (fun s o => match o.issuer with
    | .host fn _ => s.aborted fn o.op
    | _ => s) s

/-- The I/O-die rings keep no descriptor in flight: HEAD stands at the next one to start (R239; log 29). -/
def State.emptyRings (s : State) : State :=
  (List.range 4).foldl (fun s r => s.setFld (Reg.TIER_IORING_HEAD.INDEX r) (s.ringNext.toList.getD r 0)) s

/-- A flit that BSCAT has taken reaches its bank as its tile stops (R165). -/
def State.finishScatter (s : State) (t : Nat) : State :=
  match (s.tile t).scatter with
  | some f =>
    if (s.gatherFault t (s.heldWord t 0) 0 (s.prog t 0) false).isNone then s.scatterWrite t (s.heldWord t 0) (s.prog t 0) f else s
  | none => s

/-- Steps 1 and 2 of R454: everything stops, collectives end ABORTED, the ports disable, the BARs close, and Hearth is written back. A line's data
lie in `mem` already. A STATUS whose page must still be fetched is not written (log 29). -/
def State.warmStop (s : State) : State :=
  let s := (List.range 240).foldl State.finishScatter ((List.range 12).foldl State.settle s)
  let s := s.collectives.foldl (fun s c => s.collAbort c false) s
  let s := s.collectives.foldl State.collStatus s
  let s := (List.range 5).foldl (fun s n => s.disablePort n) s
  { s.abortHost with hearth := [], hearthFills := [], pins := { s.pins with barsOpen := false } }

/-- Step 4 of R454: registers and what stands beside them are reset. -/
def State.warmClear (s : State) : State :=
  let s := s.emptyRings
  let s := { s with regs := s.regs.filter (fun c => warmKeeps c.1) }.warmFields
  { s with
    tiles := sparseMap (fun _ => Tile.reset) Tile.warm s.tiles
    flights := []
    creditFlights := []
    parts := sparseMap (fun _ => Part.reset) Part.warm s.parts
    saved := []
    movers := []
    streams := []
    tlb1 := []
    tlb2 := []
    walks := []
    fetches := []
    inval := none
    hearth := []
    hearthFills := []
    ringDone := []
    loads := []
    fillJob := none
    switched := []
    lookups := []
    leftFetching := s.leftFetching ++ (s.lookups.filter (·.claimed)).map (·.entry)
    outstanding := []
    lateTags := []
    collectives := []
    collRecords := []
    staging := []
    broadcasts := []
    bcastAcks := []
    power := { s.power with envelope := 0 }
    logs := sparseMap (fun _ => Log.reset) Log.warm s.logs
    requests := []
    cxlViolations := []
    pins := { s.pins with clocksOn := true }
    security := { s.security with warmWaits := false } }

/-- The warm reset resets the module and boots it. -/
def State.warmFinish (s : State) : State := s.warmClear.securityBoot

/-- A warm reset begins; it waits while a fuse command is in progress. -/
def State.warmBegin (s : State) : State :=
  let s := s.warmStop
  if s.security.fuseOp.isSome then { s with security := { s.security with warmWaits := true } } else s.warmFinish

/-- WARM_RESET (R454, R458, R461, Table 20-6): ignored after a trip, merged with a boot or a warm reset in progress, and waiting while the
reference is lost. -/
def warmReset (s : State) : State :=
  if s.live = false ∨ s.flag Reg.PWR_STATUS.THERMTRIP = true ∨ s.security.warmWaits = true then s
  else if s.refGone then { s with warmWaitsRef := true }
  else s.warmBegin

/-- REFERENCE_RETURN (R31): the counter is set to 0, and a warm reset that waited runs. -/
def referenceReturn (s : State) : State :=
  if s.refGone then
    let s := { s with refGone := false }.setReg64 Reg.TIME_TICK_LO 0
    if s.warmWaitsRef then { s with warmWaitsRef := false }.warmBegin else s
  else s

/-- FUSE_COMMAND_COMPLETE (R428): a warm reset that waited for it goes on. -/
def fuseCommandComplete (s : State) : State :=
  if s.security.fuseOp.isNone then s
  else if s.security.warmWaits then s.endFuse.warmFinish else s.endFuse

/-- FUNCTION_LEVEL_RESET (R455): the function's requests in flight are discarded. Its configuration space and its MSI-X vectors hold nothing
that another rule reads (log 30). -/
def functionLevelReset (f : Nat) (s : State) : State :=
  s.forget (fun o => match o.issuer with
    | .host fn _ => fn == f
    | _ => false)

/-! ## Readiness (R458, R464) -/

/-- A stage of Table 20-4. -/
def State.readyStage (s : State) (k : Nat) : Bool :=
  match k with
  | 0 => s.flag Reg.SEC_STATUS.BOOTED
  | 1 => s.hotReady
  | 2 => s.pins.gridReady
  | 3 => s.flag Reg.TIME_STATUS.ALIGNED
  | 4 => (List.range 10).all (fun n => s.tierState (unitCxl n) == 0 || s.tierState (unitCxl n) == 2 || s.flag (Reg.TIER_UNIT.DEGRADED (unitCxl n)))
  | 5 => (List.range 4).all (fun n => !s.boardPort n || s.portOn n)
  | 6 => !s.flag Reg.SRV_STATUS.RECOVERING
  | _ => s.flag Reg.SRV_CTRL.ACCEPT_EN

/-- The stage mask; 0 while PWR_GOOD is low. -/
def State.stageMask (s : State) : Nat :=
  if s.pins.powered then (List.range 8).foldl (fun n k => n + 2 ^ k * ofBool (s.readyStage k)) 0 else 0

/-- GET_READY. -/
def getReady (s : State) : State := s.emit (.smbus s.stageMask)

/-! ## The rows -/

def execInputPowerReset (blown : Nat) (s : State) : Host.Outcome State Fault Refusal := .next (inputPowerReset blown s)
def execPowerUp (slot : BitVec 2) (board : BitVec 6) (trained : BitVec 12) (failing : List (Fin 240 × Fin 48 × List Nat)) (s : State) :
    Host.Outcome State Fault Refusal := .next (powerUp slot board trained failing s)
def execPerst (s : State) : Host.Outcome State Fault Refusal := .next (perst s)
def execPerstDeassert (s : State) : Host.Outcome State Fault Refusal := .next (perstDeassert s)
def execHostLinkTrained (width rate : Nat) (s : State) : Host.Outcome State Fault Refusal := .next (hostLinkTrained width rate s)
def execWarmReset (s : State) : Host.Outcome State Fault Refusal := .next (warmReset s)
def execReferenceReturn (s : State) : Host.Outcome State Fault Refusal := .next (referenceReturn s)
def execFuseCommandComplete (s : State) : Host.Outcome State Fault Refusal := .next (fuseCommandComplete s)
def execFunctionLevelReset (fn : Fin 64) (s : State) : Host.Outcome State Fault Refusal := .next (functionLevelReset fn s)
def execGetReady (s : State) : Host.Outcome State Fault Refusal := .next (getReady s)

end Sys2Proof.Machine
end

