-- ==== Sys2Proof/Machine/Dispatch.lean ====
section
/-! DEFINITION. One arm for each command: the meaning it calls, or the command rejected by name. -/
namespace Sys2Proof.Machine

def exec (i : Instr) (s : State) : Host.Outcome State Fault Refusal :=
  match i with
  | .inputPowerReset blown => Sys2Proof.Machine.execInputPowerReset blown s
  | .powerUp slot board trained failing => Sys2Proof.Machine.execPowerUp slot board trained failing s
  | .perst => Sys2Proof.Machine.execPerst s
  | .warmReset => Sys2Proof.Machine.execWarmReset s
  | .getReady => Sys2Proof.Machine.execGetReady s
  | .functionLevelReset fn => Sys2Proof.Machine.execFunctionLevelReset fn s
  | .tick => Sys2Proof.Machine.execTick s
  | .strikeEdge => Sys2Proof.Machine.execStrikeEdge s
  | .missedBoundary => Sys2Proof.Machine.execMissedBoundary s
  | .anomalyPeriodRoll => Sys2Proof.Machine.execAnomalyPeriodRoll s
  | .timeArm m v => Sys2Proof.Machine.execTimeArm m v s
  | .referenceLost => Sys2Proof.Machine.execReferenceLost s
  | .referenceReturn => Sys2Proof.Machine.execReferenceReturn s
  | .slotCheck slot board => Sys2Proof.Machine.execSlotCheck slot board s
  | .devLock m v => Sys2Proof.Machine.execDevLock m v s
  | .registerWrite m off v => Sys2Proof.Machine.execRegisterWrite m off v s
  | .flitGrant t out ecc => Sys2Proof.Machine.execFlitGrant t out ecc s
  | .flitArrival t port ecc => Sys2Proof.Machine.execFlitArrival t port ecc s
  | .creditReturn t out => Sys2Proof.Machine.execCreditReturn t out s
  | .deadlockDetect p => Sys2Proof.Machine.execDeadlockDetect p s
  | .grdLinkWrite m t link v => Sys2Proof.Machine.execGrdLinkWrite m t link v s
  | .nop t fetch => Sys2Proof.Machine.execNop t fetch s
  | .movRegister t fetch => Sys2Proof.Machine.execMovRegister t fetch s
  | .movImmediate t fetch => Sys2Proof.Machine.execMovImmediate t fetch s
  | .addRegister t fetch => Sys2Proof.Machine.execAddRegister t fetch s
  | .addImmediate t fetch => Sys2Proof.Machine.execAddImmediate t fetch s
  | .subRegister t fetch => Sys2Proof.Machine.execSubRegister t fetch s
  | .subImmediate t fetch => Sys2Proof.Machine.execSubImmediate t fetch s
  | .andRegister t fetch => Sys2Proof.Machine.execAndRegister t fetch s
  | .andImmediate t fetch => Sys2Proof.Machine.execAndImmediate t fetch s
  | .orRegister t fetch => Sys2Proof.Machine.execOrRegister t fetch s
  | .orImmediate t fetch => Sys2Proof.Machine.execOrImmediate t fetch s
  | .shlRegister t fetch => Sys2Proof.Machine.execShlRegister t fetch s
  | .shlImmediate t fetch => Sys2Proof.Machine.execShlImmediate t fetch s
  | .shrRegister t fetch => Sys2Proof.Machine.execShrRegister t fetch s
  | .shrImmediate t fetch => Sys2Proof.Machine.execShrImmediate t fetch s
  | .cmpRegister t fetch => Sys2Proof.Machine.execCmpRegister t fetch s
  | .cmpImmediate t fetch => Sys2Proof.Machine.execCmpImmediate t fetch s
  | .br t fetch => Sys2Proof.Machine.execBr t fetch s
  | .loop t fetch => Sys2Proof.Machine.execLoop t fetch s
  | .endl t fetch => Sys2Proof.Machine.execEndl t fetch s
  | .recv t fetch => Sys2Proof.Machine.execRecv t fetch s
  | .send t fetch => Sys2Proof.Machine.execSend t fetch s
  | .peek t fetch => Sys2Proof.Machine.execPeek t fetch s
  | .shape t fetch => Sys2Proof.Machine.execShape t fetch s
  | .fence t fetch => Sys2Proof.Machine.execFence t fetch s
  | .quench t fetch => Sys2Proof.Machine.execQuench t fetch s
  | .halt t fetch => Sys2Proof.Machine.execHalt t fetch s
  | .engineUnit t e env => Sys2Proof.Machine.execEngineUnit t e env s
  | .wld t fetch => Sys2Proof.Machine.execWld t fetch s
  | .wswap t fetch => Sys2Proof.Machine.execWswap t fetch s
  | .mma t fetch => Sys2Proof.Machine.execMma t fetch s
  | .drain t fetch => Sys2Proof.Machine.execDrain t fetch s
  | .fn t fetch => Sys2Proof.Machine.execFn t fetch s
  | .smax t fetch => Sys2Proof.Machine.execSmax t fetch s
  | .rope t fetch => Sys2Proof.Machine.execRope t fetch s
  | .topk t fetch => Sys2Proof.Machine.execTopk t fetch s
  | .sample t fetch => Sys2Proof.Machine.execSample t fetch s
  | .stopchk t fetch => Sys2Proof.Machine.execStopchk t fetch s
  | .rng t fetch => Sys2Proof.Machine.execRng t fetch s
  | .brd t fetch => Sys2Proof.Machine.execBrd t fetch s
  | .bwr t fetch => Sys2Proof.Machine.execBwr t fetch s
  | .bgath t fetch => Sys2Proof.Machine.execBgath t fetch s
  | .bscat t fetch => Sys2Proof.Machine.execBscat t fetch s
  | .march t fetch => Sys2Proof.Machine.execMarch t fetch s
  | .bilMarchStart m t v => Sys2Proof.Machine.execBilMarchStart m t v s
  | .bilOwnBulk m t v => Sys2Proof.Machine.execBilOwnBulk m t v s
  | .handover m t bank v => Sys2Proof.Machine.execHandover m t bank v s
  | .moverPortAccess r t a op ecc => Sys2Proof.Machine.execMoverPortAccess r t a op ecc s
  | .sramWindowAccess m off op ecc => Sys2Proof.Machine.execSramWindowAccess m off op ecc s
  | .copy t fetch => Sys2Proof.Machine.execCopy t fetch s
  | .ingot t fetch => Sys2Proof.Machine.execIngot t fetch s
  | .diag t fetch => Sys2Proof.Machine.execDiag t fetch s
  | .gather t fetch => Sys2Proof.Machine.execGather t fetch s
  | .scatter t fetch => Sys2Proof.Machine.execScatter t fetch s
  | .kv t fetch => Sys2Proof.Machine.execKv t fetch s
  | .coll t fetch => Sys2Proof.Machine.execColl t fetch s
  | .warm t fetch => Sys2Proof.Machine.execWarm t fetch s
  | .cancelEntries t fetch => Sys2Proof.Machine.execCancelEntries t fetch s
  | .stopStream t fetch => Sys2Proof.Machine.execStopStream t fetch s
  | .startStream t fetch => Sys2Proof.Machine.execStartStream t fetch s
  | .perm t fetch => Sys2Proof.Machine.execPerm t fetch s
  | .unperm t fetch => Sys2Proof.Machine.execUnperm t fetch s
  | .append t fetch => Sys2Proof.Machine.execAppend t fetch s
  | .bcast t fetch => Sys2Proof.Machine.execBcast t fetch s
  | .moverUnitStart mv => Sys2Proof.Machine.execMoverUnitStart mv s
  | .moverUnitComplete mv res => Sys2Proof.Machine.execMoverUnitComplete mv res s
  | .zeroCountCommand mv => Sys2Proof.Machine.execZeroCountCommand mv s
  | .streamEntryStart bay => Sys2Proof.Machine.execStreamEntryStart bay s
  | .streamRelease bay stream => Sys2Proof.Machine.execStreamRelease bay stream s
  | .ioringDescriptor mv => Sys2Proof.Machine.execIoringDescriptor mv s
  | .ringKick m v => Sys2Proof.Machine.execRingKick m v s
  | .translationWalk => Sys2Proof.Machine.execTranslationWalk s
  | .demandFetchComplete n res => Sys2Proof.Machine.execDemandFetchComplete n res s
  | .xltKick m v => Sys2Proof.Machine.execXltKick m v s
  | .invalidateAll m v => Sys2Proof.Machine.execInvalidateAll m v s
  | .invalidatePartition m v => Sys2Proof.Machine.execInvalidatePartition m v s
  | .invalidateRange m v => Sys2Proof.Machine.execInvalidateRange m v s
  | .invalidationComplete => Sys2Proof.Machine.execInvalidationComplete s
  | .hearthFill bay ecc => Sys2Proof.Machine.execHearthFill bay ecc s
  | .residencyLookup => Sys2Proof.Machine.execResidencyLookup s
  | .residencyClose n => Sys2Proof.Machine.execResidencyClose n s
  | .shapeOverrunRecovery p => Sys2Proof.Machine.execShapeOverrunRecovery p s
  | .load m p v => Sys2Proof.Machine.execLoad m p v s
  | .loadComplete res => Sys2Proof.Machine.execLoadComplete res s
  | .arm m p v => Sys2Proof.Machine.execArm m p v s
  | .configurationSwap p => Sys2Proof.Machine.execConfigurationSwap p s
  | .ingPost m p v => Sys2Proof.Machine.execIngPost m p v s
  | .ingressDelivery p ch => Sys2Proof.Machine.execIngressDelivery p ch s
  | .drainTimeout p => Sys2Proof.Machine.execDrainTimeout p s
  | .capture m v => Sys2Proof.Machine.execCapture m v s
  | .release m v => Sys2Proof.Machine.execRelease m v s
  | .switch m v => Sys2Proof.Machine.execSwitch m v s
  | .fill m v => Sys2Proof.Machine.execFill m v s
  | .fillComplete => Sys2Proof.Machine.execFillComplete s
  | .frameReceive n chk f => Sys2Proof.Machine.execFrameReceive n chk f s
  | .nak n f => Sys2Proof.Machine.execNak n f s
  | .replayTimeout n => Sys2Proof.Machine.execReplayTimeout n s
  | .retrain n res => Sys2Proof.Machine.execRetrain n res s
  | .mshPortEnable m n v => Sys2Proof.Machine.execMshPortEnable m n v s
  | .mshPortDisable m n v => Sys2Proof.Machine.execMshPortDisable m n v s
  | .portTrained n res => Sys2Proof.Machine.execPortTrained n res s
  | .portDisableComplete n => Sys2Proof.Machine.execPortDisableComplete n s
  | .loadstoreRequest n => Sys2Proof.Machine.execLoadstoreRequest n s
  | .loadstoreResponse n => Sys2Proof.Machine.execLoadstoreResponse n s
  | .loadstoreTimeout tag => Sys2Proof.Machine.execLoadstoreTimeout tag s
  | .msgKick m v => Sys2Proof.Machine.execMsgKick m v s
  | .messageReceive n ch => Sys2Proof.Machine.execMessageReceive n ch s
  | .collectiveContribution n vc => Sys2Proof.Machine.execCollectiveContribution n vc s
  | .collectiveComplete n => Sys2Proof.Machine.execCollectiveComplete n s
  | .collTimeout n => Sys2Proof.Machine.execCollTimeout n s
  | .abort m p v => Sys2Proof.Machine.execAbort m p v s
  | .bcastReceive n => Sys2Proof.Machine.execBcastReceive n s
  | .capWrite m v => Sys2Proof.Machine.execCapWrite m v s
  | .pwrLock m v => Sys2Proof.Machine.execPwrLock m v s
  | .mshLock m v => Sys2Proof.Machine.execMshLock m v s
  | .cxlLock m v => Sys2Proof.Machine.execCxlLock m v s
  | .powerStep => Sys2Proof.Machine.execPowerStep s
  | .leaseLapse => Sys2Proof.Machine.execLeaseLapse s
  | .alertAssert => Sys2Proof.Machine.execAlertAssert s
  | .alertRelease => Sys2Proof.Machine.execAlertRelease s
  | .powerSample millivolts tenMilliamps => Sys2Proof.Machine.execPowerSample millivolts tenMilliamps s
  | .temperatureSample eighths => Sys2Proof.Machine.execTemperatureSample eighths s
  | .thermtrip sensor eighths => Sys2Proof.Machine.execThermtrip sensor eighths s
  | .bankEnable m v => Sys2Proof.Machine.execBankEnable m v s
  | .bankDisable m v => Sys2Proof.Machine.execBankDisable m v s
  | .watchLineSnoop l => Sys2Proof.Machine.execWatchLineSnoop l s
  | .watchLineFill l index => Sys2Proof.Machine.execWatchLineFill l index s
  | .submit log desc prompt stop res => Sys2Proof.Machine.execSubmit log desc prompt stop res s
  | .cancel log desc => Sys2Proof.Machine.execCancel log desc s
  | .logRelease m log v => Sys2Proof.Machine.execLogRelease m log v s
  | .stepAdmission p => Sys2Proof.Machine.execStepAdmission p s
  | .requestDeadlineCheck => Sys2Proof.Machine.execRequestDeadlineCheck s
  | .stepEnd p n => Sys2Proof.Machine.execStepEnd p n s
  | .verdictReceive group member body => Sys2Proof.Machine.execVerdictReceive group member body s
  | .verdictWindowExpiry p => Sys2Proof.Machine.execVerdictWindowExpiry p s
  | .verdictGoodDecision p results => Sys2Proof.Machine.execVerdictGoodDecision p results s
  | .commitRecordAck p => Sys2Proof.Machine.execCommitRecordAck p s
  | .tailWordAck p => Sys2Proof.Machine.execTailWordAck p s
  | .journalMirrorLoss hostWritable => Sys2Proof.Machine.execJournalMirrorLoss hostWritable s
  | .journalMirrorRestore => Sys2Proof.Machine.execJournalMirrorRestore s
  | .recovery => Sys2Proof.Machine.execRecovery s
  | .journalFetch source => Sys2Proof.Machine.execJournalFetch source s
  | .journalDone source => Sys2Proof.Machine.execJournalDone source s
  | .budgetWindowRoll => Sys2Proof.Machine.execBudgetWindowRoll s
  | .partitionEnable m p v => Sys2Proof.Machine.execPartitionEnable m p v s
  | .partitionDisable m p v => Sys2Proof.Machine.execPartitionDisable m p v s
  | .partitionStateDone b w => Sys2Proof.Machine.execPartitionStateDone b w s
  | .preempt m p v => Sys2Proof.Machine.execPreempt m p v s
  | .partitionReset m p v => Sys2Proof.Machine.execPartitionReset m p v s
  | .partitionRelease m p v => Sys2Proof.Machine.execPartitionRelease m p v s
  | .jobRelease m p j v => Sys2Proof.Machine.execJobRelease m p j v s
  | .jobReset m p j v => Sys2Proof.Machine.execJobReset m p j v s
  | .jobContextValid m p j v => Sys2Proof.Machine.execJobContextValid m p j v s
  | .timeSlice p => Sys2Proof.Machine.execTimeSlice p s
  | .stopComplete p => Sys2Proof.Machine.execStopComplete p s
  | .saveComplete p => Sys2Proof.Machine.execSaveComplete p s
  | .restoreComplete p res => Sys2Proof.Machine.execRestoreComplete p res s
  | .rollback p => Sys2Proof.Machine.execRollback p s
  | .sparkUnit t cycles signature halted faulted => Sys2Proof.Machine.execSparkUnit t cycles signature halted faulted s
  | .sparkRotation => Sys2Proof.Machine.execSparkRotation s
  | .coverDue => Sys2Proof.Machine.execCoverDue s
  | .coveragePeriodEnd => Sys2Proof.Machine.execCoveragePeriodEnd s
  | .packLoad m v res => Sys2Proof.Machine.execPackLoad m v res s
  | .imageLoad m v res => Sys2Proof.Machine.execImageLoad m v res s
  | .revokeSlot m v => Sys2Proof.Machine.execRevokeSlot m v s
  | .raiseFwArb m v => Sys2Proof.Machine.execRaiseFwArb m v s
  | .raisePackArb m v => Sys2Proof.Machine.execRaisePackArb m v s
  | .blowDebugLock m v => Sys2Proof.Machine.execBlowDebugLock m v s
  | .fuseCommandComplete => Sys2Proof.Machine.execFuseCommandComplete s
  | .secFnrel m high v => Sys2Proof.Machine.execSecFnrel m high v s
  | .getVersion => Sys2Proof.Machine.execGetVersion s
  | .getCapabilities => Sys2Proof.Machine.execGetCapabilities s
  | .negotiateAlgorithms => Sys2Proof.Machine.execNegotiateAlgorithms s
  | .getDigests => Sys2Proof.Machine.execGetDigests s
  | .getCertificate slot off len => Sys2Proof.Machine.execGetCertificate slot off len s
  | .challenge slot sumType nonce => Sys2Proof.Machine.execChallenge slot sumType nonce s
  | .getMeasurements index sign nonce => Sys2Proof.Machine.execGetMeasurements index sign nonce s
  | .debugSessionOpen imagePermits => Sys2Proof.Machine.execDebugSessionOpen imagePermits s
  | .hostIoRequest fn bar off op ecc => Sys2Proof.Machine.execHostIoRequest fn bar off op ecc s
  | .hostMemRequest a op ecc => Sys2Proof.Machine.execHostMemRequest a op ecc s
  | .tierEnable m u v => Sys2Proof.Machine.execTierEnable m u v s
  | .tierDisable m u v => Sys2Proof.Machine.execTierDisable m u v s
  | .cplTimeout port tag => Sys2Proof.Machine.execCplTimeout port tag s
  | .partnerResponse port tag res lengthOk => Sys2Proof.Machine.execPartnerResponse port tag res lengthOk s
  | .surpriseLinkDown port => Sys2Proof.Machine.execSurpriseLinkDown port s
  | .stackTrainingLost b => Sys2Proof.Machine.execStackTrainingLost b s
  | .perstDeassert => Sys2Proof.Machine.execPerstDeassert s
  | .hostLinkTrained width rate => Sys2Proof.Machine.execHostLinkTrained width rate s

end Sys2Proof.Machine
end

