-- ==== Sys2Proof/WellFormed.lean ====
section
/-! DEFINITION. Which commands can be sent at all. Numbers of tiles, partitions, ports and the like are bounded by their types;
the checks below bound the operands whose types do not. -/
namespace Sys2Proof

/-- The operand of an access: 1 to 4,096 bytes (the largest request of CXL.io). -/
def AccessOp.wf : AccessOp → Bool
  | .read len => decide (0 < len) && decide (len ≤ 4096)
  | .write data => decide (0 < data.length) && decide (data.length ≤ 4096)
  | _ => true

/-- A frame's header fields fit their widths, and its payload is 256 bytes (Tables 13-3 and 13-4). -/
def Frame.wf (f : Frame) : Bool :=
  decide (f.vc < 8) && decide (f.type < 4) && decide (f.seq < 4096) && decide (f.ack < 4096) && decide (f.cvc < 8) &&
    decide (f.ccnt < 256) && decide (f.payload.length = 256)

/-- Can the command be sent? -/
def Instr.wf : Instr → Bool
  | .registerWrite _ off _ => decide (off % 4 = 0) && decide (off < 2 ^ 32)
  | .moverPortAccess _ _ a op _ => decide (a < 2 ^ 24) && op.wf
  | .sramWindowAccess _ off op _ => decide (off < 0x1E0000000) && op.wf
  | .hostIoRequest _ _ _ op _ => op.wf
  | .hostMemRequest _ op _ => op.wf
  | .frameReceive _ _ f => f.wf
  | .nak _ f => f.wf
  | .submit _ desc _ _ _ => decide (desc.length = 256)
  | .cancel _ desc => decide (desc.length = 256)
  | .verdictReceive _ _ body => decide (body.length = 32)
  | .temperatureSample v => decide (v.length = 28)
  | .tierEnable _ u _ => match u with
    | .stack _ => true
    | .warm _ => true
    | .cold _ => true
    | .partition _ => false
    | .banking => false
  | .tierDisable _ u _ => match u with
    | .stack _ => true
    | .warm _ => true
    | .cold _ => true
    | .partition _ => false
    | .banking => false
  | _ => true

end Sys2Proof
end

