-- ==== Sys2Proof/Safety.lean ====
section
/-! DEFINITION. The words that the statements use: what keeps the state well formed, what a command leaves alone, and when a tile's
sequencer executes a word. -/
namespace Sys2Proof.Machine

/-- The bytes of memory, the registers and the boot flash are listed in their one canonical form. -/
structure State.Inv (s : State) : Prop where
  mem : Memory.wf s.mem = true
  regs : Sparse.wf regReset s.regs = true
  flash : Memory.wf s.flash = true

/-- No register outside the offsets of `l` differs between `s` and `t`. -/
def State.keepsRegs (s t : State) (l : List Nat) : Prop := ∀ o, o ∉ l → t.reg o = s.reg o

/-- No byte of memory outside the `n` bytes from `a` differs between `s` and `t`. -/
def State.keepsMem (s t : State) (a n : Nat) : Prop := ∀ x, (x < a ∨ a + n ≤ x) → t.byte x = s.byte x

/-- Nothing but registers at offsets of `l` differs: memory, every hidden structure, the queue and what was sent out stay. -/
def State.onlyRegs (s t : State) (l : List Nat) : Prop := t = { s with regs := t.regs } ∧ s.keepsRegs t l

/-- Nothing but registers at offsets of `l` differs, and `o` was sent out. -/
def State.onlyRegsOut (s t : State) (l : List Nat) (o : List Output) : Prop :=
  t = { s with regs := t.regs, out := s.out ++ o } ∧ s.keepsRegs t l

/-- The fuses `g` come from `f` by blowing fuses alone: no bit clears, no count falls, and what is fixed at manufacture stays (R422). -/
structure Fuses.Blown (f g : Fuses) : Prop where
  serial : g.serial = f.serial
  key0 : g.key0 = f.key0
  key1 : g.key1 = f.key1
  identity : g.identity = f.identity
  revoke : f.revoke &&& g.revoke = f.revoke
  fwArb : f.fwArb ≤ g.fwArb
  packArb : f.packArb ≤ g.packArb
  debugLock : f.debugLock = true → g.debugLock = true

/-- The sequencer of tile `t` executes the word `w` at its program counter: the tile's partition runs, the sequencer is RUN or WAIT
and no QUENCH is in flight, the word decodes, its predicate holds, and neither a dependence, nor a busy engine, nor the end of a loop
body keeps it back (R61, R62, R67, R68, R73). -/
structure State.Executes (s : State) (t w : Nat) : Prop where
  runs : s.tileWorks t = true
  state : s.seqState t = 1 ∨ s.seqState t = 2
  quench : s.quenching t = false
  word : s.imemWord t (s.pc t) = w
  decodes : decodeFault (tileType t) w = none
  known : wPred w = 0 ∨ (s.pendingWrites t allEngines).contains (predSpec (wPred w)) = false
  holds : s.pred t (wPred w) ≠ wPneg w
  free : s.hazard t w = false
  engine : s.engineFree t w = true
  body : s.atLoopEnd t w = false

/-- A short instruction that writes a result: its row, its opcode, and the result as R70 states it. -/
structure ResultForm where
  make : Fin 240 → Ecc → Instr
  op : Nat
  result : State → Nat → Nat → Nat

/-- The result of a binary operation on the operands that a word names. -/
def binaryResult (op : DWord → DWord → DWord) (imm : Bool) (s : State) (t w : Nat) : Nat :=
  (op (BitVec.ofNat 64 (s.operand t (bits w 36 8))) (BitVec.ofNat 64 (if imm then imm32 w else s.operand t (bits w 28 8)))).toNat

/-- MOV, ADD, SUB, AND, OR, SHL and SHR in both formats (R70, Table 04-4). -/
def resultForms : List ResultForm :=
  [⟨.movRegister, 0x01, fun s t w => s.operand t (bits w 36 8)⟩,
   ⟨.movImmediate, 0x02, fun _ _ w => imm32 w⟩,
   ⟨.addRegister, 0x04, binaryResult (· + ·) false⟩,
   ⟨.addImmediate, 0x05, binaryResult (· + ·) true⟩,
   ⟨.subRegister, 0x06, binaryResult (· - ·) false⟩,
   ⟨.subImmediate, 0x07, binaryResult (· - ·) true⟩,
   ⟨.andRegister, 0x08, binaryResult (· &&& ·) false⟩,
   ⟨.andImmediate, 0x09, binaryResult (· &&& ·) true⟩,
   ⟨.orRegister, 0x0A, binaryResult (· ||| ·) false⟩,
   ⟨.orImmediate, 0x0B, binaryResult (· ||| ·) true⟩,
   ⟨.shlRegister, 0x0C, binaryResult (fun a b => a <<< (b.toNat % 64)) false⟩,
   ⟨.shlImmediate, 0x0D, binaryResult (fun a b => a <<< (b.toNat % 64)) true⟩,
   ⟨.shrRegister, 0x0E, binaryResult (fun a b => a >>> (b.toNat % 64)) false⟩,
   ⟨.shrImmediate, 0x0F, binaryResult (fun a b => a >>> (b.toNat % 64)) true⟩]

/-- The offsets of the registers that a destination specifier names; none for g0 and p0 (R64, R65). -/
def destRegs (t n : Nat) : List Nat :=
  if n = 0 ∨ n = 0x20 then []
  else if n < 0x20 then [Reg.SEQ_G t n 0, Reg.SEQ_G t n 0 + 4]
  else if n < 0x28 then [Reg.SEQ_PRED t]
  else [Reg.SEQ_S t ((n - 0x40) / 4) ((n - 0x40) % 4)]

/-- What a specifier reads after `v` was written through it: g0 reads 0 and p0 reads 1, a predicate takes bit 0, and a stream field
takes its bits that are not reserved (R64, R65). -/
def readsBack (n v : Nat) : Nat :=
  if n = 0 then 0
  else if n < 0x20 then v % 2 ^ 64
  else if n = 0x20 then 1
  else if n < 0x28 then v % 2
  else v % strmMask ((n - 0x40) % 4)

/-- SEQ_IMEM, where the fetch counts a corrected error (R87). -/
def fetchRegs (t : Nat) (fetch : Ecc) : List Nat := if fetch = .corrected then [Reg.SEQ_IMEM t] else []

/-- A long instruction: its row, its opcode, its engine, the check it may fail at issue, whether it has nothing to do so that it ends at
once, the register that it then sets to 0, the values that its engine takes with it, and what its tile takes beside them. -/
structure LongForm where
  make : Fin 240 → Ecc → Instr
  op : Nat
  engine : Fin 4
  fault : State → Nat → Nat → Option (Nat × Nat × Nat)
  empty : State → Nat → Nat → Bool
  zeroes : Nat → List Nat
  ops : State → Nat → Nat → List Nat
  takes : State → Nat → State

/-- RECV, SEND and the instructions of Anvil, Temper and Billet tiles (Tables 04-4, 05-5, 06-7 and 07-3). -/
def longForms : List LongForm :=
  [⟨.recv, 0x20, 0, fun s t w => s.commonIssueFault t w, fun _ _ _ => false, fun _ => [], fun _ _ _ => [], fun s _ => s⟩,
   ⟨.send, 0x21, 1, fun s t w => s.commonIssueFault t w, fun _ _ _ => false, fun _ => [], fun _ _ _ => [], fun s _ => s⟩,
   ⟨.wld, 0x40, 3, fun s t w => s.wldIssueFault t w, fun _ _ _ => false, fun _ => [], fun _ _ _ => [], fun s _ => s⟩,
   ⟨.wswap, 0x41, 2, fun _ _ _ => none, fun _ _ _ => false, fun _ => [], fun _ _ _ => [], fun s _ => s⟩,
   ⟨.mma, 0x44, 2, fun s t w => s.mmaIssueFault t w (s.operand t (bits w 44 8)),
    fun s t w => dimM (s.operand t (bits w 44 8)) == 0 || dimKb (s.operand t (bits w 44 8)) == 0, fun _ => [],
    fun s t w => [s.operand t (bits w 44 8)], fun s t => s.modTile t (fun x => { x with ctrl := s.reg (Reg.ANV_CTRL t) })⟩,
   ⟨.drain, 0x48, 3, fun s t w => s.drainIssueFault t w (s.operand t (bits w 44 8)), fun s t w => drR (s.operand t (bits w 44 8)) == 0,
    fun _ => [], fun s t w => [s.operand t (bits w 44 8)], fun s _ => s⟩,
   ⟨.fn, 0x60, 2, fun s t w => s.fnIssueFault t w (s.operand t (bits w 8 8)), fun s t w => s.sLen t (fnSa w) == 0, fun _ => [],
    fun s t w => [s.operand t (bits w 8 8), s.operand t (bits w 20 8), s.tapEn t], fun s _ => s⟩,
   ⟨.smax, 0x64, 2, fun s t w => s.smaxIssueFault t w (s.operand t (bits w 12 8)), fun s t w => s.sLen t (smSi w) == 0, fun _ => [],
    fun s t w => [s.operand t (bits w 12 8), s.operand t (bits w 24 8), s.tapEn t], fun s _ => s⟩,
   ⟨.rope, 0x66, 2, fun s t w => s.ropeIssueFault t w (s.operand t (bits w 21 8)) (s.operand t (bits w 13 8)),
    fun s t w => s.sLen t (rpSi w) == 0, fun _ => [], fun s t w => [s.operand t (bits w 13 8), s.operand t (bits w 21 8), s.tapEn t], fun s _ => s⟩,
   ⟨.topk, 0x68, 3, fun s t w => s.topkIssueFault t w (s.operand t (bits w 20 8)), fun s t w => s.sLen t (tkSi w) == 0, fun _ => [],
    fun s t w => [s.operand t (bits w 20 8), s.operand t (bits w 28 8)], fun s _ => s⟩,
   ⟨.sample, 0x6A, 3, fun s t w => s.sampleIssueFault t w (s.operand t (bits w 27 8)), fun s t w => s.sLen t (saSl w) == 0, fun _ => [],
    fun s t w => [s.operand t (bits w 27 8)], fun s _ => s⟩,
   ⟨.stopchk, 0x6C, 3, fun s t w => s.stopIssueFault t w, fun s t w => s.sLen t (stSt w) == 0, fun _ => [], fun _ _ _ => [], fun s _ => s⟩,
   ⟨.rng, 0x6E, 3, fun s t w => s.rngIssueFault t w, fun s t w => s.sLen t (rgSo w) == 0, fun _ => [],
    fun s t w => [s.operand t (bits w 44 8), s.operand t (bits w 36 8)], fun s _ => s⟩,
   ⟨.brd, 0x80, 2, fun _ _ _ => none, fun _ _ _ => false, fun _ => [], fun s t w => [bwAddr w (s.operand t (bits w 36 8))], fun s _ => s⟩,
   ⟨.bwr, 0x81, 2, fun _ _ _ => none, fun _ _ _ => false, fun _ => [],
    fun s t w => [bwAddr w (s.operand t (bits w 36 8)), s.operand t (bits w 44 8)], fun s _ => s⟩,
   ⟨.bgath, 0x84, 1, fun s t w => s.gatherIssueFault t w (s.sendQueueOk t (bgQ w)) (s.operand t (bits w 44 8))
      (s.operand t (bits w 27 8) % 2 ^ 24), fun _ _ _ => false, fun _ => [],
    fun s t w => [s.operand t (bits w 44 8), s.operand t (bits w 27 8) % 2 ^ 24], fun s _ => s⟩,
   ⟨.bscat, 0x85, 0, fun s t w => s.gatherIssueFault t w (s.recvQueueOk t (bgQ w)) (s.operand t (bits w 44 8))
      (s.operand t (bits w 27 8) % 2 ^ 24), fun _ _ _ => false, fun _ => [],
    fun s t w => [s.operand t (bits w 44 8), s.operand t (bits w 27 8) % 2 ^ 24], fun s _ => s⟩,
   ⟨.march, 0x88, 3, fun s t w =>
      if s.operand t (bits w 44 8) = 0 then none else s.marchIssueFault t w (s.operand t (bits w 44 8)), fun s t w => s.operand t (bits w 44 8) == 0,
    fun w => [bits w 28 8], fun s t w => [s.operand t (bits w 44 8), s.operand t (bits w 36 8)], fun s _ => s⟩]

/-- A mover instruction: its row, its opcode, and the XFM or OP that a word of it holds (Tables 09-4 and 09-5). -/
structure MoveForm where
  make : Fin 240 → Ecc → Instr
  op : Nat
  xfm : Option Nat

/-- The mover instructions. -/
def moveForms : List MoveForm :=
  [⟨.copy, 0xA0, some 0⟩, ⟨.ingot, 0xA0, some 1⟩, ⟨.diag, 0xA0, some 2⟩, ⟨.gather, 0xA0, some 3⟩, ⟨.scatter, 0xA0, some 4⟩,
   ⟨.kv, 0xA0, some 5⟩, ⟨.coll, 0xA0, some 6⟩, ⟨.warm, 0xA2, some 0⟩, ⟨.cancelEntries, 0xA2, some 1⟩, ⟨.stopStream, 0xA2, some 2⟩,
   ⟨.startStream, 0xA2, some 3⟩, ⟨.perm, 0xA4, none⟩, ⟨.unperm, 0xA5, none⟩, ⟨.append, 0xA8, none⟩, ⟨.bcast, 0xAC, none⟩]

/-- The counts that an access through a Hearth slice advances (R203). -/
def hearthRegs : List Nat := [Reg.TIER_HEARTH_HIT_LO, Reg.TIER_HEARTH_HIT_HI, Reg.TIER_HEARTH_MISS_LO, Reg.TIER_HEARTH_MISS_HI]

/-- A list of `n` bytes for CAPTURE or RELEASE lies whole in a tier of the own slot that is up (R299). -/
def State.listHere (s : State) (pa n : Nat) : Bool :=
  s.homeUp (s.homeOf pa) && s.homeUp (s.homeOf (pa + n - 1)) && match s.homeOf pa, s.homeOf (pa + n - 1) with
    | .hot _ _, .hot _ _ => true
    | .warm _ _, .warm _ _ => true
    | .cold _, .cold _ => true
    | _, _ => false

/-- No part of the module can read such a list: it lies in no memory, or over two kinds of it, or its tier or its slot is not to be had. -/
def State.listNowhere (s : State) (pa n : Nat) : Bool :=
  !s.listHere pa n && match s.homeOf pa, s.homeOf (pa + n - 1) with
    | .sram _, .sram _ => false
    | .remote slot _, .remote _ _ => !s.slotReachable slot
    | _, _ => true

/-- Every access asked for has its tags (R213). -/
def State.noneWaits (s : State) : Prop := ∀ o ∈ s.outstanding, o.sent = true

/-- STATE, ENABLE_PENDING and DISABLE_PENDING of a block (R377). -/
def State.enBits (s : State) (f : EnFields) : Nat × Bool × Bool := (s.fld f.state, s.flag f.enp, s.flag f.disp)

/-- EN in each state of Table 16-1: 0 OFF, 1 ENABLING, 2 ON, 3 DISABLING. -/
def enAfter : Nat × Bool × Bool → Nat × Bool × Bool
  | (0, e, d) => (1, e, d)
  | (1, e, _) => (1, e, false)
  | (2, e, d) => (2, e, d)
  | (n, _, d) => (n, true, d)

/-- DIS in each state of Table 16-1. -/
def disAfter : Nat × Bool × Bool → Nat × Bool × Bool
  | (0, e, d) => (0, e, d)
  | (1, e, _) => (1, e, true)
  | (2, e, d) => (3, e, d)
  | (n, _, d) => (n, false, d)

/-- A write with EN and DIS, EN first (R377). -/
def writeAfter (en dis : Bool) (x : Nat × Bool × Bool) : Nat × Bool × Bool :=
  let x := if en then enAfter x else x
  if dis then disAfter x else x

/-- The work of an ENABLING or DISABLING is done (Table 16-1). -/
def doneAfter : Nat × Bool × Bool → Nat × Bool × Bool
  | (1, _, d) => (if d then 3 else 2, false, false)
  | (3, e, _) => (if e then 1 else 0, false, false)
  | x => x

/-- The work of an ENABLING fails (Table 16-1). -/
def failAfter : Nat × Bool × Bool → Nat × Bool × Bool
  | (1, _, _) => (0, false, false)
  | x => x

end Sys2Proof.Machine
end

