-- ==== Sys2Proof/Certificates/Slice0/Obligations.lean ====
section
/-! DEFINITION. The statements for the provers. Each definition's comment says what it claims and which rules of the spec it rests on. -/

set_option linter.all false
open Sys2Proof Sys2Proof.Machine

/-- A step runs the command at the front of the queue. A step takes the command at the front of the queue and answers what it does to the
state with the rest of the queue. An ill-formed command, which no sender can send, stops the machine (the model's own stop), and with an
empty queue the block idles (log 2). (R20, 98_reader.md) -/
def Obligations.StepRunsTheFrontCommand : Prop :=
  ∀ (c : Instr) (rest : List Instr) (s : State),
    (c.wf = true → step { s with pending := c :: rest } = exec c { s with pending := rest }) ∧
    (c.wf = false → step { s with pending := c :: rest } = .fault .illFormed) ∧
    step { s with pending := [] } = .next { s with pending := [] }

/-- No command stops the machine. Whatever the state, every command answers a next state: no rule of the spec stops the module by anything
but an effect on its state. (R5, 95_what_each_step_holds.md) -/
def Obligations.EveryCommandCompletes : Prop :=
  ∀ (c : Instr) (s : State), ∃ t, exec c s = .next t

/-- The state after reset is in canonical form. After an input-power reset memory, registers and the boot flash are in canonical form,
nothing waits, and PWR_GOOD is low, so that no die runs. (R10, R451) -/
def Obligations.ResetIsCanonical : Prop :=
  State.reset.Inv ∧ State.reset.pending = [] ∧ State.reset.pins.powered = false ∧ State.reset.live = false ∧
    (∀ o, State.reset.reg o = regReset o)

/-- Every step keeps memory, registers and flash in canonical form. From every state whose memory, register window and boot flash are each
listed in the one canonical form (addresses strictly rising, no entry equal to what an unlisted address reads as), a step that answers a
next state answers one of that form. (R176, R182, R425) -/
def Obligations.StepKeepsCanonicalForm : Prop :=
  ∀ s t : State, s.Inv → step s = .next t → t.Inv

/-- No step restores a blown fuse. Whatever command is taken, the serial number, the key hashes and the identity key stay, no revocation bit
clears, no counter falls, and DEBUG_LOCK stays blown. (R422 (18_security.md), R428 (18_security.md)) -/
def Obligations.BlownFusesStayBlown : Prop :=
  ∀ s t : State, step s = .next t → s.fuses.Blown t.fuses

/-- A step takes exactly the front command, and no free value twice. A step leaves the queue without its front command and otherwise as it
was, and the count of free values taken never falls, so that no value the spec leaves open is used for two (the count is the model's own,
log 3). (98_reader.md, 95_what_each_step_holds.md) -/
def Obligations.StepTakesOneCommand : Prop :=
  ∀ s t : State, s.Inv → step s = .next t → t.pending = s.pending.tail ∧ s.free ≤ t.free

/-- Only the end of a fuse command, or the loss of input power in one, changes a fuse. Every command but FUSE_COMMAND_COMPLETE and
INPUT_POWER_RESET leaves every fuse as it is, and those two leave the fuses as they are unless a fuse command is in progress. (R428
(18_security.md), R10) -/
def Obligations.OnlyFuseCommandsBlowFuses : Prop :=
  ∀ (c : Instr) (s t : State), s.Inv → exec c s = .next t →
    ((∀ n, c ≠ .inputPowerReset n) → c ≠ .fuseCommandComplete → t.fuses = s.fuses) ∧
    (s.security.fuseOp = none → t.fuses = s.fuses)

/-- A STRIKE edge aligns, confirms a boundary or is an anomaly; so is a boundary missed. With the reference running: an edge while ARMED
loads TIME_LOAD into the counter, clears ARMED and sets ALIGNED; an edge of an unaligned module has no effect; an edge in the first tick of
a Strike marks that boundary; any other counts in TIME_OFF_CNT, sets OFF_BOUNDARY, stamps TIME_LAST_ANOM and adds to the period's anomalies,
setting DEGRADED where the count reaches the limit, with an interrupt and firmware's report under INT_EN. Nothing else changes. When the
first tick of a Strike has passed with no edge, TIME_MISSED_CNT counts it, MISSED is set and it is an anomaly of its period like an edge off
the boundary. Where no boundary was missed the command changes nothing. (R27, R29, R30, Table 02-1) -/
def Obligations.EdgesAndMissedBoundaries : Prop :=
  (∀ s : State, s.refRuns = true → ∃ t, exec .strikeEdge s = .next t ∧
    (if s.flag Reg.TIME_STATUS.ARMED then
      t.tick = s.reg64 Reg.TIME_LOAD_LO ∧ t.flag Reg.TIME_STATUS.ARMED = false ∧ t.flag Reg.TIME_STATUS.ALIGNED = true ∧
        t = { s with regs := t.regs, edge := some true, boundary := 0 } ∧
        s.keepsRegs t [Reg.TIME_TICK_LO, Reg.TIME_TICK_HI, Reg.TIME_STATUS]
    else if s.flag Reg.TIME_STATUS.ALIGNED = false then t = s
    else if s.tick % 1024 = 0 then t = { s with edge := some true }
    else
      let n := s.anomCount + 1
      let trip := decide (s.anomLimit ≤ n) && !s.flag Reg.TIME_STATUS.DEGRADED
      t.fld Reg.TIME_OFF_CNT.COUNT = min (2 ^ Reg.TIME_OFF_CNT.COUNT.width - 1) (s.fld Reg.TIME_OFF_CNT.COUNT + 1) ∧
        t.flag Reg.TIME_STATUS.OFF_BOUNDARY = true ∧ t.reg64 Reg.TIME_LAST_ANOM_LO = s.tick ∧
        t.flag Reg.TIME_STATUS.DEGRADED = (s.flag Reg.TIME_STATUS.DEGRADED || trip) ∧
        t.flag Reg.TIME_STATUS.ALIGNED = true ∧
        t = { s with
          regs := t.regs
          anomalies := n
          anomPeriod := s.anomNow
          out := s.out ++ (if trip && s.flag Reg.TIME_CTRL.INT_EN then [.interrupt false 30, .report 30] else []) } ∧
        s.keepsRegs t [Reg.TIME_OFF_CNT, Reg.TIME_STATUS, Reg.TIME_LAST_ANOM_LO, Reg.TIME_LAST_ANOM_HI])) ∧
  (∀ s : State, ∃ t, exec .missedBoundary s = .next t ∧
    (if s.onBoundary = true ∧ s.edge = none then
      let n := s.anomCount + 1
      let trip := decide (s.anomLimit ≤ n) && !s.flag Reg.TIME_STATUS.DEGRADED
      t.fld Reg.TIME_MISSED_CNT.COUNT = min (2 ^ Reg.TIME_MISSED_CNT.COUNT.width - 1) (s.fld Reg.TIME_MISSED_CNT.COUNT + 1) ∧
        t.flag Reg.TIME_STATUS.MISSED = true ∧ t.reg64 Reg.TIME_LAST_ANOM_LO = s.tick ∧
        t.flag Reg.TIME_STATUS.DEGRADED = (s.flag Reg.TIME_STATUS.DEGRADED || trip) ∧
        t = { s with
          regs := t.regs
          anomalies := n
          anomPeriod := s.anomNow
          edge := some false
          out := s.out ++ (if trip && s.flag Reg.TIME_CTRL.INT_EN then [.interrupt false 30, .report 30] else []) } ∧
        s.keepsRegs t [Reg.TIME_MISSED_CNT, Reg.TIME_STATUS, Reg.TIME_LAST_ANOM_LO, Reg.TIME_LAST_ANOM_HI]
    else t = s))

/-- The anomaly period rolls, and the slot pins are compared, at their boundaries. At the first tick of a period of 2^20 ticks the anomaly
count keeps those of that period alone, a boundary missed in that tick among them; at a Strike boundary, in its place of R35, a difference
between the live pins and DEV_SLOT sets MISMATCH and changes nothing else. (R22, R30, R32, R35) -/
def Obligations.PeriodsAndPinsAtBoundaries : Prop :=
  (∀ s : State, s.flag Reg.TIME_STATUS.ALIGNED = true → s.tick % 2 ^ 20 = 0 →
    exec .anomalyPeriodRoll s = .next { s with
      anomalies := if s.anomPeriod = s.anomNow then s.anomalies else 0
      anomPeriod := s.anomNow }) ∧
  (∀ (slot : BitVec 2) (board : BitVec 6) (s : State), s.place 7 = true → ∃ t, exec (.slotCheck slot board) s = .next t ∧
    t.flag Reg.DEV_SLOT.MISMATCH = (s.flag Reg.DEV_SLOT.MISMATCH ||
      decide (slot.toNat ≠ s.fld Reg.DEV_SLOT.SLOT ∨ board.toNat ≠ s.fld Reg.DEV_SLOT.BOARD)) ∧
    t.fld Reg.DEV_SLOT.SLOT = s.fld Reg.DEV_SLOT.SLOT ∧ t.fld Reg.DEV_SLOT.BOARD = s.fld Reg.DEV_SLOT.BOARD ∧
    t = { s with regs := t.regs, boundary := 7 } ∧ s.keepsRegs t [Reg.DEV_SLOT])

/-- A write of TIME_CTRL arms alignment, and a LOCK bit only sets. In a module that hears the master (firmware and the host once the
security boot has passed, the rack manager while it is on): a write of TIME_CTRL by firmware or the rack manager sets ANOM_LIMIT and INT_EN
and, with ARM in an unaligned module, ARMED. A write of DEV_LOCK, PWR_LOCK, MSH_LOCK or CXL_LOCK by either, and of DEV_LOCK by host function
0 unless it is frozen, sets LOCK where bit 0 is 1 and clears it in no case. Nothing else changes. While PWR_GOOD is low a write of a LOCK
changes nothing. (R9, R10, R23, R24, R27, R38, R331, R449) -/
def Obligations.TimeControlAndLocks : Prop :=
  (∀ (m : Master) (v : Word) (s : State), m = .firmware ∨ m = .rackManager → s.reaches m Reg.TIME_CTRL = true →
    ∃ t, exec (.timeArm m v) s = .next t ∧
    t.fld Reg.TIME_CTRL.ANOM_LIMIT = bits v.toNat 8 8 ∧ t.flag Reg.TIME_CTRL.INT_EN = bitOf v.toNat 1 ∧
    t.flag Reg.TIME_STATUS.ARMED = (s.flag Reg.TIME_STATUS.ARMED || (bitOf v.toNat 0 && !s.flag Reg.TIME_STATUS.ALIGNED)) ∧
    t.flag Reg.TIME_STATUS.ALIGNED = s.flag Reg.TIME_STATUS.ALIGNED ∧ s.onlyRegs t [Reg.TIME_CTRL, Reg.TIME_STATUS]) ∧
  (∀ (m : Master) (v : Word) (s : State) (c : Instr) (f : Field),
    (c, f) ∈ [(.devLock m v, Reg.DEV_LOCK.LOCK), (.pwrLock m v, Reg.PWR_LOCK.LOCK), (.mshLock m v, Reg.MSH_LOCK.LOCK),
      (.cxlLock m v, Reg.CXL_LOCK.LOCK)] →
    (m = .firmware ∨ m = .rackManager → s.reaches m f.off = true →
      ∃ t, exec c s = .next t ∧ t.flag f = (s.flag f || bitOf v.toNat 0) ∧ s.onlyRegs t [f.off]) ∧
    (s.pins.powered = false → exec c s = .next s)) ∧
  (∀ (v : Word) (s : State), s.live = true → s.fnFrozen 0 = false →
    ∃ t, exec (.devLock (.host 0) v) s = .next t ∧ t.flag Reg.DEV_LOCK.LOCK = (s.flag Reg.DEV_LOCK.LOCK || bitOf v.toNat 0) ∧
      s.onlyRegs t [Reg.DEV_LOCK])

/-- The loss of the reference stops the counter and the clocks; its return sets the counter to 0. When lock is lost REF_LOST sets, ALIGNED
clears, FAULT# is asserted, the clocks stop and the counter keeps its value (Bellows waits for alignment again). When the reference returns,
with no warm reset waiting for it, the counter holds 0. No other register changes, and memory stays. (R31, R26, R340) -/
def Obligations.ReferenceLossStopsTheClocks : Prop :=
  (∀ s : State, s.refRuns = true → ∃ t, exec .referenceLost s = .next t ∧
    t.flag Reg.TIME_STATUS.REF_LOST = true ∧ t.flag Reg.TIME_STATUS.ALIGNED = false ∧ t.flag Reg.PWR_STATUS.ALIGNED_WAIT = true ∧
    t.tick = s.tick ∧ t.gridLive = false ∧
    t = { s with
      regs := t.regs
      refGone := true
      edge := none
      pins := { s.pins with clocksOn := false, faultPin := true }
      out := s.out ++ (if s.flag Reg.TIME_CTRL.INT_EN && !s.flag Reg.TIME_STATUS.REF_LOST then [.interrupt false 31] else []) } ∧
    s.keepsRegs t [Reg.TIME_STATUS, Reg.PWR_STATUS]) ∧
  (∀ s : State, s.refGone = true → s.warmWaitsRef = false → ∃ t, exec .referenceReturn s = .next t ∧
    t.tick = 0 ∧ t = { s with regs := t.regs, refGone := false } ∧ s.keepsRegs t [Reg.TIME_TICK_LO, Reg.TIME_TICK_HI])

/-- A tick advances an aligned counter by one and no other. While the reference runs, a tick advances the counter by one where ALIGNED is 1
and leaves it where ALIGNED is 0, and 18 f-cycles pass where the clocks run. Apart from the counter and the BURST bit of PWR_STATUS no
register changes, memory stays, and nothing is sent out. While the reference is gone a tick changes nothing. (R16, R25, R26, R31) -/
def Obligations.TickAdvancesTheCounter : Prop :=
  (∀ s : State, s.refRuns = true → ∃ t, exec .tick s = .next t ∧
    t.tick = (if s.flag Reg.TIME_STATUS.ALIGNED then (s.tick + 1) % 2 ^ 64 else s.tick) ∧
    t.fcycles = (if s.pins.clocksOn then s.fcycles + 18 else s.fcycles) ∧
    (s.flag Reg.TIME_STATUS.ALIGNED = true → t.edge = none ∧ t.boundary = 0) ∧
    s.keepsRegs t [Reg.TIME_TICK_LO, Reg.TIME_TICK_HI, Reg.PWR_STATUS] ∧ t.mem = s.mem ∧ t.flash = s.flash ∧ t.out = s.out ∧
    t.pins = s.pins ∧ t.faultLog = s.faultLog ∧ t.requests = s.requests) ∧
  (∀ s : State, s.refRuns = false → exec .tick s = .next s)

/-- A write of a DEV_ register acts by the access codes of its fields. Where the module hears the master (firmware once the security boot
has passed, the rack manager while it is on), a firmware or rack-manager write in the DEV_ block leaves in a listed register what the access
codes of its fields give and changes nothing else; a write of an offset that the block does not list changes nothing; and nothing is written
while PWR_GOOD is low. (R8, R10, R20, R24, R182) -/
def Obligations.RegisterWriteFollowsAccessCodes : Prop :=
  (∀ (m : Master) (o : Nat) (v : Word) (s : State), m = .firmware ∨ m = .rackManager → o < 0x10000 →
    s.reaches m o = true →
    (∀ r, regSpec o = some r → ∃ t, exec (.registerWrite m o v) s = .next t ∧
      t.reg o = r.written (s.flag Reg.DEV_LOCK.LOCK) (s.reg o) v ∧ s.onlyRegs t [o]) ∧
    (regSpec o = none → exec (.registerWrite m o v) s = .next s)) ∧
  (∀ (m : Master) (o : Nat) (v : Word) (s : State), s.pins.powered = false → exec (.registerWrite m o v) s = .next s)

/-- A write to an RWL field after its block is locked has no effect and no fault. With the LOCK bit of its block set, no write of a register
by any master changes a bit of its RWL fields, and a write by a master other than a host function (whose writes of closed blocks are
violations on other grounds) of a register with such a field adds no fault record. (R9) -/
def Obligations.LockedFieldsIgnoreWrites : Prop :=
  ∀ (m : Master) (o : Nat) (v : Word) (s : State) (r : RegSpec), regSpec o = some r → r.rwl ≠ 0 → s.lockedAt o = true →
    ∃ t, exec (.registerWrite m o v) s = .next t ∧
      t.reg o &&& BitVec.ofNat 32 r.rwl = s.reg o &&& BitVec.ofNat 32 r.rwl ∧
      ((∀ f, m ≠ .host f) → t.faultLog = s.faultLog)

/-- The loss of input power resets the module and leaves what lies outside it. After INPUT_POWER_RESET every register is at its reset value
and PWR_GOOD is low; the bytes of the warm and cold tiers, the boot flash, the quarantine records in it and the fuses (as far as a command
in progress has blown them) stay; every other byte reads as unwritten memory does (the model's choice, log 6); and everything else but what
the journal's copy holds (log 27), the level of PERST# and what was sent out is as after reset. (R10, R422 (18_security.md), R428
(18_security.md), R451, R452, R460) -/
def Obligations.InputPowerResetLeavesWhatIsOutside : Prop :=
  ∀ (blown : Nat) (s : State), ∃ t, exec (.inputPowerReset blown) s = .next t ∧
    (∀ o, t.reg o = regReset o) ∧ (∀ a, t.byte a = if tierByte a then s.byte a else memReset a) ∧ s.fuses.Blown t.fuses ∧
    (s.security.fuseOp = none → t.fuses = s.fuses) ∧
    t = { State.reset with
      mem := t.mem
      flash := s.flash
      quarRecords := s.quarRecords
      fuses := t.fuses
      journal := t.journal
      pins := { Pins.reset with perst := s.pins.perst }
      out := s.out
      free := s.free
      pending := s.pending }

/-- Power-up latches the slot, boots, and trains the stacks. When PWR_GOOD rises, DEV_SLOT takes the pins, the rails and clocks come on, and
the fuses and the boot flash stay. Where an image of the boot flash passes the checks BOOTED sets, FAULT# is released, the BARs open, the
grid is ready, each stack that trains is ON, each other is DEGRADED with STATE as it was, which is OFF after the loss of input power, every
byte of a Billet bank is 0 where no row fails its march, and recovery is pending (log 27). Where none passes and BOOTED was 0, as it is
after the loss of input power, it stays 0 and FAULT# is asserted. A powered module is left as it is. (R22, R424 (18_security.md), R425
(18_security.md), R456, R457, R459, Table 20-3) -/
def Obligations.PowerUpLatchesAndBoots : Prop :=
  (∀ (slot : BitVec 2) (board : BitVec 6) (trained : BitVec 12) (failing : List (Fin 240 × Fin 48 × List Nat)) (s : State),
    s.pins.powered = false →
    ∃ t, exec (.powerUp slot board trained failing) s = .next t ∧
      t.fld Reg.DEV_SLOT.SLOT = slot.toNat ∧ t.fld Reg.DEV_SLOT.BOARD = board.toNat ∧
      t.pins.powered = true ∧ t.pins.railsOn = true ∧ t.pins.clocksOn = true ∧ t.fuses = s.fuses ∧ t.flash = s.flash ∧
      (if s.checkImage (s.flashBytes (flashBank 0)) = 0 ∨ s.checkImage (s.flashBytes (flashBank 1)) = 0 then
        t.flag Reg.SEC_STATUS.BOOTED = true ∧ t.pins.faultPin = false ∧ t.pins.barsOpen = true ∧ t.pins.gridReady = true ∧
          t.flag Reg.SRV_STATUS.RECOVERING = true ∧
          (∀ b : Fin 12, (trained.getLsb b = true → t.fld (Reg.TIER_UNIT.STATE (unitHot b)) = 2) ∧
            (trained.getLsb b = false → t.flag (Reg.TIER_UNIT.DEGRADED (unitHot b)) = true ∧
              t.fld (Reg.TIER_UNIT.STATE (unitHot b)) = s.fld (Reg.TIER_UNIT.STATE (unitHot b)))) ∧
          (failing = [] → ∀ a, bankByte a = true → t.byte a = 0)
      else s.flag Reg.SEC_STATUS.BOOTED = false → t.flag Reg.SEC_STATUS.BOOTED = false ∧ t.pins.faultPin = true)) ∧
  (∀ (slot : BitVec 2) (board : BitVec 6) (trained : BitVec 12) (failing : List (Fin 240 × Fin 48 × List Nat)) (s : State),
    s.pins.powered = true → exec (.powerUp slot board trained failing) s = .next s)

/-- PERST# takes the host link down; its release and training bring it back. PERST# of a powered module drops the link's status, every watch
line and every access made for the host, and leaves memory; where no access waits for tags, it leaves every register outside the host link's
own and all else. Its release changes the pin alone. A link that then trains shows its width and rate, and what waited for the host goes out
after what was already sent. (R439, R441, R453) -/
def Obligations.HostLinkGoesDownAndComesBack : Prop :=
  (∀ s : State, s.pins.powered = true → ∃ t, exec .perst s = .next t ∧ t.pins = { s.pins with perst := true } ∧
    t.flag Reg.CXL_HOST_STAT.TRAINED = false ∧ t.fld Reg.CXL_HOST_STAT.WIDTH = 0 ∧ t.fld Reg.CXL_HOST_STAT.RATE = 0 ∧
    (∀ o ∈ t.outstanding, o.ofHost = false) ∧ (∀ n : Fin 64, (t.log n).tailHeld = false ∧ (t.log n).outHeld = false) ∧ t.mem = s.mem ∧
    (s.noneWaits → s.keepsRegs t [Reg.CXL_HOST_STAT, Reg.CXL_HOST_ERR] ∧ t.outstanding = s.outstanding.filter (fun o => !o.ofHost) ∧
      t = { s with regs := t.regs, pins := t.pins, logs := t.logs, outstanding := t.outstanding, lateTags := t.lateTags })) ∧
  (∀ s : State, exec .perstDeassert s = .next { s with pins := { s.pins with perst := false } }) ∧
  (∀ (width rate : Nat) (s : State), s.on = true → s.pins.perst = false → s.hostUp = false → linkOk width rate = true →
    ∃ t, exec (.hostLinkTrained width rate) s = .next t ∧ t.flag Reg.CXL_HOST_STAT.TRAINED = true ∧
      t.fld Reg.CXL_HOST_STAT.WIDTH = width % 2 ^ Reg.CXL_HOST_STAT.WIDTH.width ∧
      t.fld Reg.CXL_HOST_STAT.RATE = rate % 2 ^ Reg.CXL_HOST_STAT.RATE.width ∧ t.outHeld = [] ∧ s.out ++ s.outHeld <+: t.out)

/-- A warm reset empties the module and keeps rack time, identity, journal mode and fuses. A warm reset of a booted module that has neither
tripped, nor waits, nor lost its reference, nor a fuse command in progress ends every request, walk, fetch and access, leaves every
partition OFF, keeps every register of the DEV_ and TIME_ blocks, the fuses, the flash and the records of the journal, clears ACCEPT_EN and
sets RECOVERING. One that meets a lost reference only waits for it, and one of a tripped or unpowered module changes nothing. (R28, R31,
R374, R454, R458, Table 20-6) -/
def Obligations.WarmResetKeepsTimeAndFuses : Prop :=
  (∀ s : State, s.live = true → s.flag Reg.PWR_STATUS.THERMTRIP = false → s.flag Reg.SEC_STATUS.BOOTED = true →
    s.security.warmWaits = false → s.refGone = false → s.security.fuseOp = none → ∃ t, exec .warmReset s = .next t ∧
      (∀ o, o < 0x20000 → t.reg o = s.reg o) ∧ t.fuses = s.fuses ∧ t.flash = s.flash ∧ t.journal.records = s.journal.records ∧
      (∀ p : Fin 12, t.partState p = 0) ∧ t.requests = [] ∧ t.walks = [] ∧ t.fetches = [] ∧ t.outstanding = [] ∧ t.movers = [] ∧
      t.flights = [] ∧ t.flag Reg.SRV_CTRL.ACCEPT_EN = false ∧ t.flag Reg.SRV_STATUS.RECOVERING = true ∧
      t.fld Reg.SRV_STATUS.JMODE = s.fld Reg.SRV_STATUS.JMODE) ∧
  (∀ s : State, s.live = true → s.flag Reg.PWR_STATUS.THERMTRIP = false → s.flag Reg.SEC_STATUS.BOOTED = true →
    s.security.warmWaits = false → s.refGone = true → exec .warmReset s = .next { s with warmWaitsRef := true }) ∧
  (∀ s : State, s.live = false ∨ s.flag Reg.PWR_STATUS.THERMTRIP = true → exec .warmReset s = .next s)

/-- GET_READY reports the stages, and a function-level reset drops the function's accesses. GET_READY sends the mask whose bit k is 1
exactly where the module is powered and stage k of Table 20-4 is reached, and changes nothing else. A function-level reset discards exactly
the accesses in flight of its function; where no access waits for tags, nothing else changes but which later answers count as late. (R455,
R458, R464, Table 20-4) -/
def Obligations.ReadinessAndFunctionReset : Prop :=
  (∀ s : State, ∃ n, exec .getReady s = .next { s with out := s.out ++ [.smbus n] } ∧ n < 256 ∧
    ∀ k : Fin 8, n.testBit k = (s.pins.powered && s.readyStage k)) ∧
  (∀ (fn : Fin 64) (s : State), ∃ t, exec (.functionLevelReset fn) s = .next t ∧
    let left := s.outstanding.filter (fun o => !(match o.issuer with
      | .host f _ => fn == f
      | _ => false))
    t.outstanding.map (·.tag) = left.map (·.tag) ∧ t.mem = s.mem ∧
    (s.noneWaits → t = { s with outstanding := left, lateTags := t.lateTags }))

/-- Cap writes are stamped, alerts and a lapsed lease are noted. Where the module hears the master, a write of PWR_CAP by firmware, the rack
manager or a host function that is not frozen shows WATTS and waits, stamped on arrival and held within 400 to 3,000 W, for the power step.
ALERT# asserts and releases as a level whose assertion the next power step sees. A lease that no cap write has renewed lapses at the first
boundary at or after its end with event 4. (R337, R340, R348) -/
def Obligations.CapsAlertsAndLeases : Prop :=
  (∀ (m : Master) (v : Word) (s : State), s.reaches m Reg.PWR_CAP = true → m ≠ .security → (∀ f, m = .host f → s.fnFrozen f = false) →
    ∃ t, exec (.capWrite m v) s = .next t ∧
    t.fld Reg.PWR_CAP.WATTS = bits v.toNat 0 12 ∧ s.keepsRegs t [Reg.PWR_CAP] ∧
    t = { s with
      regs := t.regs
      power := { s.power with
        capStamp := some (BitVec.ofNat 64 s.tick)
        pendingCaps := s.power.pendingCaps ++ [(BitVec.ofNat 64 s.tick, max 400 (min 3000 (bits v.toNat 0 12)))] } }) ∧
  (∀ s : State, s.on = true → s.power.alert = false → ∃ t, exec .alertAssert s = .next t ∧
    t.flag Reg.PWR_STATUS.ALERT = true ∧ s.keepsRegs t [Reg.PWR_STATUS] ∧
    t = { s with
      regs := t.regs
      power := { s.power with alert := true, alertPulse := true, alertTick := BitVec.ofNat 64 s.tick } }) ∧
  (∀ s : State, s.on = true → s.power.alert = true → ∃ t, exec .alertRelease s = .next t ∧
    t.flag Reg.PWR_STATUS.ALERT = false ∧ s.keepsRegs t [Reg.PWR_STATUS] ∧
    t = { s with regs := t.regs, power := { s.power with alert := false } }) ∧
  (∀ (s : State) (st : DWord), s.power.capStamp = some st → s.on = true → s.onBoundary = true → s.boundary < 2 →
    s.flag Reg.PWR_STATUS.LEASE_LAPSED = false → st.toNat + 1024 * max 1000 (s.fld Reg.PWR_LEASE.STRIKES) ≤ s.tick →
    ∃ t, exec .leaseLapse s = .next t ∧ t.flag Reg.PWR_STATUS.LEASE_LAPSED = true ∧ t.boundary = 1 ∧ t.mem = s.mem ∧
      t.power = s.power ∧ t.tick = s.tick)

/-- Power samples average over a Strike and temperatures show as read. While the module is powered, the first power sample of a period of
128 ticks shows the voltage and the current, and another in it changes nothing. A sample joins those of its Strike; the eighth of a Strike
moves their mean into the history and its energy, with the rest carried, into PWR_ENERGY. A temperature sample of 28 sensors shows each
reading with its VALID bit. (R333, R343) -/
def Obligations.PowerIsMeasured : Prop :=
  (∀ (mv ma : BitVec 16) (s : State), s.pins.powered = true →
    (s.power.sampled = some s.samplePeriod → exec (.powerSample mv ma) s = .next s) ∧
    (s.power.sampled ≠ some s.samplePeriod → ∃ t, exec (.powerSample mv ma) s = .next t ∧
      t.reg (Reg.PWR_SENS 28) = BitVec.ofNat 32 (2 ^ 31 + mv.toNat) ∧ t.reg (Reg.PWR_SENS 29) = BitVec.ofNat 32 (2 ^ 31 + ma.toNat) ∧
      t = { s with regs := t.regs, power := t.power } ∧
      let l := s.power.ofStrike s.samplePeriod ++ [mv.toNat * ma.toNat]
      (if l.length < 8 then
        t.power = { s.power with sampled := some s.samplePeriod, samples := l } ∧ s.keepsRegs t [Reg.PWR_SENS 28, Reg.PWR_SENS 29]
      else
        let p := l.sum * 1024 / (l.length * 100000)
        t.power = { s.power with
          sampled := some s.samplePeriod
          samples := []
          history := (p :: s.power.history).take 1953
          energyRest := (s.power.energyRest + p) % 100000 } ∧
          t.reg64 Reg.PWR_ENERGY_LO = (s.reg64 Reg.PWR_ENERGY_LO + (s.power.energyRest + p) / 100000) % 2 ^ 64 ∧
          s.keepsRegs t [Reg.PWR_SENS 28, Reg.PWR_SENS 29, Reg.PWR_ENERGY_LO, Reg.PWR_ENERGY_HI]))) ∧
  (∀ (v : List (BitVec 16)) (s : State), s.pins.powered = true → v.length = 28 → ∃ t, exec (.temperatureSample v) s = .next t ∧
    (∀ n : Fin 28, t.reg (Reg.PWR_SENS n) = BitVec.ofNat 32 (2 ^ 31 + (v.getD n 0).toNat)) ∧ t.mem = s.mem ∧ t.tick = s.tick ∧
    t.flag Reg.PWR_STATUS.COOLANT_ALERT = decide (8 * 65 ≤ (v.getD 27 0).toInt) ∧
    t.flag Reg.PWR_STATUS.INLET_HIGH = decide (8 * 40 < (v.getD 26 0).toInt))

/-- The power step takes the due caps once, and a trip removes the power. At a Strike boundary before its place of R35 the power step takes
the last cap write stamped before the boundary as the rack cap, drops the cap writes it saw, keeps the target at or below C(n) and at or
below the hard caps, and ends the wait for alignment. A sensor at its trip point turns the rails off with FAULT# and THERMTRIP#, ends every
port and tier at OFF and sets THERMTRIP. (R26, R334, R337, R345, Table 14-1) -/
def Obligations.PowerStepAndTrip : Prop :=
  (∀ s : State, s.on = true → s.onBoundary = true → s.boundary < 2 → ∃ t, exec .powerStep s = .next t ∧ t.boundary = 2 ∧
    t.power.rackCap = (((s.power.pendingCaps.filter (fun c => decide (c.1.toNat < s.tick))).getLast?.map (·.2)).getD s.power.rackCap) ∧
    t.power.pendingCaps = s.power.pendingCaps.filter (fun c => decide (s.tick ≤ c.1.toNat)) ∧
    t.power.target ≤ t.power.hardCap ∧ t.power.capNow ≤ t.power.hardCap ∧ t.power.hardCap ≤ 1024 * t.power.rackCap ∧
    t.power.alertPulse = false ∧ t.flag Reg.PWR_STATUS.ALIGNED_WAIT = false ∧ t.mem = s.mem ∧ t.tick = s.tick) ∧
  (∀ (sensor : Fin 26) (v : BitVec 16) (s : State), s.on = true → 8 * (if sensor.val < 14 then 118 else 110) ≤ v.toInt →
    ∃ t, exec (.thermtrip sensor v) s = .next t ∧ t.flag Reg.PWR_STATUS.THERMTRIP = true ∧
      t.pins = { s.pins with railsOn := false, faultPin := true, thermtripPin := true } ∧ t.on = false ∧
      (∀ n : Fin 5, t.fld (Reg.MSH_PORT_STAT.STATE n) = 0) ∧ (∀ u, 16 ≤ u → u < 26 → t.fld (Reg.TIER_UNIT.STATE u) = 0) ∧
      t = { s with regs := t.regs, pins := t.pins })

/-- A grant sends the head flit of the next queue in turn and takes a credit. Where a tile that may issue work has no queue waiting for a
fenced output, the first queue in its round-robin order that waits for it with a credit wins: its head flit, with the error the link made,
is on its way to the neighbour, one credit is taken, the turn moves past the winner and GRD_FLITS counts one. The flit leaves the queue when
its last output has sent it, and a QUENCH flit that leaves quenches the queue. Memory and every register but GRD_FLITS, GRD_ECC_CNT and
GRD_STATUS of the tile stay. (R42, R43, R45, R50, R58, Table 03-2) -/
def Obligations.GrantSendsTheHeadFlit : Prop :=
  (∀ (t : Fin 240) (out : Fin 4) (ecc : FlitEcc) (s : State) (q u : Nat) (h : Held), s.tileWorks t = true →
    (s.rrOrder t out).find? (fun q => s.wants t out q && s.fenced t out) = none → (s.rrOrder t out).find? (s.mayWin t out) = some q →
    neighbour t out = some u → s.headFor t q out = some h → ∃ r, exec (.flitGrant t out ecc) s = .next r ∧
      let x := s.queue t q
      let sent := h.sent ||| BitVec.ofNat 5 (2 ^ out.val)
      let last := decide (s.rtOut t q &&& sent.toNat = s.rtOut t q)
      r.flights = s.flights ++ [⟨u, opposite out, s.rtDq t q, ⟨h.kind, delivered (s.payloadOf t h) ecc⟩, .switch t q out h.seq h.slot⟩] ∧
      r.queue t q = { x.setCredit out (x.credits.toList.getD out 0 - 1) with
        held := if last then x.held.tail else { h with sent := sent } :: x.held.tail
        quenched := x.quenched || (last && decide (h.kind = .quench)) } ∧
      (r.tile t).rr.toList.getD out 0 = (q + 1) % 32 ∧
      r.fld (Reg.GRD_FLITS.COUNT t) = (s.fld (Reg.GRD_FLITS.COUNT t) + 1) % 2 ^ (Reg.GRD_FLITS.COUNT t).width ∧
      (∀ q', q' ≠ q → r.queue t q' = s.queue t q') ∧ r.mem = s.mem ∧
      s.keepsRegs r [Reg.GRD_FLITS t, Reg.GRD_ECC_CNT t, Reg.GRD_STATUS t]) ∧
  (∀ (t : Fin 240) (out : Fin 4) (ecc : FlitEcc) (s : State) (q : Nat), s.tileWorks t = true →
    (s.rrOrder t out).find? (fun q => s.wants t out q && s.fenced t out) = some q →
    exec (.flitGrant t out ecc) s = .next (s.routeFault t q out 4))

/-- An arriving flit is written to the queue that its DQ names, or refused. The oldest flit on a link is written, with its delivered
payload, to the next slot of the queue its DQ names where that queue is valid, has the port as its input and is not quenched; nothing but
those 128 bytes of memory changes. Where the queue is not such a one, the flit is refused: ROUTE_ERR sets and one VIOLATION record is
written; a flit refused because its queue is quenched withdraws DRAINED. (R44, R46, R50, R58, R60, Table 03-1) -/
def Obligations.ArrivalFillsTheQueue : Prop :=
  ∀ (t : Fin 240) (port : Fin 4) (ecc : FlitEcc) (s : State) (f : Flight) (rest : List Flight),
    takeFlight t port s.flights = some (f, rest) → ∃ r, exec (.flitArrival t port ecc) s = .next r ∧ r.flights = rest ∧
      let x := s.queue t f.dq
      let slot := (s.qBase t f.dq + x.tail) % 2048
      (s.rtValid t f.dq = true → s.rtIn t f.dq = port.val → x.quenched = false →
        r.unit (slotAt t slot) = delivered f.flit.payload ecc ∧ s.keepsMem r (slotAt t slot) 128 ∧
        r.queue t f.dq = { x with
          tail := (x.tail + 1) % max 1 (s.qDepth t f.dq)
          nextSeq := x.nextSeq + 1
          held := x.held ++ [⟨x.nextSeq, slot, f.flit.kind, 0⟩] } ∧
        (∀ q', q' ≠ f.dq → r.queue t q' = s.queue t q') ∧ s.keepsRegs r [Reg.GRD_ECC_CNT t, Reg.GRD_STATUS t]) ∧
      (s.rtValid t f.dq = false ∨ s.rtIn t f.dq ≠ port.val ∨ x.quenched = true →
        r.flag (Reg.GRD_STATUS.ROUTE_ERR t) = true ∧
          ∃ d, r.faultLog = s.faultLog ++ [d] ∧ d.source = t.val ∧ d.code = codeViolation) ∧
      (s.rtValid t f.dq = true → s.rtIn t f.dq = port.val → x.quenched = true → r.drained t = false)

/-- A credit that arrives may be used again; GRD_CTRL and GRD_LINK act at once, later, or never. The oldest credit on its way to an output
is taken from the link and adds one to the count that it is for: that of the output for the queue, or the one that the I/O die's attachment
holds. Nothing else changes. For a tile of no partition the write takes effect at once; for a tile of a partition at rest it waits until the
partition next runs, with no register changed; otherwise it is dropped and WR_IGNORED sets. (R43, R47, R51, R59, Table 03-6, Table 03-7) -/
def Obligations.CreditsAndSwitchControls : Prop :=
  (∀ (t : Fin 240) (out : Fin 4) (s : State) (c : CreditFlight) (rest : List CreditFlight),
    takeCredit t out s.creditFlights = some (c, rest) → ∃ r, exec (.creditReturn t out) s = .next r ∧
      r.queue t c.q = (if c.attach then { s.queue t c.q with attach := (s.queue t c.q).attach + 1 }
        else (s.queue t c.q).setCredit out ((s.queue t c.q).credits.toList.getD out 0 + 1)) ∧
      (∀ q', q' ≠ c.q → r.queue t q' = s.queue t q') ∧ (∀ t' : Nat, t' ≠ t → r.tile t' = s.tile t') ∧
      r = { s with creditFlights := rest, tiles := r.tiles }) ∧
  (∀ (t : Fin 240) (link : Bool) (v : Word) (s : State), s.live = true → ∃ r, exec (.grdLinkWrite .firmware t link v) s = .next r ∧
    (s.partOf t = none →
      (if link then r.fld (Reg.GRD_LINK.FENCE t) = v.toNat % 16 ∧ s.onlyRegs r [Reg.GRD_LINK t]
      else r.fld (Reg.GRD_CTRL.DL_LIMIT t) = bits v.toNat 8 5 ∧ r.flag (Reg.GRD_CTRL.DL_EN t) = bitOf v.toNat 0 ∧
        s.onlyRegs r [Reg.GRD_CTRL t])) ∧
    (∀ p, s.partOf t = some p →
      (s.atRest p = true → r = { s with tiles := r.tiles } ∧ (∀ t' : Nat, t' ≠ t → r.tile t' = s.tile t') ∧
        r.tile t = (if link then { s.tile t with deferLink := some v } else { s.tile t with deferCtrl := some v })) ∧
      (s.atRest p = false → r.flag (Reg.GRD_STATUS.WR_IGNORED t) = true ∧ s.onlyRegs r [Reg.GRD_STATUS t])))

/-- A switch whose stall counter reaches its limit freezes its partition with one record. Where a running partition's tiles are its own and
each switch whose stall counter has reached the limit has a full queue, one of those switches shows DEADLOCK, one DEADLOCK record with its
tile index is written, and the partition is frozen. Where no counter has reached its limit nothing changes. (R54, R55, R56, R57, Table 03-3)
-/
def Obligations.DeadlockFreezesThePartition : Prop :=
  ∀ (p : Fin 12) (s : State), s.running p = true → (∀ t ∈ s.tilesOf p, s.partOf t = some p.val) →
    ((∀ t ∈ s.tilesOf p, s.tripped t = none) → exec (.deadlockDetect p) s = .next s) ∧
    ((∃ t ∈ s.tilesOf p, (s.tripped t).isSome = true) → (∀ t ∈ s.tilesOf p, (s.tripped t).isSome = true → s.fullQueues t ≠ []) →
      ∃ r, exec (.deadlockDetect p) s = .next r ∧ ∃ t ∈ s.tilesOf p, (s.tripped t).isSome = true ∧
        r.flag (Reg.GRD_STATUS.DEADLOCK t) = true ∧ r.flag (Reg.PRT_P_STAT.FROZEN p) = true ∧
        (∃ d, r.faultLog = s.faultLog ++ [d] ∧ d.source = t ∧ d.code = codeDeadlock ∧ d.part = p.val) ∧ r.mem = s.mem ∧
        s.keepsRegs r [Reg.GRD_STATUS t, Reg.GRD_DL_INFO t, Reg.PRT_P_STAT p])

/-- MOV, ADD, SUB, AND, OR, SHL and SHR write their result and go on. Where the sequencer executes the word, MOV writes its source or its
sign-extended immediate, and an arithmetic instruction the 64-bit result that wraps, to the register that DST names: g0 and p0 discard it, a
predicate takes bit 0 and a stream field its bits that are not reserved. The program counter moves on by one and STATE is RUN. Nothing else
changes but the count of a corrected error of the fetch. (R64, R65, R67, R70, R72, R87, Table 04-2, Table 04-4) -/
def Obligations.ShortInstructionsWriteTheirResult : Prop :=
  ∀ f ∈ resultForms, ∀ (t : Fin 240) (fetch : Ecc) (s : State) (w : Nat), fetch ≠ .uncorrectable → s.Executes t w → wOp w = f.op →
    ∃ r, exec (f.make t fetch) s = .next r ∧ r.operand t (bits w 44 8) = readsBack (bits w 44 8) (f.result s t w) ∧
      r.pc t = (s.pc t + 1) % 4096 ∧ r.seqState t = 1 ∧
      (fetch = .corrected → r.fld (Reg.SEQ_IMEM.CE t) =
        min (2 ^ (Reg.SEQ_IMEM.CE t).width - 1) (s.fld (Reg.SEQ_IMEM.CE t) + 1)) ∧
      s.onlyRegs r (destRegs t (bits w 44 8) ++ [Reg.SEQ_STATUS t] ++ fetchRegs t fetch)

/-- CMP writes 1 where its condition holds and 0 otherwise. CMP compares SRC1 with SRC2 or the sign-extended IMM32 under COND (0 EQ, 1 NE, 2
LT, 3 GE, 4 LTU, 5 GEU) and writes 1 or 0 to DST, whichever register that is; the program counter moves on by one, and nothing else changes
but the count of a corrected error of the fetch. (R71) -/
def Obligations.CompareWritesTheCondition : Prop :=
  ∀ (imm : Bool) (t : Fin 240) (fetch : Ecc) (s : State) (w : Nat), fetch ≠ .uncorrectable → s.Executes t w →
    wOp w = (if imm then 0x11 else 0x10) → ∃ r, exec (if imm then .cmpImmediate t fetch else .cmpRegister t fetch) s = .next r ∧
      (let a := BitVec.ofNat 64 (s.operand t (bits w 36 8))
       let b := BitVec.ofNat 64 (if imm then imm32 w else s.operand t (bits w 28 8))
       let c := if imm then bits w 32 3 else bits w 0 3
       c < 6 ∧ r.operand t (bits w 44 8) = readsBack (bits w 44 8)
        (if (c = 0 ∧ a = b) ∨ (c = 1 ∧ a ≠ b) ∨ (c = 2 ∧ a.toInt < b.toInt) ∨ (c = 3 ∧ b.toInt ≤ a.toInt) ∨
          (c = 4 ∧ a.toNat < b.toNat) ∨ (c = 5 ∧ b.toNat ≤ a.toNat) then 1 else 0)) ∧
      r.pc t = (s.pc t + 1) % 4096 ∧ r.seqState t = 1 ∧
      s.onlyRegs r (destRegs t (bits w 44 8) ++ [Reg.SEQ_STATUS t] ++ fetchRegs t fetch)

/-- A taken BR goes to its target and pops the frames that do not contain it. A BR that is taken goes to its target. Of the open loop frames
one stays open exactly where it, or an open frame inside it, contains the target, and no frame opens. Nothing else changes, and an ENDL that
is reached with no open frame, or not at the END of the innermost one, raises the VIOLATION 0x25 of R73. (R75) -/
def Obligations.BranchesPopFrames : Prop :=
  (∀ (t : Fin 240) (fetch : Ecc) (s : State) (w : Nat), fetch ≠ .uncorrectable → s.Executes t w → wOp w = 0x18 →
    ∃ r, exec (.br t fetch) s = .next r ∧ r.pc t = bits w 0 12 ∧ r.seqState t = 1 ∧
      (∀ n : Fin 4, r.flag (Reg.SEQ_LOOP_CTL.VALID t n) = (s.flag (Reg.SEQ_LOOP_CTL.VALID t n) &&
        (decide (s.openFrames t ≤ n.val) || (List.range (s.openFrames t)).any (fun m => decide (n.val ≤ m) && s.frameHolds t m (bits w 0 12))))) ∧
      s.onlyRegs r ((List.range 4).map (Reg.SEQ_LOOP_CTL t) ++ [Reg.SEQ_STATUS t] ++ fetchRegs t fetch)) ∧
  (∀ (t : Fin 240) (s : State) (w : Nat), s.Executes t w → wOp w = 0x1A →
    (s.openFrames t = 0 ∨ s.fld (Reg.SEQ_LOOP_CTL.END t (s.openFrames t - 1)) ≠ s.pc t) →
    exec (.endl t .clean) s = .next (s.issueFault t codeViolation 0x25 0))

/-- A LOOP of no iterations continues after its END. Where a LOOP's trip count is 0, from its immediate or its register, no frame opens, IDX
is not written, and execution continues at END + 1: only the program counter and STATE change, beside the count of a corrected error of the
fetch. (R74) -/
def Obligations.ZeroTripLoopIsSkipped : Prop :=
  ∀ (t : Fin 240) (fetch : Ecc) (s : State) (w : Nat), fetch ≠ .uncorrectable → s.Executes t w → wOp w = 0x19 → s.openFrames t < 4 →
    s.pc t < bits w 24 12 → (if bitOf w 23 then bits w 0 16 else s.operand t (bits w 44 8)) = 0 →
    ∃ r, exec (.loop t fetch) s = .next r ∧ r.pc t = (bits w 24 12 + 1) % 4096 ∧ r.seqState t = 1 ∧
      r.openFrames t = s.openFrames t ∧ s.onlyRegs r ([Reg.SEQ_STATUS t] ++ fetchRegs t fetch)

/-- LOOP opens a frame, and ENDL runs the body again or closes it. A LOOP with a trip count from 1 to 2^32 - 1 opens the next frame with the
body from the next word to END, one iteration less than the count left to run, and IDX at 0. ENDL at the END of the innermost frame with
iterations left counts one off, writes the number of the iteration that begins to IDX and goes to START; with none left it closes the frame
and goes on. (R73, Table 04-16) -/
def Obligations.LoopsCountTheirIterations : Prop :=
  (∀ (t : Fin 240) (fetch : Ecc) (s : State) (w : Nat), fetch ≠ .uncorrectable → s.Executes t w → wOp w = 0x19 → s.openFrames t < 4 →
    s.pc t < bits w 24 12 →
    let trip := if bitOf w 23 then bits w 0 16 else s.operand t (bits w 44 8)
    let n := s.openFrames t
    0 < trip → trip < 2 ^ 32 → ∃ r, exec (.loop t fetch) s = .next r ∧ r.pc t = (s.pc t + 1) % 4096 ∧ r.seqState t = 1 ∧
      r.flag (Reg.SEQ_LOOP_CTL.VALID t n) = true ∧ r.fld (Reg.SEQ_LOOP_CTL.START t n) = (s.pc t + 1) % 4096 ∧
      r.fld (Reg.SEQ_LOOP_CTL.END t n) = bits w 24 12 ∧ r.fld (Reg.SEQ_LOOP_REMAIN.COUNT t n) = trip - 1 ∧
      r.fld (Reg.SEQ_LOOP_TOTAL.COUNT t n) = trip ∧ r.fld (Reg.SEQ_LOOP_IDX.IDX t n) = bits w 36 8 ∧
      r.operand t (bits w 36 8) = readsBack (bits w 36 8) 0 ∧
      s.onlyRegs r (destRegs t (bits w 36 8) ++ [Reg.SEQ_LOOP_REMAIN t n, Reg.SEQ_LOOP_TOTAL t n, Reg.SEQ_LOOP_CTL t n,
        Reg.SEQ_LOOP_IDX t n, Reg.SEQ_STATUS t] ++ fetchRegs t fetch)) ∧
  (∀ (t : Fin 240) (fetch : Ecc) (s : State) (w n : Nat), fetch ≠ .uncorrectable → s.Executes t w → wOp w = 0x1A →
    s.openFrames t = n + 1 → s.fld (Reg.SEQ_LOOP_CTL.END t n) = s.pc t →
    ∃ r, exec (.endl t fetch) s = .next r ∧ r.seqState t = 1 ∧
      (if s.fld (Reg.SEQ_LOOP_REMAIN.COUNT t n) = 0 then
        r.pc t = (s.pc t + 1) % 4096 ∧ r.flag (Reg.SEQ_LOOP_CTL.VALID t n) = false ∧
          s.onlyRegs r ([Reg.SEQ_LOOP_CTL t n, Reg.SEQ_STATUS t] ++ fetchRegs t fetch)
      else
        r.pc t = s.fld (Reg.SEQ_LOOP_CTL.START t n) ∧
          r.fld (Reg.SEQ_LOOP_REMAIN.COUNT t n) = s.fld (Reg.SEQ_LOOP_REMAIN.COUNT t n) - 1 ∧
          r.operand t (s.fld (Reg.SEQ_LOOP_IDX.IDX t n)) = readsBack (s.fld (Reg.SEQ_LOOP_IDX.IDX t n))
            (s.fld (Reg.SEQ_LOOP_TOTAL.COUNT t n) - s.fld (Reg.SEQ_LOOP_REMAIN.COUNT t n)) ∧
          s.onlyRegs r (destRegs t (s.fld (Reg.SEQ_LOOP_IDX.IDX t n)) ++
            [Reg.SEQ_LOOP_REMAIN t n, Reg.SEQ_STATUS t] ++ fetchRegs t fetch)))

/-- SHAPE checks and rounds a shape value; FENCE and HALT wait for the engines; NOP goes on. SHAPE of a value within its limit writes the
value rounded up and whether it is 0, and one of a larger value raises SHAPE_LIMIT with the value in its record. FENCE goes on once the
engines of its mask are idle and, where it asks for that, its local queues are empty, and HALT then stops the sequencer; NOP goes on at
once. (R61, R80, R81, R84, R92) -/
def Obligations.ShapeFenceHaltAndNop : Prop :=
  (∀ (t : Fin 240) (fetch : Ecc) (s : State) (w : Nat), fetch ≠ .uncorrectable → s.Executes t w → wOp w = 0x28 →
    let v := s.operand t (bits w 36 8) % 2 ^ 32
    (v ≤ bits w 0 24 → ∃ r, exec (.shape t fetch) s = .next r ∧ r.pc t = (s.pc t + 1) % 4096 ∧ r.seqState t = 1 ∧
      r.operand t (predSpec (bits w 33 3)) = readsBack (predSpec (bits w 33 3)) (ofBool (v = 0)) ∧
      (bits w 44 8 ≠ predSpec (bits w 33 3) → r.operand t (bits w 44 8) = readsBack (bits w 44 8) (roundShape v (bits w 30 3))) ∧
      s.onlyRegs r (destRegs t (bits w 44 8) ++ destRegs t (predSpec (bits w 33 3)) ++ [Reg.SEQ_STATUS t] ++ fetchRegs t fetch)) ∧
    (bits w 0 24 < v → fetch = .clean → exec (.shape t fetch) s = .next (s.issueFault t codeShapeLimit 0x30 v))) ∧
  (∀ (t : Fin 240) (fetch : Ecc) (s : State) (w : Nat), fetch ≠ .uncorrectable → s.Executes t w → wOp w = 0x30 →
    s.enginesIdle t (if bits w 0 4 = 0 then 15 else bits w 0 4) = true →
    (bitOf w 4 = true → ∀ q < 32, s.localIn t q = true → (s.queue t q).held = []) →
    ∃ r, exec (.fence t fetch) s = .next r ∧ r.pc t = (s.pc t + 1) % 4096 ∧ r.seqState t = 1 ∧
      s.onlyRegs r ([Reg.SEQ_STATUS t] ++ fetchRegs t fetch)) ∧
  (∀ (t : Fin 240) (fetch : Ecc) (s : State) (w : Nat), fetch ≠ .uncorrectable → s.Executes t w → wOp w = 0x3F →
    s.enginesIdle t 15 = true → ∃ r, exec (.halt t fetch) s = .next r ∧ r.pc t = s.pc t ∧ r.seqState t = 4 ∧
      s.onlyRegs r ([Reg.SEQ_STATUS t] ++ fetchRegs t fetch)) ∧
  (∀ (t : Fin 240) (fetch : Ecc) (s : State) (w : Nat), fetch ≠ .uncorrectable → s.Executes t w → wOp w = 0x00 →
    ∃ r, exec (.nop t fetch) s = .next r ∧ r.pc t = (s.pc t + 1) % 4096 ∧ r.seqState t = 1 ∧
      s.onlyRegs r ([Reg.SEQ_STATUS t] ++ fetchRegs t fetch))

/-- LOAD queues a load of an idle Shadow set, and ARM arms a loaded one. In a live module a firmware write of CFG_Pp_CTRL takes DRAIN_LIMIT.
LOAD is taken where a job is resident and Shadow is EMPTY or LOADED, which then is LOADING with one load more asked for, and is refused
otherwise; an ARM in the same write is refused. ARM alone is taken where R293 allows it: Shadow is ARMED, every ingress channel awaits its
marker and the drain count is 0; it is refused otherwise. (R287, R292, R293, R382, Table 12-5, Table 12-10) -/
def Obligations.LoadAndArmRequests : Prop :=
  (∀ (p : Fin 12) (v : Word) (s : State), s.live = true → bitOf v.toNat 31 = true → ∃ r, exec (.load .firmware p v) s = .next r ∧
    r.fld (Reg.CFG_P_CTRL.DRAIN_LIMIT p) = v.toNat % 2 ^ (Reg.CFG_P_CTRL.DRAIN_LIMIT p).width ∧
    (if s.hasJob p = true ∧ (s.shadowSet p = 0 ∨ s.shadowSet p = 2) then
      r.shadowSet p = 1 ∧ r = { s with regs := r.regs, loads := s.loads ++ [⟨p, false⟩] }
    else r.flag (Reg.CFG_P_STATUS.LOAD_REFUSED p) = true ∧ r.shadowSet p = s.shadowSet p ∧ r = { s with regs := r.regs }) ∧
    (bitOf v.toNat 30 = true → r.flag (Reg.CFG_P_STATUS.ARM_REFUSED p) = true) ∧
    s.keepsRegs r [Reg.CFG_P_CTRL p, Reg.CFG_P_STATUS p]) ∧
  (∀ (p : Fin 12) (v : Word) (s : State), s.live = true → bitOf v.toNat 30 = true → bitOf v.toNat 31 = false →
    ∃ r, exec (.arm .firmware p v) s = .next r ∧
      r.fld (Reg.CFG_P_CTRL.DRAIN_LIMIT p) = v.toNat % 2 ^ (Reg.CFG_P_CTRL.DRAIN_LIMIT p).width ∧
      (if s.mayArm p = true then
        r.shadowSet p = 3 ∧ r = { s with regs := r.regs, parts := r.parts } ∧
          r.part p = { s.part p with marks := List.range (s.part p).ingActive.length, drain := 0, armedRan := false, reportTick := none }
      else r.flag (Reg.CFG_P_STATUS.ARM_REFUSED p) = true ∧ r.shadowSet p = s.shadowSet p ∧ r = { s with regs := r.regs }) ∧
      s.keepsRegs r [Reg.CFG_P_CTRL p, Reg.CFG_P_STATUS p])

/-- A load that succeeds leaves Shadow LOADED and measured; one that cannot be read leaves it EMPTY. The first load asked for ends, where no
line of its image is being filled. For a Shadow set that is LOADING, an image that is read and passes every check leaves the set LOADED with
its digest in CFG_Pp_SMEAS, its ingress channels and LOAD_ERR 0; a load that ends with an error of memory leaves it EMPTY with LOAD_ERR 7,
and the contents of the set open. (R287, R288, R289, Table 12-4, Table 12-13) -/
def Obligations.LoadsEndMeasuredOrUndefined : Prop :=
  ∀ (p : Nat) (rest : List LoadJob) (s : State), p < 12 → s.gridLive = true → s.loads = ⟨p, false⟩ :: rest → s.shadowSet p = 1 →
    s.imageFilling (s.reg64 (Reg.CFG_P_SIMG_LO p)) = false →
    (∀ u ing d, ({ s with loads := rest } : State).loadImage p (s.reg64 (Reg.CFG_P_SIMG_LO p)) false = .ok (u, ing, d) →
      ∃ r, exec (.loadComplete .ok) s = .next r ∧ r.loads = rest ∧ r.shadowSet p = 2 ∧ r.fld (Reg.CFG_P_STATUS.LOAD_ERR p) = 0 ∧
        (∀ j : Fin 8, r.reg (Reg.CFG_P_SMEAS p j) = digestWord d j) ∧ (r.part p).ingShadow = ing ∧ r.mem = u.mem) ∧
    (∀ res : EndKind, res ≠ .ok → ∃ r, exec (.loadComplete res) s = .next r ∧ r.loads = rest ∧ r.shadowSet p = 0 ∧
      r.fld (Reg.CFG_P_STATUS.LOAD_ERR p) = 7)

/-- A configuration swap exchanges the Active and Shadow sets of every tile of the partition. At a boundary in its place of R35, a swap that
R294 allows exchanges the routes and the queue descriptors of every tile of the partition, makes the other half of instruction memory
Active, puts each sequencer at address 0 in RUN, exchanges the image addresses and the measurements, stamps the swap, counts it, and leaves
Shadow LOADED where a set was Active before and EMPTY otherwise. Memory stays. (R35, R49, R83, R121, R294, Table 12-12) -/
def Obligations.SwapExchangesTheSets : Prop :=
  ∀ (p : Fin 12) (s : State), s.place 3 = true → s.maySwap p = true → ∃ r, exec (.configurationSwap p) s = .next r ∧ r.boundary = 3 ∧
    (∀ t ∈ s.tilesOf p, (∀ q : Fin 32, r.reg (Reg.GRD_RT_A t q) = s.reg (Reg.GRD_RT_S t q) ∧
        r.reg (Reg.GRD_RT_S t q) = s.reg (Reg.GRD_RT_A t q) ∧ r.reg (Reg.GRD_QD_A t q) = s.reg (Reg.GRD_QD_S t q) ∧
        r.reg (Reg.GRD_QD_S t q) = s.reg (Reg.GRD_QD_A t q)) ∧
      r.fld (Reg.SEQ_IMEM.ACTIVE t) = 1 - s.fld (Reg.SEQ_IMEM.ACTIVE t) ∧ r.pc t = 0 ∧ r.seqState t = 1) ∧
    (∀ j : Fin 8, r.reg (Reg.CFG_P_AMEAS p j) = s.reg (Reg.CFG_P_SMEAS p j) ∧ r.reg (Reg.CFG_P_SMEAS p j) = s.reg (Reg.CFG_P_AMEAS p j)) ∧
    r.reg64 (Reg.CFG_P_AIMG_LO p) = s.reg64 (Reg.CFG_P_SIMG_LO p) ∧ r.reg64 (Reg.CFG_P_SIMG_LO p) = s.reg64 (Reg.CFG_P_AIMG_LO p) ∧
    r.shadowSet p = (if s.activeValid p then 2 else 0) ∧ r.activeValid p = true ∧ r.reg64 (Reg.CFG_P_SWAP_TICK_LO p) = s.tick ∧
    r.reg (Reg.CFG_P_SWAPS p) = s.reg (Reg.CFG_P_SWAPS p) + 1 ∧ r.mem = s.mem ∧ r.faultLog = s.faultLog

/-- Ingress flits enter channel by channel, and a drain that outlasts its limit is a deadlock. In a live module a post of a kind that is not
reserved, with room in the buffer of 64, adds a flit of the 128 bytes in CFG_Pp_ING_D behind those that wait, marked late where Shadow is
ARMED; any other sets ING_OVF and posts nothing. A delivery sends the oldest flit of the channel that is not late into its queue's link and
takes one of the attachment's credits; a flit held over a swap goes only where it is the oldest held; where no such flit waits the channel's
Quench marker, if it is due, goes instead. A fenced port, a lack of credit or a partition that does not run leaves everything as it is.
Where an ARMED partition that runs has counted DRAIN_LIMIT Strikes, 0 being none, a tile that has not reported is named in one DEADLOCK
record and the partition freezes. Before that, or with every tile reporting, nothing changes. (R43, R47, R57, R290, R293, R295, Table 03-3,
Table 12-11) -/
def Obligations.IngressAndDrainTimeout : Prop :=
  ((∀ (p : Fin 12) (v : Word) (s : State), s.live = true → ∃ r, exec (.ingPost .firmware p v) s = .next r ∧
    (if bits v.toNat 4 2 = 3 ∨ 64 ≤ (s.part p).ingress.length then
      r.flag (Reg.CFG_P_STATUS.ING_OVF p) = true ∧ s.onlyRegs r [Reg.CFG_P_STATUS p]
    else
      r = { s with parts := r.parts } ∧ (∀ q, q ≠ p.val → r.part q = s.part q) ∧ ∃ f : IngFlit, f.ch = bits v.toNat 0 3 ∧
        f.late = decide (s.shadowSet p = 3) ∧ f.held = false ∧ f.flit.kind = [.data, .dataEnd, .empty].getD (bits v.toNat 4 2) .data ∧
        payloadBytes f.flit.payload = (List.range 32).flatMap (fun j => natLE 4 (s.reg (Reg.CFG_P_ING_D p j)).toNat) ∧
        r.part p = { s.part p with ingress := (s.part p).ingress ++ [f] })) ∧
  (∀ (p : Fin 12) (ch : Fin 8) (s : State) (t q : Nat) (f : IngFlit), (s.part p).ingActive[ch.val]? = some (t, q) → s.running p = true →
    0 < (s.queue t q).attach → s.fenced t 0 = false → (s.part p).ingress.find? (fun f => f.ch == ch.val && !f.late) = some f →
    (f.held = true → (s.part p).ingress.find? (·.held) = some f) →
    ∃ r, exec (.ingressDelivery p ch) s = .next r ∧ r.flights = s.flights ++ [⟨t, 0, q, f.flit, .attachment⟩] ∧
      r.queue t q = { s.queue t q with attach := (s.queue t q).attach - 1 } ∧
      r.part p = { s.part p with ingress := (s.part p).ingress.erase f } ∧
      r = { s with flights := r.flights, tiles := r.tiles, parts := r.parts }) ∧
  (∀ (p : Fin 12) (ch : Fin 8) (s : State) (t q : Nat), (s.part p).ingActive[ch.val]? = some (t, q) → s.running p = true →
    0 < (s.queue t q).attach → s.fenced t 0 = false → (s.part p).ingress.find? (fun f => f.ch == ch.val && !f.late) = none →
    ch.val ∈ (s.part p).marks →
    ∃ r, exec (.ingressDelivery p ch) s = .next r ∧ r.flights = s.flights ++ [⟨t, 0, q, ⟨.quench, 0⟩, .attachment⟩] ∧
      r.queue t q = { s.queue t q with attach := (s.queue t q).attach - 1 } ∧
      r.part p = { s.part p with marks := (s.part p).marks.erase ch.val } ∧
      r = { s with flights := r.flights, tiles := r.tiles, parts := r.parts }) ∧
  (∀ (p : Fin 12) (ch : Fin 8) (s : State) (t q : Nat), (s.part p).ingActive[ch.val]? = some (t, q) →
    (s.fenced t 0 = true ∨ (s.queue t q).attach = 0 ∨ s.running p = false) → exec (.ingressDelivery p ch) s = .next s)) ∧
  (∀ (p : Fin 12) (s : State), s.running p = true → s.shadowSet p = 3 → (∀ t ∈ s.tilesOf p, s.partOf t = some p.val) →
    (∀ t, s.fld (Reg.CFG_P_CTRL.DRAIN_LIMIT p) ≠ 0 → s.fld (Reg.CFG_P_CTRL.DRAIN_LIMIT p) ≤ (s.part p).drain →
      (s.tilesOf p).find? (fun t => !s.reports t) = some t →
      ∃ r, exec (.drainTimeout p) s = .next r ∧ r.flag (Reg.PRT_P_STAT.FROZEN p) = true ∧
        (∃ d, r.faultLog = s.faultLog ++ [d] ∧ d.source = t ∧ d.code = codeDeadlock ∧ d.part = p.val) ∧ r.mem = s.mem ∧
        s.keepsRegs r [Reg.PRT_P_STAT p]) ∧
    (s.fld (Reg.CFG_P_CTRL.DRAIN_LIMIT p) = 0 ∨ (s.part p).drain < s.fld (Reg.CFG_P_CTRL.DRAIN_LIMIT p) ∨
      (∀ t ∈ s.tilesOf p, s.reports t = true) → exec (.drainTimeout p) s = .next s))

/-- CAPTURE and RELEASE count the captures of a slot, or change nothing but the status. In a live module, with the engine not BUSY: CAPTURE
of a list of one entry in a tier that is up, which names a VALID set of the partition, counts one capture of its current slot and, where no
job is attached (no witness selection is written beside it), writes SLOT, GEN and BASE into the entry. RELEASE of one such entry that
matches counts one off and sets FREED where that was the last of a slot that is not current. While BUSY (KIND 5), with no entry or more than
64 (KIND 6), or where nothing can read the list (KIND 4), ERR sets and nothing changes but CFG_ADMIT_CTRL and CFG_ADMIT_STAT. A list in
another slot that can be reached makes the engine BUSY and asks for one read of it. (R179, R298, R299, R300, Table 12-7, Table 12-14) -/
def Obligations.CapturesCountTheirSlots : Prop :=
  (∀ (v : Word) (s : State), s.live = true → s.flag Reg.CFG_ADMIT_STAT.BUSY = false → bitOf v.toNat 31 = true →
    bitOf v.toNat 28 = false → bits v.toNat 0 7 = 1 →
    let part := bits v.toNat 24 4
    let pa := s.fld Reg.CFG_ADMIT_LIST_LO.ADDR * 2 ^ 4 + s.fld Reg.CFG_ADMIT_LIST_HI.ADDR * 2 ^ 32
    let w := s.num (pa % 2 ^ 54) 2
    let k := s.wsCur w
    s.listHere pa 16 = true → s.wsOf w part = true → s.wsCapt w k < 2 ^ 32 - 1 →
    ∃ r, exec (.capture .firmware v) s = .next r ∧ r.wsCapt w k = s.wsCapt w k + 1 ∧
      (s.hasJob part = false → r.num (pa % 2 ^ 54 + 2) 1 = k ∧
        r.num (pa % 2 ^ 54 + 4) 4 = s.wsGen w k ∧ r.num (pa % 2 ^ 54 + 8) 8 = s.wsBase w k ∧ s.keepsMem r (pa % 2 ^ 54) 16 ∧
        s.keepsRegs r ([Reg.CFG_ADMIT_CTRL, Reg.CFG_WS_CAPT w k] ++ hearthRegs) ∧
        r = { s with regs := r.regs, mem := r.mem, hearth := r.hearth })) ∧
  (∀ (v : Word) (s : State), s.live = true → s.flag Reg.CFG_ADMIT_STAT.BUSY = false → bitOf v.toNat 31 = true →
    bitOf v.toNat 28 = true → bits v.toNat 0 7 = 1 →
    let part := bits v.toNat 24 4
    let pa := s.fld Reg.CFG_ADMIT_LIST_LO.ADDR * 2 ^ 4 + s.fld Reg.CFG_ADMIT_LIST_HI.ADDR * 2 ^ 32
    let a := pa % 2 ^ 54
    let w := s.num a 2
    let k := s.num (a + 2) 1
    s.listHere pa 16 = true → s.wsOf w part = true → k < 2 → 0 < s.wsCapt w k → s.wsGen w k = s.num (a + 4) 4 →
    ∃ r, exec (.release .firmware v) s = .next r ∧ r.wsCapt w k = s.wsCapt w k - 1 ∧
      (s.wsCapt w k = 1 → k ≠ s.wsCur w → r.flag (if k = 0 then Reg.CFG_WS_W0.FREED0 w else Reg.CFG_WS_W0.FREED1 w) = true) ∧
      s.keepsRegs r ([Reg.CFG_ADMIT_CTRL, Reg.CFG_WS_CAPT w k, Reg.CFG_WS_W0 w] ++ hearthRegs) ∧
      r = { s with regs := r.regs, hearth := r.hearth }) ∧
  (∀ (c : Word → Instr) (op : Nat) (v : Word) (s : State), (c, op) ∈ [(Instr.capture .firmware, 0), (Instr.release .firmware, 1)] →
    s.live = true → bitOf v.toNat 31 = true → bits v.toNat 28 1 = op →
    let n := bits v.toNat 0 7
    let pa := s.fld Reg.CFG_ADMIT_LIST_LO.ADDR * 2 ^ 4 + s.fld Reg.CFG_ADMIT_LIST_HI.ADDR * 2 ^ 32
    ((s.flag Reg.CFG_ADMIT_STAT.BUSY = true ∨ n = 0 ∨ 64 < n ∨ s.listNowhere pa (16 * n) = true) →
      ∃ r, exec (c v) s = .next r ∧ r.flag Reg.CFG_ADMIT_STAT.ERR = true ∧
        r.fld Reg.CFG_ADMIT_STAT.KIND = (if s.flag Reg.CFG_ADMIT_STAT.BUSY = true then 5 else if n = 0 ∨ 64 < n then 6 else 4) ∧
        s.onlyRegs r [Reg.CFG_ADMIT_CTRL, Reg.CFG_ADMIT_STAT]) ∧
    (∀ slot off slot' off', s.flag Reg.CFG_ADMIT_STAT.BUSY = false → 0 < n → n ≤ 64 → s.homeOf pa = .remote slot off →
      s.homeOf (pa + 16 * n - 1) = .remote slot' off' → s.slotReachable slot = true →
      ∃ r o, exec (c v) s = .next r ∧ r.flag Reg.CFG_ADMIT_STAT.BUSY = true ∧ r.outstanding = s.outstanding ++ [o] ∧
        o.port = 16 ∧ o.slot = slot ∧ o.addr = pa ∧ o.op = .read (16 * n) ∧ r.mem = s.mem))

/-- SWITCH makes the other slot current, and FILL walks the slot's pages. In a live module SWITCH of a VALID set whose other slot has a
length makes that slot current with the next generation (1 at its first switch since VALID was set) and sets FREED of the slot left where
nothing captures it. FILL of a VALID set while no fill is under way sets FILL_BUSY and asks for a walk of each page of the slot, and its end
clears FILL_BUSY, with FILL_ERR where a page failed. What cannot be done is REFUSED. (R299, R300, R301, Table 12-15) -/
def Obligations.WeightSetsSwitchAndFill : Prop :=
  (∀ (v : Word) (s : State), s.live = true → bitOf v.toNat 31 = true → bitOf v.toNat 28 = false →
    let w := bits v.toNat 0 9
    let old := s.wsCur w
    let new := 1 - old
    ∃ r, exec (.switch .firmware v) s = .next r ∧
      (if s.flag (Reg.CFG_WS_W0.VALID w) = false ∨ s.fld (Reg.CFG_WS_LEN.LEN w new) = 0 then
        r.flag Reg.CFG_WS_STAT.REFUSED = true ∧ s.onlyRegs r [Reg.CFG_WS_CMD, Reg.CFG_WS_STAT]
      else
        r.wsCur w = new ∧ r.reg (Reg.CFG_WS_GEN w new) =
          (if Sparse.get (fun _ => false) s.switched w then s.reg (Reg.CFG_WS_GEN w old) + 1 else 1) ∧
        (s.wsCapt w old = 0 → r.flag (if old = 0 then Reg.CFG_WS_W0.FREED0 w else Reg.CFG_WS_W0.FREED1 w) = true) ∧
        r = { s with regs := r.regs, switched := r.switched } ∧
        s.keepsRegs r [Reg.CFG_WS_CMD, Reg.CFG_WS_W0 w, Reg.CFG_WS_GEN w new])) ∧
  (∀ (v : Word) (s : State), s.live = true → bitOf v.toNat 31 = true → bitOf v.toNat 28 = true →
    let w := bits v.toNat 0 9
    let k := bits v.toNat 24 1
    ∃ r, exec (.fill .firmware v) s = .next r ∧
      (if s.flag (Reg.CFG_WS_W0.VALID w) = false ∨ s.flag Reg.CFG_WS_STAT.FILL_BUSY = true then
        r.flag Reg.CFG_WS_STAT.REFUSED = true ∧ s.onlyRegs r [Reg.CFG_WS_CMD, Reg.CFG_WS_STAT]
      else
        r.flag Reg.CFG_WS_STAT.FILL_BUSY = true ∧ r.fillJob = some ⟨w, k, false⟩ ∧
        (∃ new, r.walks = s.walks ++ new ∧ new.map (·.va) =
          (List.range (s.fld (Reg.CFG_WS_LEN.LEN w k))).map (fun i => s.wsBase w k + 65536 * i)) ∧
        r = { s with regs := r.regs, walks := r.walks, fillJob := r.fillJob } ∧ s.keepsRegs r [Reg.CFG_WS_CMD, Reg.CFG_WS_STAT])) ∧
  (∀ (s : State) (j : FillJob), s.fillJob = some j → s.walks.any (fun x => x.who == .fill) = false →
    s.fetches.any (fun f => f.waiters.any (fun x => x.who == .fill)) = false → ∃ r, exec .fillComplete s = .next r ∧
      r.flag Reg.CFG_WS_STAT.FILL_BUSY = false ∧ (j.failed = true → r.flag Reg.CFG_WS_STAT.FILL_ERR = true) ∧
      r = { s with regs := r.regs, fillJob := none } ∧ s.keepsRegs r [Reg.CFG_WS_STAT])

/-- A long instruction is issued to its engine with the values that it reads. For RECV, SEND and the instructions of the Anvil, Temper and
Billet tiles: where the sequencer executes the word and a check of issue fails, the fault of that check is raised; where the instruction has
nothing to do it ends at once (MARCH of no bank then writes 0 to its DST); otherwise its engine becomes busy with the word, its address and
the values of its operands, with 0 units completed; MMA takes ANV_CTRL with it. In both last cases the program counter moves on by one,
STATE is RUN, and no byte of memory changes. (R61, R62, R66, R72, R88, R91, R92, R168, Table 04-4, Table 05-5, Table 06-7, Table 07-3) -/
def Obligations.LongInstructionsStartOnTheirEngine : Prop :=
  ∀ f ∈ longForms, ∀ (t : Fin 240) (fetch : Ecc) (s : State) (w : Nat), fetch ≠ .uncorrectable → s.Executes t w → wOp w = f.op →
    (∀ x, f.fault s t w = some x → fetch = .clean → exec (f.make t fetch) s = .next (s.issueFault t x.1 x.2.1 x.2.2)) ∧
    (f.fault s t w = none → f.empty s t w = true → ∃ r, exec (f.make t fetch) s = .next r ∧ r.pc t = (s.pc t + 1) % 4096 ∧
      r.seqState t = 1 ∧ (∀ n ∈ f.zeroes w, r.operand t n = readsBack n 0) ∧
      s.onlyRegs r ((f.zeroes w).flatMap (destRegs t) ++ [Reg.SEQ_STATUS t] ++ fetchRegs t fetch)) ∧
    (f.fault s t w = none → f.empty s t w = false → ∃ r, exec (f.make t fetch) s = .next r ∧ r.pc t = (s.pc t + 1) % 4096 ∧
      r.seqState t = 1 ∧ r.engineBusy t f.engine = true ∧ (∀ e : Fin 4, e ≠ f.engine → r.engineBusy t e = s.engineBusy t e) ∧
      r.heldWord t f.engine = w ∧ r.prog t f.engine = 0 ∧
      r = { s with
        regs := r.regs
        tiles := ((f.takes s t).setEngine t f.engine ⟨s.pc t, (f.ops s t w).map (BitVec.ofNat 64), BitVec.ofNat 64 w, s.readRegs t w⟩).tiles } ∧
      s.keepsRegs r ([Reg.SEQ_INST t f.engine 0, Reg.SEQ_INST t f.engine 0 + 4, Reg.SEQ_PROG t f.engine, Reg.SEQ_STATUS t] ++
        fetchRegs t fetch))

/-- PEEK reads the head of its queue or waits for one, and QUENCH serves the queues of its tile. PEEK of a queue with Local among its
outputs writes the low 64 bits of the head flit, as its read delivers them, to DST and its KIND and the number of flits held to DST2, and
takes no flit; where there is no head flit it waits on E0. QUENCH waits in the sequencer until every engine is idle; then it holds E0 and E1
with STATE WAIT until the markers of its queues are served, and where there is no queue to serve STATE is QUENCHED at once; which of the two
the program counter steps past is the model's choice (log 48). (R58, R61, R78, R82, R231, Table 03-1) -/
def Obligations.PeekLooksAndQuenchWaits : Prop :=
  (∀ (t : Fin 240) (fetch : PeekFetch) (s : State) (w : Nat), fetch.word ≠ .uncorrectable → s.Executes t w → wOp w = 0x22 →
    s.localOut t (bits w 31 5) = true →
    (∀ h, s.headFor t (bits w 31 5) 4 = some h → ∃ r, exec (.peek t fetch) s = .next r ∧ r.pc t = (s.pc t + 1) % 4096 ∧ r.seqState t = 1 ∧
      r.operand t (bits w 36 8) = readsBack (bits w 36 8) (kindCode h.kind + (s.queue t (bits w 31 5)).occ * 2 ^ 16) ∧
      (bits w 44 8 ≠ bits w 36 8 →
        r.operand t (bits w 44 8) = readsBack (bits w 44 8) ((delivered (s.payloadOf t h) fetch.flit).toNat % 2 ^ 64)) ∧
      r = { s with regs := r.regs, parts := r.parts } ∧ (fetch.flit.bad = 0 → r.parts = s.parts) ∧
      s.keepsRegs r (destRegs t (bits w 44 8) ++ destRegs t (bits w 36 8) ++ [Reg.SEQ_STATUS t] ++ fetchRegs t fetch.word ++
        (if fetch.flit.corrected = 0 ∧ fetch.flit.bad = 0 then [] else [Reg.GRD_ECC_CNT t, Reg.GRD_STATUS t]))) ∧
    (s.headFor t (bits w 31 5) 4 = none → ∃ r, exec (.peek t fetch) s = .next r ∧ r.pc t = (s.pc t + 1) % 4096 ∧ r.seqState t = 1 ∧
      r.engineBusy t 0 = true ∧ r.heldWord t 0 = w ∧
      s.keepsRegs r ([Reg.SEQ_INST t 0 0, Reg.SEQ_INST t 0 0 + 4, Reg.SEQ_PROG t 0, Reg.SEQ_STATUS t] ++ fetchRegs t fetch.word) ∧
      r = { s with regs := r.regs, tiles := (s.setEngine t 0 ⟨s.pc t, [], BitVec.ofNat 64 w, s.readRegs t w⟩).tiles })) ∧
  (∀ (t : Fin 240) (fetch : Ecc) (s : State) (w : Nat), fetch ≠ .uncorrectable → s.Executes t w → wOp w = 0x31 →
    let held : Engine := ⟨s.pc t, [], BitVec.ofNat 64 w, s.readRegs t w⟩
    ∃ r, exec (.quench t fetch) s = .next r ∧
      (if s.enginesIdle t 7 = false ∨ s.engineBusy t 3 = true then
        r.seqState t = 2 ∧ r.pc t = s.pc t ∧ s.onlyRegs r ([Reg.SEQ_STATUS t] ++ fetchRegs t fetch)
      else if s.moversQuiet t = true ∧ s.quenchOver t = true then
        r.seqState t = 3 ∧ r.pc t = s.pc t ∧ s.onlyRegs r ([Reg.SEQ_STATUS t] ++ fetchRegs t fetch)
      else
        r.seqState t = 2 ∧ r.quenching t = true ∧ r.engineBusy t 1 = true ∧ r.heldWord t 1 = w ∧
        r = { s with regs := r.regs, tiles := ((s.setEngine t 1 held).setEngine t 0 held).tiles } ∧
        s.keepsRegs r ([Reg.SEQ_INST t 0 0, Reg.SEQ_INST t 0 0 + 4, Reg.SEQ_PROG t 0, Reg.SEQ_INST t 1 0, Reg.SEQ_INST t 1 0 + 4,
          Reg.SEQ_PROG t 1, Reg.SEQ_STATUS t] ++ fetchRegs t fetch)))

/-- One unit of RECV, SEND, RNG and BRD moves one flit, eight counter values or one word. Where no error is found in the store and no other
instruction overlaps: a unit of RECV writes the head flit of its queue, as its read delivers it, to the next unit of its stream and takes
it; at the last unit of the stream or at a DATA_END flit the instruction ends with its count and PE 0. A unit of SEND writes the next unit
of its stream as a flit, DATA_END at the last unit unless the word asks for DATA. A unit of RNG writes eight counter values of its key and
position, and one of BRD reads the 8 bytes at its address. Each leaves every other byte of memory alone. (R58, R63, R76, R77, R88, R138,
R154, R163) -/
def Obligations.EngineUnitsDoOneUnit : Prop :=
  (∀ (t : Fin 240) (env : UnitEnv) (s : State) (w : Nat) (h : Held), s.gridLive = true → s.tileWorks t = true → s.engineBusy t 0 = true →
    s.heldWord t 0 = w → wOp w = 0x20 → env.ecc = .clean → env.overlap = [] →
    let q := bits w 31 5
    let n := bits w 27 4
    let c := s.prog t 0
    let a := s.sAddr t n c
    s.headFor t q 4 = some h → (h.kind = .data ∨ h.kind = .dataEnd) → s.sLen t n ≠ 0 → s.progWaitsWrite t a = false →
    (tileType t = 2 → s.progRefused t a false = false) → ∃ r, exec (.engineUnit t 0 env) s = .next r ∧
      r.lunit t a = delivered (s.payloadOf t h) env.flit ∧ s.keepsMem r (storeAt t a) 128 ∧
      (if h.kind = .dataEnd ∨ c + 1 = s.sLen t n then
        r.engineBusy t 0 = false ∧ r.operand t (predSpec (bits w 24 3)) = readsBack (predSpec (bits w 24 3)) 0 ∧
        (bits w 44 8 ≠ predSpec (bits w 24 3) → r.operand t (bits w 44 8) = readsBack (bits w 44 8) (c + 1))
      else r.engineBusy t 0 = true ∧ r.prog t 0 = (c + 1) % 2 ^ 32) ∧
      s.keepsRegs r (destRegs t (bits w 44 8) ++ destRegs t (predSpec (bits w 24 3)) ++ [Reg.GRD_FLITS t, Reg.SEQ_PROG t 0, Reg.SEQ_STATUS t,
        Reg.BIL_CONFLICT_LO t, Reg.BIL_CONFLICT_LO t + 4] ++ (if env.flit.corrected = 0 ∧ env.flit.bad = 0 then [] else
        [Reg.GRD_ECC_CNT t, Reg.GRD_STATUS t]))) ∧
  (∀ (t : Fin 240) (env : UnitEnv) (s : State) (w : Nat), s.gridLive = true → s.tileWorks t = true → s.engineBusy t 1 = true →
    s.heldWord t 1 = w → wOp w = 0x21 → env.ecc = .clean → env.overlap = [] →
    let q := bits w 31 5
    let n := bits w 27 4
    let c := s.prog t 1
    let a := s.sAddr t n c
    let last := decide (c + 1 = s.sLen t n)
    let x := s.queue t q
    let slot := (s.qBase t q + x.tail) % 2048
    s.noRoom t q = false → s.sLen t n ≠ 0 → s.progWaits t a = false →
    (tileType t = 2 → s.progRefused t a true = false ∧ s.failedBank t (bankOf a) = false) → ∃ r, exec (.engineUnit t 1 env) s = .next r ∧
      r.unit (slotAt t slot) = s.lunit t a ∧ s.keepsMem r (slotAt t slot) 128 ∧
      r.queue t q = { x with
        tail := (x.tail + 1) % max 1 (s.qDepth t q)
        nextSeq := x.nextSeq + 1
        held := x.held ++ [⟨x.nextSeq, slot, if last && !bitOf w 23 then .dataEnd else .data, 0⟩] } ∧
      r.engineBusy t 1 = !last ∧ r.prog t 1 = (c + 1) % 2 ^ 32 ∧ 
      s.keepsRegs r [Reg.SEQ_PROG t 1, Reg.SEQ_STATUS t, Reg.BIL_CONFLICT_LO t, Reg.BIL_CONFLICT_LO t + 4]) ∧
  (∀ (t : Fin 240) (env : UnitEnv) (s : State) (w : Nat), s.gridLive = true → s.tileWorks t = true → tileType t = 1 →
    s.engineBusy t 3 = true → s.heldWord t 3 = w → wOp w = 0x6E → env.ecc = .clean → env.overlap = [] →
    let k := s.prog t 3
    let a := storeAt t (s.sAddr t (rgSo w) k)
    ∃ r, exec (.engineUnit t 3 env) s = .next r ∧
      (∀ i j : Nat, i < 8 → j < 4 → r.num (a + 16 * i + 4 * j) 4 =
        rngWord (s.op t 3 0) (s.op t 3 1 % 2 ^ 48) (bits w 24 8) (8 * k + i) j % 2 ^ 32) ∧
      s.keepsMem r a 128 ∧ r.prog t 3 = (k + 1) % 2 ^ 32 ∧ r.engineBusy t 3 = decide (k + 1 < s.sLen t (rgSo w)) ∧
      r = { s with regs := r.regs, mem := r.mem } ∧
      s.keepsRegs r [Reg.TMP_DRAWS_LO t, Reg.TMP_DRAWS_LO t + 4, Reg.TMP_SBUSY_LO t, Reg.TMP_SBUSY_LO t + 4, Reg.SEQ_PROG t 3, Reg.SEQ_STATUS t]) ∧
  (∀ (t : Fin 240) (env : UnitEnv) (s : State) (w : Nat) (win : Window) (d : Nat), s.gridLive = true → s.tileWorks t = true → tileType t = 2 →
    s.engineBusy t 2 = true → s.heldWord t 2 = w → wOp w = 0x80 → env.ecc = .clean → env.overlap = [] → s.op t 2 0 % 8 = 0 →
    windowOf (s.op t 2 0) = some (win, d) → win ≠ .owner → s.bankLocked t (bankOf d) = false → s.progRefused t d true = false →
    s.failedBank t (bankOf d) = false → ∃ r, exec (.engineUnit t 2 env) s = .next r ∧
      r.operand t (bits w 44 8) = readsBack (bits w 44 8) (s.lnum t d 8) ∧ r.engineBusy t 2 = false ∧
      r = { s with regs := r.regs, parts := r.parts } ∧ (env.waited = 0 → r.parts = s.parts) ∧
      s.keepsRegs r (destRegs t (bits w 44 8) ++
        [Reg.BIL_CONFLICT_LO t, Reg.BIL_CONFLICT_LO t + 4, Reg.SEQ_PROG t 2, Reg.SEQ_STATUS t]))

/-- Firmware hands banks over and starts a march. In a live module firmware's write of BIL_OWNn with an assigned owner code becomes the
bank's ownership, waits behind earlier ones while a march holds the bank, and is refused with OWN_REFUSED for a FAILED bank that firmware
would not get; BIL_OWN_BULK does so for every bank of the mask, where none of them is locked or FAILED. A write of BIL_MARCH_CTRL takes OP
and REPAIR, and START of a non-empty mask starts a march that locks the banks of the mask, or sets REFUSED where E3 is busy, OP is reserved
or firmware does not own every bank. (R157, R158, R169, R171, R174, Table 07-7) -/
def Obligations.BanksAreHandedOverAndMarched : Prop :=
  (∀ (t : Fin 240) (b : Fin 48) (v : Word) (s : State), tileType t = 2 → s.live = true → ∃ r, exec (.handover .firmware t b v) s = .next r ∧
    (if ownerCodeOk (v.toNat % 256) = false then r = s
    else if s.bankLocked t b = true then r.bank t b = { s.bank t b with handover := (s.bank t b).handover ++ [v] } ∧ r = { s with tiles := r.tiles } ∧
      (∀ t' : Nat, t' ≠ t → r.tile t' = s.tile t')
    else if s.failedBank t b = true ∧ v.toNat % 256 ≠ 0 then r.flag (Reg.BIL_STATUS.OWN_REFUSED t) = true ∧ s.onlyRegs r [Reg.BIL_STATUS t]
    else r.reg (Reg.BIL_OWN t b) = v &&& 0x8F0000FF ∧ s.onlyRegs r [Reg.BIL_OWN t b])) ∧
  (∀ (t : Fin 240) (v : Word) (s : State), tileType t = 2 → s.live = true → ownerCodeOk (v.toNat % 256) = true →
    let mask := s.reg64 (Reg.BIL_MARCH_MASK_LO t)
    (∀ b < 48, bitOf mask b = true → s.bankLocked t b = false ∧ s.failedBank t b = false) →
    ∃ r, exec (.bilOwnBulk .firmware t v) s = .next r ∧
      (∀ b < 48, r.reg (Reg.BIL_OWN t b) = if bitOf mask b then v &&& 0x8F0000FF else s.reg (Reg.BIL_OWN t b)) ∧
      s.onlyRegs r ((List.range 48).map (Reg.BIL_OWN t))) ∧
  (∀ (t : Fin 240) (v : Word) (s : State), tileType t = 2 → s.live = true →
    let mask := s.reg64 (Reg.BIL_MARCH_MASK_LO t) % 2 ^ 48
    ∃ r, exec (.bilMarchStart .firmware t v) s = .next r ∧
      r.fld (Reg.BIL_MARCH_CTRL.OP t) = bits v.toNat 1 3 ∧ r.flag (Reg.BIL_MARCH_CTRL.REPAIR t) = bitOf v.toNat 4 ∧
      (if bitOf v.toNat 0 = false ∨ mask = 0 then s.onlyRegs r [Reg.BIL_MARCH_CTRL t]
      else if s.engineBusy t 3 = true ∨ (s.tile t).fwMarch.isSome = true ∨ 5 ≤ bits v.toNat 1 3 ∨
          (maskBanks mask).any (fun b => s.fld (Reg.BIL_OWN.OWNER t b) != 0) = true then
        r.flag (Reg.BIL_MARCH_STAT.REFUSED t) = true ∧ s.onlyRegs r [Reg.BIL_MARCH_CTRL t, Reg.BIL_MARCH_STAT t]
      else
        r.tile t = { s.tile t with
          fwMarch := some ⟨0, mask, s.reg64 (Reg.BIL_MARCH_PAT_LO t), bits v.toNat 1 3, bitOf v.toNat 4⟩ } ∧
        (∀ t' : Nat, t' ≠ t → r.tile t' = s.tile t') ∧ (∀ b < 48, r.bankLocked t b = bitOf mask b) ∧
        r = { s with regs := r.regs, tiles := r.tiles } ∧ s.keepsRegs r [Reg.BIL_MARCH_CTRL t]))

/-- Accesses to Billet banks and to the SRAM window are served, or refused with a record. A mover's read or write, by virtual address, of a
Billet tile of the partition it serves, within one of the first three windows and in a bank that it may access and that no march holds,
returns the bytes or writes, sets or clears them; a read of a bank it may not access fills BIL_VIOL and writes the record of R160 and the
permission fault 0x10 (both: DEDUCED, see the log), which freezes the mover's partition. Firmware's write of instruction memory is written
where no byte falls in the Active half and no switch is armed, and sets WR_IGNORED otherwise; its read of a tile that does not exist returns
zeros and records the hole. (R86, R156, R160, R161, R168, R178, R181, R188) -/
def Obligations.WindowAccessesAreChecked : Prop :=
  (∀ (t : Fin 240) (m : Fin 64) (a n p d : Nat) (win : Window) (s : State), tileType t = 2 → s.live = true → s.moverPart m = some p →
    (s.mover m).job.any (·.phys) = false →
    s.partOf t = some p → 0 < n → windowOf a = some (win, d) → (∃ d', windowOf (a + n - 1) = some (win, d') ∧ bankOf d' = bankOf d) →
    win ≠ .owner → s.bankLocked t (bankOf d) = false →
    (s.bankLegal t (bankOf d) (0x40 + m) (some p) true = true → s.failedBank t (bankOf d) = false →
      exec (.moverPortAccess (.mover m) t a (.read n) .clean) s = .next { s with out := s.out ++ [.readData (natLE n (s.lnum t d n))] }) ∧
    (s.bankLegal t (bankOf d) (0x40 + m) (some p) false = true → ∀ data : List Byte, data.length = n →
      ∃ r, exec (.moverPortAccess (.mover m) t a (.write data) .clean) s = .next r ∧
        r.lnum t d n = (match win with
          | .bitSet => s.lnum t d n ||| leNat data
          | .bitClear => s.lnum t d n &&& (256 ^ n - 1 - leNat data)
          | _ => leNat data) ∧
        s.keepsMem r (storeAt t d) n ∧ r = { s with mem := r.mem }) ∧
    (s.bankLegal t (bankOf d) (0x40 + m) (some p) true = false → s.flag (Reg.PRT_P_STAT.RES_VALID p) = true →
      ∃ r, exec (.moverPortAccess (.mover m) t a (.read n) .clean) s = .next r ∧
        r.reg (Reg.BIL_VIOL t) = BitVec.ofNat 32 (2 ^ 31 + 2 ^ 24 + (0x40 + m) * 2 ^ 16 + s.fld (Reg.BIL_OWN.OWNER t (bankOf d)) * 2 ^ 8 + bankOf d) ∧
        r.flag (Reg.PRT_P_STAT.FROZEN p) = true ∧ r.mem = s.mem ∧
        ∃ x y, r.faultLog = s.faultLog ++ [x, y] ∧ x.source = t.val ∧ x.code = codeViolation ∧ x.part = p ∧
          y.source = (if m.val < 48 then 20 * (m.val / 4) else 0xFFFF) + m.val * 2 ^ 16 ∧ y.code = codeViolation ∧ y.part = p ∧
          y.detail = 0x10010)) ∧
  (∀ (t : Fin 240) (o : Nat) (data : List Byte) (s : State), s.live = true → data ≠ [] → o + data.length ≤ 0x10000 →
    ∃ r, exec (.sramWindowAccess .firmware (t * 0x2000000 + 0x1000000 + o) (.write data) .clean) s = .next r ∧
      (if o / 0x8000 = s.fld (Reg.SEQ_IMEM.ACTIVE t) ∨ (o + data.length - 1) / 0x8000 = s.fld (Reg.SEQ_IMEM.ACTIVE t) ∨
          s.tileArmed t = true then
        r.flag (Reg.SEQ_IMEM.WR_IGNORED t) = true ∧ s.onlyRegs r [Reg.SEQ_IMEM t]
      else r.bytes (imemAt t 0 0 + o) data.length = data ∧ s.keepsMem r (imemAt t 0 0 + o) data.length ∧ r = { s with mem := r.mem })) ∧
  (∀ (off n : Nat) (s : State), s.live = true → 240 * 0x2000000 ≤ off → 0 < n →
    ∃ r, exec (.sramWindowAccess .firmware off (.read n) .clean) s = .next r ∧ r.flag Reg.XLT_STATUS.HOLE = true ∧
      r.reg64 Reg.XLT_HOLE_LO = (s.ownSlot * 2 ^ 54 + 0x200000000000 + off) % 2 ^ 64 ∧
      s.onlyRegsOut r [Reg.XLT_STATUS, Reg.XLT_HOLE_LO, Reg.XLT_HOLE_HI] [.readData (natLE n 0)])

/-- A mover instruction is checked and placed in the queue of its mover. For every MOVE, PREF, PERM, UNPERM, APPEND and BCAST form: a
command that fails a check of Table 09-6 raises VIOLATION 0x40 with the check's number; otherwise it waits on E2 while its mover's queue is
full, follows the commands queued there, or, in an empty queue, is the head. At the head of a queue PREF CANCEL and START take effect at
once and leave it, and PREF STOP bounds its stream in the pass that it is in and leaves the queue where the stream has nothing left to start
or to complete below the bound. START begins a new pass with GCOUNT 0. The program counter moves on by one and STATE is RUN. (R214, R216,
R219, R221, Table 09-4, Table 09-5, Table 09-6) -/
def Obligations.MoverInstructionsQueueTheirCommand : Prop :=
  ∀ f ∈ moveForms, ∀ (t : Fin 240) (fetch : Ecc) (s : State) (w : Nat), fetch ≠ .uncorrectable → s.Executes t w → tileType t = 3 →
    wOp w = f.op → (∀ x, f.xfm = some x → wXfm w = x) →
    let c := s.cmdOf t w
    let m := wMover t w
    let b := m / 4
    let n := c.src % 16
    let isPref := c.op == 0xA2 && c.xfm != 0
    (∀ k, s.cmdCheck t c = some k → fetch = .clean → exec (f.make t fetch) s = .next (s.issueFault t codeViolation 0x40 k)) ∧
    (s.cmdCheck t c = none → ∃ r, exec (f.make t fetch) s = .next r ∧ r.pc t = (s.pc t + 1) % 4096 ∧ r.seqState t = 1 ∧ r.mem = s.mem ∧
      (8 ≤ (s.mover m).queue.length → r.engineBusy t 2 = true ∧ r.heldWord t 2 = w ∧ r.prog t 2 = 0 ∧
        r = { s with
          regs := r.regs
          tiles := (s.setEngine t 2 ⟨s.pc t, [c.src, c.dst, c.cnt, c.aux].map (BitVec.ofNat 64), BitVec.ofNat 64 w, s.readRegs t w⟩).tiles } ∧
        s.keepsRegs r ([Reg.SEQ_INST t 2 0, Reg.SEQ_INST t 2 0 + 4, Reg.SEQ_PROG t 2, Reg.SEQ_STATUS t] ++ fetchRegs t fetch)) ∧
      (0 < (s.mover m).queue.length → (s.mover m).queue.length < 8 →
        r.mover m = { s.mover m with queue := (s.mover m).queue ++ [c] } ∧ (∀ m', m' ≠ m → r.mover m' = s.mover m') ∧
        r = { s with regs := r.regs, movers := r.movers } ∧ s.keepsRegs r ([Reg.SEQ_STATUS t] ++ fetchRegs t fetch)) ∧
      ((s.mover m).queue = [] → isPref = false →
        r.mover m = { s.mover m with queue := [{ c with headAt := s.fcycles }] } ∧ (∀ m', m' ≠ m → r.mover m' = s.mover m') ∧
        r = { s with regs := r.regs, movers := r.movers } ∧ s.keepsRegs r ([Reg.SEQ_STATUS t] ++ fetchRegs t fetch)) ∧
      ((s.mover m).queue = [] → isPref = true →
        (∀ m', m' ≠ m → r.mover m' = s.mover m') ∧ r = { s with regs := r.regs, movers := r.movers, streams := r.streams } ∧
        s.keepsRegs r ([Reg.SEQ_STATUS t, Reg.MOV_M_PROG (20 * b) (m % 4), Reg.MOV_STR_STAT (20 * b) n, Reg.MOV_STR_POS (20 * b) n] ++
          fetchRegs t fetch) ∧
        (c.xfm = 1 → (r.mover m).queue = [] ∧
          r.stream b n = { s.stream b n with cancelled := (s.stream b n).cancelled ++ [(c.aux, c.cnt)] }) ∧
        (c.xfm = 3 → (r.mover m).queue = [] ∧
          r.stream b n = { s.stream b n with
            pass := (s.stream b n).pass + 1, next := c.aux, cancelled := [], stopAt := none, lastRelease := s.fcycles } ∧
          r.fld (Reg.MOV_STR_STAT.GCOUNT (20 * b) n) = 0 ∧
          r.strState b n = (if s.strEntries b n ≤ c.aux ∧ (s.stream b n).redo = [] then (if (s.stream b n).started = [] then 3 else 2)
            else 1)) ∧
        (c.xfm = 2 →
          let redo := (s.stream b n).redo.filter (fun i => i.pass != (s.stream b n).pass || decide (i.entry < c.aux))
          r.stream b n = { s.stream b n with stopAt := some ((s.stream b n).pass, c.aux), redo := redo } ∧
          ((r.mover m).queue = [] ↔ redo = [] ∧ (s.strEntries b n ≤ (s.stream b n).next ∨ c.aux ≤ (s.stream b n).next) ∧
            (s.stream b n).started = []))))

/-- A mover starts, completes and ends the units of its command. A mover that works and has fewer than eight units in flight starts the next
unit of its head command where no stream entry comes first. A unit of an I/O-die mover's physical COPY whose source line the Hearth cache
holds writes the 128 bytes of its source to its destination and nothing else. A command of count 0 ends at its head with an EMPTY flit to
its notice queue, where that has room and accepts it. An idle I/O-die mover whose ring may run takes its ring's next descriptor, and
RING_KICK rereads the four TAILs. (R197, R209, R218, R229, R232, Table 09-10) -/
def Obligations.MoversRunTheirUnits : Prop :=
  (∀ (m : Fin 64) (s : State) (k : Nat), s.moverWorks m = true → (s.mover m).inflight.length < 8 → s.nextUnit m = some k →
    (∀ n, m.val < 48 → s.idlest (m / 4) = m → s.strWinner (m / 4) = some n → s.cmdFirst m (s.strDeadline (m / 4) n) = true) →
    ∃ r, exec (.moverUnitStart m) s = .next r ∧
      r.mover m = { s.mover m with inflight := (s.mover m).inflight ++ [.command k], lens := (r.mover m).lens } ∧
      ((∀ c, (s.mover m).queue.head? = some c → c.op ≠ 0xA8) → (r.mover m).lens = (s.mover m).lens) ∧
      (∀ m', m' ≠ m.val → r.mover m' = s.mover m') ∧ r = { s with movers := r.movers }) ∧
  (∀ (m : Fin 64) (s : State) (k b off b' off' : Nat) (c : Cmd) (rest : List MoverUnit) (j : RingJob), 48 ≤ m.val → s.gridLive = true →
    (s.mover m).job = some j → j.phys = true → (s.mover m).queue = [c] → (s.mover m).inflight = .command k :: rest →
    c.op = 0xA0 → c.xfm = 0 → c.srcq = false → c.dstq = false → c.ntf = false → c.na = false → k + 1 < c.cnt →
    (s.mover m).work.fail = 0 → (s.mover m).work.drop = false → (s.mover m).work.flits = 0 →
    s.unitWaits m = false → c.src % 128 = 0 → c.dst % 128 = 0 →
    s.homeOf ((c.src + 128 * k) % 2 ^ 56) = .hot b off → s.tierUp (unitHot b) = true →
    (s.hearthHas b off = true ∨ 0 < (s.mover m).work.used) →
    s.homeOf ((c.dst + 128 * k) % 2 ^ 56) = .hot b' off' → s.tierUp (unitHot b') = true →
    ∃ r, exec (.moverUnitComplete m .quiet) s = .next r ∧ r.bytes (b' * stackSize + off') 128 = s.bytes (b * stackSize + off) 128 ∧
      s.keepsMem r (b' * stackSize + off') 128 ∧ r.moverProg m = k + 1 ∧ (r.mover m).inflight = rest ∧ (r.mover m).queue = [c] ∧
      s.keepsRegs r hearthRegs) ∧
  (∀ (m : Fin 64) (s : State) (c : Cmd), m.val < 48 → s.moverRuns m = true → (s.mover m).queue = [c] → cmdEmpty c = true →
    c.ntf = true → c.dstq = false → s.refuse (moverTile m) c.nq 4 = none → s.noRoom (moverTile m) c.nq = false →
    ∃ r, exec (.zeroCountCommand m) s = .next r ∧ (r.mover m).queue = [] ∧
      (∃ h, (r.queue (moverTile m) c.nq).held = (s.queue (moverTile m) c.nq).held ++ [h] ∧ h.kind = .empty) ∧
      s.keepsRegs r [Reg.MOV_M_PROG (20 * (m / 4)) (m % 4)]) ∧
  (∀ (k : Fin 16) (s : State), s.gridLive = true → (s.mover (48 + k)).job = none →
    let ring := k.val / 4
    let i := s.ringNext.toList.getD ring 0
    let a := s.ringBase ring + 64 * (i % 2 ^ s.fld (Reg.TIER_IORING_BASE_HI.LOG2N ring))
    let d := s.bytes a 64
    let f := fun o n => leNat ((d.drop o).take n)
    s.ringIdle ring = true → s.fillingIn a 64 = false →
    i ≠ s.ringTail.toList.getD ring 0 → descBad (descCmd d) (bitOf (f 2 1) 1) = false → cmdEmpty (descCmd d) = false →
    ∃ r, exec (.ioringDescriptor k) s = .next r ∧ (r.mover (48 + k)).job = some ⟨ring, i, f 3 1 % 16, bitOf (f 2 1) 1, f 40 8, none⟩ ∧
      (r.mover (48 + k)).queue = [{ descCmd d with headAt := s.fcycles }] ∧ (r.mover (48 + k)).prog = 0 ∧
      r.ringNext.toList.getD ring 0 = (i + 1) % 2 ^ 16 ∧
      r = { s with movers := r.movers, ringNext := r.ringNext, hearth := r.hearth, regs := r.regs } ∧ s.keepsRegs r hearthRegs ∧
      (∀ m', m' ≠ 48 + k.val → r.mover m' = s.mover m')) ∧
  (∀ (v : Word) (s : State), s.live = true → ∃ r, exec (.ringKick .firmware v) s = .next r ∧ r.flag Reg.TIER_CTRL.INT_EN = bitOf v.toNat 1 ∧
    (∀ i < 4, r.ringTail.toList.getD i 0 = if bitOf v.toNat 0 then s.fld (Reg.TIER_IORING_TAIL.INDEX i) else s.ringTail.toList.getD i 0) ∧
    r = { s with regs := r.regs, ringTail := r.ringTail } ∧ s.keepsRegs r [Reg.TIER_CTRL])

/-- A stream starts its next entry into the next slot, and a release frees slots. In a bay of a running partition that Bellows grants
credit, with no skipped entry and no PREF STOP at a front and no abandoned entry to start again, the eligible stream with the earliest
deadline starts its next entry, where the bay's idlest mover has room, no command comes first, and the entry can be read, is well formed and
is not skipped: it takes the slot after those filled. A release flit whose payload as its read delivers it says k slots, 0 < k ≤ FILLED, is
taken and frees the k oldest slots; another count is a RELEASE fault (0x49) that freezes the partition. (R58, R227, R229, R230, R235, Table
09-8) -/
def Obligations.StreamsStartAndRelease : Prop :=
  (∀ (b : Fin 12) (s : State) (p n : Nat) (f : Forming), s.bayPart b = some p → s.running p = true → s.granted p = true →
    (∀ k < 16, ∀ x, (s.stream b k).started.head? = some x → x.kind = .tile) →
    (∀ i < 4, ∀ c, (s.mover (4 * b + i)).queue.head? = some c → c.op = 0xA2 → c.xfm ≠ 2) →
    s.strWinner b = some n → (s.stream b n).redo = [] →
    let m := s.idlest b
    let i := (s.stream b n).next
    let pass := (s.stream b n).pass
    (s.mover m).inflight.length < 8 → s.cmdFirst m (s.strDeadline b n) = false →
    runU (U.startItem b n i) ⟨m, p, false, false, false⟩ .quiet s = .ok (.tile, f) →
    ∃ r, exec (.streamEntryStart b) s = .next r ∧ (r.stream b n).started = (f.s.stream b n).started ++ [⟨pass, i, .tile⟩] ∧
      (r.mover m).inflight =
        (f.s.mover m).inflight ++ [.stream n pass i (((f.s.stream b n).base + f.s.strFilled b n) % f.s.strSlots b n)] ∧
      r.strFilled b n = (f.s.strFilled b n + 1) % 2 ^ (Reg.MOV_STR_STAT.FILLED (20 * b) n).width ∧ r.mem = f.s.mem ∧
      f.s.keepsRegs r [Reg.MOV_STR_STAT (20 * b) n, Reg.MOV_STR_POS (20 * b) n]) ∧
  (∀ (b : Fin 12) (rd : ReleaseRead) (s : State) (p : Nat) (h : Held), s.bayPart b = some p → s.running p = true →
    s.flag (Reg.MOV_STR_A_CFG.VALID (20 * b) rd.stream) = true →
    let t := 20 * b.val
    let n := rd.stream.val
    let q := s.fld (Reg.MOV_STR_A_CFG.RQ t n)
    s.headFor t q 4 = some h → (h.kind = .data ∨ h.kind = .dataEnd) →
    let k := (delivered (s.payloadOf t h) rd.flit).toNat % 2 ^ 16
    ∃ r, exec (.streamRelease b rd) s = .next r ∧ r.mem = s.mem ∧
      (if 0 < k ∧ k ≤ s.strFilled b n then
        r.strFilled b n = s.strFilled b n - k ∧
        r.stream b n = { s.stream b n with base := ((s.stream b n).base + k) % s.strSlots b n, lastRelease := s.fcycles } ∧
        s.keepsRegs r ([Reg.GRD_FLITS t, Reg.MOV_STR_STAT t n] ++
          (if rd.flit.corrected = 0 ∧ rd.flit.bad = 0 then [] else [Reg.GRD_ECC_CNT t, Reg.GRD_STATUS t]))
      else r.flag (Reg.PRT_P_STAT.FROZEN p) = true ∧ ∃ x, r.faultLog = s.faultLog ++ [x] ∧ x.code = codeViolation ∧ x.part = p ∧
        x.detail % 2 ^ 8 = 0x49))

/-- A walk fills the cache, faults or starts a demand fetch, and the end of a fetch makes its page present. The oldest walk that can go on
ends: a present page's translation enters the cache, unless an invalidation covered it meanwhile; a fault of a port-tile mover's access
freezes the mover's partition with a record; an absent page with DEMAND_EN takes the next frame descriptor and starts a fetch, or, with
none, waits with FRAME_WAIT set. The end of a fetch, where the line of its leaf is not being filled, copies the page, makes the leaf
present, marks the descriptor DONE and counts one in XLT_DEMAND, where leaf, frame and descriptor do not overlap, or marks it FAILED where a
tier does not serve. KICK in a live module lets every blocked walk try again. What passes through the Hearth cache is counted there. (R186,
R188, R189, R190, R191, Table 08-7) -/
def Obligations.WalksFillCachesOrFetch : Prop :=
  (∀ (s : State) (w : Walk), s.gridLive = true → s.walks.find? s.canWalk = some w → ∃ r, exec .translationWalk s = .next r ∧
    let e := s.walkTable (s.tableOf w) w.va
    (∀ size leaf, e = .present size leaf →
      let page := w.va / 2 ^ size * 2 ^ size
      let stale := w.stale.any (fun i => i.covers w.part page size)
      (stale = false → r.tlb2 = tlbFill 8192 ⟨w.part, page, size, BitVec.ofNat 64 leaf⟩ s.tlb2) ∧
      (stale = true → r.tlb1 = s.tlb1 ∧ r.tlb2 = s.tlb2) ∧
      r = { s with regs := r.regs, walks := s.walks.erase w, tlb1 := r.tlb1, tlb2 := r.tlb2, hearth := r.hearth } ∧
      s.keepsRegs r (Reg.XLT_STATUS :: hearthRegs)) ∧
    (∀ f m, e = .fault f → w.who = .mover m → m < 48 → s.flag (Reg.PRT_P_STAT.RES_VALID w.part) = true →
      r.walks = s.walks.erase w ∧ r.flag (Reg.PRT_P_STAT.FROZEN w.part) = true ∧
      s.keepsRegs r ([Reg.PRT_P_STAT w.part, Reg.XLT_STATUS] ++ hearthRegs) ∧ r.mem = s.mem ∧
      ∃ x, r.faultLog = s.faultLog ++ [x] ∧ x.code = xlateCode f.kind ∧ x.part = w.part ∧ x.info = w.shown ∧ x.source = moverSource m) ∧
    (∀ size at_ leaf, e = .absent size at_ leaf → s.fetchAt at_ = none → s.fetches.length < 64 → (∀ m, w.who ≠ .abandoned m) →
      let q := s.rcb w.part + 16 * ringOf size
      let d := s.num q 6 % 2 ^ 54 + 16 * (s.num (q + 8) 4 % 2 ^ s.num (q + 6) 2)
      (s.num (q + 8) 4 ≠ s.num (q + 12) 4 →
        r.walks = s.walks.erase w ∧ r.num (d + 8) 8 = (w.va / 2 ^ size * 2 ^ size + w.part * 2 ^ 48) % 2 ^ 64 ∧
        (∃ f, r.fetches = s.fetches ++ [f] ∧ f.leafAt = at_ ∧ f.waiters = [w] ∧ f.part = w.part ∧ f.size = size) ∧
        (∀ x, (x < q + 8 ∨ q + 12 ≤ x) → (x < d + 8 ∨ d + 16 ≤ x) → r.byte x = s.byte x)) ∧
      (s.num (q + 8) 4 = s.num (q + 12) 4 → r.flag Reg.XLT_STATUS.FRAME_WAIT = true ∧
        r.walks = s.walks.map (fun x => if x = w then { x with blocked := true } else x) ∧ r.fetches = s.fetches ∧ r.mem = s.mem))) ∧
  (∀ (i : Nat) (s : State) (f : Fetch), s.Inv → s.fetches[i]? = some f → s.gridLive = true → f.part < 12 →
    s.fillingIn (f.leafAt % 2 ^ 54) 8 = false →
    let home := leafAddr f.leaf.toNat
    let frame := f.frame % 2 ^ 54
    (s.homeUp (s.homeOf home) = true → (∀ x < 8, (f.leafAt % 2 ^ 54 + x < frame ∨ frame + 2 ^ f.size ≤ f.leafAt % 2 ^ 54 + x)) →
      s.num (f.leafAt % 2 ^ 54) 8 = f.leaf.toNat →
      (∀ x < 8, (f.leafAt % 2 ^ 54 + x < f.descAt + 8 ∨ f.descAt + 16 ≤ f.leafAt % 2 ^ 54 + x)) →
      (frame + 2 ^ f.size ≤ f.descAt + 8 ∨ f.descAt + 16 ≤ frame) →
      ∃ r, exec (.demandFetchComplete i .ok) s = .next r ∧ r.fetches = s.fetches.erase f ∧
        (∀ x < 2 ^ f.size, r.byte (frame + x) = s.byte (home % 2 ^ 54 + x)) ∧
        r.num (f.leafAt % 2 ^ 54) 8 = f.frame % 2 ^ 56 / 2 ^ 12 * 2 ^ 12 + f.leaf.toNat % 32 / 2 * 2 + 1 ∧
        r.num (f.descAt + 8) 8 = (f.va + f.part * 2 ^ 48 + 2 ^ 63) % 2 ^ 64 ∧
        r.reg64 Reg.XLT_DEMAND_LO = (s.reg64 Reg.XLT_DEMAND_LO + 1) % 2 ^ 64 ∧
        s.keepsRegs r ([Reg.XLT_DEMAND_LO, Reg.XLT_DEMAND_HI, Reg.PRT_P_STAT f.part] ++ hearthRegs)) ∧
    (f.waiters = [] → ∃ r, exec (.demandFetchComplete i .tier) s = .next r ∧ r.fetches = s.fetches.erase f ∧
      r.num (f.descAt + 8) 8 = (f.va + f.part * 2 ^ 48 + 2 ^ 62) % 2 ^ 64 ∧ s.keepsMem r (f.descAt + 8) 8 ∧
      r.flag Reg.XLT_STATUS.FETCH_ERR = true ∧ s.keepsRegs r ([Reg.XLT_STATUS, Reg.PRT_P_STAT f.part] ++ hearthRegs))) ∧
  (∀ (v : Word) (s : State), s.live = true → ∃ r, exec (.xltKick .firmware v) s = .next r ∧ r.reg Reg.XLT_CTRL = v &&& 3 ∧
    (if bitOf v.toNat 2 then r.flag Reg.XLT_STATUS.FRAME_WAIT = false ∧ (∀ w ∈ r.walks, w.blocked = false) ∧
      r = { s with regs := r.regs, walks := r.walks } ∧ s.keepsRegs r [Reg.XLT_CTRL, Reg.XLT_STATUS]
    else s.onlyRegs r [Reg.XLT_CTRL]))

/-- An invalidation drops the translations that it covers, and a fill puts its line into the cache. In a live module a write of XLT_INV_CTRL
with START and an operation (0 and 3 everything, 1 a partition, 2 a range), while none is in progress, drops every cached translation that
it covers and no other, and INV_BUSY sets; INV_BUSY clears once no unit that was in flight remains. A Hearth fill that ends puts its line
into its slice; the units that wait on one with an uncorrectable error carry that error, and its bytes are those of the line as read. Where
no access waits for tags nothing else changes but the stack's error counts. (R187, R202, R203, Table 08-12) -/
def Obligations.InvalidationsDropTranslations : Prop :=
  (∀ (c : Master → Word → Instr) (ops : List Nat) (v : Word) (s : State),
    (c, ops) ∈ [(Instr.invalidateAll, [0, 3]), (Instr.invalidatePartition, [1]), (Instr.invalidateRange, [2])] →
    s.live = true → bitOf v.toNat 31 = true → bits v.toNat 24 2 ∈ ops → s.flag Reg.XLT_STATUS.INV_BUSY = false →
    let i : Inval := ⟨if bits v.toNat 24 2 = 3 then 0 else bits v.toNat 24 2, bits v.toNat 16 4,
      s.fld Reg.XLT_INV_VA_LO.VA * 2 ^ 16 + s.fld Reg.XLT_INV_VA_HI.VA * 2 ^ 32, s.fld Reg.XLT_INV_PAGES.PAGES, []⟩
    ∃ r, exec (c .firmware v) s = .next r ∧ r.flag Reg.XLT_STATUS.INV_BUSY = true ∧ (∃ units, r.inval = some { i with units := units }) ∧
      (∀ e, e ∈ r.tlb2 ↔ e ∈ s.tlb2 ∧ i.covers e.part e.va e.size = false) ∧
      (∀ b < 12, ∀ e, e ∈ r.bayTlb b ↔ e ∈ s.bayTlb b ∧ i.covers e.part e.va e.size = false) ∧
      (∀ w ∈ r.walks, i ∈ w.stale) ∧ (∀ f ∈ r.fetches, i.covers f.part f.va f.size = true → f.stale = true) ∧
      r = { s with regs := r.regs, tlb1 := r.tlb1, tlb2 := r.tlb2, walks := r.walks, fetches := r.fetches, inval := r.inval } ∧
      s.keepsRegs r [Reg.XLT_INV_CTRL, Reg.XLT_STATUS]) ∧
  (∀ (s : State) (i : Inval), s.inval = some i → ∃ r, exec .invalidationComplete s = .next r ∧
    (if i.units.all s.unitOver then r.flag Reg.XLT_STATUS.INV_BUSY = false ∧ r = { s with regs := r.regs, inval := none } ∧
      s.keepsRegs r [Reg.XLT_STATUS]
    else r = s)) ∧
  (∀ (b : Fin 12) (ecc : ReadEcc) (s : State) (f : LineFill), s.gridLive = true → s.hearthFills.find? (·.bay == b.val) = some f →
    ∃ r, exec (.hearthFill b ecc) s = .next r ∧ r.hearthFills = s.hearthFills.erase f ∧ r.hearthHas b (128 * f.line) = true ∧
      (ecc.ue ≠ 0 → ∀ m ∈ f.movers, (r.mover m).work.poison = 3) ∧
      (ecc.ue = 0 → r.movers = s.movers ∧ r.mem = s.mem) ∧ s.keepsMem r (b * stackSize + 128 * f.line) 128 ∧
      (s.noneWaits → r = { s with regs := r.regs, mem := r.mem, hearthFills := r.hearthFills, hearth := r.hearth, movers := r.movers } ∧
        s.keepsRegs r [Reg.TIER_UNIT (unitHot b)]))

/-- A lookup counts a use of its expert and claims a HOMED one, and the end of its fetches closes the entry. The first expert not looked up
whose entry is well formed, with no line of it being filled, counts one in EXP_LOOKUPS and, once a step, one use in its entry; a HOMED entry
(state 1) is claimed: its state becomes 2 and a walk of every page is asked for; otherwise the lookup is over. Once no walk or fetch of a
claimed expert is left, its entry becomes RESIDENT (0), or HOMED again where one failed, which sets FETCH_ERR, or was discarded. (R255,
R256, Table 10-5) -/
def Obligations.ResidencyIsKept : Prop :=
  (∀ (s : State) (i : Nat) (l : Lookup), s.lookups.findIdx? (fun l => !l.claimed) = some i → s.lookups[i]? = some l → s.gridLive = true →
    let a := l.entry
    let region := s.num a 8
    let psize := s.num (a + 10) 1
    let size := [16, 21, 30].getD psize 16
    let step := s.stepNo l.part
    s.fillingIn a 32 = false →
    region % 2 ^ 48 ≠ 0 → psize ≤ 2 → s.num (a + 11) 1 ≤ 2 → s.num (a + 12) 1 / 2 = 0 → s.num (a + 13) 3 = 0 → region < 2 ^ 48 →
    s.num (a + 8) 2 ≠ 0 → region % 2 ^ size = 0 → ∃ r, exec .residencyLookup s = .next r ∧
      r.reg64 Reg.EXP_LOOKUPS_LO = (s.reg64 Reg.EXP_LOOKUPS_LO + 1) % 2 ^ 64 ∧
      (if s.num (a + 16) 8 % 2 ^ 48 = step then r.num (a + 16) 16 = s.num (a + 16) 16
      else r.num (a + 16) 8 = step % 2 ^ 64 ∧ r.num (a + 24) 8 = (s.num (a + 24) 8 + 1) % 2 ^ 64) ∧
      (if s.num (a + 11) 1 = 1 then r.num (a + 11) 1 = 2 ∧ r.lookups = s.lookups.set i { l with claimed := true } ∧
        r.walks = s.walks ++ (List.range (s.num (a + 8) 2)).map (fun i =>
          ⟨.early l.part a, l.part, s.ptBase l.part, region + i * 2 ^ size, region + i * 2 ^ size, .read, [], false⟩)
      else r.num (a + 11) 1 = s.num (a + 11) 1 ∧ r.lookups = s.lookups.eraseIdx i ∧ r.walks = s.walks) ∧
      r = { s with regs := r.regs, mem := r.mem, hearth := r.hearth, lookups := r.lookups, walks := r.walks } ∧
      s.keepsMem r (a + 11) 21 ∧ s.keepsRegs r ([Reg.EXP_LOOKUPS_LO, Reg.EXP_LOOKUPS_HI] ++ hearthRegs)) ∧
  (∀ (i : Nat) (s : State) (l : Lookup), s.lookups[i]? = some l → l.claimed = true → s.earlyBusy l = false →
    let a := l.entry
    ∃ r, exec (.residencyClose i) s = .next r ∧ r.lookups = s.lookups.eraseIdx i ∧
      (s.num (a + 11) 1 = 2 → r.num (a + 11) 1 = (if l.failed || l.discarded then 1 else 0)) ∧
      (s.num (a + 11) 1 ≠ 2 → r.mem = s.mem) ∧ (l.failed = true → r.flag Reg.EXP_STATUS.FETCH_ERR = true) ∧
      s.keepsMem r (a + 11) 1 ∧ s.keepsRegs r (Reg.EXP_STATUS :: hearthRegs))

/-- EN, DIS and the end of the work move ports, tiers, Banking and partitions between the four states. In a live module: EN leads from OFF
to ENABLING, and DIS from ON to DISABLING; against a transition they set and clear its pending bits; the end of the work enters ON or OFF,
or turns where the other was pending; a failed ENABLING enters OFF. This is stated for ports, stacks, warm and pool ports, Banking and
partitions, and for the end of their work; a warm or pool port that has not trained within 100 Strikes of entering ENABLING, or not at x16
or x8, fails. A port is not enabled under COORD_ERR, and starts with its classes' credits; one disabled, once it may stop, drops its frames.
A partition whose bays are bad stays OFF with cause 1; one enabled has its Billet banks in firmware's hand where no firmware march runs
there; one disabled while no switch runs holds no job. (R311, R312, R315, R377, R378, R379, R439, Table 16-1) -/
def Obligations.EnableAndDisableFollowTable161 : Prop :=
  (∀ c ∈ [Instr.mshPortEnable .firmware, Instr.mshPortDisable .firmware], ∀ (n : Fin 5) (v : Word) (s : State), s.live = true →
    ∃ r, exec (c n v) s = .next r ∧
      r.enBits (enPort n) = writeAfter (bitOf v.toNat 0 && !s.coordErr) (bitOf v.toNat 1) (s.enBits (enPort n)) ∧
      r = { s with regs := r.regs, ports := r.ports } ∧ r.port n = { s.port n with stopTick := (r.port n).stopTick } ∧
      (∀ m : Nat, m ≠ n → r.port m = s.port m) ∧ s.keepsRegs r [Reg.MSH_PORT_CTRL n, Reg.MSH_PORT_STAT n]) ∧
  (∀ (c : EnBlock → Word → Instr) (bit : Nat) (b : EnBlock) (u : Nat) (v : Word) (s : State),
    (c, bit) ∈ [(Instr.tierEnable .firmware, 0), (Instr.tierDisable .firmware, 1)] → tierUnit b = some u → s.live = true →
    bitOf v.toNat bit = true → ∃ r, exec (c b v) s = .next r ∧
      r.enBits (enTier u) = writeAfter (bitOf v.toNat 0) (bitOf v.toNat 1) (s.enBits (enTier u)) ∧
      r = { s with regs := r.regs, enabledAt := r.enabledAt } ∧ s.keepsRegs r [Reg.TIER_UNIT u, Reg.CXL_PORT_STAT (u - 16)]) ∧
  (∀ (c : Word → Instr) (bit : Nat) (v : Word) (s : State), (c, bit) ∈ [(Instr.bankEnable .firmware, 0), (Instr.bankDisable .firmware, 1)] →
    s.live = true → bitOf v.toNat bit = true → ∃ r, exec (c v) s = .next r ∧
      r.enBits enBanking = writeAfter (bitOf v.toNat 0) (bitOf v.toNat 1) (s.enBits enBanking) ∧ s.onlyRegs r [Reg.PWR_BANK]) ∧
  (∀ (p : Fin 12) (v : Word) (s : State), s.live = true → bits v.toNat 29 3 = 0 →
    (bitOf v.toNat 0 = true → bitOf v.toNat 1 = false → ∃ r, exec (.partitionEnable .firmware p v) s = .next r ∧
      (s.partState p ≠ 0 → r.enBits (enPrt p) = enAfter (s.enBits (enPrt p)) ∧ s.onlyRegs r [Reg.PRT_P_STAT p]) ∧
      (s.partState p = 0 → s.baysBad p = true → r.partState p = 0 ∧ r.flag (Reg.PRT_P_STAT.ERR_VALID p) = true ∧
        r.fld (Reg.PRT_P_STAT.ERR p) = 1 ∧ s.keepsRegs r [Reg.PRT_P_STAT p] ∧ r.mem = s.mem) ∧
      (s.partState p = 0 → s.baysBad p = false → s.marching p = false → r.partState p = 1 ∧
        (∀ t ∈ s.tilesOf p, tileType t = 2 → ∀ b < 48, r.reg (Reg.BIL_OWN t b) = 0))) ∧
    (bitOf v.toNat 0 = false → bitOf v.toNat 1 = true → ∃ r, exec (.partitionDisable .firmware p v) s = .next r ∧
      (s.partState p ≠ 2 → r.enBits (enPrt p) = disAfter (s.enBits (enPrt p)) ∧ s.onlyRegs r [Reg.PRT_P_STAT p]) ∧
      (s.partState p = 2 → s.switching p = true → r.flag (Reg.PRT_P_STAT.DISABLE_PENDING p) = true ∧ s.onlyRegs r [Reg.PRT_P_STAT p]) ∧
      (s.partState p = 2 → s.switching p = false → s.partFirst p + s.partCount p ≤ 12 → (∀ c ∈ s.collectives, c.mover < 64) → r.partState p = 3 ∧
        r.flag (Reg.PRT_P_STAT.RES_VALID p) = false ∧ ∀ j < 8, r.jobState p j = 0))) ∧
  (∀ (n : Fin 5) (res : TrainResult) (s : State), s.live = true → s.fld (Reg.MSH_PORT_STAT.STATE n) = 1 →
    ∃ r, exec (.portTrained n res) s = .next r ∧ s.keepsRegs r [Reg.MSH_PORT_STAT n] ∧
      (match res with
      | .trained _ _ _ => r.enBits (enPort n) = doneAfter (s.enBits (enPort n)) ∧ r = { s with regs := r.regs, ports := r.ports } ∧
        (∀ m : Nat, m ≠ n → r.port m = s.port m) ∧ (∀ c < 9, (r.port n).credit c = s.classShare c)
      | .failed => r.enBits (enPort n) = failAfter (s.enBits (enPort n)) ∧ r.flag (Reg.MSH_PORT_STAT.TRAIN_FAIL n) = true ∧
        r.ports = s.ports)) ∧
  (∀ (n : Fin 5) (s : State), s.fld (Reg.MSH_PORT_STAT.STATE n) = 3 → s.mayStop n = true → ∃ r, exec (.portDisableComplete n) s = .next r ∧
    r.enBits (enPort n) = doneAfter (s.enBits (enPort n)) ∧ (r.port n).queued = [] ∧ (r.port n).replay = [] ∧
    r = { s with regs := r.regs, ports := r.ports, out := r.out } ∧ s.keepsRegs r [Reg.MSH_PORT_STAT n, Reg.MSH_PORT_ERR_HI n]) ∧
  (∀ (w : WorkEnd) (s : State), s.live = true →
    (∃ r, exec (.partitionStateDone .banking w) s = .next r ∧
      r.enBits enBanking = (if endedWell w then doneAfter else failAfter) (s.enBits enBanking) ∧ s.onlyRegs r [Reg.PWR_BANK]) ∧
    (∀ b : Fin 12, s.tierState (unitHot b) = 1 → ∃ r, exec (.partitionStateDone (.stack b) w) s = .next r ∧
      r.enBits (enTier (unitHot b)) = (if endedWell w then doneAfter else failAfter) (s.enBits (enTier (unitHot b))) ∧
      (endedWell w = false → r.flag (Reg.TIER_UNIT.DEGRADED (unitHot b)) = true) ∧ s.keepsRegs r [Reg.TIER_UNIT (unitHot b)]) ∧
    (∀ (b : EnBlock) (n : Fin 10), tierUnit b = some (unitCxl n) → s.tierState (unitCxl n) = 1 →
      ∃ r, exec (.partitionStateDone b w) s = .next r ∧
      (match w with
      | .done width rate _ _ => r.enBits (enTier (unitCxl n)) =
          (if linkOk width rate && s.inTime (unitCxl n) then doneAfter else failAfter) (s.enBits (enTier (unitCxl n)))
      | .failed => r.enBits (enTier (unitCxl n)) = failAfter (s.enBits (enTier (unitCxl n)))) ∧
      s.onlyRegs r [Reg.TIER_UNIT (unitCxl n), Reg.CXL_PORT_STAT n, Reg.TIER_WARM_CAP n]) ∧
    (∀ p : Fin 12, s.partState p = 1 → endedWell w = true → s.flag (Reg.PRT_P_STAT.DISABLE_PENDING p) = false →
      (s.part p).clearLate = false →
      ∃ r, exec (.partitionStateDone (.partition p) w) s = .next r ∧ r.enBits (enPrt p) = (2, false, false) ∧
        s.onlyRegs r [Reg.PRT_P_STAT p]))

/-- A good frame in order is kept and acknowledges others; a NAK or a timeout sends unacknowledged frames again. On a port that carries
packets, with nothing queued: a good DATA frame with the expected SEQ and room in its channel's share joins its packet, whose route its
first frame decided; its header frees the acknowledged frames and adds credits. A failed frame that is not IDLE counts a CRC error and is
answered with a CTRL NAK. A NAK, after its header has acted, and a replay timeout, 1,800 f-cycles after ACK last advanced and not before,
send every unacknowledged frame again, in order; after eight times the port retrains. A retraining that fails a third time in a row disables
the port; one that succeeds sends a header, and the partner's first header sends again what it does not acknowledge. (R308, R309, R310,
R311, R312, R314, Table 13-4) -/
def Obligations.FramesArriveInOrder : Prop :=
  (∀ (n : Fin 5) (f : Frame) (s : State) (k : Nat),
    let x := s.port n
    s.carries n = true → x.queued = [] → x.resuming = false → f.type = 0 → f.seq = x.rxSeq → x.ackedBy f.ack = some k →
    x.holds f.vc < s.fld (Reg.MSH_VCCRD.FRAMES f.vc) → ∃ r, exec (.frameReceive n .good f) s = .next r ∧
      let a := (x.coming f.vc).getD ⟨f.vc, s.routeIn n f.payload, []⟩
      r.port n = { x with
        credits := (r.port n).credits
        replay := x.replay.drop k
        resent := if k = 0 then x.resent else 0
        since := if k = 0 then x.since else s.fcycles
        rxSeq := (x.rxSeq + 1) % 4096
        skipping := false
        arriving := x.arriving.filter (·.vc != f.vc) ++ [{ a with frames := a.frames ++ [f.payload] }] } ∧
      (f.cvc ≠ 0 → ∀ c, (r.port n).credit c = x.credit c + if c = f.cvc then f.ccnt else 0) ∧
      (f.cvc = 0 → (r.port n).credit 0 + (r.port n).credit 8 = x.credit 0 + x.credit 8 + f.ccnt ∧
        ∀ c, c ≠ 0 → c ≠ 8 → (r.port n).credit c = x.credit c) ∧
      (∀ m : Nat, m ≠ n → r.port m = s.port m) ∧ r = { s with ports := r.ports }) ∧
  (∀ (n : Fin 5) (f : Frame) (s : State), s.carries n = true → ∃ r, exec (.frameReceive n (.failed false) f) s = .next r ∧
    r.fld (Reg.MSH_PORT_ERR_LO.CRC n) = min (2 ^ (Reg.MSH_PORT_ERR_LO.CRC n).width - 1) (s.fld (Reg.MSH_PORT_ERR_LO.CRC n) + 1) ∧
    (r.port n).skipping = true ∧ (∃ g, r.out = s.out ++ [.frame n g (frameWire g)] ∧ g.type = 3 ∧ g.payload.head? = some 1) ∧
    r = { s with regs := r.regs, ports := r.ports, out := r.out } ∧ s.keepsRegs r [Reg.MSH_PORT_ERR_LO n]) ∧
  (∀ (n : Fin 5) (f : Frame) (s : State) (k : Nat),
    let x := s.port n
    s.carries n = true → x.resuming = false → x.ackedBy f.ack = some k → k < x.replay.length → ∃ r, exec (.nak n f) s = .next r ∧
      (∃ l : List Frame, r.out = s.out ++ l.map (fun g => Output.frame n g (frameWire g)) ∧
        l.map (fun g => (g.seq, g.vc, g.type, g.payload)) = (x.replay.drop k).map (fun g => (g.seq, g.vc, g.type, g.payload))) ∧
      (r.port n).replay = x.replay.drop k ∧ (r.port n).resent = (if k = 0 then x.resent else 0) + 1 ∧
      r.flag (Reg.MSH_PORT_STAT.RETRAINING n) = decide (8 ≤ (r.port n).resent) ∧
      r = { s with regs := r.regs, ports := r.ports, out := r.out } ∧ s.keepsRegs r [Reg.MSH_PORT_STAT n]) ∧
  (∀ (n : Fin 5) (s : State),
    let x := s.port n
    (s.fcycles < x.since + 1800 → exec (.replayTimeout n) s = .next s) ∧
    (s.carries n = true → x.replay ≠ [] → x.since + 1800 ≤ s.fcycles → ∃ r, exec (.replayTimeout n) s = .next r ∧
      (∃ l : List Frame, r.out = s.out ++ l.map (fun g => Output.frame n g (frameWire g)) ∧
        l.map (fun g => (g.seq, g.vc, g.type, g.payload)) = x.replay.map (fun g => (g.seq, g.vc, g.type, g.payload))) ∧
      (r.port n).replay = x.replay ∧ (r.port n).resent = x.resent + 1 ∧
      r.flag (Reg.MSH_PORT_STAT.RETRAINING n) = decide (8 ≤ x.resent + 1) ∧
      r = { s with regs := r.regs, ports := r.ports, out := r.out } ∧ s.keepsRegs r [Reg.MSH_PORT_STAT n])) ∧
  (∀ (n : Fin 5) (s : State), s.portOn n = true → s.flag (Reg.MSH_PORT_STAT.RETRAINING n) = true →
    (∃ r, exec (.retrain n .failed) s = .next r ∧ (r.port n).failed = (s.port n).failed + 1 ∧
      (if 3 ≤ (s.port n).failed + 1 then
        r.fld (Reg.MSH_PORT_STAT.STATE n) = 3 ∧ r.flag (Reg.MSH_PORT_STAT.RETRAINING n) = false ∧
          r.flag (Reg.MSH_PORT_STAT.TRAIN_FAIL n) = true
      else r.portOn n = true ∧ r.flag (Reg.MSH_PORT_STAT.RETRAINING n) = true) ∧ s.keepsRegs r [Reg.MSH_PORT_STAT n]) ∧
    (∀ (w rate : Nat) (lat : Bool), ∃ r, exec (.retrain n (.trained w rate lat)) s = .next r ∧
      r.carries n = true ∧ (r.port n).resent = 0 ∧ (r.port n).failed = 0 ∧ (r.port n).resuming = true ∧
      (r.port n).replay = (s.port n).replay ∧ (∃ g, r.out = s.out ++ [.frame n g (frameWire g)] ∧ g.type = 2) ∧
      s.keepsRegs r [Reg.MSH_PORT_STAT n])) ∧
  (∀ (n : Fin 5) (f : Frame) (s : State) (k : Nat),
    let x := s.port n
    s.carries n = true → x.queued = [] → x.resuming = true → f.type = 2 → x.ackedBy f.ack = some k →
    ∃ r, exec (.frameReceive n .good f) s = .next r ∧ (r.port n).resuming = false ∧ (r.port n).replay = x.replay.drop k ∧
      (∃ l : List Frame, r.out = s.out ++ l.map (fun g => Output.frame n g (frameWire g)) ∧
        l.map (fun g => (g.seq, g.vc, g.type, g.payload)) = (x.replay.drop k).map (fun g => (g.seq, g.vc, g.type, g.payload))) ∧
      r = { s with ports := r.ports, out := r.out })

/-- Ports serve loads and stores of other slots, complete the own ones, and carry messages. LOADSTORE_REQUEST: a request waits while a line
that it covers is being filled. Else, at an aligned place of the own hot tier, a read returns its bytes, a write stores its own and nothing
else, and an atomic writes its new value and returns the old one, each answered with code 0; of a stack that is not up nothing is written
and the answer is 0x20. LOADSTORE_RESPONSE, with no acceptance and no access waiting: a response with no access outstanding is counted in
MSH_UNROUTED; one for a mover ends the access, and its data, or its fault code, reach the mover's unit; a firmware read gets its data.
LOADSTORE_TIMEOUT: nothing happens before LS_TO Strikes; then a mover's access ends with kind TIER and a firmware read with LS_TIMEOUT and
zeros, and the tag is late. MSG_KICK writes MSH_CTRL and reads every transmit ring up to its TAIL; where one ring alone holds one message,
of 1 to 4,032 bytes, that message is sent. MESSAGE_RECEIVE: a message waits while its ring is full; else it is written with its header to
the next slot, and HEAD, MSG_RX and the buffer follow; one of 16 bytes on CONTROL also goes to firmware (R260, log 22). (R196, R260, R318,
R319, Table 13-6) -/
def Obligations.LoadsStoresAndMessages : Prop :=
  (∀ (n : Fin 5) (s : State) (p : Packet), s.firstPacket n (fun p => p.kind == 1 && (p.vc == 0 || p.vc == 4)) = some p →
    let op := bodyOp p.body
    let served := fun (q : State) (code : Nat) (d : List Byte) =>
      exec (.loadstoreRequest n) s = .next (q.sendPacket (s.l2p p.src) p.vc 2 0 p.tag p.info (natLE 2 code ++ natLE 2 d.length ++ natLE 12 0 ++ d)) ∧
        (q.port n).packets = (s.port n).packets.erase p ∧ s.keepsRegs q hearthRegs
    (s.fillingIn (p.info % 2 ^ 54) (opLen op) = true → exec (.loadstoreRequest n) s = .next s) ∧
    (s.fillingIn (p.info % 2 ^ 54) (opLen op) = false → ∀ b off, s.homeOf (s.ownSlot * 2 ^ 54 + p.info % 2 ^ 54) = .hot b off → off % 8 = 0 →
      let a := b * stackSize + off
      (s.tierUp (unitHot b) = false → ∃ q, served q 0x20 [] ∧ q.mem = s.mem) ∧
      (s.tierUp (unitHot b) = true →
        (∀ k, op = .read k → ∃ q, served q 0 (s.bytes a k) ∧ q.mem = s.mem) ∧
        (∀ d, op = .write d → ∃ q, served q 0 [] ∧ q.bytes a d.length = d ∧ s.keepsMem q a d.length) ∧
        ((∀ k, op ≠ .read k) → (∀ d, op ≠ .write d) → ∃ q, served q 0 (s.bytes a 8) ∧ q.num a 8 = atomicNew op (s.num a 8) ∧
          s.keepsMem q a 8)))) ∧
  (∀ (n : Fin 5) (s : State) (p : Packet), s.firstPacket n (fun p => p.kind == 2 && (p.vc == 0 || p.vc == 4)) = some p →
    s.noneWaits → (∀ l < 64, (s.log l).accepting = none) →
    let code := leNat (p.body.take 2)
    let data := (p.body.drop 16).take (leNat ((p.body.drop 2).take 2))
    (s.tagOut p.tag = none → ∃ r, exec (.loadstoreResponse n) s = .next r ∧
      r.reg Reg.MSH_UNROUTED = s.reg Reg.MSH_UNROUTED + BitVec.ofNat 32 p.frames.length ∧ r.flag Reg.MSH_STATUS.UNROUTED = true ∧
      r.lateTags = s.lateTags.erase p.tag ∧ (r.port n).packets = (s.port n).packets.erase p ∧
      r = { s with regs := r.regs, ports := r.ports, out := r.out, lateTags := r.lateTags } ∧
      s.keepsRegs r [Reg.MSH_UNROUTED, Reg.MSH_STATUS]) ∧
    (∀ (o : Outstanding) (m : Nat), s.tagOut p.tag = some o → o.issuer = .mover m → ∃ r, exec (.loadstoreResponse n) s = .next r ∧
      (r.mover m).work = { (s.mover m).work with
        data := if opWrites o.op then (s.mover m).work.data else (s.mover m).work.data ++ [(o.addr, data)]
        fail := if code = 0 then (s.mover m).work.fail else code
        failAt := if code = 0 then (s.mover m).work.failAt else o.addr } ∧
      r.outstanding = s.outstanding.filter (fun x => x.tag != o.tag) ∧ (r.port n).packets = (s.port n).packets.erase p ∧
      r = { s with outstanding := r.outstanding, movers := r.movers, ports := r.ports, out := r.out }) ∧
    (∀ (o : Outstanding), s.tagOut p.tag = some o → o.issuer = .firmware → opWrites o.op = false → code = 0 → data ≠ [] →
      ∃ r, exec (.loadstoreResponse n) s = .next r ∧ r.out.getLast? = some (.readData data) ∧
        r.outstanding = s.outstanding.filter (fun x => x.tag != o.tag) ∧
        r = { s with outstanding := r.outstanding, ports := r.ports, out := r.out })) ∧
  (∀ (tag : Nat) (s : State),
    (s.tagOut tag = none → exec (.loadstoreTimeout tag) s = .next s) ∧
    (∀ o, s.tagOut tag = some o → s.tick < o.issued.toNat + 1024 * max 1 (s.fld Reg.MSH_CTRL.LS_TO) → exec (.loadstoreTimeout tag) s = .next s) ∧
    (∀ o, s.tagOut tag = some o → o.issued.toNat + 1024 * max 1 (s.fld Reg.MSH_CTRL.LS_TO) ≤ s.tick → s.noneWaits →
      (∀ m, o.issuer = .mover m → ∃ r, exec (.loadstoreTimeout tag) s = .next r ∧ (r.mover m).work.fail = 0x20 ∧ (r.mover m).work.failAt = o.addr ∧
        r.outstanding = s.outstanding.filter (fun x => x.tag != o.tag) ∧ r.lateTags = s.lateTags ++ [tag] ∧
        r = { s with outstanding := r.outstanding, lateTags := r.lateTags, movers := r.movers }) ∧
      (o.issuer = .firmware → opWrites o.op = false → ∃ r, exec (.loadstoreTimeout tag) s = .next r ∧ r.flag Reg.MSH_STATUS.LS_TIMEOUT = true ∧
        (0 < opLen o.op → r.out.getLast? = some (.readData (natLE (opLen o.op) 0))) ∧
        r = { s with outstanding := r.outstanding, lateTags := r.lateTags, regs := r.regs, out := r.out } ∧
        s.keepsRegs r [Reg.MSH_STATUS]))) ∧
  (∀ (v : Word) (s : State), s.live = true → ∃ r, exec (.msgKick .firmware v) s = .next r ∧ r.reg Reg.MSH_CTRL = v &&& 0xFFFF0002 ∧
    r.mem = s.mem ∧
    (bitOf v.toNat 2 = false → s.onlyRegs r [Reg.MSH_CTRL]) ∧
    (bitOf v.toNat 2 = true → (∀ ch < 4, r.fld (Reg.MSH_MSG_HEAD.INDEX ch 0) = s.fld (Reg.MSH_MSG_TAIL.INDEX ch 0)) ∧
      s.keepsRegs r ([Reg.MSH_CTRL, Reg.MSH_UNROUTED, Reg.MSH_STATUS] ++ (List.range 4).map (fun ch => Reg.MSH_MSG_HEAD ch 0) ++ hearthRegs) ∧
      ∀ ch < 4, let head := s.fld (Reg.MSH_MSG_HEAD.INDEX ch 0)
        let a := s.msgSlot ch 0 head
        let dst := s.num a 1
        let len := s.num (a + 2) 2
        s.fld (Reg.MSH_MSG_TAIL.INDEX ch 0) = (head + 1) % 2 ^ 16 → 0 < len → len ≤ 4032 →
        (∀ c < 4, c ≠ ch → s.fld (Reg.MSH_MSG_HEAD.INDEX c 0) = s.fld (Reg.MSH_MSG_TAIL.INDEX c 0)) →
        ∃ q : State, r = q.sendPacket (if dst = 0xFF then 0xFF else s.l2p dst) (ringVc ch) 4 0 len 0 (s.bytes (a + 64) len) ∧ q.out = s.out ∧
          q.ports = s.ports)) ∧
  (∀ (n : Fin 5) (ch : Fin 4) (s : State) (p : Packet), s.firstPacket n (fun p => p.kind == 4 && p.vc == ringVc ch) = some p →
    (s.ringFull ch = true → exec (.messageReceive n ch) s = .next s) ∧
    (s.ringFull ch = false → (ch = 0 → s.flag Reg.SLG_CTRL.VERDICT_EN = false) →
      let head := s.fld (Reg.MSH_MSG_HEAD.INDEX ch 1)
      let a := s.msgSlot ch 1 head
      ∃ r : State, (ch ≠ 1 ∨ p.tag ≠ 16 ∨ s.live = false → exec (.messageReceive n ch) s = .next r) ∧
        (ch = 1 → p.tag = 16 → s.live = true → exec (.messageReceive n ch) s =
          .next ((s.groupParts p.src p.body).foldl (fun t q => t.overrunMessage q p.src (p.body.take 16)) r)) ∧
        r.fld (Reg.MSH_MSG_HEAD.INDEX ch 1) = (head + 1) % 2 ^ 16 ∧
        r.num a 1 = s.ownLogical % 256 ∧ r.num (a + 1) 1 = p.src % 256 ∧ r.num (a + 2) 2 = p.tag % 2 ^ 16 ∧
        r.num (a + 8) 8 = p.stamp.toNat ∧ r.bytes (a + 64) (p.body.take p.tag).length = p.body.take p.tag ∧
        s.keepsMem r a (64 + (p.body.take p.tag).length) ∧ r.flag Reg.MSH_STATUS.MSG_RX = true ∧
        (r.port n).packets = (s.port n).packets.erase p ∧ s.keepsRegs r ([Reg.MSH_MSG_HEAD ch 1, Reg.MSH_STATUS] ++ hearthRegs)))

/-- Contributions join or are staged, collectives end complete or ABORTED, broadcasts go on. COLLECTIVE_CONTRIBUTION: a packet of another
EPOCH is dropped and counted. Of the own EPOCH, a contribution joins its collective (for an all-reduce see log 16), makes it end ABORTED
where its header disagrees, and goes nowhere where the collective is ending or over; with none under way it is written into the staging
area, or waits with STAGE_FULL. COLLECTIVE_COMPLETE: a whole collective writes its results and, once none of these writes is outstanding,
STATUS, and ends with a record that is not ABORTED; one that ends ABORTED writes that STATUS. COLL_TIMEOUT: nothing happens before
MSH_COLL_TO Strikes; then a collective is ABORTED and its step bad, and so is a broadcast unit that still waits. ABORT ends the partition's
collectives, staged and waiting contributions and records, and EPOCH takes the value. BCAST_RECEIVE, with no acknowledgement owed: an
acknowledgement is counted off; a packet that is not for this member is copied onward; one of another EPOCH is dropped and counted; one for
this member is written and copied onward, and the last of its unit is acknowledged once no write of it is outstanding. (R197, R321, R323,
R324, R326, R327, R328, Table 13-8) -/
def Obligations.CollectivesGatherAndEnd : Prop :=
  (∀ (n : Fin 5) (vc : Fin 8) (s : State) (p : Packet), s.firstPacket n (fun p => p.kind == 3 && p.vc == vc.val) = some p →
    let part := s.groupPart p.group
    let x := p.contribution part
    let taken := fun (r : State) => exec (.collectiveContribution n vc) s = .next r ∧ (r.port n).packets = (s.port n).packets.erase p
    (p.epoch ≠ s.fld (Reg.MSH_P_CTRL.EPOCH part) → ∃ r, taken r ∧
      r.reg Reg.MSH_EPOCH_DROP = s.reg Reg.MSH_EPOCH_DROP + BitVec.ofNat 32 p.frames.length ∧
      r = { s with regs := r.regs, ports := r.ports, out := r.out } ∧ s.keepsRegs r [Reg.MSH_EPOCH_DROP]) ∧
    (p.epoch = s.fld (Reg.MSH_P_CTRL.EPOCH part) →
      (∀ c, s.coll x.key = some c → c.abort.isSome = true → ∃ r, taken r ∧ r = { s with ports := r.ports, out := r.out }) ∧
      (∀ c, s.coll x.key = some c → c.abort = none →
        let c' := { c with got := c.got ++ [x] }
        (s.disagrees c' = false → c.kind ≠ 3 → ∃ r, taken r ∧ r.coll x.key = some c' ∧
          r = { s with ports := r.ports, out := r.out, collectives := r.collectives }) ∧
        (s.disagrees c' = true → ∃ r, taken r ∧ r.coll x.key = some { c with got := [], abort := some true } ∧
          (∀ o ∈ (r.part c.part).steps, o.n = c.step → o.cause ≠ 0) ∧ r.mem = s.mem ∧ s.keepsRegs r [])) ∧
      (s.coll x.key = none → s.collRecords.any (·.key == x.key) = true → ∃ r, taken r ∧ r = { s with ports := r.ports, out := r.out }) ∧
      (s.coll x.key = none → s.collRecords.any (·.key == x.key) = false → s.stageBase part ≠ 0 →
        (s.stagePlace x = none → ∃ r, exec (.collectiveContribution n vc) s = .next r ∧ r.flag (Reg.MSH_P_STATUS.STAGE_FULL part) = true ∧
          s.onlyRegs r [Reg.MSH_P_STATUS part]) ∧
        (∀ place, s.stagePlace x = some place →
          let a := (s.stageBase part + place) % 2 ^ 54
          ∃ r, taken r ∧ r.staging = s.staging ++ [{ x with place := place }] ∧ r.bytes (a + 32) x.data.length = x.data ∧
            s.keepsMem r a (32 + x.data.length) ∧ s.keepsRegs r hearthRegs)))) ∧
  (∀ (i : Nat) (s : State) (c : Collective), s.collectives[i]? = some c →
    let ends := fun (q : State) => let w := q.engineWrites c.key c.mover c.part c.table [(c.desc + 56, natLE 8 (2 ^ 63))]
      w.1 = .done → ∃ r, exec (.collectiveComplete i) s = .next r ∧ r.mem = w.2.mem ∧ r.coll c.key = none ∧
        r.collRecords.getLast? = some ⟨c.part, c.epoch, c.step, c.seq, false⟩ ∧ w.2.keepsRegs r []
    (c.abort = none → c.written = false → s.collWhole c = true → s.writesOut c.key = false →
      let w := s.engineWrites c.key c.mover c.part c.table (s.collWrites c)
      w.1 = .done → (w.2.writesOut c.key = true → ∃ r, exec (.collectiveComplete i) s = .next r ∧
          r = w.2.took.putColl { c with written := true } ∧ r.mem = w.2.mem) ∧
        (w.2.writesOut c.key = false → ends (w.2.took.putColl { c with written := true }))) ∧
    (c.abort = none → c.written = true → (s.writesOut c.key = true → exec (.collectiveComplete i) s = .next s) ∧
      (s.writesOut c.key = false → ends s)) ∧
    (∀ keep, c.abort = some keep →
      let w := s.engineWrites c.key c.mover c.part c.table [(c.desc + 56, natLE 8 (2 ^ 63 + 1))]
      w.1 ≠ .waits → ∃ r, exec (.collectiveComplete i) s = .next r ∧ r.mem = w.2.mem ∧ r.coll c.key = none ∧
        (keep = true → r.collRecords.getLast? = some ⟨c.part, c.epoch, c.step, c.seq, true⟩) ∧ w.2.keepsRegs r [])) ∧
  (∀ (i : Nat) (s : State),
    (∀ c, s.collectives[i]? = some c →
      (s.tick < c.handed.toNat + 1024 * max 1 (s.fld Reg.MSH_COLL_TO.STRIKES) → exec (.collTimeout i) s = .next s) ∧
      (c.handed.toNat + 1024 * max 1 (s.fld Reg.MSH_COLL_TO.STRIKES) ≤ s.tick → c.abort = none → ∃ r, exec (.collTimeout i) s = .next r ∧
        r.coll c.key = some { c with got := [], abort := some true } ∧ (∀ o ∈ (r.part c.part).steps, o.n = c.step → o.cause ≠ 0) ∧
        r = { s with collectives := r.collectives, parts := r.parts })) ∧
    (∀ b, s.collectives[i]? = none → s.broadcasts[i - s.collectives.length]? = some b → b.aborted = false → b.waiting ≠ [] →
      b.since.toNat + 1024 * max 1 (s.fld Reg.MSH_COLL_TO.STRIKES) ≤ s.tick → ∃ r, exec (.collTimeout i) s = .next r ∧
        r.broadcasts = s.broadcasts.map (fun x => if x = b then { x with aborted := true } else x) ∧
        r = { s with broadcasts := r.broadcasts, parts := r.parts })) ∧
  (∀ (p : Fin 12) (v : Word) (s : State), s.live = true → ∃ r, exec (.abort .firmware p v) s = .next r ∧
    r.fld (Reg.MSH_P_CTRL.EPOCH p) = v.toNat % 256 ∧ s.keepsRegs r [Reg.MSH_P_CTRL p] ∧ r.mem = s.mem ∧
    (bitOf v.toNat 31 = true → (∀ c ∈ r.collectives, c.part = p → c.abort.isSome = true ∧ c.got = []) ∧ (∀ x ∈ r.staging, x.part ≠ p) ∧
      (∀ x ∈ r.collRecords, x.part ≠ p) ∧ ∀ n < 5, ∀ q ∈ (r.port n).packets, q.kind = 3 → s.groupPart q.group ≠ p) ∧
    (bitOf v.toNat 31 = false → s.onlyRegs r [Reg.MSH_P_CTRL p])) ∧
  (∀ (n : Fin 5) (s : State) (p : Packet), s.firstPacket n (fun p => p.vc == 1 && (p.kind == 5 || p.kind == 2)) = some p →
    s.bcastAcks = [] →
    let part := s.groupPart p.group
    let cookie := leNat ((p.body.drop 16).take 8)
    let key := (part, p.epoch, 2 ^ 48 + p.src, cookie)
    let w := s.engineWrites key 48 part (s.ptBase part) [(leNat ((p.body.drop 8).take 8), (p.body.drop 32).take (leNat ((p.body.drop 24).take 8)))]
    (p.kind = 2 → ∃ r, exec (.bcastReceive n) s = .next r ∧ r.broadcasts = s.broadcasts.map (fun b =>
        if b.mover = p.info % 2 ^ 16 ∧ b.unit = p.info / 2 ^ 16 then { b with waiting := b.waiting.filter (· != p.src) } else b) ∧
      (r.port n).packets = (s.port n).packets.erase p ∧ r = { s with broadcasts := r.broadcasts, ports := r.ports, out := r.out }) ∧
    (p.kind ≠ 2 → bitOf p.mask s.ownLogical = false → ∃ q : State, exec (.bcastReceive n) s = .next (q.fanOut (s.l2p p.src) p.mask p.frames) ∧
      (q.port n).packets = (s.port n).packets.erase p ∧ q = { s with ports := q.ports, out := q.out }) ∧
    (p.kind ≠ 2 → bitOf p.mask s.ownLogical = true → p.epoch ≠ s.fld (Reg.MSH_P_CTRL.EPOCH part) → ∃ r, exec (.bcastReceive n) s = .next r ∧
      r.reg Reg.MSH_EPOCH_DROP = s.reg Reg.MSH_EPOCH_DROP + BitVec.ofNat 32 p.frames.length ∧ (r.port n).packets = (s.port n).packets.erase p ∧
      r = { s with regs := r.regs, ports := r.ports, out := r.out } ∧ s.keepsRegs r [Reg.MSH_EPOCH_DROP]) ∧
    (p.kind ≠ 2 → bitOf p.mask s.ownLogical = true → p.epoch = s.fld (Reg.MSH_P_CTRL.EPOCH part) →
      (w.1 ≠ .done → exec (.bcastReceive n) s = .next w.2) ∧
      (w.1 = .done → w.2.bcastAcks = [] → ∃ q : State, q = w.2.takePacket n p ∧
        (bitOf p.tag 31 = false → exec (.bcastReceive n) s = .next (q.fanOut (s.l2p p.src) p.mask p.frames)) ∧
        (bitOf p.tag 31 = true → w.2.writesOut key = false →
          exec (.bcastReceive n) s = .next ((q.fanOut (s.l2p p.src) p.mask p.frames).sendAck ⟨p.src, p.tag, cookie, key⟩)) ∧
        (bitOf p.tag 31 = true → w.2.writesOut key = true → ∃ r, exec (.bcastReceive n) s = .next r ∧
          r = { q.fanOut (s.l2p p.src) p.mask p.frames with bcastAcks := [⟨p.src, p.tag, cookie, key⟩] }))))

/-- Descriptors are accepted, rejected or cancel; steps are composed; deadlines and windows act. WATCH_LINE_SNOOP: a snoop is counted, and a
held watch line is given up and taken again. WATCH_LINE_FILL gives the log its index. SUBMIT: a descriptor whose ring is full waits; one
rejected by a case of R353 gets a REJECT record and HEAD passes; one accepted, with no copy to wait for, fills the lowest FREE slot, writes
its journal record, tail word and ACCEPT record, and HEAD passes. CANCEL marks its request or counts a miss. LOG_RELEASE unfreezes a log.
STEP_ADMISSION: segments count from 1, rows keep to TOK_MAX and decode rows to B_MAX; a step with rows takes the next number with its
captures, and decides BAD at once where a member has already sent a bad verdict. REQUEST_DEADLINE_CHECK: the one request past its deadline,
in no step and with ring room, ends with STOPPED, REASON 1 (stamp and step of that record are open, log 3). BUDGET_WINDOW_ROLL: a new window
begins, steps that commit are charged first where stamped before it, no request stays held by a budget, and with no step committing each
USED falls by its BUDGET, not below 0. (R32, R351, R353, R354, R355, R356, R361, R362, R364, R367, R413, R441) -/
def Obligations.RequestsAreTakenAndEnded : Prop :=
  (∀ (l : WatchLine) (s : State), s.hostUp = true → ∃ r, exec (.watchLineSnoop l) s = .next r ∧
    r.reg64 Reg.CXL_SNOOPS_LO = (s.reg64 Reg.CXL_SNOOPS_LO + 1) % 2 ^ 64 ∧
    r.out = s.out ++ (if s.lineHeld l then [.snoopResponse true, .hostRead (s.lineAt l) 64] else [.snoopResponse false]) ∧
    r.lineHeld l = false ∧ (s.lineHeld l = true → r.lineFilling l = true) ∧ (∀ n : Nat, n ≠ l.log → r.log n = s.log n) ∧
    r = { s with regs := r.regs, logs := r.logs, out := r.out } ∧ s.keepsRegs r [Reg.CXL_SNOOPS_LO, Reg.CXL_SNOOPS_LO + 4]) ∧
  (∀ (l : WatchLine) (index : Word) (s : State), s.hostUp = true → s.lineFilling l = true →
    ∃ r, exec (.watchLineFill l index) s = .next r ∧ r.lineHeld l = true ∧ r.lineFilling l = false ∧
      (∀ n : Nat, n ≠ l.log → r.log n = s.log n) ∧
      (l.outHead = false → (r.log l.log).tail = index ∧ r = { s with logs := r.logs }) ∧
      (l.outHead = true → (r.log l.log).outHead = index ∧
        (index ≠ (s.log l.log).outHead → r.flag (Reg.SRV_LOG_STAT.OUT_WAIT l.log) = false ∧
          ∀ k : Nat, ¬ ((r.request k).state = .held ∧ (r.request k).heldRing = true ∧ (r.request k).log = l.log)) ∧
        r = { s with regs := r.regs, logs := r.logs, requests := r.requests } ∧ s.keepsRegs r [Reg.SRV_LOG_STAT l.log])) ∧
  (∀ (n : Fin 64) (d : List Byte) (prompt : List Word) (stop : List Byte) (res : EndKind) (s : State),
    let got := Output.hostRead (s.logBase n + 256 + 256 * ((s.log n).head.toNat % 2 ^ s.fld (Reg.SRV_LOG_CTL.LOG2N n))) 256
    let head := (s.log n).head
    let record := fun (x : OutRecord) => Output.hostWrite (s.outBase n + 64 * (s.ringIndex n % s.ringSize n))
      (x.bytes (ofBool (s.ringIndex n / s.ringSize n % 2 = 0)))
    let passed := Output.hostWrite (s.logBase n + 64) (natLE 8 (head + 1).toNat ++ natLE 56 0)
    s.mayTake n = true → dsc d 0 1 ≠ 1 → submitFits d stop prompt res = true →
    (s.ringFree n = 0 → exec (.submit n d prompt stop res) s = .next { s with nextLog := (n + 1) % 64, out := s.out ++ [got] }) ∧
    (s.ringFree n ≠ 0 → s.badDescriptor n d = false → badSubmit d (if res = .ok then stop else []) = false →
      (s.rejectCase d res ≠ 0 → ∃ r, exec (.submit n d prompt stop res) s = .next r ∧
        r.reg (Reg.SRV_LOG_OUTIDX n) = s.reg (Reg.SRV_LOG_OUTIDX n) + 1 ∧ (r.log n).head = head + 1 ∧
        (∃ l, r.out = s.out ++ [got] ++ l ++
          [record ⟨0xFFFFFFFF, 0, 2, codeAborted, head.toNat, 0, s.rejectCase d res, s.tick, dsc d 8 8, 0⟩, passed]) ∧
        r = { s with regs := r.regs, logs := r.logs, nextLog := r.nextLog, out := r.out } ∧
        s.keepsRegs r [Reg.SRV_LOG_OUTIDX n, Reg.SRV_LOG_STAT n]) ∧
      (∀ slot : Nat,
        let q := (newRequest n head (s.request slot).gen d stop prompt).stamped s.tick
        s.rejectCase d res = 0 → s.jmode = 3 → s.freeSlot 131072 0 = some slot → s.jrnlRoom (1 + q.acceptLines) = true →
        ∃ r, exec (.submit n d prompt stop res) s = .next r ∧
          r.request slot = q ∧ q.state = .queued ∧ (∀ k : Nat, k ≠ slot → r.request k = s.request k) ∧
          r.reg (Reg.SRV_LOG_OUTIDX n) = s.reg (Reg.SRV_LOG_OUTIDX n) + 1 ∧ (r.log n).head = head + 1 ∧ (r.log n).accepting = none ∧
          r.reg64 Reg.SRV_ACCEPTS_LO = (s.reg64 Reg.SRV_ACCEPTS_LO + 1) % 2 ^ 64 ∧
          r.journal.nextSeq = s.journal.nextSeq + 1 ∧ r.journal.tail = max s.journal.tail s.journal.nextSeq ∧
          (∃ l, r.out = s.out ++ [got] ++ l ++ [record (q.acceptance slot s.tick), passed]) ∧
          s.keepsMem r s.jrnlBase (64 * s.jrnlLines) ∧
          r = { s with
            regs := r.regs
            mem := r.mem
            hearth := r.hearth
            logs := r.logs
            nextLog := r.nextLog
            requests := r.requests
            journal := r.journal
            out := r.out
            free := r.free } ∧
          s.keepsRegs r ([Reg.SRV_LOG_OUTIDX n, Reg.SRV_LOG_STAT n, Reg.SRV_STATUS, Reg.SRV_ACCEPTS_LO, Reg.SRV_ACCEPTS_LO + 4] ++ hearthRegs)))) ∧
  (∀ (n : Fin 64) (d : List Byte) (s : State), s.mayTake n = true → dsc d 0 1 = 1 → s.badDescriptor n d = false →
    ∃ r, exec (.cancel n d) s = .next r ∧ (r.log n).head = (s.log n).head + 1 ∧
      (if s.cancels n (dsc d 72 4) then
        r.requests = (s.modRequest (dsc d 72 4 / 2 ^ 15) (fun q => { q with cancelled := true })).requests ∧
          s.keepsRegs r [Reg.SRV_LOG_STAT n]
      else r.requests = s.requests ∧ r.reg Reg.SRV_CANCEL_MISS = s.reg Reg.SRV_CANCEL_MISS + 1 ∧
        s.keepsRegs r [Reg.SRV_LOG_STAT n, Reg.SRV_CANCEL_MISS]) ∧
      r = { s with regs := r.regs, logs := r.logs, requests := r.requests, nextLog := r.nextLog, out := r.out }) ∧
  (∀ (n : Fin 64) (v : Word) (s : State), s.live = true → bitOf v.toNat 30 = true → ∃ r, exec (.logRelease .firmware n v) s = .next r ∧
    r.flag (Reg.SRV_LOG_STAT.FROZEN n) = false ∧ r.reg (Reg.SRV_LOG_CTL n) = v &&& 0x80FFFF00 ∧
    (s.flag (Reg.SRV_LOG_CTL.EN n) = true → bitOf v.toNat 31 = false → (r.log n).tailHeld = false ∧ (r.log n).outHeld = false) ∧
    r = { s with regs := r.regs, logs := r.logs, out := r.out } ∧ s.keepsRegs r [Reg.SRV_LOG_CTL n, Reg.SRV_LOG_STAT n]) ∧
  (∀ (p : Fin 12) (s : State),
    let t := s.endWaiting p
    let c := (t.compose p).1
    let n := (s.part p).nextStep
    c.rows.map (·.segment) = List.range' 1 c.rows.length ∧ (c.rows.map (·.rows)).sum ≤ t.fld (Reg.SRV_P_CAP.TOK_MAX p) ∧
    (c.rows.filter (fun w => !w.prompt)).length ≤ t.fld (Reg.SRV_P_CAP.B_MAX p) ∧
    (s.mayAdmit p = true → (∀ w ∈ s.setsOf p, s.wsCapt w (s.wsCur w) ≠ 2 ^ 32 - 1) →
      (c.rows = [] → s.heardBad p n = none → exec (.stepAdmission p) s = .next c.s) ∧
      (c.rows ≠ [] → ∀ x, s.heardBad p n = some x → ∃ r, exec (.stepAdmission p) s = .next r ∧ (r.part p).nextStep = (n + 1) % 2 ^ 48 ∧
        (∀ o ∈ (r.part p).steps, o.n = n → o.open_ = false) ∧ r.fld (Reg.SLG_P_VSTAT.LAST_DEC p) = 2 ∧
        r.fld (Reg.SLG_P_VSTAT.CAUSE p) = x % 256) ∧
      (c.rows ≠ [] → s.heardBad p n = none → ∃ r, exec (.stepAdmission p) s = .next r ∧ (r.part p).nextStep = (n + 1) % 2 ^ 48 ∧
        (r.part p).steps = (s.part p).steps ++
          [⟨n, c.s.fld (Reg.PRT_P_STAT.RESIDENT p), c.rows, (c.s.setsOf p).map c.s.captureSet, .running, BitVec.ofNat 64 s.tick, 0, 0, 0, [],
            false⟩] ∧
        r.requests = c.s.requests ∧ r.mem = s.mem))) ∧
  (∀ (s : State) (slot : Nat),
    let q := s.request slot
    s.live = true → s.onBoundary = true →
    s.slotsBy (fun r => r.live && r.state != .inStep && decide (r.deadline ≤ s.strike)) (fun _ => 0) = [slot] →
    s.ringFree q.log ≠ 0 → q.log < 64 → (∀ c ∈ q.gens, c.set < 512 ∧ c.slot < 2) →
    ∃ r, exec .requestDeadlineCheck s = .next r ∧ r.request slot = { Request.free with gen := q.gen } ∧
      (∀ k : Nat, k ≠ slot → r.request k = s.request k) ∧ r.reg (Reg.SRV_LOG_OUTIDX q.log) = s.reg (Reg.SRV_LOG_OUTIDX q.log) + 1 ∧
      (∃ stamp step : Nat,
        let w := s.putRecord q.log (s.ringIndex q.log) ⟨q.id slot, q.pos, 5, codeStopped, 0, 0, 1, stamp, 0, step⟩
        r.out = w.out ∧ r.outHeld = w.outHeld) ∧
      r = { s with
        regs := r.regs
        requests := r.requests
        journal := { s.journal with ended := s.journal.ended ++ [(slot, q.gen)] }
        out := r.out
        outHeld := r.outHeld
        free := s.free + 1 } ∧
      s.keepsRegs r (Reg.SRV_LOG_OUTIDX q.log :: q.gens.flatMap (fun c => [Reg.CFG_WS_CAPT c.set c.slot, Reg.CFG_WS_W0 c.set]))) ∧
  (∀ s : State, s.rollDue = true → ∃ r, exec .budgetWindowRoll s = .next r ∧ r.budgetStart = s.strike ∧
    r.budgetLen = max 1 (s.fld Reg.SRV_WIN.STRIKES) ∧ r.boundary = 4 ∧
    (∀ k : Nat, ¬ ((r.request k).state = .held ∧ (r.request k).heldRing = false)) ∧
    (∀ p < 12, ∀ o ∈ (r.part p).steps, s.endedWith o = true → o.charged = true) ∧ r.mem = s.mem ∧
    s.keepsRegs r ((List.range 4096).map Reg.SRV_ACCT_USED)) ∧
  (∀ s : State, s.live = true → s.place 4 = true → s.strike % s.budgetLen = 0 → s.strike ≠ s.budgetStart →
    (∀ p < 12, ∀ o ∈ (s.part p).steps, o.phase.commits = false) → ∃ r, exec .budgetWindowRoll s = .next r ∧
      (∀ a < 4096, (r.reg (Reg.SRV_ACCT_USED a)).toNat = (s.reg (Reg.SRV_ACCT_USED a)).toNat - (s.reg (Reg.SRV_ACCT_BUDGET a)).toNat) ∧
      (∀ k : Nat, ¬ ((r.request k).state = .held ∧ (r.request k).heldRing = false)) ∧
      r = { s with
        regs := r.regs
        requests := r.requests
        budgetStart := s.strike
        budgetLen := max 1 (s.fld Reg.SRV_WIN.STRIKES)
        boundary := 4 } ∧
      s.keepsRegs r ((List.range 4096).map Reg.SRV_ACCT_USED))

/-- A step ends, is judged with the verdicts of its group, and commits in the order of Table 15-6. STEP_END, with no digests of the step:
its number is written to the region and the step is ended at its tick, and GOOD is sent to the group; where a cause has marked it, or a bad
verdict for it has been heard, it and every later open step decide BAD with that cause. VERDICT_RECEIVE: GOOD is heard by every partition of
its group, BAD of a step that is not open is only heard, BAD or DECIDED_BAD for an open step decides it BAD with its cause, and COMMITTED is
a split. VERDICT_WINDOW_EXPIRY: an ended step that a cause has marked decides BAD, and so does one whose window closes with verdicts
missing, with cause 0x10. VERDICT_GOOD_DECISION: while its window is not open, or with results that a step cannot have, nothing happens;
else the step decides GOOD and its COMMIT record joins the journal, or waits under JRNL_FULL. COMMIT_RECORD_ACK: once that record is
acknowledged the tail words name it. TAIL_WORD_ACK: once they are, and earlier commits are done, the step is gone, REPLAYS is 0 and
SRV_Pp_STEP holds its number; its request, if one that goes on and uses no new generation, is as the record leaves it, its tokens stand in
its ring and LENGTH in its KV contexts. (R268, R363, R366, R399, R402, R411, R412, R413, R414, Table 15-6, Table 17-5) -/
def Obligations.StepsAreDecidedAndCommitted : Prop :=
  (∀ (p : Fin 12) (n : BitVec 48) (o : OpenStep) (s : State),
    let j := s.fld (Reg.PRT_P_STAT.RESIDENT p)
    let now := BitVec.ofNat 64 s.tick
    let ended := (s.part p).steps.map (fun x =>
      if x.n = n.toNat ∧ x.phase = .running then { x with phase := .ended, endTick := now } else x)
    let ends := fun (q : State) => (q.part p).steps = ended ∧ q.num (s.slgBase p j) 6 = n.toNat ∧ s.keepsMem q (s.slgBase p j) 6 ∧
      q = { s with regs := q.regs, mem := q.mem, hearth := q.hearth, tiles := q.tiles, parts := q.parts } ∧ s.keepsRegs q hearthRegs
    let decidesBad := fun (t r : State) (cause : Nat) =>
      (r.part p).steps = ended.map (fun x => if n.toNat ≤ x.n ∧ x.open_ then { x with phase := .bad } else x) ∧
        r.fld (Reg.SLG_P_VSTAT.LAST_DEC p) = 2 ∧ r.fld (Reg.SLG_P_VSTAT.CAUSE p) = cause % 256 ∧
        (r.reg (Reg.SLG_P_LAST_LO p)).toNat = n.toNat % 2 ^ 32 ∧ r.mem = t.mem
    s.hasJob p = true → s.flag (Reg.SLG_P_JOB_CTL.VALID p j) = true → s.openStep p n.toNat = some o → o.phase = .running → o.job = j →
    (∀ d ∈ (s.part p).digests, d.step ≠ n.toNat) → ∃ q : State, ends q ∧
      (o.cause = 0 → s.heardBad p n.toNat = none → exec (.stepEnd p n) s = .next (q.sendVerdicts p n.toNat 1 0 now)) ∧
      (∀ x, o.cause = 0 → s.heardBad p n.toNat = some x → ∃ r, exec (.stepEnd p n) s = .next r ∧ decidesBad q r x) ∧
      (o.cause ≠ 0 → ∃ r, exec (.stepEnd p n) s = .next r ∧ decidesBad q r o.cause ∧
        let t := q.sendVerdicts p n.toNat 2 o.cause now
        r = { t with regs := r.regs, parts := r.parts, out := r.out } ∧
          t.keepsRegs r [Reg.SLG_P_VSTAT p, Reg.SLG_P_LAST_LO p, Reg.SLG_P_LAST_HI p])) ∧
  (∀ (g m : Fin 64) (body : List Byte) (s : State) (p : Nat),
    let f := fun o k => leNat ((body.drop o).take k)
    let n := f 0 6
    let hear := (s.part p).heard ++ [⟨n, m, f 6 1, f 16 1, s.verdictStamp m body⟩]
    s.live = true → s.flag Reg.SLG_CTRL.VERDICT_EN = true → bitOf (s.groupMask g) m = true → (m : Nat) ≠ s.ownLogical → f 7 1 = g →
    p < 12 → ∃ r, exec (.verdictReceive g m body) s = .next r ∧
      (¬ (s.flag (Reg.SLG_P_VCTRL.VG_EN p) = true ∧ s.vgrp p = g) → f 6 1 ≤ 2 → r.part p = s.part p) ∧
      (s.flag (Reg.SLG_P_VCTRL.VG_EN p) = true → s.vgrp p = g →
        (f 6 1 = 1 → r.part p = { s.part p with heard := hear } ∧ r.requests = s.requests ∧ r.journal = s.journal ∧ r.mem = s.mem) ∧
        (f 6 1 = 2 → s.openStep p n = none → r.part p = { s.part p with heard := hear } ∧ r.mem = s.mem) ∧
        (f 6 1 = 2 ∨ f 6 1 = 3 → (∀ q < 12, s.committed q n = false) → s.openStep p n ≠ none →
          r.part p = { s.part p with
            heard := hear
            steps := (s.part p).steps.map (fun x => if n ≤ x.n ∧ x.open_ then { x with phase := .bad } else x) } ∧
          r.fld (Reg.SLG_P_VSTAT.LAST_DEC p) = 2 ∧ r.fld (Reg.SLG_P_VSTAT.CAUSE p) = f 16 1 ∧
          (r.reg (Reg.SLG_P_LAST_LO p)).toNat = n % 2 ^ 32 ∧ r.requests = s.requests ∧ r.journal = s.journal ∧ r.mem = s.mem) ∧
        (f 6 1 = 4 → (∀ q < 12, s.partFirst q + s.partCount q ≤ 12) → (∀ c ∈ s.collectives, c.mover < 64) →
          r.flag Reg.SLG_STATUS.SPLIT = true ∧ ∀ x ∈ (r.part p).steps, x.phase.commits = true))) ∧
  (∀ (p : Fin 12) (o : OpenStep) (s : State), s.undecided p = some o → s.live = true → o.phase = .ended →
    let decidesBad := fun (r : State) (cause : Nat) =>
      (r.part p).steps = (s.part p).steps.map (fun x => if o.n ≤ x.n ∧ x.open_ then { x with phase := .bad } else x) ∧
        r.fld (Reg.SLG_P_VSTAT.LAST_DEC p) = 2 ∧ r.fld (Reg.SLG_P_VSTAT.CAUSE p) = cause % 256 ∧ r.requests = s.requests ∧
        r.journal = s.journal ∧ r.mem = s.mem
    (o.cause ≠ 0 → ∃ r, exec (.verdictWindowExpiry p) s = .next r ∧ decidesBad r o.cause) ∧
    (o.cause = 0 → ∃ r, exec (.verdictWindowExpiry p) s = .next r ∧
      (if s.flag Reg.TIME_STATUS.ALIGNED = true ∧ s.verdictWaits p = false ∧ s.windowEnd p o ≤ s.tick ∧ s.missing p o ≠ [] then
        decidesBad r 0x10 ∧ r.fld (Reg.SLG_P_VSTAT.MISSING p) = (s.missing p o).length
      else r = s))) ∧
  (∀ (p : Fin 12) (results : List StepResult) (o : OpenStep) (s : State), s.undecided p = some o → s.live = true → o.phase = .ended →
    o.cause = 0 →
    (s.goodNow p o = false ∨ s.mayEmit o results = false → exec (.verdictGoodDecision p results) s = .next s) ∧
    (s.goodNow p o = true → s.mayEmit o results = true →
    ∃ r, exec (.verdictGoodDecision p results) s = .next r ∧
      (s.roomFor (commitLines o) = none → r.flag Reg.SRV_STATUS.JRNL_FULL = true ∧ s.onlyRegs r [Reg.SRV_STATUS]) ∧
      (s.jrnlRoom (commitLines o) = true →
        (r.part p).steps = (s.part p).steps.map (fun x => if x.n = o.n then
          { x with phase := .committing 1, commitTick := BitVec.ofNat 64 s.tick, results := results } else x) ∧
        r.fld (Reg.SLG_P_VSTAT.LAST_DEC p) = 1 ∧ (r.reg (Reg.SLG_P_LAST_LO p)).toNat = o.n % 2 ^ 32 ∧ r.requests = s.requests ∧
        (∃ x, r.journal.records.getLast? = some x ∧ x.type = 2 ∧ x.seq = s.journal.nextSeq ∧ x.part = p ∧ x.step = o.n ∧
          x.captures = o.captures ∧ x.results = results ∧
          x.requests = o.slots.map (fun w =>
            (w.slot, (s.request w.slot).committed w (resultOf results w.slot) o.captures (BitVec.ofNat 64 s.tick)))) ∧
        r.journal.nextSeq = s.journal.nextSeq + 1 ∧ r.journal.tail = s.journal.tail))) ∧
  (∀ (p : Fin 12) (o : OpenStep) (x : JournalRecord) (s : State), s.commitAt p 1 = some o → s.commitRecord p o.n = some x → s.live = true →
    ∃ r, exec (.commitRecordAck p) s = .next r ∧
      (if s.recordsAcked x.seq then
        r.journal = { s.journal with tail := max s.journal.tail x.seq } ∧ r.requests = s.requests ∧
          (r.part p).steps = (s.part p).steps.map (fun y => if y.n = o.n then { y with phase := .committing 2 } else y) ∧
          s.keepsMem r s.jrnlBase 64
      else r = s)) ∧
  (∀ (p : Fin 12) (o : OpenStep) (x : JournalRecord) (s : State), s.commitAt p 2 = some o → s.commitRecord p o.n = some x → s.live = true →
    (s.tailAcked = false ∨ s.commitsBefore x.seq = true → exec (.tailWordAck p) s = .next s) ∧
    (s.tailAcked = true → s.commitsBefore x.seq = false → (s.rollDue = true → s.endedWith o = true) →
    ∃ r, exec (.tailWordAck p) s = .next r ∧
      (r.part p).steps = (s.part p).steps.filter (fun y => y.n != o.n) ∧ r.reg (Reg.SLG_P_REPLAYS p) = 0 ∧
      r.fld (Reg.SRV_P_STEP_LO.STEP p) = o.n % 2 ^ 32 ∧ r.fld (Reg.SRV_P_STEP_HI.STEP p) = o.n / 2 ^ 32 % 2 ^ 16 ∧
      (∀ (slot : Nat) (q : Request) (idx : Word), x.requests = [(slot, q)] → x.ringSlots = [(slot, idx)] → q.ending = none →
        (∀ c ∈ q.gens, c ∈ (s.request slot).gens) →
        let w := s.putRecords q.log idx.toNat (commitRecords o.n o.commitTick slot q (q.newTokens (s.request slot)))
        r.request slot = { q with cancelled := (s.request slot).cancelled, deferred := (s.request slot).deferred } ∧
          r.out = w.out ∧ r.outHeld = w.outHeld ∧
          ∀ k ∈ s.kvParts q, r.num (State.kvRecord k slot + 8) 6 = q.kvLen % 2 ^ 48)))

/-- The journal's copy moves when the buddy is lost or returns; recovery rebuilds the requests from it. With no acceptance under way:
JOURNAL_MIRROR_LOSS, once a write to the buddy has failed, sets MIRROR_LOST and ends the writes to it; the copy moves to host memory, whose
tail word is written last, where HOSTJ_EN and the host allow, and else journaling stalls. JOURNAL_MIRROR_RESTORE: when the buddy returns,
JMODE names it again. RECOVERY waits for the tiers, for time, for the copy, for the logs that its records name and for ring room; it then
keeps the records up to the tail word, sets every live request to be prefilled anew, leaves no residency entry FETCHING, and clears
RECOVERING; a request that one ACCEPT or COMMIT record alone holds is as that record leaves it. JOURNAL_FETCH keeps the copy for its module,
and JOURNAL_DONE frees it. (R263, R368, R369, R370, R371) -/
def Obligations.JournalIsMirroredAndRecovered : Prop :=
  (∀ (hostWritable : Bool) (s : State), s.live = false ∨ s.jmode ≠ 0 ∨ s.journal.unmirrored = false →
    exec (.journalMirrorLoss hostWritable) s = .next s) ∧
  (∀ (hostWritable : Bool) (s : State), s.live = true → s.jmode = 0 → s.journal.unmirrored = true → s.noneWaits →
    (∀ n < 64, (s.log n).accepting = none) → ∃ r, exec (.journalMirrorLoss hostWritable) s = .next r ∧ r.flag Reg.SRV_STATUS.MIRROR_LOST = true ∧
      r.jmode = (if s.flag Reg.SRV_CTRL.HOSTJ_EN && hostWritable then 1 else 2) ∧ (∀ o ∈ r.outstanding, o.issuer ≠ .journal) ∧
      (s.flag Reg.SRV_CTRL.HOSTJ_EN = true → hostWritable = true → s.hostUp = true →
        r.out.getLast? = some (.hostWrite s.jrnlHost (s.bytes s.jrnlBase 64))) ∧
      r = { s with
        regs := r.regs
        hearth := r.hearth
        outstanding := r.outstanding
        lateTags := r.lateTags
        journal := { s.journal with unmirrored := false }
        out := r.out
        outHeld := r.outHeld } ∧
      s.keepsRegs r (Reg.SRV_STATUS :: hearthRegs)) ∧
  (∀ s : State, s.live = true → s.flag Reg.SRV_CTRL.BUDDY_EN = true → (s.jmode = 1 ∨ s.jmode = 2) → s.buddyReachable = true →
    (∀ n < 64, (s.log n).accepting = none) → ∃ r, exec .journalMirrorRestore s = .next r ∧ r.jmode = 0 ∧ r.mem = s.mem ∧
      r.journal = { s.journal with unmirrored := false } ∧ r.requests = s.requests ∧ r.logs = s.logs) ∧
  (∀ s : State,
    let t := s.rebuild
    (s.live = false ∨ s.flag Reg.SRV_STATUS.RECOVERING = false ∨ s.hotReady = false ∨ s.flag Reg.TIME_STATUS.ALIGNED = false ∨
      s.copyReachable = false ∨ s.namedLogs.all s.logKnown = false ∨ t.eventsFit = false → exec .recovery s = .next s) ∧
    (s.live = true → s.flag Reg.SRV_STATUS.RECOVERING = true → s.hotReady = true → s.flag Reg.TIME_STATUS.ALIGNED = true →
      s.copyReachable = true → s.namedLogs.all s.logKnown = true → t.eventsFit = true → ∃ r, exec .recovery s = .next r ∧ r.flag Reg.SRV_STATUS.RECOVERING = false ∧
        r.journal.records = s.complete ∧ r.journal.nextSeq = s.journal.tail + 1 ∧ r.journal.inHost = false ∧ r.leftFetching = [] ∧
        (∀ slot ∈ t.liveSlots, r.request slot = (t.request slot).again ∧ (r.request slot).state = .queued ∧
          (r.request slot).done = 0 ∧ (r.request slot).kvLen = 0) ∧
        (∀ (slot : Nat) (q : Request), s.complete.flatMap (·.requests) = [(slot, q)] → q.ending = none → (slot, q.gen) ∉ s.journal.ended →
          q.deadline ≠ 0 → q.live = true → r.request slot = q.again ∧ ∀ k : Nat, k ≠ slot → r.request k = Request.free))) ∧
  (∀ (m : Fin 64) (s : State), s.live = true → s.jrnlLines ≠ 0 → ∃ r, exec (.journalFetch m) s = .next r ∧
    r.journal = { s.journal with keptFor := m :: s.journal.keptFor.erase m } ∧ r.mem = s.mem ∧ r.requests = s.requests ∧
    r.free = s.free + 1) ∧
  (∀ (m : Fin 64) (s : State), exec (.journalDone m) s =
    .next { s with journal := { s.journal with keptFor := s.journal.keptFor.erase m } })

/-- PREEMPT, slices and the stages of a switch; RESET and RELEASE of partitions and jobs; contexts. PREEMPT of a partition that is ON starts
the save of its resident job, or is latched in a switch. PARTITION_RESET of one at rest, no fault but SHAPE_LIMIT pending, leaves its tiles
IDLE and empty, nothing of it in flight and no valid Active set; in a switch it is latched. PARTITION_RELEASE of a frozen job with no
instruction held lets it go on. JOB_RELEASE clears a saved job's pending fault. JOB_RESET, no fault pending, makes a saved job FRESH, resets
a resident one with its partition, and is latched in a switch. JOB_CONTEXT_VALID makes a NONE job FRESH and, cleared, drops a job at rest.
TIME_SLICE: the selected job gets the slice, coming in unless it is resident. STOP_COMPLETE of a settled stop, no load in progress and no
line of the contexts being filled, writes the outgoing job's context. SAVE_COMPLETE, while no firmware march runs on its tiles and no line
of the record is being filled, makes the job SAVED; the incoming one follows, or the switch ends. RESTORE_COMPLETE, under the same
conditions, its images loaded and its measurements right: the job becomes RESIDENT and the switch ends. (R171, R292, R381, R383, R385, R388,
R392, R394, R395, Table 16-2) -/
def Obligations.JobsAreSwitchedResetAndReleased : Prop :=
  (∀ (p : Fin 12) (s : State), s.live = true →
    (s.partState p ≠ 2 → exec (.preempt .firmware p 0x80000000) s = .next s ∧ exec (.partitionReset .firmware p 0x40000000) s = .next s ∧
      exec (.partitionRelease .firmware p 0x20000000) s = .next s) ∧
    (s.partState p = 2 → s.switching p = true →
      (∃ r, exec (.preempt .firmware p 0x80000000) s = .next r ∧ r.flag (Reg.PRT_P_STAT.PREEMPT_PENDING p) = true ∧
        (r.part p).preemptLatched = true ∧ r = { s with regs := r.regs, parts := r.parts } ∧ s.keepsRegs r [Reg.PRT_P_STAT p]) ∧
      (∃ r, exec (.partitionReset .firmware p 0x40000000) s = .next r ∧ r.flag (Reg.PRT_P_STAT.RESET_BUSY p) = true ∧
        (r.part p).resetLatched = true ∧ r = { s with regs := r.regs, parts := r.parts } ∧ s.keepsRegs r [Reg.PRT_P_STAT p])) ∧
    (∀ j : Nat, s.partState p = 2 → s.switching p = false → s.resident p = some j →
      ∃ r, exec (.preempt .firmware p 0x80000000) s = .next r ∧ r.fld (Reg.PRT_P_STAT.SWITCH p) = 1 ∧ r.resident p = none ∧
        r.flag (Reg.PRT_P_STAT.FROZEN p) = false ∧ r.jobState p j = 5 ∧ r.reg64 (Reg.PRT_P_SWTICK_LO p) = s.tick ∧
        (r.part p).outgoing = some j ∧ (r.part p).incoming = none ∧ (r.part p).saving = true ∧
        r = { s with regs := r.regs, parts := r.parts } ∧
        s.keepsRegs r [Reg.PRT_P_STAT p, Reg.PRT_P_SWTICK_LO p, Reg.PRT_P_SWTICK_LO p + 4, Reg.PRT_P_JSTAT p j]) ∧
    (s.partState p = 2 → s.switching p = false → s.partFirst p + s.partCount p ≤ 12 →
      (∀ j, s.resident p = some j → s.otherFault p j = none) → ∃ r, exec (.partitionReset .firmware p 0x40000000) s = .next r ∧
        (∀ t ∈ s.tilesOf p, r.seqState t = 0 ∧ (r.tile t).queues = [] ∧ (r.tile t).engines = []) ∧ r.settled p = true ∧
        r.activeValid p = false ∧ r.flag (Reg.PRT_P_STAT.FROZEN p) = false ∧ (r.part p).faults = [] ∧ (r.part p).steps = (s.part p).steps) ∧
    (s.hasJob p = true → s.partFirst p + s.partCount p ≤ 12 →
      (s.flag (Reg.PRT_P_STAT.FROZEN p) = false → exec (.partitionRelease .firmware p 0x20000000) s = .next s) ∧
      (s.flag (Reg.PRT_P_STAT.FROZEN p) = true → (∀ t ∈ s.tilesOf p, ∀ e < 4, s.engineBusy t e = false) →
        ∃ r, exec (.partitionRelease .firmware p 0x20000000) s = .next r ∧ r.flag (Reg.PRT_P_STAT.FROZEN p) = false ∧
          (r.part p).faults = [] ∧ (r.part p).releaseTick = some (BitVec.ofNat 64 s.tick) ∧ r.mem = s.mem))) ∧
  (∀ (p : Fin 12) (j : Fin 8) (v : Word) (s : State), s.live = true →
    (bitOf v.toNat 26 = true → bitOf v.toNat 25 = false → ∃ r, exec (.jobRelease .firmware p j v) s = .next r ∧
      r.flag (Reg.PRT_P_JSTAT.HOLD p j) = bitOf v.toNat 27 ∧ (s.jobState p j = 2 → r.flag (Reg.PRT_P_JSTAT.FAULT_PENDING p j) = false) ∧
      s.onlyRegs r [Reg.PRT_P_JSTAT p j]) ∧
    (bitOf v.toNat 25 = true → s.flag (Reg.PRT_P_JSTAT.FAULT_PENDING p j) = false →
      (s.switching p = false → s.resident p ≠ some (j : Nat) → s.jobState p j = 2 → ∃ r, exec (.jobReset .firmware p j v) s = .next r ∧
        r.jobState p j = 1 ∧ r.savedJob p j = Saved.none ∧ r = { s with regs := r.regs, saved := r.saved } ∧
        s.keepsRegs r [Reg.PRT_P_JSTAT p j]) ∧
      (s.switching p = false → s.resident p = some (j : Nat) → s.otherFault p j = none → s.partFirst p + s.partCount p ≤ 12 →
        ∃ r, exec (.jobReset .firmware p j v) s = .next r ∧ r.jobState p j = 1 ∧ r.resident p = none ∧
          (r.part p).jobRestart = some (j : Nat) ∧ ∀ t ∈ s.tilesOf p, r.seqState t = 0 ∧ (r.tile t).queues = [] ∧ (r.tile t).engines = []) ∧
      (s.switching p = true → (s.part p).outgoing = some (j : Nat) → s.jobState p j = 5 → ∃ r, exec (.jobReset .firmware p j v) s = .next r ∧
        r.flag (Reg.PRT_P_STAT.RESET_BUSY p) = true ∧ (r.part p).jobResets = (s.part p).jobResets ++ [(j : Nat)] ∧
        r = { s with regs := r.regs, parts := r.parts } ∧ s.keepsRegs r [Reg.PRT_P_JSTAT p j, Reg.PRT_P_STAT p])) ∧
    (∃ r, exec (.jobContextValid .firmware p j v) s = .next r ∧
      (s.jobState p j ∈ [3, 4, 5] → r = s) ∧
      (s.jobState p j = 0 → bitOf v.toNat 0 = true → r.jobState p j = 1 ∧ r.fld (Reg.PRT_P_JOB_CTX_LO.ADDR p j) = bits v.toNat 12 20 ∧
        r.flag (Reg.PRT_P_JOB_CTX_LO.VALID p j) = true) ∧
      (s.jobState p j ∉ [3, 4, 5] → bitOf v.toNat 0 = false → r.jobState p j = 0 ∧ r.flag (Reg.PRT_P_JOB_CTX_LO.VALID p j) = false ∧
        (s.jobState p j ≠ 0 → r.savedJob p j = Saved.none)) ∧
      r = { s with regs := r.regs, saved := r.saved } ∧ s.keepsRegs r [Reg.PRT_P_JOB_CTX_LO p j, Reg.PRT_P_JSTAT p j])) ∧
  (∀ (p : Fin 12) (s : State) (j : Nat), s.live = true → s.place 5 = true → s.partState p = 2 → s.switching p = false →
    (s.part p).sliceSeen ≠ some (BitVec.ofNat 64 s.tick) → (s.part p).sliceLen = max 1 (s.fld (Reg.PRT_P_SLICE.STRIKES p)) →
    s.strike % (s.part p).sliceLen = 0 → (s.part p).coverDue = false → s.sliceJob p (s.strike / (s.part p).sliceLen) = some j →
    ∃ r, exec (.timeSlice p) s = .next r ∧ r.boundary = 5 ∧ (r.part p).sliceSeen = some (BitVec.ofNat 64 s.tick) ∧
      r.fld (Reg.PRT_P_JSTAT.SLICES p j) = (s.fld (Reg.PRT_P_JSTAT.SLICES p j) + 1) % 2 ^ 16 ∧
      r = { s with regs := r.regs, parts := r.parts, boundary := r.boundary } ∧
      (s.resident p = some j → s.keepsRegs r [Reg.PRT_P_JSTAT p j]) ∧
      (s.resident p ≠ some j → r.fld (Reg.PRT_P_STAT.SWITCH p) = 1 ∧ r.reg64 (Reg.PRT_P_SWTICK_LO p) = s.tick ∧
        r.resident p = none ∧ r.jobState p j = 3 ∧ (r.part p).incoming = some j ∧ (r.part p).outgoing = s.resident p ∧
        (∀ k, s.resident p = some k → r.jobState p k = 5))) ∧
  (∀ (p : Fin 12) (j : Nat) (s : State),
    let a := s.ctxAt p j
    s.fld (Reg.PRT_P_STAT.SWITCH p) = 1 → s.settled p = true → s.loads.any (·.part == p) = false → s.contextsReady p = true →
    (s.part p).outgoing = some j → (s.part p).incoming = none →
    ∃ r, exec (.stopComplete p) s = .next r ∧ r.fld (Reg.PRT_P_STAT.SWITCH p) = 2 ∧ (r.part p).stopTick = BitVec.ofNat 64 s.tick ∧
      r.num (a + 24) 8 = (if s.activeValid p then s.reg64 (Reg.CFG_P_AIMG_LO p) else 0) ∧ r.num (a + 42) 2 = ((s.part p).drain + ofBool (s.part p).armedRan) % 2 ^ 16 ∧
      s.keepsMem r a 128 ∧ s.keepsRegs r ([Reg.PRT_P_STAT p, Reg.XLT_STATUS] ++ hearthRegs)) ∧
  (∀ (p : Fin 12) (j : Fin 8) (s : State), s.fld (Reg.PRT_P_STAT.SWITCH p) = 2 → (s.part p).saving = true →
    (s.part p).outgoing = some (j : Nat) → s.marching p = false → s.recordFilling p j = false →
    (∀ i, (s.part p).incoming = some i → (s.part p).loaded = false → ∃ r, exec (.saveComplete p) s = .next r ∧ r.fld (Reg.PRT_P_STAT.SWITCH p) = 3 ∧ r.jobState p j = 2 ∧
      r.flag (Reg.PRT_P_JSTAT.FAULT_PENDING p j) = !(s.part p).faults.isEmpty ∧ (r.part p).saving = false ∧ (r.part p).faults = [] ∧
      r.num (s.ctxAt p j + 224) 8 = s.tick ∧ s.keepsRegs r ([Reg.PRT_P_STAT p, Reg.PRT_P_JSTAT p j] ++ hearthRegs)) ∧
    ((s.part p).incoming = none → (s.part p).resetLatched = false → (s.part p).jobResets = [] → (s.part p).preemptLatched = false →
      (s.part p).sliceLatched = false → s.flag (Reg.PRT_P_STAT.DISABLE_PENDING p) = false → ∃ r, exec (.saveComplete p) s = .next r ∧
      r.fld (Reg.PRT_P_STAT.SWITCH p) = 0 ∧ r.jobState p j = 2 ∧ r.flag (Reg.PRT_P_JSTAT.FAULT_PENDING p j) = !(s.part p).faults.isEmpty ∧
      r.fld (Reg.PRT_P_SWITCHES.VALUE p) = (s.fld (Reg.PRT_P_SWITCHES.VALUE p) + 1) % 2 ^ 32 ∧ (r.part p).outgoing = none ∧
      r.num (s.ctxAt p j + 224) 8 = s.tick ∧
      s.keepsRegs r ([Reg.PRT_P_STAT p, Reg.PRT_P_JSTAT p j, Reg.PRT_P_SWITCHES p] ++ hearthRegs))) ∧
  (∀ (p : Fin 12) (j : Fin 8) (s : State),
    let x := s.part p
    x.incoming = some (j : Nat) → 2 ≤ s.fld (Reg.PRT_P_STAT.SWITCH p) → x.saving = false → x.loaded = true → x.measBad = false →
    s.marching p = false → s.recordFilling p j = false →
    s.partFirst p + s.partCount p ≤ 12 → x.resetLatched = false → x.jobResets = [] → x.preemptLatched = false → x.sliceLatched = false →
    s.flag (Reg.PRT_P_STAT.DISABLE_PENDING p) = false → ∃ r, exec (.restoreComplete p .ok) s = .next r ∧
      r.fld (Reg.PRT_P_STAT.SWITCH p) = 0 ∧ r.resident p = some (j : Nat) ∧ r.jobState p j = 4 ∧ r.savedJob p j = Saved.none ∧
      r.fld (Reg.PRT_P_SWITCHES.VALUE p) = (s.fld (Reg.PRT_P_SWITCHES.VALUE p) + 1) % 2 ^ 32 ∧ (r.part p).incoming = none ∧
      (r.part p).outgoing = none)

/-- Bad steps are replayed or abandoned; spark passes cover the tiles and quarantine those that fail. ROLLBACK takes the next EPOCH; at
MAXREPLAY no step that does not commit is left and REPLAYS is 0; below it the bad steps run again and REPLAYS counts, unless a tile of the
run awaits its targeted pass or is QUARANTINED, when they stay rolled back. SHAPE_OVERRUN_RECOVERY of one that names one request of a step:
that request ends, its rows are padding, and the step is rolled back with every later open one and those already bad, and runs again under
the same condition. SPARK_UNIT: a unit that halts in time with its signature moves the pass on, and the last completes it; any other
quarantines the tile and is counted. SPARK_ROTATION offers the idle tiles in the order of their last pass. COVER_DUE: from three quarters of
a period on, tiles still due are shown, and their partitions pre-empted under FORCE_EN. COVERAGE_PERIOD_END marks missed coverage, starts
every pass count anew, and puts a held pack in force. (R260, R407, R408, R409, R410, R415, R417, R418, R419) -/
def Obligations.SilentErrorsAreReplayedAndSearched : Prop :=
  (∀ (p : Fin 12) (s : State), s.live = true → s.partFirst p + s.partCount p ≤ 12 → (∀ c ∈ s.collectives, c.mover < 64) →
    (∀ o ∈ s.badSteps p, o.job < 8) → s.badSteps p ≠ [] →
    let runsAgain := fun (r : State) => r.reg (Reg.SLG_P_REPLAYS p) = s.reg (Reg.SLG_P_REPLAYS p) + 1 ∧
      (r.part p).steps.map (fun o => { o with cause := 0 }) = (s.part p).steps.map (fun o =>
        if o.isBad then { o with phase := .running, cause := 0, endTick := 0 } else { o with cause := 0 }) ∧
      ∀ (i : Nat) (x y : OpenStep), (s.part p).steps[i]? = some x → (r.part p).steps[i]? = some y → x.isBad = true → y.cause = 0
    let waits := fun (r : State) => r.reg (Reg.SLG_P_REPLAYS p) = s.reg (Reg.SLG_P_REPLAYS p) ∧
      (r.part p).steps.map (fun o => { o with cause := 0 }) = (s.part p).steps.map (fun o =>
        if o.isBad then { o with phase := .rolled, cause := 0 } else { o with cause := 0 })
    ((s.badSteps p).all (fun o => o.phase == .rolled) = true → ∃ r, exec (.rollback p) s = .next r ∧ r.mem = s.mem ∧
      s.keepsRegs r [Reg.SLG_P_REPLAYS p] ∧ if s.mayReplay p then runsAgain r else waits r) ∧
    ((s.badSteps p).all (fun o => o.phase == .rolled) = false → ∃ r, exec (.rollback p) s = .next r ∧
      (if s.fld (Reg.SLG_P_VCTRL.MAXREPLAY p) ≤ (s.reg (Reg.SLG_P_REPLAYS p)).toNat then
        r.reg (Reg.SLG_P_REPLAYS p) = 0 ∧ ∀ o ∈ (r.part p).steps, o.phase.commits = true
      else r.fld (Reg.MSH_P_CTRL.EPOCH p) = (s.fld (Reg.MSH_P_CTRL.EPOCH p) + 1) % 256 ∧ if s.mayReplay p then runsAgain r else waits r))) ∧
  (∀ (p : Fin 12) (s : State) (j seg v : Nat) (o : OpenStep) (w : StepRow), s.live = true → s.partFirst p + s.partCount p ≤ 12 →
    (∀ c ∈ s.collectives, c.mover < 64) → s.overrunJob p = some j →
    (s.part p).steps.find? (fun o => o.open_ && o.job == j) = some o → s.overruns p j = [(seg, v)] → s.otherFault p j = none →
    seg ≠ 0 → seg ≠ 0xFFFF → ((s.part p).steps.find? (·.n == o.n)).bind (fun o => o.rows.find? (fun w => w.segment == seg)) = some w →
    ∃ r, exec (.shapeOverrunRecovery p) s = .next r ∧ (r.request w.slot).state = .free ∧
      (s.mayReplay p = false → ∀ x ∈ (r.part p).steps, x.n = o.n → x.phase = .rolled ∨ x.phase.commits = true) ∧
      (s.mayReplay p = true → (r.part p).steps.map (fun x => { x with cause := 0 }) = (s.part p).steps.map (fun x =>
        let y := if x.n = o.n then
          { x with rows := x.rows.map (fun z => if z.segment = seg then { z with segment := 0 } else z) } else x
        if (o.n ≤ x.n ∧ x.open_) ∨ x.isBad then { y with phase := .running, cause := 0, endTick := 0 } else { y with cause := 0 }) ∧
      (∀ (i : Nat) (x y : OpenStep), (s.part p).steps[i]? = some x → (r.part p).steps[i]? = some y → (o.n ≤ x.n ∧ x.open_) ∨ x.isBad → y.cause = 0))) ∧
  (∀ (t : Fin 240) (cycles u : Nat) (signature : DWord) (halted faulted : Bool) (s : State),
    let us := s.packUnits (tileType t)
    let k := (s.sparkTile t).unit
    let good := halted && !faulted && decide (cycles ≤ s.packNum (128 + 64 * u + 16) 4) && signature.toNat == s.packNum (128 + 64 * u + 8) 8
    s.gridLive = true → s.flag Reg.SLG_CTRL.SPARK_EN = true → s.quarantined t = false → s.sparkIdle t = true → us[k]? = some u →
    ∃ r, exec (.sparkUnit t cycles signature halted faulted) s = .next r ∧ r.seqState t = 0 ∧ r.requests = s.requests ∧
      r.parts = s.parts ∧ (∀ v : Nat, v ≠ t → r.sparkTile v = s.sparkTile v) ∧
      (good = false → r.quarantined t = true ∧ r.flag Reg.SLG_STATUS.QUAR_NEW = true ∧
        bitOf (r.reg (Reg.SLG_QUAR (t / 32))).toNat (t % 32) = true ∧
        r.reg Reg.SLG_SPARKFAIL = s.reg Reg.SLG_SPARKFAIL + 1 ∧ (r.sparkTile t).unit = 0 ∧ (r.sparkTile t).passed = (s.sparkTile t).passed) ∧
      (good = true → k + 1 ≠ us.length → r.sparkTile t = { s.sparkTile t with unit := k + 1 } ∧ r.quarantined t = false ∧
        r.reg (Reg.SLG_TILE_STATE t) = s.reg (Reg.SLG_TILE_STATE t)) ∧
      (good = true → k + 1 = us.length → r.sparkTile t = { s.sparkTile t with unit := 0, passed := true, served := false, target := false } ∧
        r.reg64 (Reg.SLG_TILE_PASS_LO t) = s.tick ∧
        r.fld (Reg.SLG_TILE_STATE.PASSES t) = (s.fld (Reg.SLG_TILE_STATE.PASSES t) + 1) % 2 ^ 16 ∧ r.quarantined t = false)) ∧
  (∀ s : State, s.live = true → s.place 6 = true → ∃ r, exec .sparkRotation s = .next r ∧
    r.offered.Perm ((List.range 240).filter (fun t => !s.quarantined t && s.sparkIdle t)) ∧
    r.offered.Pairwise (fun a b => s.reg64 (Reg.SLG_TILE_PASS_LO a) ≤ s.reg64 (Reg.SLG_TILE_PASS_LO b)) ∧
    r = { s with offered := r.offered, boundary := 6 }) ∧
  (∀ s : State, s.live = true → s.onBoundary = true → 3 * (s.coverLen / 4) ≤ s.strike % s.coverLen → ∃ r, exec .coverDue s = .next r ∧
    r.flag Reg.SLG_STATUS.COVER_DUE = !s.dueTiles.isEmpty ∧ r.flag Reg.SLG_DUE.VALID = !s.dueTiles.isEmpty ∧
    r.fld Reg.SLG_DUE.TILE = s.dueTiles.headD 0 ∧
    (∀ p : Nat, r.part p = { s.part p with coverDue := (s.part p).coverDue ||
      (s.flag Reg.SLG_CTRL.FORCE_EN && (s.dueTiles.filterMap s.partOf).contains p) }) ∧
    r = { s with regs := r.regs, parts := r.parts } ∧ s.keepsRegs r [Reg.SLG_STATUS, Reg.SLG_DUE]) ∧
  (∀ s : State,
    let pending := s.flag Reg.SLG_STATUS.PACK_PENDING
    s.live = true → s.onBoundary = true → s.strike % s.coverLen = 0 → s.strike / s.coverLen ≠ s.coverPeriod →
    ∃ r, exec .coveragePeriodEnd s = .next r ∧ r.coverPeriod = s.strike / s.coverLen ∧
      r.flag Reg.SLG_STATUS.COVER_MISS = (s.flag Reg.SLG_STATUS.COVER_MISS ||
        (List.range 240).any (fun t => !s.quarantined t && !(s.sparkTile t).passed)) ∧
      (∀ t < 240, r.sparkTile t = { s.sparkTile t with passed := false, unit := if pending then 0 else (s.sparkTile t).unit }) ∧
      r.flag Reg.SLG_STATUS.COVER_DUE = false ∧ r.flag Reg.SLG_STATUS.PACK_PENDING = false ∧
      r.security = (if pending then { s.security with pack := s.security.packHeld, packHeld := [] } else s.security) ∧
      r = { s with regs := r.regs, security := r.security, spark := r.spark, coverPeriod := r.coverPeriod, out := r.out } ∧
      s.keepsRegs r [Reg.SLG_STATUS, Reg.SLG_DUE, Reg.SLG_PACK])

/-- Loads take only what their checks pass; fuse commands are gated; SPDM requests are answered. PACK_LOAD and IMAGE_LOAD of an object that
cannot be read end with RESULT 8; of one that fails check k of R424 with RESULT k + 1 and no effect but counts of the Hearth cache; one that
passes is held as the next pack or written into the other flash bank, with RESULT 1. REVOKE_SLOT, RAISE_FW_ARB, RAISE_PACK_ARB,
BLOW_DEBUG_LOCK: a fuse command is turned away while one runs, without the confirm value, or where Table 18-3 refuses it; one on a blown
DEBUG_LOCK ends at once; else it runs, and FUSE_COMMAND_COMPLETE blows its fuses. SEC_FNREL releases functions, from function 0 any but
itself. Before BOOTED every SPDM request is answered Busy; then GET_VERSION, GET_CAPABILITIES, NEGOTIATE_ALGORITHMS, GET_DIGESTS,
GET_CERTIFICATE, CHALLENGE and GET_MEASUREMENTS are answered as the spec states (the codes and places are those of SPDM 1.2, log 24).
DEBUG_SESSION_OPEN sets DEBUG_USED unless DEBUG_LOCK is blown, once booted only where the image permits it. (R410, R424, R426, R427, R428
(18_security.md), R429, R431, R433, R435, Table 18-3, Table 18-5, Table 18-12) -/
def Obligations.SignedObjectsFusesAndAttestation : Prop :=
  (∀ (c : Master → Word → EndKind → Instr) (image : Bool) (v : Word) (res : EndKind) (s : State),
    (c, image) ∈ [(Instr.packLoad, false), (Instr.imageLoad, true)] → s.live = true → bitOf v.toNat 31 = true → bitOf v.toNat 8 = image →
    ∃ r, exec (c .firmware v res) s = .next r ∧ r.flag Reg.SEC_LOAD_CMD.TYPE = image ∧
      (s.loadBase = none ∨ res ≠ .ok → r.fld Reg.SEC_LOAD_CMD.RESULT = 8 ∧ s.onlyRegs r [Reg.SEC_LOAD_CMD]) ∧
      (∀ a, s.loadBase = some a → res = .ok →
        let k := s.checkLoad image (s.memBytes a)
        (k ≠ 0 → r.fld Reg.SEC_LOAD_CMD.RESULT = k + 1 ∧ r = { s with regs := r.regs, hearth := r.hearth } ∧
          s.keepsRegs r (Reg.SEC_LOAD_CMD :: hearthRegs)) ∧
        (k = 0 → r.fld Reg.SEC_LOAD_CMD.RESULT = 1 ∧ (image = false → r.flag Reg.SLG_STATUS.PACK_PENDING = true ∧
          r.security = { s.security with packHeld := s.memBytes a 0 (packLen (s.memBytes a) + 776) } ∧ r.flash = s.flash ∧
          s.keepsRegs r ([Reg.SEC_LOAD_CMD, Reg.SLG_STATUS] ++ hearthRegs)) ∧
        (image = true → s.keepsRegs r (Reg.SEC_LOAD_CMD :: hearthRegs) ∧ r.security = s.security ∧
          (let n := imageLen (s.memBytes a) + 772
           let base := flashBank (1 - s.fld Reg.SEC_STATUS.BANK)
           r.flashBytes base 0 n = s.memBytes a 0 n ∧
           ∀ x, (x < base ∨ base + n ≤ x) → Sparse.get memReset r.flash x = Sparse.get memReset s.flash x))))) ∧
  (∀ (c : Master → Word → Instr) (ops : List Nat) (v : Word) (s : State),
    let op := bits v.toNat 0 3
    (c, ops) ∈ [(Instr.revokeSlot, [1, 2]), (Instr.raiseFwArb, [3]), (Instr.raisePackArb, [4]), (Instr.blowDebugLock, [5])] →
    s.live = true → bitOf v.toNat 31 = true → op ∈ ops → ∃ r, exec (c .firmware v) s = .next r ∧ r.security.confirmed = false ∧
      r.fld Reg.SEC_FUSE_CMD.OP = op ∧
      (if s.flag Reg.SEC_STATUS.FUSE_BUSY then r.fld Reg.SEC_FUSE_CMD.RESULT = 3 ∧ r.security.fuseOp = s.security.fuseOp
      else if s.security.confirmed = false ∨ s.fuseRefused op = true then
        r.fld Reg.SEC_FUSE_CMD.RESULT = 2 ∧ r.security.fuseOp = s.security.fuseOp
      else if op = 5 ∧ s.fuses.debugLock = true then r.fld Reg.SEC_FUSE_CMD.RESULT = 1 ∧ r.security.fuseOp = s.security.fuseOp
      else r.fld Reg.SEC_FUSE_CMD.RESULT = 0 ∧ r.flag Reg.SEC_STATUS.FUSE_BUSY = true ∧
        r.security.fuseOp = some (op, s.fuseTarget op)) ∧
      r = { s with regs := r.regs, security := r.security } ∧ s.keepsRegs r [Reg.SEC_FUSE_CMD, Reg.SEC_STATUS]) ∧
  (∀ (s : State) (op t : Nat), s.security.fuseOp = some (op, t) → s.security.warmWaits = false →
    ∃ r, exec .fuseCommandComplete s = .next r ∧ r.fuses = s.fuses.blow op t 64 ∧ r.flag Reg.SEC_STATUS.FUSE_BUSY = false ∧
      r.fld Reg.SEC_FUSE_CMD.RESULT = 1 ∧ r.security = { s.security with fuseOp := none } ∧
      r = { s with regs := r.regs, fuses := r.fuses, security := r.security } ∧ s.keepsRegs r [Reg.SEC_FUSE_CMD, Reg.SEC_STATUS]) ∧
  (∀ (high : Bool) (v : Word) (s : State), s.live = true → (∃ r, exec (.secFnrel .firmware high v) s = .next r ∧
      r.reg (Reg.SEC_FNFRZ (ofBool high)) = s.reg (Reg.SEC_FNFRZ (ofBool high)) &&& ~~~ v ∧ s.onlyRegs r [Reg.SEC_FNFRZ (ofBool high)]) ∧
    (s.fnFrozen 0 = false → ∃ r, exec (.secFnrel (.host 0) high v) s = .next r ∧
      r.reg (Reg.SEC_FNFRZ (ofBool high)) = s.reg (Reg.SEC_FNFRZ (ofBool high)) &&& ~~~ (if high then v else v &&& ~~~ 1) ∧
      s.onlyRegs r [Reg.SEC_FNFRZ (ofBool high)])) ∧
  (∀ (s : State) (slot : BitVec 4) (cslot : BitVec 8) (off len : BitVec 16) (sum index : Byte) (sign : Bool) (nonce : BitVec 256),
    s.on = true → s.hostUp = true →
    (s.flag Reg.SEC_STATUS.BOOTED = false → ∀ c ∈ [Instr.getVersion, .getCapabilities, .negotiateAlgorithms, .getDigests,
        .getCertificate slot off len, .challenge cslot sum nonce, .getMeasurements index sign nonce],
      exec c s = .next (s.emit (.spdm 0x7F [3, 0]))) ∧
    (s.flag Reg.SEC_STATUS.BOOTED = true →
      exec .getVersion s = .next (s.emit (.spdm 0x04 [0, 1, 0, 0x12])) ∧
      exec .getCapabilities s = .next (s.emit (.spdm 0x61 [22, 0, 0, 0])) ∧
      exec .negotiateAlgorithms s = .next (s.emit (.spdm 0x63 [1, 2, 0, 0, 0, 8, 0, 0, 0, 1, 0, 0, 0])) ∧
      exec .getDigests s = .next (s.emit (.spdm 0x01 (1 :: sha256 s.chain))) ∧
      (∃ r, exec (.getCertificate slot off len) s = .next r ∧
        (if slot ≠ 0 ∨ s.chain.length ≤ off.toNat then r = s.emit (.spdm 0x7F [1, 0])
        else
          let d := (s.chain.drop off.toNat).take len.toNat
          r = s.emit (.spdm 0x02 ([0, 0] ++ natLE 2 d.length ++ natLE 2 (s.chain.length - off.toNat - d.length) ++ d)))) ∧
      (∃ r, exec (.challenge cslot sum nonce) s = .next r ∧
        (cslot ≠ 0 → r = s.emit (.spdm 0x7F [1, 0])) ∧
        (cslot = 0 → s.free < r.free ∧ r = { s with out := r.out, free := r.free } ∧
          ∃ open_ : List Byte, r.out = s.out ++ [.spdm 0x03 ([0, 1] ++ sha256 s.chain ++ open_)] ∧
            (sum = 0 → open_.length = 416) ∧ (sum = 0xFF → (open_.drop 32).take 32 = sha256 s.allBlocks))) ∧
      (∃ r, exec (.getMeasurements index sign nonce) s = .next r ∧ r = { s with out := r.out, free := r.free } ∧
        (∀ (n : Nat) (d : List Byte), (index = 0 ∧ n = 28 ∧ d = []) ∨ (index = 0xFF ∧ n = 28 ∧ d = s.allBlocks) ∨
            (index ≠ 0 ∧ index ≠ 0xFF ∧ n = 1 ∧ ∃ v, s.measurement index.toNat = some v ∧ d = measBlock index.toNat v) →
          ∃ open_ : List Byte, open_.length = (if sign then 416 else 32) ∧
            r.out = s.out ++ [.spdm 0x60 (natLE 1 n ++ natLE 3 d.length ++ d ++ open_)]) ∧
        (index ≠ 0 → index ≠ 0xFF → s.measurement index.toNat = none → r = s.emit (.spdm 0x7F [1, 0]))))) ∧
  (∀ (permits : Bool) (s : State), s.on = true → ∃ r, exec (.debugSessionOpen permits) s = .next r ∧
    r.flag Reg.SEC_STATUS.DEBUG_USED = (s.flag Reg.SEC_STATUS.DEBUG_USED ||
      (!s.fuses.debugLock && (!s.flag Reg.SEC_STATUS.BOOTED || permits))) ∧ s.onlyRegs r [Reg.SEC_STATUS])

/-- The host reads and writes through its windows; partners answer, fall silent, break rules or go away. HOST_IO_REQUEST is aborted while
the BARs are closed or its function is frozen, and unsupported beyond its BAR, or from a virtual function outside BAR2 but for the DEV_
block, which it reads, and whose write is a violation (log 46). BAR0 reads and writes registers. A read of the own hot tier, its stack up
and no line of it being filled, returns its bytes, over BAR4 or by HOST_MEM_REQUEST; a write stores its bytes and nothing else; an
uncorrectable error marks the data of CXL.mem and sets HOST_UE. CXL.mem of a stack that is down returns free data as an error, and drops a
write (log 26). PARTNER_RESPONSE ends the access with its tag; one that fails ends it with kind TIER; one with no access counts a violation,
which isolates the port at its limit, as does SURPRISE_LINK_DOWN; after CPL_TO Strikes CPL_TIMEOUT ends an access with kind TIER and counts.
STACK_TRAINING_LOST makes a stack DEGRADED. (R24, R202, R203, R208, R439, R440, R442, R443, R446, R447, Table 19-3) -/
def Obligations.HostRequestsAndPartners : Prop :=
  (∀ (f : Fin 64) (bar : Fin 3) (off : Nat) (op : AccessOp) (ecc : ReadEcc) (s : State), s.on = true → s.hostUp = true →
    (s.fnFrozen f = true ∨ s.pins.barsOpen = false → exec (.hostIoRequest f bar off op ecc) s =
      .next (if opPosted op then s else s.emit (.completion f 2 [] false))) ∧
    (s.fnFrozen f = false → s.pins.barsOpen = true →
      (barSize bar < off + opLen op ∨ (f ≠ 0 ∧ (bar = 2 ∨ (bar = 0 ∧ 0x10000 < off + opLen op))) →
        exec (.hostIoRequest f bar off op ecc) s = .next (if opPosted op then s else s.emit (.completion f 1 [] false))) ∧
      (f ≠ 0 → bar = 0 → off + opLen op ≤ 0x10000 →
        (∀ n, op = .read n → exec (.hostIoRequest f bar off op ecc) s = .next (s.emit (.completion f 0 (s.readWindow off n) false))) ∧
        (∀ d, op = .write d → exec (.hostIoRequest f bar off op ecc) s = .next (s.closedWrite f off)) ∧
        (opAtomic op = true → exec (.hostIoRequest f bar off op ecc) s = .next (s.emit (.completion f 1 [] false)))) ∧
      (f = 0 → off + opLen op ≤ barSize bar →
        (∀ n, bar = 0 → op = .read n → exec (.hostIoRequest f bar off op ecc) s = .next (s.emit (.completion f 0 (s.readWindow off n) false))) ∧
        (∀ d, bar = 0 → op = .write d → exec (.hostIoRequest f bar off op ecc) s = .next (s.writeWindow (.host f) off d)) ∧
        (bar = 2 → off / 2 ^ 40 = s.ownSlot → off % 2 ^ 40 + opLen op ≤ 12 * stackSize →
          s.tierUp (unitHot (off % 2 ^ 40 / stackSize)) = true → s.fillingIn (off % 2 ^ 40) (opLen op) = false →
          (∀ n, op = .read n → ecc = .clean → ∃ r, exec (.hostIoRequest f bar off op ecc) s = .next r ∧
            r.out = s.out ++ [.completion f 0 (s.bytes (off % 2 ^ 40) n) false] ∧ r.mem = s.mem) ∧
          (∀ d, op = .write d → ∃ r, exec (.hostIoRequest f bar off op ecc) s = .next r ∧
            r.bytes (off % 2 ^ 40) d.length = d ∧ s.keepsMem r (off % 2 ^ 40) d.length ∧ r.out = s.out))))) ∧
  (∀ (a : Nat) (op : AccessOp) (ecc : ReadEcc) (s : State), s.live = true → s.hostUp = true → a + opLen op ≤ 12 * stackSize →
    s.fillingIn a (opLen op) = false →
    (∀ n, op = .read n → ∃ r, exec (.hostMemRequest a op ecc) s = .next r ∧ (ecc.flips = [] → r.mem = s.mem) ∧
      (s.tierUp (unitHot (a / stackSize)) = true → ecc = .clean → r.out = s.out ++ [.memData (s.bytes a n) false]) ∧
      (s.tierUp (unitHot (a / stackSize)) = true → ecc.ue ≠ 0 → r.out.getLast? = some (.memData (r.bytes a n) true) ∧
        r.flag Reg.CXL_STATUS.HOST_UE = true) ∧
      (s.tierUp (unitHot (a / stackSize)) = false → r = { s with free := s.free + 1, out := r.out } ∧
        ∃ d : List Byte, d.length = n ∧ r.out = s.out ++ [.memData d true])) ∧
    (∀ d, op = .write d → ∃ r, exec (.hostMemRequest a op ecc) s = .next r ∧ r.out = s.out ∧
      (s.tierUp (unitHot (a / stackSize)) = true → r.bytes a d.length = d ∧ s.keepsMem r a d.length) ∧
      (s.tierUp (unitHot (a / stackSize)) = false → r = s))) ∧
  (∀ (n : Fin 10) (port : Fin 11) (tag m : Nat) (res : EndKind) (s : State) (o : Outstanding), (port : Nat) = n → s.live = true →
    s.flag (Reg.CXL_PORT_STAT.TRAINED n) = true → s.cxlAccess n tag = some o → o.issuer = .mover m → s.noneWaits →
    ∃ r, exec (.partnerResponse port tag res true) s = .next r ∧ r.outstanding = s.outstanding.filter (fun x => x.tag != o.tag) ∧
      (r.mover m).work.fail = (if res = .tier then 0x20 else (s.mover m).work.fail) ∧
      (r.mover m).work.poison = (if res = .poison then 4 else (s.mover m).work.poison) ∧
      (res = .poison → r.fld (Reg.CXL_PORT_ERR.POISON_RX n) = min 255 (s.fld (Reg.CXL_PORT_ERR.POISON_RX n) + 1)) ∧
      r = { s with regs := r.regs, movers := r.movers, outstanding := r.outstanding } ∧ s.keepsRegs r [Reg.CXL_PORT_ERR n]) ∧
  (∀ (n : Fin 10) (port : Fin 11) (tag : Nat) (res : EndKind) (ok : Bool) (s : State),
    let c := if (Sparse.get (fun _ => (0, 0)) s.cxlViolations n).2 = s.tick / 2 ^ 20 then
      (Sparse.get (fun _ => (0, 0)) s.cxlViolations n).1 + 1 else 1
    (port : Nat) = n → s.live = true → s.flag (Reg.CXL_PORT_STAT.TRAINED n) = true → s.cxlAccess n tag = none →
    s.tierState (unitCxl n) = 2 → s.flag (Reg.CXL_PORT_STAT.ISOLATED n) = false →
    ∃ r, exec (.partnerResponse port tag res ok) s = .next r ∧
      r.fld (Reg.CXL_PORT_ERR.VIOL n) = min 255 (s.fld (Reg.CXL_PORT_ERR.VIOL n) + 1) ∧
      r.flag (Reg.CXL_PORT_STAT.ISOLATED n) = decide (max 1 (s.fld Reg.CXL_CTRL.VIOL_LIMIT) ≤ c) ∧
      (max 1 (s.fld Reg.CXL_CTRL.VIOL_LIMIT) ≤ c → r.tierState (unitCxl n) = 3 ∧
        r.flag (Reg.TIER_UNIT.DEGRADED (unitCxl n)) = true ∧ ∀ o ∈ r.outstanding, o.port ≠ n) ∧
      (c < max 1 (s.fld Reg.CXL_CTRL.VIOL_LIMIT) → r.tierState (unitCxl n) = 2 ∧ r.outstanding = s.outstanding)) ∧
  (∀ (n : Fin 10) (tag m : Nat) (s : State) (o : Outstanding), s.cxlAccess n tag = some o → o.issuer = .mover m →
    ∃ r, exec (.cplTimeout n tag) s = .next r ∧
      (s.tick < o.issued.toNat + 1024 * max 1 (s.fld Reg.CXL_CTRL.CPL_TO) → r = s) ∧
      (o.issued.toNat + 1024 * max 1 (s.fld Reg.CXL_CTRL.CPL_TO) ≤ s.tick → (r.mover m).work.fail = 0x20 ∧
        r.fld (Reg.CXL_PORT_ERR.TIMEOUT n) = min 255 (s.fld (Reg.CXL_PORT_ERR.TIMEOUT n) + 1) ∧
        r.fld (Reg.CXL_PORT_ERR.VIOL n) = min 255 (s.fld (Reg.CXL_PORT_ERR.VIOL n) + 1) ∧ r.mem = s.mem)) ∧
  (∀ (n : Fin 10) (s : State), s.live = true → s.flag (Reg.CXL_PORT_STAT.TRAINED n) = true → s.tierState (unitCxl n) = 2 →
    s.flag (Reg.CXL_PORT_STAT.ISOLATED n) = false → ∃ r, exec (.surpriseLinkDown n) s = .next r ∧
      r.flag (Reg.CXL_PORT_STAT.TRAINED n) = false ∧ r.flag (Reg.CXL_PORT_STAT.ISOLATED n) = true ∧
      r.flag (Reg.TIER_UNIT.DEGRADED (unitCxl n)) = true ∧ r.tierState (unitCxl n) = 3 ∧ (∀ o ∈ r.outstanding, o.port ≠ n) ∧ r.mem = s.mem) ∧
  (∀ (b : Fin 12) (s : State), s.live = true → 2 ≤ s.tierState (unitHot b) → ∃ r, exec (.stackTrainingLost b) s = .next r ∧
    r.flag (Reg.TIER_UNIT.DEGRADED (unitHot b)) = true ∧ r = { s with regs := r.regs, out := r.out } ∧
    s.keepsRegs r [Reg.TIER_UNIT (unitHot b)])
end

