-- ==== Sys2Proof/Laws/Sparse.lean ====
section
/-! SUPPORT. The laws of the tables: a read after a write, and that every write keeps the canonical form. -/
namespace Sys2Proof.Machine

variable {α : Type}

@[simp] theorem Sparse.get_nil (d : Nat → α) (k : Nat) : Sparse.get d [] k = d k := rfl

theorem Sparse.get_erase_same (d : Nat → α) (t : List (Nat × α)) (k : Nat) :
    Sparse.get d (Sparse.erase t k) k = d k := by
  induction t with
  | nil => rfl
  | cons e t ih =>
    unfold Sparse.erase
    split
    · exact ih
    · next h => simp [Sparse.get, h, ih]

theorem Sparse.get_erase_ne (d : Nat → α) (t : List (Nat × α)) {k j : Nat} (h : j ≠ k) :
    Sparse.get d (Sparse.erase t k) j = Sparse.get d t j := by
  induction t with
  | nil => rfl
  | cons e t ih =>
    unfold Sparse.erase
    split
    · next hk => simp [Sparse.get, hk, ih, Ne.symm h]
    · simp [Sparse.get, ih]

theorem Sparse.get_insertAt_same (d : Nat → α) (t : List (Nat × α)) (k : Nat) (v : α)
    (h : ∀ w, Sparse.get (fun _ => w) t k = w) : Sparse.get d (Sparse.insertAt t k v) k = v := by
  induction t with
  | nil => simp [Sparse.insertAt, Sparse.get]
  | cons e t ih =>
    unfold Sparse.insertAt
    split
    · simp [Sparse.get]
    · by_cases he : e.1 = k
      · have h' := h
        simp only [Sparse.get, he, if_true] at h'
        simp [Sparse.get, he, h' v]
      · have h' : ∀ w, Sparse.get (fun _ => w) t k = w := fun w => by
          have := h w; simpa [Sparse.get, he] using this
        simp [Sparse.get, he, ih h']

theorem Sparse.get_insertAt_ne (d : Nat → α) (t : List (Nat × α)) {k j : Nat} (v : α) (h : j ≠ k) :
    Sparse.get d (Sparse.insertAt t k v) j = Sparse.get d t j := by
  induction t with
  | nil => simp [Sparse.insertAt, Sparse.get, Ne.symm h]
  | cons e t ih =>
    unfold Sparse.insertAt
    split
    · simp [Sparse.get, Ne.symm h]
    · simp [Sparse.get, ih]

section
variable [DecidableEq α]

/-- A read of the key just written gives the value written. -/
@[simp] theorem Sparse.get_set_same (d : Nat → α) (t : List (Nat × α)) (k : Nat) (v : α) :
    Sparse.get d (Sparse.set d t k v) k = v := by
  unfold Sparse.set
  split
  · next h => rw [Sparse.get_erase_same, h]
  · exact Sparse.get_insertAt_same d _ k v (fun w => Sparse.get_erase_same _ t k)

/-- A write leaves every other key as it was. -/
@[simp] theorem Sparse.get_set_ne (d : Nat → α) (t : List (Nat × α)) {k j : Nat} (v : α) (h : j ≠ k) :
    Sparse.get d (Sparse.set d t k v) j = Sparse.get d t j := by
  unfold Sparse.set
  split
  · exact Sparse.get_erase_ne d t h
  · rw [Sparse.get_insertAt_ne d _ v h, Sparse.get_erase_ne d t h]

theorem Sparse.get_set (d : Nat → α) (t : List (Nat × α)) (k j : Nat) (v : α) :
    Sparse.get d (Sparse.set d t k v) j = if j = k then v else Sparse.get d t j := by
  split
  · next h => rw [h, Sparse.get_set_same]
  · next h => exact Sparse.get_set_ne d t v h

omit [DecidableEq α] in
theorem Sparse.above_trans {t : List (Nat × α)} {j k : Nat} (h : j ≤ k) (ha : Sparse.above k t = true) :
    Sparse.above j t = true := by
  induction t with
  | nil => rfl
  | cons e t ih =>
    simp only [Sparse.above, Bool.and_eq_true, decide_eq_true_eq] at ha ⊢
    exact ⟨by omega, ih ha.2⟩

omit [DecidableEq α] in
theorem Sparse.above_erase {t : List (Nat × α)} {j : Nat} (k : Nat) (ha : Sparse.above j t = true) :
    Sparse.above j (Sparse.erase t k) = true := by
  induction t with
  | nil => rfl
  | cons e t ih =>
    simp only [Sparse.above, Bool.and_eq_true, decide_eq_true_eq] at ha
    unfold Sparse.erase
    split
    · exact ih ha.2
    · simp only [Sparse.above, Bool.and_eq_true, decide_eq_true_eq]; exact ⟨ha.1, ih ha.2⟩

theorem Sparse.wf_erase {d : Nat → α} {t : List (Nat × α)} (k : Nat) (hw : Sparse.wf d t = true) :
    Sparse.wf d (Sparse.erase t k) = true := by
  induction t with
  | nil => rfl
  | cons e t ih =>
    simp only [Sparse.wf, Bool.and_eq_true] at hw
    unfold Sparse.erase
    split
    · exact ih hw.2
    · simp only [Sparse.wf, Bool.and_eq_true]
      exact ⟨⟨hw.1.1, Sparse.above_erase k hw.1.2⟩, ih hw.2⟩

omit [DecidableEq α] in
theorem Sparse.above_insertAt {t : List (Nat × α)} {j k : Nat} (v : α) (hk : j < k) (ha : Sparse.above j t = true) :
    Sparse.above j (Sparse.insertAt t k v) = true := by
  induction t with
  | nil => simp [Sparse.insertAt, Sparse.above, hk]
  | cons e t ih =>
    have ha' := ha
    simp only [Sparse.above, Bool.and_eq_true, decide_eq_true_eq] at ha'
    unfold Sparse.insertAt
    split
    · simp [Sparse.above, hk, ha'.1, ha'.2]
    · simp [Sparse.above, ha'.1, ih ha'.2]

theorem Sparse.wf_insertAt {d : Nat → α} {t : List (Nat × α)} {k : Nat} {v : α} (hv : v ≠ d k)
    (hn : ∀ e ∈ t, e.1 ≠ k) (hw : Sparse.wf d t = true) : Sparse.wf d (Sparse.insertAt t k v) = true := by
  induction t with
  | nil => simp [Sparse.insertAt, Sparse.wf, Sparse.above, hv]
  | cons e t ih =>
    have hw' := hw
    simp only [Sparse.wf, Bool.and_eq_true] at hw'
    have hne : e.1 ≠ k := hn e (by simp)
    unfold Sparse.insertAt
    split
    · next hlt =>
      have h1 : Sparse.above k (e :: t) = true := by
        simp only [Sparse.above, Bool.and_eq_true, decide_eq_true_eq]
        exact ⟨hlt, Sparse.above_trans (Nat.le_of_lt hlt) hw'.1.2⟩
      simp only [Sparse.wf, Bool.and_eq_true, hw', h1, and_true]
      simpa using hv
    · next hge =>
      have hlt : e.1 < k := by omega
      simp only [Sparse.wf, Bool.and_eq_true]
      exact ⟨⟨hw'.1.1, Sparse.above_insertAt v hlt hw'.1.2⟩, ih (fun x hx => hn x (by simp [hx])) hw'.2⟩

omit [DecidableEq α] in
theorem Sparse.erase_no_key (t : List (Nat × α)) (k : Nat) : ∀ e ∈ Sparse.erase t k, e.1 ≠ k := by
  induction t with
  | nil => simp [Sparse.erase]
  | cons e t ih =>
    unfold Sparse.erase
    split
    · exact ih
    · next h =>
      intro x hx
      rcases List.mem_cons.mp hx with rfl | hx
      · exact h
      · exact ih x hx

/-- A write keeps the canonical form. -/
theorem Sparse.wf_set {d : Nat → α} {t : List (Nat × α)} (k : Nat) (v : α) (hw : Sparse.wf d t = true) :
    Sparse.wf d (Sparse.set d t k v) = true := by
  unfold Sparse.set
  split
  · exact Sparse.wf_erase k hw
  · next hv => exact Sparse.wf_insertAt hv (Sparse.erase_no_key t k) (Sparse.wf_erase k hw)

@[simp] theorem Sparse.wf_modify {d : Nat → α} {t : List (Nat × α)} (k : Nat) (f : α → α) (hw : Sparse.wf d t = true) :
    Sparse.wf d (Sparse.modify d t k f) = true := Sparse.wf_set k _ hw

end

end Sys2Proof.Machine
end

