-- ==== Sys2Proof/Laws/State.lean ====
section
/-! SUPPORT. One lemma for each field of the state and each of its plain updates, so that no proof unfolds a record update, and the
laws of registers, fields of registers and bytes of memory: a read after a write. -/
namespace Sys2Proof.Machine

/-! ### `State.setReg` -/
@[simp] theorem State.setReg_mem (s : State) (o : Nat) (v : Word) : (s.setReg o v).mem = s.mem := rfl
@[simp] theorem State.setReg_flash (s : State) (o : Nat) (v : Word) : (s.setReg o v).flash = s.flash := rfl
@[simp] theorem State.setReg_quarRecords (s : State) (o : Nat) (v : Word) : (s.setReg o v).quarRecords = s.quarRecords := rfl
@[simp] theorem State.setReg_pins (s : State) (o : Nat) (v : Word) : (s.setReg o v).pins = s.pins := rfl
@[simp] theorem State.setReg_fuses (s : State) (o : Nat) (v : Word) : (s.setReg o v).fuses = s.fuses := rfl
@[simp] theorem State.setReg_security (s : State) (o : Nat) (v : Word) : (s.setReg o v).security = s.security := rfl
@[simp] theorem State.setReg_anomalies (s : State) (o : Nat) (v : Word) : (s.setReg o v).anomalies = s.anomalies := rfl
@[simp] theorem State.setReg_anomPeriod (s : State) (o : Nat) (v : Word) : (s.setReg o v).anomPeriod = s.anomPeriod := rfl
@[simp] theorem State.setReg_edge (s : State) (o : Nat) (v : Word) : (s.setReg o v).edge = s.edge := rfl
@[simp] theorem State.setReg_boundary (s : State) (o : Nat) (v : Word) : (s.setReg o v).boundary = s.boundary := rfl
@[simp] theorem State.setReg_fcycles (s : State) (o : Nat) (v : Word) : (s.setReg o v).fcycles = s.fcycles := rfl
@[simp] theorem State.setReg_refGone (s : State) (o : Nat) (v : Word) : (s.setReg o v).refGone = s.refGone := rfl
@[simp] theorem State.setReg_warmWaitsRef (s : State) (o : Nat) (v : Word) : (s.setReg o v).warmWaitsRef = s.warmWaitsRef := rfl
@[simp] theorem State.setReg_tiles (s : State) (o : Nat) (v : Word) : (s.setReg o v).tiles = s.tiles := rfl
@[simp] theorem State.setReg_flights (s : State) (o : Nat) (v : Word) : (s.setReg o v).flights = s.flights := rfl
@[simp] theorem State.setReg_creditFlights (s : State) (o : Nat) (v : Word) : (s.setReg o v).creditFlights = s.creditFlights := rfl
@[simp] theorem State.setReg_parts (s : State) (o : Nat) (v : Word) : (s.setReg o v).parts = s.parts := rfl
@[simp] theorem State.setReg_saved (s : State) (o : Nat) (v : Word) : (s.setReg o v).saved = s.saved := rfl
@[simp] theorem State.setReg_movers (s : State) (o : Nat) (v : Word) : (s.setReg o v).movers = s.movers := rfl
@[simp] theorem State.setReg_streams (s : State) (o : Nat) (v : Word) : (s.setReg o v).streams = s.streams := rfl
@[simp] theorem State.setReg_tlb1 (s : State) (o : Nat) (v : Word) : (s.setReg o v).tlb1 = s.tlb1 := rfl
@[simp] theorem State.setReg_tlb2 (s : State) (o : Nat) (v : Word) : (s.setReg o v).tlb2 = s.tlb2 := rfl
@[simp] theorem State.setReg_walks (s : State) (o : Nat) (v : Word) : (s.setReg o v).walks = s.walks := rfl
@[simp] theorem State.setReg_fetches (s : State) (o : Nat) (v : Word) : (s.setReg o v).fetches = s.fetches := rfl
@[simp] theorem State.setReg_inval (s : State) (o : Nat) (v : Word) : (s.setReg o v).inval = s.inval := rfl
@[simp] theorem State.setReg_hearth (s : State) (o : Nat) (v : Word) : (s.setReg o v).hearth = s.hearth := rfl
@[simp] theorem State.setReg_hearthFills (s : State) (o : Nat) (v : Word) : (s.setReg o v).hearthFills = s.hearthFills := rfl
@[simp] theorem State.setReg_ringTail (s : State) (o : Nat) (v : Word) : (s.setReg o v).ringTail = s.ringTail := rfl
@[simp] theorem State.setReg_ringNext (s : State) (o : Nat) (v : Word) : (s.setReg o v).ringNext = s.ringNext := rfl
@[simp] theorem State.setReg_ringDone (s : State) (o : Nat) (v : Word) : (s.setReg o v).ringDone = s.ringDone := rfl
@[simp] theorem State.setReg_loads (s : State) (o : Nat) (v : Word) : (s.setReg o v).loads = s.loads := rfl
@[simp] theorem State.setReg_fillJob (s : State) (o : Nat) (v : Word) : (s.setReg o v).fillJob = s.fillJob := rfl
@[simp] theorem State.setReg_switched (s : State) (o : Nat) (v : Word) : (s.setReg o v).switched = s.switched := rfl
@[simp] theorem State.setReg_lookups (s : State) (o : Nat) (v : Word) : (s.setReg o v).lookups = s.lookups := rfl
@[simp] theorem State.setReg_leftFetching (s : State) (o : Nat) (v : Word) : (s.setReg o v).leftFetching = s.leftFetching := rfl
@[simp] theorem State.setReg_ports (s : State) (o : Nat) (v : Word) : (s.setReg o v).ports = s.ports := rfl
@[simp] theorem State.setReg_outstanding (s : State) (o : Nat) (v : Word) : (s.setReg o v).outstanding = s.outstanding := rfl
@[simp] theorem State.setReg_nextTag (s : State) (o : Nat) (v : Word) : (s.setReg o v).nextTag = s.nextTag := rfl
@[simp] theorem State.setReg_lateTags (s : State) (o : Nat) (v : Word) : (s.setReg o v).lateTags = s.lateTags := rfl
@[simp] theorem State.setReg_collectives (s : State) (o : Nat) (v : Word) : (s.setReg o v).collectives = s.collectives := rfl
@[simp] theorem State.setReg_collRecords (s : State) (o : Nat) (v : Word) : (s.setReg o v).collRecords = s.collRecords := rfl
@[simp] theorem State.setReg_staging (s : State) (o : Nat) (v : Word) : (s.setReg o v).staging = s.staging := rfl
@[simp] theorem State.setReg_broadcasts (s : State) (o : Nat) (v : Word) : (s.setReg o v).broadcasts = s.broadcasts := rfl
@[simp] theorem State.setReg_bcastAcks (s : State) (o : Nat) (v : Word) : (s.setReg o v).bcastAcks = s.bcastAcks := rfl
@[simp] theorem State.setReg_power (s : State) (o : Nat) (v : Word) : (s.setReg o v).power = s.power := rfl
@[simp] theorem State.setReg_logs (s : State) (o : Nat) (v : Word) : (s.setReg o v).logs = s.logs := rfl
@[simp] theorem State.setReg_nextLog (s : State) (o : Nat) (v : Word) : (s.setReg o v).nextLog = s.nextLog := rfl
@[simp] theorem State.setReg_requests (s : State) (o : Nat) (v : Word) : (s.setReg o v).requests = s.requests := rfl
@[simp] theorem State.setReg_journal (s : State) (o : Nat) (v : Word) : (s.setReg o v).journal = s.journal := rfl
@[simp] theorem State.setReg_budgetStart (s : State) (o : Nat) (v : Word) : (s.setReg o v).budgetStart = s.budgetStart := rfl
@[simp] theorem State.setReg_budgetLen (s : State) (o : Nat) (v : Word) : (s.setReg o v).budgetLen = s.budgetLen := rfl
@[simp] theorem State.setReg_spark (s : State) (o : Nat) (v : Word) : (s.setReg o v).spark = s.spark := rfl
@[simp] theorem State.setReg_offered (s : State) (o : Nat) (v : Word) : (s.setReg o v).offered = s.offered := rfl
@[simp] theorem State.setReg_coverPeriod (s : State) (o : Nat) (v : Word) : (s.setReg o v).coverPeriod = s.coverPeriod := rfl
@[simp] theorem State.setReg_cxlViolations (s : State) (o : Nat) (v : Word) : (s.setReg o v).cxlViolations = s.cxlViolations := rfl
@[simp] theorem State.setReg_enabledAt (s : State) (o : Nat) (v : Word) : (s.setReg o v).enabledAt = s.enabledAt := rfl
@[simp] theorem State.setReg_faultLog (s : State) (o : Nat) (v : Word) : (s.setReg o v).faultLog = s.faultLog := rfl
@[simp] theorem State.setReg_out (s : State) (o : Nat) (v : Word) : (s.setReg o v).out = s.out := rfl
@[simp] theorem State.setReg_outHeld (s : State) (o : Nat) (v : Word) : (s.setReg o v).outHeld = s.outHeld := rfl
@[simp] theorem State.setReg_free (s : State) (o : Nat) (v : Word) : (s.setReg o v).free = s.free := rfl
@[simp] theorem State.setReg_pending (s : State) (o : Nat) (v : Word) : (s.setReg o v).pending = s.pending := rfl

/-! ### `State.setByte` -/
@[simp] theorem State.setByte_regs (s : State) (a : Nat) (v : Byte) : (s.setByte a v).regs = s.regs := rfl
@[simp] theorem State.setByte_flash (s : State) (a : Nat) (v : Byte) : (s.setByte a v).flash = s.flash := rfl
@[simp] theorem State.setByte_quarRecords (s : State) (a : Nat) (v : Byte) : (s.setByte a v).quarRecords = s.quarRecords := rfl
@[simp] theorem State.setByte_pins (s : State) (a : Nat) (v : Byte) : (s.setByte a v).pins = s.pins := rfl
@[simp] theorem State.setByte_fuses (s : State) (a : Nat) (v : Byte) : (s.setByte a v).fuses = s.fuses := rfl
@[simp] theorem State.setByte_security (s : State) (a : Nat) (v : Byte) : (s.setByte a v).security = s.security := rfl
@[simp] theorem State.setByte_anomalies (s : State) (a : Nat) (v : Byte) : (s.setByte a v).anomalies = s.anomalies := rfl
@[simp] theorem State.setByte_anomPeriod (s : State) (a : Nat) (v : Byte) : (s.setByte a v).anomPeriod = s.anomPeriod := rfl
@[simp] theorem State.setByte_edge (s : State) (a : Nat) (v : Byte) : (s.setByte a v).edge = s.edge := rfl
@[simp] theorem State.setByte_boundary (s : State) (a : Nat) (v : Byte) : (s.setByte a v).boundary = s.boundary := rfl
@[simp] theorem State.setByte_fcycles (s : State) (a : Nat) (v : Byte) : (s.setByte a v).fcycles = s.fcycles := rfl
@[simp] theorem State.setByte_refGone (s : State) (a : Nat) (v : Byte) : (s.setByte a v).refGone = s.refGone := rfl
@[simp] theorem State.setByte_warmWaitsRef (s : State) (a : Nat) (v : Byte) : (s.setByte a v).warmWaitsRef = s.warmWaitsRef := rfl
@[simp] theorem State.setByte_tiles (s : State) (a : Nat) (v : Byte) : (s.setByte a v).tiles = s.tiles := rfl
@[simp] theorem State.setByte_flights (s : State) (a : Nat) (v : Byte) : (s.setByte a v).flights = s.flights := rfl
@[simp] theorem State.setByte_creditFlights (s : State) (a : Nat) (v : Byte) : (s.setByte a v).creditFlights = s.creditFlights := rfl
@[simp] theorem State.setByte_parts (s : State) (a : Nat) (v : Byte) : (s.setByte a v).parts = s.parts := rfl
@[simp] theorem State.setByte_saved (s : State) (a : Nat) (v : Byte) : (s.setByte a v).saved = s.saved := rfl
@[simp] theorem State.setByte_movers (s : State) (a : Nat) (v : Byte) : (s.setByte a v).movers = s.movers := rfl
@[simp] theorem State.setByte_streams (s : State) (a : Nat) (v : Byte) : (s.setByte a v).streams = s.streams := rfl
@[simp] theorem State.setByte_tlb1 (s : State) (a : Nat) (v : Byte) : (s.setByte a v).tlb1 = s.tlb1 := rfl
@[simp] theorem State.setByte_tlb2 (s : State) (a : Nat) (v : Byte) : (s.setByte a v).tlb2 = s.tlb2 := rfl
@[simp] theorem State.setByte_walks (s : State) (a : Nat) (v : Byte) : (s.setByte a v).walks = s.walks := rfl
@[simp] theorem State.setByte_fetches (s : State) (a : Nat) (v : Byte) : (s.setByte a v).fetches = s.fetches := rfl
@[simp] theorem State.setByte_inval (s : State) (a : Nat) (v : Byte) : (s.setByte a v).inval = s.inval := rfl
@[simp] theorem State.setByte_hearth (s : State) (a : Nat) (v : Byte) : (s.setByte a v).hearth = s.hearth := rfl
@[simp] theorem State.setByte_hearthFills (s : State) (a : Nat) (v : Byte) : (s.setByte a v).hearthFills = s.hearthFills := rfl
@[simp] theorem State.setByte_ringTail (s : State) (a : Nat) (v : Byte) : (s.setByte a v).ringTail = s.ringTail := rfl
@[simp] theorem State.setByte_ringNext (s : State) (a : Nat) (v : Byte) : (s.setByte a v).ringNext = s.ringNext := rfl
@[simp] theorem State.setByte_ringDone (s : State) (a : Nat) (v : Byte) : (s.setByte a v).ringDone = s.ringDone := rfl
@[simp] theorem State.setByte_loads (s : State) (a : Nat) (v : Byte) : (s.setByte a v).loads = s.loads := rfl
@[simp] theorem State.setByte_fillJob (s : State) (a : Nat) (v : Byte) : (s.setByte a v).fillJob = s.fillJob := rfl
@[simp] theorem State.setByte_switched (s : State) (a : Nat) (v : Byte) : (s.setByte a v).switched = s.switched := rfl
@[simp] theorem State.setByte_lookups (s : State) (a : Nat) (v : Byte) : (s.setByte a v).lookups = s.lookups := rfl
@[simp] theorem State.setByte_leftFetching (s : State) (a : Nat) (v : Byte) : (s.setByte a v).leftFetching = s.leftFetching := rfl
@[simp] theorem State.setByte_ports (s : State) (a : Nat) (v : Byte) : (s.setByte a v).ports = s.ports := rfl
@[simp] theorem State.setByte_outstanding (s : State) (a : Nat) (v : Byte) : (s.setByte a v).outstanding = s.outstanding := rfl
@[simp] theorem State.setByte_nextTag (s : State) (a : Nat) (v : Byte) : (s.setByte a v).nextTag = s.nextTag := rfl
@[simp] theorem State.setByte_lateTags (s : State) (a : Nat) (v : Byte) : (s.setByte a v).lateTags = s.lateTags := rfl
@[simp] theorem State.setByte_collectives (s : State) (a : Nat) (v : Byte) : (s.setByte a v).collectives = s.collectives := rfl
@[simp] theorem State.setByte_collRecords (s : State) (a : Nat) (v : Byte) : (s.setByte a v).collRecords = s.collRecords := rfl
@[simp] theorem State.setByte_staging (s : State) (a : Nat) (v : Byte) : (s.setByte a v).staging = s.staging := rfl
@[simp] theorem State.setByte_broadcasts (s : State) (a : Nat) (v : Byte) : (s.setByte a v).broadcasts = s.broadcasts := rfl
@[simp] theorem State.setByte_bcastAcks (s : State) (a : Nat) (v : Byte) : (s.setByte a v).bcastAcks = s.bcastAcks := rfl
@[simp] theorem State.setByte_power (s : State) (a : Nat) (v : Byte) : (s.setByte a v).power = s.power := rfl
@[simp] theorem State.setByte_logs (s : State) (a : Nat) (v : Byte) : (s.setByte a v).logs = s.logs := rfl
@[simp] theorem State.setByte_nextLog (s : State) (a : Nat) (v : Byte) : (s.setByte a v).nextLog = s.nextLog := rfl
@[simp] theorem State.setByte_requests (s : State) (a : Nat) (v : Byte) : (s.setByte a v).requests = s.requests := rfl
@[simp] theorem State.setByte_journal (s : State) (a : Nat) (v : Byte) : (s.setByte a v).journal = s.journal := rfl
@[simp] theorem State.setByte_budgetStart (s : State) (a : Nat) (v : Byte) : (s.setByte a v).budgetStart = s.budgetStart := rfl
@[simp] theorem State.setByte_budgetLen (s : State) (a : Nat) (v : Byte) : (s.setByte a v).budgetLen = s.budgetLen := rfl
@[simp] theorem State.setByte_spark (s : State) (a : Nat) (v : Byte) : (s.setByte a v).spark = s.spark := rfl
@[simp] theorem State.setByte_offered (s : State) (a : Nat) (v : Byte) : (s.setByte a v).offered = s.offered := rfl
@[simp] theorem State.setByte_coverPeriod (s : State) (a : Nat) (v : Byte) : (s.setByte a v).coverPeriod = s.coverPeriod := rfl
@[simp] theorem State.setByte_cxlViolations (s : State) (a : Nat) (v : Byte) : (s.setByte a v).cxlViolations = s.cxlViolations := rfl
@[simp] theorem State.setByte_enabledAt (s : State) (a : Nat) (v : Byte) : (s.setByte a v).enabledAt = s.enabledAt := rfl
@[simp] theorem State.setByte_faultLog (s : State) (a : Nat) (v : Byte) : (s.setByte a v).faultLog = s.faultLog := rfl
@[simp] theorem State.setByte_out (s : State) (a : Nat) (v : Byte) : (s.setByte a v).out = s.out := rfl
@[simp] theorem State.setByte_outHeld (s : State) (a : Nat) (v : Byte) : (s.setByte a v).outHeld = s.outHeld := rfl
@[simp] theorem State.setByte_free (s : State) (a : Nat) (v : Byte) : (s.setByte a v).free = s.free := rfl
@[simp] theorem State.setByte_pending (s : State) (a : Nat) (v : Byte) : (s.setByte a v).pending = s.pending := rfl

/-! ### `State.setTile` -/
@[simp] theorem State.setTile_regs (s : State) (k : Nat) (v : Tile) : (s.setTile k v).regs = s.regs := rfl
@[simp] theorem State.setTile_mem (s : State) (k : Nat) (v : Tile) : (s.setTile k v).mem = s.mem := rfl
@[simp] theorem State.setTile_flash (s : State) (k : Nat) (v : Tile) : (s.setTile k v).flash = s.flash := rfl
@[simp] theorem State.setTile_quarRecords (s : State) (k : Nat) (v : Tile) : (s.setTile k v).quarRecords = s.quarRecords := rfl
@[simp] theorem State.setTile_pins (s : State) (k : Nat) (v : Tile) : (s.setTile k v).pins = s.pins := rfl
@[simp] theorem State.setTile_fuses (s : State) (k : Nat) (v : Tile) : (s.setTile k v).fuses = s.fuses := rfl
@[simp] theorem State.setTile_security (s : State) (k : Nat) (v : Tile) : (s.setTile k v).security = s.security := rfl
@[simp] theorem State.setTile_anomalies (s : State) (k : Nat) (v : Tile) : (s.setTile k v).anomalies = s.anomalies := rfl
@[simp] theorem State.setTile_anomPeriod (s : State) (k : Nat) (v : Tile) : (s.setTile k v).anomPeriod = s.anomPeriod := rfl
@[simp] theorem State.setTile_edge (s : State) (k : Nat) (v : Tile) : (s.setTile k v).edge = s.edge := rfl
@[simp] theorem State.setTile_boundary (s : State) (k : Nat) (v : Tile) : (s.setTile k v).boundary = s.boundary := rfl
@[simp] theorem State.setTile_fcycles (s : State) (k : Nat) (v : Tile) : (s.setTile k v).fcycles = s.fcycles := rfl
@[simp] theorem State.setTile_refGone (s : State) (k : Nat) (v : Tile) : (s.setTile k v).refGone = s.refGone := rfl
@[simp] theorem State.setTile_warmWaitsRef (s : State) (k : Nat) (v : Tile) : (s.setTile k v).warmWaitsRef = s.warmWaitsRef := rfl
@[simp] theorem State.setTile_flights (s : State) (k : Nat) (v : Tile) : (s.setTile k v).flights = s.flights := rfl
@[simp] theorem State.setTile_creditFlights (s : State) (k : Nat) (v : Tile) : (s.setTile k v).creditFlights = s.creditFlights := rfl
@[simp] theorem State.setTile_parts (s : State) (k : Nat) (v : Tile) : (s.setTile k v).parts = s.parts := rfl
@[simp] theorem State.setTile_saved (s : State) (k : Nat) (v : Tile) : (s.setTile k v).saved = s.saved := rfl
@[simp] theorem State.setTile_movers (s : State) (k : Nat) (v : Tile) : (s.setTile k v).movers = s.movers := rfl
@[simp] theorem State.setTile_streams (s : State) (k : Nat) (v : Tile) : (s.setTile k v).streams = s.streams := rfl
@[simp] theorem State.setTile_tlb1 (s : State) (k : Nat) (v : Tile) : (s.setTile k v).tlb1 = s.tlb1 := rfl
@[simp] theorem State.setTile_tlb2 (s : State) (k : Nat) (v : Tile) : (s.setTile k v).tlb2 = s.tlb2 := rfl
@[simp] theorem State.setTile_walks (s : State) (k : Nat) (v : Tile) : (s.setTile k v).walks = s.walks := rfl
@[simp] theorem State.setTile_fetches (s : State) (k : Nat) (v : Tile) : (s.setTile k v).fetches = s.fetches := rfl
@[simp] theorem State.setTile_inval (s : State) (k : Nat) (v : Tile) : (s.setTile k v).inval = s.inval := rfl
@[simp] theorem State.setTile_hearth (s : State) (k : Nat) (v : Tile) : (s.setTile k v).hearth = s.hearth := rfl
@[simp] theorem State.setTile_hearthFills (s : State) (k : Nat) (v : Tile) : (s.setTile k v).hearthFills = s.hearthFills := rfl
@[simp] theorem State.setTile_ringTail (s : State) (k : Nat) (v : Tile) : (s.setTile k v).ringTail = s.ringTail := rfl
@[simp] theorem State.setTile_ringNext (s : State) (k : Nat) (v : Tile) : (s.setTile k v).ringNext = s.ringNext := rfl
@[simp] theorem State.setTile_ringDone (s : State) (k : Nat) (v : Tile) : (s.setTile k v).ringDone = s.ringDone := rfl
@[simp] theorem State.setTile_loads (s : State) (k : Nat) (v : Tile) : (s.setTile k v).loads = s.loads := rfl
@[simp] theorem State.setTile_fillJob (s : State) (k : Nat) (v : Tile) : (s.setTile k v).fillJob = s.fillJob := rfl
@[simp] theorem State.setTile_switched (s : State) (k : Nat) (v : Tile) : (s.setTile k v).switched = s.switched := rfl
@[simp] theorem State.setTile_lookups (s : State) (k : Nat) (v : Tile) : (s.setTile k v).lookups = s.lookups := rfl
@[simp] theorem State.setTile_leftFetching (s : State) (k : Nat) (v : Tile) : (s.setTile k v).leftFetching = s.leftFetching := rfl
@[simp] theorem State.setTile_ports (s : State) (k : Nat) (v : Tile) : (s.setTile k v).ports = s.ports := rfl
@[simp] theorem State.setTile_outstanding (s : State) (k : Nat) (v : Tile) : (s.setTile k v).outstanding = s.outstanding := rfl
@[simp] theorem State.setTile_nextTag (s : State) (k : Nat) (v : Tile) : (s.setTile k v).nextTag = s.nextTag := rfl
@[simp] theorem State.setTile_lateTags (s : State) (k : Nat) (v : Tile) : (s.setTile k v).lateTags = s.lateTags := rfl
@[simp] theorem State.setTile_collectives (s : State) (k : Nat) (v : Tile) : (s.setTile k v).collectives = s.collectives := rfl
@[simp] theorem State.setTile_collRecords (s : State) (k : Nat) (v : Tile) : (s.setTile k v).collRecords = s.collRecords := rfl
@[simp] theorem State.setTile_staging (s : State) (k : Nat) (v : Tile) : (s.setTile k v).staging = s.staging := rfl
@[simp] theorem State.setTile_broadcasts (s : State) (k : Nat) (v : Tile) : (s.setTile k v).broadcasts = s.broadcasts := rfl
@[simp] theorem State.setTile_bcastAcks (s : State) (k : Nat) (v : Tile) : (s.setTile k v).bcastAcks = s.bcastAcks := rfl
@[simp] theorem State.setTile_power (s : State) (k : Nat) (v : Tile) : (s.setTile k v).power = s.power := rfl
@[simp] theorem State.setTile_logs (s : State) (k : Nat) (v : Tile) : (s.setTile k v).logs = s.logs := rfl
@[simp] theorem State.setTile_nextLog (s : State) (k : Nat) (v : Tile) : (s.setTile k v).nextLog = s.nextLog := rfl
@[simp] theorem State.setTile_requests (s : State) (k : Nat) (v : Tile) : (s.setTile k v).requests = s.requests := rfl
@[simp] theorem State.setTile_journal (s : State) (k : Nat) (v : Tile) : (s.setTile k v).journal = s.journal := rfl
@[simp] theorem State.setTile_budgetStart (s : State) (k : Nat) (v : Tile) : (s.setTile k v).budgetStart = s.budgetStart := rfl
@[simp] theorem State.setTile_budgetLen (s : State) (k : Nat) (v : Tile) : (s.setTile k v).budgetLen = s.budgetLen := rfl
@[simp] theorem State.setTile_spark (s : State) (k : Nat) (v : Tile) : (s.setTile k v).spark = s.spark := rfl
@[simp] theorem State.setTile_offered (s : State) (k : Nat) (v : Tile) : (s.setTile k v).offered = s.offered := rfl
@[simp] theorem State.setTile_coverPeriod (s : State) (k : Nat) (v : Tile) : (s.setTile k v).coverPeriod = s.coverPeriod := rfl
@[simp] theorem State.setTile_cxlViolations (s : State) (k : Nat) (v : Tile) : (s.setTile k v).cxlViolations = s.cxlViolations := rfl
@[simp] theorem State.setTile_enabledAt (s : State) (k : Nat) (v : Tile) : (s.setTile k v).enabledAt = s.enabledAt := rfl
@[simp] theorem State.setTile_faultLog (s : State) (k : Nat) (v : Tile) : (s.setTile k v).faultLog = s.faultLog := rfl
@[simp] theorem State.setTile_out (s : State) (k : Nat) (v : Tile) : (s.setTile k v).out = s.out := rfl
@[simp] theorem State.setTile_outHeld (s : State) (k : Nat) (v : Tile) : (s.setTile k v).outHeld = s.outHeld := rfl
@[simp] theorem State.setTile_free (s : State) (k : Nat) (v : Tile) : (s.setTile k v).free = s.free := rfl
@[simp] theorem State.setTile_pending (s : State) (k : Nat) (v : Tile) : (s.setTile k v).pending = s.pending := rfl

/-! ### `State.setPart` -/
@[simp] theorem State.setPart_regs (s : State) (k : Nat) (v : Part) : (s.setPart k v).regs = s.regs := rfl
@[simp] theorem State.setPart_mem (s : State) (k : Nat) (v : Part) : (s.setPart k v).mem = s.mem := rfl
@[simp] theorem State.setPart_flash (s : State) (k : Nat) (v : Part) : (s.setPart k v).flash = s.flash := rfl
@[simp] theorem State.setPart_quarRecords (s : State) (k : Nat) (v : Part) : (s.setPart k v).quarRecords = s.quarRecords := rfl
@[simp] theorem State.setPart_pins (s : State) (k : Nat) (v : Part) : (s.setPart k v).pins = s.pins := rfl
@[simp] theorem State.setPart_fuses (s : State) (k : Nat) (v : Part) : (s.setPart k v).fuses = s.fuses := rfl
@[simp] theorem State.setPart_security (s : State) (k : Nat) (v : Part) : (s.setPart k v).security = s.security := rfl
@[simp] theorem State.setPart_anomalies (s : State) (k : Nat) (v : Part) : (s.setPart k v).anomalies = s.anomalies := rfl
@[simp] theorem State.setPart_anomPeriod (s : State) (k : Nat) (v : Part) : (s.setPart k v).anomPeriod = s.anomPeriod := rfl
@[simp] theorem State.setPart_edge (s : State) (k : Nat) (v : Part) : (s.setPart k v).edge = s.edge := rfl
@[simp] theorem State.setPart_boundary (s : State) (k : Nat) (v : Part) : (s.setPart k v).boundary = s.boundary := rfl
@[simp] theorem State.setPart_fcycles (s : State) (k : Nat) (v : Part) : (s.setPart k v).fcycles = s.fcycles := rfl
@[simp] theorem State.setPart_refGone (s : State) (k : Nat) (v : Part) : (s.setPart k v).refGone = s.refGone := rfl
@[simp] theorem State.setPart_warmWaitsRef (s : State) (k : Nat) (v : Part) : (s.setPart k v).warmWaitsRef = s.warmWaitsRef := rfl
@[simp] theorem State.setPart_tiles (s : State) (k : Nat) (v : Part) : (s.setPart k v).tiles = s.tiles := rfl
@[simp] theorem State.setPart_flights (s : State) (k : Nat) (v : Part) : (s.setPart k v).flights = s.flights := rfl
@[simp] theorem State.setPart_creditFlights (s : State) (k : Nat) (v : Part) : (s.setPart k v).creditFlights = s.creditFlights := rfl
@[simp] theorem State.setPart_saved (s : State) (k : Nat) (v : Part) : (s.setPart k v).saved = s.saved := rfl
@[simp] theorem State.setPart_movers (s : State) (k : Nat) (v : Part) : (s.setPart k v).movers = s.movers := rfl
@[simp] theorem State.setPart_streams (s : State) (k : Nat) (v : Part) : (s.setPart k v).streams = s.streams := rfl
@[simp] theorem State.setPart_tlb1 (s : State) (k : Nat) (v : Part) : (s.setPart k v).tlb1 = s.tlb1 := rfl
@[simp] theorem State.setPart_tlb2 (s : State) (k : Nat) (v : Part) : (s.setPart k v).tlb2 = s.tlb2 := rfl
@[simp] theorem State.setPart_walks (s : State) (k : Nat) (v : Part) : (s.setPart k v).walks = s.walks := rfl
@[simp] theorem State.setPart_fetches (s : State) (k : Nat) (v : Part) : (s.setPart k v).fetches = s.fetches := rfl
@[simp] theorem State.setPart_inval (s : State) (k : Nat) (v : Part) : (s.setPart k v).inval = s.inval := rfl
@[simp] theorem State.setPart_hearth (s : State) (k : Nat) (v : Part) : (s.setPart k v).hearth = s.hearth := rfl
@[simp] theorem State.setPart_hearthFills (s : State) (k : Nat) (v : Part) : (s.setPart k v).hearthFills = s.hearthFills := rfl
@[simp] theorem State.setPart_ringTail (s : State) (k : Nat) (v : Part) : (s.setPart k v).ringTail = s.ringTail := rfl
@[simp] theorem State.setPart_ringNext (s : State) (k : Nat) (v : Part) : (s.setPart k v).ringNext = s.ringNext := rfl
@[simp] theorem State.setPart_ringDone (s : State) (k : Nat) (v : Part) : (s.setPart k v).ringDone = s.ringDone := rfl
@[simp] theorem State.setPart_loads (s : State) (k : Nat) (v : Part) : (s.setPart k v).loads = s.loads := rfl
@[simp] theorem State.setPart_fillJob (s : State) (k : Nat) (v : Part) : (s.setPart k v).fillJob = s.fillJob := rfl
@[simp] theorem State.setPart_switched (s : State) (k : Nat) (v : Part) : (s.setPart k v).switched = s.switched := rfl
@[simp] theorem State.setPart_lookups (s : State) (k : Nat) (v : Part) : (s.setPart k v).lookups = s.lookups := rfl
@[simp] theorem State.setPart_leftFetching (s : State) (k : Nat) (v : Part) : (s.setPart k v).leftFetching = s.leftFetching := rfl
@[simp] theorem State.setPart_ports (s : State) (k : Nat) (v : Part) : (s.setPart k v).ports = s.ports := rfl
@[simp] theorem State.setPart_outstanding (s : State) (k : Nat) (v : Part) : (s.setPart k v).outstanding = s.outstanding := rfl
@[simp] theorem State.setPart_nextTag (s : State) (k : Nat) (v : Part) : (s.setPart k v).nextTag = s.nextTag := rfl
@[simp] theorem State.setPart_lateTags (s : State) (k : Nat) (v : Part) : (s.setPart k v).lateTags = s.lateTags := rfl
@[simp] theorem State.setPart_collectives (s : State) (k : Nat) (v : Part) : (s.setPart k v).collectives = s.collectives := rfl
@[simp] theorem State.setPart_collRecords (s : State) (k : Nat) (v : Part) : (s.setPart k v).collRecords = s.collRecords := rfl
@[simp] theorem State.setPart_staging (s : State) (k : Nat) (v : Part) : (s.setPart k v).staging = s.staging := rfl
@[simp] theorem State.setPart_broadcasts (s : State) (k : Nat) (v : Part) : (s.setPart k v).broadcasts = s.broadcasts := rfl
@[simp] theorem State.setPart_bcastAcks (s : State) (k : Nat) (v : Part) : (s.setPart k v).bcastAcks = s.bcastAcks := rfl
@[simp] theorem State.setPart_power (s : State) (k : Nat) (v : Part) : (s.setPart k v).power = s.power := rfl
@[simp] theorem State.setPart_logs (s : State) (k : Nat) (v : Part) : (s.setPart k v).logs = s.logs := rfl
@[simp] theorem State.setPart_nextLog (s : State) (k : Nat) (v : Part) : (s.setPart k v).nextLog = s.nextLog := rfl
@[simp] theorem State.setPart_requests (s : State) (k : Nat) (v : Part) : (s.setPart k v).requests = s.requests := rfl
@[simp] theorem State.setPart_journal (s : State) (k : Nat) (v : Part) : (s.setPart k v).journal = s.journal := rfl
@[simp] theorem State.setPart_budgetStart (s : State) (k : Nat) (v : Part) : (s.setPart k v).budgetStart = s.budgetStart := rfl
@[simp] theorem State.setPart_budgetLen (s : State) (k : Nat) (v : Part) : (s.setPart k v).budgetLen = s.budgetLen := rfl
@[simp] theorem State.setPart_spark (s : State) (k : Nat) (v : Part) : (s.setPart k v).spark = s.spark := rfl
@[simp] theorem State.setPart_offered (s : State) (k : Nat) (v : Part) : (s.setPart k v).offered = s.offered := rfl
@[simp] theorem State.setPart_coverPeriod (s : State) (k : Nat) (v : Part) : (s.setPart k v).coverPeriod = s.coverPeriod := rfl
@[simp] theorem State.setPart_cxlViolations (s : State) (k : Nat) (v : Part) : (s.setPart k v).cxlViolations = s.cxlViolations := rfl
@[simp] theorem State.setPart_enabledAt (s : State) (k : Nat) (v : Part) : (s.setPart k v).enabledAt = s.enabledAt := rfl
@[simp] theorem State.setPart_faultLog (s : State) (k : Nat) (v : Part) : (s.setPart k v).faultLog = s.faultLog := rfl
@[simp] theorem State.setPart_out (s : State) (k : Nat) (v : Part) : (s.setPart k v).out = s.out := rfl
@[simp] theorem State.setPart_outHeld (s : State) (k : Nat) (v : Part) : (s.setPart k v).outHeld = s.outHeld := rfl
@[simp] theorem State.setPart_free (s : State) (k : Nat) (v : Part) : (s.setPart k v).free = s.free := rfl
@[simp] theorem State.setPart_pending (s : State) (k : Nat) (v : Part) : (s.setPart k v).pending = s.pending := rfl

/-! ### `State.setMover` -/
@[simp] theorem State.setMover_regs (s : State) (k : Nat) (v : Mover) : (s.setMover k v).regs = s.regs := rfl
@[simp] theorem State.setMover_mem (s : State) (k : Nat) (v : Mover) : (s.setMover k v).mem = s.mem := rfl
@[simp] theorem State.setMover_flash (s : State) (k : Nat) (v : Mover) : (s.setMover k v).flash = s.flash := rfl
@[simp] theorem State.setMover_quarRecords (s : State) (k : Nat) (v : Mover) : (s.setMover k v).quarRecords = s.quarRecords := rfl
@[simp] theorem State.setMover_pins (s : State) (k : Nat) (v : Mover) : (s.setMover k v).pins = s.pins := rfl
@[simp] theorem State.setMover_fuses (s : State) (k : Nat) (v : Mover) : (s.setMover k v).fuses = s.fuses := rfl
@[simp] theorem State.setMover_security (s : State) (k : Nat) (v : Mover) : (s.setMover k v).security = s.security := rfl
@[simp] theorem State.setMover_anomalies (s : State) (k : Nat) (v : Mover) : (s.setMover k v).anomalies = s.anomalies := rfl
@[simp] theorem State.setMover_anomPeriod (s : State) (k : Nat) (v : Mover) : (s.setMover k v).anomPeriod = s.anomPeriod := rfl
@[simp] theorem State.setMover_edge (s : State) (k : Nat) (v : Mover) : (s.setMover k v).edge = s.edge := rfl
@[simp] theorem State.setMover_boundary (s : State) (k : Nat) (v : Mover) : (s.setMover k v).boundary = s.boundary := rfl
@[simp] theorem State.setMover_fcycles (s : State) (k : Nat) (v : Mover) : (s.setMover k v).fcycles = s.fcycles := rfl
@[simp] theorem State.setMover_refGone (s : State) (k : Nat) (v : Mover) : (s.setMover k v).refGone = s.refGone := rfl
@[simp] theorem State.setMover_warmWaitsRef (s : State) (k : Nat) (v : Mover) : (s.setMover k v).warmWaitsRef = s.warmWaitsRef := rfl
@[simp] theorem State.setMover_tiles (s : State) (k : Nat) (v : Mover) : (s.setMover k v).tiles = s.tiles := rfl
@[simp] theorem State.setMover_flights (s : State) (k : Nat) (v : Mover) : (s.setMover k v).flights = s.flights := rfl
@[simp] theorem State.setMover_creditFlights (s : State) (k : Nat) (v : Mover) : (s.setMover k v).creditFlights = s.creditFlights := rfl
@[simp] theorem State.setMover_parts (s : State) (k : Nat) (v : Mover) : (s.setMover k v).parts = s.parts := rfl
@[simp] theorem State.setMover_saved (s : State) (k : Nat) (v : Mover) : (s.setMover k v).saved = s.saved := rfl
@[simp] theorem State.setMover_streams (s : State) (k : Nat) (v : Mover) : (s.setMover k v).streams = s.streams := rfl
@[simp] theorem State.setMover_tlb1 (s : State) (k : Nat) (v : Mover) : (s.setMover k v).tlb1 = s.tlb1 := rfl
@[simp] theorem State.setMover_tlb2 (s : State) (k : Nat) (v : Mover) : (s.setMover k v).tlb2 = s.tlb2 := rfl
@[simp] theorem State.setMover_walks (s : State) (k : Nat) (v : Mover) : (s.setMover k v).walks = s.walks := rfl
@[simp] theorem State.setMover_fetches (s : State) (k : Nat) (v : Mover) : (s.setMover k v).fetches = s.fetches := rfl
@[simp] theorem State.setMover_inval (s : State) (k : Nat) (v : Mover) : (s.setMover k v).inval = s.inval := rfl
@[simp] theorem State.setMover_hearth (s : State) (k : Nat) (v : Mover) : (s.setMover k v).hearth = s.hearth := rfl
@[simp] theorem State.setMover_hearthFills (s : State) (k : Nat) (v : Mover) : (s.setMover k v).hearthFills = s.hearthFills := rfl
@[simp] theorem State.setMover_ringTail (s : State) (k : Nat) (v : Mover) : (s.setMover k v).ringTail = s.ringTail := rfl
@[simp] theorem State.setMover_ringNext (s : State) (k : Nat) (v : Mover) : (s.setMover k v).ringNext = s.ringNext := rfl
@[simp] theorem State.setMover_ringDone (s : State) (k : Nat) (v : Mover) : (s.setMover k v).ringDone = s.ringDone := rfl
@[simp] theorem State.setMover_loads (s : State) (k : Nat) (v : Mover) : (s.setMover k v).loads = s.loads := rfl
@[simp] theorem State.setMover_fillJob (s : State) (k : Nat) (v : Mover) : (s.setMover k v).fillJob = s.fillJob := rfl
@[simp] theorem State.setMover_switched (s : State) (k : Nat) (v : Mover) : (s.setMover k v).switched = s.switched := rfl
@[simp] theorem State.setMover_lookups (s : State) (k : Nat) (v : Mover) : (s.setMover k v).lookups = s.lookups := rfl
@[simp] theorem State.setMover_leftFetching (s : State) (k : Nat) (v : Mover) : (s.setMover k v).leftFetching = s.leftFetching := rfl
@[simp] theorem State.setMover_ports (s : State) (k : Nat) (v : Mover) : (s.setMover k v).ports = s.ports := rfl
@[simp] theorem State.setMover_outstanding (s : State) (k : Nat) (v : Mover) : (s.setMover k v).outstanding = s.outstanding := rfl
@[simp] theorem State.setMover_nextTag (s : State) (k : Nat) (v : Mover) : (s.setMover k v).nextTag = s.nextTag := rfl
@[simp] theorem State.setMover_lateTags (s : State) (k : Nat) (v : Mover) : (s.setMover k v).lateTags = s.lateTags := rfl
@[simp] theorem State.setMover_collectives (s : State) (k : Nat) (v : Mover) : (s.setMover k v).collectives = s.collectives := rfl
@[simp] theorem State.setMover_collRecords (s : State) (k : Nat) (v : Mover) : (s.setMover k v).collRecords = s.collRecords := rfl
@[simp] theorem State.setMover_staging (s : State) (k : Nat) (v : Mover) : (s.setMover k v).staging = s.staging := rfl
@[simp] theorem State.setMover_broadcasts (s : State) (k : Nat) (v : Mover) : (s.setMover k v).broadcasts = s.broadcasts := rfl
@[simp] theorem State.setMover_bcastAcks (s : State) (k : Nat) (v : Mover) : (s.setMover k v).bcastAcks = s.bcastAcks := rfl
@[simp] theorem State.setMover_power (s : State) (k : Nat) (v : Mover) : (s.setMover k v).power = s.power := rfl
@[simp] theorem State.setMover_logs (s : State) (k : Nat) (v : Mover) : (s.setMover k v).logs = s.logs := rfl
@[simp] theorem State.setMover_nextLog (s : State) (k : Nat) (v : Mover) : (s.setMover k v).nextLog = s.nextLog := rfl
@[simp] theorem State.setMover_requests (s : State) (k : Nat) (v : Mover) : (s.setMover k v).requests = s.requests := rfl
@[simp] theorem State.setMover_journal (s : State) (k : Nat) (v : Mover) : (s.setMover k v).journal = s.journal := rfl
@[simp] theorem State.setMover_budgetStart (s : State) (k : Nat) (v : Mover) : (s.setMover k v).budgetStart = s.budgetStart := rfl
@[simp] theorem State.setMover_budgetLen (s : State) (k : Nat) (v : Mover) : (s.setMover k v).budgetLen = s.budgetLen := rfl
@[simp] theorem State.setMover_spark (s : State) (k : Nat) (v : Mover) : (s.setMover k v).spark = s.spark := rfl
@[simp] theorem State.setMover_offered (s : State) (k : Nat) (v : Mover) : (s.setMover k v).offered = s.offered := rfl
@[simp] theorem State.setMover_coverPeriod (s : State) (k : Nat) (v : Mover) : (s.setMover k v).coverPeriod = s.coverPeriod := rfl
@[simp] theorem State.setMover_cxlViolations (s : State) (k : Nat) (v : Mover) : (s.setMover k v).cxlViolations = s.cxlViolations := rfl
@[simp] theorem State.setMover_enabledAt (s : State) (k : Nat) (v : Mover) : (s.setMover k v).enabledAt = s.enabledAt := rfl
@[simp] theorem State.setMover_faultLog (s : State) (k : Nat) (v : Mover) : (s.setMover k v).faultLog = s.faultLog := rfl
@[simp] theorem State.setMover_out (s : State) (k : Nat) (v : Mover) : (s.setMover k v).out = s.out := rfl
@[simp] theorem State.setMover_outHeld (s : State) (k : Nat) (v : Mover) : (s.setMover k v).outHeld = s.outHeld := rfl
@[simp] theorem State.setMover_free (s : State) (k : Nat) (v : Mover) : (s.setMover k v).free = s.free := rfl
@[simp] theorem State.setMover_pending (s : State) (k : Nat) (v : Mover) : (s.setMover k v).pending = s.pending := rfl

/-! ### `State.setStream` -/
@[simp] theorem State.setStream_regs (s : State) (b k : Nat) (v : Stream) : (s.setStream b k v).regs = s.regs := rfl
@[simp] theorem State.setStream_mem (s : State) (b k : Nat) (v : Stream) : (s.setStream b k v).mem = s.mem := rfl
@[simp] theorem State.setStream_flash (s : State) (b k : Nat) (v : Stream) : (s.setStream b k v).flash = s.flash := rfl
@[simp] theorem State.setStream_quarRecords (s : State) (b k : Nat) (v : Stream) : (s.setStream b k v).quarRecords = s.quarRecords := rfl
@[simp] theorem State.setStream_pins (s : State) (b k : Nat) (v : Stream) : (s.setStream b k v).pins = s.pins := rfl
@[simp] theorem State.setStream_fuses (s : State) (b k : Nat) (v : Stream) : (s.setStream b k v).fuses = s.fuses := rfl
@[simp] theorem State.setStream_security (s : State) (b k : Nat) (v : Stream) : (s.setStream b k v).security = s.security := rfl
@[simp] theorem State.setStream_anomalies (s : State) (b k : Nat) (v : Stream) : (s.setStream b k v).anomalies = s.anomalies := rfl
@[simp] theorem State.setStream_anomPeriod (s : State) (b k : Nat) (v : Stream) : (s.setStream b k v).anomPeriod = s.anomPeriod := rfl
@[simp] theorem State.setStream_edge (s : State) (b k : Nat) (v : Stream) : (s.setStream b k v).edge = s.edge := rfl
@[simp] theorem State.setStream_boundary (s : State) (b k : Nat) (v : Stream) : (s.setStream b k v).boundary = s.boundary := rfl
@[simp] theorem State.setStream_fcycles (s : State) (b k : Nat) (v : Stream) : (s.setStream b k v).fcycles = s.fcycles := rfl
@[simp] theorem State.setStream_refGone (s : State) (b k : Nat) (v : Stream) : (s.setStream b k v).refGone = s.refGone := rfl
@[simp] theorem State.setStream_warmWaitsRef (s : State) (b k : Nat) (v : Stream) : (s.setStream b k v).warmWaitsRef = s.warmWaitsRef := rfl
@[simp] theorem State.setStream_tiles (s : State) (b k : Nat) (v : Stream) : (s.setStream b k v).tiles = s.tiles := rfl
@[simp] theorem State.setStream_flights (s : State) (b k : Nat) (v : Stream) : (s.setStream b k v).flights = s.flights := rfl
@[simp] theorem State.setStream_creditFlights (s : State) (b k : Nat) (v : Stream) : (s.setStream b k v).creditFlights = s.creditFlights := rfl
@[simp] theorem State.setStream_parts (s : State) (b k : Nat) (v : Stream) : (s.setStream b k v).parts = s.parts := rfl
@[simp] theorem State.setStream_saved (s : State) (b k : Nat) (v : Stream) : (s.setStream b k v).saved = s.saved := rfl
@[simp] theorem State.setStream_movers (s : State) (b k : Nat) (v : Stream) : (s.setStream b k v).movers = s.movers := rfl
@[simp] theorem State.setStream_tlb1 (s : State) (b k : Nat) (v : Stream) : (s.setStream b k v).tlb1 = s.tlb1 := rfl
@[simp] theorem State.setStream_tlb2 (s : State) (b k : Nat) (v : Stream) : (s.setStream b k v).tlb2 = s.tlb2 := rfl
@[simp] theorem State.setStream_walks (s : State) (b k : Nat) (v : Stream) : (s.setStream b k v).walks = s.walks := rfl
@[simp] theorem State.setStream_fetches (s : State) (b k : Nat) (v : Stream) : (s.setStream b k v).fetches = s.fetches := rfl
@[simp] theorem State.setStream_inval (s : State) (b k : Nat) (v : Stream) : (s.setStream b k v).inval = s.inval := rfl
@[simp] theorem State.setStream_hearth (s : State) (b k : Nat) (v : Stream) : (s.setStream b k v).hearth = s.hearth := rfl
@[simp] theorem State.setStream_hearthFills (s : State) (b k : Nat) (v : Stream) : (s.setStream b k v).hearthFills = s.hearthFills := rfl
@[simp] theorem State.setStream_ringTail (s : State) (b k : Nat) (v : Stream) : (s.setStream b k v).ringTail = s.ringTail := rfl
@[simp] theorem State.setStream_ringNext (s : State) (b k : Nat) (v : Stream) : (s.setStream b k v).ringNext = s.ringNext := rfl
@[simp] theorem State.setStream_ringDone (s : State) (b k : Nat) (v : Stream) : (s.setStream b k v).ringDone = s.ringDone := rfl
@[simp] theorem State.setStream_loads (s : State) (b k : Nat) (v : Stream) : (s.setStream b k v).loads = s.loads := rfl
@[simp] theorem State.setStream_fillJob (s : State) (b k : Nat) (v : Stream) : (s.setStream b k v).fillJob = s.fillJob := rfl
@[simp] theorem State.setStream_switched (s : State) (b k : Nat) (v : Stream) : (s.setStream b k v).switched = s.switched := rfl
@[simp] theorem State.setStream_lookups (s : State) (b k : Nat) (v : Stream) : (s.setStream b k v).lookups = s.lookups := rfl
@[simp] theorem State.setStream_leftFetching (s : State) (b k : Nat) (v : Stream) : (s.setStream b k v).leftFetching = s.leftFetching := rfl
@[simp] theorem State.setStream_ports (s : State) (b k : Nat) (v : Stream) : (s.setStream b k v).ports = s.ports := rfl
@[simp] theorem State.setStream_outstanding (s : State) (b k : Nat) (v : Stream) : (s.setStream b k v).outstanding = s.outstanding := rfl
@[simp] theorem State.setStream_nextTag (s : State) (b k : Nat) (v : Stream) : (s.setStream b k v).nextTag = s.nextTag := rfl
@[simp] theorem State.setStream_lateTags (s : State) (b k : Nat) (v : Stream) : (s.setStream b k v).lateTags = s.lateTags := rfl
@[simp] theorem State.setStream_collectives (s : State) (b k : Nat) (v : Stream) : (s.setStream b k v).collectives = s.collectives := rfl
@[simp] theorem State.setStream_collRecords (s : State) (b k : Nat) (v : Stream) : (s.setStream b k v).collRecords = s.collRecords := rfl
@[simp] theorem State.setStream_staging (s : State) (b k : Nat) (v : Stream) : (s.setStream b k v).staging = s.staging := rfl
@[simp] theorem State.setStream_broadcasts (s : State) (b k : Nat) (v : Stream) : (s.setStream b k v).broadcasts = s.broadcasts := rfl
@[simp] theorem State.setStream_bcastAcks (s : State) (b k : Nat) (v : Stream) : (s.setStream b k v).bcastAcks = s.bcastAcks := rfl
@[simp] theorem State.setStream_power (s : State) (b k : Nat) (v : Stream) : (s.setStream b k v).power = s.power := rfl
@[simp] theorem State.setStream_logs (s : State) (b k : Nat) (v : Stream) : (s.setStream b k v).logs = s.logs := rfl
@[simp] theorem State.setStream_nextLog (s : State) (b k : Nat) (v : Stream) : (s.setStream b k v).nextLog = s.nextLog := rfl
@[simp] theorem State.setStream_requests (s : State) (b k : Nat) (v : Stream) : (s.setStream b k v).requests = s.requests := rfl
@[simp] theorem State.setStream_journal (s : State) (b k : Nat) (v : Stream) : (s.setStream b k v).journal = s.journal := rfl
@[simp] theorem State.setStream_budgetStart (s : State) (b k : Nat) (v : Stream) : (s.setStream b k v).budgetStart = s.budgetStart := rfl
@[simp] theorem State.setStream_budgetLen (s : State) (b k : Nat) (v : Stream) : (s.setStream b k v).budgetLen = s.budgetLen := rfl
@[simp] theorem State.setStream_spark (s : State) (b k : Nat) (v : Stream) : (s.setStream b k v).spark = s.spark := rfl
@[simp] theorem State.setStream_offered (s : State) (b k : Nat) (v : Stream) : (s.setStream b k v).offered = s.offered := rfl
@[simp] theorem State.setStream_coverPeriod (s : State) (b k : Nat) (v : Stream) : (s.setStream b k v).coverPeriod = s.coverPeriod := rfl
@[simp] theorem State.setStream_cxlViolations (s : State) (b k : Nat) (v : Stream) : (s.setStream b k v).cxlViolations = s.cxlViolations := rfl
@[simp] theorem State.setStream_enabledAt (s : State) (b k : Nat) (v : Stream) : (s.setStream b k v).enabledAt = s.enabledAt := rfl
@[simp] theorem State.setStream_faultLog (s : State) (b k : Nat) (v : Stream) : (s.setStream b k v).faultLog = s.faultLog := rfl
@[simp] theorem State.setStream_out (s : State) (b k : Nat) (v : Stream) : (s.setStream b k v).out = s.out := rfl
@[simp] theorem State.setStream_outHeld (s : State) (b k : Nat) (v : Stream) : (s.setStream b k v).outHeld = s.outHeld := rfl
@[simp] theorem State.setStream_free (s : State) (b k : Nat) (v : Stream) : (s.setStream b k v).free = s.free := rfl
@[simp] theorem State.setStream_pending (s : State) (b k : Nat) (v : Stream) : (s.setStream b k v).pending = s.pending := rfl

/-! ### `State.setPort` -/
@[simp] theorem State.setPort_regs (s : State) (k : Nat) (v : LipinPort) : (s.setPort k v).regs = s.regs := rfl
@[simp] theorem State.setPort_mem (s : State) (k : Nat) (v : LipinPort) : (s.setPort k v).mem = s.mem := rfl
@[simp] theorem State.setPort_flash (s : State) (k : Nat) (v : LipinPort) : (s.setPort k v).flash = s.flash := rfl
@[simp] theorem State.setPort_quarRecords (s : State) (k : Nat) (v : LipinPort) : (s.setPort k v).quarRecords = s.quarRecords := rfl
@[simp] theorem State.setPort_pins (s : State) (k : Nat) (v : LipinPort) : (s.setPort k v).pins = s.pins := rfl
@[simp] theorem State.setPort_fuses (s : State) (k : Nat) (v : LipinPort) : (s.setPort k v).fuses = s.fuses := rfl
@[simp] theorem State.setPort_security (s : State) (k : Nat) (v : LipinPort) : (s.setPort k v).security = s.security := rfl
@[simp] theorem State.setPort_anomalies (s : State) (k : Nat) (v : LipinPort) : (s.setPort k v).anomalies = s.anomalies := rfl
@[simp] theorem State.setPort_anomPeriod (s : State) (k : Nat) (v : LipinPort) : (s.setPort k v).anomPeriod = s.anomPeriod := rfl
@[simp] theorem State.setPort_edge (s : State) (k : Nat) (v : LipinPort) : (s.setPort k v).edge = s.edge := rfl
@[simp] theorem State.setPort_boundary (s : State) (k : Nat) (v : LipinPort) : (s.setPort k v).boundary = s.boundary := rfl
@[simp] theorem State.setPort_fcycles (s : State) (k : Nat) (v : LipinPort) : (s.setPort k v).fcycles = s.fcycles := rfl
@[simp] theorem State.setPort_refGone (s : State) (k : Nat) (v : LipinPort) : (s.setPort k v).refGone = s.refGone := rfl
@[simp] theorem State.setPort_warmWaitsRef (s : State) (k : Nat) (v : LipinPort) : (s.setPort k v).warmWaitsRef = s.warmWaitsRef := rfl
@[simp] theorem State.setPort_tiles (s : State) (k : Nat) (v : LipinPort) : (s.setPort k v).tiles = s.tiles := rfl
@[simp] theorem State.setPort_flights (s : State) (k : Nat) (v : LipinPort) : (s.setPort k v).flights = s.flights := rfl
@[simp] theorem State.setPort_creditFlights (s : State) (k : Nat) (v : LipinPort) : (s.setPort k v).creditFlights = s.creditFlights := rfl
@[simp] theorem State.setPort_parts (s : State) (k : Nat) (v : LipinPort) : (s.setPort k v).parts = s.parts := rfl
@[simp] theorem State.setPort_saved (s : State) (k : Nat) (v : LipinPort) : (s.setPort k v).saved = s.saved := rfl
@[simp] theorem State.setPort_movers (s : State) (k : Nat) (v : LipinPort) : (s.setPort k v).movers = s.movers := rfl
@[simp] theorem State.setPort_streams (s : State) (k : Nat) (v : LipinPort) : (s.setPort k v).streams = s.streams := rfl
@[simp] theorem State.setPort_tlb1 (s : State) (k : Nat) (v : LipinPort) : (s.setPort k v).tlb1 = s.tlb1 := rfl
@[simp] theorem State.setPort_tlb2 (s : State) (k : Nat) (v : LipinPort) : (s.setPort k v).tlb2 = s.tlb2 := rfl
@[simp] theorem State.setPort_walks (s : State) (k : Nat) (v : LipinPort) : (s.setPort k v).walks = s.walks := rfl
@[simp] theorem State.setPort_fetches (s : State) (k : Nat) (v : LipinPort) : (s.setPort k v).fetches = s.fetches := rfl
@[simp] theorem State.setPort_inval (s : State) (k : Nat) (v : LipinPort) : (s.setPort k v).inval = s.inval := rfl
@[simp] theorem State.setPort_hearth (s : State) (k : Nat) (v : LipinPort) : (s.setPort k v).hearth = s.hearth := rfl
@[simp] theorem State.setPort_hearthFills (s : State) (k : Nat) (v : LipinPort) : (s.setPort k v).hearthFills = s.hearthFills := rfl
@[simp] theorem State.setPort_ringTail (s : State) (k : Nat) (v : LipinPort) : (s.setPort k v).ringTail = s.ringTail := rfl
@[simp] theorem State.setPort_ringNext (s : State) (k : Nat) (v : LipinPort) : (s.setPort k v).ringNext = s.ringNext := rfl
@[simp] theorem State.setPort_ringDone (s : State) (k : Nat) (v : LipinPort) : (s.setPort k v).ringDone = s.ringDone := rfl
@[simp] theorem State.setPort_loads (s : State) (k : Nat) (v : LipinPort) : (s.setPort k v).loads = s.loads := rfl
@[simp] theorem State.setPort_fillJob (s : State) (k : Nat) (v : LipinPort) : (s.setPort k v).fillJob = s.fillJob := rfl
@[simp] theorem State.setPort_switched (s : State) (k : Nat) (v : LipinPort) : (s.setPort k v).switched = s.switched := rfl
@[simp] theorem State.setPort_lookups (s : State) (k : Nat) (v : LipinPort) : (s.setPort k v).lookups = s.lookups := rfl
@[simp] theorem State.setPort_leftFetching (s : State) (k : Nat) (v : LipinPort) : (s.setPort k v).leftFetching = s.leftFetching := rfl
@[simp] theorem State.setPort_outstanding (s : State) (k : Nat) (v : LipinPort) : (s.setPort k v).outstanding = s.outstanding := rfl
@[simp] theorem State.setPort_nextTag (s : State) (k : Nat) (v : LipinPort) : (s.setPort k v).nextTag = s.nextTag := rfl
@[simp] theorem State.setPort_lateTags (s : State) (k : Nat) (v : LipinPort) : (s.setPort k v).lateTags = s.lateTags := rfl
@[simp] theorem State.setPort_collectives (s : State) (k : Nat) (v : LipinPort) : (s.setPort k v).collectives = s.collectives := rfl
@[simp] theorem State.setPort_collRecords (s : State) (k : Nat) (v : LipinPort) : (s.setPort k v).collRecords = s.collRecords := rfl
@[simp] theorem State.setPort_staging (s : State) (k : Nat) (v : LipinPort) : (s.setPort k v).staging = s.staging := rfl
@[simp] theorem State.setPort_broadcasts (s : State) (k : Nat) (v : LipinPort) : (s.setPort k v).broadcasts = s.broadcasts := rfl
@[simp] theorem State.setPort_bcastAcks (s : State) (k : Nat) (v : LipinPort) : (s.setPort k v).bcastAcks = s.bcastAcks := rfl
@[simp] theorem State.setPort_power (s : State) (k : Nat) (v : LipinPort) : (s.setPort k v).power = s.power := rfl
@[simp] theorem State.setPort_logs (s : State) (k : Nat) (v : LipinPort) : (s.setPort k v).logs = s.logs := rfl
@[simp] theorem State.setPort_nextLog (s : State) (k : Nat) (v : LipinPort) : (s.setPort k v).nextLog = s.nextLog := rfl
@[simp] theorem State.setPort_requests (s : State) (k : Nat) (v : LipinPort) : (s.setPort k v).requests = s.requests := rfl
@[simp] theorem State.setPort_journal (s : State) (k : Nat) (v : LipinPort) : (s.setPort k v).journal = s.journal := rfl
@[simp] theorem State.setPort_budgetStart (s : State) (k : Nat) (v : LipinPort) : (s.setPort k v).budgetStart = s.budgetStart := rfl
@[simp] theorem State.setPort_budgetLen (s : State) (k : Nat) (v : LipinPort) : (s.setPort k v).budgetLen = s.budgetLen := rfl
@[simp] theorem State.setPort_spark (s : State) (k : Nat) (v : LipinPort) : (s.setPort k v).spark = s.spark := rfl
@[simp] theorem State.setPort_offered (s : State) (k : Nat) (v : LipinPort) : (s.setPort k v).offered = s.offered := rfl
@[simp] theorem State.setPort_coverPeriod (s : State) (k : Nat) (v : LipinPort) : (s.setPort k v).coverPeriod = s.coverPeriod := rfl
@[simp] theorem State.setPort_cxlViolations (s : State) (k : Nat) (v : LipinPort) : (s.setPort k v).cxlViolations = s.cxlViolations := rfl
@[simp] theorem State.setPort_enabledAt (s : State) (k : Nat) (v : LipinPort) : (s.setPort k v).enabledAt = s.enabledAt := rfl
@[simp] theorem State.setPort_faultLog (s : State) (k : Nat) (v : LipinPort) : (s.setPort k v).faultLog = s.faultLog := rfl
@[simp] theorem State.setPort_out (s : State) (k : Nat) (v : LipinPort) : (s.setPort k v).out = s.out := rfl
@[simp] theorem State.setPort_outHeld (s : State) (k : Nat) (v : LipinPort) : (s.setPort k v).outHeld = s.outHeld := rfl
@[simp] theorem State.setPort_free (s : State) (k : Nat) (v : LipinPort) : (s.setPort k v).free = s.free := rfl
@[simp] theorem State.setPort_pending (s : State) (k : Nat) (v : LipinPort) : (s.setPort k v).pending = s.pending := rfl

/-! ### `State.setLog` -/
@[simp] theorem State.setLog_regs (s : State) (k : Nat) (v : Log) : (s.setLog k v).regs = s.regs := rfl
@[simp] theorem State.setLog_mem (s : State) (k : Nat) (v : Log) : (s.setLog k v).mem = s.mem := rfl
@[simp] theorem State.setLog_flash (s : State) (k : Nat) (v : Log) : (s.setLog k v).flash = s.flash := rfl
@[simp] theorem State.setLog_quarRecords (s : State) (k : Nat) (v : Log) : (s.setLog k v).quarRecords = s.quarRecords := rfl
@[simp] theorem State.setLog_pins (s : State) (k : Nat) (v : Log) : (s.setLog k v).pins = s.pins := rfl
@[simp] theorem State.setLog_fuses (s : State) (k : Nat) (v : Log) : (s.setLog k v).fuses = s.fuses := rfl
@[simp] theorem State.setLog_security (s : State) (k : Nat) (v : Log) : (s.setLog k v).security = s.security := rfl
@[simp] theorem State.setLog_anomalies (s : State) (k : Nat) (v : Log) : (s.setLog k v).anomalies = s.anomalies := rfl
@[simp] theorem State.setLog_anomPeriod (s : State) (k : Nat) (v : Log) : (s.setLog k v).anomPeriod = s.anomPeriod := rfl
@[simp] theorem State.setLog_edge (s : State) (k : Nat) (v : Log) : (s.setLog k v).edge = s.edge := rfl
@[simp] theorem State.setLog_boundary (s : State) (k : Nat) (v : Log) : (s.setLog k v).boundary = s.boundary := rfl
@[simp] theorem State.setLog_fcycles (s : State) (k : Nat) (v : Log) : (s.setLog k v).fcycles = s.fcycles := rfl
@[simp] theorem State.setLog_refGone (s : State) (k : Nat) (v : Log) : (s.setLog k v).refGone = s.refGone := rfl
@[simp] theorem State.setLog_warmWaitsRef (s : State) (k : Nat) (v : Log) : (s.setLog k v).warmWaitsRef = s.warmWaitsRef := rfl
@[simp] theorem State.setLog_tiles (s : State) (k : Nat) (v : Log) : (s.setLog k v).tiles = s.tiles := rfl
@[simp] theorem State.setLog_flights (s : State) (k : Nat) (v : Log) : (s.setLog k v).flights = s.flights := rfl
@[simp] theorem State.setLog_creditFlights (s : State) (k : Nat) (v : Log) : (s.setLog k v).creditFlights = s.creditFlights := rfl
@[simp] theorem State.setLog_parts (s : State) (k : Nat) (v : Log) : (s.setLog k v).parts = s.parts := rfl
@[simp] theorem State.setLog_saved (s : State) (k : Nat) (v : Log) : (s.setLog k v).saved = s.saved := rfl
@[simp] theorem State.setLog_movers (s : State) (k : Nat) (v : Log) : (s.setLog k v).movers = s.movers := rfl
@[simp] theorem State.setLog_streams (s : State) (k : Nat) (v : Log) : (s.setLog k v).streams = s.streams := rfl
@[simp] theorem State.setLog_tlb1 (s : State) (k : Nat) (v : Log) : (s.setLog k v).tlb1 = s.tlb1 := rfl
@[simp] theorem State.setLog_tlb2 (s : State) (k : Nat) (v : Log) : (s.setLog k v).tlb2 = s.tlb2 := rfl
@[simp] theorem State.setLog_walks (s : State) (k : Nat) (v : Log) : (s.setLog k v).walks = s.walks := rfl
@[simp] theorem State.setLog_fetches (s : State) (k : Nat) (v : Log) : (s.setLog k v).fetches = s.fetches := rfl
@[simp] theorem State.setLog_inval (s : State) (k : Nat) (v : Log) : (s.setLog k v).inval = s.inval := rfl
@[simp] theorem State.setLog_hearth (s : State) (k : Nat) (v : Log) : (s.setLog k v).hearth = s.hearth := rfl
@[simp] theorem State.setLog_hearthFills (s : State) (k : Nat) (v : Log) : (s.setLog k v).hearthFills = s.hearthFills := rfl
@[simp] theorem State.setLog_ringTail (s : State) (k : Nat) (v : Log) : (s.setLog k v).ringTail = s.ringTail := rfl
@[simp] theorem State.setLog_ringNext (s : State) (k : Nat) (v : Log) : (s.setLog k v).ringNext = s.ringNext := rfl
@[simp] theorem State.setLog_ringDone (s : State) (k : Nat) (v : Log) : (s.setLog k v).ringDone = s.ringDone := rfl
@[simp] theorem State.setLog_loads (s : State) (k : Nat) (v : Log) : (s.setLog k v).loads = s.loads := rfl
@[simp] theorem State.setLog_fillJob (s : State) (k : Nat) (v : Log) : (s.setLog k v).fillJob = s.fillJob := rfl
@[simp] theorem State.setLog_switched (s : State) (k : Nat) (v : Log) : (s.setLog k v).switched = s.switched := rfl
@[simp] theorem State.setLog_lookups (s : State) (k : Nat) (v : Log) : (s.setLog k v).lookups = s.lookups := rfl
@[simp] theorem State.setLog_leftFetching (s : State) (k : Nat) (v : Log) : (s.setLog k v).leftFetching = s.leftFetching := rfl
@[simp] theorem State.setLog_ports (s : State) (k : Nat) (v : Log) : (s.setLog k v).ports = s.ports := rfl
@[simp] theorem State.setLog_outstanding (s : State) (k : Nat) (v : Log) : (s.setLog k v).outstanding = s.outstanding := rfl
@[simp] theorem State.setLog_nextTag (s : State) (k : Nat) (v : Log) : (s.setLog k v).nextTag = s.nextTag := rfl
@[simp] theorem State.setLog_lateTags (s : State) (k : Nat) (v : Log) : (s.setLog k v).lateTags = s.lateTags := rfl
@[simp] theorem State.setLog_collectives (s : State) (k : Nat) (v : Log) : (s.setLog k v).collectives = s.collectives := rfl
@[simp] theorem State.setLog_collRecords (s : State) (k : Nat) (v : Log) : (s.setLog k v).collRecords = s.collRecords := rfl
@[simp] theorem State.setLog_staging (s : State) (k : Nat) (v : Log) : (s.setLog k v).staging = s.staging := rfl
@[simp] theorem State.setLog_broadcasts (s : State) (k : Nat) (v : Log) : (s.setLog k v).broadcasts = s.broadcasts := rfl
@[simp] theorem State.setLog_bcastAcks (s : State) (k : Nat) (v : Log) : (s.setLog k v).bcastAcks = s.bcastAcks := rfl
@[simp] theorem State.setLog_power (s : State) (k : Nat) (v : Log) : (s.setLog k v).power = s.power := rfl
@[simp] theorem State.setLog_nextLog (s : State) (k : Nat) (v : Log) : (s.setLog k v).nextLog = s.nextLog := rfl
@[simp] theorem State.setLog_requests (s : State) (k : Nat) (v : Log) : (s.setLog k v).requests = s.requests := rfl
@[simp] theorem State.setLog_journal (s : State) (k : Nat) (v : Log) : (s.setLog k v).journal = s.journal := rfl
@[simp] theorem State.setLog_budgetStart (s : State) (k : Nat) (v : Log) : (s.setLog k v).budgetStart = s.budgetStart := rfl
@[simp] theorem State.setLog_budgetLen (s : State) (k : Nat) (v : Log) : (s.setLog k v).budgetLen = s.budgetLen := rfl
@[simp] theorem State.setLog_spark (s : State) (k : Nat) (v : Log) : (s.setLog k v).spark = s.spark := rfl
@[simp] theorem State.setLog_offered (s : State) (k : Nat) (v : Log) : (s.setLog k v).offered = s.offered := rfl
@[simp] theorem State.setLog_coverPeriod (s : State) (k : Nat) (v : Log) : (s.setLog k v).coverPeriod = s.coverPeriod := rfl
@[simp] theorem State.setLog_cxlViolations (s : State) (k : Nat) (v : Log) : (s.setLog k v).cxlViolations = s.cxlViolations := rfl
@[simp] theorem State.setLog_enabledAt (s : State) (k : Nat) (v : Log) : (s.setLog k v).enabledAt = s.enabledAt := rfl
@[simp] theorem State.setLog_faultLog (s : State) (k : Nat) (v : Log) : (s.setLog k v).faultLog = s.faultLog := rfl
@[simp] theorem State.setLog_out (s : State) (k : Nat) (v : Log) : (s.setLog k v).out = s.out := rfl
@[simp] theorem State.setLog_outHeld (s : State) (k : Nat) (v : Log) : (s.setLog k v).outHeld = s.outHeld := rfl
@[simp] theorem State.setLog_free (s : State) (k : Nat) (v : Log) : (s.setLog k v).free = s.free := rfl
@[simp] theorem State.setLog_pending (s : State) (k : Nat) (v : Log) : (s.setLog k v).pending = s.pending := rfl

/-! ### `State.setRequest` -/
@[simp] theorem State.setRequest_regs (s : State) (k : Nat) (v : Request) : (s.setRequest k v).regs = s.regs := rfl
@[simp] theorem State.setRequest_mem (s : State) (k : Nat) (v : Request) : (s.setRequest k v).mem = s.mem := rfl
@[simp] theorem State.setRequest_flash (s : State) (k : Nat) (v : Request) : (s.setRequest k v).flash = s.flash := rfl
@[simp] theorem State.setRequest_quarRecords (s : State) (k : Nat) (v : Request) : (s.setRequest k v).quarRecords = s.quarRecords := rfl
@[simp] theorem State.setRequest_pins (s : State) (k : Nat) (v : Request) : (s.setRequest k v).pins = s.pins := rfl
@[simp] theorem State.setRequest_fuses (s : State) (k : Nat) (v : Request) : (s.setRequest k v).fuses = s.fuses := rfl
@[simp] theorem State.setRequest_security (s : State) (k : Nat) (v : Request) : (s.setRequest k v).security = s.security := rfl
@[simp] theorem State.setRequest_anomalies (s : State) (k : Nat) (v : Request) : (s.setRequest k v).anomalies = s.anomalies := rfl
@[simp] theorem State.setRequest_anomPeriod (s : State) (k : Nat) (v : Request) : (s.setRequest k v).anomPeriod = s.anomPeriod := rfl
@[simp] theorem State.setRequest_edge (s : State) (k : Nat) (v : Request) : (s.setRequest k v).edge = s.edge := rfl
@[simp] theorem State.setRequest_boundary (s : State) (k : Nat) (v : Request) : (s.setRequest k v).boundary = s.boundary := rfl
@[simp] theorem State.setRequest_fcycles (s : State) (k : Nat) (v : Request) : (s.setRequest k v).fcycles = s.fcycles := rfl
@[simp] theorem State.setRequest_refGone (s : State) (k : Nat) (v : Request) : (s.setRequest k v).refGone = s.refGone := rfl
@[simp] theorem State.setRequest_warmWaitsRef (s : State) (k : Nat) (v : Request) : (s.setRequest k v).warmWaitsRef = s.warmWaitsRef := rfl
@[simp] theorem State.setRequest_tiles (s : State) (k : Nat) (v : Request) : (s.setRequest k v).tiles = s.tiles := rfl
@[simp] theorem State.setRequest_flights (s : State) (k : Nat) (v : Request) : (s.setRequest k v).flights = s.flights := rfl
@[simp] theorem State.setRequest_creditFlights (s : State) (k : Nat) (v : Request) : (s.setRequest k v).creditFlights = s.creditFlights := rfl
@[simp] theorem State.setRequest_parts (s : State) (k : Nat) (v : Request) : (s.setRequest k v).parts = s.parts := rfl
@[simp] theorem State.setRequest_saved (s : State) (k : Nat) (v : Request) : (s.setRequest k v).saved = s.saved := rfl
@[simp] theorem State.setRequest_movers (s : State) (k : Nat) (v : Request) : (s.setRequest k v).movers = s.movers := rfl
@[simp] theorem State.setRequest_streams (s : State) (k : Nat) (v : Request) : (s.setRequest k v).streams = s.streams := rfl
@[simp] theorem State.setRequest_tlb1 (s : State) (k : Nat) (v : Request) : (s.setRequest k v).tlb1 = s.tlb1 := rfl
@[simp] theorem State.setRequest_tlb2 (s : State) (k : Nat) (v : Request) : (s.setRequest k v).tlb2 = s.tlb2 := rfl
@[simp] theorem State.setRequest_walks (s : State) (k : Nat) (v : Request) : (s.setRequest k v).walks = s.walks := rfl
@[simp] theorem State.setRequest_fetches (s : State) (k : Nat) (v : Request) : (s.setRequest k v).fetches = s.fetches := rfl
@[simp] theorem State.setRequest_inval (s : State) (k : Nat) (v : Request) : (s.setRequest k v).inval = s.inval := rfl
@[simp] theorem State.setRequest_hearth (s : State) (k : Nat) (v : Request) : (s.setRequest k v).hearth = s.hearth := rfl
@[simp] theorem State.setRequest_hearthFills (s : State) (k : Nat) (v : Request) : (s.setRequest k v).hearthFills = s.hearthFills := rfl
@[simp] theorem State.setRequest_ringTail (s : State) (k : Nat) (v : Request) : (s.setRequest k v).ringTail = s.ringTail := rfl
@[simp] theorem State.setRequest_ringNext (s : State) (k : Nat) (v : Request) : (s.setRequest k v).ringNext = s.ringNext := rfl
@[simp] theorem State.setRequest_ringDone (s : State) (k : Nat) (v : Request) : (s.setRequest k v).ringDone = s.ringDone := rfl
@[simp] theorem State.setRequest_loads (s : State) (k : Nat) (v : Request) : (s.setRequest k v).loads = s.loads := rfl
@[simp] theorem State.setRequest_fillJob (s : State) (k : Nat) (v : Request) : (s.setRequest k v).fillJob = s.fillJob := rfl
@[simp] theorem State.setRequest_switched (s : State) (k : Nat) (v : Request) : (s.setRequest k v).switched = s.switched := rfl
@[simp] theorem State.setRequest_lookups (s : State) (k : Nat) (v : Request) : (s.setRequest k v).lookups = s.lookups := rfl
@[simp] theorem State.setRequest_leftFetching (s : State) (k : Nat) (v : Request) : (s.setRequest k v).leftFetching = s.leftFetching := rfl
@[simp] theorem State.setRequest_ports (s : State) (k : Nat) (v : Request) : (s.setRequest k v).ports = s.ports := rfl
@[simp] theorem State.setRequest_outstanding (s : State) (k : Nat) (v : Request) : (s.setRequest k v).outstanding = s.outstanding := rfl
@[simp] theorem State.setRequest_nextTag (s : State) (k : Nat) (v : Request) : (s.setRequest k v).nextTag = s.nextTag := rfl
@[simp] theorem State.setRequest_lateTags (s : State) (k : Nat) (v : Request) : (s.setRequest k v).lateTags = s.lateTags := rfl
@[simp] theorem State.setRequest_collectives (s : State) (k : Nat) (v : Request) : (s.setRequest k v).collectives = s.collectives := rfl
@[simp] theorem State.setRequest_collRecords (s : State) (k : Nat) (v : Request) : (s.setRequest k v).collRecords = s.collRecords := rfl
@[simp] theorem State.setRequest_staging (s : State) (k : Nat) (v : Request) : (s.setRequest k v).staging = s.staging := rfl
@[simp] theorem State.setRequest_broadcasts (s : State) (k : Nat) (v : Request) : (s.setRequest k v).broadcasts = s.broadcasts := rfl
@[simp] theorem State.setRequest_bcastAcks (s : State) (k : Nat) (v : Request) : (s.setRequest k v).bcastAcks = s.bcastAcks := rfl
@[simp] theorem State.setRequest_power (s : State) (k : Nat) (v : Request) : (s.setRequest k v).power = s.power := rfl
@[simp] theorem State.setRequest_logs (s : State) (k : Nat) (v : Request) : (s.setRequest k v).logs = s.logs := rfl
@[simp] theorem State.setRequest_nextLog (s : State) (k : Nat) (v : Request) : (s.setRequest k v).nextLog = s.nextLog := rfl
@[simp] theorem State.setRequest_journal (s : State) (k : Nat) (v : Request) : (s.setRequest k v).journal = s.journal := rfl
@[simp] theorem State.setRequest_budgetStart (s : State) (k : Nat) (v : Request) : (s.setRequest k v).budgetStart = s.budgetStart := rfl
@[simp] theorem State.setRequest_budgetLen (s : State) (k : Nat) (v : Request) : (s.setRequest k v).budgetLen = s.budgetLen := rfl
@[simp] theorem State.setRequest_spark (s : State) (k : Nat) (v : Request) : (s.setRequest k v).spark = s.spark := rfl
@[simp] theorem State.setRequest_offered (s : State) (k : Nat) (v : Request) : (s.setRequest k v).offered = s.offered := rfl
@[simp] theorem State.setRequest_coverPeriod (s : State) (k : Nat) (v : Request) : (s.setRequest k v).coverPeriod = s.coverPeriod := rfl
@[simp] theorem State.setRequest_cxlViolations (s : State) (k : Nat) (v : Request) : (s.setRequest k v).cxlViolations = s.cxlViolations := rfl
@[simp] theorem State.setRequest_enabledAt (s : State) (k : Nat) (v : Request) : (s.setRequest k v).enabledAt = s.enabledAt := rfl
@[simp] theorem State.setRequest_faultLog (s : State) (k : Nat) (v : Request) : (s.setRequest k v).faultLog = s.faultLog := rfl
@[simp] theorem State.setRequest_out (s : State) (k : Nat) (v : Request) : (s.setRequest k v).out = s.out := rfl
@[simp] theorem State.setRequest_outHeld (s : State) (k : Nat) (v : Request) : (s.setRequest k v).outHeld = s.outHeld := rfl
@[simp] theorem State.setRequest_free (s : State) (k : Nat) (v : Request) : (s.setRequest k v).free = s.free := rfl
@[simp] theorem State.setRequest_pending (s : State) (k : Nat) (v : Request) : (s.setRequest k v).pending = s.pending := rfl

/-! ### `State.setSparkTile` -/
@[simp] theorem State.setSparkTile_regs (s : State) (k : Nat) (v : SparkTile) : (s.setSparkTile k v).regs = s.regs := rfl
@[simp] theorem State.setSparkTile_mem (s : State) (k : Nat) (v : SparkTile) : (s.setSparkTile k v).mem = s.mem := rfl
@[simp] theorem State.setSparkTile_flash (s : State) (k : Nat) (v : SparkTile) : (s.setSparkTile k v).flash = s.flash := rfl
@[simp] theorem State.setSparkTile_quarRecords (s : State) (k : Nat) (v : SparkTile) : (s.setSparkTile k v).quarRecords = s.quarRecords := rfl
@[simp] theorem State.setSparkTile_pins (s : State) (k : Nat) (v : SparkTile) : (s.setSparkTile k v).pins = s.pins := rfl
@[simp] theorem State.setSparkTile_fuses (s : State) (k : Nat) (v : SparkTile) : (s.setSparkTile k v).fuses = s.fuses := rfl
@[simp] theorem State.setSparkTile_security (s : State) (k : Nat) (v : SparkTile) : (s.setSparkTile k v).security = s.security := rfl
@[simp] theorem State.setSparkTile_anomalies (s : State) (k : Nat) (v : SparkTile) : (s.setSparkTile k v).anomalies = s.anomalies := rfl
@[simp] theorem State.setSparkTile_anomPeriod (s : State) (k : Nat) (v : SparkTile) : (s.setSparkTile k v).anomPeriod = s.anomPeriod := rfl
@[simp] theorem State.setSparkTile_edge (s : State) (k : Nat) (v : SparkTile) : (s.setSparkTile k v).edge = s.edge := rfl
@[simp] theorem State.setSparkTile_boundary (s : State) (k : Nat) (v : SparkTile) : (s.setSparkTile k v).boundary = s.boundary := rfl
@[simp] theorem State.setSparkTile_fcycles (s : State) (k : Nat) (v : SparkTile) : (s.setSparkTile k v).fcycles = s.fcycles := rfl
@[simp] theorem State.setSparkTile_refGone (s : State) (k : Nat) (v : SparkTile) : (s.setSparkTile k v).refGone = s.refGone := rfl
@[simp] theorem State.setSparkTile_warmWaitsRef (s : State) (k : Nat) (v : SparkTile) : (s.setSparkTile k v).warmWaitsRef = s.warmWaitsRef := rfl
@[simp] theorem State.setSparkTile_tiles (s : State) (k : Nat) (v : SparkTile) : (s.setSparkTile k v).tiles = s.tiles := rfl
@[simp] theorem State.setSparkTile_flights (s : State) (k : Nat) (v : SparkTile) : (s.setSparkTile k v).flights = s.flights := rfl
@[simp] theorem State.setSparkTile_creditFlights (s : State) (k : Nat) (v : SparkTile) : (s.setSparkTile k v).creditFlights = s.creditFlights := rfl
@[simp] theorem State.setSparkTile_parts (s : State) (k : Nat) (v : SparkTile) : (s.setSparkTile k v).parts = s.parts := rfl
@[simp] theorem State.setSparkTile_saved (s : State) (k : Nat) (v : SparkTile) : (s.setSparkTile k v).saved = s.saved := rfl
@[simp] theorem State.setSparkTile_movers (s : State) (k : Nat) (v : SparkTile) : (s.setSparkTile k v).movers = s.movers := rfl
@[simp] theorem State.setSparkTile_streams (s : State) (k : Nat) (v : SparkTile) : (s.setSparkTile k v).streams = s.streams := rfl
@[simp] theorem State.setSparkTile_tlb1 (s : State) (k : Nat) (v : SparkTile) : (s.setSparkTile k v).tlb1 = s.tlb1 := rfl
@[simp] theorem State.setSparkTile_tlb2 (s : State) (k : Nat) (v : SparkTile) : (s.setSparkTile k v).tlb2 = s.tlb2 := rfl
@[simp] theorem State.setSparkTile_walks (s : State) (k : Nat) (v : SparkTile) : (s.setSparkTile k v).walks = s.walks := rfl
@[simp] theorem State.setSparkTile_fetches (s : State) (k : Nat) (v : SparkTile) : (s.setSparkTile k v).fetches = s.fetches := rfl
@[simp] theorem State.setSparkTile_inval (s : State) (k : Nat) (v : SparkTile) : (s.setSparkTile k v).inval = s.inval := rfl
@[simp] theorem State.setSparkTile_hearth (s : State) (k : Nat) (v : SparkTile) : (s.setSparkTile k v).hearth = s.hearth := rfl
@[simp] theorem State.setSparkTile_hearthFills (s : State) (k : Nat) (v : SparkTile) : (s.setSparkTile k v).hearthFills = s.hearthFills := rfl
@[simp] theorem State.setSparkTile_ringTail (s : State) (k : Nat) (v : SparkTile) : (s.setSparkTile k v).ringTail = s.ringTail := rfl
@[simp] theorem State.setSparkTile_ringNext (s : State) (k : Nat) (v : SparkTile) : (s.setSparkTile k v).ringNext = s.ringNext := rfl
@[simp] theorem State.setSparkTile_ringDone (s : State) (k : Nat) (v : SparkTile) : (s.setSparkTile k v).ringDone = s.ringDone := rfl
@[simp] theorem State.setSparkTile_loads (s : State) (k : Nat) (v : SparkTile) : (s.setSparkTile k v).loads = s.loads := rfl
@[simp] theorem State.setSparkTile_fillJob (s : State) (k : Nat) (v : SparkTile) : (s.setSparkTile k v).fillJob = s.fillJob := rfl
@[simp] theorem State.setSparkTile_switched (s : State) (k : Nat) (v : SparkTile) : (s.setSparkTile k v).switched = s.switched := rfl
@[simp] theorem State.setSparkTile_lookups (s : State) (k : Nat) (v : SparkTile) : (s.setSparkTile k v).lookups = s.lookups := rfl
@[simp] theorem State.setSparkTile_leftFetching (s : State) (k : Nat) (v : SparkTile) : (s.setSparkTile k v).leftFetching = s.leftFetching := rfl
@[simp] theorem State.setSparkTile_ports (s : State) (k : Nat) (v : SparkTile) : (s.setSparkTile k v).ports = s.ports := rfl
@[simp] theorem State.setSparkTile_outstanding (s : State) (k : Nat) (v : SparkTile) : (s.setSparkTile k v).outstanding = s.outstanding := rfl
@[simp] theorem State.setSparkTile_nextTag (s : State) (k : Nat) (v : SparkTile) : (s.setSparkTile k v).nextTag = s.nextTag := rfl
@[simp] theorem State.setSparkTile_lateTags (s : State) (k : Nat) (v : SparkTile) : (s.setSparkTile k v).lateTags = s.lateTags := rfl
@[simp] theorem State.setSparkTile_collectives (s : State) (k : Nat) (v : SparkTile) : (s.setSparkTile k v).collectives = s.collectives := rfl
@[simp] theorem State.setSparkTile_collRecords (s : State) (k : Nat) (v : SparkTile) : (s.setSparkTile k v).collRecords = s.collRecords := rfl
@[simp] theorem State.setSparkTile_staging (s : State) (k : Nat) (v : SparkTile) : (s.setSparkTile k v).staging = s.staging := rfl
@[simp] theorem State.setSparkTile_broadcasts (s : State) (k : Nat) (v : SparkTile) : (s.setSparkTile k v).broadcasts = s.broadcasts := rfl
@[simp] theorem State.setSparkTile_bcastAcks (s : State) (k : Nat) (v : SparkTile) : (s.setSparkTile k v).bcastAcks = s.bcastAcks := rfl
@[simp] theorem State.setSparkTile_power (s : State) (k : Nat) (v : SparkTile) : (s.setSparkTile k v).power = s.power := rfl
@[simp] theorem State.setSparkTile_logs (s : State) (k : Nat) (v : SparkTile) : (s.setSparkTile k v).logs = s.logs := rfl
@[simp] theorem State.setSparkTile_nextLog (s : State) (k : Nat) (v : SparkTile) : (s.setSparkTile k v).nextLog = s.nextLog := rfl
@[simp] theorem State.setSparkTile_requests (s : State) (k : Nat) (v : SparkTile) : (s.setSparkTile k v).requests = s.requests := rfl
@[simp] theorem State.setSparkTile_journal (s : State) (k : Nat) (v : SparkTile) : (s.setSparkTile k v).journal = s.journal := rfl
@[simp] theorem State.setSparkTile_budgetStart (s : State) (k : Nat) (v : SparkTile) : (s.setSparkTile k v).budgetStart = s.budgetStart := rfl
@[simp] theorem State.setSparkTile_budgetLen (s : State) (k : Nat) (v : SparkTile) : (s.setSparkTile k v).budgetLen = s.budgetLen := rfl
@[simp] theorem State.setSparkTile_offered (s : State) (k : Nat) (v : SparkTile) : (s.setSparkTile k v).offered = s.offered := rfl
@[simp] theorem State.setSparkTile_coverPeriod (s : State) (k : Nat) (v : SparkTile) : (s.setSparkTile k v).coverPeriod = s.coverPeriod := rfl
@[simp] theorem State.setSparkTile_cxlViolations (s : State) (k : Nat) (v : SparkTile) : (s.setSparkTile k v).cxlViolations = s.cxlViolations := rfl
@[simp] theorem State.setSparkTile_enabledAt (s : State) (k : Nat) (v : SparkTile) : (s.setSparkTile k v).enabledAt = s.enabledAt := rfl
@[simp] theorem State.setSparkTile_faultLog (s : State) (k : Nat) (v : SparkTile) : (s.setSparkTile k v).faultLog = s.faultLog := rfl
@[simp] theorem State.setSparkTile_out (s : State) (k : Nat) (v : SparkTile) : (s.setSparkTile k v).out = s.out := rfl
@[simp] theorem State.setSparkTile_outHeld (s : State) (k : Nat) (v : SparkTile) : (s.setSparkTile k v).outHeld = s.outHeld := rfl
@[simp] theorem State.setSparkTile_free (s : State) (k : Nat) (v : SparkTile) : (s.setSparkTile k v).free = s.free := rfl
@[simp] theorem State.setSparkTile_pending (s : State) (k : Nat) (v : SparkTile) : (s.setSparkTile k v).pending = s.pending := rfl

/-! ### `State.emit` -/
@[simp] theorem State.emit_regs (s : State) (o : Output) : (s.emit o).regs = s.regs := rfl
@[simp] theorem State.emit_mem (s : State) (o : Output) : (s.emit o).mem = s.mem := rfl
@[simp] theorem State.emit_flash (s : State) (o : Output) : (s.emit o).flash = s.flash := rfl
@[simp] theorem State.emit_quarRecords (s : State) (o : Output) : (s.emit o).quarRecords = s.quarRecords := rfl
@[simp] theorem State.emit_pins (s : State) (o : Output) : (s.emit o).pins = s.pins := rfl
@[simp] theorem State.emit_fuses (s : State) (o : Output) : (s.emit o).fuses = s.fuses := rfl
@[simp] theorem State.emit_security (s : State) (o : Output) : (s.emit o).security = s.security := rfl
@[simp] theorem State.emit_anomalies (s : State) (o : Output) : (s.emit o).anomalies = s.anomalies := rfl
@[simp] theorem State.emit_anomPeriod (s : State) (o : Output) : (s.emit o).anomPeriod = s.anomPeriod := rfl
@[simp] theorem State.emit_edge (s : State) (o : Output) : (s.emit o).edge = s.edge := rfl
@[simp] theorem State.emit_boundary (s : State) (o : Output) : (s.emit o).boundary = s.boundary := rfl
@[simp] theorem State.emit_fcycles (s : State) (o : Output) : (s.emit o).fcycles = s.fcycles := rfl
@[simp] theorem State.emit_refGone (s : State) (o : Output) : (s.emit o).refGone = s.refGone := rfl
@[simp] theorem State.emit_warmWaitsRef (s : State) (o : Output) : (s.emit o).warmWaitsRef = s.warmWaitsRef := rfl
@[simp] theorem State.emit_tiles (s : State) (o : Output) : (s.emit o).tiles = s.tiles := rfl
@[simp] theorem State.emit_flights (s : State) (o : Output) : (s.emit o).flights = s.flights := rfl
@[simp] theorem State.emit_creditFlights (s : State) (o : Output) : (s.emit o).creditFlights = s.creditFlights := rfl
@[simp] theorem State.emit_parts (s : State) (o : Output) : (s.emit o).parts = s.parts := rfl
@[simp] theorem State.emit_saved (s : State) (o : Output) : (s.emit o).saved = s.saved := rfl
@[simp] theorem State.emit_movers (s : State) (o : Output) : (s.emit o).movers = s.movers := rfl
@[simp] theorem State.emit_streams (s : State) (o : Output) : (s.emit o).streams = s.streams := rfl
@[simp] theorem State.emit_tlb1 (s : State) (o : Output) : (s.emit o).tlb1 = s.tlb1 := rfl
@[simp] theorem State.emit_tlb2 (s : State) (o : Output) : (s.emit o).tlb2 = s.tlb2 := rfl
@[simp] theorem State.emit_walks (s : State) (o : Output) : (s.emit o).walks = s.walks := rfl
@[simp] theorem State.emit_fetches (s : State) (o : Output) : (s.emit o).fetches = s.fetches := rfl
@[simp] theorem State.emit_inval (s : State) (o : Output) : (s.emit o).inval = s.inval := rfl
@[simp] theorem State.emit_hearth (s : State) (o : Output) : (s.emit o).hearth = s.hearth := rfl
@[simp] theorem State.emit_hearthFills (s : State) (o : Output) : (s.emit o).hearthFills = s.hearthFills := rfl
@[simp] theorem State.emit_ringTail (s : State) (o : Output) : (s.emit o).ringTail = s.ringTail := rfl
@[simp] theorem State.emit_ringNext (s : State) (o : Output) : (s.emit o).ringNext = s.ringNext := rfl
@[simp] theorem State.emit_ringDone (s : State) (o : Output) : (s.emit o).ringDone = s.ringDone := rfl
@[simp] theorem State.emit_loads (s : State) (o : Output) : (s.emit o).loads = s.loads := rfl
@[simp] theorem State.emit_fillJob (s : State) (o : Output) : (s.emit o).fillJob = s.fillJob := rfl
@[simp] theorem State.emit_switched (s : State) (o : Output) : (s.emit o).switched = s.switched := rfl
@[simp] theorem State.emit_lookups (s : State) (o : Output) : (s.emit o).lookups = s.lookups := rfl
@[simp] theorem State.emit_leftFetching (s : State) (o : Output) : (s.emit o).leftFetching = s.leftFetching := rfl
@[simp] theorem State.emit_ports (s : State) (o : Output) : (s.emit o).ports = s.ports := rfl
@[simp] theorem State.emit_outstanding (s : State) (o : Output) : (s.emit o).outstanding = s.outstanding := rfl
@[simp] theorem State.emit_nextTag (s : State) (o : Output) : (s.emit o).nextTag = s.nextTag := rfl
@[simp] theorem State.emit_lateTags (s : State) (o : Output) : (s.emit o).lateTags = s.lateTags := rfl
@[simp] theorem State.emit_collectives (s : State) (o : Output) : (s.emit o).collectives = s.collectives := rfl
@[simp] theorem State.emit_collRecords (s : State) (o : Output) : (s.emit o).collRecords = s.collRecords := rfl
@[simp] theorem State.emit_staging (s : State) (o : Output) : (s.emit o).staging = s.staging := rfl
@[simp] theorem State.emit_broadcasts (s : State) (o : Output) : (s.emit o).broadcasts = s.broadcasts := rfl
@[simp] theorem State.emit_bcastAcks (s : State) (o : Output) : (s.emit o).bcastAcks = s.bcastAcks := rfl
@[simp] theorem State.emit_power (s : State) (o : Output) : (s.emit o).power = s.power := rfl
@[simp] theorem State.emit_logs (s : State) (o : Output) : (s.emit o).logs = s.logs := rfl
@[simp] theorem State.emit_nextLog (s : State) (o : Output) : (s.emit o).nextLog = s.nextLog := rfl
@[simp] theorem State.emit_requests (s : State) (o : Output) : (s.emit o).requests = s.requests := rfl
@[simp] theorem State.emit_journal (s : State) (o : Output) : (s.emit o).journal = s.journal := rfl
@[simp] theorem State.emit_budgetStart (s : State) (o : Output) : (s.emit o).budgetStart = s.budgetStart := rfl
@[simp] theorem State.emit_budgetLen (s : State) (o : Output) : (s.emit o).budgetLen = s.budgetLen := rfl
@[simp] theorem State.emit_spark (s : State) (o : Output) : (s.emit o).spark = s.spark := rfl
@[simp] theorem State.emit_offered (s : State) (o : Output) : (s.emit o).offered = s.offered := rfl
@[simp] theorem State.emit_coverPeriod (s : State) (o : Output) : (s.emit o).coverPeriod = s.coverPeriod := rfl
@[simp] theorem State.emit_cxlViolations (s : State) (o : Output) : (s.emit o).cxlViolations = s.cxlViolations := rfl
@[simp] theorem State.emit_enabledAt (s : State) (o : Output) : (s.emit o).enabledAt = s.enabledAt := rfl
@[simp] theorem State.emit_faultLog (s : State) (o : Output) : (s.emit o).faultLog = s.faultLog := rfl
@[simp] theorem State.emit_outHeld (s : State) (o : Output) : (s.emit o).outHeld = s.outHeld := rfl
@[simp] theorem State.emit_free (s : State) (o : Output) : (s.emit o).free = s.free := rfl
@[simp] theorem State.emit_pending (s : State) (o : Output) : (s.emit o).pending = s.pending := rfl

/-! ### `State.took` -/
@[simp] theorem State.took_regs (s : State) : (s.took).regs = s.regs := rfl
@[simp] theorem State.took_mem (s : State) : (s.took).mem = s.mem := rfl
@[simp] theorem State.took_flash (s : State) : (s.took).flash = s.flash := rfl
@[simp] theorem State.took_quarRecords (s : State) : (s.took).quarRecords = s.quarRecords := rfl
@[simp] theorem State.took_pins (s : State) : (s.took).pins = s.pins := rfl
@[simp] theorem State.took_fuses (s : State) : (s.took).fuses = s.fuses := rfl
@[simp] theorem State.took_security (s : State) : (s.took).security = s.security := rfl
@[simp] theorem State.took_anomalies (s : State) : (s.took).anomalies = s.anomalies := rfl
@[simp] theorem State.took_anomPeriod (s : State) : (s.took).anomPeriod = s.anomPeriod := rfl
@[simp] theorem State.took_edge (s : State) : (s.took).edge = s.edge := rfl
@[simp] theorem State.took_boundary (s : State) : (s.took).boundary = s.boundary := rfl
@[simp] theorem State.took_fcycles (s : State) : (s.took).fcycles = s.fcycles := rfl
@[simp] theorem State.took_refGone (s : State) : (s.took).refGone = s.refGone := rfl
@[simp] theorem State.took_warmWaitsRef (s : State) : (s.took).warmWaitsRef = s.warmWaitsRef := rfl
@[simp] theorem State.took_tiles (s : State) : (s.took).tiles = s.tiles := rfl
@[simp] theorem State.took_flights (s : State) : (s.took).flights = s.flights := rfl
@[simp] theorem State.took_creditFlights (s : State) : (s.took).creditFlights = s.creditFlights := rfl
@[simp] theorem State.took_parts (s : State) : (s.took).parts = s.parts := rfl
@[simp] theorem State.took_saved (s : State) : (s.took).saved = s.saved := rfl
@[simp] theorem State.took_movers (s : State) : (s.took).movers = s.movers := rfl
@[simp] theorem State.took_streams (s : State) : (s.took).streams = s.streams := rfl
@[simp] theorem State.took_tlb1 (s : State) : (s.took).tlb1 = s.tlb1 := rfl
@[simp] theorem State.took_tlb2 (s : State) : (s.took).tlb2 = s.tlb2 := rfl
@[simp] theorem State.took_walks (s : State) : (s.took).walks = s.walks := rfl
@[simp] theorem State.took_fetches (s : State) : (s.took).fetches = s.fetches := rfl
@[simp] theorem State.took_inval (s : State) : (s.took).inval = s.inval := rfl
@[simp] theorem State.took_hearth (s : State) : (s.took).hearth = s.hearth := rfl
@[simp] theorem State.took_hearthFills (s : State) : (s.took).hearthFills = s.hearthFills := rfl
@[simp] theorem State.took_ringTail (s : State) : (s.took).ringTail = s.ringTail := rfl
@[simp] theorem State.took_ringNext (s : State) : (s.took).ringNext = s.ringNext := rfl
@[simp] theorem State.took_ringDone (s : State) : (s.took).ringDone = s.ringDone := rfl
@[simp] theorem State.took_loads (s : State) : (s.took).loads = s.loads := rfl
@[simp] theorem State.took_fillJob (s : State) : (s.took).fillJob = s.fillJob := rfl
@[simp] theorem State.took_switched (s : State) : (s.took).switched = s.switched := rfl
@[simp] theorem State.took_lookups (s : State) : (s.took).lookups = s.lookups := rfl
@[simp] theorem State.took_leftFetching (s : State) : (s.took).leftFetching = s.leftFetching := rfl
@[simp] theorem State.took_ports (s : State) : (s.took).ports = s.ports := rfl
@[simp] theorem State.took_outstanding (s : State) : (s.took).outstanding = s.outstanding := rfl
@[simp] theorem State.took_nextTag (s : State) : (s.took).nextTag = s.nextTag := rfl
@[simp] theorem State.took_lateTags (s : State) : (s.took).lateTags = s.lateTags := rfl
@[simp] theorem State.took_collectives (s : State) : (s.took).collectives = s.collectives := rfl
@[simp] theorem State.took_collRecords (s : State) : (s.took).collRecords = s.collRecords := rfl
@[simp] theorem State.took_staging (s : State) : (s.took).staging = s.staging := rfl
@[simp] theorem State.took_broadcasts (s : State) : (s.took).broadcasts = s.broadcasts := rfl
@[simp] theorem State.took_bcastAcks (s : State) : (s.took).bcastAcks = s.bcastAcks := rfl
@[simp] theorem State.took_power (s : State) : (s.took).power = s.power := rfl
@[simp] theorem State.took_logs (s : State) : (s.took).logs = s.logs := rfl
@[simp] theorem State.took_nextLog (s : State) : (s.took).nextLog = s.nextLog := rfl
@[simp] theorem State.took_requests (s : State) : (s.took).requests = s.requests := rfl
@[simp] theorem State.took_journal (s : State) : (s.took).journal = s.journal := rfl
@[simp] theorem State.took_budgetStart (s : State) : (s.took).budgetStart = s.budgetStart := rfl
@[simp] theorem State.took_budgetLen (s : State) : (s.took).budgetLen = s.budgetLen := rfl
@[simp] theorem State.took_spark (s : State) : (s.took).spark = s.spark := rfl
@[simp] theorem State.took_offered (s : State) : (s.took).offered = s.offered := rfl
@[simp] theorem State.took_coverPeriod (s : State) : (s.took).coverPeriod = s.coverPeriod := rfl
@[simp] theorem State.took_cxlViolations (s : State) : (s.took).cxlViolations = s.cxlViolations := rfl
@[simp] theorem State.took_enabledAt (s : State) : (s.took).enabledAt = s.enabledAt := rfl
@[simp] theorem State.took_faultLog (s : State) : (s.took).faultLog = s.faultLog := rfl
@[simp] theorem State.took_out (s : State) : (s.took).out = s.out := rfl
@[simp] theorem State.took_outHeld (s : State) : (s.took).outHeld = s.outHeld := rfl
@[simp] theorem State.took_pending (s : State) : (s.took).pending = s.pending := rfl

/-! ### `State.logFault` -/
@[simp] theorem State.logFault_regs (s : State) (r : FaultRecord) : (s.logFault r).regs = s.regs := rfl
@[simp] theorem State.logFault_mem (s : State) (r : FaultRecord) : (s.logFault r).mem = s.mem := rfl
@[simp] theorem State.logFault_flash (s : State) (r : FaultRecord) : (s.logFault r).flash = s.flash := rfl
@[simp] theorem State.logFault_quarRecords (s : State) (r : FaultRecord) : (s.logFault r).quarRecords = s.quarRecords := rfl
@[simp] theorem State.logFault_pins (s : State) (r : FaultRecord) : (s.logFault r).pins = s.pins := rfl
@[simp] theorem State.logFault_fuses (s : State) (r : FaultRecord) : (s.logFault r).fuses = s.fuses := rfl
@[simp] theorem State.logFault_security (s : State) (r : FaultRecord) : (s.logFault r).security = s.security := rfl
@[simp] theorem State.logFault_anomalies (s : State) (r : FaultRecord) : (s.logFault r).anomalies = s.anomalies := rfl
@[simp] theorem State.logFault_anomPeriod (s : State) (r : FaultRecord) : (s.logFault r).anomPeriod = s.anomPeriod := rfl
@[simp] theorem State.logFault_edge (s : State) (r : FaultRecord) : (s.logFault r).edge = s.edge := rfl
@[simp] theorem State.logFault_boundary (s : State) (r : FaultRecord) : (s.logFault r).boundary = s.boundary := rfl
@[simp] theorem State.logFault_fcycles (s : State) (r : FaultRecord) : (s.logFault r).fcycles = s.fcycles := rfl
@[simp] theorem State.logFault_refGone (s : State) (r : FaultRecord) : (s.logFault r).refGone = s.refGone := rfl
@[simp] theorem State.logFault_warmWaitsRef (s : State) (r : FaultRecord) : (s.logFault r).warmWaitsRef = s.warmWaitsRef := rfl
@[simp] theorem State.logFault_tiles (s : State) (r : FaultRecord) : (s.logFault r).tiles = s.tiles := rfl
@[simp] theorem State.logFault_flights (s : State) (r : FaultRecord) : (s.logFault r).flights = s.flights := rfl
@[simp] theorem State.logFault_creditFlights (s : State) (r : FaultRecord) : (s.logFault r).creditFlights = s.creditFlights := rfl
@[simp] theorem State.logFault_parts (s : State) (r : FaultRecord) : (s.logFault r).parts = s.parts := rfl
@[simp] theorem State.logFault_saved (s : State) (r : FaultRecord) : (s.logFault r).saved = s.saved := rfl
@[simp] theorem State.logFault_movers (s : State) (r : FaultRecord) : (s.logFault r).movers = s.movers := rfl
@[simp] theorem State.logFault_streams (s : State) (r : FaultRecord) : (s.logFault r).streams = s.streams := rfl
@[simp] theorem State.logFault_tlb1 (s : State) (r : FaultRecord) : (s.logFault r).tlb1 = s.tlb1 := rfl
@[simp] theorem State.logFault_tlb2 (s : State) (r : FaultRecord) : (s.logFault r).tlb2 = s.tlb2 := rfl
@[simp] theorem State.logFault_walks (s : State) (r : FaultRecord) : (s.logFault r).walks = s.walks := rfl
@[simp] theorem State.logFault_fetches (s : State) (r : FaultRecord) : (s.logFault r).fetches = s.fetches := rfl
@[simp] theorem State.logFault_inval (s : State) (r : FaultRecord) : (s.logFault r).inval = s.inval := rfl
@[simp] theorem State.logFault_hearth (s : State) (r : FaultRecord) : (s.logFault r).hearth = s.hearth := rfl
@[simp] theorem State.logFault_hearthFills (s : State) (r : FaultRecord) : (s.logFault r).hearthFills = s.hearthFills := rfl
@[simp] theorem State.logFault_ringTail (s : State) (r : FaultRecord) : (s.logFault r).ringTail = s.ringTail := rfl
@[simp] theorem State.logFault_ringNext (s : State) (r : FaultRecord) : (s.logFault r).ringNext = s.ringNext := rfl
@[simp] theorem State.logFault_ringDone (s : State) (r : FaultRecord) : (s.logFault r).ringDone = s.ringDone := rfl
@[simp] theorem State.logFault_loads (s : State) (r : FaultRecord) : (s.logFault r).loads = s.loads := rfl
@[simp] theorem State.logFault_fillJob (s : State) (r : FaultRecord) : (s.logFault r).fillJob = s.fillJob := rfl
@[simp] theorem State.logFault_switched (s : State) (r : FaultRecord) : (s.logFault r).switched = s.switched := rfl
@[simp] theorem State.logFault_lookups (s : State) (r : FaultRecord) : (s.logFault r).lookups = s.lookups := rfl
@[simp] theorem State.logFault_leftFetching (s : State) (r : FaultRecord) : (s.logFault r).leftFetching = s.leftFetching := rfl
@[simp] theorem State.logFault_ports (s : State) (r : FaultRecord) : (s.logFault r).ports = s.ports := rfl
@[simp] theorem State.logFault_outstanding (s : State) (r : FaultRecord) : (s.logFault r).outstanding = s.outstanding := rfl
@[simp] theorem State.logFault_nextTag (s : State) (r : FaultRecord) : (s.logFault r).nextTag = s.nextTag := rfl
@[simp] theorem State.logFault_lateTags (s : State) (r : FaultRecord) : (s.logFault r).lateTags = s.lateTags := rfl
@[simp] theorem State.logFault_collectives (s : State) (r : FaultRecord) : (s.logFault r).collectives = s.collectives := rfl
@[simp] theorem State.logFault_collRecords (s : State) (r : FaultRecord) : (s.logFault r).collRecords = s.collRecords := rfl
@[simp] theorem State.logFault_staging (s : State) (r : FaultRecord) : (s.logFault r).staging = s.staging := rfl
@[simp] theorem State.logFault_broadcasts (s : State) (r : FaultRecord) : (s.logFault r).broadcasts = s.broadcasts := rfl
@[simp] theorem State.logFault_bcastAcks (s : State) (r : FaultRecord) : (s.logFault r).bcastAcks = s.bcastAcks := rfl
@[simp] theorem State.logFault_power (s : State) (r : FaultRecord) : (s.logFault r).power = s.power := rfl
@[simp] theorem State.logFault_logs (s : State) (r : FaultRecord) : (s.logFault r).logs = s.logs := rfl
@[simp] theorem State.logFault_nextLog (s : State) (r : FaultRecord) : (s.logFault r).nextLog = s.nextLog := rfl
@[simp] theorem State.logFault_requests (s : State) (r : FaultRecord) : (s.logFault r).requests = s.requests := rfl
@[simp] theorem State.logFault_journal (s : State) (r : FaultRecord) : (s.logFault r).journal = s.journal := rfl
@[simp] theorem State.logFault_budgetStart (s : State) (r : FaultRecord) : (s.logFault r).budgetStart = s.budgetStart := rfl
@[simp] theorem State.logFault_budgetLen (s : State) (r : FaultRecord) : (s.logFault r).budgetLen = s.budgetLen := rfl
@[simp] theorem State.logFault_spark (s : State) (r : FaultRecord) : (s.logFault r).spark = s.spark := rfl
@[simp] theorem State.logFault_offered (s : State) (r : FaultRecord) : (s.logFault r).offered = s.offered := rfl
@[simp] theorem State.logFault_coverPeriod (s : State) (r : FaultRecord) : (s.logFault r).coverPeriod = s.coverPeriod := rfl
@[simp] theorem State.logFault_cxlViolations (s : State) (r : FaultRecord) : (s.logFault r).cxlViolations = s.cxlViolations := rfl
@[simp] theorem State.logFault_enabledAt (s : State) (r : FaultRecord) : (s.logFault r).enabledAt = s.enabledAt := rfl
@[simp] theorem State.logFault_out (s : State) (r : FaultRecord) : (s.logFault r).out = s.out := rfl
@[simp] theorem State.logFault_outHeld (s : State) (r : FaultRecord) : (s.logFault r).outHeld = s.outHeld := rfl
@[simp] theorem State.logFault_free (s : State) (r : FaultRecord) : (s.logFault r).free = s.free := rfl
@[simp] theorem State.logFault_pending (s : State) (r : FaultRecord) : (s.logFault r).pending = s.pending := rfl

/-! ### Registers -/

@[simp] theorem State.reg_setReg_same (s : State) (o : Nat) (v : Word) : (s.setReg o v).reg o = v :=
  Sparse.get_set_same regReset s.regs o v

@[simp] theorem State.reg_setReg_ne (s : State) {o o' : Nat} (v : Word) (h : o' ≠ o) : (s.setReg o v).reg o' = s.reg o' :=
  Sparse.get_set_ne regReset s.regs v h

theorem State.reg_setReg (s : State) (o o' : Nat) (v : Word) : (s.setReg o v).reg o' = if o' = o then v else s.reg o' :=
  Sparse.get_set regReset s.regs o o' v

/-- What a read of a register takes from the state. -/
theorem State.reg_congr {s t : State} (h : s.regs = t.regs) (o : Nat) : s.reg o = t.reg o := by simp [State.reg, h]

theorem State.fld_congr {s t : State} (f : Field) (h : s.reg f.off = t.reg f.off) : s.fld f = t.fld f := by simp [State.fld, h]

/-- A write of another register leaves a field. -/
@[simp] theorem State.fld_setReg_ne (s : State) (f : Field) {o : Nat} (v : Word) (h : f.off ≠ o) : (s.setReg o v).fld f = s.fld f := by
  simp [State.fld, h]

/-- A field of a register just written. -/
theorem State.fld_setReg_same (s : State) (f : Field) (v : Word) : (s.setReg f.off v).fld f = bits v.toNat f.lo f.width := by
  simp [State.fld]

@[simp] theorem State.reg_setFld_ne (s : State) (f : Field) (v : Nat) {o : Nat} (h : o ≠ f.off) : (s.setFld f v).reg o = s.reg o := by
  simp [State.setFld, h]

@[simp] theorem State.fld_setFld_ne (s : State) (f g : Field) (v : Nat) (h : g.off ≠ f.off) : (s.setFld f v).fld g = s.fld g := by
  simp [State.fld, h]

theorem bits_lt (v lo w : Nat) : bits v lo w < 2 ^ w := Nat.mod_lt _ (Nat.two_pow_pos w)

/-- The field just replaced. -/
theorem bits_withBits_same (v lo w x : Nat) : bits (withBits v lo w x) lo w = x % 2 ^ w := by
  unfold bits withBits
  have h2 : 2 ^ (lo + w) = 2 ^ lo * 2 ^ w := by rw [Nat.pow_add]
  have hl : v % 2 ^ lo < 2 ^ lo := Nat.mod_lt _ (Nat.two_pow_pos lo)
  have e : v / 2 ^ (lo + w) * 2 ^ (lo + w) + x % 2 ^ w * 2 ^ lo + v % 2 ^ lo =
      v % 2 ^ lo + 2 ^ lo * (x % 2 ^ w + 2 ^ w * (v / 2 ^ (lo + w))) := by rw [h2]; ring
  rw [e, Nat.add_mul_div_left _ _ (Nat.two_pow_pos lo), Nat.div_eq_of_lt hl, Nat.zero_add, Nat.add_mul_mod_self_left, Nat.mod_mod]

/-- A number below 2^32 stays below it with a field inside 32 bits replaced. -/
theorem withBits_lt {v lo w n : Nat} (x : Nat) (hv : v < 2 ^ n) (hf : lo + w ≤ n) : withBits v lo w x < 2 ^ n := by
  unfold withBits
  have h1 : 2 ^ n = 2 ^ (lo + w) * 2 ^ (n - (lo + w)) := by rw [← Nat.pow_add]; congr 1; omega
  have hq : v / 2 ^ (lo + w) < 2 ^ (n - (lo + w)) := by
    rw [Nat.div_lt_iff_lt_mul (Nat.two_pow_pos _)]; rw [Nat.mul_comm, ← h1]; exact hv
  have h2 : 2 ^ (lo + w) = 2 ^ lo * 2 ^ w := by rw [Nat.pow_add]
  have hl : v % 2 ^ lo < 2 ^ lo := Nat.mod_lt _ (Nat.two_pow_pos lo)
  have hx : x % 2 ^ w < 2 ^ w := Nat.mod_lt _ (Nat.two_pow_pos w)
  have hxl : x % 2 ^ w * 2 ^ lo + v % 2 ^ lo < 2 ^ (lo + w) := by
    rw [h2]
    calc x % 2 ^ w * 2 ^ lo + v % 2 ^ lo < x % 2 ^ w * 2 ^ lo + 2 ^ lo := by omega
      _ = (x % 2 ^ w + 1) * 2 ^ lo := by ring
      _ ≤ 2 ^ w * 2 ^ lo := Nat.mul_le_mul_right _ hx
      _ = 2 ^ lo * 2 ^ w := by ring
  calc v / 2 ^ (lo + w) * 2 ^ (lo + w) + x % 2 ^ w * 2 ^ lo + v % 2 ^ lo
      < v / 2 ^ (lo + w) * 2 ^ (lo + w) + 2 ^ (lo + w) := by omega
    _ = (v / 2 ^ (lo + w) + 1) * 2 ^ (lo + w) := by ring
    _ ≤ 2 ^ (n - (lo + w)) * 2 ^ (lo + w) := Nat.mul_le_mul_right _ hq
    _ = 2 ^ n := by rw [h1]; ring

/-- A field just set holds the low bits of the value. -/
theorem State.fld_setFld_same (s : State) (f : Field) (v : Nat) (h : f.lo + f.width ≤ 32) : (s.setFld f v).fld f = v % 2 ^ f.width := by
  unfold State.fld State.setFld
  rw [State.reg_setReg_same, BitVec.toNat_ofNat, Nat.mod_eq_of_lt (withBits_lt v (s.reg f.off).isLt h), bits_withBits_same]

/-- A field above or below the one replaced in the same number. -/
theorem bits_withBits_disjoint (v lo w x lo' w' : Nat) (h : lo + w ≤ lo' ∨ lo' + w' ≤ lo) :
    bits (withBits v lo w x) lo' w' = bits v lo' w' := by
  unfold bits withBits
  have hl : v % 2 ^ lo < 2 ^ lo := Nat.mod_lt _ (Nat.two_pow_pos lo)
  have hx : x % 2 ^ w < 2 ^ w := Nat.mod_lt _ (Nat.two_pow_pos w)
  rcases h with h | h
  · have e' : 2 ^ lo' = 2 ^ (lo + w) * 2 ^ (lo' - (lo + w)) := by rw [← Nat.pow_add]; congr 1; omega
    have h2 : 2 ^ (lo + w) = 2 ^ lo * 2 ^ w := by rw [Nat.pow_add]
    have hr : x % 2 ^ w * 2 ^ lo + v % 2 ^ lo < 2 ^ (lo + w) := by
      rw [h2]
      calc x % 2 ^ w * 2 ^ lo + v % 2 ^ lo < x % 2 ^ w * 2 ^ lo + 2 ^ lo := by omega
        _ = (x % 2 ^ w + 1) * 2 ^ lo := by ring
        _ ≤ 2 ^ w * 2 ^ lo := Nat.mul_le_mul_right _ hx
        _ = 2 ^ lo * 2 ^ w := by ring
    have e : v / 2 ^ (lo + w) * 2 ^ (lo + w) + x % 2 ^ w * 2 ^ lo + v % 2 ^ lo =
        (x % 2 ^ w * 2 ^ lo + v % 2 ^ lo) + 2 ^ (lo + w) * (v / 2 ^ (lo + w)) := by ring
    rw [e, e', ← Nat.div_div_eq_div_mul, ← Nat.div_div_eq_div_mul, Nat.add_mul_div_left _ _ (Nat.two_pow_pos _),
      Nat.div_eq_of_lt hr, Nat.zero_add]
  · have e1 : 2 ^ lo = 2 ^ lo' * 2 ^ (lo - lo') := by rw [← Nat.pow_add]; congr 1; omega
    have h2 : 2 ^ (lo + w) = 2 ^ lo * 2 ^ w := by rw [Nat.pow_add]
    have e : v / 2 ^ (lo + w) * 2 ^ (lo + w) + x % 2 ^ w * 2 ^ lo + v % 2 ^ lo =
        v % 2 ^ lo + 2 ^ lo * (x % 2 ^ w + 2 ^ w * (v / 2 ^ (lo + w))) := by rw [h2]; ring
    have key : ∀ y : Nat, (v % 2 ^ lo + 2 ^ lo * y) / 2 ^ lo' % 2 ^ w' = (v % 2 ^ lo) / 2 ^ lo' % 2 ^ w' := by
      intro y
      have e3 : 2 ^ (lo - lo') = 2 ^ w' * 2 ^ (lo - lo' - w') := by rw [← Nat.pow_add]; congr 1; omega
      rw [e1, Nat.mul_assoc (2 ^ lo'), Nat.add_mul_div_left _ _ (Nat.two_pow_pos _), e3, Nat.mul_assoc (2 ^ w'), Nat.add_mul_mod_self_left]
    rw [e, key]
    have := key (v / 2 ^ lo)
    rw [Nat.mod_add_div] at this
    exact this.symm

/-- A field of the same register that does not meet the one set. -/
theorem State.fld_setFld_disjoint (s : State) (f g : Field) (v : Nat) (ho : g.off = f.off) (hf : f.lo + f.width ≤ 32)
    (hd : f.lo + f.width ≤ g.lo ∨ g.lo + g.width ≤ f.lo) : (s.setFld f v).fld g = s.fld g := by
  unfold State.fld State.setFld
  rw [ho, State.reg_setReg_same, BitVec.toNat_ofNat, Nat.mod_eq_of_lt (withBits_lt v (s.reg f.off).isLt hf),
    bits_withBits_disjoint _ _ _ _ _ _ hd]

/-- A one-bit field just set. -/
theorem State.flag_setFlag_same (s : State) (f : Field) (b : Bool) (h : f.lo + f.width ≤ 32) (hw : f.width = 1) :
    (s.setFlag f b).flag f = b := by
  unfold State.flag State.setFlag
  rw [State.fld_setFld_same s f _ h, hw]
  cases b <;> rfl

@[simp] theorem State.flag_setFlag_ne (s : State) (f g : Field) (b : Bool) (h : g.off ≠ f.off) : (s.setFlag f b).flag g = s.flag g := by
  simp [State.flag, State.setFlag, h]

/-! ### The numbered groups -/

@[simp] theorem State.tile_setTile_same (s : State) (k : Nat) (v : Tile) : (s.setTile k v).tile k = v := Sparse.get_set_same _ _ _ _
@[simp] theorem State.tile_setTile_ne (s : State) {k j : Nat} (v : Tile) (h : j ≠ k) : (s.setTile k v).tile j = s.tile j :=
  Sparse.get_set_ne _ _ _ h
@[simp] theorem State.part_setPart_same (s : State) (k : Nat) (v : Part) : (s.setPart k v).part k = v := Sparse.get_set_same _ _ _ _
@[simp] theorem State.part_setPart_ne (s : State) {k j : Nat} (v : Part) (h : j ≠ k) : (s.setPart k v).part j = s.part j :=
  Sparse.get_set_ne _ _ _ h
@[simp] theorem State.mover_setMover_same (s : State) (k : Nat) (v : Mover) : (s.setMover k v).mover k = v := Sparse.get_set_same _ _ _ _
@[simp] theorem State.mover_setMover_ne (s : State) {k j : Nat} (v : Mover) (h : j ≠ k) : (s.setMover k v).mover j = s.mover j :=
  Sparse.get_set_ne _ _ _ h
@[simp] theorem State.stream_setStream_same (s : State) (b n : Nat) (v : Stream) : (s.setStream b n v).stream b n = v :=
  Sparse.get_set_same _ _ _ _
@[simp] theorem State.port_setPort_same (s : State) (k : Nat) (v : LipinPort) : (s.setPort k v).port k = v := Sparse.get_set_same _ _ _ _
@[simp] theorem State.port_setPort_ne (s : State) {k j : Nat} (v : LipinPort) (h : j ≠ k) : (s.setPort k v).port j = s.port j :=
  Sparse.get_set_ne _ _ _ h
@[simp] theorem State.log_setLog_same (s : State) (k : Nat) (v : Log) : (s.setLog k v).log k = v := Sparse.get_set_same _ _ _ _
@[simp] theorem State.log_setLog_ne (s : State) {k j : Nat} (v : Log) (h : j ≠ k) : (s.setLog k v).log j = s.log j :=
  Sparse.get_set_ne _ _ _ h
@[simp] theorem State.request_setRequest_same (s : State) (k : Nat) (v : Request) : (s.setRequest k v).request k = v :=
  Sparse.get_set_same _ _ _ _
@[simp] theorem State.request_setRequest_ne (s : State) {k j : Nat} (v : Request) (h : j ≠ k) : (s.setRequest k v).request j = s.request j :=
  Sparse.get_set_ne _ _ _ h

/-! ### Memory -/

@[simp] theorem State.byte_setByte_same (s : State) (a : Nat) (v : Byte) : (s.setByte a v).byte a = v := Sparse.get_set_same _ _ _ _
@[simp] theorem State.byte_setByte_ne (s : State) {a b : Nat} (v : Byte) (h : b ≠ a) : (s.setByte a v).byte b = s.byte b :=
  Sparse.get_set_ne _ _ _ h

theorem State.byte_congr {s t : State} (h : s.mem = t.mem) (a : Nat) : s.byte a = t.byte a := by simp [State.byte, h]

/-- A write leaves every byte outside it. -/
theorem State.byte_write_outside (s : State) (a : Nat) (d : List Byte) {b : Nat} (h : b < a ∨ a + d.length ≤ b) :
    (s.write a d).byte b = s.byte b := by
  induction d generalizing s a with
  | nil => rfl
  | cons x d ih =>
    simp only [List.length_cons] at h
    rw [State.write, ih (s.setByte a x) (a + 1) (by omega), State.byte_setByte_ne s x (by omega)]

/-- A write puts each of its bytes in its place. -/
theorem State.byte_write_inside (s : State) (a : Nat) (d : List Byte) {i : Nat} (h : i < d.length) :
    (s.write a d).byte (a + i) = d[i] := by
  induction d generalizing s a i with
  | nil => simp at h
  | cons x d ih =>
    cases i with
    | zero =>
      rw [State.write, State.byte_write_outside (s.setByte a x) (a + 1) d (by omega)]; simp
    | succ i =>
      rw [State.write, show a + (i + 1) = (a + 1) + i by omega]
      simpa using ih (s.setByte a x) (a + 1) (by simpa using h)

/-- A write changes memory alone. -/
@[simp] theorem State.regs_write (s : State) (a : Nat) (d : List Byte) : (s.write a d).regs = s.regs := by
  induction d generalizing s a with
  | nil => rfl
  | cons x d ih => rw [State.write, ih]; rfl

/-- Memory keeps its canonical form under a write. -/
theorem State.wf_write (s : State) (a : Nat) (d : List Byte) (h : Memory.wf s.mem = true) : Memory.wf (s.write a d).mem = true := by
  induction d generalizing s a with
  | nil => exact h
  | cons x d ih => rw [State.write]; exact ih _ _ (Sparse.wf_set _ _ h)

end Sys2Proof.Machine
end

