-- ==== Sys2Proof/Laws/Kept.lean ====
section
/-! SUPPORT. What every operation of the model keeps, said once per operation: `Kept s t` says that `t` has the waiting commands and
the fuses of `s`, that no free value of `s` is used again in it, and that its memory, registers and flash are in canonical form. Here:
the shared operations of chapters 2 to 4. -/

set_option maxRecDepth 8000
set_option linter.all false
namespace Sys2Proof.Machine

def KPend (s : State) (p : List Instr) : Prop := p = s.pending
def KFuse (s : State) (p : Fuses) : Prop := p = s.fuses
def KFree (s : State) (n : Nat) : Prop := s.free ≤ n
def KMem (_ : State) (m : List Host.Cell) : Prop := Memory.wf m = true
def KRegs (_ : State) (m : List (Nat × Word)) : Prop := Sparse.wf regReset m = true
def KFlash (_ : State) (m : List Host.Cell) : Prop := Memory.wf m = true
/-- What `t`, which comes from `s`, keeps of it. -/
structure Kept (s t : State) : Prop where
  keepsPending : KPend s t.pending
  keepsFuses : KFuse s t.fuses
  keepsFree : KFree s t.free
  keepsMem : KMem s t.mem
  keepsRegs : KRegs s t.regs
  keepsFlash : KFlash s t.flash
@[simp] theorem Kept.pending {s t : State} (h : Kept s t) : KPend s t.pending := h.keepsPending
@[simp] theorem Kept.fuses {s t : State} (h : Kept s t) : KFuse s t.fuses := h.keepsFuses
@[simp] theorem Kept.free {s t : State} (h : Kept s t) : KFree s t.free := h.keepsFree
@[simp] theorem Kept.mem {s t : State} (h : Kept s t) : KMem s t.mem := h.keepsMem
@[simp] theorem Kept.regs {s t : State} (h : Kept s t) : KRegs s t.regs := h.keepsRegs
@[simp] theorem Kept.flash {s t : State} (h : Kept s t) : KFlash s t.flash := h.keepsFlash
@[simp] theorem Kept.mk_iff {s : State} {a1 a2 a3 a4 a5 a6 a7 a8 a9 a10 a11 a12 a13 a14 a15 a16 a17 a18 a19 a20 a21 a22 a23 a24 a25 a26 a27 a28 a29 a30 a31 a32 a33 a34 a35 a36 a37 a38 a39 a40 a41 a42 a43 a44 a45 a46 a47 a48 a49 a50 a51 a52 a53 a54 a55 a56 a57 a58 a59 a60 a61 a62} : Kept s (State.mk a1 a2 a3 a4 a5 a6 a7 a8 a9 a10 a11 a12 a13 a14 a15 a16 a17 a18 a19 a20 a21 a22 a23 a24 a25 a26 a27 a28 a29 a30 a31 a32 a33 a34 a35 a36 a37 a38 a39 a40 a41 a42 a43 a44 a45 a46 a47 a48 a49 a50 a51 a52 a53 a54 a55 a56 a57 a58 a59 a60 a61 a62) ↔ (KPend s a62 ∧ KFuse s a6 ∧ KFree s a61 ∧ KMem s a2 ∧ KRegs s a1 ∧ KFlash s a3) :=
  ⟨fun h => ⟨h.1, h.2, h.3, h.4, h.5, h.6⟩, fun h => ⟨h.1, h.2.1, h.2.2.1, h.2.2.2.1, h.2.2.2.2.1, h.2.2.2.2.2⟩⟩
@[simp] theorem KRegs.set {s : State} {m : List (Nat × Word)} (h : KRegs s m) {k : Nat} {v : Word} : KRegs s (Sparse.set regReset m k v) :=
  Sparse.wf_set _ _ h
@[simp] theorem KMem.set {s : State} {m : List Host.Cell} (h : KMem s m) {k : Nat} {v : Byte} : KMem s (Sparse.set memReset m k v) :=
  Sparse.wf_set _ _ h
@[simp] theorem KFlash.set {s : State} {m : List Host.Cell} (h : KFlash s m) {k : Nat} {v : Byte} : KFlash s (Sparse.set memReset m k v) :=
  Sparse.wf_set _ _ h
theorem Sparse.above_filter {α : Type} {t : List (Nat × α)} {j : Nat} (p : Nat × α → Bool) (h : Sparse.above j t = true) :
    Sparse.above j (t.filter p) = true := by
  induction t with
  | nil => rfl
  | cons e t ih =>
    simp only [Sparse.above, Bool.and_eq_true, decide_eq_true_eq] at h
    rw [List.filter_cons]; split
    · simp only [Sparse.above, Bool.and_eq_true, decide_eq_true_eq]; exact ⟨h.1, ih h.2⟩
    · exact ih h.2
theorem Sparse.wf_filter {α : Type} [DecidableEq α] {d : Nat → α} {t : List (Nat × α)} (p : Nat × α → Bool) (h : Sparse.wf d t = true) :
    Sparse.wf d (t.filter p) = true := by
  induction t with
  | nil => rfl
  | cons e t ih =>
    simp only [Sparse.wf, Bool.and_eq_true] at h
    rw [List.filter_cons]; split
    · simp only [Sparse.wf, Bool.and_eq_true]; exact ⟨⟨h.1.1, Sparse.above_filter p h.1.2⟩, ih h.2⟩
    · exact ih h.2
@[simp] theorem KRegs.filter {s : State} {m : List (Nat × Word)} (h : KRegs s m) {p : Nat × Word → Bool} : KRegs s (m.filter p) := Sparse.wf_filter p h
@[simp] theorem KMem.filter {s : State} {m : List Host.Cell} (h : KMem s m) {p : Host.Cell → Bool} : KMem s (m.filter p) := Sparse.wf_filter p h
@[simp] theorem KFree.succ {s : State} {n : Nat} (h : KFree s n) : KFree s (n + 1) := Nat.le_succ_of_le h
@[simp] theorem KFree.add {s : State} {n m : Nat} (h : KFree s n) : KFree s (n + m) := Nat.le_trans h (Nat.le_add_right _ _)
@[simp] theorem Kept.foldl {s t : State} {α : Type} {l : List α} {f : State → α → State} (h : Kept s t) (hf : ∀ t x, Kept s t → Kept s (f t x)) :
    Kept s (l.foldl f t) := by
  induction l generalizing t with
  | nil => exact h
  | cons x l ih => exact ih (hf _ _ h)
@[simp] theorem Kept.ite {s a b : State} {c : Prop} [Decidable c] (ha : Kept s a) (hb : Kept s b) : Kept s (if c then a else b) := by
  split
  · exact ha
  · exact hb
@[simp] theorem Kept.ite_snd {α : Type} {s : State} {a b : α × State} {c : Prop} [Decidable c] (ha : Kept s a.2) (hb : Kept s b.2) :
    Kept s (if c then a else b).2 := by
  split
  · exact ha
  · exact hb
@[simp] theorem Kept.ite_fst {α : Type} {s : State} {a b : State × α} {c : Prop} [Decidable c] (ha : Kept s a.1) (hb : Kept s b.1) :
    Kept s (if c then a else b).1 := by
  split
  · exact ha
  · exact hb
@[simp] theorem Kept.ite_snd2 {α β : Type} {s : State} {a b : α × β × State} {c : Prop} [Decidable c] (ha : Kept s a.2.2) (hb : Kept s b.2.2) :
    Kept s (if c then a else b).2.2 := by
  split
  · exact ha
  · exact hb

theorem Kept.after_setReg {s t : State} {o : Nat} {v : Word} (h : Kept s t) : Kept s (State.setReg t o v) := by
  ((try unfold State.setReg); (try simp only []); (repeat' (first | (simp +contextual (maxDischargeDepth := 100) only [h, Kept.mk_iff, Kept.pending, Kept.fuses, Kept.free, Kept.mem, Kept.regs, Kept.flash, KRegs.set, and_self]; done) | split | with_reducible assumption | with_reducible apply Kept.foldl | with_reducible apply Kept.ite | with_reducible apply Kept.ite_snd | with_reducible apply Kept.ite_fst | with_reducible apply Kept.ite_snd2 | intro _)); done)

theorem Kept.after_setFld {s t : State} {f : Field} {v : Nat} (h : Kept s t) : Kept s (State.setFld t f v) := by
  ((try unfold State.setFld); (try simp only []); (repeat' (first | (simp +contextual (maxDischargeDepth := 100) only [h, Kept.after_setReg]; done) | split | with_reducible assumption | with_reducible apply Kept.after_setReg | with_reducible apply Kept.foldl | with_reducible apply Kept.ite | with_reducible apply Kept.ite_snd | with_reducible apply Kept.ite_fst | with_reducible apply Kept.ite_snd2 | intro _)); done)

theorem Kept.after_setFlag {s t : State} {f : Field} {b : Bool} (h : Kept s t) : Kept s (State.setFlag t f b) := by
  ((try unfold State.setFlag); (try simp only []); (repeat' (first | (simp +contextual (maxDischargeDepth := 100) only [h, Kept.after_setFld]; done) | split | with_reducible assumption | with_reducible apply Kept.after_setFld | with_reducible apply Kept.foldl | with_reducible apply Kept.ite | with_reducible apply Kept.ite_snd | with_reducible apply Kept.ite_fst | with_reducible apply Kept.ite_snd2 | intro _)); done)

theorem Kept.after_setReg64 {s t : State} {lo v : Nat} (h : Kept s t) : Kept s (State.setReg64 t lo v) := by
  ((try unfold State.setReg64); (try simp only []); (repeat' (first | (simp +contextual (maxDischargeDepth := 100) only [h, Kept.after_setReg]; done) | split | with_reducible assumption | with_reducible apply Kept.after_setReg | with_reducible apply Kept.foldl | with_reducible apply Kept.ite | with_reducible apply Kept.ite_snd | with_reducible apply Kept.ite_fst | with_reducible apply Kept.ite_snd2 | intro _)); done)

theorem Kept.after_add64 {s t : State} {lo n : Nat} (h : Kept s t) : Kept s (State.add64 t lo n) := by
  ((try unfold State.add64); (try simp only []); (repeat' (first | (simp +contextual (maxDischargeDepth := 100) only [h, Kept.after_setReg64]; done) | split | with_reducible assumption | with_reducible apply Kept.after_setReg64 | with_reducible apply Kept.foldl | with_reducible apply Kept.ite | with_reducible apply Kept.ite_snd | with_reducible apply Kept.ite_fst | with_reducible apply Kept.ite_snd2 | intro _)); done)

theorem Kept.after_addFld {s t : State} {f : Field} {n : Nat} (h : Kept s t) : Kept s (State.addFld t f n) := by
  ((try unfold State.addFld); (try simp only []); (repeat' (first | (simp +contextual (maxDischargeDepth := 100) only [h, Kept.after_setFld]; done) | split | with_reducible assumption | with_reducible apply Kept.after_setFld | with_reducible apply Kept.foldl | with_reducible apply Kept.ite | with_reducible apply Kept.ite_snd | with_reducible apply Kept.ite_fst | with_reducible apply Kept.ite_snd2 | intro _)); done)

theorem Kept.after_satFld {s t : State} {f : Field} {n : Nat} (h : Kept s t) : Kept s (State.satFld t f n) := by
  ((try unfold State.satFld); (try simp only []); (repeat' (first | (simp +contextual (maxDischargeDepth := 100) only [h, Kept.after_setFld]; done) | split | with_reducible assumption | with_reducible apply Kept.after_setFld | with_reducible apply Kept.foldl | with_reducible apply Kept.ite | with_reducible apply Kept.ite_snd | with_reducible apply Kept.ite_fst | with_reducible apply Kept.ite_snd2 | intro _)); done)

theorem Kept.after_setTile {s t : State} {x_t : Nat} {v : Tile} (h : Kept s t) : Kept s (State.setTile t x_t v) := by
  ((try unfold State.setTile); (try simp only []); (repeat' (first | (simp +contextual (maxDischargeDepth := 100) only [h, Kept.mk_iff, Kept.pending, Kept.fuses, Kept.free, Kept.mem, Kept.regs, Kept.flash, and_self]; done) | split | with_reducible assumption | with_reducible apply Kept.foldl | with_reducible apply Kept.ite | with_reducible apply Kept.ite_snd | with_reducible apply Kept.ite_fst | with_reducible apply Kept.ite_snd2 | intro _)); done)

theorem Kept.after_modTile {s t : State} {x_t : Nat} {f : Tile → Tile} (h : Kept s t) : Kept s (State.modTile t x_t f) := by
  ((try unfold State.modTile); (try simp only []); (repeat' (first | (simp +contextual (maxDischargeDepth := 100) only [h, Kept.after_setTile]; done) | split | with_reducible assumption | with_reducible apply Kept.after_setTile | with_reducible apply Kept.foldl | with_reducible apply Kept.ite | with_reducible apply Kept.ite_snd | with_reducible apply Kept.ite_fst | with_reducible apply Kept.ite_snd2 | intro _)); done)

theorem Kept.after_setPart {s t : State} {p : Nat} {v : Part} (h : Kept s t) : Kept s (State.setPart t p v) := by
  ((try unfold State.setPart); (try simp only []); (repeat' (first | (simp +contextual (maxDischargeDepth := 100) only [h, Kept.mk_iff, Kept.pending, Kept.fuses, Kept.free, Kept.mem, Kept.regs, Kept.flash, and_self]; done) | split | with_reducible assumption | with_reducible apply Kept.foldl | with_reducible apply Kept.ite | with_reducible apply Kept.ite_snd | with_reducible apply Kept.ite_fst | with_reducible apply Kept.ite_snd2 | intro _)); done)

theorem Kept.after_modPart {s t : State} {p : Nat} {f : Part → Part} (h : Kept s t) : Kept s (State.modPart t p f) := by
  ((try unfold State.modPart); (try simp only []); (repeat' (first | (simp +contextual (maxDischargeDepth := 100) only [h, Kept.after_setPart]; done) | split | with_reducible assumption | with_reducible apply Kept.after_setPart | with_reducible apply Kept.foldl | with_reducible apply Kept.ite | with_reducible apply Kept.ite_snd | with_reducible apply Kept.ite_fst | with_reducible apply Kept.ite_snd2 | intro _)); done)

theorem Kept.after_setMover {s t : State} {m : Nat} {v : Mover} (h : Kept s t) : Kept s (State.setMover t m v) := by
  ((try unfold State.setMover); (try simp only []); (repeat' (first | (simp +contextual (maxDischargeDepth := 100) only [h, Kept.mk_iff, Kept.pending, Kept.fuses, Kept.free, Kept.mem, Kept.regs, Kept.flash, and_self]; done) | split | with_reducible assumption | with_reducible apply Kept.foldl | with_reducible apply Kept.ite | with_reducible apply Kept.ite_snd | with_reducible apply Kept.ite_fst | with_reducible apply Kept.ite_snd2 | intro _)); done)

theorem Kept.after_modMover {s t : State} {m : Nat} {f : Mover → Mover} (h : Kept s t) : Kept s (State.modMover t m f) := by
  ((try unfold State.modMover); (try simp only []); (repeat' (first | (simp +contextual (maxDischargeDepth := 100) only [h, Kept.after_setMover]; done) | split | with_reducible assumption | with_reducible apply Kept.after_setMover | with_reducible apply Kept.foldl | with_reducible apply Kept.ite | with_reducible apply Kept.ite_snd | with_reducible apply Kept.ite_fst | with_reducible apply Kept.ite_snd2 | intro _)); done)

theorem Kept.after_setStream {s t : State} {b n : Nat} {v : Stream} (h : Kept s t) : Kept s (State.setStream t b n v) := by
  ((try unfold State.setStream); (try simp only []); (repeat' (first | (simp +contextual (maxDischargeDepth := 100) only [h, Kept.mk_iff, Kept.pending, Kept.fuses, Kept.free, Kept.mem, Kept.regs, Kept.flash, and_self]; done) | split | with_reducible assumption | with_reducible apply Kept.foldl | with_reducible apply Kept.ite | with_reducible apply Kept.ite_snd | with_reducible apply Kept.ite_fst | with_reducible apply Kept.ite_snd2 | intro _)); done)

theorem Kept.after_modStream {s t : State} {b n : Nat} {f : Stream → Stream} (h : Kept s t) : Kept s (State.modStream t b n f) := by
  ((try unfold State.modStream); (try simp only []); (repeat' (first | (simp +contextual (maxDischargeDepth := 100) only [h, Kept.after_setStream]; done) | split | with_reducible assumption | with_reducible apply Kept.after_setStream | with_reducible apply Kept.foldl | with_reducible apply Kept.ite | with_reducible apply Kept.ite_snd | with_reducible apply Kept.ite_fst | with_reducible apply Kept.ite_snd2 | intro _)); done)

theorem Kept.after_setPort {s t : State} {n : Nat} {v : LipinPort} (h : Kept s t) : Kept s (State.setPort t n v) := by
  ((try unfold State.setPort); (try simp only []); (repeat' (first | (simp +contextual (maxDischargeDepth := 100) only [h, Kept.mk_iff, Kept.pending, Kept.fuses, Kept.free, Kept.mem, Kept.regs, Kept.flash, and_self]; done) | split | with_reducible assumption | with_reducible apply Kept.foldl | with_reducible apply Kept.ite | with_reducible apply Kept.ite_snd | with_reducible apply Kept.ite_fst | with_reducible apply Kept.ite_snd2 | intro _)); done)

theorem Kept.after_modPort {s t : State} {n : Nat} {f : LipinPort → LipinPort} (h : Kept s t) : Kept s (State.modPort t n f) := by
  ((try unfold State.modPort); (try simp only []); (repeat' (first | (simp +contextual (maxDischargeDepth := 100) only [h, Kept.after_setPort]; done) | split | with_reducible assumption | with_reducible apply Kept.after_setPort | with_reducible apply Kept.foldl | with_reducible apply Kept.ite | with_reducible apply Kept.ite_snd | with_reducible apply Kept.ite_fst | with_reducible apply Kept.ite_snd2 | intro _)); done)

theorem Kept.after_setLog {s t : State} {n : Nat} {v : Log} (h : Kept s t) : Kept s (State.setLog t n v) := by
  ((try unfold State.setLog); (try simp only []); (repeat' (first | (simp +contextual (maxDischargeDepth := 100) only [h, Kept.mk_iff, Kept.pending, Kept.fuses, Kept.free, Kept.mem, Kept.regs, Kept.flash, and_self]; done) | split | with_reducible assumption | with_reducible apply Kept.foldl | with_reducible apply Kept.ite | with_reducible apply Kept.ite_snd | with_reducible apply Kept.ite_fst | with_reducible apply Kept.ite_snd2 | intro _)); done)

theorem Kept.after_modLog {s t : State} {n : Nat} {f : Log → Log} (h : Kept s t) : Kept s (State.modLog t n f) := by
  ((try unfold State.modLog); (try simp only []); (repeat' (first | (simp +contextual (maxDischargeDepth := 100) only [h, Kept.after_setLog]; done) | split | with_reducible assumption | with_reducible apply Kept.after_setLog | with_reducible apply Kept.foldl | with_reducible apply Kept.ite | with_reducible apply Kept.ite_snd | with_reducible apply Kept.ite_fst | with_reducible apply Kept.ite_snd2 | intro _)); done)

theorem Kept.after_setRequest {s t : State} {n : Nat} {v : Request} (h : Kept s t) : Kept s (State.setRequest t n v) := by
  ((try unfold State.setRequest); (try simp only []); (repeat' (first | (simp +contextual (maxDischargeDepth := 100) only [h, Kept.mk_iff, Kept.pending, Kept.fuses, Kept.free, Kept.mem, Kept.regs, Kept.flash, and_self]; done) | split | with_reducible assumption | with_reducible apply Kept.foldl | with_reducible apply Kept.ite | with_reducible apply Kept.ite_snd | with_reducible apply Kept.ite_fst | with_reducible apply Kept.ite_snd2 | intro _)); done)

theorem Kept.after_modRequest {s t : State} {n : Nat} {f : Request → Request} (h : Kept s t) : Kept s (State.modRequest t n f) := by
  ((try unfold State.modRequest); (try simp only []); (repeat' (first | (simp +contextual (maxDischargeDepth := 100) only [h, Kept.after_setRequest]; done) | split | with_reducible assumption | with_reducible apply Kept.after_setRequest | with_reducible apply Kept.foldl | with_reducible apply Kept.ite | with_reducible apply Kept.ite_snd | with_reducible apply Kept.ite_fst | with_reducible apply Kept.ite_snd2 | intro _)); done)

theorem Kept.after_setSparkTile {s t : State} {x_t : Nat} {v : SparkTile} (h : Kept s t) : Kept s (State.setSparkTile t x_t v) := by
  ((try unfold State.setSparkTile); (try simp only []); (repeat' (first | (simp +contextual (maxDischargeDepth := 100) only [h, Kept.mk_iff, Kept.pending, Kept.fuses, Kept.free, Kept.mem, Kept.regs, Kept.flash, and_self]; done) | split | with_reducible assumption | with_reducible apply Kept.foldl | with_reducible apply Kept.ite | with_reducible apply Kept.ite_snd | with_reducible apply Kept.ite_fst | with_reducible apply Kept.ite_snd2 | intro _)); done)

theorem Kept.after_setQueue {s t : State} {x_t q : Nat} {v : Queue} (h : Kept s t) : Kept s (State.setQueue t x_t q v) := by
  ((try unfold State.setQueue); (try simp only []); (repeat' (first | (simp +contextual (maxDischargeDepth := 100) only [h, Kept.after_modTile]; done) | split | with_reducible assumption | with_reducible apply Kept.after_modTile | with_reducible apply Kept.foldl | with_reducible apply Kept.ite | with_reducible apply Kept.ite_snd | with_reducible apply Kept.ite_fst | with_reducible apply Kept.ite_snd2 | intro _)); done)

theorem Kept.after_setEngine {s t : State} {x_t e : Nat} {v : Engine} (h : Kept s t) : Kept s (State.setEngine t x_t e v) := by
  ((try unfold State.setEngine); (try simp only []); (repeat' (first | (simp +contextual (maxDischargeDepth := 100) only [h, Kept.after_modTile]; done) | split | with_reducible assumption | with_reducible apply Kept.after_modTile | with_reducible apply Kept.foldl | with_reducible apply Kept.ite | with_reducible apply Kept.ite_snd | with_reducible apply Kept.ite_fst | with_reducible apply Kept.ite_snd2 | intro _)); done)

theorem Kept.after_setBank {s t : State} {x_t b : Nat} {v : Bank} (h : Kept s t) : Kept s (State.setBank t x_t b v) := by
  ((try unfold State.setBank); (try simp only []); (repeat' (first | (simp +contextual (maxDischargeDepth := 100) only [h, Kept.after_modTile]; done) | split | with_reducible assumption | with_reducible apply Kept.after_modTile | with_reducible apply Kept.foldl | with_reducible apply Kept.ite | with_reducible apply Kept.ite_snd | with_reducible apply Kept.ite_fst | with_reducible apply Kept.ite_snd2 | intro _)); done)

theorem Kept.after_setByte {s t : State} {a : Nat} {v : Byte} (h : Kept s t) : Kept s (State.setByte t a v) := by
  ((try unfold State.setByte); (try simp only []); (repeat' (first | (simp +contextual (maxDischargeDepth := 100) only [h, Kept.mk_iff, Kept.pending, Kept.fuses, Kept.free, Kept.mem, Kept.regs, Kept.flash, KMem.set, and_self]; done) | split | with_reducible assumption | with_reducible apply Kept.foldl | with_reducible apply Kept.ite | with_reducible apply Kept.ite_snd | with_reducible apply Kept.ite_fst | with_reducible apply Kept.ite_snd2 | intro _)); done)

theorem Kept.after_write {s t : State} {a : Nat} {u0 : List Byte} (h : Kept s t) : Kept s (State.write t a u0) := by
  (induction u0 generalizing t a <;> simp +contextual (maxDischargeDepth := 100) only [State.write, *, Kept.after_setByte]; done)

theorem Kept.after_writeNum {s t : State} {a n v : Nat} (h : Kept s t) : Kept s (State.writeNum t a n v) := by
  ((try unfold State.writeNum); (try simp only []); (repeat' (first | (simp +contextual (maxDischargeDepth := 100) only [h, Kept.after_write]; done) | split | with_reducible assumption | with_reducible apply Kept.after_write | with_reducible apply Kept.foldl | with_reducible apply Kept.ite | with_reducible apply Kept.ite_snd | with_reducible apply Kept.ite_fst | with_reducible apply Kept.ite_snd2 | intro _)); done)

theorem Kept.after_setUnit {s t : State} {a : Nat} {v : Payload} (h : Kept s t) : Kept s (State.setUnit t a v) := by
  ((try unfold State.setUnit); (try simp only []); (repeat' (first | (simp +contextual (maxDischargeDepth := 100) only [h, Kept.after_writeNum]; done) | split | with_reducible assumption | with_reducible apply Kept.after_writeNum | with_reducible apply Kept.foldl | with_reducible apply Kept.ite | with_reducible apply Kept.ite_snd | with_reducible apply Kept.ite_fst | with_reducible apply Kept.ite_snd2 | intro _)); done)

theorem Kept.after_zeroRange {s t : State} {a len : Nat} (h : Kept s t) : Kept s (State.zeroRange t a len) := by
  ((try unfold State.zeroRange); (try simp only []); (repeat' (first | (simp +contextual (maxDischargeDepth := 100) only [h, Kept.mk_iff, Kept.pending, Kept.fuses, Kept.free, Kept.mem, Kept.regs, Kept.flash, KMem.filter, and_self]; done) | split | with_reducible assumption | with_reducible apply Kept.foldl | with_reducible apply Kept.ite | with_reducible apply Kept.ite_snd | with_reducible apply Kept.ite_fst | with_reducible apply Kept.ite_snd2 | intro _)); done)

theorem Sparse.above_append {α : Type} {t u : List (Nat × α)} {j : Nat} (ht : Sparse.above j t = true) (hu : Sparse.above j u = true) :
    Sparse.above j (t ++ u) = true := by
  induction t with
  | nil => exact hu
  | cons e t ih =>
    simp only [Sparse.above, Bool.and_eq_true, List.cons_append] at ht ⊢
    exact ⟨ht.1, ih ht.2⟩

/-- Two tables whose keys lie below and from `a` on make one. -/
theorem Sparse.wf_append {α : Type} [DecidableEq α] {d : Nat → α} {t u : List (Nat × α)} (a : Nat) (ht : Sparse.wf d t = true)
    (hu : Sparse.wf d u = true) (h1 : ∀ e ∈ t, e.1 < a) (h2 : ∀ e ∈ u, a ≤ e.1) : Sparse.wf d (t ++ u) = true := by
  induction t with
  | nil => exact hu
  | cons e t ih =>
    simp only [Sparse.wf, Bool.and_eq_true, List.cons_append] at ht ⊢
    refine ⟨⟨ht.1.1, Sparse.above_append ht.1.2 ?_⟩, ih ht.2 (fun e he => h1 e (List.mem_cons_of_mem _ he))⟩
    have he := h1 e List.mem_cons_self
    clear ih ht h1 hu
    induction u with
    | nil => rfl
    | cons f u ih =>
      simp only [Sparse.above, Bool.and_eq_true, decide_eq_true_eq]
      exact ⟨Nat.lt_of_lt_of_le he (h2 f List.mem_cons_self), ih (fun e he => h2 e (List.mem_cons_of_mem _ he))⟩

theorem above_cellsFrom {a k : Nat} (d : List Byte) (h : k < a) : Sparse.above k (cellsFrom a d) = true := by
  induction d generalizing a with
  | nil => rfl
  | cons b d ih =>
    unfold cellsFrom; split
    · exact ih (by omega)
    · simp only [Sparse.above, Bool.and_eq_true, decide_eq_true_eq]; exact ⟨h, ih (by omega)⟩

theorem wf_cellsFrom (a : Nat) (d : List Byte) : Memory.wf (cellsFrom a d) = true := by
  induction d generalizing a with
  | nil => rfl
  | cons b d ih =>
    unfold cellsFrom; split
    · exact ih (a + 1)
    · next h =>
      simp only [Memory.wf, Sparse.wf, Bool.and_eq_true]
      exact ⟨⟨by simp [h], above_cellsFrom d (by omega)⟩, ih (a + 1)⟩

theorem mem_cellsFrom {a : Nat} {d : List Byte} {e : Host.Cell} (h : e ∈ cellsFrom a d) : a ≤ e.1 ∧ e.1 < a + d.length := by
  induction d generalizing a with
  | nil => simp [cellsFrom] at h
  | cons b d ih =>
    unfold cellsFrom at h
    simp only [List.length_cons]
    split at h
    · have := ih h; omega
    · rcases List.mem_cons.mp h with rfl | h
      · exact ⟨Nat.le_refl _, by simp⟩
      · have := ih h; omega

/-- Cells in canonical form within the range they replace keep memory canonical. -/
theorem Kept.after_splice {s t : State} {a len : Nat} {cells : List Host.Cell} (h : Kept s t) (hw : Memory.wf cells = true)
    (hr : ∀ e ∈ cells, a ≤ e.1 ∧ e.1 < a + len) : Kept s (State.splice t a len cells) := by
  refine ⟨h.pending, h.fuses, h.free, ?_, h.regs, h.flash⟩
  refine Sparse.wf_append (a + len) (Sparse.wf_append a (Sparse.wf_filter _ h.mem) hw ?_ (fun e he => (hr e he).1)) (Sparse.wf_filter _ h.mem) ?_ ?_
  · intro e he; simpa using (List.mem_filter.mp he).2
  · intro e he
    rcases List.mem_append.mp he with he | he
    · have : e.1 < a := by simpa using (List.mem_filter.mp he).2
      omega
    · exact (hr e he).2
  · intro e he; simpa using (List.mem_filter.mp he).2

theorem Kept.after_writeRun {s t : State} {a : Nat} {u0 : List Byte} (h : Kept s t) : Kept s (State.writeRun t a u0) :=
  Kept.after_splice h (wf_cellsFrom a u0) (fun _ he => mem_cellsFrom he)

/-- A table's cells of a range, moved to another place, are canonical. -/
theorem wf_shift {m : List Host.Cell} {src dst len : Nat} (h : Memory.wf m = true) :
    Memory.wf (((m.filter (fun c => decide (src ≤ c.1) && decide (c.1 < src + len))).map (fun c => (c.1 - src, c.2))).map
      (fun c => (dst + c.1, c.2))) = true := by
  induction m with
  | nil => rfl
  | cons e m ih =>
    simp only [Memory.wf, Sparse.wf, Bool.and_eq_true] at h
    rw [List.filter_cons]; split
    · next hp =>
      simp only [Bool.and_eq_true, decide_eq_true_eq] at hp
      simp only [List.map_cons, Memory.wf, Sparse.wf, Bool.and_eq_true]
      refine ⟨⟨?_, ?_⟩, ih h.2⟩
      · have := h.1.1
        simp only [Bool.not_eq_true', decide_eq_false_iff_not] at this ⊢
        exact this
      have ha := h.1.2
      clear ih h
      induction m with
      | nil => rfl
      | cons f m ih =>
        simp only [Sparse.above, Bool.and_eq_true, decide_eq_true_eq] at ha
        rw [List.filter_cons]; split
        · simp only [List.map_cons, Sparse.above, Bool.and_eq_true, decide_eq_true_eq]
          exact ⟨by omega, ih ha.2⟩
        · exact ih ha.2
    · exact ih h.2

theorem Kept.after_copyRange {s t : State} {src dst len : Nat} (h : Kept s t) : Kept s (State.copyRange t src dst len) := by
  refine Kept.after_splice h (wf_shift h.mem) (fun e he => ?_)
  simp only [State.rangeCells, List.map_map, List.mem_map, List.mem_filter, Bool.and_eq_true, decide_eq_true_eq, Function.comp] at he
  obtain ⟨c, ⟨_, hc⟩, rfl⟩ := he
  simp only
  omega

theorem Kept.after_took {s t : State}  (h : Kept s t) : Kept s (State.took t) := by
  ((try unfold State.took); (try simp only []); (repeat' (first | (simp +contextual (maxDischargeDepth := 100) only [h, Kept.mk_iff, Kept.pending, Kept.fuses, Kept.free, Kept.mem, Kept.regs, Kept.flash, KFree.succ, and_self]; done) | split | with_reducible assumption | with_reducible apply Kept.foldl | with_reducible apply Kept.ite | with_reducible apply Kept.ite_snd | with_reducible apply Kept.ite_fst | with_reducible apply Kept.ite_snd2 | intro _)); done)

theorem Kept.after_emit {s t : State} {o : Output} (h : Kept s t) : Kept s (State.emit t o) := by
  ((try unfold State.emit); (try simp only []); (repeat' (first | (simp +contextual (maxDischargeDepth := 100) only [h, Kept.mk_iff, Kept.pending, Kept.fuses, Kept.free, Kept.mem, Kept.regs, Kept.flash, and_self]; done) | split | with_reducible assumption | with_reducible apply Kept.foldl | with_reducible apply Kept.ite | with_reducible apply Kept.ite_snd | with_reducible apply Kept.ite_fst | with_reducible apply Kept.ite_snd2 | intro _)); done)

theorem Kept.after_interruptIf {s t : State} {en : Bool} {rule : Nat} (h : Kept s t) : Kept s (State.interruptIf t en rule) := by
  (unfold State.interruptIf; split <;> simp +contextual (maxDischargeDepth := 100) only [h, Kept.after_emit]; done)

theorem Kept.after_logFault {s t : State} {r : FaultRecord} (h : Kept s t) : Kept s (State.logFault t r) := by
  ((try unfold State.logFault); (try simp only []); (repeat' (first | (simp +contextual (maxDischargeDepth := 100) only [h, Kept.mk_iff, Kept.pending, Kept.fuses, Kept.free, Kept.mem, Kept.regs, Kept.flash, and_self]; done) | split | with_reducible assumption | with_reducible apply Kept.foldl | with_reducible apply Kept.ite | with_reducible apply Kept.ite_snd | with_reducible apply Kept.ite_fst | with_reducible apply Kept.ite_snd2 | intro _)); done)

theorem Kept.after_freezeLogs {s t : State} {f : Nat} (h : Kept s t) : Kept s (State.freezeLogs t f) := by
  ((try unfold State.freezeLogs); (try simp only []); (repeat' (first | (simp +contextual (maxDischargeDepth := 100) only [h, Kept.after_emit, Kept.after_setFlag, Kept.foldl, Kept.ite, implies_true]; done) | split | with_reducible assumption | with_reducible apply Kept.after_emit | with_reducible apply Kept.after_setFlag | with_reducible apply Kept.foldl | with_reducible apply Kept.ite | with_reducible apply Kept.ite_snd | with_reducible apply Kept.ite_fst | with_reducible apply Kept.ite_snd2 | intro _)); done)

theorem Kept.after_hostViolation {s t : State} {f kind tile addr detail : Nat} (h : Kept s t) : Kept s (State.hostViolation t f kind tile addr detail) := by
  ((try unfold State.hostViolation); (try simp only []); (repeat' (first | (simp +contextual (maxDischargeDepth := 100) only [h, Kept.after_freezeLogs, Kept.after_logFault, Kept.after_setReg]; done) | split | with_reducible assumption | with_reducible apply Kept.after_freezeLogs | with_reducible apply Kept.after_logFault | with_reducible apply Kept.after_setReg | with_reducible apply Kept.foldl | with_reducible apply Kept.ite | with_reducible apply Kept.ite_snd | with_reducible apply Kept.ite_fst | with_reducible apply Kept.ite_snd2 | intro _)); done)

theorem Kept.after_closedWrite {s t : State} {f o : Nat} (h : Kept s t) : Kept s (State.closedWrite t f o) := by
  ((try unfold State.closedWrite); (try simp only []); (repeat' (first | (simp +contextual (maxDischargeDepth := 100) only [h, Kept.after_hostViolation, Kept.after_took]; done) | split | with_reducible assumption | with_reducible apply Kept.after_hostViolation | with_reducible apply Kept.after_took | with_reducible apply Kept.foldl | with_reducible apply Kept.ite | with_reducible apply Kept.ite_snd | with_reducible apply Kept.ite_fst | with_reducible apply Kept.ite_snd2 | intro _)); done)

theorem Kept.after_freeze {s t : State} {p : Nat} (h : Kept s t) : Kept s (State.freeze t p) := by
  (unfold State.freeze; split <;> simp +contextual (maxDischargeDepth := 100) only [h, Kept.after_interruptIf, Kept.after_setFlag]; done)

theorem Kept.after_faultPart {s t : State} {p : Nat} {r : FaultRecord} (h : Kept s t) : Kept s (State.faultPart t p r) := by
  ((try unfold State.faultPart); (try simp only []); (repeat' (first | (simp +contextual (maxDischargeDepth := 100) only [h, Kept.after_freeze, Kept.after_logFault, Kept.after_modPart]; done) | split | with_reducible assumption | with_reducible apply Kept.after_freeze | with_reducible apply Kept.after_logFault | with_reducible apply Kept.after_modPart | with_reducible apply Kept.foldl | with_reducible apply Kept.ite | with_reducible apply Kept.ite_snd | with_reducible apply Kept.ite_fst | with_reducible apply Kept.ite_snd2 | intro _)); done)

theorem Kept.after_faultTile {s t : State} {x_t code detail : Nat} (h : Kept s t) : Kept s (State.faultTile t x_t code detail) := by
  (unfold State.faultTile; split <;> simp +contextual (maxDischargeDepth := 100) only [h, Kept.after_faultPart, Kept.after_logFault]; done)

theorem Kept.after_markOpen {s t : State} {p cause : Nat} (h : Kept s t) : Kept s (State.markOpen t p cause) := by
  ((try unfold State.markOpen); (try simp only []); (repeat' (first | (simp +contextual (maxDischargeDepth := 100) only [h, Kept.after_modPart]; done) | split | with_reducible assumption | with_reducible apply Kept.after_modPart | with_reducible apply Kept.foldl | with_reducible apply Kept.ite | with_reducible apply Kept.ite_snd | with_reducible apply Kept.ite_fst | with_reducible apply Kept.ite_snd2 | intro _)); done)

theorem Kept.after_markStep {s t : State} {p n cause : Nat} (h : Kept s t) : Kept s (State.markStep t p n cause) := by
  ((try unfold State.markStep); (try simp only []); (repeat' (first | (simp +contextual (maxDischargeDepth := 100) only [h, Kept.after_modPart]; done) | split | with_reducible assumption | with_reducible apply Kept.after_modPart | with_reducible apply Kept.foldl | with_reducible apply Kept.ite | with_reducible apply Kept.ite_snd | with_reducible apply Kept.ite_fst | with_reducible apply Kept.ite_snd2 | intro _)); done)

theorem Kept.after_markTile {s t : State} {x_t cause : Nat} (h : Kept s t) : Kept s (State.markTile t x_t cause) := by
  (unfold State.markTile; split <;> simp +contextual (maxDischargeDepth := 100) only [h, Kept.after_markOpen]; done)

theorem Kept.after_quarantine {s t : State} {x_t : Nat} (h : Kept s t) : Kept s (State.quarantine t x_t) := by
  ((try unfold State.quarantine); (try simp only []); (repeat' (first | (simp +contextual (maxDischargeDepth := 100) only [h, Kept.after_interruptIf, Kept.after_setFlag, Kept.after_setFld, Kept.after_setReg, Kept.mk_iff, Kept.pending, Kept.fuses, Kept.free, Kept.mem, Kept.regs, Kept.flash, and_self]; done) | split | with_reducible assumption | with_reducible apply Kept.after_interruptIf | with_reducible apply Kept.after_setFlag | with_reducible apply Kept.after_setFld | with_reducible apply Kept.after_setReg | with_reducible apply Kept.foldl | with_reducible apply Kept.ite | with_reducible apply Kept.ite_snd | with_reducible apply Kept.ite_fst | with_reducible apply Kept.ite_snd2 | intro _)); done)

theorem Kept.after_suspect {s t : State} {x_t : Nat} (h : Kept s t) : Kept s (State.suspect t x_t) := by
  (unfold State.suspect; split <;> simp +contextual (maxDischargeDepth := 100) only [h, Kept.after_interruptIf, Kept.after_quarantine, Kept.after_setFlag, Kept.after_setFld, Kept.after_setReg, Kept.after_setSparkTile, Kept.ite]; done)

theorem Kept.after_countEcc {s t : State} {f : Field} {n : Nat} (h : Kept s t) : Kept s (State.countEcc t f n) := by
  (unfold State.countEcc; split <;> simp +contextual (maxDischargeDepth := 100) only [h, Kept.after_satFld]; done)

theorem Kept.after_eccTile {s t : State} {x_t : Nat} {ce ue : Field} {e : ReadEcc} (h : Kept s t) : Kept s (State.eccTile t x_t ce ue e) := by
  (unfold State.eccTile; split <;> simp +contextual (maxDischargeDepth := 100) only [h, Kept.after_countEcc, Kept.after_markTile, Kept.after_suspect]; done)

theorem Kept.after_flipBytes {s t : State} {a n : Nat} {e : ReadEcc} (h : Kept s t) : Kept s (State.flipBytes t a n e) := by
  (unfold State.flipBytes; split <;> simp +contextual (maxDischargeDepth := 100) only [h, Kept.after_setByte, Kept.foldl, Kept.ite, implies_true]; done)

theorem Kept.after_setHearthSet {s t : State} {b off : Nat} {l : List Line} (h : Kept s t) : Kept s (State.setHearthSet t b off l) := by
  ((try unfold State.setHearthSet); (try simp only []); (repeat' (first | (simp +contextual (maxDischargeDepth := 100) only [h, Kept.mk_iff, Kept.pending, Kept.fuses, Kept.free, Kept.mem, Kept.regs, Kept.flash, and_self]; done) | split | with_reducible assumption | with_reducible apply Kept.foldl | with_reducible apply Kept.ite | with_reducible apply Kept.ite_snd | with_reducible apply Kept.ite_fst | with_reducible apply Kept.ite_snd2 | intro _)); done)

theorem Kept.after_hearthPut {s t : State} {b off : Nat} {write : Bool} (h : Kept s t) : Kept s (State.hearthPut t b off write) := by
  ((try unfold State.hearthPut); (try simp only []); (repeat' (first | (simp +contextual (maxDischargeDepth := 100) only [h, Kept.after_setHearthSet]; done) | split | with_reducible assumption | with_reducible apply Kept.after_setHearthSet | with_reducible apply Kept.after_write | with_reducible apply Kept.foldl | with_reducible apply Kept.ite | with_reducible apply Kept.ite_snd | with_reducible apply Kept.ite_fst | with_reducible apply Kept.ite_snd2 | intro _)); done)

theorem Kept.after_hearthAccess {s t : State} {b off : Nat} {write na : Bool} (h : Kept s t) : Kept s (State.hearthAccess t b off write na) := by
  (unfold State.hearthAccess; split <;> simp +contextual (maxDischargeDepth := 100) only [h, Kept.after_add64, Kept.after_hearthPut, Kept.ite]; done)

theorem Kept.after_hearthLines {s t : State} {b off n : Nat} {write na : Bool} (h : Kept s t) : Kept s (State.hearthLines t b off n write na) := by
  ((try unfold State.hearthLines); (try simp only []); (repeat' (first | (simp +contextual (maxDischargeDepth := 100) only [h, Kept.after_hearthAccess, Kept.foldl, implies_true]; done) | split | with_reducible assumption | with_reducible apply Kept.after_hearthAccess | with_reducible apply Kept.after_write | with_reducible apply Kept.foldl | with_reducible apply Kept.ite | with_reducible apply Kept.ite_snd | with_reducible apply Kept.ite_fst | with_reducible apply Kept.ite_snd2 | intro _)); done)

theorem Kept.after_pass {s t : State} {off n : Nat} {write : Bool} (h : Kept s t) : Kept s (State.pass t off n write) := by
  ((try unfold State.pass); (try simp only []); (repeat' (first | (simp +contextual (maxDischargeDepth := 100) only [h, Kept.after_hearthAccess, Kept.foldl, Kept.ite, implies_true]; done) | split | with_reducible assumption | with_reducible apply Kept.after_hearthAccess | with_reducible apply Kept.after_write | with_reducible apply Kept.foldl | with_reducible apply Kept.ite | with_reducible apply Kept.ite_snd | with_reducible apply Kept.ite_fst | with_reducible apply Kept.ite_snd2 | intro _)); done)

theorem Kept.after_degradeTime {s t : State}  (h : Kept s t) : Kept s (State.degradeTime t) := by
  ((try unfold State.degradeTime); (try simp only []); (repeat' (first | (simp +contextual (maxDischargeDepth := 100) only [h, Kept.after_emit, Kept.after_setFlag, Kept.ite]; done) | split | with_reducible assumption | with_reducible apply Kept.after_emit | with_reducible apply Kept.after_setFlag | with_reducible apply Kept.foldl | with_reducible apply Kept.ite | with_reducible apply Kept.ite_snd | with_reducible apply Kept.ite_fst | with_reducible apply Kept.ite_snd2 | intro _)); done)

theorem Kept.after_anomaly {s t : State}  (h : Kept s t) : Kept s (State.anomaly t) := by
  ((try unfold State.anomaly); (try simp only []); (repeat' (first | (simp +contextual (maxDischargeDepth := 100) only [h, Kept.after_degradeTime, Kept.after_setReg64, Kept.mk_iff, Kept.pending, Kept.fuses, Kept.free, Kept.mem, Kept.regs, Kept.flash, Kept.ite, and_self]; done) | split | with_reducible assumption | with_reducible apply Kept.after_degradeTime | with_reducible apply Kept.after_setReg64 | with_reducible apply Kept.foldl | with_reducible apply Kept.ite | with_reducible apply Kept.ite_snd | with_reducible apply Kept.ite_fst | with_reducible apply Kept.ite_snd2 | intro _)); done)

theorem Kept.after_strikeEdge {s t : State}  (h : Kept s t) : Kept s (strikeEdge t) := by
  (unfold strikeEdge; split <;> simp +contextual (maxDischargeDepth := 100) only [h, Kept.after_anomaly, Kept.after_satFld, Kept.after_setFlag, Kept.after_setReg64, Kept.mk_iff, Kept.pending, Kept.fuses, Kept.free, Kept.mem, Kept.regs, Kept.flash, Kept.ite, and_self]; done)

theorem Kept.after_missedBoundary {s t : State}  (h : Kept s t) : Kept s (missedBoundary t) := by
  (unfold missedBoundary; split <;> simp +contextual (maxDischargeDepth := 100) only [h, Kept.after_anomaly, Kept.after_satFld, Kept.after_setFlag, Kept.mk_iff, Kept.pending, Kept.fuses, Kept.free, Kept.mem, Kept.regs, Kept.flash, and_self]; done)

theorem Kept.after_anomalyPeriodRoll {s t : State}  (h : Kept s t) : Kept s (anomalyPeriodRoll t) := by
  (unfold anomalyPeriodRoll; split <;> simp +contextual (maxDischargeDepth := 100) only [h, Kept.mk_iff, Kept.pending, Kept.fuses, Kept.free, Kept.mem, Kept.regs, Kept.flash, and_self]; done)

theorem Kept.after_writeTimeCtrl {s t : State} {v : Word} (h : Kept s t) : Kept s (State.writeTimeCtrl t v) := by
  ((try unfold State.writeTimeCtrl); (try simp only []); (repeat' (first | (simp +contextual (maxDischargeDepth := 100) only [h, Kept.after_setFlag, Kept.after_setFld, Kept.ite]; done) | split | with_reducible assumption | with_reducible apply Kept.after_setFlag | with_reducible apply Kept.after_setFld | with_reducible apply Kept.foldl | with_reducible apply Kept.ite | with_reducible apply Kept.ite_snd | with_reducible apply Kept.ite_fst | with_reducible apply Kept.ite_snd2 | intro _)); done)

theorem Kept.after_byFirmwareOrRack {s t : State} {m : Master} {o : Nat} {act : State → State} (hact : ∀ t, Kept s t → Kept s (act t)) (h : Kept s t) : Kept s (State.byFirmwareOrRack t m o act) := by
  ((try unfold State.byFirmwareOrRack); (try simp only []); (repeat' (first | (simp +contextual (maxDischargeDepth := 100) only [h, hact, Kept.after_closedWrite, Kept.ite]; done) | split | with_reducible assumption | with_reducible apply hact | with_reducible apply Kept.after_closedWrite | with_reducible apply Kept.foldl | with_reducible apply Kept.ite | with_reducible apply Kept.ite_snd | with_reducible apply Kept.ite_fst | with_reducible apply Kept.ite_snd2 | intro _)); done)

theorem Kept.after_byFirmware {s t : State} {m : Master} {o : Nat} {act : State → State} (hact : ∀ t, Kept s t → Kept s (act t)) (h : Kept s t) : Kept s (State.byFirmware t m o act) := by
  ((try unfold State.byFirmware); (try simp only []); (repeat' (first | (simp +contextual (maxDischargeDepth := 100) only [h, hact, Kept.after_closedWrite, Kept.ite]; done) | split | with_reducible assumption | with_reducible apply hact | with_reducible apply Kept.after_closedWrite | with_reducible apply Kept.foldl | with_reducible apply Kept.ite | with_reducible apply Kept.ite_snd | with_reducible apply Kept.ite_fst | with_reducible apply Kept.ite_snd2 | intro _)); done)

theorem Kept.after_byDevMasters {s t : State} {m : Master} {o : Nat} {act : State → State} (hact : ∀ t, Kept s t → Kept s (act t)) (h : Kept s t) : Kept s (State.byDevMasters t m o act) := by
  ((try unfold State.byDevMasters); (try simp only []); (repeat' (first | (simp +contextual (maxDischargeDepth := 100) only [h, hact, Kept.after_closedWrite, Kept.ite]; done) | split | with_reducible assumption | with_reducible apply hact | with_reducible apply Kept.after_closedWrite | with_reducible apply Kept.foldl | with_reducible apply Kept.ite | with_reducible apply Kept.ite_snd | with_reducible apply Kept.ite_fst | with_reducible apply Kept.ite_snd2 | intro _)); done)

theorem Kept.after_writeLock {s t : State} {f : Field} {v : Word} (h : Kept s t) : Kept s (State.writeLock t f v) := by
  (unfold State.writeLock; split <;> simp +contextual (maxDischargeDepth := 100) only [h, Kept.after_setFlag]; done)

theorem Kept.after_referenceLost {s t : State}  (h : Kept s t) : Kept s (referenceLost t) := by
  (unfold referenceLost; split <;> simp +contextual (maxDischargeDepth := 100) only [h, Kept.after_interruptIf, Kept.after_setFlag, Kept.mk_iff, Kept.pending, Kept.fuses, Kept.free, Kept.mem, Kept.regs, Kept.flash, and_self]; done)

theorem Kept.after_slotCheck {s t : State} {slot : BitVec 2} {board : BitVec 6} (h : Kept s t) : Kept s (slotCheck slot board t) := by
  (unfold slotCheck; split <;> simp +contextual (maxDischargeDepth := 100) only [h, Kept.after_setFlag, Kept.mk_iff, Kept.pending, Kept.fuses, Kept.free, Kept.mem, Kept.regs, Kept.flash, Kept.ite, and_self]; done)

theorem Kept.after_movedAt {s t : State} {x_t : Nat} (h : Kept s t) : Kept s (State.movedAt t x_t) := by
  (unfold State.movedAt; split <;> simp +contextual (maxDischargeDepth := 100) only [h, Kept.after_modPart]; done)

theorem Kept.after_returnCredit {s t : State} {x_t q : Nat} (h : Kept s t) : Kept s (State.returnCredit t x_t q) := by
  ((try unfold State.returnCredit); (try simp only []); (repeat' (first | (simp +contextual (maxDischargeDepth := 100) only [h, Kept.mk_iff, Kept.pending, Kept.fuses, Kept.free, Kept.mem, Kept.regs, Kept.flash, and_self]; done) | split | with_reducible assumption | with_reducible apply Kept.foldl | with_reducible apply Kept.ite | with_reducible apply Kept.ite_snd | with_reducible apply Kept.ite_fst | with_reducible apply Kept.ite_snd2 | intro _)); done)

theorem Kept.after_sendHead {s t : State} {x_t q out : Nat} (h : Kept s t) : Kept s (State.sendHead t x_t q out) := by
  ((try unfold State.sendHead); (try simp only []); (repeat' (first | (simp +contextual (maxDischargeDepth := 100) only [h, Kept.after_addFld, Kept.after_movedAt, Kept.after_returnCredit, Kept.after_setQueue, Kept.ite]; done) | split | with_reducible assumption | with_reducible apply Kept.after_addFld | with_reducible apply Kept.after_movedAt | with_reducible apply Kept.after_returnCredit | with_reducible apply Kept.after_setQueue | with_reducible apply Kept.foldl | with_reducible apply Kept.ite | with_reducible apply Kept.ite_snd | with_reducible apply Kept.ite_fst | with_reducible apply Kept.ite_snd2 | intro _)); done)

theorem Kept.after_pushFlit {s t : State} {x_t q : Nat} {f : Flit} (h : Kept s t) : Kept s (State.pushFlit t x_t q f) := by
  ((try unfold State.pushFlit); (try simp only []); (repeat' (first | (simp +contextual (maxDischargeDepth := 100) only [h, Kept.after_movedAt, Kept.after_setQueue, Kept.after_setUnit]; done) | split | with_reducible assumption | with_reducible apply Kept.after_movedAt | with_reducible apply Kept.after_setQueue | with_reducible apply Kept.after_setUnit | with_reducible apply Kept.foldl | with_reducible apply Kept.ite | with_reducible apply Kept.ite_snd | with_reducible apply Kept.ite_fst | with_reducible apply Kept.ite_snd2 | intro _)); done)

theorem Kept.after_flitEcc {s t : State} {x_t : Nat} {e : FlitEcc} (h : Kept s t) : Kept s (State.flitEcc t x_t e) := by
  (unfold State.flitEcc; split <;> simp +contextual (maxDischargeDepth := 100) only [h, Kept.after_countEcc, Kept.after_markTile, Kept.after_satFld, Kept.after_setFlag]; done)

theorem Kept.after_readHead {s t : State} {x_t : Nat} {x_h : Held} {ecc : FlitEcc} (h : Kept s t) : Kept s ((State.readHead t x_t x_h ecc).2) := by
  ((try unfold State.readHead); (try simp only []); (repeat' (first | (simp +contextual (maxDischargeDepth := 100) only [h, Kept.after_flitEcc]; done) | split | with_reducible assumption | with_reducible apply Kept.after_flitEcc | with_reducible apply Kept.foldl | with_reducible apply Kept.ite | with_reducible apply Kept.ite_snd | with_reducible apply Kept.ite_fst | with_reducible apply Kept.ite_snd2 | intro _)); done)

theorem Kept.after_faultSwitch {s t : State} {x_t code q other kind occ : Nat} (h : Kept s t) : Kept s (State.faultSwitch t x_t code q other kind occ) := by
  ((try unfold State.faultSwitch); (try simp only []); (repeat' (first | (simp +contextual (maxDischargeDepth := 100) only [h, Kept.after_faultTile]; done) | split | with_reducible assumption | with_reducible apply Kept.after_faultTile | with_reducible apply Kept.foldl | with_reducible apply Kept.ite | with_reducible apply Kept.ite_snd | with_reducible apply Kept.ite_fst | with_reducible apply Kept.ite_snd2 | intro _)); done)

theorem Kept.after_routeFault {s t : State} {x_t q other kind : Nat} (h : Kept s t) : Kept s (State.routeFault t x_t q other kind) := by
  ((try unfold State.routeFault); (try simp only []); (repeat' (first | (simp +contextual (maxDischargeDepth := 100) only [h, Kept.after_faultSwitch, Kept.after_setFlag]; done) | split | with_reducible assumption | with_reducible apply Kept.after_faultSwitch | with_reducible apply Kept.after_setFlag | with_reducible apply Kept.foldl | with_reducible apply Kept.ite | with_reducible apply Kept.ite_snd | with_reducible apply Kept.ite_fst | with_reducible apply Kept.ite_snd2 | intro _)); done)

theorem Kept.after_flitGrant {s t : State} {x_t out : Nat} {ecc : FlitEcc} (h : Kept s t) : Kept s (flitGrant x_t out ecc t) := by
  ((try unfold flitGrant); (try simp only []); (repeat' (first | (simp +contextual (maxDischargeDepth := 100) only [h, Kept.after_modTile, Kept.after_readHead, Kept.after_routeFault, Kept.after_sendHead, Kept.after_setQueue, Kept.mk_iff, Kept.pending, Kept.fuses, Kept.free, Kept.mem, Kept.regs, Kept.flash, and_self]; done) | split | with_reducible assumption | with_reducible apply Kept.after_modTile | with_reducible apply Kept.after_readHead | with_reducible apply Kept.after_routeFault | with_reducible apply Kept.after_sendHead | with_reducible apply Kept.after_setQueue | with_reducible apply Kept.foldl | with_reducible apply Kept.ite | with_reducible apply Kept.ite_snd | with_reducible apply Kept.ite_fst | with_reducible apply Kept.ite_snd2 | intro _)); done)

theorem Kept.after_putBack {s t : State} {f : Flight} (h : Kept s t) : Kept s (State.putBack t f) := by
  ((try unfold State.putBack); (try simp only []); (repeat' (first | (simp +contextual (maxDischargeDepth := 100) only [h, Kept.after_addFld, Kept.after_modPart, Kept.after_setQueue, Kept.after_setUnit, Kept.ite]; done) | split | with_reducible assumption | with_reducible apply Kept.after_addFld | with_reducible apply Kept.after_modPart | with_reducible apply Kept.after_setQueue | with_reducible apply Kept.after_setUnit | with_reducible apply Kept.foldl | with_reducible apply Kept.ite | with_reducible apply Kept.ite_snd | with_reducible apply Kept.ite_fst | with_reducible apply Kept.ite_snd2 | intro _)); done)

theorem Kept.after_linkAccepted {s t : State} {u0 : Source} (h : Kept s t) : Kept s (State.linkAccepted t u0) := by
  (induction u0 generalizing t  <;> simp +contextual (maxDischargeDepth := 100) only [State.linkAccepted, *, Kept.after_returnCredit, Kept.ite]; done)

theorem Kept.after_refuse {s t u : State} {x_t q port : Nat} (h : Kept s t) (hu : t.refuse x_t q port = some u) : Kept s u := by
  unfold State.refuse at hu
  split at hu
  · cases hu; exact Kept.after_routeFault h
  split at hu
  · cases hu; exact Kept.after_routeFault (Kept.after_modTile h)
  · cases hu

theorem Kept.after_flitArrival {s t : State} {x_t port : Nat} {ecc : FlitEcc} (h : Kept s t) : Kept s (flitArrival x_t port ecc t) := by
  ((try unfold flitArrival); (try simp only []); (repeat' (first | (simp +contextual (maxDischargeDepth := 100) only [h, Kept.after_flitEcc, Kept.after_linkAccepted, Kept.after_pushFlit, Kept.after_putBack, Kept.mk_iff, Kept.pending, Kept.fuses, Kept.free, Kept.mem, Kept.regs, Kept.flash, and_self]; done) | split | with_reducible refine Kept.after_refuse ?_ (by with_reducible assumption) | with_reducible assumption | with_reducible apply Kept.after_flitEcc | with_reducible apply Kept.after_linkAccepted | with_reducible apply Kept.after_pushFlit | with_reducible apply Kept.after_putBack | with_reducible apply Kept.foldl | with_reducible apply Kept.ite | with_reducible apply Kept.ite_snd | with_reducible apply Kept.ite_fst | with_reducible apply Kept.ite_snd2 | intro _)); done)

theorem Kept.after_creditReturn {s t : State} {x_t out : Nat} (h : Kept s t) : Kept s (creditReturn x_t out t) := by
  (unfold creditReturn; split <;> simp +contextual (maxDischargeDepth := 100) only [h, Kept.after_setQueue, Kept.mk_iff, Kept.pending, Kept.fuses, Kept.free, Kept.mem, Kept.regs, Kept.flash, Kept.ite, and_self]; done)

theorem Kept.after_setCredits {s t : State} {p : Nat} (h : Kept s t) : Kept s (State.setCredits t p) := by
  ((try unfold State.setCredits); (try simp only []); (repeat' (first | (simp +contextual (maxDischargeDepth := 100) only [h, Kept.after_setQueue, Kept.foldl, Kept.ite, implies_true]; done) | split | with_reducible assumption | with_reducible apply Kept.after_setQueue | with_reducible apply Kept.foldl | with_reducible apply Kept.ite | with_reducible apply Kept.ite_snd | with_reducible apply Kept.ite_fst | with_reducible apply Kept.ite_snd2 | intro _)); done)

theorem Kept.after_rebuildCredits {s t : State} {p : Nat} (h : Kept s t) : Kept s (State.rebuildCredits t p) := by
  ((try unfold State.rebuildCredits); (try simp only []); (repeat' (first | (simp +contextual (maxDischargeDepth := 100) only [h, Kept.after_setCredits, Kept.mk_iff, Kept.pending, Kept.fuses, Kept.free, Kept.mem, Kept.regs, Kept.flash, and_self]; done) | split | with_reducible assumption | with_reducible apply Kept.after_setCredits | with_reducible apply Kept.foldl | with_reducible apply Kept.ite | with_reducible apply Kept.ite_snd | with_reducible apply Kept.ite_fst | with_reducible apply Kept.ite_snd2 | intro _)); done)

theorem Kept.after_settle {s t : State} {p : Nat} (h : Kept s t) : Kept s (State.settle t p) := by
  ((try unfold State.settle); (try simp only []); (repeat' (first | (simp +contextual (maxDischargeDepth := 100) only [h, Kept.after_creditReturn, Kept.after_flitArrival, Kept.foldl, Kept.ite, implies_true]; done) | split | with_reducible assumption | with_reducible apply Kept.after_creditReturn | with_reducible apply Kept.after_flitArrival | with_reducible apply Kept.foldl | with_reducible apply Kept.ite | with_reducible apply Kept.ite_snd | with_reducible apply Kept.ite_fst | with_reducible apply Kept.ite_snd2 | intro _)); done)

theorem Kept.after_deadlockDetect {s t : State} {p : Nat} (h : Kept s t) : Kept s (deadlockDetect p t) := by
  ((try unfold deadlockDetect); (try simp only []); (repeat' (first | (simp +contextual (maxDischargeDepth := 100) only [h, Kept.after_faultSwitch, Kept.after_setFlag, Kept.after_setReg]; done) | split | with_reducible assumption | with_reducible apply Kept.after_faultSwitch | with_reducible apply Kept.after_setFlag | with_reducible apply Kept.after_setReg | with_reducible apply Kept.foldl | with_reducible apply Kept.ite | with_reducible apply Kept.ite_snd | with_reducible apply Kept.ite_fst | with_reducible apply Kept.ite_snd2 | intro _)); done)

theorem Kept.after_setGrd {s t : State} {x_t : Nat} {link : Bool} {v : Word} (h : Kept s t) : Kept s (State.setGrd t x_t link v) := by
  (unfold State.setGrd; split <;> simp +contextual (maxDischargeDepth := 100) only [h, Kept.after_setFld]; done)

theorem Kept.after_writeGrd {s t : State} {x_t : Nat} {link : Bool} {v : Word} (h : Kept s t) : Kept s (State.writeGrd t x_t link v) := by
  (unfold State.writeGrd; split <;> simp +contextual (maxDischargeDepth := 100) only [h, Kept.after_modTile, Kept.after_setFlag, Kept.after_setGrd, Kept.ite]; done)

theorem Kept.after_applyDeferred {s t : State} {p : Nat} (h : Kept s t) : Kept s (State.applyDeferred t p) := by
  ((try unfold State.applyDeferred); (try simp only []); (repeat' (first | (simp +contextual (maxDischargeDepth := 100) only [h, Kept.after_modTile, Kept.after_setGrd, implies_true]; done) | split | with_reducible assumption | with_reducible apply Kept.after_modTile | with_reducible apply Kept.after_setGrd | with_reducible apply Kept.foldl | with_reducible apply Kept.ite | with_reducible apply Kept.ite_snd | with_reducible apply Kept.ite_fst | with_reducible apply Kept.ite_snd2 | intro _)); done)

theorem Kept.after_setOperand {s t : State} {x_t n v : Nat} (h : Kept s t) : Kept s (State.setOperand t x_t n v) := by
  (unfold State.setOperand; split <;> simp +contextual (maxDischargeDepth := 100) only [h, Kept.after_setFlag, Kept.after_setReg, Kept.after_setReg64, Kept.ite]; done)

theorem Kept.after_setLunit {s t : State} {x_t a : Nat} {v : Payload} (h : Kept s t) : Kept s (State.setLunit t x_t a v) := by
  ((try unfold State.setLunit); (try simp only []); (repeat' (first | (simp +contextual (maxDischargeDepth := 100) only [h, Kept.after_setUnit]; done) | split | with_reducible assumption | with_reducible apply Kept.after_setUnit | with_reducible apply Kept.foldl | with_reducible apply Kept.ite | with_reducible apply Kept.ite_snd | with_reducible apply Kept.ite_fst | with_reducible apply Kept.ite_snd2 | intro _)); done)



theorem Kept.after_setOwner {s t : State} {x_t b v : Nat} (h : Kept s t) : Kept s (State.setOwner t x_t b v) := by
  (unfold State.setOwner; split <;> simp +contextual (maxDischargeDepth := 100) only [h, Kept.after_setFlag, Kept.after_setReg]; done)

theorem Kept.after_handOver {s t : State} {x_t b v : Nat} (h : Kept s t) : Kept s (State.handOver t x_t b v) := by
  (unfold State.handOver; split <;> simp +contextual (maxDischargeDepth := 100) only [h, Kept.after_setBank, Kept.after_setOwner, Kept.ite]; done)

theorem Kept.after_lateHandovers {s t : State} {x_t mask : Nat} (h : Kept s t) : Kept s (State.lateHandovers t x_t mask) := by
  ((try unfold State.lateHandovers); (try simp only []); (repeat' (first | (simp +contextual (maxDischargeDepth := 100) only [h, Kept.after_setBank, Kept.after_setOwner, Kept.foldl, Kept.ite, implies_true]; done) | split | with_reducible assumption | with_reducible apply Kept.after_setBank | with_reducible apply Kept.after_setOwner | with_reducible apply Kept.foldl | with_reducible apply Kept.ite | with_reducible apply Kept.ite_snd | with_reducible apply Kept.ite_fst | with_reducible apply Kept.ite_snd2 | intro _)); done)

theorem Kept.after_dropMarch {s t : State} {x_t : Nat} (h : Kept s t) : Kept s (State.dropMarch t x_t) := by
  (unfold State.dropMarch; split <;> simp +contextual (maxDischargeDepth := 100) only [h, Kept.after_lateHandovers]; done)

theorem Kept.after_eccBank {s t : State} {x_t : Nat} {part : Option Nat} {e : ReadEcc} (h : Kept s t) : Kept s (State.eccBank t x_t part e) := by
  ((try unfold State.eccBank); (try simp only []); (repeat' (first | (simp +contextual (maxDischargeDepth := 100) only [h, Kept.after_countEcc, Kept.after_markOpen, Kept.after_suspect]; done) | split | with_reducible assumption | with_reducible apply Kept.after_countEcc | with_reducible apply Kept.after_markOpen | with_reducible apply Kept.after_suspect | with_reducible apply Kept.foldl | with_reducible apply Kept.ite | with_reducible apply Kept.ite_snd | with_reducible apply Kept.ite_fst | with_reducible apply Kept.ite_snd2 | intro _)); done)

theorem Kept.after_readBank {s t : State} {x_t a n : Nat} (h : Kept s t) : Kept s ((State.readBank t x_t a n).2) := by
  (unfold State.readBank; split <;> simp +contextual (maxDischargeDepth := 100) only [h, Kept.after_took]; done)

theorem Kept.after_writeBank {s t : State} {x_t : Nat} {w : Window} {a n v : Nat} (h : Kept s t) : Kept s (State.writeBank t x_t w a n v) := by
  (unfold State.writeBank; split <;> simp +contextual (maxDischargeDepth := 100) only [h, Kept.after_writeNum]; done)

theorem Kept.after_portViolation {s t : State} {x_t a b code : Nat} {part : Option Nat} {kind : Nat} (h : Kept s t) : Kept s (State.portViolation t x_t a b code part kind) := by
  (unfold State.portViolation; split <;> simp +contextual (maxDischargeDepth := 100) only [h, Kept.after_hostViolation, Kept.after_logFault, Kept.after_setReg]; done)

theorem Kept.after_ownerEntry {s t : State} {x_t code : Nat} {part : Option Nat} {e : Nat × Nat × Bool} (h : Kept s t) : Kept s ((State.ownerEntry t x_t code part e).2) := by
  (unfold State.ownerEntry; split <;> simp +contextual (maxDischargeDepth := 100) only [h, Kept.after_handOver, Kept.after_portViolation, Kept.ite_snd]; done)

theorem Kept.after_ownerWrite {s t : State} {x_t code : Nat} {part : Option Nat} {es : List (Nat × Nat × Bool)} (h : Kept s t) : Kept s ((State.ownerWrite t x_t code part es).2) := by
  unfold State.ownerWrite
  generalize hb : (false, t) = r
  have hr : Kept s r.2 := hb ▸ h
  clear hb h
  induction es generalizing r with
  | nil => exact hr
  | cons a l ih => exact ih _ (Kept.after_ownerEntry hr)

theorem Kept.after_portRead {s t : State} {x_t a n code : Nat} {part : Option Nat} {ecc : ReadEcc} (h : Kept s t) : Kept s ((State.portRead t x_t a n code part ecc).2.2) := by
  (unfold State.portRead; split <;> simp +contextual (maxDischargeDepth := 100) only [h, Kept.after_eccBank, Kept.after_flipBytes, Kept.after_portViolation, Kept.after_readBank, Kept.ite_snd2]; done)

theorem Kept.after_portWrite {s t : State} {x_t a : Nat} {data : List Byte} {code : Nat} {part : Option Nat} {ecc : ReadEcc} (h : Kept s t) : Kept s ((State.portWrite t x_t a data code part ecc).2) := by
  ((try unfold State.portWrite); (try simp only []); (repeat' (first | (simp +contextual (maxDischargeDepth := 100) only [h, Kept.after_eccBank, Kept.after_flipBytes, Kept.after_ownerWrite, Kept.after_portViolation, Kept.after_writeBank, Kept.ite_snd]; done) | split | with_reducible assumption | with_reducible apply Kept.after_eccBank | with_reducible apply Kept.after_flipBytes | with_reducible apply Kept.after_ownerWrite | with_reducible apply Kept.after_portViolation | with_reducible apply Kept.after_writeBank | with_reducible apply Kept.foldl | with_reducible apply Kept.ite | with_reducible apply Kept.ite_snd | with_reducible apply Kept.ite_fst | with_reducible apply Kept.ite_snd2 | intro _)); done)

theorem Kept.after_portAtomic {s t : State} {x_t a code : Nat} {part : Option Nat} {op : AccessOp} {ecc : ReadEcc} (h : Kept s t) : Kept s ((State.portAtomic t x_t a code part op ecc).2.2) := by
  (unfold State.portAtomic; split <;> simp +contextual (maxDischargeDepth := 100) only [h, Kept.after_eccBank, Kept.after_flipBytes, Kept.after_portViolation, Kept.after_readBank, Kept.after_writeBank, Kept.ite_snd2]; done)

theorem Kept.after_portAccess {s t : State} {x_t a code : Nat} {part : Option Nat} {op : AccessOp} {ecc : ReadEcc} (h : Kept s t) : Kept s ((State.portAccess t x_t a code part op ecc).2.2) := by
  (unfold State.portAccess; split <;> simp +contextual (maxDischargeDepth := 100) only [h, Kept.after_portAtomic, Kept.after_portRead, Kept.after_portWrite]; done)

theorem Kept.after_progWrite {s t u : State} {a b : Nat} {v : Payload} (h : Kept s t) (hu : State.progWrite t a b v = .inl u) : Kept s u := by
  unfold State.progWrite at hu
  split at hu
  · simp at hu
  · simp only [Sum.inl.injEq] at hu
    exact hu ▸ Kept.after_setLunit h

theorem Kept.after_progRead {s t : State} {a b : Nat} {u : Payload × State} (h : Kept s t) (hu : State.progRead t a b = .inl u) : Kept s u.2 := by
  unfold State.progRead at hu
  split at hu
  · split at hu
    · simp at hu
    · simp only [Sum.inl.injEq] at hu
      exact hu ▸ Kept.after_readBank h
  · simp only [Sum.inl.injEq] at hu
    exact hu ▸ h

theorem Kept.after_eccStore {s t : State} {x_t : Nat} {e : ReadEcc} (h : Kept s t) : Kept s (State.eccStore t x_t e) := by
  (unfold State.eccStore; split <;> simp +contextual (maxDischargeDepth := 100) only [h, Kept.after_eccTile, Kept.after_markTile, Kept.after_suspect, Kept.ite]; done)

theorem Kept.after_markRows {s t : State} {x_t mask row mismatch : Nat} (h : Kept s t) : Kept s (State.markRows t x_t mask row mismatch) := by
  ((try unfold State.markRows); (try simp only []); (repeat' (first | (simp +contextual (maxDischargeDepth := 100) only [h, Kept.after_setBank, Kept.after_setFld, Kept.foldl, Kept.ite, implies_true]; done) | split | with_reducible assumption | with_reducible apply Kept.after_setBank | with_reducible apply Kept.after_setFld | with_reducible apply Kept.foldl | with_reducible apply Kept.ite | with_reducible apply Kept.ite_snd | with_reducible apply Kept.ite_fst | with_reducible apply Kept.ite_snd2 | intro _)); done)

theorem Kept.after_failBank {s t : State} {x_t b : Nat} (h : Kept s t) : Kept s (State.failBank t x_t b) := by
  ((try unfold State.failBank); (try simp only []); (repeat' (first | (simp +contextual (maxDischargeDepth := 100) only [h, Kept.after_setFlag, Kept.after_setReg64]; done) | split | with_reducible assumption | with_reducible apply Kept.after_setFlag | with_reducible apply Kept.after_setReg64 | with_reducible apply Kept.foldl | with_reducible apply Kept.ite | with_reducible apply Kept.ite_snd | with_reducible apply Kept.ite_fst | with_reducible apply Kept.ite_snd2 | intro _)); done)

theorem Kept.after_repairBank {s t : State} {x_t b pass : Nat} (h : Kept s t) : Kept s (State.repairBank t x_t b pass) := by
  ((try unfold State.repairBank); (try simp only []); (repeat' (first | (simp +contextual (maxDischargeDepth := 100) only [h, Kept.after_failBank, Kept.after_setBank, Kept.after_setFld, Kept.ite]; done) | split | with_reducible assumption | with_reducible apply Kept.after_failBank | with_reducible apply Kept.after_pass | with_reducible apply Kept.after_setBank | with_reducible apply Kept.after_setFld | with_reducible apply Kept.foldl | with_reducible apply Kept.ite | with_reducible apply Kept.ite_snd | with_reducible apply Kept.ite_fst | with_reducible apply Kept.ite_snd2 | intro _)); done)

theorem Kept.after_beginPass {s t : State} {x_t mask : Nat} {first : Bool} (h : Kept s t) : Kept s (State.beginPass t x_t mask first) := by
  (unfold State.beginPass; split <;> simp +contextual (maxDischargeDepth := 100) only [h, Kept.after_setBank, Kept.after_setFld, Kept.foldl, implies_true]; done)

theorem Kept.after_marchUnit {s t : State} {x_t op mask pat c : Nat} {repair : Bool} {ecc : ReadEcc} {mismatch : Nat} (h : Kept s t) : Kept s ((State.marchUnit t x_t op mask pat c repair ecc mismatch).1) := by
  unfold State.marchUnit
  split
  all_goals repeat' (first | with_reducible assumption | dsimp only | split | with_reducible apply Kept.after_beginPass | with_reducible apply Kept.after_markOpen | with_reducible apply Kept.after_markRows | with_reducible apply Kept.after_repairBank | with_reducible apply Kept.after_satFld | with_reducible apply Kept.after_countEcc | with_reducible apply Kept.after_setFlag | with_reducible apply Kept.after_setLunit | with_reducible apply Kept.foldl | intro _)

theorem Kept.after_setPc {s t : State} {x_t a : Nat} (h : Kept s t) : Kept s (State.setPc t x_t a) := by
  ((try unfold State.setPc); (try simp only []); (repeat' (first | (simp +contextual (maxDischargeDepth := 100) only [h, Kept.after_setFld]; done) | split | with_reducible assumption | with_reducible apply Kept.after_setFld | with_reducible apply Kept.foldl | with_reducible apply Kept.ite | with_reducible apply Kept.ite_snd | with_reducible apply Kept.ite_fst | with_reducible apply Kept.ite_snd2 | intro _)); done)

theorem Kept.after_setSeqState {s t : State} {x_t n : Nat} (h : Kept s t) : Kept s (State.setSeqState t x_t n) := by
  ((try unfold State.setSeqState); (try simp only []); (repeat' (first | (simp +contextual (maxDischargeDepth := 100) only [h, Kept.after_setFld]; done) | split | with_reducible assumption | with_reducible apply Kept.after_setFld | with_reducible apply Kept.foldl | with_reducible apply Kept.ite | with_reducible apply Kept.ite_snd | with_reducible apply Kept.ite_fst | with_reducible apply Kept.ite_snd2 | intro _)); done)

theorem Kept.after_seqFault {s t : State} {x_t code kind : Nat} {engine : Option Nat} {pc value : Nat} (h : Kept s t) : Kept s (State.seqFault t x_t code kind engine pc value) := by
  (unfold State.seqFault; split <;> simp +contextual (maxDischargeDepth := 100) only [h, Kept.after_faultTile, Kept.after_setReg]; done)

theorem Kept.after_issueFault {s t : State} {x_t code kind value : Nat} (h : Kept s t) : Kept s (State.issueFault t x_t code kind value) := by
  ((try unfold State.issueFault); (try simp only []); (repeat' (first | (simp +contextual (maxDischargeDepth := 100) only [h, Kept.after_seqFault]; done) | split | with_reducible assumption | with_reducible apply Kept.after_seqFault | with_reducible apply Kept.foldl | with_reducible apply Kept.ite | with_reducible apply Kept.ite_snd | with_reducible apply Kept.ite_fst | with_reducible apply Kept.ite_snd2 | intro _)); done)

theorem Kept.after_retire {s t : State} {x_t : Nat} (h : Kept s t) : Kept s (State.retire t x_t) := by
  ((try unfold State.retire); (try simp only []); (repeat' (first | (simp +contextual (maxDischargeDepth := 100) only [h, Kept.after_setPc, Kept.after_setSeqState]; done) | split | with_reducible assumption | with_reducible apply Kept.after_setPc | with_reducible apply Kept.after_setSeqState | with_reducible apply Kept.foldl | with_reducible apply Kept.ite | with_reducible apply Kept.ite_snd | with_reducible apply Kept.ite_fst | with_reducible apply Kept.ite_snd2 | intro _)); done)

theorem Kept.after_seqWait {s t : State} {x_t : Nat} (h : Kept s t) : Kept s (State.seqWait t x_t) := by
  ((try unfold State.seqWait); (try simp only []); (repeat' (first | (simp +contextual (maxDischargeDepth := 100) only [h, Kept.after_setSeqState]; done) | split | with_reducible assumption | with_reducible apply Kept.after_setSeqState | with_reducible apply Kept.foldl | with_reducible apply Kept.ite | with_reducible apply Kept.ite_snd | with_reducible apply Kept.ite_fst | with_reducible apply Kept.ite_snd2 | intro _)); done)

theorem Kept.after_issue {s t : State} {x_t : Nat} {fetch : Ecc} {mine : Nat → Bool} {body : Nat → State → State} (hbody : ∀ w t, Kept s t → Kept s (body w t)) (h : Kept s t) : Kept s (State.issue t x_t fetch mine body) := by
  ((try unfold State.issue); (try simp only []); (repeat' (first | (simp +contextual (maxDischargeDepth := 100) only [h, hbody, Kept.after_issueFault, Kept.after_markTile, Kept.after_retire, Kept.after_satFld, Kept.after_seqWait, Kept.after_suspect, Kept.ite]; done) | split | with_reducible assumption | with_reducible apply hbody | with_reducible apply Kept.after_issueFault | with_reducible apply Kept.after_markTile | with_reducible apply Kept.after_retire | with_reducible apply Kept.after_satFld | with_reducible apply Kept.after_seqWait | with_reducible apply Kept.after_suspect | with_reducible apply Kept.foldl | with_reducible apply Kept.ite | with_reducible apply Kept.ite_snd | with_reducible apply Kept.ite_fst | with_reducible apply Kept.ite_snd2 | intro _)); done)

theorem Kept.after_holdWord {s t : State} {x_t e w : Nat} {ops : List Nat} (h : Kept s t) : Kept s (State.holdWord t x_t e w ops) := by
  ((try unfold State.holdWord); (try simp only []); (repeat' (first | (simp +contextual (maxDischargeDepth := 100) only [h, Kept.after_setEngine, Kept.after_setFld, Kept.after_setReg, Kept.after_setReg64]; done) | split | with_reducible assumption | with_reducible apply Kept.after_setEngine | with_reducible apply Kept.after_setFld | with_reducible apply Kept.after_setReg | with_reducible apply Kept.after_setReg64 | with_reducible apply Kept.foldl | with_reducible apply Kept.ite | with_reducible apply Kept.ite_snd | with_reducible apply Kept.ite_fst | with_reducible apply Kept.ite_snd2 | intro _)); done)

theorem Kept.after_startEngine {s t : State} {x_t e w : Nat} {ops : List Nat} (h : Kept s t) : Kept s (State.startEngine t x_t e w ops) := by
  ((try unfold State.startEngine); (try simp only []); (repeat' (first | (simp +contextual (maxDischargeDepth := 100) only [h, Kept.after_holdWord, Kept.after_retire]; done) | split | with_reducible assumption | with_reducible apply Kept.after_holdWord | with_reducible apply Kept.after_retire | with_reducible apply Kept.foldl | with_reducible apply Kept.ite | with_reducible apply Kept.ite_snd | with_reducible apply Kept.ite_fst | with_reducible apply Kept.ite_snd2 | intro _)); done)

theorem Kept.after_setProg {s t : State} {x_t e n : Nat} (h : Kept s t) : Kept s (State.setProg t x_t e n) := by
  ((try unfold State.setProg); (try simp only []); (repeat' (first | (simp +contextual (maxDischargeDepth := 100) only [h, Kept.after_setReg]; done) | split | with_reducible assumption | with_reducible apply Kept.after_setReg | with_reducible apply Kept.foldl | with_reducible apply Kept.ite | with_reducible apply Kept.ite_snd | with_reducible apply Kept.ite_fst | with_reducible apply Kept.ite_snd2 | intro _)); done)

theorem Kept.after_completeEngine {s t : State} {x_t e : Nat} (h : Kept s t) : Kept s (State.completeEngine t x_t e) := by
  ((try unfold State.completeEngine); (try simp only []); (repeat' (first | (simp +contextual (maxDischargeDepth := 100) only [h, Kept.after_setFld]; done) | split | with_reducible assumption | with_reducible apply Kept.after_setFld | with_reducible apply Kept.foldl | with_reducible apply Kept.ite | with_reducible apply Kept.ite_snd | with_reducible apply Kept.ite_fst | with_reducible apply Kept.ite_snd2 | intro _)); done)

theorem Kept.after_unitFault {s t : State} {x_t e code kind value : Nat} (h : Kept s t) : Kept s (State.unitFault t x_t e code kind value) := by
  ((try unfold State.unitFault); (try simp only []); (repeat' (first | (simp +contextual (maxDischargeDepth := 100) only [h, Kept.after_seqFault]; done) | split | with_reducible assumption | with_reducible apply Kept.after_seqFault | with_reducible apply Kept.foldl | with_reducible apply Kept.ite | with_reducible apply Kept.ite_snd | with_reducible apply Kept.ite_fst | with_reducible apply Kept.ite_snd2 | intro _)); done)

theorem Kept.after_aluBody {s t : State} {op : AluOp} {imm : Bool} {x_t w : Nat} (h : Kept s t) : Kept s (aluBody op imm x_t w t) := by
  (unfold aluBody; split <;> simp +contextual (maxDischargeDepth := 100) only [h, Kept.after_retire, Kept.after_setOperand]; done)

theorem Kept.after_movBody {s t : State} {imm : Bool} {x_t w : Nat} (h : Kept s t) : Kept s (movBody imm x_t w t) := by
  (unfold movBody; split <;> simp +contextual (maxDischargeDepth := 100) only [h, Kept.after_retire, Kept.after_setOperand]; done)

theorem Kept.after_cmpBody {s t : State} {imm : Bool} {x_t w : Nat} (h : Kept s t) : Kept s (cmpBody imm x_t w t) := by
  (unfold cmpBody; split <;> simp +contextual (maxDischargeDepth := 100) only [h, Kept.after_retire, Kept.after_setOperand]; done)

theorem Kept.after_popFrame {s t : State} {x_t n : Nat} (h : Kept s t) : Kept s (State.popFrame t x_t n) := by
  ((try unfold State.popFrame); (try simp only []); (repeat' (first | (simp +contextual (maxDischargeDepth := 100) only [h, Kept.after_setFlag]; done) | split | with_reducible assumption | with_reducible apply Kept.after_setFlag | with_reducible apply Kept.foldl | with_reducible apply Kept.ite | with_reducible apply Kept.ite_snd | with_reducible apply Kept.ite_fst | with_reducible apply Kept.ite_snd2 | intro _)); done)

theorem Kept.after_popFrames {s t : State} {x_t a : Nat} {u0 : Nat} (h : Kept s t) : Kept s (State.popFrames t x_t a u0) := by
  (induction u0 generalizing t x_t a <;> simp +contextual (maxDischargeDepth := 100) only [State.popFrames, *, Kept.after_popFrame, Kept.ite]; done)

theorem Kept.after_brBody {s t : State} {x_t w : Nat} (h : Kept s t) : Kept s (brBody x_t w t) := by
  ((try unfold brBody); (try simp only []); (repeat' (first | (simp +contextual (maxDischargeDepth := 100) only [h, Kept.after_popFrames, Kept.after_setPc, Kept.after_setSeqState]; done) | split | with_reducible assumption | with_reducible apply Kept.after_popFrames | with_reducible apply Kept.after_setPc | with_reducible apply Kept.after_setSeqState | with_reducible apply Kept.foldl | with_reducible apply Kept.ite | with_reducible apply Kept.ite_snd | with_reducible apply Kept.ite_fst | with_reducible apply Kept.ite_snd2 | intro _)); done)

theorem Kept.after_loopBody {s t : State} {x_t w : Nat} (h : Kept s t) : Kept s (loopBody x_t w t) := by
  (unfold loopBody; split <;> simp +contextual (maxDischargeDepth := 100) only [h, Kept.after_issueFault, Kept.after_retire, Kept.after_setOperand, Kept.after_setPc, Kept.after_setReg, Kept.after_setSeqState, Kept.ite]; done)

theorem Kept.after_endlBody {s t : State} {x_t : Nat} (h : Kept s t) : Kept s (endlBody x_t t) := by
  (unfold endlBody; split <;> simp +contextual (maxDischargeDepth := 100) only [h, Kept.after_issueFault, Kept.after_popFrame, Kept.after_retire, Kept.after_setOperand, Kept.after_setPc, Kept.after_setReg, Kept.after_setSeqState, Kept.ite]; done)

theorem Kept.after_shapeBody {s t : State} {x_t w : Nat} (h : Kept s t) : Kept s (shapeBody x_t w t) := by
  ((try unfold shapeBody); (try simp only []); (repeat' (first | (simp +contextual (maxDischargeDepth := 100) only [h, Kept.after_issueFault, Kept.after_retire, Kept.after_setOperand, Kept.ite]; done) | split | with_reducible assumption | with_reducible apply Kept.after_issueFault | with_reducible apply Kept.after_retire | with_reducible apply Kept.after_setOperand | with_reducible apply Kept.foldl | with_reducible apply Kept.ite | with_reducible apply Kept.ite_snd | with_reducible apply Kept.ite_fst | with_reducible apply Kept.ite_snd2 | intro _)); done)

theorem Kept.after_fenceBody {s t : State} {x_t w : Nat} (h : Kept s t) : Kept s (fenceBody x_t w t) := by
  (unfold fenceBody; split <;> simp +contextual (maxDischargeDepth := 100) only [h, Kept.after_retire, Kept.after_seqWait, Kept.ite]; done)

theorem Kept.after_haltBody {s t : State} {x_t : Nat} (h : Kept s t) : Kept s (haltBody x_t t) := by
  (unfold haltBody; split <;> simp +contextual (maxDischargeDepth := 100) only [h, Kept.after_seqWait, Kept.after_setSeqState]; done)

theorem Kept.after_channelBody {s t : State} {e x_t w : Nat} (h : Kept s t) : Kept s (channelBody e x_t w t) := by
  (unfold channelBody; split <;> simp +contextual (maxDischargeDepth := 100) only [h, Kept.after_issueFault, Kept.after_startEngine]; done)

theorem Kept.after_peekWrite {s t : State} {x_t w : Nat} {x_h : Held} {ecc : FlitEcc} (h : Kept s t) : Kept s (State.peekWrite t x_t w x_h ecc) := by
  ((try unfold State.peekWrite); (try simp only []); (repeat' (first | (simp +contextual (maxDischargeDepth := 100) only [h, Kept.after_readHead, Kept.after_setOperand]; done) | split | with_reducible assumption | with_reducible apply Kept.after_readHead | with_reducible apply Kept.after_setOperand | with_reducible apply Kept.foldl | with_reducible apply Kept.ite | with_reducible apply Kept.ite_snd | with_reducible apply Kept.ite_fst | with_reducible apply Kept.ite_snd2 | intro _)); done)

theorem Kept.after_peekBody {s t : State} {ecc : FlitEcc} {x_t w : Nat} (h : Kept s t) : Kept s (peekBody ecc x_t w t) := by
  ((try unfold peekBody); (try simp only []); (repeat' (first | (simp +contextual (maxDischargeDepth := 100) only [h, Kept.after_issueFault, Kept.after_peekWrite, Kept.after_retire, Kept.after_startEngine]; done) | split | with_reducible assumption | with_reducible apply Kept.after_issueFault | with_reducible apply Kept.after_peekWrite | with_reducible apply Kept.after_retire | with_reducible apply Kept.after_startEngine | with_reducible apply Kept.foldl | with_reducible apply Kept.ite | with_reducible apply Kept.ite_snd | with_reducible apply Kept.ite_fst | with_reducible apply Kept.ite_snd2 | intro _)); done)

theorem Kept.after_quenchBody {s t : State} {x_t w : Nat} (h : Kept s t) : Kept s (quenchBody x_t w t) := by
  (unfold quenchBody; split <;> simp +contextual (maxDischargeDepth := 100) only [h, Kept.after_holdWord, Kept.after_seqWait, Kept.after_setSeqState, Kept.after_startEngine, Kept.ite]; done)

theorem Kept.after_quenchCount {s t : State} {x_t : Nat} (h : Kept s t) : Kept s (State.quenchCount t x_t) := by
  ((try unfold State.quenchCount); (try simp only []); (repeat' (first | (simp +contextual (maxDischargeDepth := 100) only [h, Kept.after_setProg]; done) | split | with_reducible assumption | with_reducible apply Kept.after_setProg | with_reducible apply Kept.foldl | with_reducible apply Kept.ite | with_reducible apply Kept.ite_snd | with_reducible apply Kept.ite_fst | with_reducible apply Kept.ite_snd2 | intro _)); done)

theorem Kept.after_takeLocal {s t : State} {x_t q : Nat} (h : Kept s t) : Kept s (State.takeLocal t x_t q) := by
  ((try unfold State.takeLocal); (try simp only []); (repeat' (first | (simp +contextual (maxDischargeDepth := 100) only [h, Kept.after_sendHead]; done) | split | with_reducible assumption | with_reducible apply Kept.after_sendHead | with_reducible apply Kept.foldl | with_reducible apply Kept.ite | with_reducible apply Kept.ite_snd | with_reducible apply Kept.ite_fst | with_reducible apply Kept.ite_snd2 | intro _)); done)

theorem Kept.after_takeMark {s t : State} {x_t q : Nat} {ecc : FlitEcc} (h : Kept s t) : Kept s (State.takeMark t x_t q ecc) := by
  ((try unfold State.takeMark); (try simp only []); (repeat' (first | (simp +contextual (maxDischargeDepth := 100) only [h, Kept.after_flitEcc, Kept.after_takeLocal]; done) | split | with_reducible assumption | with_reducible apply Kept.after_flitEcc | with_reducible apply Kept.after_takeLocal | with_reducible apply Kept.foldl | with_reducible apply Kept.ite | with_reducible apply Kept.ite_snd | with_reducible apply Kept.ite_fst | with_reducible apply Kept.ite_snd2 | intro _)); done)

theorem Kept.after_quenchTake {s t : State} {x_t : Nat} {qs : List Nat} {ecc : FlitEcc} (h : Kept s t) : Kept s (State.quenchTake t x_t qs ecc) := by
  ((try unfold State.quenchTake); (try simp only []); (repeat' (first | (simp +contextual (maxDischargeDepth := 100) only [h, Kept.after_quenchCount, Kept.after_takeMark, Kept.after_unitFault]; done) | split | with_reducible assumption | with_reducible apply Kept.after_quenchCount | with_reducible apply Kept.after_takeMark | with_reducible apply Kept.after_unitFault | with_reducible apply Kept.foldl | with_reducible apply Kept.ite | with_reducible apply Kept.ite_snd | with_reducible apply Kept.ite_fst | with_reducible apply Kept.ite_snd2 | intro _)); done)

theorem Kept.after_quenchUnit {s t : State} {x_t : Nat} {ecc : FlitEcc} (h : Kept s t) : Kept s (State.quenchUnit t x_t ecc) := by
  ((try unfold State.quenchUnit); (try simp only []); (repeat' (first | (simp +contextual (maxDischargeDepth := 100) only [h, Kept.after_completeEngine, Kept.after_pushFlit, Kept.after_quenchCount, Kept.after_quenchTake, Kept.after_setSeqState, Kept.ite]; done) | split | with_reducible assumption | with_reducible apply Kept.after_completeEngine | with_reducible apply Kept.after_pushFlit | with_reducible apply Kept.after_quenchCount | with_reducible apply Kept.after_quenchTake | with_reducible apply Kept.after_setSeqState | with_reducible apply Kept.foldl | with_reducible apply Kept.ite | with_reducible apply Kept.ite_snd | with_reducible apply Kept.ite_fst | with_reducible apply Kept.ite_snd2 | intro _)); done)

theorem Kept.after_recvEnd {s t : State} {x_t w n : Nat} {pe : Bool} (h : Kept s t) : Kept s (State.recvEnd t x_t w n pe) := by
  ((try unfold State.recvEnd); (try simp only []); (repeat' (first | (simp +contextual (maxDischargeDepth := 100) only [h, Kept.after_completeEngine, Kept.after_setOperand]; done) | split | with_reducible assumption | with_reducible apply Kept.after_completeEngine | with_reducible apply Kept.after_setOperand | with_reducible apply Kept.foldl | with_reducible apply Kept.ite | with_reducible apply Kept.ite_snd | with_reducible apply Kept.ite_fst | with_reducible apply Kept.ite_snd2 | intro _)); done)

theorem Kept.after_recvUnit {s t : State} {x_t w : Nat} {ecc : FlitEcc} (h : Kept s t) : Kept s (State.recvUnit t x_t w ecc) := by
  ((try unfold State.recvUnit); (try simp only []); (repeat' (first | (simp +contextual (maxDischargeDepth := 100) only [h, Kept.after_readHead, Kept.after_recvEnd, Kept.after_takeMark, Kept.after_unitFault]; done) | split | with_reducible refine Kept.after_progWrite ?_ (by with_reducible assumption) | with_reducible assumption | with_reducible apply Kept.after_readHead | with_reducible apply Kept.after_recvEnd | with_reducible apply Kept.after_setProg | with_reducible apply Kept.after_takeLocal | with_reducible apply Kept.after_takeMark | with_reducible apply Kept.after_unitFault | with_reducible apply Kept.foldl | with_reducible apply Kept.ite | with_reducible apply Kept.ite_snd | with_reducible apply Kept.ite_fst | with_reducible apply Kept.ite_snd2 | intro _)); done)

theorem Kept.after_sendUnit {s t : State} {x_t w : Nat} (h : Kept s t) : Kept s (State.sendUnit t x_t w) := by
  ((try unfold State.sendUnit); (try simp only []); (repeat' (first | (simp +contextual (maxDischargeDepth := 100) only [h, Kept.after_completeEngine, Kept.after_pushFlit, Kept.after_unitFault]; done) | split | with_reducible refine Kept.after_progRead ?_ (by with_reducible assumption) | with_reducible assumption | with_reducible apply Kept.after_completeEngine | with_reducible apply Kept.after_pushFlit | with_reducible apply Kept.after_setProg | with_reducible apply Kept.after_unitFault | with_reducible apply Kept.foldl | with_reducible apply Kept.ite | with_reducible apply Kept.ite_snd | with_reducible apply Kept.ite_fst | with_reducible apply Kept.ite_snd2 | intro _)); done)

theorem Kept.after_peekUnit {s t : State} {x_t w : Nat} {ecc : FlitEcc} (h : Kept s t) : Kept s (State.peekUnit t x_t w ecc) := by
  (unfold State.peekUnit; split <;> simp +contextual (maxDischargeDepth := 100) only [h, Kept.after_completeEngine, Kept.after_peekWrite]; done)

theorem Kept.after_slgBit {s t : State} {f : Field} (h : Kept s t) : Kept s (State.slgBit t f) := by
  ((try unfold State.slgBit); (try simp only []); (repeat' (first | (simp +contextual (maxDischargeDepth := 100) only [h, Kept.after_interruptIf, Kept.after_setFlag]; done) | split | with_reducible assumption | with_reducible apply Kept.after_interruptIf | with_reducible apply Kept.after_setFlag | with_reducible apply Kept.foldl | with_reducible apply Kept.ite | with_reducible apply Kept.ite_snd | with_reducible apply Kept.ite_fst | with_reducible apply Kept.ite_snd2 | intro _)); done)

theorem Kept.after_readEnvelopes {s t : State} {p : Nat} (h : Kept s t) : Kept s (State.readEnvelopes t p) := by
  ((try unfold State.readEnvelopes); (try simp only []); (repeat' (first | (simp +contextual (maxDischargeDepth := 100) only [h, Kept.after_modPart, Kept.after_pass, Kept.after_slgBit, Kept.ite]; done) | split | with_reducible assumption | with_reducible apply Kept.after_modPart | with_reducible apply Kept.after_pass | with_reducible apply Kept.after_slgBit | with_reducible apply Kept.foldl | with_reducible apply Kept.ite | with_reducible apply Kept.ite_snd | with_reducible apply Kept.ite_fst | with_reducible apply Kept.ite_snd2 | intro _)); done)

theorem Kept.after_swapEnvelopes {s t : State} {p : Nat} (h : Kept s t) : Kept s (State.swapEnvelopes t p) := by
  ((try unfold State.swapEnvelopes); (try simp only []); (repeat' (first | (simp +contextual (maxDischargeDepth := 100) only [h, Kept.after_readEnvelopes, Kept.after_setFlag]; done) | split | with_reducible assumption | with_reducible apply Kept.after_readEnvelopes | with_reducible apply Kept.after_setFlag | with_reducible apply Kept.foldl | with_reducible apply Kept.ite | with_reducible apply Kept.ite_snd | with_reducible apply Kept.ite_fst | with_reducible apply Kept.ite_snd2 | intro _)); done)

theorem Kept.after_writeSelection {s t : State} {p n : Nat} (h : Kept s t) : Kept s (State.writeSelection t p n) := by
  (unfold State.writeSelection; split <;> simp +contextual (maxDischargeDepth := 100) only [h, Kept.after_pass, Kept.after_write, Kept.ite]; done)

theorem Kept.after_tapFailure {s t : State} {x_t env kind row : Nat} (h : Kept s t) : Kept s (State.tapFailure t x_t env kind row) := by
  ((try unfold State.tapFailure); (try simp only []); (repeat' (first | (simp +contextual (maxDischargeDepth := 100) only [h, Kept.after_add64, Kept.after_logFault, Kept.after_markTile, Kept.after_modTile, Kept.after_suspect]; done) | split | with_reducible assumption | with_reducible apply Kept.after_add64 | with_reducible apply Kept.after_logFault | with_reducible apply Kept.after_markTile | with_reducible apply Kept.after_modTile | with_reducible apply Kept.after_suspect | with_reducible apply Kept.foldl | with_reducible apply Kept.ite | with_reducible apply Kept.ite_snd | with_reducible apply Kept.ite_fst | with_reducible apply Kept.ite_snd2 | intro _)); done)

theorem Kept.after_tapRow {s t : State} {x_t env row : Nat} {last : Bool} {vals : List Nat} (h : Kept s t) : Kept s (State.tapRow t x_t env row last vals) := by
  ((try unfold State.tapRow); (try simp only []); (repeat' (first | (simp +contextual (maxDischargeDepth := 100) only [h, Kept.after_modTile, Kept.after_tapFailure, Kept.ite]; done) | split | with_reducible assumption | with_reducible apply Kept.after_modTile | with_reducible apply Kept.after_tapFailure | with_reducible apply Kept.foldl | with_reducible apply Kept.ite | with_reducible apply Kept.ite_snd | with_reducible apply Kept.ite_fst | with_reducible apply Kept.ite_snd2 | intro _)); done)

theorem Kept.after_sendDigest {s t : State} {x_t pair product cols : Nat} {witness : Bool} (h : Kept s t) : Kept s (State.sendDigest t x_t pair product cols witness) := by
  (unfold State.sendDigest; split <;> simp +contextual (maxDischargeDepth := 100) only [h, Kept.after_modPart]; done)

theorem Kept.after_witnessBegin {s t : State} {x_t env row0 : Nat} (h : Kept s t) : Kept s (State.witnessBegin t x_t env row0) := by
  (unfold State.witnessBegin; split <;> simp +contextual (maxDischargeDepth := 100) only [h, Kept.after_modTile, Kept.ite]; done)

theorem Kept.after_witnessRow {s t : State} {x_t env row c rows : Nat} {vals : List Nat} (h : Kept s t) : Kept s (State.witnessRow t x_t env row c rows vals) := by
  ((try unfold State.witnessRow); (try simp only []); (repeat' (first | (simp +contextual (maxDischargeDepth := 100) only [h, Kept.after_modTile, Kept.after_sendDigest, Kept.ite]; done) | split | with_reducible assumption | with_reducible apply Kept.after_modTile | with_reducible apply Kept.after_sendDigest | with_reducible apply Kept.foldl | with_reducible apply Kept.ite | with_reducible apply Kept.ite_snd | with_reducible apply Kept.ite_fst | with_reducible apply Kept.ite_snd2 | intro _)); done)

end Sys2Proof.Machine
end

