-- ==== Sys2Proof/Laws/KeptTiles.lean ====
section
/-! SUPPORT. `Kept` for the operations of chapters 5 to 8 and 13. -/

set_option maxRecDepth 8000
set_option linter.all false
namespace Sys2Proof.Machine

theorem Kept.after_swapSets {s t : State} {x_t : Nat} (h : Kept s t) : Kept s (State.swapSets t x_t) := by
  ((try unfold State.swapSets); (try simp only []); (repeat' (first | (simp +contextual (maxDischargeDepth := 100) only [h, Kept.after_modTile, Kept.after_setFlag, Kept.after_setFld, Kept.after_setReg]; done) | split | with_reducible assumption | with_reducible apply Kept.after_modTile | with_reducible apply Kept.after_setFlag | with_reducible apply Kept.after_setFld | with_reducible apply Kept.after_setReg | with_reducible apply Kept.foldl | with_reducible apply Kept.ite | with_reducible apply Kept.ite_snd | with_reducible apply Kept.ite_fst | with_reducible apply Kept.ite_snd2 | intro _)); done)

theorem Kept.after_dropSets {s t : State} {x_t : Nat} (h : Kept s t) : Kept s (State.dropSets t x_t) := by
  ((try unfold State.dropSets); (try simp only []); (repeat' (first | (simp +contextual (maxDischargeDepth := 100) only [h, Kept.after_modTile, Kept.after_setFlag, Kept.after_setFld]; done) | split | with_reducible assumption | with_reducible apply Kept.after_modTile | with_reducible apply Kept.after_setFlag | with_reducible apply Kept.after_setFld | with_reducible apply Kept.foldl | with_reducible apply Kept.ite | with_reducible apply Kept.ite_snd | with_reducible apply Kept.ite_fst | with_reducible apply Kept.ite_snd2 | intro _)); done)

theorem Kept.after_mmaBody {s t : State} {x_t w : Nat} (h : Kept s t) : Kept s (mmaBody x_t w t) := by
  ((try unfold mmaBody); (try simp only []); (repeat' (first | (simp +contextual (maxDischargeDepth := 100) only [h, Kept.after_issueFault, Kept.after_modTile, Kept.after_retire, Kept.after_startEngine, Kept.ite]; done) | split | with_reducible assumption | with_reducible apply Kept.after_issueFault | with_reducible apply Kept.after_modTile | with_reducible apply Kept.after_retire | with_reducible apply Kept.after_startEngine | with_reducible apply Kept.foldl | with_reducible apply Kept.ite | with_reducible apply Kept.ite_snd | with_reducible apply Kept.ite_fst | with_reducible apply Kept.ite_snd2 | intro _)); done)

theorem Kept.after_wswapBody {s t : State} {x_t w : Nat} (h : Kept s t) : Kept s (wswapBody x_t w t) := by
  ((try unfold wswapBody); (try simp only []); (repeat' (first | (simp +contextual (maxDischargeDepth := 100) only [h, Kept.after_startEngine]; done) | split | with_reducible assumption | with_reducible apply Kept.after_startEngine | with_reducible apply Kept.foldl | with_reducible apply Kept.ite | with_reducible apply Kept.ite_snd | with_reducible apply Kept.ite_fst | with_reducible apply Kept.ite_snd2 | intro _)); done)

theorem Kept.after_waitBlock {s t : State} {x_t : Nat} (h : Kept s t) : Kept s (State.waitBlock t x_t) := by
  (unfold State.waitBlock; split <;> simp +contextual (maxDischargeDepth := 100) only [h, Kept.after_unitFault]; done)

theorem Kept.after_arrayTime {s t : State} {x_t : Nat} {env : UnitEnv} (h : Kept s t) : Kept s (State.arrayTime t x_t env) := by
  ((try unfold State.arrayTime); (try simp only []); (repeat' (first | (simp +contextual (maxDischargeDepth := 100) only [h, Kept.after_add64]; done) | split | with_reducible assumption | with_reducible apply Kept.after_add64 | with_reducible apply Kept.foldl | with_reducible apply Kept.ite | with_reducible apply Kept.ite_snd | with_reducible apply Kept.ite_fst | with_reducible apply Kept.ite_snd2 | intro _)); done)

theorem Kept.after_mmaRow {s t : State} {x_t w d k r p : Nat} (h : Kept s t) : Kept s (State.mmaRow t x_t w d k r p) := by
  (unfold State.mmaRow; split <;> simp +contextual (maxDischargeDepth := 100) only [h, Kept.after_write]; done)

theorem Kept.after_mmaGroup {s t : State} {x_t w d k g : Nat} (h : Kept s t) : Kept s (State.mmaGroup t x_t w d k g) := by
  (unfold State.mmaGroup; split <;> simp +contextual (maxDischargeDepth := 100) only [h, Kept.after_add64, Kept.after_mmaRow, Kept.foldl, implies_true]; done)

theorem Kept.after_mmaUnit {s t : State} {x_t w : Nat} {env : UnitEnv} (h : Kept s t) : Kept s (State.mmaUnit t x_t w env) := by
  (unfold State.mmaUnit; split <;> simp +contextual (maxDischargeDepth := 100) only [h, Kept.after_arrayTime, Kept.after_completeEngine, Kept.after_mmaGroup, Kept.after_setProg, Kept.after_swapSets, Kept.after_unitFault, Kept.after_waitBlock, Kept.ite]; done)

theorem Kept.after_wswapUnit {s t : State} {x_t : Nat} (h : Kept s t) : Kept s (State.wswapUnit t x_t) := by
  (unfold State.wswapUnit; split <;> simp +contextual (maxDischargeDepth := 100) only [h, Kept.after_completeEngine, Kept.after_setProg, Kept.after_swapSets, Kept.after_waitBlock]; done)

theorem Kept.after_wldBody {s t : State} {x_t w : Nat} (h : Kept s t) : Kept s (wldBody x_t w t) := by
  (unfold wldBody; split <;> simp +contextual (maxDischargeDepth := 100) only [h, Kept.after_issueFault, Kept.after_startEngine]; done)

theorem Kept.after_wldUnit {s t : State} {x_t w : Nat} (h : Kept s t) : Kept s (State.wldUnit t x_t w) := by
  (unfold State.wldUnit; (try dsimp only); (repeat' (first | with_reducible assumption | with_reducible apply Kept.after_completeEngine | with_reducible apply Kept.after_modTile | with_reducible apply Kept.after_setFlag | with_reducible apply Kept.after_setFld | with_reducible apply Kept.after_setProg | with_reducible apply Kept.after_setReg | with_reducible apply Kept.after_unitFault | with_reducible apply Kept.foldl | with_reducible apply Kept.ite | with_reducible apply Kept.ite_snd | with_reducible apply Kept.ite_fst | with_reducible apply Kept.ite_snd2 | split | intro _)); done)

theorem Kept.after_drainBody {s t : State} {x_t w : Nat} (h : Kept s t) : Kept s (drainBody x_t w t) := by
  ((try unfold drainBody); (try simp only []); (repeat' (first | (simp +contextual (maxDischargeDepth := 100) only [h, Kept.after_issueFault, Kept.after_retire, Kept.after_startEngine, Kept.ite]; done) | split | with_reducible assumption | with_reducible apply Kept.after_issueFault | with_reducible apply Kept.after_retire | with_reducible apply Kept.after_startEngine | with_reducible apply Kept.foldl | with_reducible apply Kept.ite | with_reducible apply Kept.ite_snd | with_reducible apply Kept.ite_fst | with_reducible apply Kept.ite_snd2 | intro _)); done)

theorem Kept.after_writeUnits {s t : State} {x_t n k u : Nat} {bs : List Byte} (h : Kept s t) : Kept s (State.writeUnits t x_t n k u bs) := by
  ((try unfold State.writeUnits); (try simp only []); (repeat' (first | (simp +contextual (maxDischargeDepth := 100) only [h, Kept.after_setLunit, Kept.foldl, implies_true]; done) | split | with_reducible assumption | with_reducible apply Kept.after_setLunit | with_reducible apply Kept.foldl | with_reducible apply Kept.ite | with_reducible apply Kept.ite_snd | with_reducible apply Kept.ite_fst | with_reducible apply Kept.ite_snd2 | intro _)); done)

theorem Kept.after_drainUnit {s t : State} {x_t w : Nat} (h : Kept s t) : Kept s (State.drainUnit t x_t w) := by
  (unfold State.drainUnit; split <;> simp +contextual (maxDischargeDepth := 100) only [h, Kept.after_completeEngine, Kept.after_setProg, Kept.after_tapRow, Kept.after_took, Kept.after_witnessBegin, Kept.after_witnessRow, Kept.after_writeUnits, Kept.after_zeroRange, Kept.ite]; done)

theorem Kept.after_conflicts {s t : State} {x_t w : Nat} {env : UnitEnv} (h : Kept s t) : Kept s (State.conflicts t x_t w env) := by
  (unfold State.conflicts; split <;> simp +contextual (maxDischargeDepth := 100) only [h, Kept.after_add64, Kept.after_movedAt]; done)

theorem Kept.after_brdBody {s t : State} {x_t w : Nat} (h : Kept s t) : Kept s (brdBody x_t w t) := by
  ((try unfold brdBody); (try simp only []); (repeat' (first | (simp +contextual (maxDischargeDepth := 100) only [h, Kept.after_startEngine]; done) | split | with_reducible assumption | with_reducible apply Kept.after_startEngine | with_reducible apply Kept.foldl | with_reducible apply Kept.ite | with_reducible apply Kept.ite_snd | with_reducible apply Kept.ite_fst | with_reducible apply Kept.ite_snd2 | intro _)); done)

theorem Kept.after_bwrBody {s t : State} {x_t w : Nat} (h : Kept s t) : Kept s (bwrBody x_t w t) := by
  ((try unfold bwrBody); (try simp only []); (repeat' (first | (simp +contextual (maxDischargeDepth := 100) only [h, Kept.after_startEngine]; done) | split | with_reducible assumption | with_reducible apply Kept.after_startEngine | with_reducible apply Kept.foldl | with_reducible apply Kept.ite | with_reducible apply Kept.ite_snd | with_reducible apply Kept.ite_fst | with_reducible apply Kept.ite_snd2 | intro _)); done)

theorem Kept.after_brdUnit {s t : State} {x_t w : Nat} (h : Kept s t) : Kept s (State.brdUnit t x_t w) := by
  ((try unfold State.brdUnit); (try simp only []); (repeat' (first | (simp +contextual (maxDischargeDepth := 100) only [h, Kept.after_completeEngine, Kept.after_readBank, Kept.after_setOperand, Kept.after_setProg, Kept.after_unitFault, Kept.ite]; done) | split | with_reducible assumption | with_reducible apply Kept.after_completeEngine | with_reducible apply Kept.after_readBank | with_reducible apply Kept.after_setOperand | with_reducible apply Kept.after_setProg | with_reducible apply Kept.after_unitFault | with_reducible apply Kept.foldl | with_reducible apply Kept.ite | with_reducible apply Kept.ite_snd | with_reducible apply Kept.ite_fst | with_reducible apply Kept.ite_snd2 | intro _)); done)

theorem Kept.after_bwrUnit {s t : State} {x_t : Nat} (h : Kept s t) : Kept s (State.bwrUnit t x_t) := by
  ((try unfold State.bwrUnit); (try simp only []); (repeat' (first | (simp +contextual (maxDischargeDepth := 100) only [h, Kept.after_completeEngine, Kept.after_handOver, Kept.after_setProg, Kept.after_unitFault, Kept.after_writeBank, Kept.ite]; done) | split | with_reducible assumption | with_reducible apply Kept.after_completeEngine | with_reducible apply Kept.after_handOver | with_reducible apply Kept.after_setProg | with_reducible apply Kept.after_unitFault | with_reducible apply Kept.after_writeBank | with_reducible apply Kept.foldl | with_reducible apply Kept.ite | with_reducible apply Kept.ite_snd | with_reducible apply Kept.ite_fst | with_reducible apply Kept.ite_snd2 | intro _)); done)

theorem Kept.after_gatherBody {s t : State} {e x_t w : Nat} (h : Kept s t) : Kept s (gatherBody e x_t w t) := by
  ((try unfold gatherBody); (try simp only []); (repeat' (first | (simp +contextual (maxDischargeDepth := 100) only [h, Kept.after_issueFault, Kept.after_startEngine]; done) | split | with_reducible assumption | with_reducible apply Kept.after_issueFault | with_reducible apply Kept.after_startEngine | with_reducible apply Kept.foldl | with_reducible apply Kept.ite | with_reducible apply Kept.ite_snd | with_reducible apply Kept.ite_fst | with_reducible apply Kept.ite_snd2 | intro _)); done)

theorem Kept.after_idxRead {s t : State} {x_t w k : Nat} (h : Kept s t) : Kept s (State.idxRead t x_t w k) := by
  ((try unfold State.idxRead); (try simp only []); (repeat' (first | (simp +contextual (maxDischargeDepth := 100) only [h, Kept.after_readBank]; done) | split | with_reducible assumption | with_reducible apply Kept.after_readBank | with_reducible apply Kept.foldl | with_reducible apply Kept.ite | with_reducible apply Kept.ite_snd | with_reducible apply Kept.ite_fst | with_reducible apply Kept.ite_snd2 | intro _)); done)

theorem Kept.after_bgathUnit {s t : State} {x_t w : Nat} (h : Kept s t) : Kept s (State.bgathUnit t x_t w) := by
  ((try unfold State.bgathUnit); (try simp only []); (repeat' (first | (simp +contextual (maxDischargeDepth := 100) only [h, Kept.after_completeEngine, Kept.after_idxRead, Kept.after_pushFlit, Kept.after_readBank, Kept.after_setProg, Kept.after_unitFault, Kept.ite, Kept.ite_snd]; done) | split | with_reducible assumption | with_reducible apply Kept.after_completeEngine | with_reducible apply Kept.after_idxRead | with_reducible apply Kept.after_pushFlit | with_reducible apply Kept.after_readBank | with_reducible apply Kept.after_setProg | with_reducible apply Kept.after_unitFault | with_reducible apply Kept.foldl | with_reducible apply Kept.ite | with_reducible apply Kept.ite_snd | with_reducible apply Kept.ite_fst | with_reducible apply Kept.ite_snd2 | intro _)); done)

theorem Kept.after_bscatEnd {s t : State} {x_t w n : Nat} {pe : Bool} (h : Kept s t) : Kept s (State.bscatEnd t x_t w n pe) := by
  ((try unfold State.bscatEnd); (try simp only []); (repeat' (first | (simp +contextual (maxDischargeDepth := 100) only [h, Kept.after_completeEngine, Kept.after_setOperand]; done) | split | with_reducible assumption | with_reducible apply Kept.after_completeEngine | with_reducible apply Kept.after_setOperand | with_reducible apply Kept.foldl | with_reducible apply Kept.ite | with_reducible apply Kept.ite_snd | with_reducible apply Kept.ite_fst | with_reducible apply Kept.ite_snd2 | intro _)); done)

theorem Kept.after_scatterWrite {s t : State} {x_t w k : Nat} {f : Flit} (h : Kept s t) : Kept s (State.scatterWrite t x_t w k f) := by
  ((try unfold State.scatterWrite); (try simp only []); (repeat' (first | (simp +contextual (maxDischargeDepth := 100) only [h, Kept.after_bscatEnd, Kept.after_idxRead, Kept.after_setLunit, Kept.after_setProg, Kept.ite]; done) | split | with_reducible assumption | with_reducible apply Kept.after_bscatEnd | with_reducible apply Kept.after_idxRead | with_reducible apply Kept.after_setLunit | with_reducible apply Kept.after_setProg | with_reducible apply Kept.foldl | with_reducible apply Kept.ite | with_reducible apply Kept.ite_snd | with_reducible apply Kept.ite_fst | with_reducible apply Kept.ite_snd2 | intro _)); done)

theorem Kept.after_bscatUnit {s t : State} {x_t w : Nat} {env : UnitEnv} (h : Kept s t) : Kept s (State.bscatUnit t x_t w env) := by
  ((try unfold State.bscatUnit); (try simp only []); (repeat' (first | (simp +contextual (maxDischargeDepth := 100) only [h, Kept.after_bscatEnd, Kept.after_modTile, Kept.after_readHead, Kept.after_scatterWrite, Kept.after_takeLocal, Kept.after_takeMark, Kept.after_unitFault]; done) | split | with_reducible assumption | with_reducible apply Kept.after_bscatEnd | with_reducible apply Kept.after_modTile | with_reducible apply Kept.after_readHead | with_reducible apply Kept.after_scatterWrite | with_reducible apply Kept.after_takeLocal | with_reducible apply Kept.after_takeMark | with_reducible apply Kept.after_unitFault | with_reducible apply Kept.foldl | with_reducible apply Kept.ite | with_reducible apply Kept.ite_snd | with_reducible apply Kept.ite_fst | with_reducible apply Kept.ite_snd2 | intro _)); done)

theorem Kept.after_marchBody {s t : State} {x_t w : Nat} (h : Kept s t) : Kept s (marchBody x_t w t) := by
  ((try unfold marchBody); (try simp only []); (repeat' (first | (simp +contextual (maxDischargeDepth := 100) only [h, Kept.after_issueFault, Kept.after_retire, Kept.after_setOperand, Kept.after_startEngine]; done) | split | with_reducible assumption | with_reducible apply Kept.after_issueFault | with_reducible apply Kept.after_retire | with_reducible apply Kept.after_setOperand | with_reducible apply Kept.after_startEngine | with_reducible apply Kept.foldl | with_reducible apply Kept.ite | with_reducible apply Kept.ite_snd | with_reducible apply Kept.ite_fst | with_reducible apply Kept.ite_snd2 | intro _)); done)

theorem Kept.after_programMarchUnit {s t : State} {x_t w : Nat} {env : UnitEnv} (h : Kept s t) : Kept s (State.programMarchUnit t x_t w env) := by
  ((try unfold State.programMarchUnit); (try simp only []); (repeat' (first | (simp +contextual (maxDischargeDepth := 100) only [h, Kept.after_completeEngine, Kept.after_lateHandovers, Kept.after_marchUnit, Kept.after_setOperand, Kept.after_setProg, Kept.ite]; done) | split | with_reducible assumption | with_reducible apply Kept.after_completeEngine | with_reducible apply Kept.after_lateHandovers | with_reducible apply Kept.after_marchUnit | with_reducible apply Kept.after_setOperand | with_reducible apply Kept.after_setProg | with_reducible apply Kept.foldl | with_reducible apply Kept.ite | with_reducible apply Kept.ite_snd | with_reducible apply Kept.ite_fst | with_reducible apply Kept.ite_snd2 | intro _)); done)

theorem Kept.after_firmwareMarchUnit {s t : State} {x_t : Nat} {m : March} {env : UnitEnv} (h : Kept s t) : Kept s (State.firmwareMarchUnit t x_t m env) := by
  ((try unfold State.firmwareMarchUnit); (try simp only []); (repeat' (first | (simp +contextual (maxDischargeDepth := 100) only [h, Kept.after_lateHandovers, Kept.after_marchUnit, Kept.after_modTile, Kept.ite]; done) | split | with_reducible assumption | with_reducible apply Kept.after_lateHandovers | with_reducible apply Kept.after_marchUnit | with_reducible apply Kept.after_modTile | with_reducible apply Kept.foldl | with_reducible apply Kept.ite | with_reducible apply Kept.ite_snd | with_reducible apply Kept.ite_fst | with_reducible apply Kept.ite_snd2 | intro _)); done)

theorem Kept.after_marchStart {s t : State} {x_t : Nat} {v : Word} (h : Kept s t) : Kept s (State.marchStart t x_t v) := by
  ((try unfold State.marchStart); (try simp only []); (repeat' (first | (simp +contextual (maxDischargeDepth := 100) only [h, Kept.after_modTile, Kept.after_setFlag, Kept.after_setFld, Kept.ite]; done) | split | with_reducible assumption | with_reducible apply Kept.after_modTile | with_reducible apply Kept.after_setFlag | with_reducible apply Kept.after_setFld | with_reducible apply Kept.foldl | with_reducible apply Kept.ite | with_reducible apply Kept.ite_snd | with_reducible apply Kept.ite_fst | with_reducible apply Kept.ite_snd2 | intro _)); done)

theorem Kept.after_bilMarchStart {s t : State} {m : Master} {x_t : Nat} {v : Word} (h : Kept s t) : Kept s (bilMarchStart m x_t v t) := by
  (unfold bilMarchStart; split <;> simp +contextual (maxDischargeDepth := 100) only [h, Kept.after_byFirmware, Kept.after_marchStart, implies_true]; done)

theorem Kept.after_ownBulk {s t : State} {x_t : Nat} {v : Word} (h : Kept s t) : Kept s (State.ownBulk t x_t v) := by
  ((try unfold State.ownBulk); (try simp only []); (repeat' (first | (simp +contextual (maxDischargeDepth := 100) only [h, Kept.after_handOver, Kept.foldl, implies_true]; done) | split | with_reducible assumption | with_reducible apply Kept.after_handOver | with_reducible apply Kept.foldl | with_reducible apply Kept.ite | with_reducible apply Kept.ite_snd | with_reducible apply Kept.ite_fst | with_reducible apply Kept.ite_snd2 | intro _)); done)

theorem Kept.after_bilOwnBulk {s t : State} {m : Master} {x_t : Nat} {v : Word} (h : Kept s t) : Kept s (bilOwnBulk m x_t v t) := by
  (unfold bilOwnBulk; split <;> simp +contextual (maxDischargeDepth := 100) only [h, Kept.after_byFirmware, Kept.after_ownBulk, implies_true]; done)

theorem Kept.after_handover {s t : State} {m : Master} {x_t bank : Nat} {v : Word} (h : Kept s t) : Kept s (handover m x_t bank v t) := by
  (unfold handover; split <;> simp +contextual (maxDischargeDepth := 100) only [h, Kept.after_byFirmware, Kept.after_handOver, implies_true]; done)

theorem Kept.after_startFill {s t : State} {m b off : Nat} (h : Kept s t) : Kept s (State.startFill t m b off) := by
  ((try unfold State.startFill); (try simp only []); (repeat' (first | (simp +contextual (maxDischargeDepth := 100) only [h, Kept.after_add64, Kept.mk_iff, Kept.pending, Kept.fuses, Kept.free, Kept.mem, Kept.regs, Kept.flash, Kept.ite, and_self]; done) | split | with_reducible assumption | with_reducible apply Kept.after_add64 | with_reducible apply Kept.foldl | with_reducible apply Kept.ite | with_reducible apply Kept.ite_snd | with_reducible apply Kept.ite_fst | with_reducible apply Kept.ite_snd2 | intro _)); done)

theorem Kept.after_memOp {s t : State} {off : Nat} {op : AccessOp} (h : Kept s t) : Kept s ((State.memOp t off op).2) := by
  (unfold State.memOp; split <;> simp +contextual (maxDischargeDepth := 100) only [h, Kept.after_write, Kept.after_writeNum]; done)

theorem Kept.after_stackEcc {s t : State} {b : Nat} {e : ReadEcc} (h : Kept s t) : Kept s (State.stackEcc t b e) := by
  ((try unfold State.stackEcc); (try simp only []); (repeat' (first | (simp +contextual (maxDischargeDepth := 100) only [h, Kept.after_countEcc]; done) | split | with_reducible assumption | with_reducible apply Kept.after_countEcc | with_reducible apply Kept.foldl | with_reducible apply Kept.ite | with_reducible apply Kept.ite_snd | with_reducible apply Kept.ite_fst | with_reducible apply Kept.ite_snd2 | intro _)); done)

theorem Kept.after_countError {s t : State} {u0 : Home} (h : Kept s t) : Kept s (State.countError t u0) := by
  ((try unfold State.countError); (try simp only []); (repeat' (first | (simp +contextual (maxDischargeDepth := 100) only [h, Kept.after_satFld, Kept.after_stackEcc]; done) | split | with_reducible assumption | with_reducible apply Kept.after_satFld | with_reducible apply Kept.after_stackEcc | with_reducible apply Kept.foldl | with_reducible apply Kept.ite | with_reducible apply Kept.ite_snd | with_reducible apply Kept.ite_fst | with_reducible apply Kept.ite_snd2 | intro _)); done)

theorem Kept.after_homeAccess {s t : State} {x_h : Home} {op : AccessOp} {na : Bool} (h : Kept s t) : Kept s ((State.homeAccess t x_h op na).2) := by
  (unfold State.homeAccess; split <;> simp +contextual (maxDischargeDepth := 100) only [h, Kept.after_hearthLines, Kept.after_memOp]; done)

theorem Kept.after_storeAccess {s t : State} {x_t o : Nat} {op : AccessOp} {ecc : ReadEcc} (h : Kept s t) : Kept s ((State.storeAccess t x_t o op ecc).2.2) := by
  ((try unfold State.storeAccess); (try simp only []); (repeat' (first | (simp +contextual (maxDischargeDepth := 100) only [h, Kept.after_eccStore, Kept.after_flipBytes, Kept.after_write, Kept.ite_snd2]; done) | split | with_reducible assumption | with_reducible apply Kept.after_eccStore | with_reducible apply Kept.after_flipBytes | with_reducible apply Kept.after_write | with_reducible apply Kept.foldl | with_reducible apply Kept.ite | with_reducible apply Kept.ite_snd | with_reducible apply Kept.ite_fst | with_reducible apply Kept.ite_snd2 | intro _)); done)

theorem Kept.after_imemWrite {s t : State} {x_t o : Nat} {d : List Byte} (h : Kept s t) : Kept s (State.imemWrite t x_t o d) := by
  ((try unfold State.imemWrite); (try simp only []); (repeat' (first | (simp +contextual (maxDischargeDepth := 100) only [h, Kept.after_setFlag, Kept.after_write, Kept.ite]; done) | split | with_reducible assumption | with_reducible apply Kept.after_setFlag | with_reducible apply Kept.after_write | with_reducible apply Kept.foldl | with_reducible apply Kept.ite | with_reducible apply Kept.ite_snd | with_reducible apply Kept.ite_fst | with_reducible apply Kept.ite_snd2 | intro _)); done)

theorem Kept.after_window {s t : State} {off code : Nat} {part : Option Nat} {op : AccessOp} {ecc : ReadEcc} (h : Kept s t) : Kept s ((State.window t off code part op ecc).2.2) := by
  (unfold State.window; split <;> simp +contextual (maxDischargeDepth := 100) only [h, Kept.after_imemWrite, Kept.after_portAccess, Kept.after_setFlag, Kept.after_storeAccess, Kept.after_write, Kept.ite_snd2]; done)

theorem Kept.after_hole {s t : State} {pa : Nat} (h : Kept s t) : Kept s (State.hole t pa) := by
  ((try unfold State.hole); (try simp only []); (repeat' (first | (simp +contextual (maxDischargeDepth := 100) only [h, Kept.after_setFlag, Kept.after_setReg64]; done) | split | with_reducible assumption | with_reducible apply Kept.after_setFlag | with_reducible apply Kept.after_setReg64 | with_reducible apply Kept.foldl | with_reducible apply Kept.ite | with_reducible apply Kept.ite_snd | with_reducible apply Kept.ite_fst | with_reducible apply Kept.ite_snd2 | intro _)); done)

theorem Kept.after_windowViolation {s t : State} {f off : Nat} {op : AccessOp} (h : Kept s t) : Kept s (State.windowViolation t f off op) := by
  (unfold State.windowViolation; split <;> simp +contextual (maxDischargeDepth := 100) only [h, Kept.after_hostViolation, Kept.after_took]; done)

theorem Kept.after_atomicRefused {s t : State} {addr : Nat} (h : Kept s t) : Kept s (State.atomicRefused t addr) := by
  ((try unfold State.atomicRefused); (try simp only []); (repeat' (first | (simp +contextual (maxDischargeDepth := 100) only [h, Kept.after_logFault, Kept.after_took]; done) | split | with_reducible assumption | with_reducible apply Kept.after_logFault | with_reducible apply Kept.after_took | with_reducible apply Kept.foldl | with_reducible apply Kept.ite | with_reducible apply Kept.ite_snd | with_reducible apply Kept.ite_fst | with_reducible apply Kept.ite_snd2 | intro _)); done)

theorem Kept.after_answer {s t : State} {data : List Byte} (h : Kept s t) : Kept s (State.answer t data) := by
  (unfold State.answer; split <;> simp +contextual (maxDischargeDepth := 100) only [h, Kept.after_emit]; done)

theorem Kept.after_windowFirmware {s t : State} {off : Nat} {op : AccessOp} {ecc : ReadEcc} (h : Kept s t) : Kept s (State.windowFirmware t off op ecc) := by
  ((try unfold State.windowFirmware); (try simp only []); (repeat' (first | (simp +contextual (maxDischargeDepth := 100) only [h, Kept.after_answer, Kept.after_atomicRefused, Kept.after_hole, Kept.after_movedAt, Kept.after_window]; done) | split | with_reducible assumption | with_reducible apply Kept.after_answer | with_reducible apply Kept.after_atomicRefused | with_reducible apply Kept.after_hole | with_reducible apply Kept.after_movedAt | with_reducible apply Kept.after_window | with_reducible apply Kept.after_write | with_reducible apply Kept.foldl | with_reducible apply Kept.ite | with_reducible apply Kept.ite_snd | with_reducible apply Kept.ite_fst | with_reducible apply Kept.ite_snd2 | intro _)); done)

theorem Kept.after_windowHost {s t : State} {f off : Nat} {op : AccessOp} {ecc : ReadEcc} (h : Kept s t) : Kept s (State.windowHost t f off op ecc) := by
  ((try unfold State.windowHost); (try simp only []); (repeat' (first | (simp +contextual (maxDischargeDepth := 100) only [h, Kept.after_answer, Kept.after_movedAt, Kept.after_window, Kept.after_windowViolation]; done) | split | with_reducible assumption | with_reducible apply Kept.after_answer | with_reducible apply Kept.after_movedAt | with_reducible apply Kept.after_window | with_reducible apply Kept.after_windowViolation | with_reducible apply Kept.after_write | with_reducible apply Kept.foldl | with_reducible apply Kept.ite | with_reducible apply Kept.ite_snd | with_reducible apply Kept.ite_fst | with_reducible apply Kept.ite_snd2 | intro _)); done)

theorem Kept.after_portFault {s t : State} {m p kind : Nat} {op : AccessOp} (h : Kept s t) : Kept s (State.portFault t m p kind op) := by
  (unfold State.portFault; split <;> simp +contextual (maxDischargeDepth := 100) only [h, Kept.after_faultPart, Kept.after_took]; done)

theorem Kept.after_windowMover {s t : State} {m off : Nat} {op : AccessOp} {ecc : ReadEcc} (h : Kept s t) : Kept s (State.windowMover t m off op ecc) := by
  ((try unfold State.windowMover); (try simp only []); (repeat' (first | (simp +contextual (maxDischargeDepth := 100) only [h, Kept.after_answer, Kept.after_movedAt, Kept.after_portFault, Kept.after_window, Kept.after_windowFirmware]; done) | split | with_reducible assumption | with_reducible apply Kept.after_answer | with_reducible apply Kept.after_movedAt | with_reducible apply Kept.after_portFault | with_reducible apply Kept.after_window | with_reducible apply Kept.after_windowFirmware | with_reducible apply Kept.foldl | with_reducible apply Kept.ite | with_reducible apply Kept.ite_snd | with_reducible apply Kept.ite_fst | with_reducible apply Kept.ite_snd2 | intro _)); done)

theorem Kept.after_windowMaster {s t : State} {m : Master} {off : Nat} {op : AccessOp} {ecc : ReadEcc} (h : Kept s t) : Kept s (State.windowMaster t m off op ecc) := by
  (unfold State.windowMaster; split <;> simp +contextual (maxDischargeDepth := 100) only [h, Kept.after_windowFirmware, Kept.after_windowHost]; done)

theorem Kept.after_sramWindowAccess {s t : State} {m : Master} {off : Nat} {op : AccessOp} {ecc : ReadEcc} (h : Kept s t) : Kept s (sramWindowAccess m off op ecc t) := by
  (unfold sramWindowAccess; split <;> simp +contextual (maxDischargeDepth := 100) only [h, Kept.after_windowMaster]; done)

theorem Kept.after_moverPortAccess {s t : State} {r : Requester} {x_t a : Nat} {op : AccessOp} {ecc : ReadEcc} (h : Kept s t) : Kept s (moverPortAccess r x_t a op ecc t) := by
  ((try unfold moverPortAccess); (try simp only []); (repeat' (first | (simp +contextual (maxDischargeDepth := 100) only [h, Kept.after_windowMaster, Kept.after_windowMover]; done) | split | with_reducible assumption | with_reducible apply Kept.after_windowMaster | with_reducible apply Kept.after_windowMover | with_reducible apply Kept.foldl | with_reducible apply Kept.ite | with_reducible apply Kept.ite_snd | with_reducible apply Kept.ite_fst | with_reducible apply Kept.ite_snd2 | intro _)); done)

theorem Kept.after_walkRead {s t : State} {table va : Nat} (h : Kept s t) : Kept s ((State.walkRead t table va).2) := by
  ((try unfold State.walkRead); (try simp only []); (repeat' (first | (simp +contextual (maxDischargeDepth := 100) only [h, Kept.after_pass, Kept.foldl, implies_true]; done) | split | with_reducible assumption | with_reducible apply Kept.after_pass | with_reducible apply Kept.foldl | with_reducible apply Kept.ite | with_reducible apply Kept.ite_snd | with_reducible apply Kept.ite_fst | with_reducible apply Kept.ite_snd2 | intro _)); done)

theorem Kept.after_setBayTlb {s t : State} {b : Nat} {l : List TlbEntry} (h : Kept s t) : Kept s (State.setBayTlb t b l) := by
  ((try unfold State.setBayTlb); (try simp only []); (repeat' (first | (simp +contextual (maxDischargeDepth := 100) only [h, Kept.mk_iff, Kept.pending, Kept.fuses, Kept.free, Kept.mem, Kept.regs, Kept.flash, and_self]; done) | split | with_reducible assumption | with_reducible apply Kept.foldl | with_reducible apply Kept.ite | with_reducible apply Kept.ite_snd | with_reducible apply Kept.ite_fst | with_reducible apply Kept.ite_snd2 | intro _)); done)

theorem Kept.after_fillTlb2 {s t : State} {e : TlbEntry} (h : Kept s t) : Kept s (State.fillTlb2 t e) := by
  ((try unfold State.fillTlb2); (try simp only []); (repeat' (first | (simp +contextual (maxDischargeDepth := 100) only [h, Kept.mk_iff, Kept.pending, Kept.fuses, Kept.free, Kept.mem, Kept.regs, Kept.flash, and_self]; done) | split | with_reducible assumption | with_reducible apply Kept.foldl | with_reducible apply Kept.ite | with_reducible apply Kept.ite_snd | with_reducible apply Kept.ite_fst | with_reducible apply Kept.ite_snd2 | intro _)); done)

theorem Kept.after_fillTlb1 {s t : State} {m : Nat} {e : TlbEntry} (h : Kept s t) : Kept s (State.fillTlb1 t m e) := by
  (unfold State.fillTlb1; split <;> simp +contextual (maxDischargeDepth := 100) only [h, Kept.after_setBayTlb]; done)

theorem Kept.after_dropTlb {s t : State} {drop : TlbEntry → Bool} (h : Kept s t) : Kept s (State.dropTlb t drop) := by
  ((try unfold State.dropTlb); (try simp only []); (repeat' (first | (simp +contextual (maxDischargeDepth := 100) only [h, Kept.after_setBayTlb, Kept.mk_iff, Kept.pending, Kept.fuses, Kept.free, Kept.mem, Kept.regs, Kept.flash, Kept.foldl, and_self, implies_true]; done) | split | with_reducible assumption | with_reducible apply Kept.after_setBayTlb | with_reducible apply Kept.foldl | with_reducible apply Kept.ite | with_reducible apply Kept.ite_snd | with_reducible apply Kept.ite_fst | with_reducible apply Kept.ite_snd2 | intro _)); done)

theorem Kept.after_moverFault {s t : State} {m p code kind level va acc info : Nat} (h : Kept s t) : Kept s (State.moverFault t m p code kind level va acc info) := by
  ((try unfold State.moverFault); (try simp only []); (repeat' (first | (simp +contextual (maxDischargeDepth := 100) only [h, Kept.after_faultPart, Kept.after_interruptIf]; done) | split | with_reducible assumption | with_reducible apply Kept.after_faultPart | with_reducible apply Kept.after_interruptIf | with_reducible apply Kept.foldl | with_reducible apply Kept.ite | with_reducible apply Kept.ite_snd | with_reducible apply Kept.ite_fst | with_reducible apply Kept.ite_snd2 | intro _)); done)

theorem Kept.after_raiseXlate {s t : State} {m p va : Nat} {acc : Access} {f : XlateFault} (h : Kept s t) : Kept s (State.raiseXlate t m p va acc f) := by
  ((try unfold State.raiseXlate); (try simp only []); (repeat' (first | (simp +contextual (maxDischargeDepth := 100) only [h, Kept.after_moverFault]; done) | split | with_reducible assumption | with_reducible apply Kept.after_moverFault | with_reducible apply Kept.foldl | with_reducible apply Kept.ite | with_reducible apply Kept.ite_snd | with_reducible apply Kept.ite_fst | with_reducible apply Kept.ite_snd2 | intro _)); done)

theorem Kept.after_dropUnit {s t : State} {m : Nat} (h : Kept s t) : Kept s (State.dropUnit t m) := by
  ((try unfold State.dropUnit); (try simp only []); (repeat' (first | (simp +contextual (maxDischargeDepth := 100) only [h, Kept.after_modMover, Kept.after_setReg]; done) | split | with_reducible assumption | with_reducible apply Kept.after_modMover | with_reducible apply Kept.after_setReg | with_reducible apply Kept.foldl | with_reducible apply Kept.ite | with_reducible apply Kept.ite_snd | with_reducible apply Kept.ite_fst | with_reducible apply Kept.ite_snd2 | intro _)); done)

theorem Kept.after_joinFetch {s t : State} {at_ : Nat} {w : Walk} (h : Kept s t) : Kept s (State.joinFetch t at_ w) := by
  ((try unfold State.joinFetch); (try simp only []); (repeat' (first | (simp +contextual (maxDischargeDepth := 100) only [h, Kept.mk_iff, Kept.pending, Kept.fuses, Kept.free, Kept.mem, Kept.regs, Kept.flash, and_self]; done) | split | with_reducible assumption | with_reducible apply Kept.foldl | with_reducible apply Kept.ite | with_reducible apply Kept.ite_snd | with_reducible apply Kept.ite_fst | with_reducible apply Kept.ite_snd2 | intro _)); done)

theorem Kept.after_xltInterrupt {s t : State} {rule : Nat} (h : Kept s t) : Kept s (State.xltInterrupt t rule) := by
  ((try unfold State.xltInterrupt); (try simp only []); (repeat' (first | (simp +contextual (maxDischargeDepth := 100) only [h, Kept.after_interruptIf]; done) | split | with_reducible assumption | with_reducible apply Kept.after_interruptIf | with_reducible apply Kept.foldl | with_reducible apply Kept.ite | with_reducible apply Kept.ite_snd | with_reducible apply Kept.ite_fst | with_reducible apply Kept.ite_snd2 | intro _)); done)

theorem Kept.after_settleWait {s t : State}  (h : Kept s t) : Kept s (State.settleWait t) := by
  (unfold State.settleWait; split <;> simp +contextual (maxDischargeDepth := 100) only [h, Kept.after_setFlag]; done)

theorem Kept.after_startFetch {s t : State} {w : Walk} {size at_ leaf : Nat} (h : Kept s t) : Kept s (State.startFetch t w size at_ leaf) := by
  ((try unfold State.startFetch); (try simp only []); (repeat' (first | (simp +contextual (maxDischargeDepth := 100) only [h, Kept.after_add64, Kept.after_joinFetch, Kept.after_pass, Kept.after_setFlag, Kept.after_writeNum, Kept.after_xltInterrupt, Kept.mk_iff, Kept.pending, Kept.fuses, Kept.free, Kept.mem, Kept.regs, Kept.flash, Kept.ite, and_self]; done) | split | with_reducible assumption | with_reducible apply Kept.after_add64 | with_reducible apply Kept.after_joinFetch | with_reducible apply Kept.after_pass | with_reducible apply Kept.after_setFlag | with_reducible apply Kept.after_writeNum | with_reducible apply Kept.after_xltInterrupt | with_reducible apply Kept.foldl | with_reducible apply Kept.ite | with_reducible apply Kept.ite_snd | with_reducible apply Kept.ite_fst | with_reducible apply Kept.ite_snd2 | intro _)); done)

theorem Kept.after_walkFault {s t : State} {ends : Nat → Nat → State → State} {w : Walk} {f : XlateFault} (hends : ∀ y0 y1 t, Kept s t → Kept s (ends y0 y1 t)) (h : Kept s t) : Kept s (State.walkFault t ends w f) := by
  (unfold State.walkFault; split <;> simp +contextual (maxDischargeDepth := 100) only [h, hends, Kept.after_dropUnit, Kept.after_moverFault, Kept.after_raiseXlate, Kept.after_took]; done)

theorem Kept.after_doWalk {s t : State} {ends : Nat → Nat → State → State} {w : Walk} (hends : ∀ y0 y1 t, Kept s t → Kept s (ends y0 y1 t)) (h : Kept s t) : Kept s (State.doWalk t ends w) := by
  ((try unfold State.doWalk); (try simp only []); (repeat' (first | (simp +contextual (maxDischargeDepth := 100) only [h, hends, Kept.after_fillTlb1, Kept.after_fillTlb2, Kept.after_startFetch, Kept.after_walkFault, Kept.after_walkRead, Kept.mk_iff, Kept.pending, Kept.fuses, Kept.free, Kept.mem, Kept.regs, Kept.flash, and_self, implies_true]; done) | split | with_reducible assumption | with_reducible apply hends | with_reducible apply Kept.after_fillTlb1 | with_reducible apply Kept.after_fillTlb2 | with_reducible apply Kept.after_startFetch | with_reducible apply Kept.after_walkFault | with_reducible apply Kept.after_walkRead | with_reducible apply Kept.foldl | with_reducible apply Kept.ite | with_reducible apply Kept.ite_snd | with_reducible apply Kept.ite_fst | with_reducible apply Kept.ite_snd2 | intro _)); done)

theorem Kept.after_askWalk {s t : State} {who : Walker} {p table va shown : Nat} {acc : Access} (h : Kept s t) : Kept s (State.askWalk t who p table va shown acc) := by
  ((try unfold State.askWalk); (try simp only []); (repeat' (first | (simp +contextual (maxDischargeDepth := 100) only [h, Kept.after_add64, Kept.mk_iff, Kept.pending, Kept.fuses, Kept.free, Kept.mem, Kept.regs, Kept.flash, Kept.ite, and_self]; done) | split | with_reducible assumption | with_reducible apply Kept.after_add64 | with_reducible apply Kept.foldl | with_reducible apply Kept.ite | with_reducible apply Kept.ite_snd | with_reducible apply Kept.ite_fst | with_reducible apply Kept.ite_snd2 | intro _)); done)

theorem Kept.after_markLookup {s t : State} {p e : Nat} {failed discarded : Bool} (h : Kept s t) : Kept s (State.markLookup t p e failed discarded) := by
  ((try unfold State.markLookup); (try simp only []); (repeat' (first | (simp +contextual (maxDischargeDepth := 100) only [h, Kept.mk_iff, Kept.pending, Kept.fuses, Kept.free, Kept.mem, Kept.regs, Kept.flash, and_self]; done) | split | with_reducible assumption | with_reducible apply Kept.foldl | with_reducible apply Kept.ite | with_reducible apply Kept.ite_snd | with_reducible apply Kept.ite_fst | with_reducible apply Kept.ite_snd2 | intro _)); done)

theorem Kept.after_grantRead {s t : State} {f : Fetch} {m : Nat} (h : Kept s t) : Kept s (State.grantRead t f m) := by
  ((try unfold State.grantRead); (try simp only []); (repeat' (first | (simp +contextual (maxDischargeDepth := 100) only [h, Kept.after_modMover]; done) | split | with_reducible assumption | with_reducible apply Kept.after_modMover | with_reducible apply Kept.foldl | with_reducible apply Kept.ite | with_reducible apply Kept.ite_snd | with_reducible apply Kept.ite_fst | with_reducible apply Kept.ite_snd2 | intro _)); done)

theorem Kept.after_failWaiter {s t : State} {ends : Nat → Nat → State → State} {f : Fetch} {tier : Bool} {w : Walk} (hends : ∀ y0 y1 t, Kept s t → Kept s (ends y0 y1 t)) (h : Kept s t) : Kept s (State.failWaiter t ends f tier w) := by
  (unfold State.failWaiter; split <;> simp +contextual (maxDischargeDepth := 100) only [h, hends, Kept.after_dropUnit, Kept.after_grantRead, Kept.after_markLookup, Kept.after_raiseXlate, Kept.after_walkFault, Kept.mk_iff, Kept.pending, Kept.fuses, Kept.free, Kept.mem, Kept.regs, Kept.flash, Kept.ite, and_self, implies_true]; done)

theorem Kept.after_markDescriptor {s t : State} {f : Fetch} {flag : Nat} (h : Kept s t) : Kept s (State.markDescriptor t f flag) := by
  ((try unfold State.markDescriptor); (try simp only []); (repeat' (first | (simp +contextual (maxDischargeDepth := 100) only [h, Kept.after_pass, Kept.after_writeNum]; done) | split | with_reducible assumption | with_reducible apply Kept.after_pass | with_reducible apply Kept.after_writeNum | with_reducible apply Kept.foldl | with_reducible apply Kept.ite | with_reducible apply Kept.ite_snd | with_reducible apply Kept.ite_fst | with_reducible apply Kept.ite_snd2 | intro _)); done)

theorem Kept.after_settleReset {s t : State} {p : Nat} (h : Kept s t) : Kept s (State.settleReset t p) := by
  (unfold State.settleReset; split <;> simp +contextual (maxDischargeDepth := 100) only [h, Kept.after_setFlag]; done)

theorem Kept.after_fetchCopy {s t : State} {f : Fetch} (h : Kept s t) : Kept s (State.fetchCopy t f) := by
  ((try unfold State.fetchCopy); (try simp only []); (repeat' (first | (simp +contextual (maxDischargeDepth := 100) only [h, Kept.after_copyRange, Kept.after_pass]; done) | split | with_reducible assumption | with_reducible apply Kept.after_copyRange | with_reducible apply Kept.after_pass | with_reducible apply Kept.foldl | with_reducible apply Kept.ite | with_reducible apply Kept.ite_snd | with_reducible apply Kept.ite_fst | with_reducible apply Kept.ite_snd2 | intro _)); done)

theorem Kept.after_fetchEnd {s t : State} {ends : Nat → Nat → State → State} {f : Fetch} {res : EndKind} (hends : ∀ y0 y1 t, Kept s t → Kept s (ends y0 y1 t)) (h : Kept s t) : Kept s (State.fetchEnd t ends f res) := by
  ((try unfold State.fetchEnd); (try simp only []); (repeat' (first | (simp +contextual (maxDischargeDepth := 100) only [h, hends, Kept.after_add64, Kept.after_countError, Kept.after_failWaiter, Kept.after_fetchCopy, Kept.after_fillTlb2, Kept.after_markDescriptor, Kept.after_markLookup, Kept.after_pass, Kept.after_setFlag, Kept.after_writeNum, Kept.after_xltInterrupt, Kept.foldl, Kept.ite, implies_true]; done) | split | with_reducible assumption | with_reducible apply hends | with_reducible apply Kept.after_add64 | with_reducible apply Kept.after_countError | with_reducible apply Kept.after_failWaiter | with_reducible apply Kept.after_fetchCopy | with_reducible apply Kept.after_fillTlb2 | with_reducible apply Kept.after_markDescriptor | with_reducible apply Kept.after_markLookup | with_reducible apply Kept.after_pass | with_reducible apply Kept.after_setFlag | with_reducible apply Kept.after_writeNum | with_reducible apply Kept.after_xltInterrupt | with_reducible apply Kept.foldl | with_reducible apply Kept.ite | with_reducible apply Kept.ite_snd | with_reducible apply Kept.ite_fst | with_reducible apply Kept.ite_snd2 | intro _)); done)

theorem Kept.after_kickRings {s t : State}  (h : Kept s t) : Kept s (State.kickRings t) := by
  ((try unfold State.kickRings); (try simp only []); (repeat' (first | (simp +contextual (maxDischargeDepth := 100) only [h, Kept.after_setFlag, Kept.mk_iff, Kept.pending, Kept.fuses, Kept.free, Kept.mem, Kept.regs, Kept.flash, and_self]; done) | split | with_reducible assumption | with_reducible apply Kept.after_setFlag | with_reducible apply Kept.foldl | with_reducible apply Kept.ite | with_reducible apply Kept.ite_snd | with_reducible apply Kept.ite_fst | with_reducible apply Kept.ite_snd2 | intro _)); done)

theorem Kept.after_writeXltCtrl {s t : State} {v : Word} (h : Kept s t) : Kept s (State.writeXltCtrl t v) := by
  (unfold State.writeXltCtrl; split <;> simp +contextual (maxDischargeDepth := 100) only [h, Kept.after_kickRings, Kept.after_setReg]; done)

theorem Kept.after_startInval {s t : State}  (h : Kept s t) : Kept s (State.startInval t) := by
  (unfold State.startInval; split <;> simp +contextual (maxDischargeDepth := 100) only [h, Kept.after_dropTlb, Kept.after_setFlag, Kept.mk_iff, Kept.pending, Kept.fuses, Kept.free, Kept.mem, Kept.regs, Kept.flash, and_self]; done)

theorem Kept.after_invalidatePart {s t : State} {p : Nat} (h : Kept s t) : Kept s (State.invalidatePart t p) := by
  ((try unfold State.invalidatePart); (try simp only []); (repeat' (first | (simp +contextual (maxDischargeDepth := 100) only [h, Kept.after_dropTlb, Kept.after_setFlag, Kept.mk_iff, Kept.pending, Kept.fuses, Kept.free, Kept.mem, Kept.regs, Kept.flash, Kept.ite, and_self]; done) | split | with_reducible assumption | with_reducible apply Kept.after_dropTlb | with_reducible apply Kept.after_setFlag | with_reducible apply Kept.foldl | with_reducible apply Kept.ite | with_reducible apply Kept.ite_snd | with_reducible apply Kept.ite_fst | with_reducible apply Kept.ite_snd2 | intro _)); done)

theorem Kept.after_writeInvCtrl {s t : State} {v : Word} (h : Kept s t) : Kept s (State.writeInvCtrl t v) := by
  (unfold State.writeInvCtrl; split <;> simp +contextual (maxDischargeDepth := 100) only [h, Kept.after_setFlag, Kept.after_setReg, Kept.after_startInval, Kept.ite]; done)

theorem Kept.after_invalidate {s t : State} {m : Master} {ops : List Nat} {v : Word} (h : Kept s t) : Kept s (State.invalidate t m ops v) := by
  (unfold State.invalidate; split <;> simp +contextual (maxDischargeDepth := 100) only [h, Kept.after_byFirmware, Kept.after_writeInvCtrl, implies_true]; done)

theorem Kept.after_invalUnit {s t : State} {m : Nat} (h : Kept s t) : Kept s (State.invalUnit t m) := by
  ((try unfold State.invalUnit); (try simp only []); (repeat' (first | (simp +contextual (maxDischargeDepth := 100) only [h, Kept.mk_iff, Kept.pending, Kept.fuses, Kept.free, Kept.mem, Kept.regs, Kept.flash, and_self]; done) | split | with_reducible assumption | with_reducible apply Kept.foldl | with_reducible apply Kept.ite | with_reducible apply Kept.ite_snd | with_reducible apply Kept.ite_fst | with_reducible apply Kept.ite_snd2 | intro _)); done)

theorem Kept.after_invalidationComplete {s t : State}  (h : Kept s t) : Kept s (invalidationComplete t) := by
  (unfold invalidationComplete; split <;> simp +contextual (maxDischargeDepth := 100) only [h, Kept.after_setFlag, Kept.mk_iff, Kept.pending, Kept.fuses, Kept.free, Kept.mem, Kept.regs, Kept.flash, Kept.ite, and_self]; done)

/-- What a computation that may fail answers satisfies `P`. -/
structure EKept {ε α : Type} (P : α → Prop) (x : Except ε α) : Prop where
  answers : ∀ r, x = .ok r → P r

theorem EKept.ok {ε α : Type} {P : α → Prop} {a : α} (h : P a) : EKept P (Except.ok a : Except ε α) := ⟨fun r hr => by cases hr; exact h⟩
theorem EKept.pure {ε α : Type} {P : α → Prop} {a : α} (h : P a) : EKept P (Pure.pure a : Except ε α) := ⟨fun r hr => by cases hr; exact h⟩
theorem EKept.error {ε α : Type} {P : α → Prop} {e : ε} : EKept P (Except.error e : Except ε α) := ⟨fun r hr => by cases hr⟩
theorem EKept.throw {ε α : Type} {P : α → Prop} {e : ε} : EKept P (MonadExcept.throw e : Except ε α) := ⟨fun r hr => by cases hr⟩
theorem EKept.bind {ε α β : Type} {Q : α → Prop} {P : β → Prop} {x : Except ε α} {f : α → Except ε β} (hx : EKept Q x)
    (hf : ∀ a, Q a → EKept P (f a)) : EKept P (x >>= f) := by
  constructor; intro r hr
  cases x with
  | error e => cases hr
  | ok a => exact (hf a (hx.answers a rfl)).answers r hr
theorem EKept.bindAny {ε α β : Type} {P : β → Prop} {x : Except ε α} {f : α → Except ε β} (hf : ∀ a, EKept P (f a)) : EKept P (x >>= f) :=
  EKept.bind (Q := fun _ => True) ⟨fun _ _ => trivial⟩ (fun a _ => hf a)
theorem EKept.ite {ε α : Type} {P : α → Prop} {c : Prop} [Decidable c] {x y : Except ε α} (hx : EKept P x) (hy : EKept P y) :
    EKept P (if c then x else y) := by
  split
  · exact hx
  · exact hy

theorem Kept.after_setFreed {s t : State} {w k : Nat} (h : Kept s t) : Kept s (State.setFreed t w k) := by
  (unfold State.setFreed; split <;> simp +contextual (maxDischargeDepth := 100) only [h, Kept.after_setFlag]; done)

theorem Kept.after_captureEntry {s t : State} {p : Nat} {e : List Byte} (h : Kept s t) : EKept (fun u => Kept s u.1) (t.captureEntry p e) := by
  unfold State.captureEntry
  repeat' (first | with_reducible assumption | with_reducible apply EKept.ok | with_reducible exact EKept.error | with_reducible apply Kept.after_setReg | split | intro _ | dsimp only)

theorem Kept.after_releaseEntry {s t : State} {p : Nat} {e : List Byte} (h : Kept s t) : EKept (fun u => Kept s u.1) (t.releaseEntry p e) := by
  unfold State.releaseEntry
  repeat' (first | with_reducible assumption | with_reducible apply EKept.ok | with_reducible exact EKept.error | with_reducible apply Kept.after_setFreed | with_reducible apply Kept.after_setReg | split | intro _ | dsimp only)

theorem Kept.after_admitEntries {s t : State} {one : State → List Byte → Except Nat (State × List Byte)} {n i : Nat} {l : List Byte} (h : Kept s t)
    (ho : ∀ t e, Kept s t → EKept (fun u => Kept s u.1) (one t e)) : EKept (fun u => Kept s u.1) (t.admitEntries one n l i) := by
  induction n generalizing t i l with
  | zero => exact EKept.ok h
  | succ n ih =>
    unfold State.admitEntries
    split
    · exact EKept.error
    · next s' e hu =>
      split
      · exact EKept.error
      · next s'' r hr =>
        have h' : Kept s s' := (ho _ _ h).answers _ hu
        have hk : Kept s s'' := (ih h').answers _ hr
        exact EKept.ok hk

theorem Kept.after_captureOrRelease {s t : State} {op p : Nat} {l : List Byte} (h : Kept s t) : EKept (fun u => Kept s u.1) (t.captureOrRelease op p l) := by
  have hk : EKept (fun u => Kept s u.1) (t.admitEntries (fun s e => if op = 0 then s.captureEntry p e else s.releaseEntry p e) (l.length / 16) l 0) :=
    Kept.after_admitEntries h (fun t e ht => EKept.ite (Kept.after_captureEntry ht) (Kept.after_releaseEntry ht))
  unfold State.captureOrRelease
  split
  · exact EKept.error
  · next s' r hu => exact EKept.ok (Kept.ite (Kept.after_writeSelection (hk.answers _ hu)) (hk.answers _ hu))

theorem Kept.captured {s t u : State} {op p : Nat} {l r : List Byte} (h : Kept s t) (hu : t.captureOrRelease op p l = .ok (u, r)) : Kept s u :=
  (Kept.after_captureOrRelease h).answers _ hu

theorem Kept.after_admitError {s t : State} {kind entry : Nat} (h : Kept s t) : Kept s (State.admitError t kind entry) := by
  ((try unfold State.admitError); (try simp only []); (repeat' (first | (simp +contextual (maxDischargeDepth := 100) only [h, Kept.after_setFlag, Kept.after_setFld]; done) | split | with_reducible assumption | with_reducible apply Kept.after_setFlag | with_reducible apply Kept.after_setFld | with_reducible apply Kept.foldl | with_reducible apply Kept.ite | with_reducible apply Kept.ite_snd | with_reducible apply Kept.ite_fst | with_reducible apply Kept.ite_snd2 | intro _)); done)

theorem Kept.after_clearPending {s t : State} {f : EnFields} (h : Kept s t) : Kept s (State.clearPending t f) := by
  ((try unfold State.clearPending); (try simp only []); (repeat' (first | (simp +contextual (maxDischargeDepth := 100) only [h, Kept.after_setFlag]; done) | split | with_reducible assumption | with_reducible apply Kept.after_setFlag | with_reducible apply Kept.foldl | with_reducible apply Kept.ite | with_reducible apply Kept.ite_snd | with_reducible apply Kept.ite_fst | with_reducible apply Kept.ite_snd2 | intro _)); done)

theorem Kept.after_enWritten {s t : State} {f : EnFields} (h : Kept s t) : Kept s (State.enWritten t f) := by
  (unfold State.enWritten; split <;> simp +contextual (maxDischargeDepth := 100) only [h, Kept.after_setFlag, Kept.after_setFld]; done)

theorem Kept.after_disWritten {s t : State} {f : EnFields} (h : Kept s t) : Kept s (State.disWritten t f) := by
  (unfold State.disWritten; split <;> simp +contextual (maxDischargeDepth := 100) only [h, Kept.after_setFlag, Kept.after_setFld]; done)

theorem Kept.after_workDone {s t : State} {f : EnFields} (h : Kept s t) : Kept s (State.workDone t f) := by
  (unfold State.workDone; split <;> simp +contextual (maxDischargeDepth := 100) only [h, Kept.after_clearPending, Kept.after_setFld]; done)

theorem Kept.after_workFailed {s t : State} {f : EnFields} (h : Kept s t) : Kept s (State.workFailed t f) := by
  (unfold State.workFailed; split <;> simp +contextual (maxDischargeDepth := 100) only [h, Kept.after_clearPending, Kept.after_setFld]; done)

theorem Kept.after_enDis {s t : State} {f : EnFields} {en dis : Bool} (h : Kept s t) : Kept s (State.enDis t f en dis) := by
  (unfold State.enDis; split <;> simp +contextual (maxDischargeDepth := 100) only [h, Kept.after_disWritten, Kept.after_enWritten, Kept.ite]; done)

theorem Kept.after_unrouted {s t : State} {n : Nat} (h : Kept s t) : Kept s (State.unrouted t n) := by
  ((try unfold State.unrouted); (try simp only []); (repeat' (first | (simp +contextual (maxDischargeDepth := 100) only [h, Kept.after_setFlag, Kept.after_setReg]; done) | split | with_reducible assumption | with_reducible apply Kept.after_setFlag | with_reducible apply Kept.after_setReg | with_reducible apply Kept.foldl | with_reducible apply Kept.ite | with_reducible apply Kept.ite_snd | with_reducible apply Kept.ite_fst | with_reducible apply Kept.ite_snd2 | intro _)); done)

theorem Kept.after_mshInterrupt {s t : State} {rule : Nat} (h : Kept s t) : Kept s (State.mshInterrupt t rule) := by
  ((try unfold State.mshInterrupt); (try simp only []); (repeat' (first | (simp +contextual (maxDischargeDepth := 100) only [h, Kept.after_interruptIf]; done) | split | with_reducible assumption | with_reducible apply Kept.after_interruptIf | with_reducible apply Kept.foldl | with_reducible apply Kept.ite | with_reducible apply Kept.ite_snd | with_reducible apply Kept.ite_fst | with_reducible apply Kept.ite_snd2 | intro _)); done)

theorem Kept.after_giveCredits {s t : State} {n v k : Nat} (h : Kept s t) : Kept s (State.giveCredits t n v k) := by
  (unfold State.giveCredits; split <;> simp +contextual (maxDischargeDepth := 100) only [h, Kept.after_modPort]; done)

theorem Kept.after_emitFrame {s t : State} {n : Nat} {f : Frame} (h : Kept s t) : Kept s (State.emitFrame t n f) := by
  ((try unfold State.emitFrame); (try simp only []); (repeat' (first | (simp +contextual (maxDischargeDepth := 100) only [h, Kept.after_emit, Kept.after_setPort]; done) | split | with_reducible assumption | with_reducible apply Kept.after_emit | with_reducible apply Kept.after_setPort | with_reducible apply Kept.foldl | with_reducible apply Kept.ite | with_reducible apply Kept.ite_snd | with_reducible apply Kept.ite_fst | with_reducible apply Kept.ite_snd2 | intro _)); done)

theorem Kept.after_sendIdle {s t : State} {n : Nat} (h : Kept s t) : Kept s (State.sendIdle t n) := by
  (unfold State.sendIdle; split <;> simp +contextual (maxDischargeDepth := 100) only [h, Kept.after_emitFrame]; done)

theorem Kept.after_sendCtrl {s t : State} {n code reason : Nat} {what : List Byte} (h : Kept s t) : Kept s (State.sendCtrl t n code reason what) := by
  (unfold State.sendCtrl; split <;> simp +contextual (maxDischargeDepth := 100) only [h, Kept.after_emitFrame]; done)

theorem Kept.after_leaveBuffer {s t : State} {q : Queued} (h : Kept s t) : Kept s (State.leaveBuffer t q) := by
  (unfold State.leaveBuffer; split <;> simp +contextual (maxDischargeDepth := 100) only [h, Kept.after_modPort, Kept.after_sendIdle]; done)

theorem Kept.after_pump {s t : State} {n : Nat} {u0 : Nat} (h : Kept s t) : Kept s (State.pump t n u0) := by
  induction u0 generalizing t with
  | zero => exact h
  | succ k ih =>
    unfold State.pump
    (repeat' (first | with_reducible assumption | dsimp only | split | with_reducible apply ih | with_reducible apply Kept.after_leaveBuffer | with_reducible apply Kept.after_emitFrame | with_reducible apply Kept.after_setPort | with_reducible apply Kept.after_modPort))

theorem Kept.after_pumpAll {s t : State} {n : Nat} (h : Kept s t) : Kept s (State.pumpAll t n) := by
  ((try unfold State.pumpAll); (try simp only []); (repeat' (first | (simp +contextual (maxDischargeDepth := 100) only [h, Kept.after_pump]; done) | split | with_reducible assumption | with_reducible apply Kept.after_pump | with_reducible apply Kept.foldl | with_reducible apply Kept.ite | with_reducible apply Kept.ite_snd | with_reducible apply Kept.ite_fst | with_reducible apply Kept.ite_snd2 | intro _)); done)

theorem Kept.after_enqueue {s t : State} {n vc : Nat} {src : Option Nat} {ps : List (List Byte)} (h : Kept s t) : Kept s (State.enqueue t n vc src ps) := by
  ((try unfold State.enqueue); (try simp only []); (repeat' (first | (simp +contextual (maxDischargeDepth := 100) only [h, Kept.after_modPort, Kept.after_pumpAll]; done) | split | with_reducible assumption | with_reducible apply Kept.after_modPort | with_reducible apply Kept.after_pumpAll | with_reducible apply Kept.foldl | with_reducible apply Kept.ite | with_reducible apply Kept.ite_snd | with_reducible apply Kept.ite_fst | with_reducible apply Kept.ite_snd2 | intro _)); done)

theorem Kept.after_forward {s t : State} {vc : Nat} {ps : List (List Byte)} (h : Kept s t) : Kept s (State.forward t vc ps) := by
  (unfold State.forward; split <;> simp +contextual (maxDischargeDepth := 100) only [h, Kept.after_enqueue, Kept.after_modPort, Kept.after_unrouted]; done)

theorem Kept.after_sendPacket {s t : State} {dst vc kind epoch tag info : Nat} {body : List Byte} (h : Kept s t) : Kept s (State.sendPacket t dst vc kind epoch tag info body) := by
  ((try unfold State.sendPacket); (try simp only []); (repeat' (first | (simp +contextual (maxDischargeDepth := 100) only [h, Kept.after_forward]; done) | split | with_reducible assumption | with_reducible apply Kept.after_forward | with_reducible apply Kept.foldl | with_reducible apply Kept.ite | with_reducible apply Kept.ite_snd | with_reducible apply Kept.ite_fst | with_reducible apply Kept.ite_snd2 | intro _)); done)

theorem Kept.after_takePacket {s t : State} {n : Nat} {p : Packet} (h : Kept s t) : Kept s (State.takePacket t n p) := by
  (unfold State.takePacket; split <;> simp +contextual (maxDischargeDepth := 100) only [h, Kept.after_modPort, Kept.after_sendIdle]; done)

theorem Kept.after_dropPort {s t : State} {n : Nat} (h : Kept s t) : Kept s (State.dropPort t n) := by
  ((try unfold State.dropPort); (try simp only []); (repeat' (first | (simp +contextual (maxDischargeDepth := 100) only [h, Kept.after_leaveBuffer, Kept.after_modPort, Kept.after_satFld, Kept.foldl, implies_true]; done) | split | with_reducible assumption | with_reducible apply Kept.after_leaveBuffer | with_reducible apply Kept.after_modPort | with_reducible apply Kept.after_satFld | with_reducible apply Kept.foldl | with_reducible apply Kept.ite | with_reducible apply Kept.ite_snd | with_reducible apply Kept.ite_fst | with_reducible apply Kept.ite_snd2 | intro _)); done)

theorem Kept.after_stopPort {s t : State} {n : Nat} {f : State → State} (hf : ∀ t, Kept s t → Kept s (f t)) (h : Kept s t) : Kept s (State.stopPort t n f) := by
  ((try unfold State.stopPort); (try simp only []); (repeat' (first | (simp +contextual (maxDischargeDepth := 100) only [h, hf, Kept.after_modPort, Kept.ite]; done) | split | with_reducible assumption | with_reducible apply hf | with_reducible apply Kept.after_modPort | with_reducible apply Kept.foldl | with_reducible apply Kept.ite | with_reducible apply Kept.ite_snd | with_reducible apply Kept.ite_fst | with_reducible apply Kept.ite_snd2 | intro _)); done)

theorem Kept.after_disablePort {s t : State} {n : Nat} (h : Kept s t) : Kept s (State.disablePort t n) := by
  ((try unfold State.disablePort); (try simp only []); (repeat' (first | (simp +contextual (maxDischargeDepth := 100) only [h, Kept.after_disWritten, Kept.after_stopPort, implies_true]; done) | split | with_reducible assumption | with_reducible apply Kept.after_disWritten | with_reducible apply Kept.after_stopPort | with_reducible apply Kept.foldl | with_reducible apply Kept.ite | with_reducible apply Kept.ite_snd | with_reducible apply Kept.ite_fst | with_reducible apply Kept.ite_snd2 | intro _)); done)

theorem Kept.after_violated {s t : State} {n reason : Nat} {what : List Byte} (h : Kept s t) : Kept s (State.violated t n reason what) := by
  ((try unfold State.violated); (try simp only []); (repeat' (first | (simp +contextual (maxDischargeDepth := 100) only [h, Kept.after_disablePort, Kept.after_mshInterrupt, Kept.after_satFld, Kept.after_sendCtrl, Kept.after_setFlag, Kept.after_setPort, Kept.ite]; done) | split | with_reducible assumption | with_reducible apply Kept.after_disablePort | with_reducible apply Kept.after_mshInterrupt | with_reducible apply Kept.after_satFld | with_reducible apply Kept.after_sendCtrl | with_reducible apply Kept.after_setFlag | with_reducible apply Kept.after_setPort | with_reducible apply Kept.foldl | with_reducible apply Kept.ite | with_reducible apply Kept.ite_snd | with_reducible apply Kept.ite_fst | with_reducible apply Kept.ite_snd2 | intro _)); done)

theorem Kept.after_discard {s t : State} {n : Nat} {p : Packet} (h : Kept s t) : Kept s (State.discard t n p) := by
  ((try unfold State.discard); (try simp only []); (repeat' (first | (simp +contextual (maxDischargeDepth := 100) only [h, Kept.after_modPort, Kept.after_takePacket]; done) | split | with_reducible assumption | with_reducible apply Kept.after_modPort | with_reducible apply Kept.after_takePacket | with_reducible apply Kept.foldl | with_reducible apply Kept.ite | with_reducible apply Kept.ite_snd | with_reducible apply Kept.ite_fst | with_reducible apply Kept.ite_snd2 | intro _)); done)

theorem Kept.after_epochDrop {s t : State} {p : Packet} (h : Kept s t) : Kept s (State.epochDrop t p) := by
  ((try unfold State.epochDrop); (try simp only []); (repeat' (first | (simp +contextual (maxDischargeDepth := 100) only [h, Kept.after_setReg]; done) | split | with_reducible assumption | with_reducible apply Kept.after_setReg | with_reducible apply Kept.foldl | with_reducible apply Kept.ite | with_reducible apply Kept.ite_snd | with_reducible apply Kept.ite_fst | with_reducible apply Kept.ite_snd2 | intro _)); done)

theorem Kept.after_packetIn {s t : State} {n : Nat} {route : Route} {p : Packet} (h : Kept s t) : Kept s (State.packetIn t n route p) := by
  ((try unfold State.packetIn); (try simp only []); (repeat' (first | (simp +contextual (maxDischargeDepth := 100) only [h, Kept.after_discard, Kept.after_enqueue, Kept.after_epochDrop, Kept.after_modPort, Kept.after_unrouted, Kept.after_violated, Kept.ite]; done) | split | with_reducible assumption | with_reducible apply Kept.after_discard | with_reducible apply Kept.after_enqueue | with_reducible apply Kept.after_epochDrop | with_reducible apply Kept.after_modPort | with_reducible apply Kept.after_unrouted | with_reducible apply Kept.after_violated | with_reducible apply Kept.foldl | with_reducible apply Kept.ite | with_reducible apply Kept.ite_snd | with_reducible apply Kept.ite_fst | with_reducible apply Kept.ite_snd2 | intro _)); done)

theorem Kept.after_headerIn {s t : State} {n : Nat} {f : Frame} (h : Kept s t) : Kept s (State.headerIn t n f) := by
  ((try unfold State.headerIn); (try simp only []); (repeat' (first | (simp +contextual (maxDischargeDepth := 100) only [h, Kept.after_giveCredits, Kept.after_setPort, Kept.after_violated]; done) | split | with_reducible assumption | with_reducible apply Kept.after_giveCredits | with_reducible apply Kept.after_setPort | with_reducible apply Kept.after_violated | with_reducible apply Kept.foldl | with_reducible apply Kept.ite | with_reducible apply Kept.ite_snd | with_reducible apply Kept.ite_fst | with_reducible apply Kept.ite_snd2 | intro _)); done)

theorem Kept.after_frameIn {s t : State} {n : Nat} {f : Frame} (h : Kept s t) : Kept s (State.frameIn t n f) := by
  (unfold State.frameIn; split <;> simp +contextual (maxDischargeDepth := 100) only [h, Kept.after_modPort, Kept.after_packetIn, Kept.after_setPort, Kept.after_violated, Kept.ite]; done)

theorem Kept.after_resend {s t : State} {n : Nat} (h : Kept s t) : Kept s (State.resend t n) := by
  ((try unfold State.resend); (try simp only []); (repeat' (first | (simp +contextual (maxDischargeDepth := 100) only [h, Kept.after_emitFrame, Kept.after_setFlag, Kept.after_setPort, Kept.foldl, Kept.ite, implies_true]; done) | split | with_reducible assumption | with_reducible apply Kept.after_emitFrame | with_reducible apply Kept.after_setFlag | with_reducible apply Kept.after_setPort | with_reducible apply Kept.foldl | with_reducible apply Kept.ite | with_reducible apply Kept.ite_snd | with_reducible apply Kept.ite_fst | with_reducible apply Kept.ite_snd2 | intro _)); done)

theorem Kept.after_replayTimeout {s t : State} {n : Nat} (h : Kept s t) : Kept s (replayTimeout n t) := by
  (unfold replayTimeout; split <;> simp +contextual (maxDischargeDepth := 100) only [h, Kept.after_resend]; done)

theorem Kept.after_resume {s t : State} {n : Nat} (h : Kept s t) : Kept s (State.resume t n) := by
  (unfold State.resume; split <;> simp +contextual (maxDischargeDepth := 100) only [h, Kept.after_emitFrame, Kept.after_modPort, Kept.foldl, implies_true]; done)

theorem Kept.after_goodFrame {s t : State} {n : Nat} {f : Frame} (h : Kept s t) : Kept s (State.goodFrame t n f) := by
  ((try unfold State.goodFrame); (try simp only []); (repeat' (first | (simp +contextual (maxDischargeDepth := 100) only [h, Kept.after_frameIn, Kept.after_resend, Kept.after_satFld, Kept.after_setFlag, Kept.after_violated]; done) | split | with_reducible assumption | with_reducible apply Kept.after_frameIn | with_reducible apply Kept.after_resend | with_reducible apply Kept.after_satFld | with_reducible apply Kept.after_setFlag | with_reducible apply Kept.after_violated | with_reducible apply Kept.foldl | with_reducible apply Kept.ite | with_reducible apply Kept.ite_snd | with_reducible apply Kept.ite_fst | with_reducible apply Kept.ite_snd2 | intro _)); done)

theorem Kept.after_frameReceive {s t : State} {n : Nat} {chk : FrameCheck} {f : Frame} (h : Kept s t) : Kept s (frameReceive n chk f t) := by
  ((try unfold frameReceive); (try simp only []); (repeat' (first | (simp +contextual (maxDischargeDepth := 100) only [h, Kept.after_goodFrame, Kept.after_headerIn, Kept.after_modPort, Kept.after_pumpAll, Kept.after_resume, Kept.after_satFld, Kept.after_sendCtrl, Kept.ite]; done) | split | with_reducible assumption | with_reducible apply Kept.after_goodFrame | with_reducible apply Kept.after_headerIn | with_reducible apply Kept.after_modPort | with_reducible apply Kept.after_pumpAll | with_reducible apply Kept.after_resume | with_reducible apply Kept.after_satFld | with_reducible apply Kept.after_sendCtrl | with_reducible apply Kept.foldl | with_reducible apply Kept.ite | with_reducible apply Kept.ite_snd | with_reducible apply Kept.ite_fst | with_reducible apply Kept.ite_snd2 | intro _)); done)

theorem Kept.after_nakIn {s t : State} {n : Nat} {f : Frame} (h : Kept s t) : Kept s (nakIn n f t) := by
  (unfold nakIn; split <;> simp +contextual (maxDischargeDepth := 100) only [h, Kept.after_headerIn, Kept.after_resend, Kept.after_resume, Kept.ite]; done)

theorem Kept.after_writePortCtrl {s t : State} {n : Nat} {v : Word} (h : Kept s t) : Kept s (State.writePortCtrl t n v) := by
  (unfold State.writePortCtrl; split <;> simp +contextual (maxDischargeDepth := 100) only [h, Kept.after_enDis, Kept.after_setFlag, Kept.after_setFld, Kept.after_stopPort, Kept.ite, implies_true]; done)

theorem Kept.after_linkUp {s t : State} {n : Nat} (h : Kept s t) : Kept s (State.linkUp t n) := by
  ((try unfold State.linkUp); (try simp only []); (repeat' (first | (simp +contextual (maxDischargeDepth := 100) only [h, Kept.after_setPort]; done) | split | with_reducible assumption | with_reducible apply Kept.after_setPort | with_reducible apply Kept.foldl | with_reducible apply Kept.ite | with_reducible apply Kept.ite_snd | with_reducible apply Kept.ite_fst | with_reducible apply Kept.ite_snd2 | intro _)); done)

theorem Kept.after_portTrained {s t : State} {n : Nat} {res : TrainResult} (h : Kept s t) : Kept s (portTrained n res t) := by
  ((try unfold portTrained); (try simp only []); (repeat' (first | (simp +contextual (maxDischargeDepth := 100) only [h, Kept.after_linkUp, Kept.after_mshInterrupt, Kept.after_setFlag, Kept.after_stopPort, Kept.after_workDone, Kept.after_workFailed, implies_true]; done) | split | with_reducible assumption | with_reducible apply Kept.after_linkUp | with_reducible apply Kept.after_mshInterrupt | with_reducible apply Kept.after_setFlag | with_reducible apply Kept.after_stopPort | with_reducible apply Kept.after_workDone | with_reducible apply Kept.after_workFailed | with_reducible apply Kept.foldl | with_reducible apply Kept.ite | with_reducible apply Kept.ite_snd | with_reducible apply Kept.ite_fst | with_reducible apply Kept.ite_snd2 | intro _)); done)

theorem Kept.after_portDisableComplete {s t : State} {n : Nat} (h : Kept s t) : Kept s (portDisableComplete n t) := by
  (unfold portDisableComplete; split <;> simp +contextual (maxDischargeDepth := 100) only [h, Kept.after_dropPort, Kept.after_setFlag, Kept.after_workDone, Kept.ite]; done)

theorem Kept.after_retrain {s t : State} {n : Nat} {res : TrainResult} (h : Kept s t) : Kept s (retrain n res t) := by
  ((try unfold retrain); (try simp only []); (repeat' (first | (simp +contextual (maxDischargeDepth := 100) only [h, Kept.after_disablePort, Kept.after_modPort, Kept.after_mshInterrupt, Kept.after_satFld, Kept.after_sendIdle, Kept.after_setFlag, Kept.ite]; done) | split | with_reducible assumption | with_reducible apply Kept.after_disablePort | with_reducible apply Kept.after_modPort | with_reducible apply Kept.after_mshInterrupt | with_reducible apply Kept.after_satFld | with_reducible apply Kept.after_sendIdle | with_reducible apply Kept.after_setFlag | with_reducible apply Kept.foldl | with_reducible apply Kept.ite | with_reducible apply Kept.ite_snd | with_reducible apply Kept.ite_fst | with_reducible apply Kept.ite_snd2 | intro _)); done)

theorem Kept.after_launch {s t : State} {o : Outstanding} (h : Kept s t) : Kept s (State.launch t o) := by
  (unfold State.launch; split <;> simp +contextual (maxDischargeDepth := 100) only [h, Kept.after_emit, Kept.after_sendPacket]; done)

theorem Kept.after_ask {s t : State} {port slot pa : Nat} {op : AccessOp} {who : Issuer} (h : Kept s t) : Kept s (State.ask t port slot pa op who) := by
  ((try unfold State.ask); (try simp only []); (repeat' (first | (simp +contextual (maxDischargeDepth := 100) only [h, Kept.after_launch, Kept.mk_iff, Kept.pending, Kept.fuses, Kept.free, Kept.mem, Kept.regs, Kept.flash, Kept.ite, and_self]; done) | split | with_reducible assumption | with_reducible apply Kept.after_launch | with_reducible apply Kept.foldl | with_reducible apply Kept.ite | with_reducible apply Kept.ite_snd | with_reducible apply Kept.ite_fst | with_reducible apply Kept.ite_snd2 | intro _)); done)

theorem Kept.after_sendWaiting {s t : State}  (h : Kept s t) : Kept s (State.sendWaiting t) := by
  ((try unfold State.sendWaiting); (try simp only []); (repeat' (first | (simp +contextual (maxDischargeDepth := 100) only [h, Kept.after_launch, Kept.mk_iff, Kept.pending, Kept.fuses, Kept.free, Kept.mem, Kept.regs, Kept.flash, Kept.foldl, Kept.ite, and_self, implies_true]; done) | split | with_reducible assumption | with_reducible apply Kept.after_launch | with_reducible apply Kept.foldl | with_reducible apply Kept.ite | with_reducible apply Kept.ite_snd | with_reducible apply Kept.ite_fst | with_reducible apply Kept.ite_snd2 | intro _)); done)

theorem Kept.after_hearthFill {s t : State} {bay : Nat} {ecc : ReadEcc} (h : Kept s t) : Kept s (hearthFill bay ecc t) := by
  (unfold hearthFill; split <;> simp +contextual (maxDischargeDepth := 100) only [h, Kept.after_flipBytes, Kept.after_hearthPut, Kept.after_modMover, Kept.after_sendWaiting, Kept.after_stackEcc, Kept.mk_iff, Kept.pending, Kept.fuses, Kept.free, Kept.mem, Kept.regs, Kept.flash, Kept.foldl, Kept.ite, and_self, implies_true]; done)

theorem Kept.after_forget {s t : State} {test : Outstanding → Bool} (h : Kept s t) : Kept s (State.forget t test) := by
  ((try unfold State.forget); (try simp only []); (repeat' (first | (simp +contextual (maxDischargeDepth := 100) only [h, Kept.after_sendWaiting, Kept.mk_iff, Kept.pending, Kept.fuses, Kept.free, Kept.mem, Kept.regs, Kept.flash, and_self]; done) | split | with_reducible assumption | with_reducible apply Kept.after_sendWaiting | with_reducible apply Kept.foldl | with_reducible apply Kept.ite | with_reducible apply Kept.ite_snd | with_reducible apply Kept.ite_fst | with_reducible apply Kept.ite_snd2 | intro _)); done)

theorem Kept.after_sendRequest {s t : State} {vc slot pa : Nat} {op : AccessOp} {who : Issuer} (h : Kept s t) : Kept s (State.sendRequest t vc slot pa op who) := by
  ((try unfold State.sendRequest); (try simp only []); (repeat' (first | (simp +contextual (maxDischargeDepth := 100) only [h, Kept.after_ask]; done) | split | with_reducible assumption | with_reducible apply Kept.after_ask | with_reducible apply Kept.foldl | with_reducible apply Kept.ite | with_reducible apply Kept.ite_snd | with_reducible apply Kept.ite_fst | with_reducible apply Kept.ite_snd2 | intro _)); done)

theorem Kept.after_serve {s t : State} {pa : Nat} {op : AccessOp} (h : Kept s t) : Kept s ((State.serve t pa op).2.2) := by
  ((try unfold State.serve); (try simp only []); (repeat' (first | (simp +contextual (maxDischargeDepth := 100) only [h, Kept.after_homeAccess, Kept.ite_snd2]; done) | split | with_reducible assumption | with_reducible apply Kept.after_homeAccess | with_reducible apply Kept.after_write | with_reducible apply Kept.foldl | with_reducible apply Kept.ite | with_reducible apply Kept.ite_snd | with_reducible apply Kept.ite_fst | with_reducible apply Kept.ite_snd2 | intro _)); done)

theorem Kept.after_admitRemote {s t : State} {op part pa : Nat} {data : List Byte} {kind : Nat} (h : Kept s t) : Kept s (State.admitRemote t op part pa data kind) := by
  ((try unfold State.admitRemote); (try simp only []); (repeat' (first | (simp +contextual (maxDischargeDepth := 100) only [h, Kept.after_admitError, Kept.after_setFlag]; done) | split | with_reducible refine Kept.captured ?_ (by with_reducible assumption) | with_reducible assumption | with_reducible apply Kept.after_admitError | with_reducible apply Kept.after_sendRequest | with_reducible apply Kept.after_setFlag | with_reducible apply Kept.after_write | with_reducible apply Kept.foldl | with_reducible apply Kept.ite | with_reducible apply Kept.ite_snd | with_reducible apply Kept.ite_fst | with_reducible apply Kept.ite_snd2 | intro _)); done)

theorem Kept.after_loadstoreRequest {s t : State} {n : Nat} (h : Kept s t) : Kept s (loadstoreRequest n t) := by
  (unfold loadstoreRequest; split <;> simp +contextual (maxDischargeDepth := 100) only [h, Kept.after_sendPacket, Kept.after_serve, Kept.after_takePacket, Kept.ite]; done)

theorem Kept.after_accessEnd {s t : State} {o : Outstanding} {data : List Byte} {poison : Bool} {kind : Nat} (h : Kept s t) : Kept s (State.accessEnd t o data poison kind) := by
  ((try unfold State.accessEnd); (try simp only []); (repeat' (first | (simp +contextual (maxDischargeDepth := 100) only [h, Kept.after_admitRemote, Kept.after_answer, Kept.after_emit, Kept.after_modMover, Kept.after_moverFault, Kept.after_sendWaiting, Kept.after_setFlag, Kept.after_took, Kept.mk_iff, Kept.pending, Kept.fuses, Kept.free, Kept.mem, Kept.regs, Kept.flash, Kept.ite, and_self]; done) | split | with_reducible assumption | with_reducible apply Kept.after_admitRemote | with_reducible apply Kept.after_answer | with_reducible apply Kept.after_emit | with_reducible apply Kept.after_modMover | with_reducible apply Kept.after_moverFault | with_reducible apply Kept.after_sendWaiting | with_reducible apply Kept.after_setFlag | with_reducible apply Kept.after_took | with_reducible apply Kept.after_write | with_reducible apply Kept.foldl | with_reducible apply Kept.ite | with_reducible apply Kept.ite_snd | with_reducible apply Kept.ite_fst | with_reducible apply Kept.ite_snd2 | intro _)); done)

theorem Kept.after_loadstoreResponse {s t : State} {n : Nat} (h : Kept s t) : Kept s (loadstoreResponse n t) := by
  ((try unfold loadstoreResponse); (try simp only []); (repeat' (first | (simp +contextual (maxDischargeDepth := 100) only [h, Kept.after_accessEnd, Kept.after_takePacket, Kept.after_unrouted, Kept.mk_iff, Kept.pending, Kept.fuses, Kept.free, Kept.mem, Kept.regs, Kept.flash, and_self]; done) | split | with_reducible assumption | with_reducible apply Kept.after_accessEnd | with_reducible apply Kept.after_takePacket | with_reducible apply Kept.after_unrouted | with_reducible apply Kept.foldl | with_reducible apply Kept.ite | with_reducible apply Kept.ite_snd | with_reducible apply Kept.ite_fst | with_reducible apply Kept.ite_snd2 | intro _)); done)

theorem Kept.after_loadstoreTimeout {s t : State} {tag : Nat} (h : Kept s t) : Kept s (loadstoreTimeout tag t) := by
  ((try unfold loadstoreTimeout); (try simp only []); (repeat' (first | (simp +contextual (maxDischargeDepth := 100) only [h, Kept.after_accessEnd, Kept.after_mshInterrupt, Kept.after_setFlag, Kept.mk_iff, Kept.pending, Kept.fuses, Kept.free, Kept.mem, Kept.regs, Kept.flash, and_self]; done) | split | with_reducible assumption | with_reducible apply Kept.after_accessEnd | with_reducible apply Kept.after_mshInterrupt | with_reducible apply Kept.after_setFlag | with_reducible apply Kept.foldl | with_reducible apply Kept.ite | with_reducible apply Kept.ite_snd | with_reducible apply Kept.ite_fst | with_reducible apply Kept.ite_snd2 | intro _)); done)

theorem Kept.after_sendRing {s t : State} {ch : Nat} {u0 : Nat} (h : Kept s t) : Kept s (State.sendRing t ch u0) := by
  (induction u0 generalizing t ch <;> simp +contextual (maxDischargeDepth := 100) only [State.sendRing, *, Kept.after_pass, Kept.after_sendPacket, Kept.after_setFld, Kept.ite]; done)

theorem Kept.after_writeMshCtrl {s t : State} {v : Word} (h : Kept s t) : Kept s (State.writeMshCtrl t v) := by
  (unfold State.writeMshCtrl; split <;> simp +contextual (maxDischargeDepth := 100) only [h, Kept.after_sendRing, Kept.after_setReg, Kept.foldl, implies_true]; done)

theorem Kept.after_messageReceive {s t : State} {n ch : Nat} (h : Kept s t) : Kept s (messageReceive n ch t) := by
  (unfold messageReceive; split <;> simp +contextual (maxDischargeDepth := 100) only [h, Kept.after_mshInterrupt, Kept.after_pass, Kept.after_setFlag, Kept.after_setFld, Kept.after_takePacket, Kept.after_write, Kept.ite]; done)

end Sys2Proof.Machine
end

