-- ==== Sys2Proof/Laws/KeptMovers.lean ====
section
/-! SUPPORT. `Kept` for the operations of the movers and the Temper tiles (chapters 6 and 9 to 11). -/

set_option maxRecDepth 8000
set_option linter.all false
namespace Sys2Proof.Machine

/-- A unit's computation keeps what `Kept` says of the state it forms. -/
structure UKept (s : State) {α : Type} (u : U α) : Prop where
  keeps : ∀ c e r, Kept s e.s → u c e = .ok r → Kept s r.2.s

theorem UKept.pure {s : State} {α : Type} {a : α} : UKept s (Pure.pure a : U α) := by
  constructor; intro c e r h hr
  have : r = (a, e) := by injection hr with h'; exact h'.symm
  rw [this]; exact h

theorem UKept.throw {s : State} {α : Type} {x : Stop} : UKept s (MonadExcept.throw x : U α) := by
  constructor; intro c e r h hr; injection hr

theorem UKept.throwOf {s : State} {α : Type} {x : Stop} : UKept s (throwThe Stop x : U α) := by
  constructor; intro c e r h hr; injection hr

theorem UKept.bind {s : State} {α β : Type} {u : U α} {f : α → U β} (hu : UKept s u) (hf : ∀ a, UKept s (f a)) : UKept s (u >>= f) := by
  constructor; intro c e r h hr
  cases hx : u c e with
  | error x => simp [Bind.bind, ReaderT.bind, StateT.bind, Except.bind, hx] at hr
  | ok y =>
    have hy := hu.keeps c e y h hx
    refine (hf y.1).keeps c y.2 r hy ?_
    simpa [Bind.bind, ReaderT.bind, StateT.bind, Except.bind, hx] using hr

theorem UKept.getBind {s : State} {β : Type} {f : Forming → U β} (hf : ∀ e, Kept s e.s → UKept s (f e)) : UKept s (get >>= f) := by
  constructor; intro c e r h hr
  exact (hf e h).keeps c e r h hr

theorem UKept.read {s : State} : UKept s (MonadReader.read : U Ctx) := by
  constructor; intro c e r h hr
  have : r = (c, e) := by injection hr with h'; exact h'.symm
  rw [this]; exact h

theorem UKept.get {s : State} : UKept s (MonadState.get : U Forming) := by
  constructor; intro c e r h hr
  have : r = (e, e) := by injection hr with h'; exact h'.symm
  rw [this]; exact h

theorem UKept.modify {s : State} {f : Forming → Forming} (hf : ∀ e, Kept s e.s → Kept s (f e).s) : UKept s (modify f : U PUnit) := by
  constructor; intro c e r h hr
  have : r = (PUnit.unit, f e) := by injection hr with h'; exact h'.symm
  rw [this]; exact hf e h

theorem UKept.of_U_change {s : State} {f : State → State} (hf : ∀ t, Kept s t → Kept s (f t)) : UKept s (U.change f) :=
  UKept.modify (fun e he => hf e.s he)

theorem UKept.of_U_xlate {s : State} {α : Type} {k l v : Nat} {a : Access} {e : Nat} : UKept s (U.xlate k l v a e : U α) := UKept.throw
theorem UKept.of_U_exec {s : State} {α : Type} {k v c : Nat} : UKept s (U.exec k v c : U α) := UKept.throw

theorem UKept.set {s : State} {e : Forming} (he : Kept s e.s) : UKept s (MonadStateOf.set e : U PUnit) := by
  constructor; intro c e' r h hr
  have : r = (PUnit.unit, e) := by injection hr with h'; exact h'.symm
  rw [this]; exact he

theorem UKept.forM {s : State} {α : Type} {l : List α} {f : α → U PUnit} (hf : ∀ a, UKept s (f a)) : UKept s (l.forM f) := by
  induction l with
  | nil => exact UKept.pure
  | cons a l ih => exact UKept.bind (hf a) (fun _ => ih)

theorem UKept.ite {s : State} {α : Type} {c : Prop} [Decidable c] {a b : U α} (ha : UKept s a) (hb : UKept s b) : UKept s (if c then a else b) := by
  split
  · exact ha
  · exact hb

theorem UKept.mapM {s : State} {α β : Type} {l : List α} {f : α → U β} (hf : ∀ a, UKept s (f a)) : UKept s (l.mapM f) := by
  induction l with
  | nil => rw [List.mapM_nil]; exact UKept.pure
  | cons a l ih => rw [List.mapM_cons]; exact UKept.bind (hf a) (fun _ => UKept.bind ih (fun _ => UKept.pure))

theorem UKept.flatMapM {s : State} {α β : Type} {l : List α} {f : α → U (List β)} (hf : ∀ a, UKept s (f a)) : UKept s (l.flatMapM f) := by
  unfold List.flatMapM
  generalize ([] : List (List β)) = acc
  induction l generalizing acc with
  | nil => exact UKept.pure
  | cons a l ih => exact UKept.bind (hf a) (fun _ => ih _)

theorem UKept.withReader {s : State} {α : Type} {f : Ctx → Ctx} {u : U α} (hu : UKept s u) : UKept s (withReader f u : U α) := by
  constructor; intro c e r h hr
  exact hu.keeps (f c) e r h hr

theorem UKept.of_U_translate {s : State} {va : Nat} {acc : Access} : UKept s (U.translate va acc) := by
  (unfold U.translate; (repeat' (first | with_reducible assumption | with_reducible apply UKept.getBind | with_reducible apply UKept.read | with_reducible apply UKept.get | with_reducible apply UKept.pure | with_reducible apply UKept.throw | with_reducible apply UKept.throwOf | with_reducible apply UKept.modify | with_reducible apply UKept.set | with_reducible apply UKept.of_U_change | with_reducible apply UKept.of_U_xlate | with_reducible apply UKept.withReader | with_reducible apply UKept.forM | with_reducible apply UKept.mapM | with_reducible apply UKept.flatMapM | with_reducible apply UKept.bind | with_reducible apply UKept.ite | with_reducible apply Kept.after_fillTlb1 | with_reducible apply Kept.foldl | with_reducible apply Kept.ite | with_reducible apply Kept.ite_snd | with_reducible apply Kept.ite_fst | with_reducible apply Kept.ite_snd2 | split | intro _ | (dsimp only; done) | dsimp only | with_reducible exact UKept.pure)); done)

theorem UKept.of_U_nextRead {s : State}  : UKept s (U.nextRead) := by
  (unfold U.nextRead; (repeat' (first | with_reducible assumption | with_reducible apply UKept.getBind | with_reducible apply UKept.read | with_reducible apply UKept.get | with_reducible apply UKept.pure | with_reducible apply UKept.throw | with_reducible apply UKept.throwOf | with_reducible apply UKept.modify | with_reducible apply UKept.set | with_reducible apply UKept.withReader | with_reducible apply UKept.forM | with_reducible apply UKept.mapM | with_reducible apply UKept.flatMapM | with_reducible apply UKept.bind | with_reducible apply UKept.ite | with_reducible apply Kept.foldl | with_reducible apply Kept.ite | with_reducible apply Kept.ite_snd | with_reducible apply Kept.ite_fst | with_reducible apply Kept.ite_snd2 | split | intro _ | (dsimp only; done) | dsimp only | with_reducible exact UKept.pure)); done)

theorem UKept.of_U_nextFlit {s : State}  : UKept s (U.nextFlit) := by
  (unfold U.nextFlit; (repeat' (first | with_reducible assumption | with_reducible apply UKept.getBind | with_reducible apply UKept.read | with_reducible apply UKept.get | with_reducible apply UKept.pure | with_reducible apply UKept.throw | with_reducible apply UKept.throwOf | with_reducible apply UKept.modify | with_reducible apply UKept.set | with_reducible apply UKept.withReader | with_reducible apply UKept.forM | with_reducible apply UKept.mapM | with_reducible apply UKept.flatMapM | with_reducible apply UKept.bind | with_reducible apply UKept.ite | with_reducible apply Kept.foldl | with_reducible apply Kept.ite | with_reducible apply Kept.ite_snd | with_reducible apply Kept.ite_fst | with_reducible apply Kept.ite_snd2 | split | intro _ | (dsimp only; done) | dsimp only | with_reducible exact UKept.pure)); done)

theorem UKept.of_U_sram {s : State} {off va : Nat} {acc : Access} {op : AccessOp} : UKept s (U.sram off va acc op) := by
  (unfold U.sram; (repeat' (first | with_reducible assumption | with_reducible apply UKept.getBind | with_reducible apply UKept.read | with_reducible apply UKept.get | with_reducible apply UKept.pure | with_reducible apply UKept.throw | with_reducible apply UKept.throwOf | with_reducible apply UKept.modify | with_reducible apply UKept.set | with_reducible apply UKept.of_U_change | with_reducible apply UKept.of_U_nextRead | with_reducible apply UKept.of_U_xlate | with_reducible apply UKept.withReader | with_reducible apply UKept.forM | with_reducible apply UKept.mapM | with_reducible apply UKept.flatMapM | with_reducible apply UKept.bind | with_reducible apply UKept.ite | with_reducible apply Kept.after_window | with_reducible apply Kept.foldl | with_reducible apply Kept.ite | with_reducible apply Kept.ite_snd | with_reducible apply Kept.ite_fst | with_reducible apply Kept.ite_snd2 | split | intro _ | (dsimp only; done) | dsimp only | with_reducible exact UKept.pure)); done)

theorem UKept.of_U_hotRead {s : State} {b off n : Nat} : UKept s (U.hotRead b off n) := by
  (unfold U.hotRead; (repeat' (first | with_reducible assumption | with_reducible apply UKept.getBind | with_reducible apply UKept.read | with_reducible apply UKept.get | with_reducible apply UKept.pure | with_reducible apply UKept.throw | with_reducible apply UKept.throwOf | with_reducible apply UKept.modify | with_reducible apply UKept.set | with_reducible apply UKept.of_U_nextRead | with_reducible apply UKept.withReader | with_reducible apply UKept.forM | with_reducible apply UKept.mapM | with_reducible apply UKept.flatMapM | with_reducible apply UKept.bind | with_reducible apply UKept.ite | with_reducible apply Kept.after_flipBytes | with_reducible apply Kept.after_stackEcc | with_reducible apply Kept.foldl | with_reducible apply Kept.ite | with_reducible apply Kept.ite_snd | with_reducible apply Kept.ite_fst | with_reducible apply Kept.ite_snd2 | split | intro _ | (dsimp only; done) | dsimp only | with_reducible exact UKept.pure)); done)

theorem UKept.of_U_hotAccess {s : State} {b off : Nat} {op : AccessOp} : UKept s (U.hotAccess b off op) := by
  (unfold U.hotAccess; (repeat' (first | with_reducible assumption | with_reducible apply UKept.getBind | with_reducible apply UKept.read | with_reducible apply UKept.get | with_reducible apply UKept.pure | with_reducible apply UKept.throw | with_reducible apply UKept.throwOf | with_reducible apply UKept.modify | with_reducible apply UKept.set | with_reducible apply UKept.of_U_change | with_reducible apply UKept.of_U_hotRead | with_reducible apply UKept.withReader | with_reducible apply UKept.forM | with_reducible apply UKept.mapM | with_reducible apply UKept.flatMapM | with_reducible apply UKept.bind | with_reducible apply UKept.ite | with_reducible apply Kept.after_hearthLines | with_reducible apply Kept.after_memOp | with_reducible apply Kept.foldl | with_reducible apply Kept.ite | with_reducible apply Kept.ite_snd | with_reducible apply Kept.ite_fst | with_reducible apply Kept.ite_snd2 | split | intro _ | (dsimp only; done) | dsimp only | with_reducible exact UKept.pure)); done)

theorem UKept.of_U_partnerAccess {s : State} {i pa va : Nat} {x_h : Home} {acc : Access} {op : AccessOp} : UKept s (U.partnerAccess i pa va x_h acc op) := by
  (unfold U.partnerAccess; (repeat' (first | with_reducible assumption | with_reducible apply UKept.getBind | with_reducible apply UKept.read | with_reducible apply UKept.get | with_reducible apply UKept.pure | with_reducible apply UKept.throw | with_reducible apply UKept.throwOf | with_reducible apply UKept.modify | with_reducible apply UKept.set | with_reducible apply UKept.of_U_xlate | with_reducible apply UKept.withReader | with_reducible apply UKept.forM | with_reducible apply UKept.mapM | with_reducible apply UKept.flatMapM | with_reducible apply UKept.bind | with_reducible apply UKept.ite | with_reducible apply Kept.after_homeAccess | with_reducible apply Kept.foldl | with_reducible apply Kept.ite | with_reducible apply Kept.ite_snd | with_reducible apply Kept.ite_fst | with_reducible apply Kept.ite_snd2 | split | intro _ | (dsimp only; done) | dsimp only | with_reducible exact UKept.pure)); done)

theorem UKept.of_U_remoteAccess {s : State} {slot off pa va : Nat} {acc : Access} {op : AccessOp} : UKept s (U.remoteAccess slot off pa va acc op) := by
  (unfold U.remoteAccess; (repeat' (first | with_reducible assumption | with_reducible apply UKept.getBind | with_reducible apply UKept.read | with_reducible apply UKept.get | with_reducible apply UKept.pure | with_reducible apply UKept.throw | with_reducible apply UKept.throwOf | with_reducible apply UKept.modify | with_reducible apply UKept.set | with_reducible apply UKept.of_U_xlate | with_reducible apply UKept.withReader | with_reducible apply UKept.forM | with_reducible apply UKept.mapM | with_reducible apply UKept.flatMapM | with_reducible apply UKept.bind | with_reducible apply UKept.ite | with_reducible apply Kept.foldl | with_reducible apply Kept.ite | with_reducible apply Kept.ite_snd | with_reducible apply Kept.ite_fst | with_reducible apply Kept.ite_snd2 | split | intro _ | (dsimp only; done) | dsimp only | with_reducible exact UKept.pure)); done)

theorem UKept.of_U_access {s : State} {va : Nat} {acc : Access} {op : AccessOp} : UKept s (U.access va acc op) := by
  (unfold U.access; (repeat' (first | with_reducible assumption | with_reducible apply UKept.getBind | with_reducible apply UKept.read | with_reducible apply UKept.get | with_reducible apply UKept.pure | with_reducible apply UKept.throw | with_reducible apply UKept.throwOf | with_reducible apply UKept.modify | with_reducible apply UKept.set | with_reducible apply UKept.of_U_change | with_reducible apply UKept.of_U_hotAccess | with_reducible apply UKept.of_U_partnerAccess | with_reducible apply UKept.of_U_remoteAccess | with_reducible apply UKept.of_U_sram | with_reducible apply UKept.of_U_translate | with_reducible apply UKept.of_U_xlate | with_reducible apply UKept.withReader | with_reducible apply UKept.forM | with_reducible apply UKept.mapM | with_reducible apply UKept.flatMapM | with_reducible apply UKept.bind | with_reducible apply UKept.ite | with_reducible apply Kept.after_hole | with_reducible apply Kept.foldl | with_reducible apply Kept.ite | with_reducible apply Kept.ite_snd | with_reducible apply Kept.ite_fst | with_reducible apply Kept.ite_snd2 | split | intro _ | (dsimp only; done) | dsimp only | with_reducible exact UKept.pure)); done)

theorem UKept.of_U_readRange {s : State} {u0 : Nat} {u1 : Nat} {u2 : Nat} : UKept s (U.readRange u0 u1 u2) := by
  (induction u0 generalizing u1 u2 with | zero => (unfold U.readRange; exact UKept.pure) | succ k ih => (unfold U.readRange; (repeat' (first | with_reducible apply ih | with_reducible assumption | with_reducible apply UKept.getBind | with_reducible apply UKept.read | with_reducible apply UKept.get | with_reducible apply UKept.pure | with_reducible apply UKept.throw | with_reducible apply UKept.throwOf | with_reducible apply UKept.modify | with_reducible apply UKept.set | with_reducible apply UKept.of_U_access | with_reducible apply UKept.withReader | with_reducible apply UKept.forM | with_reducible apply UKept.mapM | with_reducible apply UKept.flatMapM | with_reducible apply UKept.bind | with_reducible apply UKept.ite | with_reducible apply Kept.foldl | with_reducible apply Kept.ite | with_reducible apply Kept.ite_snd | with_reducible apply Kept.ite_fst | with_reducible apply Kept.ite_snd2 | split | intro _ | (dsimp only; done) | dsimp only | with_reducible exact UKept.pure))))

theorem UKept.of_U_readVa {s : State} {va n : Nat} : UKept s (U.readVa va n) := by
  (unfold U.readVa; (repeat' (first | with_reducible assumption | with_reducible apply UKept.getBind | with_reducible apply UKept.read | with_reducible apply UKept.get | with_reducible apply UKept.pure | with_reducible apply UKept.throw | with_reducible apply UKept.throwOf | with_reducible apply UKept.modify | with_reducible apply UKept.set | with_reducible apply UKept.of_U_readRange | with_reducible apply UKept.withReader | with_reducible apply UKept.forM | with_reducible apply UKept.mapM | with_reducible apply UKept.flatMapM | with_reducible apply UKept.bind | with_reducible apply UKept.ite | with_reducible apply Kept.foldl | with_reducible apply Kept.ite | with_reducible apply Kept.ite_snd | with_reducible apply Kept.ite_fst | with_reducible apply Kept.ite_snd2 | split | intro _ | (dsimp only; done) | dsimp only | with_reducible exact UKept.pure)); done)

theorem UKept.of_U_numVa {s : State} {va n : Nat} : UKept s (U.numVa va n) := by
  (unfold U.numVa; (repeat' (first | with_reducible assumption | with_reducible apply UKept.getBind | with_reducible apply UKept.read | with_reducible apply UKept.get | with_reducible apply UKept.pure | with_reducible apply UKept.throw | with_reducible apply UKept.throwOf | with_reducible apply UKept.modify | with_reducible apply UKept.set | with_reducible apply UKept.of_U_readVa | with_reducible apply UKept.withReader | with_reducible apply UKept.forM | with_reducible apply UKept.mapM | with_reducible apply UKept.flatMapM | with_reducible apply UKept.bind | with_reducible apply UKept.ite | with_reducible apply Kept.foldl | with_reducible apply Kept.ite | with_reducible apply Kept.ite_snd | with_reducible apply Kept.ite_fst | with_reducible apply Kept.ite_snd2 | split | intro _ | (dsimp only; done) | dsimp only | with_reducible exact UKept.pure)); done)

theorem UKept.of_U_writeVa {s : State} {u0 : Nat} {u1 : Nat} {u2 : List Byte} : UKept s (U.writeVa u0 u1 u2) := by
  (induction u0 generalizing u1 u2 with | zero => (unfold U.writeVa; exact UKept.pure) | succ k ih => (unfold U.writeVa; (repeat' (first | with_reducible apply ih | with_reducible assumption | with_reducible apply UKept.getBind | with_reducible apply UKept.read | with_reducible apply UKept.get | with_reducible apply UKept.pure | with_reducible apply UKept.throw | with_reducible apply UKept.throwOf | with_reducible apply UKept.modify | with_reducible apply UKept.set | with_reducible apply UKept.of_U_access | with_reducible apply UKept.withReader | with_reducible apply UKept.forM | with_reducible apply UKept.mapM | with_reducible apply UKept.flatMapM | with_reducible apply UKept.bind | with_reducible apply UKept.ite | with_reducible apply Kept.after_write | with_reducible apply Kept.foldl | with_reducible apply Kept.ite | with_reducible apply Kept.ite_snd | with_reducible apply Kept.ite_fst | with_reducible apply Kept.ite_snd2 | split | intro _ | (dsimp only; done) | dsimp only | with_reducible exact UKept.pure))))

theorem UKept.of_U_write {s : State} {va : Nat} {d : List Byte} : UKept s (U.write va d) := by
  (unfold U.write; (repeat' (first | with_reducible assumption | with_reducible apply UKept.getBind | with_reducible apply UKept.read | with_reducible apply UKept.get | with_reducible apply UKept.pure | with_reducible apply UKept.throw | with_reducible apply UKept.throwOf | with_reducible apply UKept.modify | with_reducible apply UKept.set | with_reducible apply UKept.of_U_writeVa | with_reducible apply UKept.withReader | with_reducible apply UKept.forM | with_reducible apply UKept.mapM | with_reducible apply UKept.flatMapM | with_reducible apply UKept.bind | with_reducible apply UKept.ite | with_reducible apply Kept.foldl | with_reducible apply Kept.ite | with_reducible apply Kept.ite_snd | with_reducible apply Kept.ite_fst | with_reducible apply Kept.ite_snd2 | split | intro _ | (dsimp only; done) | dsimp only | with_reducible exact UKept.pure)); done)

theorem UKept.of_U_checkWrite {s : State} {va units : Nat} : UKept s (U.checkWrite va units) := by
  (unfold U.checkWrite; (repeat' (first | with_reducible assumption | with_reducible apply UKept.getBind | with_reducible apply UKept.read | with_reducible apply UKept.get | with_reducible apply UKept.pure | with_reducible apply UKept.throw | with_reducible apply UKept.throwOf | with_reducible apply UKept.modify | with_reducible apply UKept.set | with_reducible apply UKept.of_U_translate | with_reducible apply UKept.of_U_write | with_reducible apply UKept.withReader | with_reducible apply UKept.forM | with_reducible apply UKept.mapM | with_reducible apply UKept.flatMapM | with_reducible apply UKept.bind | with_reducible apply UKept.ite | with_reducible apply Kept.after_write | with_reducible apply Kept.foldl | with_reducible apply Kept.ite | with_reducible apply Kept.ite_snd | with_reducible apply Kept.ite_fst | with_reducible apply Kept.ite_snd2 | split | intro _ | (dsimp only; done) | dsimp only | with_reducible exact UKept.pure)); done)

theorem UKept.of_U_takeFlit {s : State} {q i : Nat} : UKept s (U.takeFlit q i) := by
  (unfold U.takeFlit; (repeat' (first | with_reducible assumption | with_reducible apply UKept.getBind | with_reducible apply UKept.read | with_reducible apply UKept.get | with_reducible apply UKept.pure | with_reducible apply UKept.throw | with_reducible apply UKept.throwOf | with_reducible apply UKept.modify | with_reducible apply UKept.set | with_reducible apply UKept.of_U_nextFlit | with_reducible apply UKept.withReader | with_reducible apply UKept.forM | with_reducible apply UKept.mapM | with_reducible apply UKept.flatMapM | with_reducible apply UKept.bind | with_reducible apply UKept.ite | with_reducible apply Kept.after_readHead | with_reducible apply Kept.foldl | with_reducible apply Kept.ite | with_reducible apply Kept.ite_snd | with_reducible apply Kept.ite_fst | with_reducible apply Kept.ite_snd2 | split | intro _ | (dsimp only; done) | dsimp only | with_reducible exact UKept.pure)); done)

theorem UKept.of_U_send {s : State} {q : Nat} {kind : FlitKind} {d : List Byte} : UKept s (U.send q kind d) := by
  (unfold U.send; (repeat' (first | with_reducible assumption | with_reducible apply UKept.getBind | with_reducible apply UKept.read | with_reducible apply UKept.get | with_reducible apply UKept.pure | with_reducible apply UKept.throw | with_reducible apply UKept.throwOf | with_reducible apply UKept.modify | with_reducible apply UKept.set | with_reducible apply UKept.withReader | with_reducible apply UKept.forM | with_reducible apply UKept.mapM | with_reducible apply UKept.flatMapM | with_reducible apply UKept.bind | with_reducible apply UKept.ite | with_reducible apply Kept.foldl | with_reducible apply Kept.ite | with_reducible apply Kept.ite_snd | with_reducible apply Kept.ite_fst | with_reducible apply Kept.ite_snd2 | split | intro _ | (dsimp only; done) | dsimp only | with_reducible exact UKept.pure)); done)

theorem UKept.of_U_deliver {s : State} {c : Cmd} {va : Nat} {last : Bool} {d : List Byte} : UKept s (U.deliver c va last d) := by
  (unfold U.deliver; (repeat' (first | with_reducible assumption | with_reducible apply UKept.getBind | with_reducible apply UKept.read | with_reducible apply UKept.get | with_reducible apply UKept.pure | with_reducible apply UKept.throw | with_reducible apply UKept.throwOf | with_reducible apply UKept.modify | with_reducible apply UKept.set | with_reducible apply UKept.of_U_checkWrite | with_reducible apply UKept.of_U_send | with_reducible apply UKept.of_U_write | with_reducible apply UKept.withReader | with_reducible apply UKept.forM | with_reducible apply UKept.mapM | with_reducible apply UKept.flatMapM | with_reducible apply UKept.bind | with_reducible apply UKept.ite | with_reducible apply Kept.after_write | with_reducible apply Kept.foldl | with_reducible apply Kept.ite | with_reducible apply Kept.ite_snd | with_reducible apply Kept.ite_fst | with_reducible apply Kept.ite_snd2 | split | intro _ | (dsimp only; done) | dsimp only | with_reducible exact UKept.pure)); done)

theorem UKept.of_U_source {s : State} {c : Cmd} {va units : Nat} : UKept s (U.source c va units) := by
  (unfold U.source; (repeat' (first | with_reducible assumption | with_reducible apply UKept.getBind | with_reducible apply UKept.read | with_reducible apply UKept.get | with_reducible apply UKept.pure | with_reducible apply UKept.throw | with_reducible apply UKept.throwOf | with_reducible apply UKept.modify | with_reducible apply UKept.set | with_reducible apply UKept.of_U_readVa | with_reducible apply UKept.of_U_takeFlit | with_reducible apply UKept.withReader | with_reducible apply UKept.forM | with_reducible apply UKept.mapM | with_reducible apply UKept.flatMapM | with_reducible apply UKept.bind | with_reducible apply UKept.ite | with_reducible apply Kept.foldl | with_reducible apply Kept.ite | with_reducible apply Kept.ite_snd | with_reducible apply Kept.ite_fst | with_reducible apply Kept.ite_snd2 | split | intro _ | (dsimp only; done) | dsimp only | with_reducible exact UKept.pure)); done)

theorem UKept.of_copyUnit {s : State} {c : Cmd} {k : Nat} : UKept s (copyUnit c k) := by
  (unfold copyUnit; (repeat' (first | with_reducible assumption | with_reducible apply UKept.getBind | with_reducible apply UKept.read | with_reducible apply UKept.get | with_reducible apply UKept.pure | with_reducible apply UKept.throw | with_reducible apply UKept.throwOf | with_reducible apply UKept.modify | with_reducible apply UKept.set | with_reducible apply UKept.of_U_deliver | with_reducible apply UKept.of_U_source | with_reducible apply UKept.withReader | with_reducible apply UKept.forM | with_reducible apply UKept.mapM | with_reducible apply UKept.flatMapM | with_reducible apply UKept.bind | with_reducible apply UKept.ite | with_reducible apply Kept.foldl | with_reducible apply Kept.ite | with_reducible apply Kept.ite_snd | with_reducible apply Kept.ite_fst | with_reducible apply Kept.ite_snd2 | split | intro _ | (dsimp only; done) | dsimp only | with_reducible exact UKept.pure)); done)

theorem UKept.of_gatherUnit {s : State} {c : Cmd} {j : Nat} : UKept s (gatherUnit c j) := by
  (unfold gatherUnit; (repeat' (first | with_reducible assumption | with_reducible apply UKept.getBind | with_reducible apply UKept.read | with_reducible apply UKept.get | with_reducible apply UKept.pure | with_reducible apply UKept.throw | with_reducible apply UKept.throwOf | with_reducible apply UKept.modify | with_reducible apply UKept.set | with_reducible apply UKept.of_U_deliver | with_reducible apply UKept.of_U_numVa | with_reducible apply UKept.of_U_readVa | with_reducible apply UKept.withReader | with_reducible apply UKept.forM | with_reducible apply UKept.mapM | with_reducible apply UKept.flatMapM | with_reducible apply UKept.bind | with_reducible apply UKept.ite | with_reducible apply Kept.foldl | with_reducible apply Kept.ite | with_reducible apply Kept.ite_snd | with_reducible apply Kept.ite_fst | with_reducible apply Kept.ite_snd2 | split | intro _ | (dsimp only; done) | dsimp only | with_reducible exact UKept.pure)); done)

theorem UKept.of_U_restDropped {s : State} {aux : Nat} {u0 : Nat} {u1 : Nat} : UKept s (U.restDropped aux u0 u1) := by
  (induction u0 generalizing u1 with | zero => (unfold U.restDropped; exact UKept.pure) | succ k ih => (unfold U.restDropped; (repeat' (first | with_reducible apply ih | with_reducible assumption | with_reducible apply UKept.getBind | with_reducible apply UKept.read | with_reducible apply UKept.get | with_reducible apply UKept.pure | with_reducible apply UKept.throw | with_reducible apply UKept.throwOf | with_reducible apply UKept.modify | with_reducible apply UKept.set | with_reducible apply UKept.of_U_numVa | with_reducible apply UKept.withReader | with_reducible apply UKept.forM | with_reducible apply UKept.mapM | with_reducible apply UKept.flatMapM | with_reducible apply UKept.bind | with_reducible apply UKept.ite | with_reducible apply Kept.foldl | with_reducible apply Kept.ite | with_reducible apply Kept.ite_snd | with_reducible apply Kept.ite_fst | with_reducible apply Kept.ite_snd2 | split | intro _ | (dsimp only; done) | dsimp only | with_reducible exact UKept.pure))))

theorem UKept.of_scatterUnit {s : State} {c : Cmd} {j : Nat} : UKept s (scatterUnit c j) := by
  (unfold scatterUnit; (repeat' (first | with_reducible assumption | with_reducible apply UKept.getBind | with_reducible apply UKept.read | with_reducible apply UKept.get | with_reducible apply UKept.pure | with_reducible apply UKept.throw | with_reducible apply UKept.throwOf | with_reducible apply UKept.modify | with_reducible apply UKept.set | with_reducible apply UKept.of_U_deliver | with_reducible apply UKept.of_U_numVa | with_reducible apply UKept.of_U_restDropped | with_reducible apply UKept.of_U_source | with_reducible apply UKept.withReader | with_reducible apply UKept.forM | with_reducible apply UKept.mapM | with_reducible apply UKept.flatMapM | with_reducible apply UKept.bind | with_reducible apply UKept.ite | with_reducible apply Kept.foldl | with_reducible apply Kept.ite | with_reducible apply Kept.ite_snd | with_reducible apply Kept.ite_fst | with_reducible apply Kept.ite_snd2 | split | intro _ | (dsimp only; done) | dsimp only | with_reducible exact UKept.pure)); done)

theorem UKept.of_diagUnit {s : State} {c : Cmd} {w : Nat} : UKept s (diagUnit c w) := by
  (unfold diagUnit; (repeat' (first | with_reducible assumption | with_reducible apply UKept.getBind | with_reducible apply UKept.read | with_reducible apply UKept.get | with_reducible apply UKept.pure | with_reducible apply UKept.throw | with_reducible apply UKept.throwOf | with_reducible apply UKept.modify | with_reducible apply UKept.set | with_reducible apply UKept.of_U_deliver | with_reducible apply UKept.of_U_readVa | with_reducible apply UKept.withReader | with_reducible apply UKept.forM | with_reducible apply UKept.mapM | with_reducible apply UKept.flatMapM | with_reducible apply UKept.bind | with_reducible apply UKept.ite | with_reducible apply Kept.foldl | with_reducible apply Kept.ite | with_reducible apply Kept.ite_snd | with_reducible apply Kept.ite_fst | with_reducible apply Kept.ite_snd2 | split | intro _ | (dsimp only; done) | dsimp only | with_reducible exact UKept.pure)); done)

theorem UKept.of_U_ingotTile {s : State} {entry : Nat} : UKept s (U.ingotTile entry) := by
  (unfold U.ingotTile; (repeat' (first | with_reducible assumption | with_reducible apply UKept.getBind | with_reducible apply UKept.read | with_reducible apply UKept.get | with_reducible apply UKept.pure | with_reducible apply UKept.throw | with_reducible apply UKept.throwOf | with_reducible apply UKept.modify | with_reducible apply UKept.set | with_reducible apply UKept.of_U_exec | with_reducible apply UKept.of_U_readVa | with_reducible apply UKept.withReader | with_reducible apply UKept.forM | with_reducible apply UKept.mapM | with_reducible apply UKept.flatMapM | with_reducible apply UKept.bind | with_reducible apply UKept.ite | with_reducible apply Kept.foldl | with_reducible apply Kept.ite | with_reducible apply Kept.ite_snd | with_reducible apply Kept.ite_fst | with_reducible apply Kept.ite_snd2 | split | intro _ | (dsimp only; done) | dsimp only | with_reducible exact UKept.pure)); done)

theorem UKept.of_ingotUnit {s : State} {c : Cmd} {k : Nat} : UKept s (ingotUnit c k) := by
  (unfold ingotUnit; (repeat' (first | with_reducible assumption | with_reducible apply UKept.getBind | with_reducible apply UKept.read | with_reducible apply UKept.get | with_reducible apply UKept.pure | with_reducible apply UKept.throw | with_reducible apply UKept.throwOf | with_reducible apply UKept.modify | with_reducible apply UKept.set | with_reducible apply UKept.of_U_deliver | with_reducible apply UKept.of_U_ingotTile | with_reducible apply UKept.of_U_numVa | with_reducible apply UKept.withReader | with_reducible apply UKept.forM | with_reducible apply UKept.mapM | with_reducible apply UKept.flatMapM | with_reducible apply UKept.bind | with_reducible apply UKept.ite | with_reducible apply Kept.foldl | with_reducible apply Kept.ite | with_reducible apply Kept.ite_snd | with_reducible apply Kept.ite_fst | with_reducible apply Kept.ite_snd2 | split | intro _ | (dsimp only; done) | dsimp only | with_reducible exact UKept.pure)); done)

theorem UKept.of_openUnit {s : State} {c : Cmd} {va units : Nat} {last : Bool} : UKept s (openUnit c va units last) := by
  (unfold openUnit; (repeat' (first | with_reducible assumption | with_reducible apply UKept.getBind | with_reducible apply UKept.read | with_reducible apply UKept.get | with_reducible apply UKept.pure | with_reducible apply UKept.throw | with_reducible apply UKept.throwOf | with_reducible apply UKept.modify | with_reducible apply UKept.set | with_reducible apply UKept.of_U_change | with_reducible apply UKept.of_U_deliver | with_reducible apply UKept.withReader | with_reducible apply UKept.forM | with_reducible apply UKept.mapM | with_reducible apply UKept.flatMapM | with_reducible apply UKept.bind | with_reducible apply UKept.ite | with_reducible apply Kept.after_took | with_reducible apply Kept.foldl | with_reducible apply Kept.ite | with_reducible apply Kept.ite_snd | with_reducible apply Kept.ite_fst | with_reducible apply Kept.ite_snd2 | split | intro _ | (dsimp only; done) | dsimp only | with_reducible exact UKept.pure)); done)

theorem UKept.of_warmUnit {s : State} {c : Cmd} {k : Nat} : UKept s (warmUnit c k) := by
  (unfold warmUnit; (repeat' (first | with_reducible assumption | with_reducible apply UKept.getBind | with_reducible apply UKept.read | with_reducible apply UKept.get | with_reducible apply UKept.pure | with_reducible apply UKept.throw | with_reducible apply UKept.throwOf | with_reducible apply UKept.modify | with_reducible apply UKept.set | with_reducible apply UKept.of_U_access | with_reducible apply UKept.withReader | with_reducible apply UKept.forM | with_reducible apply UKept.mapM | with_reducible apply UKept.flatMapM | with_reducible apply UKept.bind | with_reducible apply UKept.ite | with_reducible apply Kept.foldl | with_reducible apply Kept.ite | with_reducible apply Kept.ite_snd | with_reducible apply Kept.ite_fst | with_reducible apply Kept.ite_snd2 | split | intro _ | (dsimp only; done) | dsimp only | with_reducible exact UKept.pure)); done)

theorem UKept.of_U_permCtl {s : State} {c : Cmd} {perm : Bool} {k : Nat} : UKept s (U.permCtl c perm k) := by
  (unfold U.permCtl; (repeat' (first | with_reducible assumption | with_reducible apply UKept.getBind | with_reducible apply UKept.read | with_reducible apply UKept.get | with_reducible apply UKept.pure | with_reducible apply UKept.throw | with_reducible apply UKept.throwOf | with_reducible apply UKept.modify | with_reducible apply UKept.set | with_reducible apply UKept.of_U_exec | with_reducible apply UKept.of_U_readVa | with_reducible apply UKept.withReader | with_reducible apply UKept.forM | with_reducible apply UKept.mapM | with_reducible apply UKept.flatMapM | with_reducible apply UKept.bind | with_reducible apply UKept.ite | with_reducible apply Kept.foldl | with_reducible apply Kept.ite | with_reducible apply Kept.ite_snd | with_reducible apply Kept.ite_fst | with_reducible apply Kept.ite_snd2 | split | intro _ | (dsimp only; done) | dsimp only | with_reducible exact UKept.pure)); done)

theorem UKept.of_U_tokens {s : State} {p : PermCtl} : UKept s (U.tokens p) := by
  (unfold U.tokens; (repeat' (first | with_reducible assumption | with_reducible apply UKept.getBind | with_reducible apply UKept.read | with_reducible apply UKept.get | with_reducible apply UKept.pure | with_reducible apply UKept.throw | with_reducible apply UKept.throwOf | with_reducible apply UKept.modify | with_reducible apply UKept.set | with_reducible apply UKept.of_U_numVa | with_reducible apply UKept.of_U_readVa | with_reducible apply UKept.withReader | with_reducible apply UKept.forM | with_reducible apply UKept.mapM | with_reducible apply UKept.flatMapM | with_reducible apply UKept.bind | with_reducible apply UKept.ite | with_reducible apply Kept.foldl | with_reducible apply Kept.ite | with_reducible apply Kept.ite_snd | with_reducible apply Kept.ite_fst | with_reducible apply Kept.ite_snd2 | split | intro _ | (dsimp only; done) | dsimp only | with_reducible exact UKept.pure)); done)

theorem UKept.of_U_checkRecords {s : State} {p : PermCtl} {ts : List Token} : UKept s (U.checkRecords p ts) := by
  (unfold U.checkRecords; (repeat' (first | with_reducible assumption | with_reducible apply UKept.getBind | with_reducible apply UKept.read | with_reducible apply UKept.get | with_reducible apply UKept.pure | with_reducible apply UKept.throw | with_reducible apply UKept.throwOf | with_reducible apply UKept.modify | with_reducible apply UKept.set | with_reducible apply UKept.of_U_exec | with_reducible apply UKept.withReader | with_reducible apply UKept.forM | with_reducible apply UKept.mapM | with_reducible apply UKept.flatMapM | with_reducible apply UKept.bind | with_reducible apply UKept.ite | with_reducible apply Kept.foldl | with_reducible apply Kept.ite | with_reducible apply Kept.ite_snd | with_reducible apply Kept.ite_fst | with_reducible apply Kept.ite_snd2 | split | intro _ | (dsimp only; done) | dsimp only | with_reducible exact UKept.pure)); done)

theorem UKept.of_U_permRow {s : State} {p : PermCtl} {r : Nat} {tok : Option Nat} : UKept s (U.permRow p r tok) := by
  (unfold U.permRow; (repeat' (first | with_reducible assumption | with_reducible apply UKept.getBind | with_reducible apply UKept.read | with_reducible apply UKept.get | with_reducible apply UKept.pure | with_reducible apply UKept.throw | with_reducible apply UKept.throwOf | with_reducible apply UKept.modify | with_reducible apply UKept.set | with_reducible apply UKept.of_U_checkWrite | with_reducible apply UKept.of_U_readVa | with_reducible apply UKept.of_U_write | with_reducible apply UKept.withReader | with_reducible apply UKept.forM | with_reducible apply UKept.mapM | with_reducible apply UKept.flatMapM | with_reducible apply UKept.bind | with_reducible apply UKept.ite | with_reducible apply Kept.after_write | with_reducible apply Kept.foldl | with_reducible apply Kept.ite | with_reducible apply Kept.ite_snd | with_reducible apply Kept.ite_fst | with_reducible apply Kept.ite_snd2 | split | intro _ | (dsimp only; done) | dsimp only | with_reducible exact UKept.pure)); done)

theorem Kept.after_handExperts {s t : State} {part : Nat} {p : PermCtl} {gs : List (List Nat × Nat)} (h : Kept s t) : Kept s (State.handExperts t part p gs) := by
  (unfold State.handExperts; split <;> simp +contextual (maxDischargeDepth := 100) only [h, Kept.mk_iff, Kept.pending, Kept.fuses, Kept.free, Kept.mem, Kept.regs, Kept.flash, and_self]; done)

theorem UKept.of_permFirst {s : State} {c : Cmd} : UKept s (permFirst c) := by
  (unfold permFirst; (repeat' (first | with_reducible assumption | with_reducible apply UKept.getBind | with_reducible apply UKept.read | with_reducible apply UKept.get | with_reducible apply UKept.pure | with_reducible apply UKept.throw | with_reducible apply UKept.throwOf | with_reducible apply UKept.modify | with_reducible apply UKept.set | with_reducible apply UKept.of_U_change | with_reducible apply UKept.of_U_checkRecords | with_reducible apply UKept.of_U_checkWrite | with_reducible apply UKept.of_U_permCtl | with_reducible apply UKept.of_U_permRow | with_reducible apply UKept.of_U_tokens | with_reducible apply UKept.of_U_write | with_reducible apply UKept.withReader | with_reducible apply UKept.forM | with_reducible apply UKept.mapM | with_reducible apply UKept.flatMapM | with_reducible apply UKept.bind | with_reducible apply UKept.ite | with_reducible apply Kept.after_add64 | with_reducible apply Kept.after_handExperts | with_reducible apply Kept.after_write | with_reducible apply Kept.foldl | with_reducible apply Kept.ite | with_reducible apply Kept.ite_snd | with_reducible apply Kept.ite_fst | with_reducible apply Kept.ite_snd2 | split | intro _ | (dsimp only; done) | dsimp only | with_reducible exact UKept.pure)); done)

theorem UKept.of_permNext {s : State} {c : Cmd} {r : Nat} : UKept s (permNext c r) := by
  (unfold permNext; (repeat' (first | with_reducible assumption | with_reducible apply UKept.getBind | with_reducible apply UKept.read | with_reducible apply UKept.get | with_reducible apply UKept.pure | with_reducible apply UKept.throw | with_reducible apply UKept.throwOf | with_reducible apply UKept.modify | with_reducible apply UKept.set | with_reducible apply UKept.of_U_permCtl | with_reducible apply UKept.of_U_permRow | with_reducible apply UKept.of_U_readVa | with_reducible apply UKept.of_U_tokens | with_reducible apply UKept.withReader | with_reducible apply UKept.forM | with_reducible apply UKept.mapM | with_reducible apply UKept.flatMapM | with_reducible apply UKept.bind | with_reducible apply UKept.ite | with_reducible apply Kept.foldl | with_reducible apply Kept.ite | with_reducible apply Kept.ite_snd | with_reducible apply Kept.ite_fst | with_reducible apply Kept.ite_snd2 | split | intro _ | (dsimp only; done) | dsimp only | with_reducible exact UKept.pure)); done)

theorem UKept.of_permUnit {s : State} {c : Cmd} {k : Nat} : UKept s (permUnit c k) := by
  (unfold permUnit; (repeat' (first | with_reducible assumption | with_reducible apply UKept.getBind | with_reducible apply UKept.read | with_reducible apply UKept.get | with_reducible apply UKept.pure | with_reducible apply UKept.throw | with_reducible apply UKept.throwOf | with_reducible apply UKept.modify | with_reducible apply UKept.set | with_reducible apply UKept.of_permFirst | with_reducible apply UKept.of_permNext | with_reducible apply UKept.withReader | with_reducible apply UKept.forM | with_reducible apply UKept.mapM | with_reducible apply UKept.flatMapM | with_reducible apply UKept.bind | with_reducible apply UKept.ite | with_reducible apply Kept.foldl | with_reducible apply Kept.ite | with_reducible apply Kept.ite_snd | with_reducible apply Kept.ite_fst | with_reducible apply Kept.ite_snd2 | split | intro _ | (dsimp only; done) | dsimp only | with_reducible exact UKept.pure)); done)

theorem UKept.of_U_permNotice {s : State} {c : Cmd} : UKept s (U.permNotice c) := by
  (unfold U.permNotice; (repeat' (first | with_reducible assumption | with_reducible apply UKept.getBind | with_reducible apply UKept.read | with_reducible apply UKept.get | with_reducible apply UKept.pure | with_reducible apply UKept.throw | with_reducible apply UKept.throwOf | with_reducible apply UKept.modify | with_reducible apply UKept.set | with_reducible apply UKept.of_U_permCtl | with_reducible apply UKept.of_U_readVa | with_reducible apply UKept.withReader | with_reducible apply UKept.forM | with_reducible apply UKept.mapM | with_reducible apply UKept.flatMapM | with_reducible apply UKept.bind | with_reducible apply UKept.ite | with_reducible apply Kept.foldl | with_reducible apply Kept.ite | with_reducible apply Kept.ite_snd | with_reducible apply Kept.ite_fst | with_reducible apply Kept.ite_snd2 | split | intro _ | (dsimp only; done) | dsimp only | with_reducible exact UKept.pure)); done)

theorem UKept.of_unpermUnit {s : State} {c : Cmd} {t : Nat} : UKept s (unpermUnit c t) := by
  (unfold unpermUnit; (repeat' (first | with_reducible assumption | with_reducible apply UKept.getBind | with_reducible apply UKept.read | with_reducible apply UKept.get | with_reducible apply UKept.pure | with_reducible apply UKept.throw | with_reducible apply UKept.throwOf | with_reducible apply UKept.modify | with_reducible apply UKept.set | with_reducible apply UKept.of_U_checkWrite | with_reducible apply UKept.of_U_exec | with_reducible apply UKept.of_U_permCtl | with_reducible apply UKept.of_U_readVa | with_reducible apply UKept.of_U_tokens | with_reducible apply UKept.of_U_write | with_reducible apply UKept.withReader | with_reducible apply UKept.forM | with_reducible apply UKept.mapM | with_reducible apply UKept.flatMapM | with_reducible apply UKept.bind | with_reducible apply UKept.ite | with_reducible apply Kept.after_write | with_reducible apply Kept.foldl | with_reducible apply Kept.ite | with_reducible apply Kept.ite_snd | with_reducible apply Kept.ite_fst | with_reducible apply Kept.ite_snd2 | split | intro _ | (dsimp only; done) | dsimp only | with_reducible exact UKept.pure)); done)

theorem Kept.after_expStatus {s t : State} {f : Field} (h : Kept s t) : Kept s (State.expStatus t f) := by
  ((try unfold State.expStatus); (try simp only []); (repeat' (first | (simp +contextual (maxDischargeDepth := 100) only [h, Kept.after_interruptIf, Kept.after_setFlag]; done) | split | with_reducible assumption | with_reducible apply Kept.after_interruptIf | with_reducible apply Kept.after_setFlag | with_reducible apply Kept.foldl | with_reducible apply Kept.ite | with_reducible apply Kept.ite_snd | with_reducible apply Kept.ite_fst | with_reducible apply Kept.ite_snd2 | intro _)); done)

theorem Kept.after_residencyLookup {s t : State}  (h : Kept s t) : Kept s (residencyLookup t) := by
  (unfold residencyLookup; split <;> simp +contextual (maxDischargeDepth := 100) only [h, Kept.after_add64, Kept.after_expStatus, Kept.after_pass, Kept.after_writeNum, Kept.mk_iff, Kept.pending, Kept.fuses, Kept.free, Kept.mem, Kept.regs, Kept.flash, Kept.ite, and_self]; done)

theorem Kept.after_residencyClose {s t : State} {i : Nat} (h : Kept s t) : Kept s (residencyClose i t) := by
  (unfold residencyClose; split <;> simp +contextual (maxDischargeDepth := 100) only [h, Kept.after_expStatus, Kept.after_pass, Kept.after_writeNum, Kept.mk_iff, Kept.pending, Kept.fuses, Kept.free, Kept.mem, Kept.regs, Kept.flash, Kept.ite, and_self]; done)

theorem UKept.of_U_kvCtx {s : State} {va : Nat} {g : KvGeo} {layer : Nat} : UKept s (U.kvCtx va g layer) := by
  (unfold U.kvCtx; (repeat' (first | with_reducible assumption | with_reducible apply UKept.getBind | with_reducible apply UKept.read | with_reducible apply UKept.get | with_reducible apply UKept.pure | with_reducible apply UKept.throw | with_reducible apply UKept.throwOf | with_reducible apply UKept.modify | with_reducible apply UKept.set | with_reducible apply UKept.of_U_exec | with_reducible apply UKept.of_U_readVa | with_reducible apply UKept.withReader | with_reducible apply UKept.forM | with_reducible apply UKept.mapM | with_reducible apply UKept.flatMapM | with_reducible apply UKept.bind | with_reducible apply UKept.ite | with_reducible apply Kept.foldl | with_reducible apply Kept.ite | with_reducible apply Kept.ite_snd | with_reducible apply Kept.ite_fst | with_reducible apply Kept.ite_snd2 | split | intro _ | (dsimp only; done) | dsimp only | with_reducible exact UKept.pure)); done)

theorem UKept.of_U_kvRow {s : State} {c : KvCtx} {g : KvGeo} {layer pos : Nat} : UKept s (U.kvRow c g layer pos) := by
  (unfold U.kvRow; (repeat' (first | with_reducible assumption | with_reducible apply UKept.getBind | with_reducible apply UKept.read | with_reducible apply UKept.get | with_reducible apply UKept.pure | with_reducible apply UKept.throw | with_reducible apply UKept.throwOf | with_reducible apply UKept.modify | with_reducible apply UKept.set | with_reducible apply UKept.of_U_exec | with_reducible apply UKept.of_U_numVa | with_reducible apply UKept.withReader | with_reducible apply UKept.forM | with_reducible apply UKept.mapM | with_reducible apply UKept.flatMapM | with_reducible apply UKept.bind | with_reducible apply UKept.ite | with_reducible apply Kept.foldl | with_reducible apply Kept.ite | with_reducible apply Kept.ite_snd | with_reducible apply Kept.ite_fst | with_reducible apply Kept.ite_snd2 | split | intro _ | (dsimp only; done) | dsimp only | with_reducible exact UKept.pure)); done)

theorem UKept.of_U_appendCtl {s : State} {c : Cmd} {r : Nat} : UKept s (U.appendCtl c r) := by
  (unfold U.appendCtl; (repeat' (first | with_reducible assumption | with_reducible apply UKept.getBind | with_reducible apply UKept.read | with_reducible apply UKept.get | with_reducible apply UKept.pure | with_reducible apply UKept.throw | with_reducible apply UKept.throwOf | with_reducible apply UKept.modify | with_reducible apply UKept.set | with_reducible apply UKept.of_U_exec | with_reducible apply UKept.of_U_readVa | with_reducible apply UKept.withReader | with_reducible apply UKept.forM | with_reducible apply UKept.mapM | with_reducible apply UKept.flatMapM | with_reducible apply UKept.bind | with_reducible apply UKept.ite | with_reducible apply Kept.foldl | with_reducible apply Kept.ite | with_reducible apply Kept.ite_snd | with_reducible apply Kept.ite_fst | with_reducible apply Kept.ite_snd2 | split | intro _ | (dsimp only; done) | dsimp only | with_reducible exact UKept.pure)); done)

theorem UKept.of_U_appendEntry {s : State} {a : AppendCtl} {r : Nat} : UKept s (U.appendEntry a r) := by
  (unfold U.appendEntry; (repeat' (first | with_reducible assumption | with_reducible apply UKept.getBind | with_reducible apply UKept.read | with_reducible apply UKept.get | with_reducible apply UKept.pure | with_reducible apply UKept.throw | with_reducible apply UKept.throwOf | with_reducible apply UKept.modify | with_reducible apply UKept.set | with_reducible apply UKept.of_U_readVa | with_reducible apply UKept.withReader | with_reducible apply UKept.forM | with_reducible apply UKept.mapM | with_reducible apply UKept.flatMapM | with_reducible apply UKept.bind | with_reducible apply UKept.ite | with_reducible apply Kept.foldl | with_reducible apply Kept.ite | with_reducible apply Kept.ite_snd | with_reducible apply Kept.ite_fst | with_reducible apply Kept.ite_snd2 | split | intro _ | (dsimp only; done) | dsimp only | with_reducible exact UKept.pure)); done)

theorem UKept.of_U_appendLength {s : State} {c : Cmd} {r : Nat} : UKept s (U.appendLength c r) := by
  (unfold U.appendLength; (repeat' (first | with_reducible assumption | with_reducible apply UKept.getBind | with_reducible apply UKept.read | with_reducible apply UKept.get | with_reducible apply UKept.pure | with_reducible apply UKept.throw | with_reducible apply UKept.throwOf | with_reducible apply UKept.modify | with_reducible apply UKept.set | with_reducible apply UKept.of_U_appendCtl | with_reducible apply UKept.of_U_appendEntry | with_reducible apply UKept.of_U_kvCtx | with_reducible apply UKept.withReader | with_reducible apply UKept.forM | with_reducible apply UKept.mapM | with_reducible apply UKept.flatMapM | with_reducible apply UKept.bind | with_reducible apply UKept.ite | with_reducible apply Kept.foldl | with_reducible apply Kept.ite | with_reducible apply Kept.ite_snd | with_reducible apply Kept.ite_fst | with_reducible apply Kept.ite_snd2 | split | intro _ | (dsimp only; done) | dsimp only | with_reducible exact UKept.pure)); done)

theorem UKept.of_appendUnit {s : State} {c : Cmd} {r : Nat} : UKept s (appendUnit c r) := by
  (unfold appendUnit; (repeat' (first | with_reducible assumption | with_reducible apply UKept.getBind | with_reducible apply UKept.read | with_reducible apply UKept.get | with_reducible apply UKept.pure | with_reducible apply UKept.throw | with_reducible apply UKept.throwOf | with_reducible apply UKept.modify | with_reducible apply UKept.set | with_reducible apply UKept.of_U_appendCtl | with_reducible apply UKept.of_U_appendEntry | with_reducible apply UKept.of_U_checkWrite | with_reducible apply UKept.of_U_exec | with_reducible apply UKept.of_U_kvCtx | with_reducible apply UKept.of_U_kvRow | with_reducible apply UKept.of_U_readVa | with_reducible apply UKept.of_U_write | with_reducible apply UKept.withReader | with_reducible apply UKept.forM | with_reducible apply UKept.mapM | with_reducible apply UKept.flatMapM | with_reducible apply UKept.bind | with_reducible apply UKept.ite | with_reducible apply Kept.after_write | with_reducible apply Kept.foldl | with_reducible apply Kept.ite | with_reducible apply Kept.ite_snd | with_reducible apply Kept.ite_fst | with_reducible apply Kept.ite_snd2 | split | intro _ | (dsimp only; done) | dsimp only | with_reducible exact UKept.pure)); done)

theorem UKept.of_U_kvCtl {s : State} {c : Cmd} {n : Nat} : UKept s (U.kvCtl c n) := by
  (unfold U.kvCtl; (repeat' (first | with_reducible assumption | with_reducible apply UKept.getBind | with_reducible apply UKept.read | with_reducible apply UKept.get | with_reducible apply UKept.pure | with_reducible apply UKept.throw | with_reducible apply UKept.throwOf | with_reducible apply UKept.modify | with_reducible apply UKept.set | with_reducible apply UKept.of_U_exec | with_reducible apply UKept.of_U_readVa | with_reducible apply UKept.withReader | with_reducible apply UKept.forM | with_reducible apply UKept.mapM | with_reducible apply UKept.flatMapM | with_reducible apply UKept.bind | with_reducible apply UKept.ite | with_reducible apply Kept.foldl | with_reducible apply Kept.ite | with_reducible apply Kept.ite_snd | with_reducible apply Kept.ite_fst | with_reducible apply Kept.ite_snd2 | split | intro _ | (dsimp only; done) | dsimp only | with_reducible exact UKept.pure)); done)

theorem UKept.of_U_kvPos {s : State} {k : KvCtl} {ctx : Option KvCtx} {pos : Nat} : UKept s (U.kvPos k ctx pos) := by
  (unfold U.kvPos; (repeat' (first | with_reducible assumption | with_reducible apply UKept.getBind | with_reducible apply UKept.read | with_reducible apply UKept.get | with_reducible apply UKept.pure | with_reducible apply UKept.throw | with_reducible apply UKept.throwOf | with_reducible apply UKept.modify | with_reducible apply UKept.set | with_reducible apply UKept.of_U_change | with_reducible apply UKept.of_U_kvRow | with_reducible apply UKept.of_U_readVa | with_reducible apply UKept.withReader | with_reducible apply UKept.forM | with_reducible apply UKept.mapM | with_reducible apply UKept.flatMapM | with_reducible apply UKept.bind | with_reducible apply UKept.ite | with_reducible apply Kept.after_took | with_reducible apply Kept.foldl | with_reducible apply Kept.ite | with_reducible apply Kept.ite_snd | with_reducible apply Kept.ite_fst | with_reducible apply Kept.ite_snd2 | split | intro _ | (dsimp only; done) | dsimp only | with_reducible exact UKept.pure)); done)

theorem UKept.of_U_scoreBlock {s : State} {k : KvCtl} {ctx : Option KvCtx} {c : Nat} : UKept s (U.scoreBlock k ctx c) := by
  (unfold U.scoreBlock; (repeat' (first | with_reducible assumption | with_reducible apply UKept.getBind | with_reducible apply UKept.read | with_reducible apply UKept.get | with_reducible apply UKept.pure | with_reducible apply UKept.throw | with_reducible apply UKept.throwOf | with_reducible apply UKept.modify | with_reducible apply UKept.set | with_reducible apply UKept.of_U_kvPos | with_reducible apply UKept.withReader | with_reducible apply UKept.forM | with_reducible apply UKept.mapM | with_reducible apply UKept.flatMapM | with_reducible apply UKept.bind | with_reducible apply UKept.ite | with_reducible apply Kept.foldl | with_reducible apply Kept.ite | with_reducible apply Kept.ite_snd | with_reducible apply Kept.ite_fst | with_reducible apply Kept.ite_snd2 | split | intro _ | (dsimp only; done) | dsimp only | with_reducible exact UKept.pure)); done)

theorem UKept.of_U_valueBlock {s : State} {k : KvCtl} {ctx : Option KvCtx} {c : Nat} : UKept s (U.valueBlock k ctx c) := by
  (unfold U.valueBlock; (repeat' (first | with_reducible assumption | with_reducible apply UKept.getBind | with_reducible apply UKept.read | with_reducible apply UKept.get | with_reducible apply UKept.pure | with_reducible apply UKept.throw | with_reducible apply UKept.throwOf | with_reducible apply UKept.modify | with_reducible apply UKept.set | with_reducible apply UKept.of_U_kvPos | with_reducible apply UKept.withReader | with_reducible apply UKept.forM | with_reducible apply UKept.mapM | with_reducible apply UKept.flatMapM | with_reducible apply UKept.bind | with_reducible apply UKept.ite | with_reducible apply Kept.foldl | with_reducible apply Kept.ite | with_reducible apply Kept.ite_snd | with_reducible apply Kept.ite_fst | with_reducible apply Kept.ite_snd2 | split | intro _ | (dsimp only; done) | dsimp only | with_reducible exact UKept.pure)); done)

theorem UKept.of_U_maskRow {s : State} {k : KvCtl} {r : Nat} : UKept s (U.maskRow k r) := by
  (unfold U.maskRow; (repeat' (first | with_reducible assumption | with_reducible apply UKept.getBind | with_reducible apply UKept.read | with_reducible apply UKept.get | with_reducible apply UKept.pure | with_reducible apply UKept.throw | with_reducible apply UKept.throwOf | with_reducible apply UKept.modify | with_reducible apply UKept.set | with_reducible apply UKept.of_U_numVa | with_reducible apply UKept.of_U_readVa | with_reducible apply UKept.withReader | with_reducible apply UKept.forM | with_reducible apply UKept.mapM | with_reducible apply UKept.flatMapM | with_reducible apply UKept.bind | with_reducible apply UKept.ite | with_reducible apply Kept.foldl | with_reducible apply Kept.ite | with_reducible apply Kept.ite_snd | with_reducible apply Kept.ite_fst | with_reducible apply Kept.ite_snd2 | split | intro _ | (dsimp only; done) | dsimp only | with_reducible exact UKept.pure)); done)

theorem UKept.of_kvUnit {s : State} {c : Cmd} {n : Nat} : UKept s (kvUnit c n) := by
  (unfold kvUnit; (repeat' (first | with_reducible assumption | with_reducible apply UKept.getBind | with_reducible apply UKept.read | with_reducible apply UKept.get | with_reducible apply UKept.pure | with_reducible apply UKept.throw | with_reducible apply UKept.throwOf | with_reducible apply UKept.modify | with_reducible apply UKept.set | with_reducible apply UKept.of_U_deliver | with_reducible apply UKept.of_U_kvCtl | with_reducible apply UKept.of_U_kvCtx | with_reducible apply UKept.of_U_maskRow | with_reducible apply UKept.of_U_scoreBlock | with_reducible apply UKept.of_U_valueBlock | with_reducible apply UKept.withReader | with_reducible apply UKept.forM | with_reducible apply UKept.mapM | with_reducible apply UKept.flatMapM | with_reducible apply UKept.bind | with_reducible apply UKept.ite | with_reducible apply Kept.foldl | with_reducible apply Kept.ite | with_reducible apply Kept.ite_snd | with_reducible apply Kept.ite_fst | with_reducible apply Kept.ite_snd2 | split | intro _ | (dsimp only; done) | dsimp only | with_reducible exact UKept.pure)); done)

theorem Kept.after_engineWindow {s t u : State} {m p pa : Nat} {d : List Byte} {r : PortResult} {b : List Byte} (h : Kept s t)
    (hu : t.engineWindow m p pa d = some (r, b, u)) : Kept s u := by
  unfold State.engineWindow at hu
  split at hu
  · next off _ =>
    have hw : Kept s (t.window off (0x40 + m) (some p) (.write d) .clean).2.2 := Kept.after_window h
    rw [Option.some.injEq] at hu
    rw [hu] at hw
    exact hw
  · cases hu

theorem Kept.after_engineWrite {s t : State} {key : Nat × Nat × Nat × Nat} {m p pa : Nat} {d : List Byte} (h : Kept s t) : Kept s (State.engineWrite t key m p pa d) := by
  (unfold State.engineWrite; split <;> simp +contextual (maxDischargeDepth := 100) only [h, Kept.after_ask, Kept.after_hole, Kept.after_homeAccess, Kept.after_sendRequest, Kept.after_window]; done)

theorem Kept.after_engineFault {s t : State} {m p va : Nat} {f : XlateFault} (h : Kept s t) : Kept s ((State.engineFault t m p va f).2) := by
  (unfold State.engineFault; split <;> simp +contextual (maxDischargeDepth := 100) only [h, Kept.after_raiseXlate]; done)

theorem Kept.after_engineWrites {s t : State} {key : Nat × Nat × Nat × Nat} {m p table : Nat} {ws : List (Nat × List Byte)} (h : Kept s t) : Kept s ((State.engineWrites t key m p table ws).2) := by
  unfold State.engineWrites
  have hf : ∀ l : List Nat, Kept s (l.foldl (fun s va => (s.walkRead table va).2) t) := fun l => Kept.foldl h (fun t x ht => Kept.after_walkRead ht)
  dsimp only
  split
  · exact h
  have h' := hf ((ws.flatMap (fun w => unitsAt (w.2.length / 128 + 2) w.1 w.2)).map (fun u => u.1 / 2 ^ 16 * 2 ^ 16)).eraseDups
  clear hf
  split
  · dsimp only; exact Kept.after_startFetch h'
  · exact Kept.after_engineFault h'
  · split
    · next hw => exact Kept.after_engineFault (Kept.after_engineWindow h' hw)
    · next hw => exact Kept.after_engineFault (Kept.after_engineWindow h' hw)
    · exact h'
  · refine Kept.foldl h' (fun t x ht => ?_)
    split
    · exact Kept.after_engineWrite ht
    · exact ht

theorem Kept.after_putColl {s t : State} {c : Collective} (h : Kept s t) : Kept s (State.putColl t c) := by
  ((try unfold State.putColl); (try simp only []); (repeat' (first | (simp +contextual (maxDischargeDepth := 100) only [h, Kept.mk_iff, Kept.pending, Kept.fuses, Kept.free, Kept.mem, Kept.regs, Kept.flash, and_self]; done) | split | with_reducible assumption | with_reducible apply Kept.foldl | with_reducible apply Kept.ite | with_reducible apply Kept.ite_snd | with_reducible apply Kept.ite_fst | with_reducible apply Kept.ite_snd2 | intro _)); done)

theorem Kept.after_reduced {s t : State} {c : Collective} (h : Kept s t) : Kept s ((State.reduced t c).2) := by
  (unfold State.reduced; split <;> simp +contextual (maxDischargeDepth := 100) only [h, Kept.after_took]; done)

theorem Kept.after_sendColl {s t : State} {c : Collective} {dest : Nat} {header : Bool} {off : Nat} {d : List Byte} (h : Kept s t) : Kept s (State.sendColl t c dest header off d) := by
  ((try unfold State.sendColl); (try simp only []); (repeat' (first | (simp +contextual (maxDischargeDepth := 100) only [h, Kept.after_sendPacket]; done) | split | with_reducible assumption | with_reducible apply Kept.after_sendPacket | with_reducible apply Kept.foldl | with_reducible apply Kept.ite | with_reducible apply Kept.ite_snd | with_reducible apply Kept.ite_fst | with_reducible apply Kept.ite_snd2 | intro _)); done)

theorem Kept.after_sendBlock {s t : State} {c : Collective} {dest base : Nat} {d : List Byte} (h : Kept s t) : Kept s (State.sendBlock t c dest base d) := by
  ((try unfold State.sendBlock); (try simp only []); (repeat' (first | (simp +contextual (maxDischargeDepth := 100) only [h, Kept.after_sendColl, Kept.foldl, implies_true]; done) | split | with_reducible assumption | with_reducible apply Kept.after_sendColl | with_reducible apply Kept.foldl | with_reducible apply Kept.ite | with_reducible apply Kept.ite_snd | with_reducible apply Kept.ite_fst | with_reducible apply Kept.ite_snd2 | intro _)); done)

theorem Kept.after_addRecord {s t : State} {r : CollRecord} (h : Kept s t) : Kept s (State.addRecord t r) := by
  ((try unfold State.addRecord); (try simp only []); (repeat' (first | (simp +contextual (maxDischargeDepth := 100) only [h, Kept.mk_iff, Kept.pending, Kept.fuses, Kept.free, Kept.mem, Kept.regs, Kept.flash, and_self]; done) | split | with_reducible assumption | with_reducible apply Kept.foldl | with_reducible apply Kept.ite | with_reducible apply Kept.ite_snd | with_reducible apply Kept.ite_fst | with_reducible apply Kept.ite_snd2 | intro _)); done)

theorem Kept.after_collEnd {s t : State} {c : Collective} {aborted keep : Bool} (h : Kept s t) : Kept s (State.collEnd t c aborted keep) := by
  (unfold State.collEnd; split <;> simp +contextual (maxDischargeDepth := 100) only [h, Kept.after_addRecord, Kept.after_modMover, Kept.mk_iff, Kept.pending, Kept.fuses, Kept.free, Kept.mem, Kept.regs, Kept.flash, and_self]; done)

theorem Kept.after_collAbort {s t : State} {c : Collective} {keep : Bool} (h : Kept s t) : Kept s (State.collAbort t c keep) := by
  (unfold State.collAbort; split <;> simp +contextual (maxDischargeDepth := 100) only [h, Kept.after_markStep, Kept.after_putColl]; done)

theorem Kept.after_collAdvance {s t : State} {k : Nat × Nat × Nat × Nat} (h : Kept s t) : Kept s (State.collAdvance t k) := by
  (unfold State.collAdvance; split <;> simp +contextual (maxDischargeDepth := 100) only [h, Kept.after_collAbort, Kept.after_putColl, Kept.after_reduced, Kept.after_sendBlock, Kept.foldl, Kept.ite, implies_true]; done)

theorem UKept.of_U_exNum {s : State} {c : Collective} {k : Nat} : UKept s (U.exNum c k) := by
  (unfold U.exNum; (repeat' (first | with_reducible assumption | with_reducible apply UKept.getBind | with_reducible apply UKept.read | with_reducible apply UKept.get | with_reducible apply UKept.pure | with_reducible apply UKept.throw | with_reducible apply UKept.throwOf | with_reducible apply UKept.modify | with_reducible apply UKept.set | with_reducible apply UKept.of_U_numVa | with_reducible apply UKept.withReader | with_reducible apply UKept.forM | with_reducible apply UKept.mapM | with_reducible apply UKept.flatMapM | with_reducible apply UKept.bind | with_reducible apply UKept.ite | with_reducible apply Kept.foldl | with_reducible apply Kept.ite | with_reducible apply Kept.ite_snd | with_reducible apply Kept.ite_fst | with_reducible apply Kept.ite_snd2 | split | intro _ | (dsimp only; done) | dsimp only | with_reducible exact UKept.pure)); done)

theorem UKept.of_U_exEntry {s : State} {groups ebase e : Nat} : UKept s (U.exEntry groups ebase e) := by
  (unfold U.exEntry; (repeat' (first | with_reducible assumption | with_reducible apply UKept.getBind | with_reducible apply UKept.read | with_reducible apply UKept.get | with_reducible apply UKept.pure | with_reducible apply UKept.throw | with_reducible apply UKept.throwOf | with_reducible apply UKept.modify | with_reducible apply UKept.set | with_reducible apply UKept.of_U_readVa | with_reducible apply UKept.withReader | with_reducible apply UKept.forM | with_reducible apply UKept.mapM | with_reducible apply UKept.flatMapM | with_reducible apply UKept.bind | with_reducible apply UKept.ite | with_reducible apply Kept.foldl | with_reducible apply Kept.ite | with_reducible apply Kept.ite_snd | with_reducible apply Kept.ite_fst | with_reducible apply Kept.ite_snd2 | split | intro _ | (dsimp only; done) | dsimp only | with_reducible exact UKept.pure)); done)

theorem UKept.of_U_exchange {s : State} {c : Collective} {n own : Nat} : UKept s (U.exchange c n own) := by
  (unfold U.exchange; (repeat' (first | with_reducible assumption | with_reducible apply UKept.getBind | with_reducible apply UKept.read | with_reducible apply UKept.get | with_reducible apply UKept.pure | with_reducible apply UKept.throw | with_reducible apply UKept.throwOf | with_reducible apply UKept.modify | with_reducible apply UKept.set | with_reducible apply UKept.of_U_exEntry | with_reducible apply UKept.of_U_exNum | with_reducible apply UKept.of_U_readVa | with_reducible apply UKept.of_U_tokens | with_reducible apply UKept.withReader | with_reducible apply UKept.forM | with_reducible apply UKept.mapM | with_reducible apply UKept.flatMapM | with_reducible apply UKept.bind | with_reducible apply UKept.ite | with_reducible apply Kept.foldl | with_reducible apply Kept.ite | with_reducible apply Kept.ite_snd | with_reducible apply Kept.ite_fst | with_reducible apply Kept.ite_snd2 | split | intro _ | (dsimp only; done) | dsimp only | with_reducible exact UKept.pure)); done)

theorem UKept.of_U_dispatchBlock {s : State} {c : Collective} {x : Exchange} {own r : Nat} : UKept s (U.dispatchBlock c x own r) := by
  (unfold U.dispatchBlock; (repeat' (first | with_reducible assumption | with_reducible apply UKept.getBind | with_reducible apply UKept.read | with_reducible apply UKept.get | with_reducible apply UKept.pure | with_reducible apply UKept.throw | with_reducible apply UKept.throwOf | with_reducible apply UKept.modify | with_reducible apply UKept.set | with_reducible apply UKept.of_U_exEntry | with_reducible apply UKept.of_U_exNum | with_reducible apply UKept.of_U_readVa | with_reducible apply UKept.withReader | with_reducible apply UKept.forM | with_reducible apply UKept.mapM | with_reducible apply UKept.flatMapM | with_reducible apply UKept.bind | with_reducible apply UKept.ite | with_reducible apply Kept.foldl | with_reducible apply Kept.ite | with_reducible apply Kept.ite_snd | with_reducible apply Kept.ite_fst | with_reducible apply Kept.ite_snd2 | split | intro _ | (dsimp only; done) | dsimp only | with_reducible exact UKept.pure)); done)

theorem UKept.of_U_returnBlock {s : State} {c : Collective} {x : Exchange} {own ownRank n r : Nat} : UKept s (U.returnBlock c x own ownRank n r) := by
  (unfold U.returnBlock; (repeat' (first | with_reducible assumption | with_reducible apply UKept.getBind | with_reducible apply UKept.read | with_reducible apply UKept.get | with_reducible apply UKept.pure | with_reducible apply UKept.throw | with_reducible apply UKept.throwOf | with_reducible apply UKept.modify | with_reducible apply UKept.set | with_reducible apply UKept.of_U_numVa | with_reducible apply UKept.of_U_readVa | with_reducible apply UKept.withReader | with_reducible apply UKept.forM | with_reducible apply UKept.mapM | with_reducible apply UKept.flatMapM | with_reducible apply UKept.bind | with_reducible apply UKept.ite | with_reducible apply Kept.foldl | with_reducible apply Kept.ite | with_reducible apply Kept.ite_snd | with_reducible apply Kept.ite_fst | with_reducible apply Kept.ite_snd2 | split | intro _ | (dsimp only; done) | dsimp only | with_reducible exact UKept.pure)); done)

theorem UKept.of_U_block {s : State} {c : Collective} {ex : Option Exchange} {own ownRank n r : Nat} : UKept s (U.block c ex own ownRank n r) := by
  (unfold U.block; (repeat' (first | with_reducible assumption | with_reducible apply UKept.getBind | with_reducible apply UKept.read | with_reducible apply UKept.get | with_reducible apply UKept.pure | with_reducible apply UKept.throw | with_reducible apply UKept.throwOf | with_reducible apply UKept.modify | with_reducible apply UKept.set | with_reducible apply UKept.of_U_dispatchBlock | with_reducible apply UKept.of_U_numVa | with_reducible apply UKept.of_U_readVa | with_reducible apply UKept.of_U_returnBlock | with_reducible apply UKept.withReader | with_reducible apply UKept.forM | with_reducible apply UKept.mapM | with_reducible apply UKept.flatMapM | with_reducible apply UKept.bind | with_reducible apply UKept.ite | with_reducible apply Kept.foldl | with_reducible apply Kept.ite | with_reducible apply Kept.ite_snd | with_reducible apply Kept.ite_fst | with_reducible apply Kept.ite_snd2 | split | intro _ | (dsimp only; done) | dsimp only | with_reducible exact UKept.pure)); done)

theorem Kept.after_stage {s t : State} {x : Contribution} {at_ : Nat} (h : Kept s t) : Kept s (State.stage t x at_) := by
  ((try unfold State.stage); (try simp only []); (repeat' (first | (simp +contextual (maxDischargeDepth := 100) only [h, Kept.after_pass, Kept.after_write, Kept.mk_iff, Kept.pending, Kept.fuses, Kept.free, Kept.mem, Kept.regs, Kept.flash, and_self]; done) | split | with_reducible assumption | with_reducible apply Kept.after_pass | with_reducible apply Kept.after_write | with_reducible apply Kept.foldl | with_reducible apply Kept.ite | with_reducible apply Kept.ite_snd | with_reducible apply Kept.ite_fst | with_reducible apply Kept.ite_snd2 | intro _)); done)

theorem Kept.after_launchColl {s t : State} {c : Collective} {own : List Byte} {blocks : List (Nat × List Byte)} (h : Kept s t) : Kept s (State.launchColl t c own blocks) := by
  ((try unfold State.launchColl); (try simp only []); (repeat' (first | (simp +contextual (maxDischargeDepth := 100) only [h, Kept.after_collAdvance, Kept.after_pass, Kept.after_sendBlock, Kept.after_sendColl, Kept.mk_iff, Kept.pending, Kept.fuses, Kept.free, Kept.mem, Kept.regs, Kept.flash, Kept.foldl, and_self, implies_true]; done) | split | with_reducible assumption | with_reducible apply Kept.after_collAdvance | with_reducible apply Kept.after_pass | with_reducible apply Kept.after_sendBlock | with_reducible apply Kept.after_sendColl | with_reducible apply Kept.foldl | with_reducible apply Kept.ite | with_reducible apply Kept.ite_snd | with_reducible apply Kept.ite_fst | with_reducible apply Kept.ite_snd2 | intro _)); done)

theorem UKept.of_collUnit {s : State} {cmd : Cmd} : UKept s (collUnit cmd) := by
  (unfold collUnit; (repeat' (first | with_reducible assumption | with_reducible apply UKept.getBind | with_reducible apply UKept.read | with_reducible apply UKept.get | with_reducible apply UKept.pure | with_reducible apply UKept.throw | with_reducible apply UKept.throwOf | with_reducible apply UKept.modify | with_reducible apply UKept.set | with_reducible apply UKept.of_U_block | with_reducible apply UKept.of_U_change | with_reducible apply UKept.of_U_checkWrite | with_reducible apply UKept.of_U_exchange | with_reducible apply UKept.of_U_readVa | with_reducible apply UKept.withReader | with_reducible apply UKept.forM | with_reducible apply UKept.mapM | with_reducible apply UKept.flatMapM | with_reducible apply UKept.bind | with_reducible apply UKept.ite | with_reducible apply Kept.after_collAbort | with_reducible apply Kept.after_launchColl | with_reducible apply Kept.foldl | with_reducible apply Kept.ite | with_reducible apply Kept.ite_snd | with_reducible apply Kept.ite_fst | with_reducible apply Kept.ite_snd2 | split | intro _ | (simp +contextual (maxDischargeDepth := 100) only [*, Kept.mk_iff, Kept.pending, Kept.fuses, Kept.free, Kept.mem, Kept.regs, Kept.flash, and_self]; done) | (dsimp only; done) | dsimp only | with_reducible exact UKept.pure)); done)

theorem Kept.after_collStatus {s t : State} {c : Collective} (h : Kept s t) : Kept s (State.collStatus t c) := by
  ((try unfold State.collStatus); (try simp only []); (repeat' (first | (simp +contextual (maxDischargeDepth := 100) only [h, Kept.after_collEnd, Kept.after_engineWrites, Kept.after_markStep, Kept.ite]; done) | split | with_reducible assumption | with_reducible apply Kept.after_collEnd | with_reducible apply Kept.after_engineWrites | with_reducible apply Kept.after_markStep | with_reducible apply Kept.foldl | with_reducible apply Kept.ite | with_reducible apply Kept.ite_snd | with_reducible apply Kept.ite_fst | with_reducible apply Kept.ite_snd2 | intro _)); done)

theorem Kept.after_collectiveComplete {s t : State} {i : Nat} (h : Kept s t) : Kept s (collectiveComplete i t) := by
  (unfold collectiveComplete; split <;> simp +contextual (maxDischargeDepth := 100) only [h, Kept.after_collStatus, Kept.after_engineWrites, Kept.after_putColl, Kept.after_took, Kept.ite]; done)

theorem Kept.after_collTimeout {s t : State} {i : Nat} (h : Kept s t) : Kept s (collTimeout i t) := by
  ((try unfold collTimeout); (try simp only []); (repeat' (first | (simp +contextual (maxDischargeDepth := 100) only [h, Kept.after_collAbort, Kept.after_markStep, Kept.mk_iff, Kept.pending, Kept.fuses, Kept.free, Kept.mem, Kept.regs, Kept.flash, Kept.ite, and_self]; done) | split | with_reducible assumption | with_reducible apply Kept.after_collAbort | with_reducible apply Kept.after_markStep | with_reducible apply Kept.foldl | with_reducible apply Kept.ite | with_reducible apply Kept.ite_snd | with_reducible apply Kept.ite_fst | with_reducible apply Kept.ite_snd2 | intro _)); done)

theorem Kept.after_dropContributions {s t : State} {p : Nat} (h : Kept s t) : Kept s (State.dropContributions t p) := by
  ((try unfold State.dropContributions); (try simp only []); (repeat' (first | (simp +contextual (maxDischargeDepth := 100) only [h, Kept.after_takePacket, Kept.foldl, implies_true]; done) | split | with_reducible assumption | with_reducible apply Kept.after_takePacket | with_reducible apply Kept.foldl | with_reducible apply Kept.ite | with_reducible apply Kept.ite_snd | with_reducible apply Kept.ite_fst | with_reducible apply Kept.ite_snd2 | intro _)); done)

theorem Kept.after_writeMshPart {s t : State} {p : Nat} {v : Word} (h : Kept s t) : Kept s (State.writeMshPart t p v) := by
  (unfold State.writeMshPart; split <;> simp +contextual (maxDischargeDepth := 100) only [h, Kept.after_collAbort, Kept.after_dropContributions, Kept.after_setFld, Kept.mk_iff, Kept.pending, Kept.fuses, Kept.free, Kept.mem, Kept.regs, Kept.flash, Kept.foldl, and_self, implies_true]; done)

theorem Kept.after_collectiveContribution {s t : State} {n vc : Nat} (h : Kept s t) : Kept s (collectiveContribution n vc t) := by
  ((try unfold collectiveContribution); (try simp only []); (repeat' (first | (simp +contextual (maxDischargeDepth := 100) only [h, Kept.after_collAdvance, Kept.after_epochDrop, Kept.after_putColl, Kept.after_setFlag, Kept.after_stage, Kept.after_takePacket, Kept.ite]; done) | split | with_reducible assumption | with_reducible apply Kept.after_collAdvance | with_reducible apply Kept.after_epochDrop | with_reducible apply Kept.after_putColl | with_reducible apply Kept.after_setFlag | with_reducible apply Kept.after_stage | with_reducible apply Kept.after_takePacket | with_reducible apply Kept.foldl | with_reducible apply Kept.ite | with_reducible apply Kept.ite_snd | with_reducible apply Kept.ite_fst | with_reducible apply Kept.ite_snd2 | intro _)); done)

theorem Kept.after_fanOut {s t : State} {from_ mask : Nat} {ps : List (List Byte)} (h : Kept s t) : Kept s (State.fanOut t from_ mask ps) := by
  ((try unfold State.fanOut); (try simp only []); (repeat' (first | (simp +contextual (maxDischargeDepth := 100) only [h, Kept.after_enqueue, Kept.after_unrouted, Kept.foldl, Kept.ite, implies_true]; done) | split | with_reducible assumption | with_reducible apply Kept.after_enqueue | with_reducible apply Kept.after_unrouted | with_reducible apply Kept.foldl | with_reducible apply Kept.ite | with_reducible apply Kept.ite_snd | with_reducible apply Kept.ite_fst | with_reducible apply Kept.ite_snd2 | intro _)); done)

theorem Kept.after_bcastSend {s t : State} {m p k : Nat} {c : Cmd} {d : List Byte} (h : Kept s t) : Kept s (State.bcastSend t m p k c d) := by
  ((try unfold State.bcastSend); (try simp only []); (repeat' (first | (simp +contextual (maxDischargeDepth := 100) only [h, Kept.after_fanOut, Kept.mk_iff, Kept.pending, Kept.fuses, Kept.free, Kept.mem, Kept.regs, Kept.flash, Kept.foldl, and_self, implies_true]; done) | split | with_reducible assumption | with_reducible apply Kept.after_fanOut | with_reducible apply Kept.foldl | with_reducible apply Kept.ite | with_reducible apply Kept.ite_snd | with_reducible apply Kept.ite_fst | with_reducible apply Kept.ite_snd2 | intro _)); done)

theorem UKept.of_bcastUnit {s : State} {c : Cmd} {k : Nat} : UKept s (bcastUnit c k) := by
  (unfold bcastUnit; (repeat' (first | with_reducible assumption | with_reducible apply UKept.getBind | with_reducible apply UKept.read | with_reducible apply UKept.get | with_reducible apply UKept.pure | with_reducible apply UKept.throw | with_reducible apply UKept.throwOf | with_reducible apply UKept.modify | with_reducible apply UKept.set | with_reducible apply UKept.of_U_change | with_reducible apply UKept.of_U_checkWrite | with_reducible apply UKept.of_U_readVa | with_reducible apply UKept.of_U_write | with_reducible apply UKept.withReader | with_reducible apply UKept.forM | with_reducible apply UKept.mapM | with_reducible apply UKept.flatMapM | with_reducible apply UKept.bind | with_reducible apply UKept.ite | with_reducible apply Kept.after_bcastSend | with_reducible apply Kept.after_write | with_reducible apply Kept.foldl | with_reducible apply Kept.ite | with_reducible apply Kept.ite_snd | with_reducible apply Kept.ite_fst | with_reducible apply Kept.ite_snd2 | split | intro _ | (simp +contextual (maxDischargeDepth := 100) only [*, Kept.mk_iff, Kept.pending, Kept.fuses, Kept.free, Kept.mem, Kept.regs, Kept.flash, and_self]; done) | (dsimp only; done) | dsimp only | with_reducible exact UKept.pure)); done)

theorem Kept.after_bcastAck {s t : State} {src cookie : Nat} (h : Kept s t) : Kept s (State.bcastAck t src cookie) := by
  ((try unfold State.bcastAck); (try simp only []); (repeat' (first | (simp +contextual (maxDischargeDepth := 100) only [h, Kept.mk_iff, Kept.pending, Kept.fuses, Kept.free, Kept.mem, Kept.regs, Kept.flash, and_self]; done) | split | with_reducible assumption | with_reducible apply Kept.foldl | with_reducible apply Kept.ite | with_reducible apply Kept.ite_snd | with_reducible apply Kept.ite_fst | with_reducible apply Kept.ite_snd2 | intro _)); done)

theorem Kept.after_sendAck {s t : State} {a : BcastAck} (h : Kept s t) : Kept s (State.sendAck t a) := by
  ((try unfold State.sendAck); (try simp only []); (repeat' (first | (simp +contextual (maxDischargeDepth := 100) only [h, Kept.after_sendPacket]; done) | split | with_reducible assumption | with_reducible apply Kept.after_sendPacket | with_reducible apply Kept.foldl | with_reducible apply Kept.ite | with_reducible apply Kept.ite_snd | with_reducible apply Kept.ite_fst | with_reducible apply Kept.ite_snd2 | intro _)); done)

theorem Kept.after_sendAcks {s t : State}  (h : Kept s t) : Kept s (State.sendAcks t) := by
  ((try unfold State.sendAcks); (try simp only []); (repeat' (first | (simp +contextual (maxDischargeDepth := 100) only [h, Kept.after_sendAck, Kept.mk_iff, Kept.pending, Kept.fuses, Kept.free, Kept.mem, Kept.regs, Kept.flash, Kept.foldl, and_self, implies_true]; done) | split | with_reducible assumption | with_reducible apply Kept.after_sendAck | with_reducible apply Kept.foldl | with_reducible apply Kept.ite | with_reducible apply Kept.ite_snd | with_reducible apply Kept.ite_fst | with_reducible apply Kept.ite_snd2 | intro _)); done)

theorem Kept.after_bcastReceive {s t : State} {n : Nat} (h : Kept s t) : Kept s (bcastReceive n t) := by
  ((try unfold bcastReceive); (try simp only []); (repeat' (first | (simp +contextual (maxDischargeDepth := 100) only [h, Kept.after_bcastAck, Kept.after_engineWrites, Kept.after_epochDrop, Kept.after_fanOut, Kept.after_sendAcks, Kept.after_takePacket, Kept.mk_iff, Kept.pending, Kept.fuses, Kept.free, Kept.mem, Kept.regs, Kept.flash, Kept.ite, and_self]; done) | split | with_reducible assumption | with_reducible apply Kept.after_bcastAck | with_reducible apply Kept.after_engineWrites | with_reducible apply Kept.after_epochDrop | with_reducible apply Kept.after_fanOut | with_reducible apply Kept.after_sendAcks | with_reducible apply Kept.after_takePacket | with_reducible apply Kept.foldl | with_reducible apply Kept.ite | with_reducible apply Kept.ite_snd | with_reducible apply Kept.ite_fst | with_reducible apply Kept.ite_snd2 | intro _)); done)

theorem Kept.after_strSettle {s t : State} {b n : Nat} (h : Kept s t) : Kept s (State.strSettle t b n) := by
  ((try unfold State.strSettle); (try simp only []); (repeat' (first | (simp +contextual (maxDischargeDepth := 100) only [h, Kept.after_setFld, Kept.ite]; done) | split | with_reducible assumption | with_reducible apply Kept.after_setFld | with_reducible apply Kept.foldl | with_reducible apply Kept.ite | with_reducible apply Kept.ite_snd | with_reducible apply Kept.ite_fst | with_reducible apply Kept.ite_snd2 | intro _)); done)

theorem Kept.after_strPop {s t : State} {b n : Nat} (h : Kept s t) : Kept s (State.strPop t b n) := by
  (unfold State.strPop; split <;> simp +contextual (maxDischargeDepth := 100) only [h, Kept.after_addFld, Kept.after_modStream, Kept.after_strSettle, Kept.ite]; done)

theorem Kept.after_strFlush {s t : State} {b n : Nat} {u0 : Nat} (h : Kept s t) : Kept s (State.strFlush t b n u0) := by
  (induction u0 generalizing t  with | zero => (unfold State.strFlush; exact h) | succ k ih => (unfold State.strFlush; (try dsimp only); (repeat' (first | with_reducible apply ih | with_reducible refine Kept.after_refuse ?_ (by with_reducible assumption) | with_reducible assumption | with_reducible apply Kept.after_add64 | with_reducible apply Kept.after_pushFlit | with_reducible apply Kept.after_setFld | with_reducible apply Kept.after_strPop | with_reducible apply Kept.foldl | with_reducible apply Kept.ite | with_reducible apply Kept.ite_snd | with_reducible apply Kept.ite_fst | with_reducible apply Kept.ite_snd2 | split | intro _))))

theorem Kept.after_strFlushAll {s t : State} {b n : Nat} (h : Kept s t) : Kept s (State.strFlushAll t b n) := by
  ((try unfold State.strFlushAll); (try simp only []); (repeat' (first | (simp +contextual (maxDischargeDepth := 100) only [h, Kept.after_strFlush]; done) | split | with_reducible assumption | with_reducible apply Kept.after_strFlush | with_reducible apply Kept.foldl | with_reducible apply Kept.ite | with_reducible apply Kept.ite_snd | with_reducible apply Kept.ite_fst | with_reducible apply Kept.ite_snd2 | intro _)); done)

theorem Kept.after_strCancel {s t : State} {b n first count : Nat} (h : Kept s t) : Kept s (State.strCancel t b n first count) := by
  ((try unfold State.strCancel); (try simp only []); (repeat' (first | (simp +contextual (maxDischargeDepth := 100) only [h, Kept.after_modStream]; done) | split | with_reducible assumption | with_reducible apply Kept.after_modStream | with_reducible apply Kept.foldl | with_reducible apply Kept.ite | with_reducible apply Kept.ite_snd | with_reducible apply Kept.ite_fst | with_reducible apply Kept.ite_snd2 | intro _)); done)

theorem Kept.after_strStart {s t : State} {b n entry : Nat} (h : Kept s t) : Kept s (State.strStart t b n entry) := by
  ((try unfold State.strStart); (try simp only []); (repeat' (first | (simp +contextual (maxDischargeDepth := 100) only [h, Kept.after_addFld, Kept.after_modStream, Kept.after_setFld, Kept.after_strSettle]; done) | split | with_reducible assumption | with_reducible apply Kept.after_addFld | with_reducible apply Kept.after_modStream | with_reducible apply Kept.after_pass | with_reducible apply Kept.after_setFld | with_reducible apply Kept.after_strSettle | with_reducible apply Kept.foldl | with_reducible apply Kept.ite | with_reducible apply Kept.ite_snd | with_reducible apply Kept.ite_fst | with_reducible apply Kept.ite_snd2 | intro _)); done)

theorem Kept.after_strStop {s t : State} {b n bound : Nat} (h : Kept s t) : Kept s (State.strStop t b n bound) := by
  ((try unfold State.strStop); (try simp only []); (repeat' (first | (simp +contextual (maxDischargeDepth := 100) only [h, Kept.after_modStream, Kept.after_strSettle]; done) | split | with_reducible assumption | with_reducible apply Kept.after_modStream | with_reducible apply Kept.after_pass | with_reducible apply Kept.after_strSettle | with_reducible apply Kept.foldl | with_reducible apply Kept.ite | with_reducible apply Kept.ite_snd | with_reducible apply Kept.ite_fst | with_reducible apply Kept.ite_snd2 | intro _)); done)

theorem Kept.after_popCmd {s t : State} {m : Nat} (h : Kept s t) : Kept s (State.popCmd t m) := by
  (unfold State.popCmd; split <;> simp +contextual (maxDischargeDepth := 100) only [h, Kept.after_modMover, Kept.after_setReg]; done)

theorem Kept.after_headStep {s t : State} {m : Nat} {u0 : Nat} (h : Kept s t) : Kept s (State.headStep t m u0) := by
  (induction u0 generalizing t  with | zero => (unfold State.headStep; exact h) | succ k ih => (unfold State.headStep; (try dsimp only); (repeat' (first | with_reducible apply ih | with_reducible assumption | with_reducible apply Kept.after_modMover | with_reducible apply Kept.after_popCmd | with_reducible apply Kept.after_strCancel | with_reducible apply Kept.after_strStart | with_reducible apply Kept.after_strStop | with_reducible apply Kept.foldl | with_reducible apply Kept.ite | with_reducible apply Kept.ite_snd | with_reducible apply Kept.ite_fst | with_reducible apply Kept.ite_snd2 | split | intro _))))

theorem Kept.after_stopsDone {s t : State} {b n : Nat} (h : Kept s t) : Kept s (State.stopsDone t b n) := by
  ((try unfold State.stopsDone); (try simp only []); (repeat' (first | (simp +contextual (maxDischargeDepth := 100) only [h, Kept.after_headStep, Kept.after_popCmd, Kept.ite, implies_true]; done) | split | with_reducible assumption | with_reducible apply Kept.after_headStep | with_reducible apply Kept.after_popCmd | with_reducible apply Kept.foldl | with_reducible apply Kept.ite | with_reducible apply Kept.ite_snd | with_reducible apply Kept.ite_fst | with_reducible apply Kept.ite_snd2 | intro _)); done)

theorem Kept.after_pushCmd {s t : State} {m : Nat} {c : Cmd} (h : Kept s t) : Kept s (State.pushCmd t m c) := by
  ((try unfold State.pushCmd); (try simp only []); (repeat' (first | (simp +contextual (maxDischargeDepth := 100) only [h, Kept.after_headStep, Kept.after_modMover, Kept.ite]; done) | split | with_reducible assumption | with_reducible apply Kept.after_headStep | with_reducible apply Kept.after_modMover | with_reducible apply Kept.foldl | with_reducible apply Kept.ite | with_reducible apply Kept.ite_snd | with_reducible apply Kept.ite_fst | with_reducible apply Kept.ite_snd2 | intro _)); done)

theorem Kept.after_cmdBody {s t : State} {x_t w : Nat} (h : Kept s t) : Kept s (cmdBody x_t w t) := by
  ((try unfold cmdBody); (try simp only []); (repeat' (first | (simp +contextual (maxDischargeDepth := 100) only [h, Kept.after_issueFault, Kept.after_pushCmd, Kept.after_retire, Kept.after_startEngine, Kept.ite]; done) | split | with_reducible assumption | with_reducible apply Kept.after_issueFault | with_reducible apply Kept.after_pushCmd | with_reducible apply Kept.after_retire | with_reducible apply Kept.after_startEngine | with_reducible apply Kept.foldl | with_reducible apply Kept.ite | with_reducible apply Kept.ite_snd | with_reducible apply Kept.ite_fst | with_reducible apply Kept.ite_snd2 | intro _)); done)

theorem Kept.after_cmdUnit {s t : State} {x_t w : Nat} (h : Kept s t) : Kept s (State.cmdUnit t x_t w) := by
  (unfold State.cmdUnit; split <;> simp +contextual (maxDischargeDepth := 100) only [h, Kept.after_completeEngine, Kept.after_pushCmd]; done)

theorem Kept.after_moveRow {s t : State} {x_t x : Nat} {fetch : Ecc} (h : Kept s t) : Kept s (moveRow x_t x fetch t) := by
  ((try unfold moveRow); (try simp only []); (repeat' (first | (simp +contextual (maxDischargeDepth := 100) only [h, Kept.after_issue, Kept.after_cmdBody, implies_true]; done) | split | with_reducible assumption | with_reducible apply Kept.after_issue | with_reducible apply Kept.after_cmdBody | with_reducible apply Kept.foldl | with_reducible apply Kept.ite | with_reducible apply Kept.ite_snd | with_reducible apply Kept.ite_fst | with_reducible apply Kept.ite_snd2 | intro _)); done)

theorem Kept.after_prefRow {s t : State} {x_t x : Nat} {fetch : Ecc} (h : Kept s t) : Kept s (prefRow x_t x fetch t) := by
  ((try unfold prefRow); (try simp only []); (repeat' (first | (simp +contextual (maxDischargeDepth := 100) only [h, Kept.after_issue, Kept.after_cmdBody, implies_true]; done) | split | with_reducible assumption | with_reducible apply Kept.after_issue | with_reducible apply Kept.after_cmdBody | with_reducible apply Kept.foldl | with_reducible apply Kept.ite | with_reducible apply Kept.ite_snd | with_reducible apply Kept.ite_fst | with_reducible apply Kept.ite_snd2 | intro _)); done)

theorem Kept.ringNext {s t : State} {v : Vector Nat 4} (h : Kept s t) : Kept s { t with ringNext := v } :=
  ⟨h.pending, h.fuses, h.free, h.mem, h.regs, h.flash⟩

theorem Kept.runU_ok {s t : State} {α : Type} {u : U α} {c : Ctx} {e : MoverEnd} {a : α} {f : Forming} (hu : UKept s u) (h : Kept s t)
    (hr : runU u c e t = .ok (a, f)) : Kept s f.s := hu.keeps c _ (a, f) h hr

theorem Kept.after_setMoverProg {s t : State} {m v : Nat} (h : Kept s t) : Kept s (State.setMoverProg t m v) := by
  (unfold State.setMoverProg; split <;> simp +contextual (maxDischargeDepth := 100) only [h, Kept.after_modMover, Kept.after_setReg]; done)

theorem UKept.of_U_entry {s : State} {b n i : Nat} : UKept s (U.entry b n i) := by
  (unfold U.entry; (repeat' (first | with_reducible assumption | with_reducible apply UKept.getBind | with_reducible apply UKept.read | with_reducible apply UKept.get | with_reducible apply UKept.pure | with_reducible apply UKept.throw | with_reducible apply UKept.throwOf | with_reducible apply UKept.modify | with_reducible apply UKept.set | with_reducible apply UKept.of_U_exec | with_reducible apply UKept.of_U_readVa | with_reducible apply UKept.withReader | with_reducible apply UKept.forM | with_reducible apply UKept.mapM | with_reducible apply UKept.flatMapM | with_reducible apply UKept.bind | with_reducible apply UKept.ite | with_reducible apply Kept.foldl | with_reducible apply Kept.ite | with_reducible apply Kept.ite_snd | with_reducible apply Kept.ite_fst | with_reducible apply Kept.ite_snd2 | split | intro _ | (dsimp only; done) | dsimp only | with_reducible exact UKept.pure)); done)

theorem UKept.of_U_skipped {s : State} {b n i : Nat} : UKept s (U.skipped b n i) := by
  (unfold U.skipped; (repeat' (first | with_reducible assumption | with_reducible apply UKept.getBind | with_reducible apply UKept.read | with_reducible apply UKept.get | with_reducible apply UKept.pure | with_reducible apply UKept.throw | with_reducible apply UKept.throwOf | with_reducible apply UKept.modify | with_reducible apply UKept.set | with_reducible apply UKept.of_U_numVa | with_reducible apply UKept.withReader | with_reducible apply UKept.forM | with_reducible apply UKept.mapM | with_reducible apply UKept.flatMapM | with_reducible apply UKept.bind | with_reducible apply UKept.ite | with_reducible apply Kept.foldl | with_reducible apply Kept.ite | with_reducible apply Kept.ite_snd | with_reducible apply Kept.ite_fst | with_reducible apply Kept.ite_snd2 | split | intro _ | (dsimp only; done) | dsimp only | with_reducible exact UKept.pure)); done)

theorem UKept.of_U_startItem {s : State} {b n i : Nat} : UKept s (U.startItem b n i) := by
  (unfold U.startItem; (repeat' (first | with_reducible assumption | with_reducible apply UKept.getBind | with_reducible apply UKept.read | with_reducible apply UKept.get | with_reducible apply UKept.pure | with_reducible apply UKept.throw | with_reducible apply UKept.throwOf | with_reducible apply UKept.modify | with_reducible apply UKept.set | with_reducible apply UKept.of_U_entry | with_reducible apply UKept.of_U_numVa | with_reducible apply UKept.of_U_skipped | with_reducible apply UKept.withReader | with_reducible apply UKept.forM | with_reducible apply UKept.mapM | with_reducible apply UKept.flatMapM | with_reducible apply UKept.bind | with_reducible apply UKept.ite | with_reducible apply Kept.foldl | with_reducible apply Kept.ite | with_reducible apply Kept.ite_snd | with_reducible apply Kept.ite_fst | with_reducible apply Kept.ite_snd2 | split | intro _ | (dsimp only; done) | dsimp only | with_reducible exact UKept.pure)); done)

theorem UKept.of_U_restartItem {s : State} {b n : Nat} {x : Item} : UKept s (U.restartItem b n x) := by
  (unfold U.restartItem; (repeat' (first | with_reducible assumption | with_reducible apply UKept.getBind | with_reducible apply UKept.read | with_reducible apply UKept.get | with_reducible apply UKept.pure | with_reducible apply UKept.throw | with_reducible apply UKept.throwOf | with_reducible apply UKept.modify | with_reducible apply UKept.set | with_reducible apply UKept.of_U_entry | with_reducible apply UKept.withReader | with_reducible apply UKept.forM | with_reducible apply UKept.mapM | with_reducible apply UKept.flatMapM | with_reducible apply UKept.bind | with_reducible apply UKept.ite | with_reducible apply Kept.foldl | with_reducible apply Kept.ite | with_reducible apply Kept.ite_snd | with_reducible apply Kept.ite_fst | with_reducible apply Kept.ite_snd2 | split | intro _ | (dsimp only; done) | dsimp only | with_reducible exact UKept.pure)); done)

theorem Kept.after_readLength {s t : State} {m k : Nat} (h : Kept s t) : Kept s (State.readLength t m k) := by
  (unfold State.readLength; (try dsimp only); (repeat' (first | with_reducible refine Kept.runU_ok ?_ ?_ (by with_reducible assumption) | with_reducible apply UKept.of_U_appendLength | with_reducible assumption | with_reducible apply Kept.after_modMover | with_reducible apply Kept.foldl | with_reducible apply Kept.ite | with_reducible apply Kept.ite_snd | with_reducible apply Kept.ite_fst | with_reducible apply Kept.ite_snd2 | split | intro _)); done)

theorem Kept.after_moverUnitStart {s t : State} {m : Nat} (h : Kept s t) : Kept s (moverUnitStart m t) := by
  ((try unfold moverUnitStart); (try simp only []); (repeat' (first | (simp +contextual (maxDischargeDepth := 100) only [h, Kept.after_modMover, Kept.after_readLength, Kept.ite]; done) | split | with_reducible assumption | with_reducible apply Kept.after_modMover | with_reducible apply Kept.after_readLength | with_reducible apply Kept.foldl | with_reducible apply Kept.ite | with_reducible apply Kept.ite_snd | with_reducible apply Kept.ite_fst | with_reducible apply Kept.ite_snd2 | intro _)); done)

theorem Kept.after_strNext {s t : State} {b n : Nat} (h : Kept s t) : Kept s (State.strNext t b n) := by
  ((try unfold State.strNext); (try simp only []); (repeat' (first | (simp +contextual (maxDischargeDepth := 100) only [h, Kept.after_modStream]; done) | split | with_reducible assumption | with_reducible apply Kept.after_modStream | with_reducible apply Kept.after_pass | with_reducible apply Kept.foldl | with_reducible apply Kept.ite | with_reducible apply Kept.ite_snd | with_reducible apply Kept.ite_fst | with_reducible apply Kept.ite_snd2 | intro _)); done)

theorem Kept.after_noteWait {s t : State} {m : Nat} {q : Bool} (h : Kept s t) : Kept s (State.noteWait t m q) := by
  ((try unfold State.noteWait); (try simp only []); (repeat' (first | (simp +contextual (maxDischargeDepth := 100) only [h, Kept.after_modMover]; done) | split | with_reducible assumption | with_reducible apply Kept.after_modMover | with_reducible apply Kept.foldl | with_reducible apply Kept.ite | with_reducible apply Kept.ite_snd | with_reducible apply Kept.ite_fst | with_reducible apply Kept.ite_snd2 | intro _)); done)

theorem Kept.after_stopped {s t : State} {c : Ctx} {va : Option Nat} {e : Stop} (h : Kept s t) : Kept s (State.stopped t c va e) := by
  (unfold State.stopped; split <;> simp +contextual (maxDischargeDepth := 100) only [h, Kept.after_askWalk, Kept.after_dropUnit, Kept.after_logFault, Kept.after_modMover, Kept.after_moverFault, Kept.after_noteWait, Kept.after_portViolation, Kept.after_sendRequest, Kept.ite]; done)

theorem Kept.after_passAll {s t : State} {b : Nat} (h : Kept s t) : Kept s (State.passAll t b) := by
  ((try unfold State.passAll); (try simp only []); (repeat' (first | (simp +contextual (maxDischargeDepth := 100) only [h, Kept.after_stopsDone, Kept.after_strFlushAll, Kept.foldl, implies_true]; done) | split | with_reducible assumption | with_reducible apply Kept.after_stopsDone | with_reducible apply Kept.after_strFlushAll | with_reducible apply Kept.foldl | with_reducible apply Kept.ite | with_reducible apply Kept.ite_snd | with_reducible apply Kept.ite_fst | with_reducible apply Kept.ite_snd2 | intro _)); done)

theorem Kept.after_startStream {s t : State} {b n m : Nat} {x : Item} (h : Kept s t) : Kept s (State.startStream t b n m x) := by
  (unfold State.startStream; split <;> simp +contextual (maxDischargeDepth := 100) only [h, Kept.after_modMover, Kept.after_modStream, Kept.after_setFld, Kept.after_stopsDone, Kept.after_strFlushAll, Kept.after_strSettle]; done)

theorem Kept.after_streamEntryStart {s t : State} {b : Nat} (h : Kept s t) : Kept s (streamEntryStart b t) := by
  (unfold streamEntryStart; (try dsimp only); (repeat' (first | with_reducible refine Kept.runU_ok ?_ ?_ (by with_reducible assumption) | with_reducible apply UKept.of_U_entry | with_reducible apply UKept.of_U_restartItem | with_reducible apply UKept.of_U_startItem | with_reducible assumption | with_reducible apply Kept.after_modStream | with_reducible apply Kept.after_pass | with_reducible apply Kept.after_passAll | with_reducible apply Kept.after_startStream | with_reducible apply Kept.after_stopped | with_reducible apply Kept.after_strNext | with_reducible apply Kept.foldl | with_reducible apply Kept.ite | with_reducible apply Kept.ite_snd | with_reducible apply Kept.ite_fst | with_reducible apply Kept.ite_snd2 | split | intro _)); done)

theorem UKept.of_streamUnit {s : State} {b n pass i slot : Nat} : UKept s (streamUnit b n pass i slot) := by
  (unfold streamUnit; (repeat' (first | with_reducible assumption | with_reducible apply UKept.getBind | with_reducible apply UKept.read | with_reducible apply UKept.get | with_reducible apply UKept.pure | with_reducible apply UKept.throw | with_reducible apply UKept.throwOf | with_reducible apply UKept.modify | with_reducible apply UKept.set | with_reducible apply UKept.of_U_change | with_reducible apply UKept.of_U_checkWrite | with_reducible apply UKept.of_U_entry | with_reducible apply UKept.of_U_exec | with_reducible apply UKept.of_U_ingotTile | with_reducible apply UKept.of_U_readVa | with_reducible apply UKept.of_U_send | with_reducible apply UKept.of_U_write | with_reducible apply UKept.withReader | with_reducible apply UKept.forM | with_reducible apply UKept.mapM | with_reducible apply UKept.flatMapM | with_reducible apply UKept.bind | with_reducible apply UKept.ite | with_reducible apply Kept.after_pass | with_reducible apply Kept.after_setFld | with_reducible apply Kept.after_write | with_reducible apply Kept.foldl | with_reducible apply Kept.ite | with_reducible apply Kept.ite_snd | with_reducible apply Kept.ite_fst | with_reducible apply Kept.ite_snd2 | split | intro _ | (dsimp only; done) | dsimp only | with_reducible exact UKept.pure)); done)

theorem UKept.of_cmdUnitOf {s : State} {c : Cmd} {k : Nat} : UKept s (cmdUnitOf c k) := by
  (unfold cmdUnitOf; (repeat' (first | with_reducible assumption | with_reducible apply UKept.getBind | with_reducible apply UKept.read | with_reducible apply UKept.get | with_reducible apply UKept.pure | with_reducible apply UKept.throw | with_reducible apply UKept.throwOf | with_reducible apply UKept.modify | with_reducible apply UKept.set | with_reducible apply UKept.of_appendUnit | with_reducible apply UKept.of_bcastUnit | with_reducible apply UKept.of_collUnit | with_reducible apply UKept.of_copyUnit | with_reducible apply UKept.of_diagUnit | with_reducible apply UKept.of_gatherUnit | with_reducible apply UKept.of_ingotUnit | with_reducible apply UKept.of_kvUnit | with_reducible apply UKept.of_openUnit | with_reducible apply UKept.of_permUnit | with_reducible apply UKept.of_scatterUnit | with_reducible apply UKept.of_unpermUnit | with_reducible apply UKept.of_warmUnit | with_reducible apply UKept.withReader | with_reducible apply UKept.forM | with_reducible apply UKept.mapM | with_reducible apply UKept.flatMapM | with_reducible apply UKept.bind | with_reducible apply UKept.ite | with_reducible apply Kept.foldl | with_reducible apply Kept.ite | with_reducible apply Kept.ite_snd | with_reducible apply Kept.ite_fst | with_reducible apply Kept.ite_snd2 | split | intro _ | (dsimp only; done) | dsimp only | with_reducible exact UKept.pure)); done)

theorem UKept.of_cmdUnitEnd {s : State} {c : Cmd} {k : Nat} : UKept s (cmdUnitEnd c k) := by
  (unfold cmdUnitEnd; (repeat' (first | with_reducible assumption | with_reducible apply UKept.getBind | with_reducible apply UKept.read | with_reducible apply UKept.get | with_reducible apply UKept.pure | with_reducible apply UKept.throw | with_reducible apply UKept.throwOf | with_reducible apply UKept.modify | with_reducible apply UKept.set | with_reducible apply UKept.of_U_permNotice | with_reducible apply UKept.of_U_send | with_reducible apply UKept.of_cmdUnitOf | with_reducible apply UKept.withReader | with_reducible apply UKept.forM | with_reducible apply UKept.mapM | with_reducible apply UKept.flatMapM | with_reducible apply UKept.bind | with_reducible apply UKept.ite | with_reducible apply Kept.foldl | with_reducible apply Kept.ite | with_reducible apply Kept.ite_snd | with_reducible apply Kept.ite_fst | with_reducible apply Kept.ite_snd2 | split | intro _ | (dsimp only; done) | dsimp only | with_reducible exact UKept.pure)); done)

theorem UKept.of_unitOf {s : State} {m : Nat} {q : List Cmd} {u : MoverUnit} : UKept s (unitOf m q u) := by
  (unfold unitOf; (repeat' (first | with_reducible assumption | with_reducible apply UKept.getBind | with_reducible apply UKept.read | with_reducible apply UKept.get | with_reducible apply UKept.pure | with_reducible apply UKept.throw | with_reducible apply UKept.throwOf | with_reducible apply UKept.modify | with_reducible apply UKept.set | with_reducible apply UKept.of_cmdUnitEnd | with_reducible apply UKept.of_streamUnit | with_reducible apply UKept.withReader | with_reducible apply UKept.forM | with_reducible apply UKept.mapM | with_reducible apply UKept.flatMapM | with_reducible apply UKept.bind | with_reducible apply UKept.ite | with_reducible apply Kept.after_pass | with_reducible apply Kept.foldl | with_reducible apply Kept.ite | with_reducible apply Kept.ite_snd | with_reducible apply Kept.ite_fst | with_reducible apply Kept.ite_snd2 | split | intro _ | (dsimp only; done) | dsimp only | with_reducible exact UKept.pure)); done)

theorem Kept.after_pushOuts {s t : State} {x_t : Nat} {l : List (Nat × Flit)} (h : Kept s t) : Kept s (t.pushOuts x_t l).2.2 := by
  induction l generalizing t with
  | nil => exact h
  | cons a l ih =>
    unfold State.pushOuts
    split
    · next hu => exact Kept.after_refuse h hu
    · split
      · exact h
      · exact ih (Kept.after_pushFlit h)

theorem Kept.after_abandon {s t : State} {m : Nat} (h : Kept s t) : Kept s (State.abandon t m) := by
  (unfold State.abandon; split <;> simp +contextual (maxDischargeDepth := 100) only [h, Kept.after_modMover, Kept.after_settleWait, Kept.mk_iff, Kept.pending, Kept.fuses, Kept.free, Kept.mem, Kept.regs, Kept.flash, and_self]; done)

theorem Kept.after_ringAdvance {s t : State} {r : Nat} {u0 : Nat} (h : Kept s t) : Kept s (State.ringAdvance t r u0) := by
  (induction u0 generalizing t r <;> simp +contextual (maxDischargeDepth := 100) only [State.ringAdvance, *, Kept.after_setFld, Kept.mk_iff, Kept.pending, Kept.fuses, Kept.free, Kept.mem, Kept.regs, Kept.flash, Kept.ite, and_self]; done)

theorem Kept.after_ringDoneWith {s t : State} {m : Nat} {j : RingJob} (h : Kept s t) : Kept s (State.ringDoneWith t m j) := by
  ((try unfold State.ringDoneWith); (try simp only []); (repeat' (first | (simp +contextual (maxDischargeDepth := 100) only [h, Kept.after_modMover, Kept.after_ringAdvance, Kept.mk_iff, Kept.pending, Kept.fuses, Kept.free, Kept.mem, Kept.regs, Kept.flash, and_self]; done) | split | with_reducible assumption | with_reducible apply Kept.after_modMover | with_reducible apply Kept.after_ringAdvance | with_reducible apply Kept.foldl | with_reducible apply Kept.ite | with_reducible apply Kept.ite_snd | with_reducible apply Kept.ite_fst | with_reducible apply Kept.ite_snd2 | intro _)); done)

theorem Kept.after_ringWord {s t : State} {m : Nat} (h : Kept s t) : Kept s (State.ringWord t m) := by
  ((try unfold State.ringWord); (try simp only []); (repeat' (first | (simp +contextual (maxDischargeDepth := 100) only [h, Kept.after_engineWrite, Kept.after_engineWrites, Kept.after_ringDoneWith, Kept.ite]; done) | split | with_reducible assumption | with_reducible apply Kept.after_engineWrite | with_reducible apply Kept.after_engineWrites | with_reducible apply Kept.after_ringDoneWith | with_reducible apply Kept.foldl | with_reducible apply Kept.ite | with_reducible apply Kept.ite_snd | with_reducible apply Kept.ite_fst | with_reducible apply Kept.ite_snd2 | intro _)); done)

theorem Kept.after_ringFinish {s t : State} {m kind units : Nat} (h : Kept s t) : Kept s (State.ringFinish t m kind units) := by
  ((try unfold State.ringFinish); (try simp only []); (repeat' (first | (simp +contextual (maxDischargeDepth := 100) only [h, Kept.after_abandon, Kept.after_modMover, Kept.after_ringWord]; done) | split | with_reducible assumption | with_reducible apply Kept.after_abandon | with_reducible apply Kept.after_modMover | with_reducible apply Kept.after_ringWord | with_reducible apply Kept.foldl | with_reducible apply Kept.ite | with_reducible apply Kept.ite_snd | with_reducible apply Kept.ite_fst | with_reducible apply Kept.ite_snd2 | intro _)); done)

theorem Kept.after_walkEnds {s t : State} {m kind : Nat} (h : Kept s t) : Kept s (State.walkEnds m kind t) := by
  (unfold State.walkEnds; split <;> simp +contextual (maxDischargeDepth := 100) only [h, Kept.after_ringFinish]; done)

theorem Kept.after_cmdDone {s t : State} {m units : Nat} (h : Kept s t) : Kept s (State.cmdDone t m units) := by
  (unfold State.cmdDone; split <;> simp +contextual (maxDischargeDepth := 100) only [h, Kept.after_headStep, Kept.after_popCmd, Kept.after_ringFinish]; done)

theorem Kept.after_unitDone {s t : State} {m : Nat} {u : MoverUnit} {total : Nat} (h : Kept s t) : Kept s (State.unitDone t m u total) := by
  ((try unfold State.unitDone); (try simp only []); (repeat' (first | (simp +contextual (maxDischargeDepth := 100) only [h, Kept.after_add64, Kept.after_cmdDone, Kept.after_invalUnit, Kept.after_modMover, Kept.after_setMoverProg, Kept.after_stopsDone, Kept.after_strFlushAll, Kept.after_strPop, Kept.ite]; done) | split | with_reducible assumption | with_reducible apply Kept.after_add64 | with_reducible apply Kept.after_cmdDone | with_reducible apply Kept.after_invalUnit | with_reducible apply Kept.after_modMover | with_reducible apply Kept.after_setMoverProg | with_reducible apply Kept.after_stopsDone | with_reducible apply Kept.after_strFlushAll | with_reducible apply Kept.after_strPop | with_reducible apply Kept.foldl | with_reducible apply Kept.ite | with_reducible apply Kept.ite_snd | with_reducible apply Kept.ite_fst | with_reducible apply Kept.ite_snd2 | intro _)); done)

theorem Kept.after_useLine {s t u : State} {m : Nat} {l : Nat × Nat} (h : Kept s t) (hu : t.useLine m l = some u) : Kept s u := by
  unfold State.useLine at hu
  split at hu
  · cases hu; exact Kept.after_hearthAccess h
  · split at hu
    · cases hu; exact Kept.after_startFill h
    · cases hu

theorem Kept.after_useLines {s t : State} {m : Nat} {l : List (Nat × Nat)} (h : Kept s t) : Kept s (t.useLines m l) := by
  induction l generalizing t with
  | nil => exact h
  | cons a l ih =>
    unfold State.useLines
    split
    · next hu => exact ih (Kept.after_modMover (Kept.after_useLine h hu))
    · exact h

theorem Kept.after_askOnce {s t : State} {m port slot pa : Nat} {op : AccessOp} (h : Kept s t) : Kept s (State.askOnce t m port slot pa op) := by
  ((try unfold State.askOnce); (try simp only []); (repeat' (first | (simp +contextual (maxDischargeDepth := 100) only [h, Kept.after_ask, Kept.after_modMover, Kept.ite]; done) | split | with_reducible assumption | with_reducible apply Kept.after_ask | with_reducible apply Kept.after_modMover | with_reducible apply Kept.foldl | with_reducible apply Kept.ite | with_reducible apply Kept.ite_snd | with_reducible apply Kept.ite_fst | with_reducible apply Kept.ite_snd2 | intro _)); done)

theorem Kept.after_askAll {s t : State} {m : Nat} {f : Forming} (hf : Kept s f.s) (h : Kept s t) : Kept s (State.askAll t m f) := by
  ((try unfold State.askAll); (try simp only []); (repeat' (first | (simp +contextual (maxDischargeDepth := 100) only [h, Kept.after_askOnce, Kept.foldl, implies_true]; done) | split | with_reducible assumption | with_reducible apply hf | with_reducible apply Kept.after_askOnce | with_reducible apply Kept.foldl | with_reducible apply Kept.ite | with_reducible apply Kept.ite_snd | with_reducible apply Kept.ite_fst | with_reducible apply Kept.ite_snd2 | intro _)); done)

theorem Kept.after_unitPoison {s t : State} {c : Ctx} {f : Forming} (hf : Kept s f.s) (h : Kept s t) : Kept s (State.unitPoison t c f) := by
  (unfold State.unitPoison; split <;> simp +contextual (maxDischargeDepth := 100) only [h, Kept.after_markOpen, Kept.ite]; done)

theorem Kept.after_commitUnit {s t : State} {c : Ctx} {u : MoverUnit} {done : Bool} {f : Forming} (hf : Kept s f.s) (h : Kept s t) : Kept s (State.commitUnit t c u done f) := by
  (unfold State.commitUnit; split <;> simp +contextual (maxDischargeDepth := 100) only [h, hf, Kept.after_askAll, Kept.after_hearthAccess, Kept.after_modMover, Kept.after_pushOuts, Kept.after_takeLocal, Kept.after_unitDone, Kept.after_unitPoison, Kept.after_useLines, Kept.foldl, Kept.ite, implies_true]; done)

theorem Kept.after_unitFaulted {s t : State} {m : Nat} {e : Stop} (h : Kept s t) : Kept s (State.unitFaulted t m e) := by
  (unfold State.unitFaulted; split <;> simp +contextual (maxDischargeDepth := 100) only [h, Kept.after_walkEnds]; done)

theorem Kept.after_moverUnitComplete {s t : State} {m : Nat} {e : MoverEnd} (h : Kept s t) : Kept s (moverUnitComplete m e t) := by
  (unfold moverUnitComplete; (try dsimp only); (repeat' (first | with_reducible refine Kept.runU_ok ?_ ?_ (by with_reducible assumption) | with_reducible apply UKept.of_unitOf | with_reducible assumption | with_reducible apply Kept.after_commitUnit | with_reducible apply Kept.after_noteWait | with_reducible apply Kept.after_readLength | with_reducible apply Kept.after_stopped | with_reducible apply Kept.after_unitDone | with_reducible apply Kept.after_unitFaulted | with_reducible apply Kept.foldl | with_reducible apply Kept.ite | with_reducible apply Kept.ite_snd | with_reducible apply Kept.ite_fst | with_reducible apply Kept.ite_snd2 | split | intro _)); done)

theorem Kept.after_zeroCountCommand {s t : State} {m : Nat} (h : Kept s t) : Kept s (zeroCountCommand m t) := by
  unfold zeroCountCommand
  split
  · exact h
  · split
    · exact h
    · dsimp only
      split
      · next hu =>
        obtain ⟨x, _, hx⟩ := List.exists_of_findSome?_eq_some hu
        exact Kept.after_refuse h hx
      · exact Kept.ite h (Kept.after_cmdDone (Kept.after_pushOuts h))

theorem Kept.after_streamRelease {s t : State} {b : Nat} {r : ReleaseRead} (h : Kept s t) : Kept s (streamRelease b r t) := by
  ((try unfold streamRelease); (try simp only []); (repeat' (first | (simp +contextual (maxDischargeDepth := 100) only [h, Kept.after_modStream, Kept.after_moverFault, Kept.after_readHead, Kept.after_setFld, Kept.after_takeLocal, Kept.after_took, Kept.ite]; done) | split | with_reducible assumption | with_reducible apply Kept.after_modStream | with_reducible apply Kept.after_moverFault | with_reducible apply Kept.after_readHead | with_reducible apply Kept.after_setFld | with_reducible apply Kept.after_takeLocal | with_reducible apply Kept.after_took | with_reducible apply Kept.foldl | with_reducible apply Kept.ite | with_reducible apply Kept.ite_snd | with_reducible apply Kept.ite_fst | with_reducible apply Kept.ite_snd2 | intro _)); done)

theorem Kept.after_ioringDescriptor {s t : State} {k : Nat} (h : Kept s t) : Kept s (ioringDescriptor k t) := by
  unfold ioringDescriptor
  extract_lets m r i a s1 b f c j s2 s3
  have h1 : Kept s s1 := Kept.after_pass h
  clear_value s1
  have h2 : Kept s s2 := Kept.ringNext h1
  clear_value s2
  have h3 : Kept s s3 := Kept.after_modMover h2
  exact Kept.ite h (Kept.ite (Kept.after_ringWord h) (Kept.ite h (Kept.ite (Kept.after_ringFinish (Kept.after_took h3))
    (Kept.ite (Kept.after_ringFinish h3) h3))))

theorem Kept.after_writeTierCtrl {s t : State} {v : Word} (h : Kept s t) : Kept s (State.writeTierCtrl t v) := by
  ((try unfold State.writeTierCtrl); (try simp only []); (repeat' (first | (simp +contextual (maxDischargeDepth := 100) only [h, Kept.after_setFld, Kept.mk_iff, Kept.pending, Kept.fuses, Kept.free, Kept.mem, Kept.regs, Kept.flash, Kept.ite, and_self]; done) | split | with_reducible assumption | with_reducible apply Kept.after_setFld | with_reducible apply Kept.foldl | with_reducible apply Kept.ite | with_reducible apply Kept.ite_snd | with_reducible apply Kept.ite_fst | with_reducible apply Kept.ite_snd2 | intro _)); done)

theorem Kept.after_translationWalk {s t : State}  (h : Kept s t) : Kept s (translationWalk t) := by
  ((try unfold translationWalk); (try simp only []); (repeat' (first | (simp +contextual (maxDischargeDepth := 100) only [h, Kept.after_doWalk, Kept.after_settleWait, Kept.after_walkEnds, implies_true]; done) | split | with_reducible assumption | with_reducible apply Kept.after_doWalk | with_reducible apply Kept.after_settleWait | with_reducible apply Kept.after_walkEnds | with_reducible apply Kept.foldl | with_reducible apply Kept.ite | with_reducible apply Kept.ite_snd | with_reducible apply Kept.ite_fst | with_reducible apply Kept.ite_snd2 | intro _)); done)

theorem Kept.after_demandFetchComplete {s t : State} {i : Nat} {res : EndKind} (h : Kept s t) : Kept s (demandFetchComplete i res t) := by
  (unfold demandFetchComplete; split <;> simp +contextual (maxDischargeDepth := 100) only [h, Kept.after_fetchEnd, Kept.after_settleReset, Kept.after_walkEnds, Kept.mk_iff, Kept.pending, Kept.fuses, Kept.free, Kept.mem, Kept.regs, Kept.flash, Kept.ite, and_self, implies_true]; done)

theorem Kept.after_strRestart {s t : State} {b n : Nat} (h : Kept s t) : Kept s (State.strRestart t b n) := by
  ((try unfold State.strRestart); (try simp only []); (repeat' (first | (simp +contextual (maxDischargeDepth := 100) only [h, Kept.after_modStream, Kept.after_setFld, Kept.after_strSettle]; done) | split | with_reducible assumption | with_reducible apply Kept.after_modStream | with_reducible apply Kept.after_setFld | with_reducible apply Kept.after_strSettle | with_reducible apply Kept.foldl | with_reducible apply Kept.ite | with_reducible apply Kept.ite_snd | with_reducible apply Kept.ite_fst | with_reducible apply Kept.ite_snd2 | intro _)); done)

theorem Kept.after_restartMovers {s t : State} {p : Nat} (h : Kept s t) : Kept s (State.restartMovers t p) := by
  ((try unfold State.restartMovers); (try simp only []); (repeat' (first | (simp +contextual (maxDischargeDepth := 100) only [h, Kept.after_abandon, Kept.after_strRestart, Kept.foldl, Kept.ite, implies_true]; done) | split | with_reducible assumption | with_reducible apply Kept.after_abandon | with_reducible apply Kept.after_strRestart | with_reducible apply Kept.foldl | with_reducible apply Kept.ite | with_reducible apply Kept.ite_snd | with_reducible apply Kept.ite_fst | with_reducible apply Kept.ite_snd2 | intro _)); done)

theorem Kept.after_setStrmNum {s t : State} {x_t n b w v : Nat} (h : Kept s t) : Kept s (State.setStrmNum t x_t n b w v) := by
  ((try unfold State.setStrmNum); (try simp only []); (repeat' (first | (simp +contextual (maxDischargeDepth := 100) only [h, Kept.after_writeNum]; done) | split | with_reducible assumption | with_reducible apply Kept.after_writeNum | with_reducible apply Kept.foldl | with_reducible apply Kept.ite | with_reducible apply Kept.ite_snd | with_reducible apply Kept.ite_fst | with_reducible apply Kept.ite_snd2 | intro _)); done)

theorem Kept.after_outRow {s t : State} {x_t n f r : Nat} {vals : List Nat} (h : Kept s t) : Kept s (State.outRow t x_t n f r vals) := by
  ((try unfold State.outRow); (try simp only []); (repeat' (first | (simp +contextual (maxDischargeDepth := 100) only [h, Kept.after_write]; done) | split | with_reducible assumption | with_reducible apply Kept.after_write | with_reducible apply Kept.foldl | with_reducible apply Kept.ite | with_reducible apply Kept.ite_snd | with_reducible apply Kept.ite_fst | with_reducible apply Kept.ite_snd2 | intro _)); done)

theorem Kept.after_fnBody {s t : State} {x_t w : Nat} (h : Kept s t) : Kept s (fnBody x_t w t) := by
  ((try unfold fnBody); (try simp only []); (repeat' (first | (simp +contextual (maxDischargeDepth := 100) only [h, Kept.after_issueFault, Kept.after_retire, Kept.after_startEngine, Kept.ite]; done) | split | with_reducible assumption | with_reducible apply Kept.after_issueFault | with_reducible apply Kept.after_retire | with_reducible apply Kept.after_startEngine | with_reducible apply Kept.foldl | with_reducible apply Kept.ite | with_reducible apply Kept.ite_snd | with_reducible apply Kept.ite_fst | with_reducible apply Kept.ite_snd2 | intro _)); done)

theorem Kept.after_temperUnitEnd {s t : State} {x_t e total : Nat} {env : UnitEnv} (h : Kept s t) : Kept s (State.temperUnitEnd t x_t e total env) := by
  (unfold State.temperUnitEnd; split <;> simp +contextual (maxDischargeDepth := 100) only [h, Kept.after_add64, Kept.after_completeEngine, Kept.after_setProg, Kept.ite]; done)

theorem Kept.after_fnUnit {s t : State} {x_t w : Nat} {env : UnitEnv} (h : Kept s t) : Kept s (State.fnUnit t x_t w env) := by
  ((try unfold State.fnUnit); (try simp only []); (repeat' (first | (simp +contextual (maxDischargeDepth := 100) only [h, Kept.after_outRow, Kept.after_setStrmNum, Kept.after_tapRow, Kept.after_temperUnitEnd, Kept.ite]; done) | split | with_reducible assumption | with_reducible apply Kept.after_outRow | with_reducible apply Kept.after_setStrmNum | with_reducible apply Kept.after_tapRow | with_reducible apply Kept.after_temperUnitEnd | with_reducible apply Kept.foldl | with_reducible apply Kept.ite | with_reducible apply Kept.ite_snd | with_reducible apply Kept.ite_fst | with_reducible apply Kept.ite_snd2 | intro _)); done)

theorem Kept.after_smaxBody {s t : State} {x_t w : Nat} (h : Kept s t) : Kept s (smaxBody x_t w t) := by
  ((try unfold smaxBody); (try simp only []); (repeat' (first | (simp +contextual (maxDischargeDepth := 100) only [h, Kept.after_issueFault, Kept.after_retire, Kept.after_startEngine, Kept.ite]; done) | split | with_reducible assumption | with_reducible apply Kept.after_issueFault | with_reducible apply Kept.after_retire | with_reducible apply Kept.after_startEngine | with_reducible apply Kept.foldl | with_reducible apply Kept.ite | with_reducible apply Kept.ite_snd | with_reducible apply Kept.ite_fst | with_reducible apply Kept.ite_snd2 | intro _)); done)

theorem Kept.after_smaxUnit {s t : State} {x_t w : Nat} {env : UnitEnv} (h : Kept s t) : Kept s (State.smaxUnit t x_t w env) := by
  (unfold State.smaxUnit; split <;> simp +contextual (maxDischargeDepth := 100) only [h, Kept.after_outRow, Kept.after_setStrmNum, Kept.after_tapRow, Kept.after_temperUnitEnd, Kept.ite]; done)

theorem Kept.after_ropeBody {s t : State} {x_t w : Nat} (h : Kept s t) : Kept s (ropeBody x_t w t) := by
  ((try unfold ropeBody); (try simp only []); (repeat' (first | (simp +contextual (maxDischargeDepth := 100) only [h, Kept.after_issueFault, Kept.after_retire, Kept.after_startEngine, Kept.ite]; done) | split | with_reducible assumption | with_reducible apply Kept.after_issueFault | with_reducible apply Kept.after_retire | with_reducible apply Kept.after_startEngine | with_reducible apply Kept.foldl | with_reducible apply Kept.ite | with_reducible apply Kept.ite_snd | with_reducible apply Kept.ite_fst | with_reducible apply Kept.ite_snd2 | intro _)); done)

theorem Kept.after_ropeUnit {s t : State} {x_t w : Nat} {env : UnitEnv} (h : Kept s t) : Kept s (State.ropeUnit t x_t w env) := by
  ((try unfold State.ropeUnit); (try simp only []); (repeat' (first | (simp +contextual (maxDischargeDepth := 100) only [h, Kept.after_outRow, Kept.after_tapRow, Kept.after_temperUnitEnd]; done) | split | with_reducible assumption | with_reducible apply Kept.after_outRow | with_reducible apply Kept.after_tapRow | with_reducible apply Kept.after_temperUnitEnd | with_reducible apply Kept.foldl | with_reducible apply Kept.ite | with_reducible apply Kept.ite_snd | with_reducible apply Kept.ite_fst | with_reducible apply Kept.ite_snd2 | intro _)); done)

theorem Kept.after_topkBody {s t : State} {x_t w : Nat} (h : Kept s t) : Kept s (topkBody x_t w t) := by
  ((try unfold topkBody); (try simp only []); (repeat' (first | (simp +contextual (maxDischargeDepth := 100) only [h, Kept.after_issueFault, Kept.after_retire, Kept.after_startEngine, Kept.ite]; done) | split | with_reducible assumption | with_reducible apply Kept.after_issueFault | with_reducible apply Kept.after_retire | with_reducible apply Kept.after_startEngine | with_reducible apply Kept.foldl | with_reducible apply Kept.ite | with_reducible apply Kept.ite_snd | with_reducible apply Kept.ite_fst | with_reducible apply Kept.ite_snd2 | intro _)); done)

theorem Kept.after_topkUnit {s t : State} {x_t w : Nat} {env : UnitEnv} (h : Kept s t) : Kept s (State.topkUnit t x_t w env) := by
  ((try unfold State.topkUnit); (try simp only []); (repeat' (first | (simp +contextual (maxDischargeDepth := 100) only [h, Kept.after_temperUnitEnd, Kept.after_write]; done) | split | with_reducible assumption | with_reducible apply Kept.after_temperUnitEnd | with_reducible apply Kept.after_write | with_reducible apply Kept.foldl | with_reducible apply Kept.ite | with_reducible apply Kept.ite_snd | with_reducible apply Kept.ite_fst | with_reducible apply Kept.ite_snd2 | intro _)); done)

theorem Kept.after_sampleBody {s t : State} {x_t w : Nat} (h : Kept s t) : Kept s (sampleBody x_t w t) := by
  ((try unfold sampleBody); (try simp only []); (repeat' (first | (simp +contextual (maxDischargeDepth := 100) only [h, Kept.after_issueFault, Kept.after_retire, Kept.after_startEngine, Kept.ite]; done) | split | with_reducible assumption | with_reducible apply Kept.after_issueFault | with_reducible apply Kept.after_retire | with_reducible apply Kept.after_startEngine | with_reducible apply Kept.foldl | with_reducible apply Kept.ite | with_reducible apply Kept.ite_snd | with_reducible apply Kept.ite_fst | with_reducible apply Kept.ite_snd2 | intro _)); done)

theorem Kept.after_sampleUnit {s t : State} {x_t w : Nat} {env : UnitEnv} (h : Kept s t) : Kept s (State.sampleUnit t x_t w env) := by
  ((try unfold State.sampleUnit); (try simp only []); (repeat' (first | (simp +contextual (maxDischargeDepth := 100) only [h, Kept.after_add64, Kept.after_setFlag, Kept.after_temperUnitEnd, Kept.after_unitFault, Kept.after_write, Kept.ite]; done) | split | with_reducible assumption | with_reducible apply Kept.after_add64 | with_reducible apply Kept.after_setFlag | with_reducible apply Kept.after_temperUnitEnd | with_reducible apply Kept.after_unitFault | with_reducible apply Kept.after_write | with_reducible apply Kept.foldl | with_reducible apply Kept.ite | with_reducible apply Kept.ite_snd | with_reducible apply Kept.ite_fst | with_reducible apply Kept.ite_snd2 | intro _)); done)

theorem Kept.after_stopchkBody {s t : State} {x_t w : Nat} (h : Kept s t) : Kept s (stopchkBody x_t w t) := by
  (unfold stopchkBody; split <;> simp +contextual (maxDischargeDepth := 100) only [h, Kept.after_issueFault, Kept.after_retire, Kept.after_startEngine, Kept.ite]; done)

theorem Kept.after_stopUnit {s t : State} {x_t w : Nat} {env : UnitEnv} (h : Kept s t) : Kept s (State.stopUnit t x_t w env) := by
  ((try unfold State.stopUnit); (try simp only []); (repeat' (first | (simp +contextual (maxDischargeDepth := 100) only [h, Kept.after_setStrmNum, Kept.after_temperUnitEnd, Kept.after_unitFault, Kept.after_write, Kept.foldl, Kept.ite, implies_true]; done) | split | with_reducible assumption | with_reducible apply Kept.after_setStrmNum | with_reducible apply Kept.after_temperUnitEnd | with_reducible apply Kept.after_unitFault | with_reducible apply Kept.after_write | with_reducible apply Kept.foldl | with_reducible apply Kept.ite | with_reducible apply Kept.ite_snd | with_reducible apply Kept.ite_fst | with_reducible apply Kept.ite_snd2 | intro _)); done)

theorem Kept.after_rngBody {s t : State} {x_t w : Nat} (h : Kept s t) : Kept s (rngBody x_t w t) := by
  (unfold rngBody; split <;> simp +contextual (maxDischargeDepth := 100) only [h, Kept.after_issueFault, Kept.after_retire, Kept.after_startEngine, Kept.ite]; done)

theorem Kept.after_rngUnit {s t : State} {x_t w : Nat} {env : UnitEnv} (h : Kept s t) : Kept s (State.rngUnit t x_t w env) := by
  ((try unfold State.rngUnit); (try simp only []); (repeat' (first | (simp +contextual (maxDischargeDepth := 100) only [h, Kept.after_add64, Kept.after_temperUnitEnd, Kept.after_write]; done) | split | with_reducible assumption | with_reducible apply Kept.after_add64 | with_reducible apply Kept.after_temperUnitEnd | with_reducible apply Kept.after_write | with_reducible apply Kept.foldl | with_reducible apply Kept.ite | with_reducible apply Kept.ite_snd | with_reducible apply Kept.ite_fst | with_reducible apply Kept.ite_snd2 | intro _)); done)

theorem Kept.after_commonUnit {s t : State} {x_t e w : Nat} {env : UnitEnv} (h : Kept s t) : Kept s (State.commonUnit t x_t e w env) := by
  (unfold State.commonUnit; split <;> simp +contextual (maxDischargeDepth := 100) only [h, Kept.after_peekUnit, Kept.after_quenchUnit, Kept.after_recvUnit, Kept.after_sendUnit, Kept.ite]; done)

theorem Kept.after_typeUnit {s t : State} {x_t w : Nat} {env : UnitEnv} (h : Kept s t) : Kept s (State.typeUnit t x_t w env) := by
  (unfold State.typeUnit; split <;> simp +contextual (maxDischargeDepth := 100) only [h, Kept.after_bgathUnit, Kept.after_brdUnit, Kept.after_bscatUnit, Kept.after_bwrUnit, Kept.after_cmdUnit, Kept.after_drainUnit, Kept.after_fnUnit, Kept.after_mmaUnit, Kept.after_rngUnit, Kept.after_ropeUnit, Kept.after_sampleUnit, Kept.after_smaxUnit, Kept.after_stopUnit, Kept.after_topkUnit, Kept.after_wldUnit, Kept.after_wswapUnit]; done)

theorem Kept.after_readErrors {s t : State} {x_t : Nat} {e : ReadEcc} (h : Kept s t) : Kept s (State.readErrors t x_t e) := by
  (unfold State.readErrors; split <;> simp +contextual (maxDischargeDepth := 100) only [h, Kept.after_flipBytes, Kept.after_modTile]; done)

theorem Kept.after_putBytes {s t : State} {x_t : Nat} {l : List (Nat × Byte)} (h : Kept s t) : Kept s (State.putBytes t x_t l) := by
  ((try unfold State.putBytes); (try simp only []); (repeat' (first | (simp +contextual (maxDischargeDepth := 100) only [h, Kept.after_setByte, Kept.foldl, implies_true]; done) | split | with_reducible assumption | with_reducible apply Kept.after_setByte | with_reducible apply Kept.foldl | with_reducible apply Kept.ite | with_reducible apply Kept.ite_snd | with_reducible apply Kept.ite_fst | with_reducible apply Kept.ite_snd2 | intro _)); done)

theorem Kept.after_settleBytes {s t : State} {before : State} {x_t : Nat} {l : List (Nat × Byte)} (hbefore : Kept s before) (h : Kept s t) : Kept s (State.settleBytes t before x_t l) := by
  ((try unfold State.settleBytes); (try simp only []); (repeat' (first | (simp +contextual (maxDischargeDepth := 100) only [h, Kept.after_setByte, Kept.foldl, Kept.ite, implies_true]; done) | split | with_reducible assumption | with_reducible apply hbefore | with_reducible apply Kept.after_setByte | with_reducible apply Kept.foldl | with_reducible apply Kept.ite | with_reducible apply Kept.ite_snd | with_reducible apply Kept.ite_fst | with_reducible apply Kept.ite_snd2 | intro _)); done)

theorem Kept.after_unitBody {s t : State} {x_t e w : Nat} {env : UnitEnv} (h : Kept s t) : Kept s (State.unitBody t x_t e w env) := by
  (unfold State.unitBody; split <;> simp +contextual (maxDischargeDepth := 100) only [h, Kept.after_commonUnit, Kept.after_typeUnit]; done)

theorem Kept.after_oneUnit {s t : State} {x_t e w : Nat} {env : UnitEnv} (h : Kept s t) : Kept s (State.oneUnit t x_t e w env) := by
  (unfold State.oneUnit; split <;> simp +contextual (maxDischargeDepth := 100) only [h, Kept.after_conflicts, Kept.after_eccStore, Kept.after_programMarchUnit, Kept.after_putBytes, Kept.after_readErrors, Kept.after_settleBytes, Kept.after_unitBody, Kept.ite]; done)

theorem Kept.after_engineUnit {s t : State} {x_t e : Nat} {env : UnitEnv} (h : Kept s t) : Kept s (engineUnit x_t e env t) := by
  ((try unfold engineUnit); (try simp only []); (repeat' (first | (simp +contextual (maxDischargeDepth := 100) only [h, Kept.after_firmwareMarchUnit, Kept.after_oneUnit, Kept.ite]; done) | split | with_reducible assumption | with_reducible apply Kept.after_firmwareMarchUnit | with_reducible apply Kept.after_oneUnit | with_reducible apply Kept.foldl | with_reducible apply Kept.ite | with_reducible apply Kept.ite_snd | with_reducible apply Kept.ite_fst | with_reducible apply Kept.ite_snd2 | intro _)); done)

end Sys2Proof.Machine
end

