-- ==== Sys2Proof/Laws/KeptRun.lean ====
section
/-! SUPPORT. `Kept` for the operations of chapters 12, 14 to 16 and 19. -/

set_option maxRecDepth 8000
set_option linter.all false
namespace Sys2Proof.Machine

theorem Kept.after_requestLoad {s t : State} {p : Nat} (h : Kept s t) : Kept s (State.requestLoad t p) := by
  (unfold State.requestLoad; split <;> simp +contextual (maxDischargeDepth := 100) only [h, Kept.after_setFlag, Kept.after_setFld, Kept.mk_iff, Kept.pending, Kept.fuses, Kept.free, Kept.mem, Kept.regs, Kept.flash, and_self]; done)

theorem Kept.after_requestArm {s t : State} {p : Nat} (h : Kept s t) : Kept s (State.requestArm t p) := by
  (unfold State.requestArm; split <;> simp +contextual (maxDischargeDepth := 100) only [h, Kept.after_modPart, Kept.after_setFlag, Kept.after_setFld]; done)

theorem Kept.after_writeCfgCtrl {s t : State} {p : Nat} {v : Word} (h : Kept s t) : Kept s (State.writeCfgCtrl t p v) := by
  (unfold State.writeCfgCtrl; split <;> simp +contextual (maxDischargeDepth := 100) only [h, Kept.after_requestArm, Kept.after_requestLoad, Kept.after_setFld, Kept.ite]; done)

theorem Kept.after_putWord {s t : State} {o shadow : Nat} {v : Nat} (h : Kept s t) : Kept s (State.putWord t o shadow v) := by
  ((try unfold State.putWord); (try simp only []); (repeat' (first | (simp +contextual (maxDischargeDepth := 100) only [h, Kept.after_setReg]; done) | split | with_reducible assumption | with_reducible apply Kept.after_setReg | with_reducible apply Kept.foldl | with_reducible apply Kept.ite | with_reducible apply Kept.ite_snd | with_reducible apply Kept.ite_fst | with_reducible apply Kept.ite_snd2 | intro _)); done)

theorem Kept.after_putProgram {s t : State} {x_t : Nat} {act : Bool} {n : Nat} {b : List Byte} (h : Kept s t) : Kept s (State.putProgram t x_t act n b) := by
  ((try unfold State.putProgram); (try simp only []); (repeat' (first | (simp +contextual (maxDischargeDepth := 100) only [h, Kept.after_writeRun]; done) | split | with_reducible assumption | with_reducible apply Kept.after_writeRun | with_reducible apply Kept.foldl | with_reducible apply Kept.ite | with_reducible apply Kept.ite_snd | with_reducible apply Kept.ite_fst | with_reducible apply Kept.ite_snd2 | intro _)); done)

theorem Kept.after_putRoutes {s t : State} {x_t : Nat} {act : Bool} {b : List Byte} (h : Kept s t) : Kept s (State.putRoutes t x_t act b) := by
  ((try unfold State.putRoutes); (try simp only []); (repeat' (first | (simp +contextual (maxDischargeDepth := 100) only [h, Kept.after_putWord, Kept.foldl, implies_true]; done) | split | with_reducible assumption | with_reducible apply Kept.after_putWord | with_reducible apply Kept.foldl | with_reducible apply Kept.ite | with_reducible apply Kept.ite_snd | with_reducible apply Kept.ite_fst | with_reducible apply Kept.ite_snd2 | intro _)); done)

theorem Kept.after_putStreams {s t : State} {x_t : Nat} {act : Bool} {b : List Byte} (h : Kept s t) : Kept s (State.putStreams t x_t act b) := by
  ((try unfold State.putStreams); (try simp only []); (repeat' (first | (simp +contextual (maxDischargeDepth := 100) only [h, Kept.after_putWord, Kept.foldl, implies_true]; done) | split | with_reducible assumption | with_reducible apply Kept.after_putWord | with_reducible apply Kept.foldl | with_reducible apply Kept.ite | with_reducible apply Kept.ite_snd | with_reducible apply Kept.ite_fst | with_reducible apply Kept.ite_snd2 | intro _)); done)

theorem Kept.after_putNothing {s t : State} {x_t : Nat} {act : Bool} (h : Kept s t) : Kept s (State.putNothing t x_t act) := by
  unfold State.putNothing
  dsimp only
  repeat' (first | with_reducible assumption | with_reducible apply Kept.after_putProgram | with_reducible apply Kept.foldl | with_reducible apply Kept.after_setReg | split | intro _)

theorem EKept.section_ {s : State} {l : Loading} {p base bays : Nat} {act : Bool} (h : Kept s l.s) :
    EKept (fun x => Kept s x.s) (l.section_ p base bays act) := by
  unfold Loading.section_
  repeat' (first | with_reducible assumption | with_reducible apply EKept.pure | with_reducible apply EKept.throw | with_reducible apply EKept.ite | with_reducible apply EKept.bindAny | with_reducible apply Kept.after_putProgram | with_reducible apply Kept.after_putRoutes | with_reducible apply Kept.after_putStreams | split | intro _ | dsimp only)

theorem EKept.sections {s : State} {l : Loading} {p base bays k : Nat} {act : Bool} (h : Kept s l.s) :
    EKept (fun x => Kept s x.s) (Loading.sections p base bays act k l) := by
  induction k generalizing l with
  | zero => exact EKept.ok h
  | succ k ih => exact EKept.bind (EKept.section_ h) (fun a ha => ih ha)

theorem EKept.loadImage {s t : State} {p base : Nat} {act : Bool} (h : Kept s t) :
    EKept (fun x => Kept s x.1) (t.loadImage p base act) := by
  unfold State.loadImage
  refine EKept.bindAny (fun a => ?_)
  dsimp only
  split
  · exact EKept.throw
  refine EKept.bind (EKept.sections (l := ⟨t, 1, []⟩) h) (fun l hl => ?_)
  repeat' (first | with_reducible assumption | with_reducible apply EKept.pure | with_reducible apply EKept.throw | with_reducible apply EKept.ite | with_reducible apply EKept.bindAny | with_reducible apply Kept.after_putNothing | with_reducible apply Kept.after_pass | with_reducible apply Kept.foldl | split | intro _ | dsimp only)

theorem Kept.after_loadImage {s t u : State} {p base : Nat} {act : Bool} {y : List (Nat × Nat)} {z : List Byte} (h : Kept s t)
    (hu : t.loadImage p base act = .ok (u, y, z)) : Kept s u := (EKept.loadImage h).answers _ hu

theorem Kept.after_freeBytes {s t : State} {a : Nat} {u0 : Nat} (h : Kept s t) : Kept s (State.freeBytes t a u0) := by
  (induction u0 generalizing t a <;> simp +contextual (maxDischargeDepth := 100) only [State.freeBytes, *, Kept.after_setByte, Kept.after_took]; done)

theorem Kept.after_freeWord {s t : State} {o : Nat} (h : Kept s t) : Kept s (State.freeWord t o) := by
  ((try unfold State.freeWord); (try simp only []); (repeat' (first | (simp +contextual (maxDischargeDepth := 100) only [h, Kept.after_setReg, Kept.after_took]; done) | split | with_reducible assumption | with_reducible apply Kept.after_setReg | with_reducible apply Kept.after_took | with_reducible apply Kept.foldl | with_reducible apply Kept.ite | with_reducible apply Kept.ite_snd | with_reducible apply Kept.ite_fst | with_reducible apply Kept.ite_snd2 | intro _)); done)

theorem Kept.after_freeChannels {s t : State} {p : Nat} {u0 : Nat} (h : Kept s t) : Kept s (State.freeChannels t p u0) := by
  (induction u0 generalizing t p <;> simp +contextual (maxDischargeDepth := 100) only [State.freeChannels, *, Kept.after_modPart, Kept.after_took]; done)

theorem Kept.after_undefineShadow {s t : State} {p : Nat} (h : Kept s t) : Kept s (State.undefineShadow t p) := by
  ((try unfold State.undefineShadow); (try simp only []); (repeat' (first | (simp +contextual (maxDischargeDepth := 100) only [h, Kept.after_freeBytes, Kept.after_freeChannels, Kept.after_freeWord, Kept.after_modPart, Kept.after_took, Kept.foldl, Kept.ite, implies_true]; done) | split | with_reducible assumption | with_reducible apply Kept.after_freeBytes | with_reducible apply Kept.after_freeChannels | with_reducible apply Kept.after_freeWord | with_reducible apply Kept.after_modPart | with_reducible apply Kept.after_took | with_reducible apply Kept.foldl | with_reducible apply Kept.ite | with_reducible apply Kept.ite_snd | with_reducible apply Kept.ite_fst | with_reducible apply Kept.ite_snd2 | intro _)); done)

theorem Kept.after_setMeas {s t : State} {p : Nat} {act : Bool} {d : List Byte} (h : Kept s t) : Kept s (State.setMeas t p act d) := by
  (unfold State.setMeas; split <;> simp +contextual (maxDischargeDepth := 100) only [h, Kept.after_setReg, Kept.foldl, implies_true]; done)

theorem Kept.after_shadowLoad {s t : State} {p : Nat} {res : EndKind} (h : Kept s t) : Kept s (State.shadowLoad t p res) := by
  ((try unfold State.shadowLoad); (try simp only []); (repeat' (first | (simp +contextual (maxDischargeDepth := 100) only [h, Kept.after_pass, Kept.after_setFld, Kept.after_undefineShadow]; done) | split | with_reducible refine Kept.after_loadImage ?_ (by with_reducible assumption) | with_reducible assumption | with_reducible apply Kept.after_modPart | with_reducible apply Kept.after_pass | with_reducible apply Kept.after_setFld | with_reducible apply Kept.after_setMeas | with_reducible apply Kept.after_undefineShadow | with_reducible apply Kept.foldl | with_reducible apply Kept.ite | with_reducible apply Kept.ite_snd | with_reducible apply Kept.ite_fst | with_reducible apply Kept.ite_snd2 | intro _)); done)

theorem Kept.after_noActive {s t : State} {p : Nat} (h : Kept s t) : Kept s (State.noActive t p) := by
  ((try unfold State.noActive); (try simp only []); (repeat' (first | (simp +contextual (maxDischargeDepth := 100) only [h, Kept.after_modPart, Kept.after_setFlag, Kept.foldl, Kept.ite, implies_true]; done) | split | with_reducible assumption | with_reducible apply Kept.after_modPart | with_reducible apply Kept.after_setFlag | with_reducible apply Kept.foldl | with_reducible apply Kept.ite | with_reducible apply Kept.ite_snd | with_reducible apply Kept.ite_fst | with_reducible apply Kept.ite_snd2 | intro _)); done)

theorem Kept.after_resumeFail {s t : State} {p : Nat} {fresh act : Bool} {k : Nat} (h : Kept s t) : Kept s (State.resumeFail t p fresh act k) := by
  (unfold State.resumeFail; split <;> simp +contextual (maxDischargeDepth := 100) only [h, Kept.after_modPart, Kept.after_noActive, Kept.after_setFld, Kept.ite]; done)

theorem Kept.after_resumeOne {s t : State} {p : Nat} {res : EndKind} {fresh act want : Bool} {base : Nat} (h : Kept s t) : Kept s (State.resumeOne t p res fresh act want base) := by
  unfold State.resumeOne
  repeat' (first | with_reducible assumption | with_reducible refine Kept.after_loadImage ?_ (by with_reducible assumption) | with_reducible apply Kept.after_modPart | with_reducible apply Kept.after_setMeas | with_reducible apply Kept.after_resumeFail | with_reducible apply Kept.after_noActive | with_reducible apply Kept.after_pass | split | intro _)

theorem Kept.after_resumeLoad {s t : State} {p : Nat} {res : EndKind} (h : Kept s t) : Kept s (State.resumeLoad t p res) := by
  ((try unfold State.resumeLoad); (try simp only []); (repeat' (first | (simp +contextual (maxDischargeDepth := 100) only [h, Kept.after_modPart, Kept.after_resumeOne]; done) | split | with_reducible assumption | with_reducible apply Kept.after_modPart | with_reducible apply Kept.after_resumeOne | with_reducible apply Kept.foldl | with_reducible apply Kept.ite | with_reducible apply Kept.ite_snd | with_reducible apply Kept.ite_fst | with_reducible apply Kept.ite_snd2 | intro _)); done)

theorem Kept.after_loadComplete {s t : State} {res : EndKind} (h : Kept s t) : Kept s (loadComplete res t) := by
  (unfold loadComplete; split <;> simp +contextual (maxDischargeDepth := 100) only [h, Kept.after_countError, Kept.after_resumeLoad, Kept.after_shadowLoad, Kept.mk_iff, Kept.pending, Kept.fuses, Kept.free, Kept.mem, Kept.regs, Kept.flash, Kept.ite, and_self]; done)

theorem Kept.after_ingPost {s t : State} {p : Nat} {v : Word} (h : Kept s t) : Kept s (State.ingPost t p v) := by
  ((try unfold State.ingPost); (try simp only []); (repeat' (first | (simp +contextual (maxDischargeDepth := 100) only [h, Kept.after_modPart, Kept.after_setFlag, Kept.ite]; done) | split | with_reducible assumption | with_reducible apply Kept.after_modPart | with_reducible apply Kept.after_setFlag | with_reducible apply Kept.foldl | with_reducible apply Kept.ite | with_reducible apply Kept.ite_snd | with_reducible apply Kept.ite_fst | with_reducible apply Kept.ite_snd2 | intro _)); done)

theorem Kept.after_ingressDelivery {s t : State} {p ch : Nat} (h : Kept s t) : Kept s (ingressDelivery p ch t) := by
  ((try unfold ingressDelivery); (try simp only []); (repeat' (first | (simp +contextual (maxDischargeDepth := 100) only [h, Kept.after_modPart, Kept.after_setQueue, Kept.mk_iff, Kept.pending, Kept.fuses, Kept.free, Kept.mem, Kept.regs, Kept.flash, Kept.ite, and_self]; done) | split | with_reducible assumption | with_reducible apply Kept.after_modPart | with_reducible apply Kept.after_setQueue | with_reducible apply Kept.foldl | with_reducible apply Kept.ite | with_reducible apply Kept.ite_snd | with_reducible apply Kept.ite_fst | with_reducible apply Kept.ite_snd2 | intro _)); done)

theorem Kept.after_exchange {s t : State} {a b : Nat} (h : Kept s t) : Kept s (State.exchange t a b) := by
  ((try unfold State.exchange); (try simp only []); (repeat' (first | (simp +contextual (maxDischargeDepth := 100) only [h, Kept.after_setReg]; done) | split | with_reducible assumption | with_reducible apply Kept.after_setReg | with_reducible apply Kept.foldl | with_reducible apply Kept.ite | with_reducible apply Kept.ite_snd | with_reducible apply Kept.ite_fst | with_reducible apply Kept.ite_snd2 | intro _)); done)

theorem Kept.after_clearSequencer {s t : State} {x_t : Nat} (h : Kept s t) : Kept s (State.clearSequencer t x_t) := by
  ((try unfold State.clearSequencer); (try simp only []); (repeat' (first | (simp +contextual (maxDischargeDepth := 100) only [h, Kept.after_setFld, Kept.after_setPc, Kept.after_setReg, Kept.foldl, implies_true]; done) | split | with_reducible assumption | with_reducible apply Kept.after_setFld | with_reducible apply Kept.after_setPc | with_reducible apply Kept.after_setReg | with_reducible apply Kept.foldl | with_reducible apply Kept.ite | with_reducible apply Kept.ite_snd | with_reducible apply Kept.ite_fst | with_reducible apply Kept.ite_snd2 | intro _)); done)

theorem Kept.after_clearSwitch {s t : State} {x_t : Nat} (h : Kept s t) : Kept s (State.clearSwitch t x_t) := by
  ((try unfold State.clearSwitch); (try simp only []); (repeat' (first | (simp +contextual (maxDischargeDepth := 100) only [h, Kept.after_modTile]; done) | split | with_reducible assumption | with_reducible apply Kept.after_modTile | with_reducible apply Kept.foldl | with_reducible apply Kept.ite | with_reducible apply Kept.ite_snd | with_reducible apply Kept.ite_fst | with_reducible apply Kept.ite_snd2 | intro _)); done)

theorem Kept.after_beginStreams {s t : State} {x_t : Nat} (h : Kept s t) : Kept s (State.beginStreams t x_t) := by
  ((try unfold State.beginStreams); (try simp only []); (repeat' (first | (simp +contextual (maxDischargeDepth := 100) only [h, Kept.after_setFld, Kept.after_setReg, Kept.after_setStream, Kept.foldl, implies_true]; done) | split | with_reducible assumption | with_reducible apply Kept.after_setFld | with_reducible apply Kept.after_setReg | with_reducible apply Kept.after_setStream | with_reducible apply Kept.foldl | with_reducible apply Kept.ite | with_reducible apply Kept.ite_snd | with_reducible apply Kept.ite_fst | with_reducible apply Kept.ite_snd2 | intro _)); done)

theorem Kept.after_swapTile {s t : State} {x_t : Nat} (h : Kept s t) : Kept s (State.swapTile t x_t) := by
  (unfold State.swapTile; split <;> simp +contextual (maxDischargeDepth := 100) only [h, Kept.after_beginStreams, Kept.after_clearSequencer, Kept.after_clearSwitch, Kept.after_dropSets, Kept.after_exchange, Kept.after_setFld, Kept.after_setSeqState, Kept.foldl, Kept.ite, implies_true]; done)

theorem Kept.after_swap {s t : State} {p : Nat} (h : Kept s t) : Kept s (State.swap t p) := by
  ((try unfold State.swap); (try simp only []); (repeat' (first | (simp +contextual (maxDischargeDepth := 100) only [h, Kept.after_exchange, Kept.after_modPart, Kept.after_rebuildCredits, Kept.after_setFlag, Kept.after_setFld, Kept.after_setReg, Kept.after_setReg64, Kept.after_swapEnvelopes, Kept.after_swapTile, Kept.foldl, implies_true]; done) | split | with_reducible assumption | with_reducible apply Kept.after_exchange | with_reducible apply Kept.after_modPart | with_reducible apply Kept.after_rebuildCredits | with_reducible apply Kept.after_setFlag | with_reducible apply Kept.after_setFld | with_reducible apply Kept.after_setReg | with_reducible apply Kept.after_setReg64 | with_reducible apply Kept.after_swapEnvelopes | with_reducible apply Kept.after_swapTile | with_reducible apply Kept.foldl | with_reducible apply Kept.ite | with_reducible apply Kept.ite_snd | with_reducible apply Kept.ite_fst | with_reducible apply Kept.ite_snd2 | intro _)); done)

theorem Kept.after_configurationSwap {s t : State} {p : Nat} (h : Kept s t) : Kept s (configurationSwap p t) := by
  (unfold configurationSwap; split <;> simp +contextual (maxDischargeDepth := 100) only [h, Kept.after_swap, Kept.mk_iff, Kept.pending, Kept.fuses, Kept.free, Kept.mem, Kept.regs, Kept.flash, and_self]; done)

theorem Kept.after_drainTimeout {s t : State} {p : Nat} (h : Kept s t) : Kept s (drainTimeout p t) := by
  (unfold drainTimeout; split <;> simp +contextual (maxDischargeDepth := 100) only [h, Kept.after_faultTile, Kept.ite]; done)

theorem Kept.after_admitList {s t : State} {op part : Nat} {l : List Byte} {back : State → List Byte → State} (hback : ∀ t y0, Kept s t → Kept s (back t y0)) (h : Kept s t) : Kept s (State.admitList t op part l back) := by
  ((try unfold State.admitList); (try simp only []); (repeat' (first | (simp +contextual (maxDischargeDepth := 100) only [h, Kept.after_admitError]; done) | split | with_reducible refine Kept.captured ?_ (by with_reducible assumption) | with_reducible assumption | with_reducible apply hback | with_reducible apply Kept.after_admitError | with_reducible apply Kept.foldl | with_reducible apply Kept.ite | with_reducible apply Kept.ite_snd | with_reducible apply Kept.ite_fst | with_reducible apply Kept.ite_snd2 | intro _)); done)

theorem Kept.after_admitMem {s t : State} {op part off n : Nat} (h : Kept s t) : Kept s (State.admitMem t op part off n) := by
  ((try unfold State.admitMem); (try simp only []); (repeat' (first | (simp +contextual (maxDischargeDepth := 100) only [h, Kept.after_admitList, Kept.after_pass, Kept.after_write, implies_true]; done) | split | with_reducible assumption | with_reducible apply Kept.after_admitList | with_reducible apply Kept.after_pass | with_reducible apply Kept.after_write | with_reducible apply Kept.foldl | with_reducible apply Kept.ite | with_reducible apply Kept.ite_snd | with_reducible apply Kept.ite_fst | with_reducible apply Kept.ite_snd2 | intro _)); done)

theorem Kept.after_admitSram {s t : State} {op part off n : Nat} (h : Kept s t) : Kept s (State.admitSram t op part off n) := by
  ((try unfold State.admitSram); (try simp only []); (repeat' (first | (simp +contextual (maxDischargeDepth := 100) only [h, Kept.after_admitError, Kept.after_admitList, Kept.after_movedAt, Kept.after_window, implies_true]; done) | split | with_reducible assumption | with_reducible apply Kept.after_admitError | with_reducible apply Kept.after_admitList | with_reducible apply Kept.after_movedAt | with_reducible apply Kept.after_window | with_reducible apply Kept.after_write | with_reducible apply Kept.foldl | with_reducible apply Kept.ite | with_reducible apply Kept.ite_snd | with_reducible apply Kept.ite_fst | with_reducible apply Kept.ite_snd2 | intro _)); done)

theorem Kept.after_runAdmission {s t : State}  (h : Kept s t) : Kept s (State.runAdmission t) := by
  ((try unfold State.runAdmission); (try simp only []); (repeat' (first | (simp +contextual (maxDischargeDepth := 100) only [h, Kept.after_admitError, Kept.after_admitMem, Kept.after_admitSram, Kept.after_sendRequest, Kept.after_setFlag, Kept.ite]; done) | split | with_reducible assumption | with_reducible apply Kept.after_admitError | with_reducible apply Kept.after_admitMem | with_reducible apply Kept.after_admitSram | with_reducible apply Kept.after_sendRequest | with_reducible apply Kept.after_setFlag | with_reducible apply Kept.foldl | with_reducible apply Kept.ite | with_reducible apply Kept.ite_snd | with_reducible apply Kept.ite_fst | with_reducible apply Kept.ite_snd2 | intro _)); done)

theorem Kept.after_writeAdmit {s t : State} {v : Word} (h : Kept s t) : Kept s (State.writeAdmit t v) := by
  (unfold State.writeAdmit; split <;> simp +contextual (maxDischargeDepth := 100) only [h, Kept.after_runAdmission, Kept.after_setReg]; done)

theorem Kept.after_admitRow {s t : State} {m : Master} {op : Nat} {v : Word} (h : Kept s t) : Kept s (State.admitRow t m op v) := by
  (unfold State.admitRow; split <;> simp +contextual (maxDischargeDepth := 100) only [h, Kept.after_byFirmware, Kept.after_writeAdmit, implies_true]; done)

theorem Kept.after_wsRefused {s t : State}  (h : Kept s t) : Kept s (State.wsRefused t) := by
  ((try unfold State.wsRefused); (try simp only []); (repeat' (first | (simp +contextual (maxDischargeDepth := 100) only [h, Kept.after_setFlag]; done) | split | with_reducible assumption | with_reducible apply Kept.after_setFlag | with_reducible apply Kept.foldl | with_reducible apply Kept.ite | with_reducible apply Kept.ite_snd | with_reducible apply Kept.ite_fst | with_reducible apply Kept.ite_snd2 | intro _)); done)

theorem Kept.after_wsSwitch {s t : State} {w : Nat} (h : Kept s t) : Kept s (State.wsSwitch t w) := by
  ((try unfold State.wsSwitch); (try simp only []); (repeat' (first | (simp +contextual (maxDischargeDepth := 100) only [h, Kept.after_setFld, Kept.after_setFreed, Kept.after_setReg, Kept.after_wsRefused, Kept.mk_iff, Kept.pending, Kept.fuses, Kept.free, Kept.mem, Kept.regs, Kept.flash, Kept.ite, and_self]; done) | split | with_reducible assumption | with_reducible apply Kept.after_setFld | with_reducible apply Kept.after_setFreed | with_reducible apply Kept.after_setReg | with_reducible apply Kept.after_wsRefused | with_reducible apply Kept.foldl | with_reducible apply Kept.ite | with_reducible apply Kept.ite_snd | with_reducible apply Kept.ite_fst | with_reducible apply Kept.ite_snd2 | intro _)); done)

theorem Kept.after_wsFill {s t : State} {w k : Nat} (h : Kept s t) : Kept s (State.wsFill t w k) := by
  (unfold State.wsFill; split <;> simp +contextual (maxDischargeDepth := 100) only [h, Kept.after_setFlag, Kept.after_setFld, Kept.after_wsRefused, Kept.mk_iff, Kept.pending, Kept.fuses, Kept.free, Kept.mem, Kept.regs, Kept.flash, and_self]; done)

theorem Kept.after_writeWsCmd {s t : State} {v : Word} (h : Kept s t) : Kept s (State.writeWsCmd t v) := by
  (unfold State.writeWsCmd; split <;> simp +contextual (maxDischargeDepth := 100) only [h, Kept.after_setReg, Kept.after_wsFill, Kept.after_wsSwitch, Kept.ite]; done)

theorem Kept.after_wsRow {s t : State} {m : Master} {op : Nat} {v : Word} (h : Kept s t) : Kept s (State.wsRow t m op v) := by
  (unfold State.wsRow; split <;> simp +contextual (maxDischargeDepth := 100) only [h, Kept.after_byFirmware, Kept.after_writeWsCmd, implies_true]; done)

theorem Kept.after_fillComplete {s t : State}  (h : Kept s t) : Kept s (fillComplete t) := by
  (unfold fillComplete; split <;> simp +contextual (maxDischargeDepth := 100) only [h, Kept.after_setFlag, Kept.mk_iff, Kept.pending, Kept.fuses, Kept.free, Kept.mem, Kept.regs, Kept.flash, Kept.ite, and_self]; done)

theorem Kept.after_writeWsSlot {s t : State} {w k o : Nat} {v : Word} (h : Kept s t) : Kept s (State.writeWsSlot t w k o v) := by
  (unfold State.writeWsSlot; split <;> simp +contextual (maxDischargeDepth := 100) only [h, Kept.after_setReg, Kept.after_wsRefused]; done)

theorem Kept.after_writeWsW0 {s t : State} {w : Nat} {v : Word} (h : Kept s t) : Kept s (State.writeWsW0 t w v) := by
  ((try unfold State.writeWsW0); (try simp only []); (repeat' (first | (simp +contextual (maxDischargeDepth := 100) only [h, Kept.after_setReg, Kept.mk_iff, Kept.pending, Kept.fuses, Kept.free, Kept.mem, Kept.regs, Kept.flash, Kept.ite, and_self]; done) | split | with_reducible assumption | with_reducible apply Kept.after_setReg | with_reducible apply Kept.foldl | with_reducible apply Kept.ite | with_reducible apply Kept.ite_snd | with_reducible apply Kept.ite_fst | with_reducible apply Kept.ite_snd2 | intro _)); done)

theorem Kept.after_hostWrite {s t : State} {a : Nat} {d : List Byte} (h : Kept s t) : Kept s (State.hostWrite t a d) := by
  (unfold State.hostWrite; split <;> simp +contextual (maxDischargeDepth := 100) only [h, Kept.after_emit, Kept.mk_iff, Kept.pending, Kept.fuses, Kept.free, Kept.mem, Kept.regs, Kept.flash, and_self]; done)

theorem Kept.after_hostInterrupt {s t : State} {rule : Nat} (h : Kept s t) : Kept s (State.hostInterrupt t rule) := by
  (unfold State.hostInterrupt; split <;> simp +contextual (maxDischargeDepth := 100) only [h, Kept.after_emit]; done)

theorem Kept.after_setLine {s t : State} {l : WatchLine} {held fill : Bool} (h : Kept s t) : Kept s (State.setLine t l held fill) := by
  (unfold State.setLine; split <;> simp +contextual (maxDischargeDepth := 100) only [h, Kept.after_modLog]; done)

theorem Kept.after_takeLine {s t : State} {l : WatchLine} (h : Kept s t) : Kept s (State.takeLine t l) := by
  ((try unfold State.takeLine); (try simp only []); (repeat' (first | (simp +contextual (maxDischargeDepth := 100) only [h, Kept.after_emit, Kept.after_setLine]; done) | split | with_reducible assumption | with_reducible apply Kept.after_emit | with_reducible apply Kept.after_setLine | with_reducible apply Kept.foldl | with_reducible apply Kept.ite | with_reducible apply Kept.ite_snd | with_reducible apply Kept.ite_fst | with_reducible apply Kept.ite_snd2 | intro _)); done)

theorem Kept.after_watchLineSnoop {s t : State} {l : WatchLine} (h : Kept s t) : Kept s (watchLineSnoop l t) := by
  (unfold watchLineSnoop; split <;> simp +contextual (maxDischargeDepth := 100) only [h, Kept.after_add64, Kept.after_emit, Kept.after_takeLine, Kept.ite]; done)

theorem Kept.after_eachRequest {s t : State} {f : Nat → Request → Request} (h : Kept s t) : Kept s (State.eachRequest t f) := by
  ((try unfold State.eachRequest); (try simp only []); (repeat' (first | (simp +contextual (maxDischargeDepth := 100) only [h, Kept.after_setRequest, Kept.foldl, implies_true]; done) | split | with_reducible assumption | with_reducible apply Kept.after_setRequest | with_reducible apply Kept.foldl | with_reducible apply Kept.ite | with_reducible apply Kept.ite_snd | with_reducible apply Kept.ite_fst | with_reducible apply Kept.ite_snd2 | intro _)); done)

theorem Kept.after_putRecord {s t : State} {n idx : Nat} {r : OutRecord} (h : Kept s t) : Kept s (State.putRecord t n idx r) := by
  ((try unfold State.putRecord); (try simp only []); (repeat' (first | (simp +contextual (maxDischargeDepth := 100) only [h, Kept.after_hostWrite]; done) | split | with_reducible assumption | with_reducible apply Kept.after_hostWrite | with_reducible apply Kept.foldl | with_reducible apply Kept.ite | with_reducible apply Kept.ite_snd | with_reducible apply Kept.ite_fst | with_reducible apply Kept.ite_snd2 | intro _)); done)

theorem Kept.after_takeIndices {s t : State} {n k : Nat} (h : Kept s t) : Kept s (State.takeIndices t n k) := by
  ((try unfold State.takeIndices); (try simp only []); (repeat' (first | (simp +contextual (maxDischargeDepth := 100) only [h, Kept.after_setReg]; done) | split | with_reducible assumption | with_reducible apply Kept.after_setReg | with_reducible apply Kept.foldl | with_reducible apply Kept.ite | with_reducible apply Kept.ite_snd | with_reducible apply Kept.ite_fst | with_reducible apply Kept.ite_snd2 | intro _)); done)

theorem Kept.after_nextRecord {s t : State} {n : Nat} {r : OutRecord} (h : Kept s t) : Kept s (State.nextRecord t n r) := by
  ((try unfold State.nextRecord); (try simp only []); (repeat' (first | (simp +contextual (maxDischargeDepth := 100) only [h, Kept.after_putRecord, Kept.after_takeIndices]; done) | split | with_reducible assumption | with_reducible apply Kept.after_putRecord | with_reducible apply Kept.after_takeIndices | with_reducible apply Kept.foldl | with_reducible apply Kept.ite | with_reducible apply Kept.ite_snd | with_reducible apply Kept.ite_fst | with_reducible apply Kept.ite_snd2 | intro _)); done)

theorem Kept.after_reserve {s t : State} {n k : Nat} (h : Kept s t) : Kept s (State.reserve t n k) := by
  ((try unfold State.reserve); (try simp only []); (repeat' (first | (simp +contextual (maxDischargeDepth := 100) only [h, Kept.after_modLog]; done) | split | with_reducible assumption | with_reducible apply Kept.after_modLog | with_reducible apply Kept.foldl | with_reducible apply Kept.ite | with_reducible apply Kept.ite_snd | with_reducible apply Kept.ite_fst | with_reducible apply Kept.ite_snd2 | intro _)); done)

theorem Kept.after_unreserve {s t : State} {n k : Nat} (h : Kept s t) : Kept s (State.unreserve t n k) := by
  ((try unfold State.unreserve); (try simp only []); (repeat' (first | (simp +contextual (maxDischargeDepth := 100) only [h, Kept.after_modLog]; done) | split | with_reducible assumption | with_reducible apply Kept.after_modLog | with_reducible apply Kept.foldl | with_reducible apply Kept.ite | with_reducible apply Kept.ite_snd | with_reducible apply Kept.ite_fst | with_reducible apply Kept.ite_snd2 | intro _)); done)

theorem Kept.after_ringSpace {s t : State} {n : Nat} (h : Kept s t) : Kept s (State.ringSpace t n) := by
  ((try unfold State.ringSpace); (try simp only []); (repeat' (first | (simp +contextual (maxDischargeDepth := 100) only [h, Kept.after_eachRequest, Kept.after_setFlag]; done) | split | with_reducible assumption | with_reducible apply Kept.after_eachRequest | with_reducible apply Kept.after_setFlag | with_reducible apply Kept.foldl | with_reducible apply Kept.ite | with_reducible apply Kept.ite_snd | with_reducible apply Kept.ite_fst | with_reducible apply Kept.ite_snd2 | intro _)); done)

theorem Kept.after_watchLineFill {s t : State} {l : WatchLine} {index : Word} (h : Kept s t) : Kept s (watchLineFill l index t) := by
  (unfold watchLineFill; split <;> simp +contextual (maxDischargeDepth := 100) only [h, Kept.after_modLog, Kept.after_ringSpace, Kept.after_setLine, Kept.ite]; done)

theorem Kept.after_passLine {s t : State} {k : Nat} (h : Kept s t) : Kept s (State.passLine t k) := by
  ((try unfold State.passLine); (try simp only []); (repeat' (first | (simp +contextual (maxDischargeDepth := 100) only [h, Kept.after_pass]; done) | split | with_reducible assumption | with_reducible apply Kept.after_pass | with_reducible apply Kept.foldl | with_reducible apply Kept.ite | with_reducible apply Kept.ite_snd | with_reducible apply Kept.ite_fst | with_reducible apply Kept.ite_snd2 | intro _)); done)

theorem Kept.after_copyLine {s t : State} {k : Nat} (h : Kept s t) : Kept s (State.copyLine t k) := by
  ((try unfold State.copyLine); (try simp only []); (repeat' (first | (simp +contextual (maxDischargeDepth := 100) only [h, Kept.after_hostWrite, Kept.after_pass, Kept.after_sendRequest, Kept.ite]; done) | split | with_reducible assumption | with_reducible apply Kept.after_hostWrite | with_reducible apply Kept.after_pass | with_reducible apply Kept.after_sendRequest | with_reducible apply Kept.after_write | with_reducible apply Kept.foldl | with_reducible apply Kept.ite | with_reducible apply Kept.ite_snd | with_reducible apply Kept.ite_fst | with_reducible apply Kept.ite_snd2 | intro _)); done)

theorem Kept.after_copyRecord {s t : State} {r : JournalRecord} (h : Kept s t) : Kept s (State.copyRecord t r) := by
  ((try unfold State.copyRecord); (try simp only []); (repeat' (first | (simp +contextual (maxDischargeDepth := 100) only [h, Kept.after_copyLine, Kept.foldl, implies_true]; done) | split | with_reducible assumption | with_reducible apply Kept.after_copyLine | with_reducible apply Kept.foldl | with_reducible apply Kept.ite | with_reducible apply Kept.ite_snd | with_reducible apply Kept.ite_fst | with_reducible apply Kept.ite_snd2 | intro _)); done)

theorem Kept.after_appendRecord {s t : State} {r : JournalRecord} (h : Kept s t) : Kept s (State.appendRecord t r) := by
  ((try unfold State.appendRecord); (try simp only []); (repeat' (first | (simp +contextual (maxDischargeDepth := 100) only [h, Kept.after_copyRecord, Kept.after_freeBytes, Kept.after_passLine, Kept.after_write, Kept.mk_iff, Kept.pending, Kept.fuses, Kept.free, Kept.mem, Kept.regs, Kept.flash, Kept.foldl, and_self, implies_true]; done) | split | with_reducible assumption | with_reducible apply Kept.after_copyRecord | with_reducible apply Kept.after_freeBytes | with_reducible apply Kept.after_passLine | with_reducible apply Kept.after_write | with_reducible apply Kept.foldl | with_reducible apply Kept.ite | with_reducible apply Kept.ite_snd | with_reducible apply Kept.ite_fst | with_reducible apply Kept.ite_snd2 | intro _)); done)

theorem Kept.after_restate {s t u : State} {l : List Nat} (h : Kept s t) (hu : t.restate l = some u) : Kept s u := by
  induction l generalizing t with
  | nil => cases hu; exact h
  | cons a l ih =>
    unfold State.restate at hu
    split at hu
    · exact ih (Kept.after_appendRecord h) hu
    · cases hu

theorem Kept.after_makeRoom {s t u : State} {n k : Nat} (h : Kept s t) (hu : t.makeRoom n k = some u) : Kept s u := by
  induction k generalizing t with
  | zero =>
    unfold State.makeRoom at hu
    split at hu
    · cases hu; exact h
    · cases hu
  | succ k ih =>
    unfold State.makeRoom at hu
    split at hu
    · cases hu; exact h
    split at hu
    · cases hu
    split at hu
    · cases hu
    split at hu
    · cases hu
    · next hr => exact ih (Kept.after_restate h hr) hu

theorem Kept.after_roomFor {s t u : State} {n : Nat} (h : Kept s t) (hu : t.roomFor n = some u) : Kept s u :=
  Kept.after_makeRoom h hu

theorem Kept.after_writeTail {s t : State} {r : JournalRecord} (h : Kept s t) : Kept s (State.writeTail t r) := by
  (unfold State.writeTail; split <;> simp +contextual (maxDischargeDepth := 100) only [h, Kept.after_copyLine, Kept.after_passLine, Kept.after_write, Kept.mk_iff, Kept.pending, Kept.fuses, Kept.free, Kept.mem, Kept.regs, Kept.flash, and_self]; done)

theorem Kept.after_copyLive {s t : State}  (h : Kept s t) : Kept s (State.copyLive t) := by
  ((try unfold State.copyLive); (try simp only []); (repeat' (first | (simp +contextual (maxDischargeDepth := 100) only [h, Kept.after_copyLine, Kept.after_copyRecord, Kept.foldl, implies_true]; done) | split | with_reducible assumption | with_reducible apply Kept.after_copyLine | with_reducible apply Kept.after_copyRecord | with_reducible apply Kept.foldl | with_reducible apply Kept.ite | with_reducible apply Kept.ite_snd | with_reducible apply Kept.ite_fst | with_reducible apply Kept.ite_snd2 | intro _)); done)

theorem Kept.after_dropMirrorWrites {s t : State}  (h : Kept s t) : Kept s (State.dropMirrorWrites t) := by
  ((try unfold State.dropMirrorWrites); (try simp only []); (repeat' (first | (simp +contextual (maxDischargeDepth := 100) only [h, Kept.after_forget, Kept.mk_iff, Kept.pending, Kept.fuses, Kept.free, Kept.mem, Kept.regs, Kept.flash, and_self]; done) | split | with_reducible assumption | with_reducible apply Kept.after_forget | with_reducible apply Kept.foldl | with_reducible apply Kept.ite | with_reducible apply Kept.ite_snd | with_reducible apply Kept.ite_fst | with_reducible apply Kept.ite_snd2 | intro _)); done)

theorem Kept.after_mirrorLost {s t : State} {hostWritable : Bool} (h : Kept s t) : Kept s (State.mirrorLost t hostWritable) := by
  ((try unfold State.mirrorLost); (try simp only []); (repeat' (first | (simp +contextual (maxDischargeDepth := 100) only [h, Kept.after_copyLive, Kept.after_dropMirrorWrites, Kept.after_hostInterrupt, Kept.after_setFlag, Kept.after_setFld, Kept.ite]; done) | split | with_reducible assumption | with_reducible apply Kept.after_copyLive | with_reducible apply Kept.after_dropMirrorWrites | with_reducible apply Kept.after_hostInterrupt | with_reducible apply Kept.after_setFlag | with_reducible apply Kept.after_setFld | with_reducible apply Kept.foldl | with_reducible apply Kept.ite | with_reducible apply Kept.ite_snd | with_reducible apply Kept.ite_fst | with_reducible apply Kept.ite_snd2 | intro _)); done)

theorem Kept.after_mirrorBack {s t : State}  (h : Kept s t) : Kept s (State.mirrorBack t) := by
  ((try unfold State.mirrorBack); (try simp only []); (repeat' (first | (simp +contextual (maxDischargeDepth := 100) only [h, Kept.after_copyLive, Kept.after_dropMirrorWrites, Kept.after_setFld]; done) | split | with_reducible assumption | with_reducible apply Kept.after_copyLive | with_reducible apply Kept.after_dropMirrorWrites | with_reducible apply Kept.after_setFld | with_reducible apply Kept.foldl | with_reducible apply Kept.ite | with_reducible apply Kept.ite_snd | with_reducible apply Kept.ite_fst | with_reducible apply Kept.ite_snd2 | intro _)); done)

theorem Kept.after_chooseCopy {s t : State} {wasBuddy : Bool} (h : Kept s t) : Kept s (State.chooseCopy t wasBuddy) := by
  (unfold State.chooseCopy; split <;> simp +contextual (maxDischargeDepth := 100) only [h, Kept.after_copyLive, Kept.after_dropMirrorWrites, Kept.after_hostInterrupt, Kept.after_mirrorBack, Kept.after_mirrorLost, Kept.after_setFld, Kept.ite]; done)

theorem Kept.after_advanceHead {s t : State} {n : Nat} (h : Kept s t) : Kept s (State.advanceHead t n) := by
  ((try unfold State.advanceHead); (try simp only []); (repeat' (first | (simp +contextual (maxDischargeDepth := 100) only [h, Kept.after_hostWrite, Kept.after_modLog, Kept.after_setFld]; done) | split | with_reducible assumption | with_reducible apply Kept.after_hostWrite | with_reducible apply Kept.after_modLog | with_reducible apply Kept.after_setFld | with_reducible apply Kept.foldl | with_reducible apply Kept.ite | with_reducible apply Kept.ite_snd | with_reducible apply Kept.ite_fst | with_reducible apply Kept.ite_snd2 | intro _)); done)

theorem Kept.after_accepted {s t : State} {n slot idx : Nat} (h : Kept s t) : Kept s (State.accepted t n slot idx) := by
  ((try unfold State.accepted); (try simp only []); (repeat' (first | (simp +contextual (maxDischargeDepth := 100) only [h, Kept.after_add64, Kept.after_advanceHead, Kept.after_modLog, Kept.after_putRecord, Kept.after_setRequest, Kept.mk_iff, Kept.pending, Kept.fuses, Kept.free, Kept.mem, Kept.regs, Kept.flash, and_self]; done) | split | with_reducible assumption | with_reducible apply Kept.after_add64 | with_reducible apply Kept.after_advanceHead | with_reducible apply Kept.after_modLog | with_reducible apply Kept.after_putRecord | with_reducible apply Kept.after_setRequest | with_reducible apply Kept.foldl | with_reducible apply Kept.ite | with_reducible apply Kept.ite_snd | with_reducible apply Kept.ite_fst | with_reducible apply Kept.ite_snd2 | intro _)); done)

theorem Kept.after_finishAccept {s t : State} {n : Nat} (h : Kept s t) : Kept s (State.finishAccept t n) := by
  ((try unfold State.finishAccept); (try simp only []); (repeat' (first | (simp +contextual (maxDischargeDepth := 100) only [h, Kept.after_accepted, Kept.after_modLog, Kept.after_writeTail, Kept.ite]; done) | split | with_reducible assumption | with_reducible apply Kept.after_accepted | with_reducible apply Kept.after_modLog | with_reducible apply Kept.after_writeTail | with_reducible apply Kept.foldl | with_reducible apply Kept.ite | with_reducible apply Kept.ite_snd | with_reducible apply Kept.ite_fst | with_reducible apply Kept.ite_snd2 | intro _)); done)

theorem Kept.after_finishAccepts {s t : State}  (h : Kept s t) : Kept s (State.finishAccepts t) := by
  ((try unfold State.finishAccepts); (try simp only []); (repeat' (first | (simp +contextual (maxDischargeDepth := 100) only [h, Kept.after_finishAccept, Kept.foldl, implies_true]; done) | split | with_reducible assumption | with_reducible apply Kept.after_finishAccept | with_reducible apply Kept.foldl | with_reducible apply Kept.ite | with_reducible apply Kept.ite_snd | with_reducible apply Kept.ite_fst | with_reducible apply Kept.ite_snd2 | intro _)); done)

theorem Kept.after_journalMirrorLoss {s t : State} {hostWritable : Bool} (h : Kept s t) : Kept s (journalMirrorLoss hostWritable t) := by
  (unfold journalMirrorLoss; split <;> simp +contextual (maxDischargeDepth := 100) only [h, Kept.after_finishAccepts, Kept.after_mirrorLost]; done)

theorem Kept.after_journalMirrorRestore {s t : State}  (h : Kept s t) : Kept s (journalMirrorRestore t) := by
  (unfold journalMirrorRestore; split <;> simp +contextual (maxDischargeDepth := 100) only [h, Kept.after_finishAccepts, Kept.after_mirrorBack]; done)

theorem Kept.after_takeDescriptor {s t : State} {n : Nat} (h : Kept s t) : Kept s (State.takeDescriptor t n) := by
  ((try unfold State.takeDescriptor); (try simp only []); (repeat' (first | (simp +contextual (maxDischargeDepth := 100) only [h, Kept.after_emit, Kept.mk_iff, Kept.pending, Kept.fuses, Kept.free, Kept.mem, Kept.regs, Kept.flash, and_self]; done) | split | with_reducible assumption | with_reducible apply Kept.after_emit | with_reducible apply Kept.foldl | with_reducible apply Kept.ite | with_reducible apply Kept.ite_snd | with_reducible apply Kept.ite_fst | with_reducible apply Kept.ite_snd2 | intro _)); done)

theorem Kept.after_reject {s t : State} {n : Nat} {d : List Byte} {status reason : Nat} (h : Kept s t) : Kept s (State.reject t n d status reason) := by
  ((try unfold State.reject); (try simp only []); (repeat' (first | (simp +contextual (maxDischargeDepth := 100) only [h, Kept.after_advanceHead, Kept.after_nextRecord]; done) | split | with_reducible assumption | with_reducible apply Kept.after_advanceHead | with_reducible apply Kept.after_nextRecord | with_reducible apply Kept.foldl | with_reducible apply Kept.ite | with_reducible apply Kept.ite_snd | with_reducible apply Kept.ite_fst | with_reducible apply Kept.ite_snd2 | intro _)); done)

theorem Kept.after_malformed {s t : State} {n : Nat} {d : List Byte} (h : Kept s t) : Kept s (State.malformed t n d) := by
  ((try unfold State.malformed); (try simp only []); (repeat' (first | (simp +contextual (maxDischargeDepth := 100) only [h, Kept.after_hostViolation, Kept.after_reject, Kept.after_took]; done) | split | with_reducible assumption | with_reducible apply Kept.after_hostViolation | with_reducible apply Kept.after_reject | with_reducible apply Kept.after_took | with_reducible apply Kept.foldl | with_reducible apply Kept.ite | with_reducible apply Kept.ite_snd | with_reducible apply Kept.ite_fst | with_reducible apply Kept.ite_snd2 | intro _)); done)

theorem Kept.after_beginAccept {s t : State} {n slot : Nat} {d stop : List Byte} {prompt : List Word} (h : Kept s t) : Kept s (State.beginAccept t n slot d stop prompt) := by
  ((try unfold State.beginAccept); (try simp only []); (repeat' (first | (simp +contextual (maxDischargeDepth := 100) only [h, Kept.after_appendRecord, Kept.after_modLog, Kept.after_setRequest, Kept.after_takeIndices]; done) | split | with_reducible assumption | with_reducible apply Kept.after_appendRecord | with_reducible apply Kept.after_modLog | with_reducible apply Kept.after_setRequest | with_reducible apply Kept.after_takeIndices | with_reducible apply Kept.foldl | with_reducible apply Kept.ite | with_reducible apply Kept.ite_snd | with_reducible apply Kept.ite_fst | with_reducible apply Kept.ite_snd2 | intro _)); done)

theorem Kept.after_submitGood {s t : State} {n : Nat} {d stop : List Byte} {prompt : List Word} (h : Kept s t) : Kept s (State.submitGood t n d stop prompt) := by
  ((try unfold State.submitGood); (try simp only []); (repeat' (first | (simp +contextual (maxDischargeDepth := 100) only [h, Kept.after_setFlag]; done) | split | with_reducible refine Kept.after_roomFor ?_ (by with_reducible assumption) | with_reducible assumption | with_reducible apply Kept.after_beginAccept | with_reducible apply Kept.after_finishAccept | with_reducible apply Kept.after_setFlag | with_reducible apply Kept.foldl | with_reducible apply Kept.ite | with_reducible apply Kept.ite_snd | with_reducible apply Kept.ite_fst | with_reducible apply Kept.ite_snd2 | intro _)); done)

theorem Kept.after_submit {s t : State} {n : Nat} {d : List Byte} {prompt : List Word} {stop : List Byte} {res : EndKind} (h : Kept s t) : Kept s (submit n d prompt stop res t) := by
  ((try unfold submit); (try simp only []); (repeat' (first | (simp +contextual (maxDischargeDepth := 100) only [h, Kept.after_emit, Kept.after_malformed, Kept.after_reject, Kept.after_submitGood, Kept.after_takeDescriptor, Kept.ite]; done) | split | with_reducible assumption | with_reducible apply Kept.after_emit | with_reducible apply Kept.after_malformed | with_reducible apply Kept.after_reject | with_reducible apply Kept.after_submitGood | with_reducible apply Kept.after_takeDescriptor | with_reducible apply Kept.foldl | with_reducible apply Kept.ite | with_reducible apply Kept.ite_snd | with_reducible apply Kept.ite_fst | with_reducible apply Kept.ite_snd2 | intro _)); done)

theorem Kept.after_cancel {s t : State} {n : Nat} {d : List Byte} (h : Kept s t) : Kept s (cancel n d t) := by
  (unfold cancel; split <;> simp +contextual (maxDischargeDepth := 100) only [h, Kept.after_advanceHead, Kept.after_malformed, Kept.after_modRequest, Kept.after_setReg, Kept.after_takeDescriptor, Kept.ite]; done)

theorem Kept.after_byLogMasters {s t : State} {m : Master} {o : Nat} {act : State → State} (hact : ∀ t, Kept s t → Kept s (act t)) (h : Kept s t) : Kept s (State.byLogMasters t m o act) := by
  ((try unfold State.byLogMasters); (try simp only []); (repeat' (first | (simp +contextual (maxDischargeDepth := 100) only [h, hact, Kept.after_closedWrite, Kept.ite]; done) | split | with_reducible assumption | with_reducible apply hact | with_reducible apply Kept.after_closedWrite | with_reducible apply Kept.foldl | with_reducible apply Kept.ite | with_reducible apply Kept.ite_snd | with_reducible apply Kept.ite_fst | with_reducible apply Kept.ite_snd2 | intro _)); done)

theorem Kept.after_writeLogCtl {s t : State} {n : Fin 64} {v : Word} (h : Kept s t) : Kept s (State.writeLogCtl t n v) := by
  (unfold State.writeLogCtl; split <;> simp +contextual (maxDischargeDepth := 100) only [h, Kept.after_setFlag, Kept.after_setLine, Kept.after_setReg, Kept.after_takeLine, Kept.foldl, Kept.ite, implies_true]; done)

theorem Kept.after_longBody {s t : State} {x_t w : Nat} (h : Kept s t) : Kept s (longBody x_t w t) := by
  (unfold longBody; split <;> simp +contextual (maxDischargeDepth := 100) only [h, Kept.after_brdBody, Kept.after_bwrBody, Kept.after_channelBody, Kept.after_drainBody, Kept.after_fnBody, Kept.after_gatherBody, Kept.after_marchBody, Kept.after_mmaBody, Kept.after_peekBody, Kept.after_rngBody, Kept.after_ropeBody, Kept.after_sampleBody, Kept.after_smaxBody, Kept.after_stopchkBody, Kept.after_topkBody, Kept.after_wldBody, Kept.after_wswapBody]; done)

theorem Kept.after_rehold {s t : State} {x_t e w : Nat} {ops : List DWord} (h : Kept s t) : Kept s (State.rehold t x_t e w ops) := by
  ((try unfold State.rehold); (try simp only []); (repeat' (first | (simp +contextual (maxDischargeDepth := 100) only [h, Kept.after_setEngine]; done) | split | with_reducible assumption | with_reducible apply Kept.after_setEngine | with_reducible apply Kept.foldl | with_reducible apply Kept.ite | with_reducible apply Kept.ite_snd | with_reducible apply Kept.ite_fst | with_reducible apply Kept.ite_snd2 | intro _)); done)

theorem Kept.after_asIssued {s t : State} {x_t w : Nat} {vals : List DWord} (h : Kept s t) : Kept s (State.asIssued t x_t w vals) := by
  ((try unfold State.asIssued); (try simp only []); (repeat' (first | (simp +contextual (maxDischargeDepth := 100) only [h, Kept.after_setOperand, Kept.foldl, implies_true]; done) | split | with_reducible assumption | with_reducible apply Kept.after_setOperand | with_reducible apply Kept.foldl | with_reducible apply Kept.ite | with_reducible apply Kept.ite_snd | with_reducible apply Kept.ite_fst | with_reducible apply Kept.ite_snd2 | intro _)); done)

theorem Kept.after_takeWrites {s t : State} {x_t w : Nat} {r : State} (hr : Kept s r) (h : Kept s t) : Kept s (State.takeWrites t x_t w r) := by
  ((try unfold State.takeWrites); (try simp only []); (repeat' (first | (simp +contextual (maxDischargeDepth := 100) only [h, Kept.after_setOperand, Kept.foldl, implies_true]; done) | split | with_reducible assumption | with_reducible apply hr | with_reducible apply Kept.after_setOperand | with_reducible apply Kept.foldl | with_reducible apply Kept.ite | with_reducible apply Kept.ite_snd | with_reducible apply Kept.ite_fst | with_reducible apply Kept.ite_snd2 | intro _)); done)

theorem Kept.after_recheck {s t : State} {x_t e w : Nat} (h : Kept s t) : Kept s (State.recheck t x_t e w) := by
  ((try unfold State.recheck); (try simp only []); (repeat' (first | (simp +contextual (maxDischargeDepth := 100) only [h, Kept.after_asIssued, Kept.after_completeEngine, Kept.after_rehold, Kept.after_setPc, Kept.after_takeWrites, Kept.after_unitFault, Kept.after_longBody, Kept.ite]; done) | split | with_reducible assumption | with_reducible apply Kept.after_asIssued | with_reducible apply Kept.after_completeEngine | with_reducible apply Kept.after_rehold | with_reducible apply Kept.after_setPc | with_reducible apply Kept.after_takeWrites | with_reducible apply Kept.after_unitFault | with_reducible apply Kept.after_longBody | with_reducible apply Kept.foldl | with_reducible apply Kept.ite | with_reducible apply Kept.ite_snd | with_reducible apply Kept.ite_fst | with_reducible apply Kept.ite_snd2 | intro _)); done)

theorem Kept.after_reissue {s t : State} {x_t e : Nat} (h : Kept s t) : Kept s (State.reissue t x_t e) := by
  ((try unfold State.reissue); (try simp only []); (repeat' (first | (simp +contextual (maxDischargeDepth := 100) only [h, Kept.after_recheck, Kept.after_rehold, Kept.after_unitFault, Kept.ite]; done) | split | with_reducible assumption | with_reducible apply Kept.after_recheck | with_reducible apply Kept.after_rehold | with_reducible apply Kept.after_unitFault | with_reducible apply Kept.foldl | with_reducible apply Kept.ite | with_reducible apply Kept.ite_snd | with_reducible apply Kept.ite_fst | with_reducible apply Kept.ite_snd2 | intro _)); done)

theorem Kept.after_reissueTile {s t : State} {x_t : Nat} (h : Kept s t) : Kept s (State.reissueTile t x_t) := by
  ((try unfold State.reissueTile); (try simp only []); (repeat' (first | (simp +contextual (maxDischargeDepth := 100) only [h, Kept.after_reissue, Kept.foldl, implies_true]; done) | split | with_reducible assumption | with_reducible apply Kept.after_reissue | with_reducible apply Kept.foldl | with_reducible apply Kept.ite | with_reducible apply Kept.ite_snd | with_reducible apply Kept.ite_fst | with_reducible apply Kept.ite_snd2 | intro _)); done)

theorem Kept.after_goOn {s t : State} {p : Nat} (h : Kept s t) : Kept s (State.goOn t p) := by
  ((try unfold State.goOn); (try simp only []); (repeat' (first | (simp +contextual (maxDischargeDepth := 100) only [h, Kept.after_applyDeferred, Kept.after_modPart, Kept.after_modTile, Kept.after_reissueTile, Kept.after_restartMovers, Kept.after_setCredits, Kept.foldl, implies_true]; done) | split | with_reducible assumption | with_reducible apply Kept.after_applyDeferred | with_reducible apply Kept.after_modPart | with_reducible apply Kept.after_modTile | with_reducible apply Kept.after_reissueTile | with_reducible apply Kept.after_restartMovers | with_reducible apply Kept.after_setCredits | with_reducible apply Kept.foldl | with_reducible apply Kept.ite | with_reducible apply Kept.ite_snd | with_reducible apply Kept.ite_fst | with_reducible apply Kept.ite_snd2 | intro _)); done)

theorem Kept.after_prtInterrupt {s t : State} {rule : Nat} (h : Kept s t) : Kept s (State.prtInterrupt t rule) := by
  ((try unfold State.prtInterrupt); (try simp only []); (repeat' (first | (simp +contextual (maxDischargeDepth := 100) only [h, Kept.after_interruptIf]; done) | split | with_reducible assumption | with_reducible apply Kept.after_interruptIf | with_reducible apply Kept.foldl | with_reducible apply Kept.ite | with_reducible apply Kept.ite_snd | with_reducible apply Kept.ite_fst | with_reducible apply Kept.ite_snd2 | intro _)); done)

theorem Kept.after_partErr {s t : State} {p k : Nat} (h : Kept s t) : Kept s (State.partErr t p k) := by
  ((try unfold State.partErr); (try simp only []); (repeat' (first | (simp +contextual (maxDischargeDepth := 100) only [h, Kept.after_prtInterrupt, Kept.after_setFlag, Kept.after_setFld]; done) | split | with_reducible assumption | with_reducible apply Kept.after_prtInterrupt | with_reducible apply Kept.after_setFlag | with_reducible apply Kept.after_setFld | with_reducible apply Kept.foldl | with_reducible apply Kept.ite | with_reducible apply Kept.ite_snd | with_reducible apply Kept.ite_fst | with_reducible apply Kept.ite_snd2 | intro _)); done)

theorem Kept.after_setJob {s t : State} {p j st : Nat} (h : Kept s t) : Kept s (State.setJob t p j st) := by
  ((try unfold State.setJob); (try simp only []); (repeat' (first | (simp +contextual (maxDischargeDepth := 100) only [h, Kept.after_setFld]; done) | split | with_reducible assumption | with_reducible apply Kept.after_setFld | with_reducible apply Kept.foldl | with_reducible apply Kept.ite | with_reducible apply Kept.ite_snd | with_reducible apply Kept.ite_fst | with_reducible apply Kept.ite_snd2 | intro _)); done)

theorem Kept.after_setSaved {s t : State} {p j : Nat} {v : Saved} (h : Kept s t) : Kept s (State.setSaved t p j v) := by
  ((try unfold State.setSaved); (try simp only []); (repeat' (first | (simp +contextual (maxDischargeDepth := 100) only [h, Kept.mk_iff, Kept.pending, Kept.fuses, Kept.free, Kept.mem, Kept.regs, Kept.flash, and_self]; done) | split | with_reducible assumption | with_reducible apply Kept.foldl | with_reducible apply Kept.ite | with_reducible apply Kept.ite_snd | with_reducible apply Kept.ite_fst | with_reducible apply Kept.ite_snd2 | intro _)); done)

theorem Kept.after_giveBanks {s t : State} {x_t v : Nat} (h : Kept s t) : Kept s (State.giveBanks t x_t v) := by
  ((try unfold State.giveBanks); (try simp only []); (repeat' (first | (simp +contextual (maxDischargeDepth := 100) only [h, Kept.after_handOver, Kept.after_zeroRange, Kept.foldl, implies_true]; done) | split | with_reducible assumption | with_reducible apply Kept.after_handOver | with_reducible apply Kept.after_zeroRange | with_reducible apply Kept.foldl | with_reducible apply Kept.ite | with_reducible apply Kept.ite_snd | with_reducible apply Kept.ite_fst | with_reducible apply Kept.ite_snd2 | intro _)); done)

theorem Kept.after_giveAllBanks {s t : State} {p v : Nat} (h : Kept s t) : Kept s (State.giveAllBanks t p v) := by
  ((try unfold State.giveAllBanks); (try simp only []); (repeat' (first | (simp +contextual (maxDischargeDepth := 100) only [h, Kept.after_giveBanks, Kept.foldl, Kept.ite, implies_true]; done) | split | with_reducible assumption | with_reducible apply Kept.after_giveBanks | with_reducible apply Kept.foldl | with_reducible apply Kept.ite | with_reducible apply Kept.ite_snd | with_reducible apply Kept.ite_fst | with_reducible apply Kept.ite_snd2 | intro _)); done)

theorem Kept.after_fenceRun {s t : State} {p x_t : Nat} (h : Kept s t) : Kept s (State.fenceRun t p x_t) := by
  ((try unfold State.fenceRun); (try simp only []); (repeat' (first | (simp +contextual (maxDischargeDepth := 100) only [h, Kept.after_setFld]; done) | split | with_reducible assumption | with_reducible apply Kept.after_setFld | with_reducible apply Kept.foldl | with_reducible apply Kept.ite | with_reducible apply Kept.ite_snd | with_reducible apply Kept.ite_fst | with_reducible apply Kept.ite_snd2 | intro _)); done)

theorem Kept.after_resetMover {s t : State} {m : Nat} (h : Kept s t) : Kept s (State.resetMover t m) := by
  ((try unfold State.resetMover); (try simp only []); (repeat' (first | (simp +contextual (maxDischargeDepth := 100) only [h, Kept.after_abandon, Kept.after_setMover, Kept.mk_iff, Kept.pending, Kept.fuses, Kept.free, Kept.mem, Kept.regs, Kept.flash, and_self]; done) | split | with_reducible assumption | with_reducible apply Kept.after_abandon | with_reducible apply Kept.after_setMover | with_reducible apply Kept.foldl | with_reducible apply Kept.ite | with_reducible apply Kept.ite_snd | with_reducible apply Kept.ite_fst | with_reducible apply Kept.ite_snd2 | intro _)); done)

theorem Kept.after_idleTile {s t : State} {x_t : Nat} (h : Kept s t) : Kept s (State.idleTile t x_t) := by
  (unfold State.idleTile; split <;> simp +contextual (maxDischargeDepth := 100) only [h, Kept.after_dropMarch, Kept.after_dropSets, Kept.after_modTile, Kept.after_setFld, Kept.after_setSeqState]; done)

theorem Kept.after_resetMovers {s t : State} {x_t : Nat} (h : Kept s t) : Kept s (State.resetMovers t x_t) := by
  ((try unfold State.resetMovers); (try simp only []); (repeat' (first | (simp +contextual (maxDischargeDepth := 100) only [h, Kept.after_resetMover, Kept.after_setReg, Kept.foldl, implies_true]; done) | split | with_reducible assumption | with_reducible apply Kept.after_resetMover | with_reducible apply Kept.after_setReg | with_reducible apply Kept.foldl | with_reducible apply Kept.ite | with_reducible apply Kept.ite_snd | with_reducible apply Kept.ite_fst | with_reducible apply Kept.ite_snd2 | intro _)); done)

theorem Kept.after_resetTile {s t : State} {x_t : Nat} (h : Kept s t) : Kept s (State.resetTile t x_t) := by
  (unfold State.resetTile; split <;> simp +contextual (maxDischargeDepth := 100) only [h, Kept.after_idleTile, Kept.after_resetMovers, Kept.after_setFlag, Kept.after_setReg, Kept.after_setStream, Kept.foldl, implies_true]; done)

theorem Kept.after_partitionReset {s t : State} {p : Nat} (h : Kept s t) : Kept s (State.partitionReset t p) := by
  ((try unfold State.partitionReset); (try simp only []); (repeat' (first | (simp +contextual (maxDischargeDepth := 100) only [h, Kept.after_dropTlb, Kept.after_modPart, Kept.after_resetTile, Kept.after_setFlag, Kept.after_setFld, Kept.mk_iff, Kept.pending, Kept.fuses, Kept.free, Kept.mem, Kept.regs, Kept.flash, Kept.foldl, Kept.ite, and_self, implies_true]; done) | split | with_reducible assumption | with_reducible apply Kept.after_dropTlb | with_reducible apply Kept.after_modPart | with_reducible apply Kept.after_resetTile | with_reducible apply Kept.after_setFlag | with_reducible apply Kept.after_setFld | with_reducible apply Kept.foldl | with_reducible apply Kept.ite | with_reducible apply Kept.ite_snd | with_reducible apply Kept.ite_fst | with_reducible apply Kept.ite_snd2 | intro _)); done)

theorem Kept.after_releasePart {s t : State} {p : Nat} (h : Kept s t) : Kept s (State.releasePart t p) := by
  (unfold State.releasePart; split <;> simp +contextual (maxDischargeDepth := 100) only [h, Kept.after_goOn, Kept.after_modPart, Kept.after_setFlag]; done)

theorem Kept.after_passSave {s t : State} {off n : Nat} (h : Kept s t) : Kept s (State.passSave t off n) := by
  ((try unfold State.passSave); (try simp only []); (repeat' (first | (simp +contextual (maxDischargeDepth := 100) only [h, Kept.after_hearthLines]; done) | split | with_reducible assumption | with_reducible apply Kept.after_hearthLines | with_reducible apply Kept.foldl | with_reducible apply Kept.ite | with_reducible apply Kept.ite_snd | with_reducible apply Kept.ite_fst | with_reducible apply Kept.ite_snd2 | intro _)); done)

theorem Kept.after_saveTile {s t : State} {a x_t : Nat} (h : Kept s t) : Kept s (State.saveTile t a x_t) := by
  (unfold State.saveTile; split <;> simp +contextual (maxDischargeDepth := 100) only [h, Kept.after_copyRange, Kept.after_freeBytes, Kept.after_write, Kept.after_writeNum, Kept.after_zeroRange, Kept.ite]; done)

theorem Kept.after_saveHeader {s t : State} {p a : Nat} (h : Kept s t) : Kept s (State.saveHeader t p a) := by
  ((try unfold State.saveHeader); (try simp only []); (repeat' (first | (simp +contextual (maxDischargeDepth := 100) only [h, Kept.after_write, Kept.after_zeroRange]; done) | split | with_reducible assumption | with_reducible apply Kept.after_write | with_reducible apply Kept.after_zeroRange | with_reducible apply Kept.foldl | with_reducible apply Kept.ite | with_reducible apply Kept.ite_snd | with_reducible apply Kept.ite_fst | with_reducible apply Kept.ite_snd2 | intro _)); done)

theorem Kept.after_saveRecord {s t : State} {p j : Nat} (h : Kept s t) : Kept s (State.saveRecord t p j) := by
  ((try unfold State.saveRecord); (try simp only []); (repeat' (first | (simp +contextual (maxDischargeDepth := 100) only [h, Kept.after_passSave, Kept.after_saveHeader, Kept.after_saveTile, Kept.after_setSaved, Kept.foldl, implies_true]; done) | split | with_reducible assumption | with_reducible apply Kept.after_passSave | with_reducible apply Kept.after_saveHeader | with_reducible apply Kept.after_saveTile | with_reducible apply Kept.after_setSaved | with_reducible apply Kept.foldl | with_reducible apply Kept.ite | with_reducible apply Kept.ite_snd | with_reducible apply Kept.ite_fst | with_reducible apply Kept.ite_snd2 | intro _)); done)

theorem Kept.after_saveContext {s t : State} {p j : Nat} (h : Kept s t) : Kept s (State.saveContext t p j) := by
  ((try unfold State.saveContext); (try simp only []); (repeat' (first | (simp +contextual (maxDischargeDepth := 100) only [h, Kept.after_passSave, Kept.after_setSaved, Kept.after_write, Kept.after_writeNum]; done) | split | with_reducible assumption | with_reducible apply Kept.after_passSave | with_reducible apply Kept.after_setSaved | with_reducible apply Kept.after_write | with_reducible apply Kept.after_writeNum | with_reducible apply Kept.foldl | with_reducible apply Kept.ite | with_reducible apply Kept.ite_snd | with_reducible apply Kept.ite_fst | with_reducible apply Kept.ite_snd2 | intro _)); done)

theorem Kept.after_takeContext {s t : State} {p j : Nat} (h : Kept s t) : Kept s (State.takeContext t p j) := by
  ((try unfold State.takeContext); (try simp only []); (repeat' (first | (simp +contextual (maxDischargeDepth := 100) only [h, Kept.after_invalidatePart, Kept.after_modPart, Kept.after_pass, Kept.after_setFlag, Kept.after_setFld, Kept.after_setMeas, Kept.after_setReg, Kept.after_setReg64, Kept.mk_iff, Kept.pending, Kept.fuses, Kept.free, Kept.mem, Kept.regs, Kept.flash, Kept.ite, and_self]; done) | split | with_reducible assumption | with_reducible apply Kept.after_invalidatePart | with_reducible apply Kept.after_modPart | with_reducible apply Kept.after_pass | with_reducible apply Kept.after_setFlag | with_reducible apply Kept.after_setFld | with_reducible apply Kept.after_setMeas | with_reducible apply Kept.after_setReg | with_reducible apply Kept.after_setReg64 | with_reducible apply Kept.foldl | with_reducible apply Kept.ite | with_reducible apply Kept.ite_snd | with_reducible apply Kept.ite_fst | with_reducible apply Kept.ite_snd2 | intro _)); done)

theorem Kept.after_restoreRepair {s t : State} {x_t mask : Nat} {x : Tile} {regs : List (Nat × Word)} (h : Kept s t) : Kept s (State.restoreRepair t x_t mask x regs) := by
  ((try unfold State.restoreRepair); (try simp only []); (repeat' (first | (simp +contextual (maxDischargeDepth := 100) only [h, Kept.after_setBank, Kept.after_setFlag, Kept.after_setReg, Kept.ite, implies_true]; done) | split | with_reducible assumption | with_reducible apply Kept.after_setBank | with_reducible apply Kept.after_setFlag | with_reducible apply Kept.after_setReg | with_reducible apply Kept.foldl | with_reducible apply Kept.ite | with_reducible apply Kept.ite_snd | with_reducible apply Kept.ite_fst | with_reducible apply Kept.ite_snd2 | intro _)); done)

theorem Kept.after_restoreTile {s t : State} {p j x_t : Nat} (h : Kept s t) : Kept s (State.restoreTile t p j x_t) := by
  ((try unfold State.restoreTile); (try simp only []); (repeat' (first | (simp +contextual (maxDischargeDepth := 100) only [h, Kept.after_copyRange, Kept.after_modTile, Kept.after_pass, Kept.after_restoreRepair, Kept.after_setFld, Kept.after_setReg, Kept.foldl, Kept.ite, implies_true]; done) | split | with_reducible assumption | with_reducible apply Kept.after_copyRange | with_reducible apply Kept.after_modTile | with_reducible apply Kept.after_pass | with_reducible apply Kept.after_restoreRepair | with_reducible apply Kept.after_setFld | with_reducible apply Kept.after_setReg | with_reducible apply Kept.foldl | with_reducible apply Kept.ite | with_reducible apply Kept.ite_snd | with_reducible apply Kept.ite_fst | with_reducible apply Kept.ite_snd2 | intro _)); done)

theorem Kept.after_restoreMovers {s t : State} {p j : Nat} (h : Kept s t) : Kept s (State.restoreMovers t p j) := by
  ((try unfold State.restoreMovers); (try simp only []); (repeat' (first | (simp +contextual (maxDischargeDepth := 100) only [h, Kept.after_setMover, Kept.after_setStream, Kept.foldl, implies_true]; done) | split | with_reducible assumption | with_reducible apply Kept.after_setMover | with_reducible apply Kept.after_setStream | with_reducible apply Kept.foldl | with_reducible apply Kept.ite | with_reducible apply Kept.ite_snd | with_reducible apply Kept.ite_fst | with_reducible apply Kept.ite_snd2 | intro _)); done)

theorem Kept.after_freshTile {s t : State} {p x_t : Nat} (h : Kept s t) : Kept s (State.freshTile t p x_t) := by
  (unfold State.freshTile; split <;> simp +contextual (maxDischargeDepth := 100) only [h, Kept.after_beginStreams, Kept.after_clearSequencer, Kept.after_giveBanks, Kept.after_idleTile, Kept.after_resetMovers, Kept.after_setSeqState, Kept.after_zeroRange, Kept.ite]; done)

theorem Kept.after_startSwitch {s t : State} {p : Nat} {inn : Option Nat} (h : Kept s t) : Kept s (State.startSwitch t p inn) := by
  ((try unfold State.startSwitch); (try simp only []); (repeat' (first | (simp +contextual (maxDischargeDepth := 100) only [h, Kept.after_modPart, Kept.after_setFlag, Kept.after_setFld, Kept.after_setJob, Kept.after_setReg64]; done) | split | with_reducible assumption | with_reducible apply Kept.after_modPart | with_reducible apply Kept.after_setFlag | with_reducible apply Kept.after_setFld | with_reducible apply Kept.after_setJob | with_reducible apply Kept.after_setReg64 | with_reducible apply Kept.after_stopped | with_reducible apply Kept.foldl | with_reducible apply Kept.ite | with_reducible apply Kept.ite_snd | with_reducible apply Kept.ite_fst | with_reducible apply Kept.ite_snd2 | intro _)); done)

theorem Kept.after_preempt {s t : State} {p : Nat} (h : Kept s t) : Kept s (State.preempt t p) := by
  (unfold State.preempt; split <;> simp +contextual (maxDischargeDepth := 100) only [h, Kept.after_modPart, Kept.after_setFlag, Kept.after_startSwitch]; done)

theorem Kept.after_sliceBoundary {s t : State} {p k : Nat} (h : Kept s t) : Kept s (State.sliceBoundary t p k) := by
  ((try unfold State.sliceBoundary); (try simp only []); (repeat' (first | (simp +contextual (maxDischargeDepth := 100) only [h, Kept.after_addFld, Kept.after_modPart, Kept.after_setFlag, Kept.after_startSwitch, Kept.ite]; done) | split | with_reducible assumption | with_reducible apply Kept.after_addFld | with_reducible apply Kept.after_modPart | with_reducible apply Kept.after_setFlag | with_reducible apply Kept.after_startSwitch | with_reducible apply Kept.foldl | with_reducible apply Kept.ite | with_reducible apply Kept.ite_snd | with_reducible apply Kept.ite_fst | with_reducible apply Kept.ite_snd2 | intro _)); done)

theorem Kept.after_rollSlice {s t : State} {p : Nat} (h : Kept s t) : Kept s (State.rollSlice t p) := by
  ((try unfold State.rollSlice); (try simp only []); (repeat' (first | (simp +contextual (maxDischargeDepth := 100) only [h, Kept.after_modPart, Kept.ite]; done) | split | with_reducible assumption | with_reducible apply Kept.after_modPart | with_reducible apply Kept.foldl | with_reducible apply Kept.ite | with_reducible apply Kept.ite_snd | with_reducible apply Kept.ite_fst | with_reducible apply Kept.ite_snd2 | intro _)); done)

theorem Kept.after_timeSlice {s t : State} {p : Nat} (h : Kept s t) : Kept s (timeSlice p t) := by
  ((try unfold timeSlice); (try simp only []); (repeat' (first | (simp +contextual (maxDischargeDepth := 100) only [h, Kept.after_modPart, Kept.after_rollSlice, Kept.after_sliceBoundary, Kept.after_startSwitch, Kept.mk_iff, Kept.pending, Kept.fuses, Kept.free, Kept.mem, Kept.regs, Kept.flash, Kept.ite, and_self]; done) | split | with_reducible assumption | with_reducible apply Kept.after_modPart | with_reducible apply Kept.after_rollSlice | with_reducible apply Kept.after_sliceBoundary | with_reducible apply Kept.after_startSwitch | with_reducible apply Kept.foldl | with_reducible apply Kept.ite | with_reducible apply Kept.ite_snd | with_reducible apply Kept.ite_fst | with_reducible apply Kept.ite_snd2 | intro _)); done)

theorem Kept.after_jobReset {s t : State} {p j : Nat} (h : Kept s t) : Kept s (State.jobReset t p j) := by
  (unfold State.jobReset; split <;> simp +contextual (maxDischargeDepth := 100) only [h, Kept.after_modPart, Kept.after_partitionReset, Kept.after_setFlag, Kept.after_setJob, Kept.after_setSaved, Kept.ite]; done)

theorem Kept.after_dropJobs {s t : State} {p : Nat} (h : Kept s t) : Kept s (State.dropJobs t p) := by
  ((try unfold State.dropJobs); (try simp only []); (repeat' (first | (simp +contextual (maxDischargeDepth := 100) only [h, Kept.after_setFlag, Kept.after_setJob, Kept.after_setSaved, Kept.foldl, implies_true]; done) | split | with_reducible assumption | with_reducible apply Kept.after_setFlag | with_reducible apply Kept.after_setJob | with_reducible apply Kept.after_setSaved | with_reducible apply Kept.foldl | with_reducible apply Kept.ite | with_reducible apply Kept.ite_snd | with_reducible apply Kept.ite_fst | with_reducible apply Kept.ite_snd2 | intro _)); done)

theorem Kept.after_beginDisabling {s t : State} {p : Nat} (h : Kept s t) : Kept s (State.beginDisabling t p) := by
  ((try unfold State.beginDisabling); (try simp only []); (repeat' (first | (simp +contextual (maxDischargeDepth := 100) only [h, Kept.after_dropJobs, Kept.after_modPart, Kept.after_partitionReset, Kept.after_setFlag, Kept.after_setFld, Kept.after_settleWait, Kept.after_writeMshPart, Kept.mk_iff, Kept.pending, Kept.fuses, Kept.free, Kept.mem, Kept.regs, Kept.flash, and_self]; done) | split | with_reducible assumption | with_reducible apply Kept.after_dropJobs | with_reducible apply Kept.after_modPart | with_reducible apply Kept.after_partitionReset | with_reducible apply Kept.after_setFlag | with_reducible apply Kept.after_setFld | with_reducible apply Kept.after_settleWait | with_reducible apply Kept.after_writeMshPart | with_reducible apply Kept.foldl | with_reducible apply Kept.ite | with_reducible apply Kept.ite_snd | with_reducible apply Kept.ite_fst | with_reducible apply Kept.ite_snd2 | intro _)); done)

theorem Kept.after_enablingWork {s t : State} {p : Nat} (h : Kept s t) : Kept s (State.enablingWork t p) := by
  ((try unfold State.enablingWork); (try simp only []); (repeat' (first | (simp +contextual (maxDischargeDepth := 100) only [h, Kept.after_dropJobs, Kept.after_giveAllBanks, Kept.after_invalidatePart, Kept.after_modPart, Kept.after_partitionReset]; done) | split | with_reducible assumption | with_reducible apply Kept.after_dropJobs | with_reducible apply Kept.after_giveAllBanks | with_reducible apply Kept.after_invalidatePart | with_reducible apply Kept.after_modPart | with_reducible apply Kept.after_partitionReset | with_reducible apply Kept.foldl | with_reducible apply Kept.ite | with_reducible apply Kept.ite_snd | with_reducible apply Kept.ite_fst | with_reducible apply Kept.ite_snd2 | intro _)); done)

theorem Kept.after_beginEnabling {s t : State} {p : Nat} (h : Kept s t) : Kept s (State.beginEnabling t p) := by
  ((try unfold State.beginEnabling); (try simp only []); (repeat' (first | (simp +contextual (maxDischargeDepth := 100) only [h, Kept.after_enablingWork, Kept.after_fenceRun, Kept.after_modPart, Kept.after_setFld, Kept.foldl, Kept.ite, implies_true]; done) | split | with_reducible assumption | with_reducible apply Kept.after_enablingWork | with_reducible apply Kept.after_fenceRun | with_reducible apply Kept.after_modPart | with_reducible apply Kept.after_setFld | with_reducible apply Kept.foldl | with_reducible apply Kept.ite | with_reducible apply Kept.ite_snd | with_reducible apply Kept.ite_fst | with_reducible apply Kept.ite_snd2 | intro _)); done)

theorem Kept.after_partEnable {s t : State} {p : Nat} (h : Kept s t) : Kept s (State.partEnable t p) := by
  (unfold State.partEnable; split <;> simp +contextual (maxDischargeDepth := 100) only [h, Kept.after_beginEnabling, Kept.after_enWritten, Kept.after_partErr, Kept.ite]; done)

theorem Kept.after_partDisable {s t : State} {p : Nat} (h : Kept s t) : Kept s (State.partDisable t p) := by
  (unfold State.partDisable; split <;> simp +contextual (maxDischargeDepth := 100) only [h, Kept.after_beginDisabling, Kept.after_disWritten, Kept.after_setFlag, Kept.ite]; done)

theorem Kept.after_partStateDone {s t : State} {p : Nat} {ok : Bool} (h : Kept s t) : Kept s (State.partStateDone t p ok) := by
  (unfold State.partStateDone; split <;> simp +contextual (maxDischargeDepth := 100) only [h, Kept.after_beginDisabling, Kept.after_beginEnabling, Kept.after_clearPending, Kept.after_enablingWork, Kept.after_giveAllBanks, Kept.after_invalidatePart, Kept.after_setFld, Kept.after_workDone, Kept.after_workFailed, Kept.foldl, Kept.ite, implies_true]; done)

theorem Kept.after_latched {s t : State} {p : Nat} (h : Kept s t) : Kept s (State.latched t p) := by
  ((try unfold State.latched); (try simp only []); (repeat' (first | (simp +contextual (maxDischargeDepth := 100) only [h, Kept.after_beginDisabling, Kept.after_clearPending, Kept.after_jobReset, Kept.after_modPart, Kept.after_partitionReset, Kept.after_preempt, Kept.after_setFlag, Kept.after_sliceBoundary, Kept.foldl, Kept.ite, implies_true]; done) | split | with_reducible assumption | with_reducible apply Kept.after_beginDisabling | with_reducible apply Kept.after_clearPending | with_reducible apply Kept.after_jobReset | with_reducible apply Kept.after_modPart | with_reducible apply Kept.after_partitionReset | with_reducible apply Kept.after_preempt | with_reducible apply Kept.after_setFlag | with_reducible apply Kept.after_sliceBoundary | with_reducible apply Kept.foldl | with_reducible apply Kept.ite | with_reducible apply Kept.ite_snd | with_reducible apply Kept.ite_fst | with_reducible apply Kept.ite_snd2 | intro _)); done)

theorem Kept.after_finishSwitch {s t : State} {p : Nat} (h : Kept s t) : Kept s (State.finishSwitch t p) := by
  ((try unfold State.finishSwitch); (try simp only []); (repeat' (first | (simp +contextual (maxDischargeDepth := 100) only [h, Kept.after_addFld, Kept.after_latched, Kept.after_modPart, Kept.after_prtInterrupt, Kept.after_setFld]; done) | split | with_reducible assumption | with_reducible apply Kept.after_addFld | with_reducible apply Kept.after_latched | with_reducible apply Kept.after_modPart | with_reducible apply Kept.after_prtInterrupt | with_reducible apply Kept.after_setFld | with_reducible apply Kept.after_stopped | with_reducible apply Kept.foldl | with_reducible apply Kept.ite | with_reducible apply Kept.ite_snd | with_reducible apply Kept.ite_fst | with_reducible apply Kept.ite_snd2 | intro _)); done)

theorem Kept.after_readContext {s t : State} {p j : Nat} (h : Kept s t) : Kept s (State.readContext t p j) := by
  (unfold State.readContext; split <;> simp +contextual (maxDischargeDepth := 100) only [h, Kept.after_modPart, Kept.after_partErr, Kept.after_setJob, Kept.after_takeContext]; done)

theorem Kept.after_stopEngines {s t : State} {p : Nat} (h : Kept s t) : Kept s (State.stopEngines t p) := by
  ((try unfold State.stopEngines); (try simp only []); (repeat' (first | (simp +contextual (maxDischargeDepth := 100) only [h, Kept.after_abandon, Kept.after_modPart, Kept.after_setFld, Kept.foldl, implies_true]; done) | split | with_reducible assumption | with_reducible apply Kept.after_abandon | with_reducible apply Kept.after_modPart | with_reducible apply Kept.after_setFld | with_reducible apply Kept.after_stopped | with_reducible apply Kept.foldl | with_reducible apply Kept.ite | with_reducible apply Kept.ite_snd | with_reducible apply Kept.ite_fst | with_reducible apply Kept.ite_snd2 | intro _)); done)

theorem Kept.after_saveOutgoing {s t : State} {p : Nat} (h : Kept s t) : Kept s (State.saveOutgoing t p) := by
  (unfold State.saveOutgoing; split <;> simp +contextual (maxDischargeDepth := 100) only [h, Kept.after_saveContext]; done)

theorem Kept.after_readIncoming {s t : State} {p : Nat} (h : Kept s t) : Kept s (State.readIncoming t p) := by
  (unfold State.readIncoming; split <;> simp +contextual (maxDischargeDepth := 100) only [h, Kept.after_readContext]; done)

theorem Kept.after_stopComplete {s t : State} {p : Nat} (h : Kept s t) : Kept s (stopComplete p t) := by
  (unfold stopComplete; split <;> simp +contextual (maxDischargeDepth := 100) only [h, Kept.after_finishSwitch, Kept.after_readIncoming, Kept.after_saveOutgoing, Kept.after_stopEngines, Kept.ite]; done)

theorem Kept.after_saveComplete {s t : State} {p : Nat} (h : Kept s t) : Kept s (saveComplete p t) := by
  ((try unfold saveComplete); (try simp only []); (repeat' (first | (simp +contextual (maxDischargeDepth := 100) only [h, Kept.after_finishSwitch, Kept.after_modPart, Kept.after_passSave, Kept.after_saveRecord, Kept.after_setFlag, Kept.after_setFld, Kept.after_setJob, Kept.after_writeNum, Kept.ite]; done) | split | with_reducible assumption | with_reducible apply Kept.after_finishSwitch | with_reducible apply Kept.after_modPart | with_reducible apply Kept.after_passSave | with_reducible apply Kept.after_saveRecord | with_reducible apply Kept.after_setFlag | with_reducible apply Kept.after_setFld | with_reducible apply Kept.after_setJob | with_reducible apply Kept.after_writeNum | with_reducible apply Kept.foldl | with_reducible apply Kept.ite | with_reducible apply Kept.ite_snd | with_reducible apply Kept.ite_fst | with_reducible apply Kept.ite_snd2 | intro _)); done)

theorem Kept.after_recordError {s t : State} {p : Nat} (h : Kept s t) : Kept s (State.recordError t p) := by
  ((try unfold State.recordError); (try simp only []); (repeat' (first | (simp +contextual (maxDischargeDepth := 100) only [h, Kept.after_stackEcc, Kept.after_took]; done) | split | with_reducible assumption | with_reducible apply Kept.after_stackEcc | with_reducible apply Kept.after_took | with_reducible apply Kept.foldl | with_reducible apply Kept.ite | with_reducible apply Kept.ite_snd | with_reducible apply Kept.ite_fst | with_reducible apply Kept.ite_snd2 | intro _)); done)

theorem Kept.after_restoreComplete {s t : State} {p : Nat} {res : EndKind} (h : Kept s t) : Kept s (restoreComplete p res t) := by
  (unfold restoreComplete; split <;> simp +contextual (maxDischargeDepth := 100) only [h, Kept.after_finishSwitch, Kept.after_freshTile, Kept.after_goOn, Kept.after_jobReset, Kept.after_markOpen, Kept.after_partErr, Kept.after_prtInterrupt, Kept.after_readEnvelopes, Kept.after_recordError, Kept.after_restoreMovers, Kept.after_restoreTile, Kept.after_setFlag, Kept.after_setFld, Kept.after_setJob, Kept.after_setSaved, Kept.foldl, Kept.ite, implies_true]; done)

theorem Kept.after_writeCtxLo {s t : State} {p j : Nat} {v : Word} (h : Kept s t) : Kept s (State.writeCtxLo t p j v) := by
  ((try unfold State.writeCtxLo); (try simp only []); (repeat' (first | (simp +contextual (maxDischargeDepth := 100) only [h, Kept.after_setFlag, Kept.after_setFld, Kept.after_setJob, Kept.after_setSaved, Kept.ite]; done) | split | with_reducible assumption | with_reducible apply Kept.after_setFlag | with_reducible apply Kept.after_setFld | with_reducible apply Kept.after_setJob | with_reducible apply Kept.after_setSaved | with_reducible apply Kept.foldl | with_reducible apply Kept.ite | with_reducible apply Kept.ite_snd | with_reducible apply Kept.ite_fst | with_reducible apply Kept.ite_snd2 | intro _)); done)

theorem Kept.after_uncapture {s t : State} {c : CapturedSet} (h : Kept s t) : Kept s (State.uncapture t c) := by
  ((try unfold State.uncapture); (try simp only []); (repeat' (first | (simp +contextual (maxDischargeDepth := 100) only [h, Kept.after_setFreed, Kept.after_setReg, Kept.ite]; done) | split | with_reducible assumption | with_reducible apply Kept.after_setFreed | with_reducible apply Kept.after_setReg | with_reducible apply Kept.foldl | with_reducible apply Kept.ite | with_reducible apply Kept.ite_snd | with_reducible apply Kept.ite_fst | with_reducible apply Kept.ite_snd2 | intro _)); done)

theorem Kept.after_recapture {s t : State} {c : CapturedSet} (h : Kept s t) : Kept s (State.recapture t c) := by
  ((try unfold State.recapture); (try simp only []); (repeat' (first | (simp +contextual (maxDischargeDepth := 100) only [h, Kept.after_setReg]; done) | split | with_reducible assumption | with_reducible apply Kept.after_setReg | with_reducible apply Kept.foldl | with_reducible apply Kept.ite | with_reducible apply Kept.ite_snd | with_reducible apply Kept.ite_fst | with_reducible apply Kept.ite_snd2 | intro _)); done)

theorem Kept.after_freeRequest {s t : State} {slot : Nat} (h : Kept s t) : Kept s (State.freeRequest t slot) := by
  ((try unfold State.freeRequest); (try simp only []); (repeat' (first | (simp +contextual (maxDischargeDepth := 100) only [h, Kept.after_setRequest, Kept.after_uncapture, Kept.foldl, implies_true]; done) | split | with_reducible assumption | with_reducible apply Kept.after_setRequest | with_reducible apply Kept.after_uncapture | with_reducible apply Kept.foldl | with_reducible apply Kept.ite | with_reducible apply Kept.ite_snd | with_reducible apply Kept.ite_fst | with_reducible apply Kept.ite_snd2 | intro _)); done)

theorem Kept.after_endRequest {s t : State} {slot status reason : Nat} (h : Kept s t) : Kept s (State.endRequest t slot status reason) := by
  ((try unfold State.endRequest); (try simp only []); (repeat' (first | (simp +contextual (maxDischargeDepth := 100) only [h, Kept.after_freeRequest, Kept.after_nextRecord, Kept.after_took, Kept.mk_iff, Kept.pending, Kept.fuses, Kept.free, Kept.mem, Kept.regs, Kept.flash, and_self]; done) | split | with_reducible assumption | with_reducible apply Kept.after_freeRequest | with_reducible apply Kept.after_nextRecord | with_reducible apply Kept.after_took | with_reducible apply Kept.foldl | with_reducible apply Kept.ite | with_reducible apply Kept.ite_snd | with_reducible apply Kept.ite_fst | with_reducible apply Kept.ite_snd2 | intro _)); done)

theorem Kept.after_eventRecord {s t : State} {slot status : Nat} (h : Kept s t) : Kept s (State.eventRecord t slot status) := by
  ((try unfold State.eventRecord); (try simp only []); (repeat' (first | (simp +contextual (maxDischargeDepth := 100) only [h, Kept.after_nextRecord, Kept.after_took]; done) | split | with_reducible assumption | with_reducible apply Kept.after_nextRecord | with_reducible apply Kept.after_took | with_reducible apply Kept.foldl | with_reducible apply Kept.ite | with_reducible apply Kept.ite_snd | with_reducible apply Kept.ite_fst | with_reducible apply Kept.ite_snd2 | intro _)); done)

theorem Kept.after_hold {s t : State} {slot : Nat} {ring : Bool} (h : Kept s t) : Kept s (State.hold t slot ring) := by
  ((try unfold State.hold); (try simp only []); (repeat' (first | (simp +contextual (maxDischargeDepth := 100) only [h, Kept.after_modRequest]; done) | split | with_reducible assumption | with_reducible apply Kept.after_modRequest | with_reducible apply Kept.foldl | with_reducible apply Kept.ite | with_reducible apply Kept.ite_snd | with_reducible apply Kept.ite_fst | with_reducible apply Kept.ite_snd2 | intro _)); done)

theorem Kept.after_takeSlot {s t : State} {slot : Nat} (h : Kept s t) : Kept s (State.takeSlot t slot) := by
  ((try unfold State.takeSlot); (try simp only []); (repeat' (first | (simp +contextual (maxDischargeDepth := 100) only [h, Kept.after_eventRecord, Kept.after_hold, Kept.after_modRequest, Kept.after_reserve, Kept.after_setFlag, Kept.ite]; done) | split | with_reducible assumption | with_reducible apply Kept.after_eventRecord | with_reducible apply Kept.after_hold | with_reducible apply Kept.after_modRequest | with_reducible apply Kept.after_reserve | with_reducible apply Kept.after_setFlag | with_reducible apply Kept.foldl | with_reducible apply Kept.ite | with_reducible apply Kept.ite_snd | with_reducible apply Kept.ite_fst | with_reducible apply Kept.ite_snd2 | intro _)); done)

theorem Kept.after_endWaiting {s t : State} {p : Nat} (h : Kept s t) : Kept s (State.endWaiting t p) := by
  ((try unfold State.endWaiting); (try simp only []); (repeat' (first | (simp +contextual (maxDischargeDepth := 100) only [h, Kept.after_endRequest, implies_true]; done) | split | with_reducible assumption | with_reducible apply Kept.after_endRequest | with_reducible apply Kept.foldl | with_reducible apply Kept.ite | with_reducible apply Kept.ite_snd | with_reducible apply Kept.ite_fst | with_reducible apply Kept.ite_snd2 | intro _)); done)

theorem Kept.after_admitStep {s t : State} {p : Nat} {rows : List StepRow} {prefill : Bool} (h : Kept s t) : Kept s (State.admitStep t p rows prefill) := by
  (unfold State.admitStep; split <;> simp +contextual (maxDischargeDepth := 100) only [h, Kept.after_modPart, Kept.after_recapture, Kept.after_writeSelection, Kept.foldl, implies_true]; done)

theorem Kept.after_Compose_take {s : State} {c : Compose} {slot pos n : Nat} {pr : Bool} (h : Kept s c.s) : Kept s (c.take slot pos n pr).s := by
  unfold Compose.take
  split
  · exact Kept.after_takeSlot h
  · exact Kept.after_takeSlot h

theorem Kept.after_Compose_decode {s : State} {b m : Nat} {l : List Nat} {c : Compose} (h : Kept s c.s) : Kept s (Compose.decode b m l c).s := by
  induction l generalizing c with
  | nil => exact h
  | cons a l ih =>
    unfold Compose.decode
    dsimp only
    split
    · exact h
    · exact ih (Kept.after_Compose_take h)

theorem Kept.after_Compose_prefill {s : State} {m : Nat} {l : List Nat} {c : Compose} (h : Kept s c.s) : Kept s (Compose.prefill m l c).s := by
  induction l generalizing c with
  | nil => exact h
  | cons a l ih =>
    unfold Compose.prefill
    dsimp only
    split
    · split
      · exact Kept.after_Compose_take h
      · exact h
    · split
      · exact h
      · exact ih (Kept.after_Compose_take h)

theorem Kept.after_Compose_chunk {s : State} {p m : Nat} {c : Compose} (h : Kept s c.s) : Kept s (c.chunk p m).s := by
  unfold Compose.chunk
  split
  · exact h
  · dsimp only
    split
    · exact Kept.after_Compose_take h
    · exact h

theorem Kept.after_compose {s t : State} {p : Nat} (h : Kept s t) : Kept s (t.compose p).1.s := by
  unfold State.compose
  dsimp only
  split
  · exact Kept.after_Compose_prefill (Kept.after_Compose_decode h)
  · exact Kept.after_Compose_chunk (Kept.after_Compose_decode h)

theorem Kept.after_stepAdmission {s t : State} {p : Nat} (h : Kept s t) : Kept s (stepAdmission p t) := by
  unfold stepAdmission
  dsimp only
  repeat' (first | with_reducible assumption | with_reducible apply Kept.after_admitError | with_reducible apply Kept.after_admitStep | with_reducible apply Kept.after_compose | with_reducible apply Kept.after_endWaiting | split)

theorem Kept.after_requestDeadlineCheck {s t : State}  (h : Kept s t) : Kept s (requestDeadlineCheck t) := by
  (unfold requestDeadlineCheck; split <;> simp +contextual (maxDischargeDepth := 100) only [h, Kept.after_endRequest, Kept.foldl, Kept.ite, implies_true]; done)

theorem Kept.after_charge {s t : State} {a n : Nat} (h : Kept s t) : Kept s (State.charge t a n) := by
  ((try unfold State.charge); (try simp only []); (repeat' (first | (simp +contextual (maxDischargeDepth := 100) only [h, Kept.after_setReg]; done) | split | with_reducible assumption | with_reducible apply Kept.after_setReg | with_reducible apply Kept.foldl | with_reducible apply Kept.ite | with_reducible apply Kept.ite_snd | with_reducible apply Kept.ite_fst | with_reducible apply Kept.ite_snd2 | intro _)); done)

theorem Kept.after_chargeStep {s t : State} {p : Nat} {o : OpenStep} (h : Kept s t) : Kept s (State.chargeStep t p o) := by
  (unfold State.chargeStep; split <;> simp +contextual (maxDischargeDepth := 100) only [h, Kept.after_charge, Kept.after_modPart, Kept.foldl, implies_true]; done)

theorem Kept.after_rollAccounts {s t : State}  (h : Kept s t) : Kept s (State.rollAccounts t) := by
  ((try unfold State.rollAccounts); (try simp only []); (repeat' (first | (simp +contextual (maxDischargeDepth := 100) only [h, Kept.after_setReg, Kept.foldl, Kept.ite, implies_true]; done) | split | with_reducible assumption | with_reducible apply Kept.after_setReg | with_reducible apply Kept.foldl | with_reducible apply Kept.ite | with_reducible apply Kept.ite_snd | with_reducible apply Kept.ite_fst | with_reducible apply Kept.ite_snd2 | intro _)); done)

theorem Kept.after_budgetWindowRoll {s t : State}  (h : Kept s t) : Kept s (budgetWindowRoll t) := by
  (unfold budgetWindowRoll; split <;> simp +contextual (maxDischargeDepth := 100) only [h, Kept.after_chargeStep, Kept.after_eachRequest, Kept.after_rollAccounts, Kept.mk_iff, Kept.pending, Kept.fuses, Kept.free, Kept.mem, Kept.regs, Kept.flash, Kept.foldl, and_self, implies_true]; done)

theorem Kept.after_byPower {s t : State} {m : Master} {act : State → State} (hact : ∀ t, Kept s t → Kept s (act t)) (h : Kept s t) : Kept s (State.byPower t m act) := by
  ((try unfold State.byPower); (try simp only []); (repeat' (first | (simp +contextual (maxDischargeDepth := 100) only [h, hact, Kept.ite]; done) | split | with_reducible assumption | with_reducible apply hact | with_reducible apply Kept.foldl | with_reducible apply Kept.ite | with_reducible apply Kept.ite_snd | with_reducible apply Kept.ite_fst | with_reducible apply Kept.ite_snd2 | intro _)); done)

theorem Kept.after_powerEvent {s t : State} {kind stamp : Nat} (h : Kept s t) : Kept s (State.powerEvent t kind stamp) := by
  ((try unfold State.powerEvent); (try simp only []); (repeat' (first | (simp +contextual (maxDischargeDepth := 100) only [h, Kept.after_interruptIf, Kept.after_setFlag, Kept.after_setFld, Kept.after_setReg64]; done) | split | with_reducible assumption | with_reducible apply Kept.after_interruptIf | with_reducible apply Kept.after_setFlag | with_reducible apply Kept.after_setFld | with_reducible apply Kept.after_setReg64 | with_reducible apply Kept.foldl | with_reducible apply Kept.ite | with_reducible apply Kept.ite_snd | with_reducible apply Kept.ite_fst | with_reducible apply Kept.ite_snd2 | intro _)); done)

theorem Kept.after_powerSample {s t : State} {mv tenMa : Nat} (h : Kept s t) : Kept s (powerSample mv tenMa t) := by
  ((try unfold powerSample); (try simp only []); (repeat' (first | (simp +contextual (maxDischargeDepth := 100) only [h, Kept.after_add64, Kept.after_setReg, Kept.mk_iff, Kept.pending, Kept.fuses, Kept.free, Kept.mem, Kept.regs, Kept.flash, Kept.ite, and_self]; done) | split | with_reducible assumption | with_reducible apply Kept.after_add64 | with_reducible apply Kept.after_setReg | with_reducible apply Kept.foldl | with_reducible apply Kept.ite | with_reducible apply Kept.ite_snd | with_reducible apply Kept.ite_fst | with_reducible apply Kept.ite_snd2 | intro _)); done)

theorem Kept.after_condition {s t : State} {f : Field} {now : Bool} {event : Nat} (h : Kept s t) : Kept s (State.condition t f now event) := by
  (unfold State.condition; split <;> simp +contextual (maxDischargeDepth := 100) only [h, Kept.after_powerEvent, Kept.after_setFlag]; done)

theorem Kept.after_temperatureSample {s t : State} {v : List (BitVec 16)} (h : Kept s t) : Kept s (temperatureSample v t) := by
  (unfold temperatureSample; split <;> simp +contextual (maxDischargeDepth := 100) only [h, Kept.after_condition, Kept.after_setFlag, Kept.after_setReg, Kept.mk_iff, Kept.pending, Kept.fuses, Kept.free, Kept.mem, Kept.regs, Kept.flash, Kept.foldl, Kept.ite, and_self, implies_true]; done)

theorem Kept.after_writeCap {s t : State} {v : Word} (h : Kept s t) : Kept s (State.writeCap t v) := by
  ((try unfold State.writeCap); (try simp only []); (repeat' (first | (simp +contextual (maxDischargeDepth := 100) only [h, Kept.after_setFld, Kept.mk_iff, Kept.pending, Kept.fuses, Kept.free, Kept.mem, Kept.regs, Kept.flash, and_self]; done) | split | with_reducible assumption | with_reducible apply Kept.after_setFld | with_reducible apply Kept.foldl | with_reducible apply Kept.ite | with_reducible apply Kept.ite_snd | with_reducible apply Kept.ite_fst | with_reducible apply Kept.ite_snd2 | intro _)); done)

theorem Kept.after_leaseLapse {s t : State}  (h : Kept s t) : Kept s (leaseLapse t) := by
  (unfold leaseLapse; split <;> simp +contextual (maxDischargeDepth := 100) only [h, Kept.after_powerEvent, Kept.after_setFlag, Kept.mk_iff, Kept.pending, Kept.fuses, Kept.free, Kept.mem, Kept.regs, Kept.flash, Kept.ite, and_self]; done)

theorem Kept.after_alertAssert {s t : State}  (h : Kept s t) : Kept s (alertAssert t) := by
  (unfold alertAssert; split <;> simp +contextual (maxDischargeDepth := 100) only [h, Kept.after_setFlag, Kept.mk_iff, Kept.pending, Kept.fuses, Kept.free, Kept.mem, Kept.regs, Kept.flash, and_self]; done)

theorem Kept.after_alertRelease {s t : State}  (h : Kept s t) : Kept s (alertRelease t) := by
  (unfold alertRelease; split <;> simp +contextual (maxDischargeDepth := 100) only [h, Kept.after_setFlag, Kept.mk_iff, Kept.pending, Kept.fuses, Kept.free, Kept.mem, Kept.regs, Kept.flash, and_self]; done)

theorem Kept.after_throttleStep {s t : State} {others : Nat} (h : Kept s t) : Kept s (State.throttleStep t others) := by
  (unfold State.throttleStep; split <;> simp +contextual (maxDischargeDepth := 100) only [h, Kept.after_powerEvent, Kept.after_setFlag, Kept.mk_iff, Kept.pending, Kept.fuses, Kept.free, Kept.mem, Kept.regs, Kept.flash, Kept.ite, and_self]; done)

theorem Kept.after_floorStep {s t : State} {c : Nat} (h : Kept s t) : Kept s (State.floorStep t c) := by
  ((try unfold State.floorStep); (try simp only []); (repeat' (first | (simp +contextual (maxDischargeDepth := 100) only [h, Kept.after_condition]; done) | split | with_reducible assumption | with_reducible apply Kept.after_condition | with_reducible apply Kept.foldl | with_reducible apply Kept.ite | with_reducible apply Kept.ite_snd | with_reducible apply Kept.ite_fst | with_reducible apply Kept.ite_snd2 | intro _)); done)

theorem Kept.after_bankStep {s t : State} {c p x_t : Nat} (h : Kept s t) : Kept s (State.bankStep t c p x_t) := by
  ((try unfold State.bankStep); (try simp only []); (repeat' (first | (simp +contextual (maxDischargeDepth := 100) only [h, Kept.after_powerEvent, Kept.after_setFlag, Kept.mk_iff, Kept.pending, Kept.fuses, Kept.free, Kept.mem, Kept.regs, Kept.flash, Kept.ite, and_self]; done) | split | with_reducible assumption | with_reducible apply Kept.after_powerEvent | with_reducible apply Kept.after_setFlag | with_reducible apply Kept.foldl | with_reducible apply Kept.ite | with_reducible apply Kept.ite_snd | with_reducible apply Kept.ite_fst | with_reducible apply Kept.ite_snd2 | intro _)); done)

theorem Kept.after_burstStep {s t : State} {c : Nat} (h : Kept s t) : Kept s (State.burstStep t c) := by
  ((try unfold State.burstStep); (try simp only []); (repeat' (first | (simp +contextual (maxDischargeDepth := 100) only [h, Kept.after_powerEvent, Kept.after_satFld, Kept.after_setFlag, Kept.mk_iff, Kept.pending, Kept.fuses, Kept.free, Kept.mem, Kept.regs, Kept.flash, and_self]; done) | split | with_reducible assumption | with_reducible apply Kept.after_powerEvent | with_reducible apply Kept.after_satFld | with_reducible apply Kept.after_setFlag | with_reducible apply Kept.foldl | with_reducible apply Kept.ite | with_reducible apply Kept.ite_snd | with_reducible apply Kept.ite_fst | with_reducible apply Kept.ite_snd2 | intro _)); done)

theorem Kept.after_rescale {s t : State} {p : Nat} (h : Kept s t) : Kept s (State.rescale t p) := by
  ((try unfold State.rescale); (try simp only []); (repeat' (first | (simp +contextual (maxDischargeDepth := 100) only [h, Kept.after_took, Kept.mk_iff, Kept.pending, Kept.fuses, Kept.free, Kept.mem, Kept.regs, Kept.flash, Kept.ite, and_self]; done) | split | with_reducible assumption | with_reducible apply Kept.after_took | with_reducible apply Kept.foldl | with_reducible apply Kept.ite | with_reducible apply Kept.ite_snd | with_reducible apply Kept.ite_fst | with_reducible apply Kept.ite_snd2 | intro _)); done)

theorem Kept.after_showPower {s t : State} {c x_t p : Nat} (h : Kept s t) : Kept s (State.showPower t c x_t p) := by
  ((try unfold State.showPower); (try simp only []); (repeat' (first | (simp +contextual (maxDischargeDepth := 100) only [h, Kept.after_setFld]; done) | split | with_reducible assumption | with_reducible apply Kept.after_setFld | with_reducible apply Kept.foldl | with_reducible apply Kept.ite | with_reducible apply Kept.ite_snd | with_reducible apply Kept.ite_fst | with_reducible apply Kept.ite_snd2 | intro _)); done)

theorem Kept.after_stepCaps {s t : State}  (h : Kept s t) : Kept s (State.stepCaps t) := by
  (unfold State.stepCaps; split <;> simp +contextual (maxDischargeDepth := 100) only [h, Kept.after_bankStep, Kept.after_burstStep, Kept.after_floorStep, Kept.after_powerEvent, Kept.after_rescale, Kept.after_satFld, Kept.after_setFlag, Kept.after_showPower, Kept.after_throttleStep, Kept.after_took, Kept.mk_iff, Kept.pending, Kept.fuses, Kept.free, Kept.mem, Kept.regs, Kept.flash, Kept.ite, and_self]; done)

theorem Kept.after_powerStep {s t : State}  (h : Kept s t) : Kept s (powerStep t) := by
  (unfold powerStep; split <;> simp +contextual (maxDischargeDepth := 100) only [h, Kept.after_setFlag, Kept.after_stepCaps, Kept.mk_iff, Kept.pending, Kept.fuses, Kept.free, Kept.mem, Kept.regs, Kept.flash, and_self]; done)

theorem Kept.after_releaseCredit {s t : State}  (h : Kept s t) : Kept s (State.releaseCredit t) := by
  (unfold State.releaseCredit; split <;> simp +contextual (maxDischargeDepth := 100) only [h, Kept.after_setFlag, Kept.after_took, Kept.mk_iff, Kept.pending, Kept.fuses, Kept.free, Kept.mem, Kept.regs, Kept.flash, Kept.ite, and_self]; done)

theorem Kept.after_thermtrip {s t : State} {sensor : Nat} {v : BitVec 16} (h : Kept s t) : Kept s (thermtrip sensor v t) := by
  (unfold thermtrip; split <;> simp +contextual (maxDischargeDepth := 100) only [h, Kept.after_clearPending, Kept.after_setFlag, Kept.after_setFld, Kept.mk_iff, Kept.pending, Kept.fuses, Kept.free, Kept.mem, Kept.regs, Kept.flash, Kept.foldl, Kept.ite, and_self, implies_true]; done)

theorem Kept.after_writePwrBank {s t : State} {v : Word} (h : Kept s t) : Kept s (State.writePwrBank t v) := by
  (unfold State.writePwrBank; split <;> simp +contextual (maxDischargeDepth := 100) only [h, Kept.after_enDis, Kept.after_setFlag, Kept.ite]; done)

theorem Kept.after_degrade {s t : State} {u : Nat} (h : Kept s t) : Kept s (State.degrade t u) := by
  (unfold State.degrade; split <;> simp +contextual (maxDischargeDepth := 100) only [h, Kept.after_interruptIf, Kept.after_setFlag]; done)

theorem Kept.after_leaveOff {s t : State} {u : Nat} (h : Kept s t) : Kept s (State.leaveOff t u) := by
  (unfold State.leaveOff; split <;> simp +contextual (maxDischargeDepth := 100) only [h, Kept.after_setFlag, Kept.mk_iff, Kept.pending, Kept.fuses, Kept.free, Kept.mem, Kept.regs, Kept.flash, and_self]; done)

theorem Kept.after_writeTier {s t : State} {u : Nat} {v : Word} (h : Kept s t) : Kept s (State.writeTier t u v) := by
  (unfold State.writeTier; split <;> simp +contextual (maxDischargeDepth := 100) only [h, Kept.after_enDis, Kept.after_leaveOff, Kept.after_setFld, Kept.ite]; done)

theorem Kept.after_linkGone {s t : State} {n : Nat} (h : Kept s t) : Kept s (State.linkGone t n) := by
  ((try unfold State.linkGone); (try simp only []); (repeat' (first | (simp +contextual (maxDischargeDepth := 100) only [h, Kept.after_setFlag, Kept.after_setFld]; done) | split | with_reducible assumption | with_reducible apply Kept.after_setFlag | with_reducible apply Kept.after_setFld | with_reducible apply Kept.foldl | with_reducible apply Kept.ite | with_reducible apply Kept.ite_snd | with_reducible apply Kept.ite_fst | with_reducible apply Kept.ite_snd2 | intro _)); done)

theorem Kept.after_tierDone {s t : State} {u : Nat} (h : Kept s t) : Kept s (State.tierDone t u) := by
  ((try unfold State.tierDone); (try simp only []); (repeat' (first | (simp +contextual (maxDischargeDepth := 100) only [h, Kept.after_leaveOff, Kept.after_workDone, Kept.ite]; done) | split | with_reducible assumption | with_reducible apply Kept.after_leaveOff | with_reducible apply Kept.after_workDone | with_reducible apply Kept.foldl | with_reducible apply Kept.ite | with_reducible apply Kept.ite_snd | with_reducible apply Kept.ite_fst | with_reducible apply Kept.ite_snd2 | intro _)); done)

theorem Kept.after_stackDone {s t : State} {b : Nat} {ok : Bool} (h : Kept s t) : Kept s (State.stackDone t b ok) := by
  ((try unfold State.stackDone); (try simp only []); (repeat' (first | (simp +contextual (maxDischargeDepth := 100) only [h, Kept.after_degrade, Kept.after_tierDone, Kept.after_workDone, Kept.after_workFailed, Kept.ite]; done) | split | with_reducible assumption | with_reducible apply Kept.after_degrade | with_reducible apply Kept.after_tierDone | with_reducible apply Kept.after_workDone | with_reducible apply Kept.after_workFailed | with_reducible apply Kept.foldl | with_reducible apply Kept.ite | with_reducible apply Kept.ite_snd | with_reducible apply Kept.ite_fst | with_reducible apply Kept.ite_snd2 | intro _)); done)

theorem Kept.after_linkFound {s t : State} {n width rate : Nat} {latOpt : Bool} {mib : Nat} (h : Kept s t) : Kept s (State.linkFound t n width rate latOpt mib) := by
  (unfold State.linkFound; split <;> simp +contextual (maxDischargeDepth := 100) only [h, Kept.after_setFlag, Kept.after_setFld]; done)

theorem Kept.after_cxlDone {s t : State} {n : Nat} {w : WorkEnd} (h : Kept s t) : Kept s (State.cxlDone t n w) := by
  ((try unfold State.cxlDone); (try simp only []); (repeat' (first | (simp +contextual (maxDischargeDepth := 100) only [h, Kept.after_linkFound, Kept.after_linkGone, Kept.after_tierDone, Kept.after_workDone, Kept.after_workFailed, Kept.ite]; done) | split | with_reducible assumption | with_reducible apply Kept.after_linkFound | with_reducible apply Kept.after_linkGone | with_reducible apply Kept.after_tierDone | with_reducible apply Kept.after_workDone | with_reducible apply Kept.after_workFailed | with_reducible apply Kept.foldl | with_reducible apply Kept.ite | with_reducible apply Kept.ite_snd | with_reducible apply Kept.ite_fst | with_reducible apply Kept.ite_snd2 | intro _)); done)

theorem Kept.after_stateDone {s t : State} {b : EnBlock} {w : WorkEnd} (h : Kept s t) : Kept s (stateDone b w t) := by
  ((try unfold stateDone); (try simp only []); (repeat' (first | (simp +contextual (maxDischargeDepth := 100) only [h, Kept.after_cxlDone, Kept.after_partStateDone, Kept.after_stackDone, Kept.after_workDone, Kept.after_workFailed, Kept.ite]; done) | split | with_reducible assumption | with_reducible apply Kept.after_cxlDone | with_reducible apply Kept.after_partStateDone | with_reducible apply Kept.after_stackDone | with_reducible apply Kept.after_workDone | with_reducible apply Kept.after_workFailed | with_reducible apply Kept.foldl | with_reducible apply Kept.ite | with_reducible apply Kept.ite_snd | with_reducible apply Kept.ite_fst | with_reducible apply Kept.ite_snd2 | intro _)); done)

theorem Kept.after_tierRow {s t : State} {m : Master} {b : EnBlock} {bit : Nat} {v : Word} (h : Kept s t) : Kept s (State.tierRow t m b bit v) := by
  (unfold State.tierRow; split <;> simp +contextual (maxDischargeDepth := 100) only [h, Kept.after_byFirmware, Kept.after_writeTier, Kept.ite, implies_true]; done)

theorem Kept.after_stackTrainingLost {s t : State} {b : Nat} (h : Kept s t) : Kept s (stackTrainingLost b t) := by
  (unfold stackTrainingLost; split <;> simp +contextual (maxDischargeDepth := 100) only [h, Kept.after_degrade]; done)

theorem Kept.after_endPort {s t : State} {n : Nat} (h : Kept s t) : Kept s (State.endPort t n) := by
  ((try unfold State.endPort); (try simp only []); (repeat' (first | (simp +contextual (maxDischargeDepth := 100) only [h, Kept.after_accessEnd, Kept.mk_iff, Kept.pending, Kept.fuses, Kept.free, Kept.mem, Kept.regs, Kept.flash, Kept.foldl, and_self, implies_true]; done) | split | with_reducible assumption | with_reducible apply Kept.after_accessEnd | with_reducible apply Kept.foldl | with_reducible apply Kept.ite | with_reducible apply Kept.ite_snd | with_reducible apply Kept.ite_fst | with_reducible apply Kept.ite_snd2 | intro _)); done)

theorem Kept.after_isolate {s t : State} {n : Nat} (h : Kept s t) : Kept s (State.isolate t n) := by
  ((try unfold State.isolate); (try simp only []); (repeat' (first | (simp +contextual (maxDischargeDepth := 100) only [h, Kept.after_degrade, Kept.after_disWritten, Kept.after_endPort, Kept.after_interruptIf, Kept.after_linkGone, Kept.after_setFlag, Kept.after_workFailed, Kept.ite]; done) | split | with_reducible assumption | with_reducible apply Kept.after_degrade | with_reducible apply Kept.after_disWritten | with_reducible apply Kept.after_endPort | with_reducible apply Kept.after_interruptIf | with_reducible apply Kept.after_linkGone | with_reducible apply Kept.after_setFlag | with_reducible apply Kept.after_workFailed | with_reducible apply Kept.foldl | with_reducible apply Kept.ite | with_reducible apply Kept.ite_snd | with_reducible apply Kept.ite_fst | with_reducible apply Kept.ite_snd2 | intro _)); done)

theorem Kept.after_cxlViolation {s t : State} {n : Nat} (h : Kept s t) : Kept s (State.cxlViolation t n) := by
  ((try unfold State.cxlViolation); (try simp only []); (repeat' (first | (simp +contextual (maxDischargeDepth := 100) only [h, Kept.after_isolate, Kept.after_satFld, Kept.mk_iff, Kept.pending, Kept.fuses, Kept.free, Kept.mem, Kept.regs, Kept.flash, Kept.ite, and_self]; done) | split | with_reducible assumption | with_reducible apply Kept.after_isolate | with_reducible apply Kept.after_satFld | with_reducible apply Kept.foldl | with_reducible apply Kept.ite | with_reducible apply Kept.ite_snd | with_reducible apply Kept.ite_fst | with_reducible apply Kept.ite_snd2 | intro _)); done)

theorem Kept.after_partnerResponse {s t : State} {n tag : Nat} {res : EndKind} {lengthOk : Bool} (h : Kept s t) : Kept s (partnerResponse n tag res lengthOk t) := by
  ((try unfold partnerResponse); (try simp only []); (repeat' (first | (simp +contextual (maxDischargeDepth := 100) only [h, Kept.after_accessEnd, Kept.after_cxlViolation, Kept.after_satFld, Kept.after_setFlag, Kept.ite]; done) | split | with_reducible assumption | with_reducible apply Kept.after_accessEnd | with_reducible apply Kept.after_cxlViolation | with_reducible apply Kept.after_satFld | with_reducible apply Kept.after_setFlag | with_reducible apply Kept.foldl | with_reducible apply Kept.ite | with_reducible apply Kept.ite_snd | with_reducible apply Kept.ite_fst | with_reducible apply Kept.ite_snd2 | intro _)); done)

theorem Kept.after_cplTimeout {s t : State} {n tag : Nat} (h : Kept s t) : Kept s (cplTimeout n tag t) := by
  (unfold cplTimeout; split <;> simp +contextual (maxDischargeDepth := 100) only [h, Kept.after_accessEnd, Kept.after_cxlViolation, Kept.after_satFld, Kept.ite]; done)

theorem Kept.after_surpriseLinkDown {s t : State} {n : Nat} (h : Kept s t) : Kept s (surpriseLinkDown n t) := by
  (unfold surpriseLinkDown; split <;> simp +contextual (maxDischargeDepth := 100) only [h, Kept.after_isolate, Kept.after_linkGone]; done)

theorem Kept.after_sendVerdict {s t : State} {p n code cause : Nat} {tick : DWord} {m : Nat} (h : Kept s t) : Kept s (State.sendVerdict t p n code cause tick m) := by
  ((try unfold State.sendVerdict); (try simp only []); (repeat' (first | (simp +contextual (maxDischargeDepth := 100) only [h, Kept.after_sendPacket]; done) | split | with_reducible assumption | with_reducible apply Kept.after_sendPacket | with_reducible apply Kept.foldl | with_reducible apply Kept.ite | with_reducible apply Kept.ite_snd | with_reducible apply Kept.ite_fst | with_reducible apply Kept.ite_snd2 | intro _)); done)

theorem Kept.after_sendVerdicts {s t : State} {p n code cause : Nat} {tick : DWord} (h : Kept s t) : Kept s (State.sendVerdicts t p n code cause tick) := by
  ((try unfold State.sendVerdicts); (try simp only []); (repeat' (first | (simp +contextual (maxDischargeDepth := 100) only [h, Kept.after_sendVerdict, Kept.foldl, implies_true]; done) | split | with_reducible assumption | with_reducible apply Kept.after_sendVerdict | with_reducible apply Kept.foldl | with_reducible apply Kept.ite | with_reducible apply Kept.ite_snd | with_reducible apply Kept.ite_fst | with_reducible apply Kept.ite_snd2 | intro _)); done)

theorem Kept.after_setSteps {s t : State} {p : Nat} {l : List OpenStep} (h : Kept s t) : Kept s (State.setSteps t p l) := by
  ((try unfold State.setSteps); (try simp only []); (repeat' (first | (simp +contextual (maxDischargeDepth := 100) only [h, Kept.after_modPart]; done) | split | with_reducible assumption | with_reducible apply Kept.after_modPart | with_reducible apply Kept.foldl | with_reducible apply Kept.ite | with_reducible apply Kept.ite_snd | with_reducible apply Kept.ite_fst | with_reducible apply Kept.ite_snd2 | intro _)); done)

theorem Kept.after_decided {s t : State} {p n dec : Nat} (h : Kept s t) : Kept s (State.decided t p n dec) := by
  ((try unfold State.decided); (try simp only []); (repeat' (first | (simp +contextual (maxDischargeDepth := 100) only [h, Kept.after_setFld]; done) | split | with_reducible assumption | with_reducible apply Kept.after_setFld | with_reducible apply Kept.foldl | with_reducible apply Kept.ite | with_reducible apply Kept.ite_snd | with_reducible apply Kept.ite_fst | with_reducible apply Kept.ite_snd2 | intro _)); done)

theorem Kept.after_decideBad {s t : State} {p n cause : Nat} {ownSent : Bool} (h : Kept s t) : Kept s (State.decideBad t p n cause ownSent) := by
  (unfold State.decideBad; split <;> simp +contextual (maxDischargeDepth := 100) only [h, Kept.after_decided, Kept.after_interruptIf, Kept.after_sendVerdicts, Kept.after_setFld, Kept.after_setSteps]; done)

theorem Kept.after_witnessMismatch {s t : State} {p pair : Nat} {a b : Digest} (h : Kept s t) : Kept s (State.witnessMismatch t p pair a b) := by
  ((try unfold State.witnessMismatch); (try simp only []); (repeat' (first | (simp +contextual (maxDischargeDepth := 100) only [h, Kept.after_logFault, Kept.after_markOpen, Kept.after_setReg, Kept.after_suspect]; done) | split | with_reducible assumption | with_reducible apply Kept.after_logFault | with_reducible apply Kept.after_markOpen | with_reducible apply Kept.after_setReg | with_reducible apply Kept.after_suspect | with_reducible apply Kept.foldl | with_reducible apply Kept.ite | with_reducible apply Kept.ite_snd | with_reducible apply Kept.ite_fst | with_reducible apply Kept.ite_snd2 | intro _)); done)

theorem Kept.after_compareEntry {s t : State} {p n pair k : Nat} (h : Kept s t) : Kept s (State.compareEntry t p n pair k) := by
  ((try unfold State.compareEntry); (try simp only []); (repeat' (first | (simp +contextual (maxDischargeDepth := 100) only [h, Kept.after_add64, Kept.after_slgBit, Kept.after_witnessMismatch, Kept.ite]; done) | split | with_reducible assumption | with_reducible apply Kept.after_add64 | with_reducible apply Kept.after_slgBit | with_reducible apply Kept.after_witnessMismatch | with_reducible apply Kept.foldl | with_reducible apply Kept.ite | with_reducible apply Kept.ite_snd | with_reducible apply Kept.ite_fst | with_reducible apply Kept.ite_snd2 | intro _)); done)

theorem Kept.after_compareDigests {s t : State} {p n : Nat} (h : Kept s t) : Kept s (State.compareDigests t p n) := by
  (unfold State.compareDigests; split <;> simp +contextual (maxDischargeDepth := 100) only [h, Kept.after_compareEntry, Kept.after_modPart, Kept.foldl, implies_true]; done)

theorem Kept.after_stepEnd {s t : State} {p n : Nat} (h : Kept s t) : Kept s (stepEnd p n t) := by
  ((try unfold stepEnd); (try simp only []); (repeat' (first | (simp +contextual (maxDischargeDepth := 100) only [h, Kept.after_compareDigests, Kept.after_decideBad, Kept.after_modTile, Kept.after_pass, Kept.after_sendVerdicts, Kept.after_setSteps, Kept.after_writeNum, Kept.foldl, implies_true]; done) | split | with_reducible assumption | with_reducible apply Kept.after_compareDigests | with_reducible apply Kept.after_decideBad | with_reducible apply Kept.after_modTile | with_reducible apply Kept.after_pass | with_reducible apply Kept.after_sendVerdicts | with_reducible apply Kept.after_setSteps | with_reducible apply Kept.after_writeNum | with_reducible apply Kept.foldl | with_reducible apply Kept.ite | with_reducible apply Kept.ite_snd | with_reducible apply Kept.ite_fst | with_reducible apply Kept.ite_snd2 | intro _)); done)

theorem Kept.after_dropStep {s t : State} {p : Nat} {o : OpenStep} (h : Kept s t) : Kept s (State.dropStep t p o) := by
  ((try unfold State.dropStep); (try simp only []); (repeat' (first | (simp +contextual (maxDischargeDepth := 100) only [h, Kept.after_modPart, Kept.after_setRequest, Kept.after_uncapture, Kept.after_unreserve, Kept.foldl, implies_true]; done) | split | with_reducible assumption | with_reducible apply Kept.after_modPart | with_reducible apply Kept.after_setRequest | with_reducible apply Kept.after_uncapture | with_reducible apply Kept.after_unreserve | with_reducible apply Kept.foldl | with_reducible apply Kept.ite | with_reducible apply Kept.ite_snd | with_reducible apply Kept.ite_fst | with_reducible apply Kept.ite_snd2 | intro _)); done)

theorem Kept.after_dropSteps {s t : State} {p : Nat} (h : Kept s t) : Kept s (State.dropSteps t p) := by
  ((try unfold State.dropSteps); (try simp only []); (repeat' (first | (simp +contextual (maxDischargeDepth := 100) only [h, Kept.after_dropStep, Kept.foldl, implies_true]; done) | split | with_reducible assumption | with_reducible apply Kept.after_dropStep | with_reducible apply Kept.foldl | with_reducible apply Kept.ite | with_reducible apply Kept.ite_snd | with_reducible apply Kept.ite_fst | with_reducible apply Kept.ite_snd2 | intro _)); done)

theorem Kept.after_showKv {s t : State} {slot : Nat} {q : Request} (h : Kept s t) : Kept s (State.showKv t slot q) := by
  ((try unfold State.showKv); (try simp only []); (repeat' (first | (simp +contextual (maxDischargeDepth := 100) only [h, Kept.after_pass, Kept.after_writeNum, Kept.foldl, implies_true]; done) | split | with_reducible assumption | with_reducible apply Kept.after_pass | with_reducible apply Kept.after_writeNum | with_reducible apply Kept.foldl | with_reducible apply Kept.ite | with_reducible apply Kept.ite_snd | with_reducible apply Kept.ite_fst | with_reducible apply Kept.ite_snd2 | intro _)); done)

theorem Kept.after_replayRequest {s t : State} {slot : Nat} (h : Kept s t) : Kept s (State.replayRequest t slot) := by
  (unfold State.replayRequest; split <;> simp +contextual (maxDischargeDepth := 100) only [h, Kept.after_eventRecord, Kept.after_modRequest, Kept.after_showKv]; done)

theorem Kept.after_split {s t : State} {p : Nat} (h : Kept s t) : Kept s (State.split t p) := by
  ((try unfold State.split); (try simp only []); (repeat' (first | (simp +contextual (maxDischargeDepth := 100) only [h, Kept.after_dropSteps, Kept.after_partitionReset, Kept.after_replayRequest, Kept.after_slgBit, Kept.foldl, implies_true]; done) | split | with_reducible assumption | with_reducible apply Kept.after_dropSteps | with_reducible apply Kept.after_partitionReset | with_reducible apply Kept.after_replayRequest | with_reducible apply Kept.after_slgBit | with_reducible apply Kept.foldl | with_reducible apply Kept.ite | with_reducible apply Kept.ite_snd | with_reducible apply Kept.ite_fst | with_reducible apply Kept.ite_snd2 | intro _)); done)

theorem Kept.after_takeVerdict {s t : State} {m : Nat} {body : List Byte} (h : Kept s t) : Kept s (State.takeVerdict t m body) := by
  (unfold State.takeVerdict; split <;> simp +contextual (maxDischargeDepth := 100) only [h, Kept.after_takePacket]; done)

theorem Kept.after_verdictIn {s t : State} {p m : Nat} {body : List Byte} {stamp : DWord} (h : Kept s t) : Kept s (State.verdictIn t p m body stamp) := by
  ((try unfold State.verdictIn); (try simp only []); (repeat' (first | (simp +contextual (maxDischargeDepth := 100) only [h, Kept.after_decideBad, Kept.after_modPart, Kept.after_sendVerdict, Kept.after_split]; done) | split | with_reducible assumption | with_reducible apply Kept.after_decideBad | with_reducible apply Kept.after_modPart | with_reducible apply Kept.after_sendVerdict | with_reducible apply Kept.after_split | with_reducible apply Kept.foldl | with_reducible apply Kept.ite | with_reducible apply Kept.ite_snd | with_reducible apply Kept.ite_fst | with_reducible apply Kept.ite_snd2 | intro _)); done)

theorem Kept.after_verdictReceive {s t : State} {g m : Nat} {body : List Byte} (h : Kept s t) : Kept s (verdictReceive g m body t) := by
  (unfold verdictReceive; split <;> simp +contextual (maxDischargeDepth := 100) only [h, Kept.after_takeVerdict, Kept.after_verdictIn, Kept.foldl, implies_true]; done)

theorem Kept.after_verdictWindowExpiry {s t : State} {p : Nat} (h : Kept s t) : Kept s (verdictWindowExpiry p t) := by
  (unfold verdictWindowExpiry; split <;> simp +contextual (maxDischargeDepth := 100) only [h, Kept.after_decideBad, Kept.after_setFld, Kept.ite]; done)

theorem Kept.after_assignRing {s t : State} {u0 : List (Nat × Request)} (h : Kept s t) : Kept s ((State.assignRing t u0).1) := by
  (induction u0 generalizing t  <;> simp +contextual (maxDischargeDepth := 100) only [State.assignRing, *, Kept.after_takeIndices, Kept.after_unreserve]; done)

theorem Kept.after_beginCommit {s t : State} {p : Nat} {o : OpenStep} {results : List StepResult} (h : Kept s t) : Kept s (State.beginCommit t p o results) := by
  ((try unfold State.beginCommit); (try simp only []); (repeat' (first | (simp +contextual (maxDischargeDepth := 100) only [h, Kept.after_appendRecord, Kept.after_assignRing, Kept.after_decided, Kept.after_setSteps]; done) | split | with_reducible assumption | with_reducible apply Kept.after_appendRecord | with_reducible apply Kept.after_assignRing | with_reducible apply Kept.after_decided | with_reducible apply Kept.after_setSteps | with_reducible apply Kept.foldl | with_reducible apply Kept.ite | with_reducible apply Kept.ite_snd | with_reducible apply Kept.ite_fst | with_reducible apply Kept.ite_snd2 | intro _)); done)

theorem Kept.after_verdictGoodDecision {s t : State} {p : Nat} {results : List StepResult} (h : Kept s t) : Kept s (verdictGoodDecision p results t) := by
  ((try unfold verdictGoodDecision); (try simp only []); (repeat' (first | (simp +contextual (maxDischargeDepth := 100) only [h, Kept.after_decideBad, Kept.after_setFlag]; done) | split | with_reducible refine Kept.after_roomFor ?_ (by with_reducible assumption) | with_reducible assumption | with_reducible apply Kept.after_beginCommit | with_reducible apply Kept.after_decideBad | with_reducible apply Kept.after_setFlag | with_reducible apply Kept.foldl | with_reducible apply Kept.ite | with_reducible apply Kept.ite_snd | with_reducible apply Kept.ite_fst | with_reducible apply Kept.ite_snd2 | intro _)); done)

theorem Kept.after_commitRecordAck {s t : State} {p : Nat} (h : Kept s t) : Kept s (commitRecordAck p t) := by
  ((try unfold commitRecordAck); (try simp only []); (repeat' (first | (simp +contextual (maxDischargeDepth := 100) only [h, Kept.after_setSteps, Kept.after_writeTail, Kept.ite]; done) | split | with_reducible assumption | with_reducible apply Kept.after_setSteps | with_reducible apply Kept.after_writeTail | with_reducible apply Kept.foldl | with_reducible apply Kept.ite | with_reducible apply Kept.ite_snd | with_reducible apply Kept.ite_fst | with_reducible apply Kept.ite_snd2 | intro _)); done)

theorem Kept.after_putRecords {s t : State} {n idx : Nat} {u0 : List OutRecord} (h : Kept s t) : Kept s (State.putRecords t n idx u0) := by
  (induction u0 generalizing t n idx <;> simp +contextual (maxDischargeDepth := 100) only [State.putRecords, *, Kept.after_putRecord]; done)

theorem Kept.after_commitRequest {s t : State} {n : Nat} {stamp : DWord} {slot idx : Nat} {q : Request} (h : Kept s t) : Kept s (State.commitRequest t n stamp slot idx q) := by
  (unfold State.commitRequest; split <;> simp +contextual (maxDischargeDepth := 100) only [h, Kept.after_add64, Kept.after_freeRequest, Kept.after_putRecords, Kept.after_recapture, Kept.after_setRequest, Kept.after_showKv, Kept.foldl, implies_true]; done)

theorem Kept.after_setLastStep {s t : State} {p n : Nat} (h : Kept s t) : Kept s (State.setLastStep t p n) := by
  ((try unfold State.setLastStep); (try simp only []); (repeat' (first | (simp +contextual (maxDischargeDepth := 100) only [h, Kept.after_setFld]; done) | split | with_reducible assumption | with_reducible apply Kept.after_setFld | with_reducible apply Kept.foldl | with_reducible apply Kept.ite | with_reducible apply Kept.ite_snd | with_reducible apply Kept.ite_fst | with_reducible apply Kept.ite_snd2 | intro _)); done)

theorem Kept.after_tailWordAck {s t : State} {p : Nat} (h : Kept s t) : Kept s (tailWordAck p t) := by
  ((try unfold tailWordAck); (try simp only []); (repeat' (first | (simp +contextual (maxDischargeDepth := 100) only [h, Kept.after_chargeStep, Kept.after_commitRequest, Kept.after_modPart, Kept.after_setLastStep, Kept.after_setReg, Kept.after_setSparkTile, Kept.after_uncapture, Kept.foldl, Kept.ite, implies_true]; done) | split | with_reducible assumption | with_reducible apply Kept.after_chargeStep | with_reducible apply Kept.after_commitRequest | with_reducible apply Kept.after_modPart | with_reducible apply Kept.after_setLastStep | with_reducible apply Kept.after_setReg | with_reducible apply Kept.after_setSparkTile | with_reducible apply Kept.after_uncapture | with_reducible apply Kept.foldl | with_reducible apply Kept.ite | with_reducible apply Kept.ite_snd | with_reducible apply Kept.ite_fst | with_reducible apply Kept.ite_snd2 | intro _)); done)

theorem Kept.after_abandonStep {s t : State} {p : Nat} {o : OpenStep} {status reason : Nat} (h : Kept s t) : Kept s (State.abandonStep t p o status reason) := by
  ((try unfold State.abandonStep); (try simp only []); (repeat' (first | (simp +contextual (maxDischargeDepth := 100) only [h, Kept.after_dropStep, Kept.after_endRequest, Kept.after_unreserve, Kept.foldl, implies_true]; done) | split | with_reducible assumption | with_reducible apply Kept.after_dropStep | with_reducible apply Kept.after_endRequest | with_reducible apply Kept.after_unreserve | with_reducible apply Kept.foldl | with_reducible apply Kept.ite | with_reducible apply Kept.ite_snd | with_reducible apply Kept.ite_fst | with_reducible apply Kept.ite_snd2 | intro _)); done)

theorem Kept.after_setRolled {s t : State} {p : Nat} (h : Kept s t) : Kept s (State.setRolled t p) := by
  ((try unfold State.setRolled); (try simp only []); (repeat' (first | (simp +contextual (maxDischargeDepth := 100) only [h, Kept.after_setSteps]; done) | split | with_reducible assumption | with_reducible apply Kept.after_setSteps | with_reducible apply Kept.foldl | with_reducible apply Kept.ite | with_reducible apply Kept.ite_snd | with_reducible apply Kept.ite_fst | with_reducible apply Kept.ite_snd2 | intro _)); done)

theorem Kept.after_replayBad {s t : State} {p : Nat} (h : Kept s t) : Kept s (State.replayBad t p) := by
  ((try unfold State.replayBad); (try simp only []); (repeat' (first | (simp +contextual (maxDischargeDepth := 100) only [h, Kept.after_modPart, Kept.after_setReg]; done) | split | with_reducible assumption | with_reducible apply Kept.after_modPart | with_reducible apply Kept.after_setReg | with_reducible apply Kept.foldl | with_reducible apply Kept.ite | with_reducible apply Kept.ite_snd | with_reducible apply Kept.ite_fst | with_reducible apply Kept.ite_snd2 | intro _)); done)

theorem Kept.after_rollStop {s t : State} {p j : Nat} (h : Kept s t) : Kept s (State.rollStop t p j) := by
  ((try unfold State.rollStop); (try simp only []); (repeat' (first | (simp +contextual (maxDischargeDepth := 100) only [h, Kept.after_jobReset, Kept.after_partitionReset, Kept.after_writeMshPart, Kept.ite]; done) | split | with_reducible assumption | with_reducible apply Kept.after_jobReset | with_reducible apply Kept.after_partitionReset | with_reducible apply Kept.after_writeMshPart | with_reducible apply Kept.foldl | with_reducible apply Kept.ite | with_reducible apply Kept.ite_snd | with_reducible apply Kept.ite_fst | with_reducible apply Kept.ite_snd2 | intro _)); done)

theorem Kept.after_replayWhenFit {s t : State} {p : Nat} (h : Kept s t) : Kept s (State.replayWhenFit t p) := by
  (unfold State.replayWhenFit; split <;> simp +contextual (maxDischargeDepth := 100) only [h, Kept.after_replayBad, Kept.after_setRolled]; done)

theorem Kept.after_rollback {s t : State} {p : Nat} (h : Kept s t) : Kept s (rollback p t) := by
  (unfold rollback; split <;> simp +contextual (maxDischargeDepth := 100) only [h, Kept.after_abandonStep, Kept.after_dropSteps, Kept.after_replayWhenFit, Kept.after_rollStop, Kept.after_setReg, Kept.ite]; done)

theorem Kept.after_abandonFaulted {s t : State} {p j code : Nat} (h : Kept s t) : Kept s (State.abandonFaulted t p j code) := by
  (unfold State.abandonFaulted; split <;> simp +contextual (maxDischargeDepth := 100) only [h, Kept.after_abandonStep, Kept.after_decideBad, Kept.after_dropSteps]; done)

theorem Kept.after_sendControl {s t : State} {p n code a b m : Nat} (h : Kept s t) : Kept s (State.sendControl t p n code a b m) := by
  ((try unfold State.sendControl); (try simp only []); (repeat' (first | (simp +contextual (maxDischargeDepth := 100) only [h, Kept.after_sendPacket]; done) | split | with_reducible assumption | with_reducible apply Kept.after_sendPacket | with_reducible apply Kept.foldl | with_reducible apply Kept.ite | with_reducible apply Kept.ite_snd | with_reducible apply Kept.ite_fst | with_reducible apply Kept.ite_snd2 | intro _)); done)

theorem Kept.after_tellRemoval {s t : State} {p n id member : Nat} (h : Kept s t) : Kept s (State.tellRemoval t p n id member) := by
  ((try unfold State.tellRemoval); (try simp only []); (repeat' (first | (simp +contextual (maxDischargeDepth := 100) only [h, Kept.after_sendControl, Kept.foldl, implies_true]; done) | split | with_reducible assumption | with_reducible apply Kept.after_sendControl | with_reducible apply Kept.foldl | with_reducible apply Kept.ite | with_reducible apply Kept.ite_snd | with_reducible apply Kept.ite_fst | with_reducible apply Kept.ite_snd2 | intro _)); done)

theorem Kept.after_removeRow {s t : State} {p n : Nat} {w : StepRow} (h : Kept s t) : Kept s (State.removeRow t p n w) := by
  ((try unfold State.removeRow); (try simp only []); (repeat' (first | (simp +contextual (maxDischargeDepth := 100) only [h, Kept.after_endRequest, Kept.after_modPart, Kept.after_unreserve]; done) | split | with_reducible assumption | with_reducible apply Kept.after_endRequest | with_reducible apply Kept.after_modPart | with_reducible apply Kept.after_unreserve | with_reducible apply Kept.foldl | with_reducible apply Kept.ite | with_reducible apply Kept.ite_snd | with_reducible apply Kept.ite_fst | with_reducible apply Kept.ite_snd2 | intro _)); done)

theorem Kept.after_removeSegment {s t : State} {p n seg : Nat} (h : Kept s t) : Kept s (State.removeSegment t p n seg) := by
  (unfold State.removeSegment; split <;> simp +contextual (maxDischargeDepth := 100) only [h, Kept.after_removeRow, Kept.after_tellRemoval]; done)

theorem Kept.after_removeNamed {s t : State} {p n id member : Nat} (h : Kept s t) : Kept s (State.removeNamed t p n id member) := by
  ((try unfold State.removeNamed); (try simp only []); (repeat' (first | (simp +contextual (maxDischargeDepth := 100) only [h, Kept.after_removeRow]; done) | split | with_reducible assumption | with_reducible apply Kept.after_removeRow | with_reducible apply Kept.foldl | with_reducible apply Kept.ite | with_reducible apply Kept.ite_snd | with_reducible apply Kept.ite_fst | with_reducible apply Kept.ite_snd2 | intro _)); done)

theorem Kept.after_overrunMessage {s t : State} {p m : Nat} {body : List Byte} (h : Kept s t) : Kept s (State.overrunMessage t p m body) := by
  ((try unfold State.overrunMessage); (try simp only []); (repeat' (first | (simp +contextual (maxDischargeDepth := 100) only [h, Kept.after_modPart, Kept.after_removeNamed, Kept.after_sendControl, Kept.ite]; done) | split | with_reducible assumption | with_reducible apply Kept.after_modPart | with_reducible apply Kept.after_removeNamed | with_reducible apply Kept.after_sendControl | with_reducible apply Kept.foldl | with_reducible apply Kept.ite | with_reducible apply Kept.ite_snd | with_reducible apply Kept.ite_fst | with_reducible apply Kept.ite_snd2 | intro _)); done)

theorem Kept.after_messageTaken {s t : State} {n ch : Nat} (h : Kept s t) : Kept s (messageTaken n ch t) := by
  (unfold messageTaken; split <;> simp +contextual (maxDischargeDepth := 100) only [h, Kept.after_overrunMessage, Kept.after_messageReceive, Kept.foldl, Kept.ite, implies_true]; done)

theorem Kept.after_askSource {s t : State} {p n : Nat} (h : Kept s t) : Kept s (State.askSource t p n) := by
  ((try unfold State.askSource); (try simp only []); (repeat' (first | (simp +contextual (maxDischargeDepth := 100) only [h, Kept.after_sendControl, Kept.after_took]; done) | split | with_reducible assumption | with_reducible apply Kept.after_sendControl | with_reducible apply Kept.after_took | with_reducible apply Kept.foldl | with_reducible apply Kept.ite | with_reducible apply Kept.ite_snd | with_reducible apply Kept.ite_fst | with_reducible apply Kept.ite_snd2 | intro _)); done)

theorem Kept.after_askModules {s t : State} {p n : Nat} {segs : List (Nat × Nat)} (h : Kept s t) : Kept s (State.askModules t p n segs) := by
  (unfold State.askModules; split <;> simp +contextual (maxDischargeDepth := 100) only [h, Kept.after_askSource, Kept.after_modPart, Kept.foldl, implies_true]; done)

theorem Kept.after_removeAnswers {s t : State} {p n : Nat} (h : Kept s t) : Kept s (State.removeAnswers t p n) := by
  ((try unfold State.removeAnswers); (try simp only []); (repeat' (first | (simp +contextual (maxDischargeDepth := 100) only [h, Kept.after_modPart, Kept.after_tellRemoval, Kept.foldl, Kept.ite, implies_true]; done) | split | with_reducible assumption | with_reducible apply Kept.after_modPart | with_reducible apply Kept.after_tellRemoval | with_reducible apply Kept.foldl | with_reducible apply Kept.ite | with_reducible apply Kept.ite_snd | with_reducible apply Kept.ite_fst | with_reducible apply Kept.ite_snd2 | intro _)); done)

theorem Kept.after_shapeOverrunRecovery {s t : State} {p : Nat} (h : Kept s t) : Kept s (shapeOverrunRecovery p t) := by
  ((try unfold shapeOverrunRecovery); (try simp only []); (repeat' (first | (simp +contextual (maxDischargeDepth := 100) only [h, Kept.after_abandonStep, Kept.after_askModules, Kept.after_decideBad, Kept.after_dropSteps, Kept.after_removeAnswers, Kept.after_removeSegment, Kept.after_replayWhenFit, Kept.after_rollStop, Kept.foldl, Kept.ite, implies_true]; done) | split | with_reducible assumption | with_reducible apply Kept.after_abandonStep | with_reducible apply Kept.after_askModules | with_reducible apply Kept.after_decideBad | with_reducible apply Kept.after_dropSteps | with_reducible apply Kept.after_removeAnswers | with_reducible apply Kept.after_removeSegment | with_reducible apply Kept.after_replayWhenFit | with_reducible apply Kept.after_rollStop | with_reducible apply Kept.foldl | with_reducible apply Kept.ite | with_reducible apply Kept.ite_snd | with_reducible apply Kept.ite_fst | with_reducible apply Kept.ite_snd2 | intro _)); done)

theorem Kept.after_stepAdmitted {s t : State} {p : Nat} (h : Kept s t) : Kept s (stepAdmitted p t) := by
  ((try unfold stepAdmitted); (try simp only []); (repeat' (first | (simp +contextual (maxDischargeDepth := 100) only [h, Kept.after_decideBad, Kept.after_stepAdmission]; done) | split | with_reducible assumption | with_reducible apply Kept.after_decideBad | with_reducible apply Kept.after_stepAdmission | with_reducible apply Kept.foldl | with_reducible apply Kept.ite | with_reducible apply Kept.ite_snd | with_reducible apply Kept.ite_fst | with_reducible apply Kept.ite_snd2 | intro _)); done)

end Sys2Proof.Machine
end

