-- ==== Sys2Proof/Laws/KeptSystem.lean ====
section
/-! SUPPORT. `Kept` for the operations of chapters 17, 18 and 20 and of register accesses. The two commands that end a fuse command
have the fuses that they leave in the place of those before. -/

set_option maxRecDepth 8000
set_option linter.all false
namespace Sys2Proof.Machine

theorem Kept.after_showPack {s t : State}  (h : Kept s t) : Kept s (State.showPack t) := by
  ((try unfold State.showPack); (try simp only []); (repeat' (first | (simp +contextual (maxDischargeDepth := 100) only [h, Kept.after_setFld]; done) | split | with_reducible assumption | with_reducible apply Kept.after_setFld | with_reducible apply Kept.foldl | with_reducible apply Kept.ite | with_reducible apply Kept.ite_snd | with_reducible apply Kept.ite_fst | with_reducible apply Kept.ite_snd2 | intro _)); done)

theorem Kept.after_showDue {s t : State} {l : List Nat} (h : Kept s t) : Kept s (State.showDue t l) := by
  ((try unfold State.showDue); (try simp only []); (repeat' (first | (simp +contextual (maxDischargeDepth := 100) only [h, Kept.after_setFlag, Kept.after_setFld]; done) | split | with_reducible assumption | with_reducible apply Kept.after_setFlag | with_reducible apply Kept.after_setFld | with_reducible apply Kept.foldl | with_reducible apply Kept.ite | with_reducible apply Kept.ite_snd | with_reducible apply Kept.ite_fst | with_reducible apply Kept.ite_snd2 | intro _)); done)

theorem Kept.after_exposed {s t : State} {x_t : Nat} (h : Kept s t) : Kept s (State.exposed t x_t) := by
  (unfold State.exposed; split <;> simp +contextual (maxDischargeDepth := 100) only [h, Kept.after_logFault, Kept.after_slgBit, Kept.after_took]; done)

theorem Kept.after_placeUnit {s t : State} {x_t u : Nat} (h : Kept s t) : Kept s (State.placeUnit t x_t u) := by
  (unfold State.placeUnit; split <;> simp +contextual (maxDischargeDepth := 100) only [h, Kept.after_setOwner, Kept.after_write, Kept.foldl, Kept.ite, implies_true]; done)

theorem Kept.after_unitLeaves {s t : State} {x_t : Nat} {signature : DWord} (h : Kept s t) : Kept s (State.unitLeaves t x_t signature) := by
  (unfold State.unitLeaves; split <;> simp +contextual (maxDischargeDepth := 100) only [h, Kept.after_freeBytes, Kept.after_freeWord, Kept.after_setFld, Kept.after_setReg, Kept.after_setSeqState, Kept.after_took, Kept.foldl, implies_true]; done)

theorem Kept.after_clearAfter {s t : State} {x_t : Nat} (h : Kept s t) : Kept s (State.clearAfter t x_t) := by
  (unfold State.clearAfter; split <;> simp +contextual (maxDischargeDepth := 100) only [h, Kept.after_giveBanks, Kept.after_zeroRange]; done)

theorem Kept.after_passDone {s t : State} {x_t : Nat} (h : Kept s t) : Kept s (State.passDone t x_t) := by
  ((try unfold State.passDone); (try simp only []); (repeat' (first | (simp +contextual (maxDischargeDepth := 100) only [h, Kept.after_addFld, Kept.after_setReg64, Kept.after_setSparkTile, Kept.after_showDue, Kept.ite]; done) | split | with_reducible assumption | with_reducible apply Kept.after_addFld | with_reducible apply Kept.after_setReg64 | with_reducible apply Kept.after_setSparkTile | with_reducible apply Kept.after_showDue | with_reducible apply Kept.foldl | with_reducible apply Kept.ite | with_reducible apply Kept.ite_snd | with_reducible apply Kept.ite_fst | with_reducible apply Kept.ite_snd2 | intro _)); done)

theorem Kept.after_sparkUnit {s t : State} {x_t cycles : Nat} {signature : DWord} {halted faulted : Bool} (h : Kept s t) : Kept s (sparkUnit x_t cycles signature halted faulted t) := by
  ((try unfold sparkUnit); (try simp only []); (repeat' (first | (simp +contextual (maxDischargeDepth := 100) only [h, Kept.after_clearAfter, Kept.after_exposed, Kept.after_passDone, Kept.after_placeUnit, Kept.after_quarantine, Kept.after_setReg, Kept.after_setSparkTile, Kept.after_unitLeaves, Kept.ite]; done) | split | with_reducible assumption | with_reducible apply Kept.after_clearAfter | with_reducible apply Kept.after_exposed | with_reducible apply Kept.after_passDone | with_reducible apply Kept.after_placeUnit | with_reducible apply Kept.after_quarantine | with_reducible apply Kept.after_setReg | with_reducible apply Kept.after_setSparkTile | with_reducible apply Kept.after_unitLeaves | with_reducible apply Kept.foldl | with_reducible apply Kept.ite | with_reducible apply Kept.ite_snd | with_reducible apply Kept.ite_fst | with_reducible apply Kept.ite_snd2 | intro _)); done)

theorem Kept.after_sparkRotation {s t : State}  (h : Kept s t) : Kept s (sparkRotation t) := by
  (unfold sparkRotation; split <;> simp +contextual (maxDischargeDepth := 100) only [h, Kept.mk_iff, Kept.pending, Kept.fuses, Kept.free, Kept.mem, Kept.regs, Kept.flash, and_self]; done)

theorem Kept.after_coverDue {s t : State}  (h : Kept s t) : Kept s (coverDue t) := by
  ((try unfold coverDue); (try simp only []); (repeat' (first | (simp +contextual (maxDischargeDepth := 100) only [h, Kept.after_modPart, Kept.after_showDue, Kept.foldl, Kept.ite, implies_true]; done) | split | with_reducible assumption | with_reducible apply Kept.after_modPart | with_reducible apply Kept.after_showDue | with_reducible apply Kept.foldl | with_reducible apply Kept.ite | with_reducible apply Kept.ite_snd | with_reducible apply Kept.ite_fst | with_reducible apply Kept.ite_snd2 | intro _)); done)

theorem Kept.after_swapPack {s t : State}  (h : Kept s t) : Kept s (State.swapPack t) := by
  (unfold State.swapPack; split <;> simp +contextual (maxDischargeDepth := 100) only [h, Kept.after_setFlag, Kept.after_setSparkTile, Kept.after_showPack, Kept.mk_iff, Kept.pending, Kept.fuses, Kept.free, Kept.mem, Kept.regs, Kept.flash, Kept.foldl, and_self, implies_true]; done)

theorem Kept.after_coveragePeriodEnd {s t : State}  (h : Kept s t) : Kept s (coveragePeriodEnd t) := by
  (unfold coveragePeriodEnd; split <;> simp +contextual (maxDischargeDepth := 100) only [h, Kept.after_setSparkTile, Kept.after_showDue, Kept.after_slgBit, Kept.after_swapPack, Kept.mk_iff, Kept.pending, Kept.fuses, Kept.free, Kept.mem, Kept.regs, Kept.flash, Kept.foldl, Kept.ite, and_self, implies_true]; done)

theorem Kept.after_abandonIfFaulted {s t : State} {p j : Nat} (h : Kept s t) : Kept s (State.abandonIfFaulted t p j) := by
  (unfold State.abandonIfFaulted; split <;> simp +contextual (maxDischargeDepth := 100) only [h, Kept.after_abandonFaulted]; done)

theorem Kept.after_requestReset {s t : State} {p : Nat} (h : Kept s t) : Kept s (State.requestReset t p) := by
  ((try unfold State.requestReset); (try simp only []); (repeat' (first | (simp +contextual (maxDischargeDepth := 100) only [h, Kept.after_abandonIfFaulted, Kept.after_modPart, Kept.after_partitionReset, Kept.after_setFlag]; done) | split | with_reducible assumption | with_reducible apply Kept.after_abandonIfFaulted | with_reducible apply Kept.after_modPart | with_reducible apply Kept.after_partitionReset | with_reducible apply Kept.after_setFlag | with_reducible apply Kept.foldl | with_reducible apply Kept.ite | with_reducible apply Kept.ite_snd | with_reducible apply Kept.ite_fst | with_reducible apply Kept.ite_snd2 | intro _)); done)

theorem Kept.after_writePrtCtrl {s t : State} {p : Nat} {v : Word} (h : Kept s t) : Kept s (State.writePrtCtrl t p v) := by
  (unfold State.writePrtCtrl; split <;> simp +contextual (maxDischargeDepth := 100) only [h, Kept.after_partDisable, Kept.after_partEnable, Kept.after_preempt, Kept.after_releasePart, Kept.after_requestReset, Kept.ite]; done)

theorem Kept.after_writeJstat {s t : State} {p j : Nat} {v : Word} (h : Kept s t) : Kept s (State.writeJstat t p j v) := by
  (unfold State.writeJstat; split <;> simp +contextual (maxDischargeDepth := 100) only [h, Kept.after_abandonIfFaulted, Kept.after_jobReset, Kept.after_setFlag, Kept.ite]; done)

theorem Kept.after_prtRow {s t : State} {m : Master} {p bit : Nat} {v : Word} (h : Kept s t) : Kept s (State.prtRow t m p bit v) := by
  (unfold State.prtRow; split <;> simp +contextual (maxDischargeDepth := 100) only [h, Kept.after_byFirmware, Kept.after_writePrtCtrl, implies_true]; done)

theorem Kept.after_bootBank {s t : State} {b : Nat} (h : Kept s t) : Kept s (State.bootBank t b) := by
  ((try unfold State.bootBank); (try simp only []); (repeat' (first | (simp +contextual (maxDischargeDepth := 100) only [h, Kept.after_setFlag, Kept.after_setFld, Kept.mk_iff, Kept.pending, Kept.fuses, Kept.free, Kept.mem, Kept.regs, Kept.flash, and_self]; done) | split | with_reducible assumption | with_reducible apply Kept.after_setFlag | with_reducible apply Kept.after_setFld | with_reducible apply Kept.foldl | with_reducible apply Kept.ite | with_reducible apply Kept.ite_snd | with_reducible apply Kept.ite_fst | with_reducible apply Kept.ite_snd2 | intro _)); done)

theorem Kept.after_securityBoot {s t : State}  (h : Kept s t) : Kept s (State.securityBoot t) := by
  ((try unfold State.securityBoot); (try simp only []); (repeat' (first | (simp +contextual (maxDischargeDepth := 100) only [h, Kept.after_bootBank, Kept.after_setFld, Kept.mk_iff, Kept.pending, Kept.fuses, Kept.free, Kept.mem, Kept.regs, Kept.flash, and_self]; done) | split | with_reducible assumption | with_reducible apply Kept.after_bootBank | with_reducible apply Kept.after_setFld | with_reducible apply Kept.foldl | with_reducible apply Kept.ite | with_reducible apply Kept.ite_snd | with_reducible apply Kept.ite_fst | with_reducible apply Kept.ite_snd2 | intro _)); done)

theorem Kept.after_holdPack {s t : State} {r : Reader} (h : Kept s t) : Kept s (State.holdPack t r) := by
  ((try unfold State.holdPack); (try simp only []); (repeat' (first | (simp +contextual (maxDischargeDepth := 100) only [h, Kept.after_setFlag, Kept.mk_iff, Kept.pending, Kept.fuses, Kept.free, Kept.mem, Kept.regs, Kept.flash, and_self]; done) | split | with_reducible assumption | with_reducible apply Kept.after_setFlag | with_reducible apply Kept.foldl | with_reducible apply Kept.ite | with_reducible apply Kept.ite_snd | with_reducible apply Kept.ite_fst | with_reducible apply Kept.ite_snd2 | intro _)); done)

theorem KFlash.foldl {s : State} {α : Type} {l : List α} {k : α → Nat} {v : α → Byte} {m : List Host.Cell} (h : KFlash s m) :
    KFlash s (l.foldl (fun f i => Sparse.set memReset f (k i) (v i)) m) := by
  induction l generalizing m with
  | nil => exact h
  | cons a l ih => exact ih (KFlash.set h)

theorem Kept.after_writeFlash {s t : State} {base : Nat} {d : List Byte} (h : Kept s t) : Kept s (t.writeFlash base d) :=
  ⟨h.pending, h.fuses, h.free, h.mem, h.regs, KFlash.foldl h.flash⟩

theorem Kept.after_writeImage {s t : State} {r : Reader} (h : Kept s t) : Kept s (State.writeImage t r) := by
  exact Kept.after_writeFlash h

theorem Kept.after_takeLoad {s t : State} {image : Bool} {r : Reader} (h : Kept s t) : Kept s (State.takeLoad t image r) := by
  (unfold State.takeLoad; split <;> simp +contextual (maxDischargeDepth := 100) only [h, Kept.after_holdPack, Kept.after_writeImage]; done)

theorem Kept.after_loadResult {s t : State} {k : Nat} (h : Kept s t) : Kept s (State.loadResult t k) := by
  ((try unfold State.loadResult); (try simp only []); (repeat' (first | (simp +contextual (maxDischargeDepth := 100) only [h, Kept.after_setFld]; done) | split | with_reducible assumption | with_reducible apply Kept.after_setFld | with_reducible apply Kept.foldl | with_reducible apply Kept.ite | with_reducible apply Kept.ite_snd | with_reducible apply Kept.ite_fst | with_reducible apply Kept.ite_snd2 | intro _)); done)

theorem Kept.after_loadAt {s t : State} {image : Bool} {a : Nat} (h : Kept s t) : Kept s (State.loadAt t image a) := by
  unfold State.loadAt
  exact Kept.ite (Kept.after_loadResult (Kept.after_takeLoad (Kept.after_pass h))) (Kept.after_loadResult (Kept.after_pass h))

theorem Kept.after_loadFrom {s t : State} {res : EndKind} {u0 : Option Nat} (h : Kept s t) : Kept s (State.loadFrom t res u0) := by
  cases u0 with
  | none => exact Kept.after_loadResult h
  | some a => exact Kept.ite (Kept.after_loadAt h) (Kept.after_loadResult h)

theorem Kept.after_runLoad {s t : State} {res : EndKind} (h : Kept s t) : Kept s (State.runLoad t res) := by
  unfold State.runLoad
  exact Kept.after_loadFrom h

theorem Kept.after_writeLoadCmd {s t : State} {v : Word} {res : EndKind} (h : Kept s t) : Kept s (State.writeLoadCmd t v res) := by
  (unfold State.writeLoadCmd; split <;> simp +contextual (maxDischargeDepth := 100) only [h, Kept.after_runLoad, Kept.after_setFlag]; done)

theorem Kept.after_loadRow {s t : State} {m : Master} {image : Bool} {v : Word} {res : EndKind} (h : Kept s t) : Kept s (State.loadRow t m image v res) := by
  (unfold State.loadRow; split <;> simp +contextual (maxDischargeDepth := 100) only [h, Kept.after_byFirmware, Kept.after_writeLoadCmd, implies_true]; done)

theorem Kept.after_startFuse {s t : State} {op : Nat} (h : Kept s t) : Kept s (State.startFuse t op) := by
  (unfold State.startFuse; split <;> simp +contextual (maxDischargeDepth := 100) only [h, Kept.after_setFlag, Kept.after_setFld, Kept.mk_iff, Kept.pending, Kept.fuses, Kept.free, Kept.mem, Kept.regs, Kept.flash, Kept.ite, and_self]; done)

theorem Kept.after_writeFuseCmd {s t : State} {v : Word} (h : Kept s t) : Kept s (State.writeFuseCmd t v) := by
  (unfold State.writeFuseCmd; split <;> simp +contextual (maxDischargeDepth := 100) only [h, Kept.after_setFld, Kept.after_startFuse]; done)

theorem Kept.after_writeConfirm {s t : State} {v : Word} (h : Kept s t) : Kept s (State.writeConfirm t v) := by
  ((try unfold State.writeConfirm); (try simp only []); (repeat' (first | (simp +contextual (maxDischargeDepth := 100) only [h, Kept.mk_iff, Kept.pending, Kept.fuses, Kept.free, Kept.mem, Kept.regs, Kept.flash, and_self]; done) | split | with_reducible assumption | with_reducible apply Kept.foldl | with_reducible apply Kept.ite | with_reducible apply Kept.ite_snd | with_reducible apply Kept.ite_fst | with_reducible apply Kept.ite_snd2 | intro _)); done)

theorem Kept.after_fuseRow {s t : State} {m : Master} {ops : List Nat} {v : Word} (h : Kept s t) : Kept s (State.fuseRow t m ops v) := by
  (unfold State.fuseRow; split <;> simp +contextual (maxDischargeDepth := 100) only [h, Kept.after_byFirmware, Kept.after_writeFuseCmd, implies_true]; done)

theorem Kept.after_endFuse {s t : State} (h : Kept s t) : Kept { s with fuses := t.endFuse.fuses } t.endFuse := by
  unfold State.endFuse
  split
  · exact ⟨h.pending, rfl, h.free, h.mem, h.regs, h.flash⟩
  · next op tg _ =>
    have hk := Kept.after_setFld (f := Reg.SEC_FUSE_CMD.RESULT) (v := 1) (Kept.after_setFlag (f := Reg.SEC_STATUS.FUSE_BUSY) (b := false) h)
    exact ⟨hk.pending, rfl, hk.free, hk.mem, hk.regs, hk.flash⟩

theorem Kept.after_releaseFns {s t : State} {half : Nat} {v : Word} (h : Kept s t) : Kept s (State.releaseFns t half v) := by
  ((try unfold State.releaseFns); (try simp only []); (repeat' (first | (simp +contextual (maxDischargeDepth := 100) only [h, Kept.after_setReg]; done) | split | with_reducible assumption | with_reducible apply Kept.after_setReg | with_reducible apply Kept.foldl | with_reducible apply Kept.ite | with_reducible apply Kept.ite_snd | with_reducible apply Kept.ite_fst | with_reducible apply Kept.ite_snd2 | intro _)); done)

theorem Kept.after_writeFnrel {s t : State} {m : Master} {half : Nat} {v : Word} (h : Kept s t) : Kept s (State.writeFnrel t m half v) := by
  ((try unfold State.writeFnrel); (try simp only []); (repeat' (first | (simp +contextual (maxDischargeDepth := 100) only [h, Kept.after_closedWrite, Kept.after_releaseFns, Kept.ite]; done) | split | with_reducible assumption | with_reducible apply Kept.after_closedWrite | with_reducible apply Kept.after_releaseFns | with_reducible apply Kept.foldl | with_reducible apply Kept.ite | with_reducible apply Kept.ite_snd | with_reducible apply Kept.ite_fst | with_reducible apply Kept.ite_snd2 | intro _)); done)

theorem Kept.after_spdm {s t : State} {act : State → State} (hact : ∀ t, Kept s t → Kept s (act t)) (h : Kept s t) : Kept s (State.spdm t act) := by
  (unfold State.spdm; split <;> simp +contextual (maxDischargeDepth := 100) only [h, hact, Kept.after_emit, Kept.ite]; done)

theorem Kept.after_spdmError {s t : State} {code : Byte} (h : Kept s t) : Kept s (State.spdmError t code) := by
  ((try unfold State.spdmError); (try simp only []); (repeat' (first | (simp +contextual (maxDischargeDepth := 100) only [h, Kept.after_emit]; done) | split | with_reducible assumption | with_reducible apply Kept.after_emit | with_reducible apply Kept.after_spdm | with_reducible apply Kept.foldl | with_reducible apply Kept.ite | with_reducible apply Kept.ite_snd | with_reducible apply Kept.ite_fst | with_reducible apply Kept.ite_snd2 | intro _)); done)

theorem Kept.after_openBytes {s t : State} {n : Nat} (h : Kept s t) : Kept s ((State.openBytes t n).2) := by
  ((try unfold State.openBytes); (try simp only []); (repeat' (first | (simp +contextual (maxDischargeDepth := 100) only [h, Kept.after_took]; done) | split | with_reducible assumption | with_reducible apply Kept.after_took | with_reducible apply Kept.foldl | with_reducible apply Kept.ite | with_reducible apply Kept.ite_snd | with_reducible apply Kept.ite_fst | with_reducible apply Kept.ite_snd2 | intro _)); done)

theorem Kept.after_measure {s t : State} {i : Nat} {sign : Bool} (h : Kept s t) : Kept s (State.measure t i sign) := by
  ((try unfold State.measure); (try simp only []); (repeat' (first | (simp +contextual (maxDischargeDepth := 100) only [h, Kept.after_emit, Kept.after_openBytes, Kept.after_spdmError]; done) | split | with_reducible assumption | with_reducible apply Kept.after_answer | with_reducible apply Kept.after_emit | with_reducible apply Kept.after_openBytes | with_reducible apply Kept.after_spdm | with_reducible apply Kept.after_spdmError | with_reducible apply Kept.foldl | with_reducible apply Kept.ite | with_reducible apply Kept.ite_snd | with_reducible apply Kept.ite_fst | with_reducible apply Kept.ite_snd2 | intro _)); done)

theorem Kept.after_challenge {s t : State} {slot sumType : Nat} (h : Kept s t) : Kept s (State.challenge t slot sumType) := by
  (unfold State.challenge; split <;> simp +contextual (maxDischargeDepth := 100) only [h, Kept.after_emit, Kept.after_openBytes, Kept.after_spdmError, Kept.ite_snd]; done)

theorem Kept.after_certificate {s t : State} {slot off len : Nat} (h : Kept s t) : Kept s (State.certificate t slot off len) := by
  ((try unfold State.certificate); (try simp only []); (repeat' (first | (simp +contextual (maxDischargeDepth := 100) only [h, Kept.after_emit, Kept.after_spdmError, Kept.ite]; done) | split | with_reducible assumption | with_reducible apply Kept.after_emit | with_reducible apply Kept.after_spdm | with_reducible apply Kept.after_spdmError | with_reducible apply Kept.foldl | with_reducible apply Kept.ite | with_reducible apply Kept.ite_snd | with_reducible apply Kept.ite_fst | with_reducible apply Kept.ite_snd2 | intro _)); done)

theorem Kept.after_debugSessionOpen {s t : State} {imagePermits : Bool} (h : Kept s t) : Kept s (debugSessionOpen imagePermits t) := by
  (unfold debugSessionOpen; split <;> simp +contextual (maxDischargeDepth := 100) only [h, Kept.after_setFlag, Kept.ite]; done)

theorem Kept.after_writePlain {s t : State} {o : Nat} {v : Word} (h : Kept s t) : Kept s (State.writePlain t o v) := by
  (unfold State.writePlain; split <;> simp +contextual (maxDischargeDepth := 100) only [h, Kept.after_setReg]; done)

theorem Kept.after_writePwr {s t : State} {o : Nat} {v : Word} (h : Kept s t) : Kept s (State.writePwr t o v) := by
  (unfold State.writePwr; split <;> simp +contextual (maxDischargeDepth := 100) only [h, Kept.after_writeCap, Kept.after_writePlain, Kept.after_writePwrBank, Kept.ite]; done)

theorem Kept.after_writeSec {s t : State} {o : Nat} {v : Word} (h : Kept s t) : Kept s (State.writeSec t o v) := by
  (unfold State.writeSec; split <;> simp +contextual (maxDischargeDepth := 100) only [h, Kept.after_writeConfirm, Kept.after_writeFuseCmd, Kept.after_writeLoadCmd, Kept.after_writePlain, Kept.ite]; done)

theorem Kept.after_writeQuar {s t : State} {k : Nat} {v : Word} (h : Kept s t) : Kept s (State.writeQuar t k v) := by
  ((try unfold State.writeQuar); (try simp only []); (repeat' (first | (simp +contextual (maxDischargeDepth := 100) only [h, Kept.after_quarantine, Kept.foldl, Kept.ite, implies_true]; done) | split | with_reducible assumption | with_reducible apply Kept.after_quarantine | with_reducible apply Kept.foldl | with_reducible apply Kept.ite | with_reducible apply Kept.ite_snd | with_reducible apply Kept.ite_fst | with_reducible apply Kept.ite_snd2 | intro _)); done)

theorem Kept.after_writeSusp {s t : State} {k : Nat} {v : Word} (h : Kept s t) : Kept s (State.writeSusp t k v) := by
  ((try unfold State.writeSusp); (try simp only []); (repeat' (first | (simp +contextual (maxDischargeDepth := 100) only [h, Kept.after_setFld, Kept.after_setReg, Kept.foldl, Kept.ite, implies_true]; done) | split | with_reducible assumption | with_reducible apply Kept.after_setFld | with_reducible apply Kept.after_setReg | with_reducible apply Kept.foldl | with_reducible apply Kept.ite | with_reducible apply Kept.ite_snd | with_reducible apply Kept.ite_fst | with_reducible apply Kept.ite_snd2 | intro _)); done)

theorem Kept.after_writeJobEnv {s t : State} {p j : Nat} {v : Word} (h : Kept s t) : Kept s (State.writeJobEnv t p j v) := by
  (unfold State.writeJobEnv; split <;> simp +contextual (maxDischargeDepth := 100) only [h, Kept.after_setFlag]; done)

theorem Kept.after_writeSlg {s t : State} {o : Nat} {v : Word} (h : Kept s t) : Kept s (State.writeSlg t o v) := by
  (unfold State.writeSlg; split <;> simp +contextual (maxDischargeDepth := 100) only [h, Kept.after_writeJobEnv, Kept.after_writePlain, Kept.after_writeQuar, Kept.after_writeSusp]; done)

theorem Kept.after_writePrt {s t : State} {o : Nat} {v : Word} (h : Kept s t) : Kept s (State.writePrt t o v) := by
  (unfold State.writePrt; split <;> simp +contextual (maxDischargeDepth := 100) only [h, Kept.after_writeCtxLo, Kept.after_writeJstat, Kept.after_writePlain, Kept.after_writePrtCtrl, Kept.ite]; done)

theorem Kept.after_writeSrvCtrl {s t : State} {v : Word} (h : Kept s t) : Kept s (State.writeSrvCtrl t v) := by
  ((try unfold State.writeSrvCtrl); (try simp only []); (repeat' (first | (simp +contextual (maxDischargeDepth := 100) only [h, Kept.after_chooseCopy, Kept.after_finishAccepts, Kept.after_writePlain]; done) | split | with_reducible assumption | with_reducible apply Kept.after_chooseCopy | with_reducible apply Kept.after_finishAccepts | with_reducible apply Kept.after_writePlain | with_reducible apply Kept.foldl | with_reducible apply Kept.ite | with_reducible apply Kept.ite_snd | with_reducible apply Kept.ite_fst | with_reducible apply Kept.ite_snd2 | intro _)); done)

theorem Kept.after_writeSrv {s t : State} {o : Nat} {v : Word} (h : Kept s t) : Kept s (State.writeSrv t o v) := by
  ((try unfold State.writeSrv); (try simp only []); (repeat' (first | (simp +contextual (maxDischargeDepth := 100) only [h, Kept.after_writeLogCtl, Kept.after_writePlain, Kept.after_writeSrvCtrl]; done) | split | with_reducible assumption | with_reducible apply Kept.after_writeLogCtl | with_reducible apply Kept.after_writePlain | with_reducible apply Kept.after_writeSrvCtrl | with_reducible apply Kept.foldl | with_reducible apply Kept.ite | with_reducible apply Kept.ite_snd | with_reducible apply Kept.ite_fst | with_reducible apply Kept.ite_snd2 | intro _)); done)

theorem Kept.after_writeWs {s t : State} {o : Nat} {v : Word} (h : Kept s t) : Kept s (State.writeWs t o v) := by
  ((try unfold State.writeWs); (try simp only []); (repeat' (first | (simp +contextual (maxDischargeDepth := 100) only [h, Kept.after_writeWsSlot, Kept.after_writeWsW0, Kept.ite]; done) | split | with_reducible assumption | with_reducible apply Kept.after_writeWsSlot | with_reducible apply Kept.after_writeWsW0 | with_reducible apply Kept.foldl | with_reducible apply Kept.ite | with_reducible apply Kept.ite_snd | with_reducible apply Kept.ite_fst | with_reducible apply Kept.ite_snd2 | intro _)); done)

theorem Kept.after_writeCfg {s t : State} {o : Nat} {v : Word} (h : Kept s t) : Kept s (State.writeCfg t o v) := by
  ((try unfold State.writeCfg); (try simp only []); (repeat' (first | (simp +contextual (maxDischargeDepth := 100) only [h, Kept.after_ingPost, Kept.after_writeAdmit, Kept.after_writeCfgCtrl, Kept.after_writePlain, Kept.after_writeWs, Kept.after_writeWsCmd]; done) | split | with_reducible assumption | with_reducible apply Kept.after_ingPost | with_reducible apply Kept.after_writeAdmit | with_reducible apply Kept.after_writeCfgCtrl | with_reducible apply Kept.after_writePlain | with_reducible apply Kept.after_writeWs | with_reducible apply Kept.after_writeWsCmd | with_reducible apply Kept.foldl | with_reducible apply Kept.ite | with_reducible apply Kept.ite_snd | with_reducible apply Kept.ite_fst | with_reducible apply Kept.ite_snd2 | intro _)); done)

theorem Kept.after_writeXlt {s t : State} {o : Nat} {v : Word} (h : Kept s t) : Kept s (State.writeXlt t o v) := by
  (unfold State.writeXlt; split <;> simp +contextual (maxDischargeDepth := 100) only [h, Kept.after_writeInvCtrl, Kept.after_writePlain, Kept.after_writeXltCtrl, Kept.ite]; done)

theorem Kept.after_writeTierBlock {s t : State} {o : Nat} {v : Word} (h : Kept s t) : Kept s (State.writeTierBlock t o v) := by
  ((try unfold State.writeTierBlock); (try simp only []); (repeat' (first | (simp +contextual (maxDischargeDepth := 100) only [h, Kept.after_writePlain, Kept.after_writeTier, Kept.after_writeTierCtrl]; done) | split | with_reducible assumption | with_reducible apply Kept.after_writePlain | with_reducible apply Kept.after_writeTier | with_reducible apply Kept.after_writeTierCtrl | with_reducible apply Kept.foldl | with_reducible apply Kept.ite | with_reducible apply Kept.ite_snd | with_reducible apply Kept.ite_fst | with_reducible apply Kept.ite_snd2 | intro _)); done)

theorem Kept.after_writeShare {s t : State} {k : Nat} {v : Word} (h : Kept s t) : Kept s (State.writeShare t k v) := by
  ((try unfold State.writeShare); (try simp only []); (repeat' (first | (simp +contextual (maxDischargeDepth := 100) only [h, Kept.after_writePlain, Kept.ite]; done) | split | with_reducible assumption | with_reducible apply Kept.after_writePlain | with_reducible apply Kept.foldl | with_reducible apply Kept.ite | with_reducible apply Kept.ite_snd | with_reducible apply Kept.ite_fst | with_reducible apply Kept.ite_snd2 | intro _)); done)

theorem Kept.after_writeMsh {s t : State} {o : Nat} {v : Word} (h : Kept s t) : Kept s (State.writeMsh t o v) := by
  ((try unfold State.writeMsh); (try simp only []); (repeat' (first | (simp +contextual (maxDischargeDepth := 100) only [h, Kept.after_writeMshCtrl, Kept.after_writeMshPart, Kept.after_writePlain, Kept.after_writePortCtrl, Kept.after_writeShare]; done) | split | with_reducible assumption | with_reducible apply Kept.after_writeMshCtrl | with_reducible apply Kept.after_writeMshPart | with_reducible apply Kept.after_writePlain | with_reducible apply Kept.after_writePortCtrl | with_reducible apply Kept.after_writeShare | with_reducible apply Kept.foldl | with_reducible apply Kept.ite | with_reducible apply Kept.ite_snd | with_reducible apply Kept.ite_fst | with_reducible apply Kept.ite_snd2 | intro _)); done)

theorem Kept.after_writeShadow {s t : State} {x_t o : Nat} {v : Word} (h : Kept s t) : Kept s (State.writeShadow t x_t o v) := by
  (unfold State.writeShadow; split <;> simp +contextual (maxDischargeDepth := 100) only [h, Kept.after_setFlag, Kept.after_writePlain]; done)

theorem Kept.after_writeAtRest {s t : State} {x_t o : Nat} {v : Word} (h : Kept s t) : Kept s (State.writeAtRest t x_t o v) := by
  (unfold State.writeAtRest; split <;> simp +contextual (maxDischargeDepth := 100) only [h, Kept.after_setFlag, Kept.after_writePlain, Kept.ite]; done)

theorem Kept.after_writeGrdBlock {s t : State} {x_t o : Nat} {v : Word} (h : Kept s t) : Kept s (State.writeGrdBlock t x_t o v) := by
  ((try unfold State.writeGrdBlock); (try simp only []); (repeat' (first | (simp +contextual (maxDischargeDepth := 100) only [h, Kept.after_writeGrd, Kept.after_writePlain, Kept.after_writeShadow, Kept.ite]; done) | split | with_reducible assumption | with_reducible apply Kept.after_writeGrd | with_reducible apply Kept.after_writePlain | with_reducible apply Kept.after_writeShadow | with_reducible apply Kept.foldl | with_reducible apply Kept.ite | with_reducible apply Kept.ite_snd | with_reducible apply Kept.ite_fst | with_reducible apply Kept.ite_snd2 | intro _)); done)

theorem Kept.after_writeSeq {s t : State} {x_t o : Nat} {v : Word} (h : Kept s t) : Kept s (State.writeSeq t x_t o v) := by
  (unfold State.writeSeq; split <;> simp +contextual (maxDischargeDepth := 100) only [h, Kept.after_writeAtRest, Kept.after_writePlain, Kept.ite]; done)

theorem Kept.after_writeBil {s t : State} {x_t o : Nat} {v : Word} (h : Kept s t) : Kept s (State.writeBil t x_t o v) := by
  ((try unfold State.writeBil); (try simp only []); (repeat' (first | (simp +contextual (maxDischargeDepth := 100) only [h, Kept.after_handOver, Kept.after_marchStart, Kept.after_ownBulk, Kept.after_writePlain]; done) | split | with_reducible assumption | with_reducible apply Kept.after_handOver | with_reducible apply Kept.after_marchStart | with_reducible apply Kept.after_ownBulk | with_reducible apply Kept.after_writePlain | with_reducible apply Kept.foldl | with_reducible apply Kept.ite | with_reducible apply Kept.ite_snd | with_reducible apply Kept.ite_fst | with_reducible apply Kept.ite_snd2 | intro _)); done)

theorem Kept.after_writeMov {s t : State} {x_t o : Nat} {v : Word} (h : Kept s t) : Kept s (State.writeMov t x_t o v) := by
  ((try unfold State.writeMov); (try simp only []); (repeat' (first | (simp +contextual (maxDischargeDepth := 100) only [h, Kept.after_writeAtRest, Kept.after_writePlain, Kept.after_writeShadow, Kept.ite]; done) | split | with_reducible assumption | with_reducible apply Kept.after_writeAtRest | with_reducible apply Kept.after_writePlain | with_reducible apply Kept.after_writeShadow | with_reducible apply Kept.foldl | with_reducible apply Kept.ite | with_reducible apply Kept.ite_snd | with_reducible apply Kept.ite_fst | with_reducible apply Kept.ite_snd2 | intro _)); done)

theorem Kept.after_writeTile {s t : State} {x_t o : Nat} {v : Word} (h : Kept s t) : Kept s (State.writeTile t x_t o v) := by
  (unfold State.writeTile; split <;> simp +contextual (maxDischargeDepth := 100) only [h, Kept.after_writeBil, Kept.after_writeGrdBlock, Kept.after_writeMov, Kept.after_writePlain, Kept.after_writeSeq, Kept.ite]; done)

theorem Kept.after_writeRegister {s t : State} {m : Master} {o : Nat} {v : Word} (h : Kept s t) : Kept s (State.writeRegister t m o v) := by
  (unfold State.writeRegister; (try dsimp only); (repeat' (first | with_reducible assumption | with_reducible apply Kept.after_byDevMasters | with_reducible apply Kept.after_byFirmware | with_reducible apply Kept.after_byFirmwareOrRack | with_reducible apply Kept.after_byLogMasters | with_reducible apply Kept.after_byPower | with_reducible apply Kept.after_writeCfg | with_reducible apply Kept.after_writeFnrel | with_reducible apply Kept.after_writeMsh | with_reducible apply Kept.after_writePlain | with_reducible apply Kept.after_writePrt | with_reducible apply Kept.after_writePwr | with_reducible apply Kept.after_writeSec | with_reducible apply Kept.after_writeSlg | with_reducible apply Kept.after_writeSrv | with_reducible apply Kept.after_writeTierBlock | with_reducible apply Kept.after_writeTile | with_reducible apply Kept.after_writeTimeCtrl | with_reducible apply Kept.after_writeXlt | with_reducible apply Kept.foldl | with_reducible apply Kept.ite | with_reducible apply Kept.ite_snd | with_reducible apply Kept.ite_fst | with_reducible apply Kept.ite_snd2 | split | intro _)); done)

theorem Kept.after_registerWrite {s t : State} {m : Master} {o : Nat} {v : Word} (h : Kept s t) : Kept s (registerWrite m o v t) := by
  (unfold registerWrite; split <;> simp +contextual (maxDischargeDepth := 100) only [h, Kept.after_writeRegister]; done)

theorem Kept.after_writeWindow {s t : State} {m : Master} {o : Nat} {d : List Byte} (h : Kept s t) : Kept s (State.writeWindow t m o d) := by
  ((try unfold State.writeWindow); (try simp only []); (repeat' (first | (simp +contextual (maxDischargeDepth := 100) only [h, Kept.after_writeRegister, Kept.foldl, Kept.ite, implies_true]; done) | split | with_reducible assumption | with_reducible apply Kept.after_writeRegister | with_reducible apply Kept.foldl | with_reducible apply Kept.ite | with_reducible apply Kept.ite_snd | with_reducible apply Kept.ite_fst | with_reducible apply Kept.ite_snd2 | intro _)); done)

theorem Kept.after_finishIo {s t : State} {f : Nat} {op : AccessOp} {status : Nat} {data : List Byte} {aer : Bool} (h : Kept s t) : Kept s (State.finishIo t f op status data aer) := by
  (unfold State.finishIo; split <;> simp +contextual (maxDischargeDepth := 100) only [h, Kept.after_emit]; done)

theorem Kept.after_unsupported {s t : State} {f : Nat} {op : AccessOp} (h : Kept s t) : Kept s (State.unsupported t f op) := by
  ((try unfold State.unsupported); (try simp only []); (repeat' (first | (simp +contextual (maxDischargeDepth := 100) only [h, Kept.after_finishIo]; done) | split | with_reducible assumption | with_reducible apply Kept.after_finishIo | with_reducible apply Kept.foldl | with_reducible apply Kept.ite | with_reducible apply Kept.ite_snd | with_reducible apply Kept.ite_fst | with_reducible apply Kept.ite_snd2 | intro _)); done)

theorem Kept.after_aborted {s t : State} {f : Nat} {op : AccessOp} (h : Kept s t) : Kept s (State.aborted t f op) := by
  ((try unfold State.aborted); (try simp only []); (repeat' (first | (simp +contextual (maxDischargeDepth := 100) only [h, Kept.after_finishIo]; done) | split | with_reducible assumption | with_reducible apply Kept.after_finishIo | with_reducible apply Kept.foldl | with_reducible apply Kept.ite | with_reducible apply Kept.ite_snd | with_reducible apply Kept.ite_fst | with_reducible apply Kept.ite_snd2 | intro _)); done)

theorem Kept.after_hostUe {s t : State} {ecc : ReadEcc} (h : Kept s t) : Kept s (State.hostUe t ecc) := by
  (unfold State.hostUe; split <;> simp +contextual (maxDischargeDepth := 100) only [h, Kept.after_interruptIf, Kept.after_setFlag]; done)

theorem Kept.after_served {s t : State} {f : Nat} {op : AccessOp} {data : List Byte} {ecc : ReadEcc} (h : Kept s t) : Kept s (State.served t f op data ecc) := by
  (unfold State.served; split <;> simp +contextual (maxDischargeDepth := 100) only [h, Kept.after_finishIo, Kept.after_hostUe]; done)

theorem Kept.after_holeIo {s t : State} {f : Nat} {op : AccessOp} {pa : Nat} (h : Kept s t) : Kept s (State.holeIo t f op pa) := by
  ((try unfold State.holeIo); (try simp only []); (repeat' (first | (simp +contextual (maxDischargeDepth := 100) only [h, Kept.after_hole, Kept.after_unsupported]; done) | split | with_reducible assumption | with_reducible apply Kept.after_hole | with_reducible apply Kept.after_unsupported | with_reducible apply Kept.foldl | with_reducible apply Kept.ite | with_reducible apply Kept.ite_snd | with_reducible apply Kept.ite_fst | with_reducible apply Kept.ite_snd2 | intro _)); done)

theorem Kept.after_barControl {s t : State} {f : Fin 64} {off : Nat} {op : AccessOp} (h : Kept s t) : Kept s (State.barControl t f off op) := by
  (unfold State.barControl; split <;> simp +contextual (maxDischargeDepth := 100) only [h, Kept.after_served, Kept.after_unsupported, Kept.after_writeWindow]; done)

theorem Kept.after_barSram {s t : State} {f : Fin 64} {off : Nat} {op : AccessOp} {ecc : ReadEcc} (h : Kept s t) : Kept s (State.barSram t f off op ecc) := by
  ((try unfold State.barSram); (try simp only []); (repeat' (first | (simp +contextual (maxDischargeDepth := 100) only [h, Kept.after_aborted, Kept.after_holeIo, Kept.after_movedAt, Kept.after_served, Kept.after_unsupported, Kept.after_window, Kept.after_windowViolation]; done) | split | with_reducible assumption | with_reducible apply Kept.after_aborted | with_reducible apply Kept.after_holeIo | with_reducible apply Kept.after_movedAt | with_reducible apply Kept.after_served | with_reducible apply Kept.after_unsupported | with_reducible apply Kept.after_window | with_reducible apply Kept.after_windowViolation | with_reducible apply Kept.foldl | with_reducible apply Kept.ite | with_reducible apply Kept.ite_snd | with_reducible apply Kept.ite_fst | with_reducible apply Kept.ite_snd2 | intro _)); done)

theorem Kept.after_hostHot {s t : State} {o : Nat} {op : AccessOp} {ecc : ReadEcc} (h : Kept s t) : Kept s ((State.hostHot t o op ecc).2) := by
  (unfold State.hostHot; split <;> simp +contextual (maxDischargeDepth := 100) only [h, Kept.after_flipBytes, Kept.after_homeAccess, Kept.after_stackEcc]; done)

theorem Kept.after_barHot {s t : State} {f : Fin 64} {off : Nat} {op : AccessOp} {ecc : ReadEcc} (h : Kept s t) : Kept s (State.barHot t f off op ecc) := by
  ((try unfold State.barHot); (try simp only []); (repeat' (first | (simp +contextual (maxDischargeDepth := 100) only [h, Kept.after_aborted, Kept.after_holeIo, Kept.after_hostHot, Kept.after_sendRequest, Kept.after_served, Kept.after_unsupported, Kept.foldl, Kept.ite, implies_true]; done) | split | with_reducible assumption | with_reducible apply Kept.after_aborted | with_reducible apply Kept.after_holeIo | with_reducible apply Kept.after_hostHot | with_reducible apply Kept.after_sendRequest | with_reducible apply Kept.after_served | with_reducible apply Kept.after_unsupported | with_reducible apply Kept.foldl | with_reducible apply Kept.ite | with_reducible apply Kept.ite_snd | with_reducible apply Kept.ite_fst | with_reducible apply Kept.ite_snd2 | intro _)); done)

theorem Kept.after_virtualIo {s t : State} {f : Fin 64} {bar off : Nat} {op : AccessOp} (h : Kept s t) : Kept s (State.virtualIo t f bar off op) := by
  ((try unfold State.virtualIo); (try simp only []); (repeat' (first | (simp +contextual (maxDischargeDepth := 100) only [h, Kept.after_closedWrite, Kept.after_served, Kept.after_unsupported]; done) | split | with_reducible assumption | with_reducible apply Kept.after_closedWrite | with_reducible apply Kept.after_served | with_reducible apply Kept.after_unsupported | with_reducible apply Kept.after_write | with_reducible apply Kept.foldl | with_reducible apply Kept.ite | with_reducible apply Kept.ite_snd | with_reducible apply Kept.ite_fst | with_reducible apply Kept.ite_snd2 | intro _)); done)

theorem Kept.after_hostIoRequest {s t : State} {f : Fin 64} {bar off : Nat} {op : AccessOp} {ecc : ReadEcc} (h : Kept s t) : Kept s (hostIoRequest f bar off op ecc t) := by
  (unfold hostIoRequest; split <;> simp +contextual (maxDischargeDepth := 100) only [h, Kept.after_aborted, Kept.after_barControl, Kept.after_barHot, Kept.after_barSram, Kept.after_unsupported, Kept.after_virtualIo, Kept.ite]; done)

theorem Kept.after_hostMemRequest {s t : State} {a : Nat} {op : AccessOp} {ecc : ReadEcc} (h : Kept s t) : Kept s (hostMemRequest a op ecc t) := by
  ((try unfold hostMemRequest); (try simp only []); (repeat' (first | (simp +contextual (maxDischargeDepth := 100) only [h, Kept.after_emit, Kept.after_hostHot, Kept.after_hostUe, Kept.after_took]; done) | split | with_reducible assumption | with_reducible apply Kept.after_emit | with_reducible apply Kept.after_hostHot | with_reducible apply Kept.after_hostUe | with_reducible apply Kept.after_took | with_reducible apply Kept.foldl | with_reducible apply Kept.ite | with_reducible apply Kept.ite_snd | with_reducible apply Kept.ite_fst | with_reducible apply Kept.ite_snd2 | intro _)); done)

theorem Kept.after_rebuildRecord {s t : State} {r : JournalRecord} (h : Kept s t) : Kept s (State.rebuildRecord t r) := by
  ((try unfold State.rebuildRecord); (try simp only []); (repeat' (first | (simp +contextual (maxDischargeDepth := 100) only [h, Kept.after_setRequest, Kept.foldl, Kept.ite, implies_true]; done) | split | with_reducible assumption | with_reducible apply Kept.after_setRequest | with_reducible apply Kept.foldl | with_reducible apply Kept.ite | with_reducible apply Kept.ite_snd | with_reducible apply Kept.ite_fst | with_reducible apply Kept.ite_snd2 | intro _)); done)

theorem Kept.after_rewrite {s t : State} {n : Nat} {idx : Word} {u0 : List OutRecord} (h : Kept s t) : Kept s (State.rewrite t n idx u0) := by
  (induction u0 generalizing t n idx <;> simp +contextual (maxDischargeDepth := 100) only [State.rewrite, *, Kept.after_putRecord, Kept.ite]; done)

theorem Kept.after_rewriteRecord {s t : State} {r : JournalRecord} (h : Kept s t) : Kept s (State.rewriteRecord t r) := by
  ((try unfold State.rewriteRecord); (try simp only []); (repeat' (first | (simp +contextual (maxDischargeDepth := 100) only [h, Kept.after_rewrite, Kept.foldl, implies_true]; done) | split | with_reducible assumption | with_reducible apply Kept.after_rewrite | with_reducible apply Kept.foldl | with_reducible apply Kept.ite | with_reducible apply Kept.ite_snd | with_reducible apply Kept.ite_fst | with_reducible apply Kept.ite_snd2 | intro _)); done)

theorem Kept.after_restoreIndex {s t : State} {n : Nat} (h : Kept s t) : Kept s (State.restoreIndex t n) := by
  ((try unfold State.restoreIndex); (try simp only []); (repeat' (first | (simp +contextual (maxDischargeDepth := 100) only [h, Kept.after_setReg]; done) | split | with_reducible assumption | with_reducible apply Kept.after_setReg | with_reducible apply Kept.foldl | with_reducible apply Kept.ite | with_reducible apply Kept.ite_snd | with_reducible apply Kept.ite_fst | with_reducible apply Kept.ite_snd2 | intro _)); done)

theorem Kept.after_restoreIndices {s t : State}  (h : Kept s t) : Kept s (State.restoreIndices t) := by
  ((try unfold State.restoreIndices); (try simp only []); (repeat' (first | (simp +contextual (maxDischargeDepth := 100) only [h, Kept.after_restoreIndex, Kept.foldl, implies_true]; done) | split | with_reducible assumption | with_reducible apply Kept.after_restoreIndex | with_reducible apply Kept.foldl | with_reducible apply Kept.ite | with_reducible apply Kept.ite_snd | with_reducible apply Kept.ite_fst | with_reducible apply Kept.ite_snd2 | intro _)); done)

theorem Kept.after_resumeLog {s t : State} {n : Nat} (h : Kept s t) : Kept s (State.resumeLog t n) := by
  (unfold State.resumeLog; split <;> simp +contextual (maxDischargeDepth := 100) only [h, Kept.after_modLog, Kept.after_setFld]; done)

theorem Kept.after_takeBack {s t : State} {r : JournalRecord} (h : Kept s t) : Kept s (State.takeBack t r) := by
  ((try unfold State.takeBack); (try simp only []); (repeat' (first | (simp +contextual (maxDischargeDepth := 100) only [h, Kept.after_setReg, Kept.foldl, Kept.ite, implies_true]; done) | split | with_reducible assumption | with_reducible apply Kept.after_setReg | with_reducible apply Kept.foldl | with_reducible apply Kept.ite | with_reducible apply Kept.ite_snd | with_reducible apply Kept.ite_fst | with_reducible apply Kept.ite_snd2 | intro _)); done)

theorem Kept.after_cutJournal {s t : State}  (h : Kept s t) : Kept s (State.cutJournal t) := by
  ((try unfold State.cutJournal); (try simp only []); (repeat' (first | (simp +contextual (maxDischargeDepth := 100) only [h, Kept.after_takeBack, Kept.mk_iff, Kept.pending, Kept.fuses, Kept.free, Kept.mem, Kept.regs, Kept.flash, Kept.foldl, and_self, implies_true]; done) | split | with_reducible assumption | with_reducible apply Kept.after_takeBack | with_reducible apply Kept.foldl | with_reducible apply Kept.ite | with_reducible apply Kept.ite_snd | with_reducible apply Kept.ite_fst | with_reducible apply Kept.ite_snd2 | intro _)); done)

theorem Kept.after_rebuild {s t : State}  (h : Kept s t) : Kept s (State.rebuild t) := by
  ((try unfold State.rebuild); (try simp only []); (repeat' (first | (simp +contextual (maxDischargeDepth := 100) only [h, Kept.after_cutJournal, Kept.after_emit, Kept.after_rebuildRecord, Kept.after_recapture, Kept.after_restoreIndices, Kept.after_rewriteRecord, Kept.mk_iff, Kept.pending, Kept.fuses, Kept.free, Kept.mem, Kept.regs, Kept.flash, Kept.foldl, Kept.ite, and_self, implies_true]; done) | split | with_reducible assumption | with_reducible apply Kept.after_cutJournal | with_reducible apply Kept.after_emit | with_reducible apply Kept.after_rebuildRecord | with_reducible apply Kept.after_recapture | with_reducible apply Kept.after_restoreIndices | with_reducible apply Kept.after_rewriteRecord | with_reducible apply Kept.foldl | with_reducible apply Kept.ite | with_reducible apply Kept.ite_snd | with_reducible apply Kept.ite_fst | with_reducible apply Kept.ite_snd2 | intro _)); done)

theorem Kept.after_homeLeft {s t : State}  (h : Kept s t) : Kept s (State.homeLeft t) := by
  ((try unfold State.homeLeft); (try simp only []); (repeat' (first | (simp +contextual (maxDischargeDepth := 100) only [h, Kept.after_pass, Kept.after_writeNum, Kept.mk_iff, Kept.pending, Kept.fuses, Kept.free, Kept.mem, Kept.regs, Kept.flash, Kept.foldl, Kept.ite, and_self, implies_true]; done) | split | with_reducible assumption | with_reducible apply Kept.after_pass | with_reducible apply Kept.after_writeNum | with_reducible apply Kept.foldl | with_reducible apply Kept.ite | with_reducible apply Kept.ite_snd | with_reducible apply Kept.ite_fst | with_reducible apply Kept.ite_snd2 | intro _)); done)

theorem Kept.after_recovery {s t : State}  (h : Kept s t) : Kept s (recovery t) := by
  (unfold recovery; split <;> simp +contextual (maxDischargeDepth := 100) only [h, Kept.after_homeLeft, Kept.after_rebuild, Kept.after_replayRequest, Kept.after_resumeLog, Kept.after_setFlag, Kept.mk_iff, Kept.pending, Kept.fuses, Kept.free, Kept.mem, Kept.regs, Kept.flash, Kept.foldl, Kept.ite, and_self, implies_true]; done)

theorem Kept.after_sendBulk {s t : State} {m off : Nat} {d : List Byte} (h : Kept s t) : Kept s (State.sendBulk t m off d) := by
  ((try unfold State.sendBulk); (try simp only []); (repeat' (first | (simp +contextual (maxDischargeDepth := 100) only [h, Kept.after_sendPacket]; done) | split | with_reducible assumption | with_reducible apply Kept.after_sendPacket | with_reducible apply Kept.foldl | with_reducible apply Kept.ite | with_reducible apply Kept.ite_snd | with_reducible apply Kept.ite_fst | with_reducible apply Kept.ite_snd2 | intro _)); done)

theorem Kept.after_sendLines {s t : State} {m line last : Nat} {u0 : Nat} (h : Kept s t) : Kept s (State.sendLines t m line last u0) := by
  (induction u0 generalizing t m line last <;> simp +contextual (maxDischargeDepth := 100) only [State.sendLines, *, Kept.after_pass, Kept.after_sendBulk, Kept.ite]; done)

theorem Kept.after_journalFetch {s t : State} {m : Nat} (h : Kept s t) : Kept s (journalFetch m t) := by
  (unfold journalFetch; split <;> simp +contextual (maxDischargeDepth := 100) only [h, Kept.after_pass, Kept.after_sendBulk, Kept.after_sendLines, Kept.after_took, Kept.mk_iff, Kept.pending, Kept.fuses, Kept.free, Kept.mem, Kept.regs, Kept.flash, and_self]; done)

theorem Kept.after_journalDone {s t : State} {m : Nat} (h : Kept s t) : Kept s (journalDone m t) := by
  ((try unfold journalDone); (try simp only []); (repeat' (first | (simp +contextual (maxDischargeDepth := 100) only [h, Kept.mk_iff, Kept.pending, Kept.fuses, Kept.free, Kept.mem, Kept.regs, Kept.flash, and_self]; done) | split | with_reducible assumption | with_reducible apply Kept.foldl | with_reducible apply Kept.ite | with_reducible apply Kept.ite_snd | with_reducible apply Kept.ite_fst | with_reducible apply Kept.ite_snd2 | intro _)); done)

theorem Kept.after_countStall {s t : State} {advance : Bool} {held : Option Withheld} {x_t : Nat} (h : Kept s t) : Kept s (State.countStall t advance held x_t) := by
  ((try unfold State.countStall); (try simp only []); (repeat' (first | (simp +contextual (maxDischargeDepth := 100) only [h, Kept.after_modTile, Kept.ite]; done) | split | with_reducible assumption | with_reducible apply Kept.after_modTile | with_reducible apply Kept.foldl | with_reducible apply Kept.ite | with_reducible apply Kept.ite_snd | with_reducible apply Kept.ite_fst | with_reducible apply Kept.ite_snd2 | intro _)); done)

theorem Kept.after_countStalls {s t : State} {p : Nat} (h : Kept s t) : Kept s (State.countStalls t p) := by
  (unfold State.countStalls; split <;> simp +contextual (maxDischargeDepth := 100) only [h, Kept.after_countStall, Kept.after_modPart, Kept.foldl, Kept.ite, implies_true]; done)

theorem Kept.after_noteReport {s t : State} {p : Nat} (h : Kept s t) : Kept s (State.noteReport t p) := by
  (unfold State.noteReport; split <;> simp +contextual (maxDischargeDepth := 100) only [h, Kept.after_modPart, Kept.ite]; done)

theorem Kept.after_countDrain {s t : State} {p : Nat} (h : Kept s t) : Kept s (State.countDrain t p) := by
  ((try unfold State.countDrain); (try simp only []); (repeat' (first | (simp +contextual (maxDischargeDepth := 100) only [h, Kept.after_modPart, Kept.ite]; done) | split | with_reducible assumption | with_reducible apply Kept.after_modPart | with_reducible apply Kept.foldl | with_reducible apply Kept.ite | with_reducible apply Kept.ite_snd | with_reducible apply Kept.ite_fst | with_reducible apply Kept.ite_snd2 | intro _)); done)

theorem Kept.after_tickStep {s t : State}  (h : Kept s t) : Kept s (tickStep t) := by
  (unfold tickStep; split <;> simp +contextual (maxDischargeDepth := 100) only [h, Kept.after_countDrain, Kept.after_countStalls, Kept.after_noteReport, Kept.after_releaseCredit, Kept.after_rollSlice, Kept.after_setReg64, Kept.mk_iff, Kept.pending, Kept.fuses, Kept.free, Kept.mem, Kept.regs, Kept.flash, Kept.foldl, Kept.ite, and_self, implies_true]; done)

theorem Kept.after_inputPowerReset {s t : State} {n : Nat} (h : Kept s t) : Kept { s with fuses := t.fusesBlown n } (inputPowerReset n t) :=
  ⟨h.pending, rfl, h.free, KMem.filter h.mem, rfl, h.flash⟩

theorem Kept.after_startPass {s t : State} {failing : List (Fin 240 × Fin 48 × List Nat)} {x_t pass : Nat} (h : Kept s t) : Kept s (State.startPass t failing x_t pass) := by
  ((try unfold State.startPass); (try simp only []); (repeat' (first | (simp +contextual (maxDischargeDepth := 100) only [h, Kept.after_beginPass, Kept.after_markRows, Kept.after_repairBank, Kept.foldl, implies_true]; done) | split | with_reducible assumption | with_reducible apply Kept.after_beginPass | with_reducible apply Kept.after_markRows | with_reducible apply Kept.after_pass | with_reducible apply Kept.after_repairBank | with_reducible apply Kept.foldl | with_reducible apply Kept.ite | with_reducible apply Kept.ite_snd | with_reducible apply Kept.ite_fst | with_reducible apply Kept.ite_snd2 | intro _)); done)

theorem Kept.after_startMarch {s t : State} {failing : List (Fin 240 × Fin 48 × List Nat)} {x_t : Nat} (h : Kept s t) : Kept s (State.startMarch t failing x_t) := by
  ((try unfold State.startMarch); (try simp only []); (repeat' (first | (simp +contextual (maxDischargeDepth := 100) only [h, Kept.after_startPass, Kept.ite]; done) | split | with_reducible assumption | with_reducible apply Kept.after_startPass | with_reducible apply Kept.foldl | with_reducible apply Kept.ite | with_reducible apply Kept.ite_snd | with_reducible apply Kept.ite_fst | with_reducible apply Kept.ite_snd2 | intro _)); done)

theorem Kept.after_startBanks {s t : State} {failing : List (Fin 240 × Fin 48 × List Nat)} (h : Kept s t) : Kept s (State.startBanks t failing) := by
  ((try unfold State.startBanks); (try simp only []); (repeat' (first | (simp +contextual (maxDischargeDepth := 100) only [h, Kept.after_startMarch, Kept.mk_iff, Kept.pending, Kept.fuses, Kept.free, Kept.mem, Kept.regs, Kept.flash, KRegs.filter, KMem.filter, Kept.foldl, and_self, implies_true]; done) | split | with_reducible assumption | with_reducible apply Kept.after_startMarch | with_reducible apply Kept.foldl | with_reducible apply Kept.ite | with_reducible apply Kept.ite_snd | with_reducible apply Kept.ite_fst | with_reducible apply Kept.ite_snd2 | intro _)); done)

theorem Kept.after_trainStacks {s t : State} {trained : BitVec 12} (h : Kept s t) : Kept s (State.trainStacks t trained) := by
  ((try unfold State.trainStacks); (try simp only []); (repeat' (first | (simp +contextual (maxDischargeDepth := 100) only [h, Kept.after_degrade, Kept.after_setFld, Kept.foldl, Kept.ite, implies_true]; done) | split | with_reducible assumption | with_reducible apply Kept.after_degrade | with_reducible apply Kept.after_setFld | with_reducible apply Kept.foldl | with_reducible apply Kept.ite | with_reducible apply Kept.ite_snd | with_reducible apply Kept.ite_fst | with_reducible apply Kept.ite_snd2 | intro _)); done)

theorem KMem.left {s : State} {l m : List Host.Cell} (h : KMem s m) : KMem s (leftIn m l) := by
  unfold leftIn
  induction l generalizing m with
  | nil => exact h
  | cons c l ih =>
    rw [List.foldl_cons]
    split
    · exact ih (KMem.set h)
    · exact ih h

theorem Kept.after_leaveResidue {s t : State} (h : Kept s t) : Kept s t.leaveResidue := by
  unfold State.leaveResidue
  exact Kept.after_took ⟨h.pending, h.fuses, h.free, KMem.left h.mem, h.regs, h.flash⟩

theorem Kept.after_powerUp {s t : State} {slot : BitVec 2} {board : BitVec 6} {trained : BitVec 12} {failing : List (Fin 240 × Fin 48 × List Nat)} (h : Kept s t) : Kept s (powerUp slot board trained failing t) := by
  (unfold powerUp; split <;> simp +contextual (maxDischargeDepth := 100) only [h, Kept.after_leaveResidue, Kept.after_quarantine, Kept.after_securityBoot, Kept.after_setFlag, Kept.after_setFld, Kept.after_startBanks, Kept.after_trainStacks, Kept.mk_iff, Kept.pending, Kept.fuses, Kept.free, Kept.mem, Kept.regs, Kept.flash, Kept.foldl, Kept.ite, and_self, implies_true]; done)

theorem Kept.after_dropLines {s t : State}  (h : Kept s t) : Kept s (State.dropLines t) := by
  ((try unfold State.dropLines); (try simp only []); (repeat' (first | (simp +contextual (maxDischargeDepth := 100) only [h, Kept.after_modLog, Kept.foldl, implies_true]; done) | split | with_reducible assumption | with_reducible apply Kept.after_modLog | with_reducible apply Kept.foldl | with_reducible apply Kept.ite | with_reducible apply Kept.ite_snd | with_reducible apply Kept.ite_fst | with_reducible apply Kept.ite_snd2 | intro _)); done)

theorem Kept.after_hostDown {s t : State}  (h : Kept s t) : Kept s (State.hostDown t) := by
  (unfold State.hostDown; split <;> simp +contextual (maxDischargeDepth := 100) only [h, Kept.after_dropLines, Kept.after_forget, Kept.after_satFld, Kept.after_setFlag, Kept.after_setFld]; done)

theorem Kept.after_perst {s t : State}  (h : Kept s t) : Kept s (perst t) := by
  ((try unfold perst); (try simp only []); (repeat' (first | (simp +contextual (maxDischargeDepth := 100) only [h, Kept.after_hostDown, Kept.mk_iff, Kept.pending, Kept.fuses, Kept.free, Kept.mem, Kept.regs, Kept.flash, Kept.ite, and_self]; done) | split | with_reducible assumption | with_reducible apply Kept.after_hostDown | with_reducible apply Kept.foldl | with_reducible apply Kept.ite | with_reducible apply Kept.ite_snd | with_reducible apply Kept.ite_fst | with_reducible apply Kept.ite_snd2 | intro _)); done)

theorem Kept.after_perstDeassert {s t : State}  (h : Kept s t) : Kept s (perstDeassert t) := by
  ((try unfold perstDeassert); (try simp only []); (repeat' (first | (simp +contextual (maxDischargeDepth := 100) only [h, Kept.mk_iff, Kept.pending, Kept.fuses, Kept.free, Kept.mem, Kept.regs, Kept.flash, and_self]; done) | split | with_reducible assumption | with_reducible apply Kept.after_perst | with_reducible apply Kept.foldl | with_reducible apply Kept.ite | with_reducible apply Kept.ite_snd | with_reducible apply Kept.ite_fst | with_reducible apply Kept.ite_snd2 | intro _)); done)

theorem Kept.after_hostLinkTrained {s t : State} {width rate : Nat} (h : Kept s t) : Kept s (hostLinkTrained width rate t) := by
  (unfold hostLinkTrained; split <;> simp +contextual (maxDischargeDepth := 100) only [h, Kept.after_finishAccepts, Kept.after_setFlag, Kept.after_setFld, Kept.after_takeLine, Kept.mk_iff, Kept.pending, Kept.fuses, Kept.free, Kept.mem, Kept.regs, Kept.flash, Kept.foldl, Kept.ite, and_self, implies_true]; done)

theorem Kept.after_warmFields {s t : State}  (h : Kept s t) : Kept s (State.warmFields t) := by
  ((try unfold State.warmFields); (try simp only []); (repeat' (first | (simp +contextual (maxDischargeDepth := 100) only [h, Kept.after_clearPending, Kept.after_setFlag, Kept.after_setFld, Kept.after_setReg, Kept.foldl, implies_true]; done) | split | with_reducible assumption | with_reducible apply Kept.after_clearPending | with_reducible apply Kept.after_setFlag | with_reducible apply Kept.after_setFld | with_reducible apply Kept.after_setReg | with_reducible apply Kept.foldl | with_reducible apply Kept.ite | with_reducible apply Kept.ite_snd | with_reducible apply Kept.ite_fst | with_reducible apply Kept.ite_snd2 | intro _)); done)

theorem Kept.after_abortHost {s t : State}  (h : Kept s t) : Kept s (State.abortHost t) := by
  ((try unfold State.abortHost); (try simp only []); (repeat' (first | (simp +contextual (maxDischargeDepth := 100) only [h, Kept.after_aborted, implies_true]; done) | split | with_reducible assumption | with_reducible apply Kept.after_aborted | with_reducible apply Kept.foldl | with_reducible apply Kept.ite | with_reducible apply Kept.ite_snd | with_reducible apply Kept.ite_fst | with_reducible apply Kept.ite_snd2 | intro _)); done)

theorem Kept.after_emptyRings {s t : State}  (h : Kept s t) : Kept s (State.emptyRings t) := by
  ((try unfold State.emptyRings); (try simp only []); (repeat' (first | (simp +contextual (maxDischargeDepth := 100) only [h, Kept.after_setFld, Kept.foldl, implies_true]; done) | split | with_reducible assumption | with_reducible apply Kept.after_setFld | with_reducible apply Kept.foldl | with_reducible apply Kept.ite | with_reducible apply Kept.ite_snd | with_reducible apply Kept.ite_fst | with_reducible apply Kept.ite_snd2 | intro _)); done)

theorem Kept.after_finishScatter {s t : State} {x_t : Nat} (h : Kept s t) : Kept s (State.finishScatter t x_t) := by
  (unfold State.finishScatter; split <;> simp +contextual (maxDischargeDepth := 100) only [h, Kept.after_scatterWrite, Kept.ite]; done)

theorem Kept.after_warmStop {s t : State}  (h : Kept s t) : Kept s (State.warmStop t) := by
  ((try unfold State.warmStop); (try simp only []); (repeat' (first | (simp +contextual (maxDischargeDepth := 100) only [h, Kept.after_abortHost, Kept.after_collAbort, Kept.after_collStatus, Kept.after_disablePort, Kept.after_finishScatter, Kept.after_settle, Kept.mk_iff, Kept.pending, Kept.fuses, Kept.free, Kept.mem, Kept.regs, Kept.flash, Kept.foldl, and_self, implies_true]; done) | split | with_reducible assumption | with_reducible apply Kept.after_abortHost | with_reducible apply Kept.after_collAbort | with_reducible apply Kept.after_collStatus | with_reducible apply Kept.after_disablePort | with_reducible apply Kept.after_finishScatter | with_reducible apply Kept.after_settle | with_reducible apply Kept.foldl | with_reducible apply Kept.ite | with_reducible apply Kept.ite_snd | with_reducible apply Kept.ite_fst | with_reducible apply Kept.ite_snd2 | intro _)); done)

theorem Kept.after_warmClear {s t : State}  (h : Kept s t) : Kept s (State.warmClear t) := by
  ((try unfold State.warmClear); (try simp only []); (repeat' (first | (simp +contextual (maxDischargeDepth := 100) only [h, Kept.after_emptyRings, Kept.after_warmFields, Kept.mk_iff, Kept.pending, Kept.fuses, Kept.free, Kept.mem, Kept.regs, Kept.flash, KRegs.filter, and_self]; done) | split | with_reducible assumption | with_reducible apply Kept.after_emptyRings | with_reducible apply Kept.after_warmFields | with_reducible apply Kept.foldl | with_reducible apply Kept.ite | with_reducible apply Kept.ite_snd | with_reducible apply Kept.ite_fst | with_reducible apply Kept.ite_snd2 | intro _)); done)

theorem Kept.after_warmFinish {s t : State}  (h : Kept s t) : Kept s (State.warmFinish t) := by
  ((try unfold State.warmFinish); (try simp only []); (repeat' (first | (simp +contextual (maxDischargeDepth := 100) only [h, Kept.after_securityBoot, Kept.after_warmClear]; done) | split | with_reducible assumption | with_reducible apply Kept.after_securityBoot | with_reducible apply Kept.after_warmClear | with_reducible apply Kept.foldl | with_reducible apply Kept.ite | with_reducible apply Kept.ite_snd | with_reducible apply Kept.ite_fst | with_reducible apply Kept.ite_snd2 | intro _)); done)

theorem Kept.after_warmBegin {s t : State}  (h : Kept s t) : Kept s (State.warmBegin t) := by
  ((try unfold State.warmBegin); (try simp only []); (repeat' (first | (simp +contextual (maxDischargeDepth := 100) only [h, Kept.after_warmFinish, Kept.after_warmStop, Kept.mk_iff, Kept.pending, Kept.fuses, Kept.free, Kept.mem, Kept.regs, Kept.flash, Kept.ite, and_self]; done) | split | with_reducible assumption | with_reducible apply Kept.after_warmFinish | with_reducible apply Kept.after_warmStop | with_reducible apply Kept.foldl | with_reducible apply Kept.ite | with_reducible apply Kept.ite_snd | with_reducible apply Kept.ite_fst | with_reducible apply Kept.ite_snd2 | intro _)); done)

theorem Kept.after_warmReset {s t : State}  (h : Kept s t) : Kept s (warmReset t) := by
  (unfold warmReset; split <;> simp +contextual (maxDischargeDepth := 100) only [h, Kept.after_warmBegin, Kept.mk_iff, Kept.pending, Kept.fuses, Kept.free, Kept.mem, Kept.regs, Kept.flash, Kept.ite, and_self]; done)

theorem Kept.after_referenceReturn {s t : State}  (h : Kept s t) : Kept s (referenceReturn t) := by
  (unfold referenceReturn; split <;> simp +contextual (maxDischargeDepth := 100) only [h, Kept.after_setReg64, Kept.after_warmBegin, Kept.mk_iff, Kept.pending, Kept.fuses, Kept.free, Kept.mem, Kept.regs, Kept.flash, Kept.ite, and_self]; done)

theorem Kept.after_fuseCommandComplete {s t : State} (h : Kept s t) : Kept { s with fuses := t.endFuse.fuses } (fuseCommandComplete t) := by
  have hk := Kept.after_endFuse h
  unfold fuseCommandComplete
  split
  · next hn =>
    have e : t.endFuse = t := by
      unfold State.endFuse
      rw [Option.isNone_iff_eq_none.mp hn]
    rw [e] at hk ⊢
    exact hk
  · exact Kept.ite (Kept.after_warmFinish hk) hk

theorem Kept.after_functionLevelReset {s t : State} {f : Nat} (h : Kept s t) : Kept s (functionLevelReset f t) := by
  ((try unfold functionLevelReset); (try simp only []); (repeat' (first | (simp +contextual (maxDischargeDepth := 100) only [h, Kept.after_forget]; done) | split | with_reducible assumption | with_reducible apply Kept.after_forget | with_reducible apply Kept.foldl | with_reducible apply Kept.ite | with_reducible apply Kept.ite_snd | with_reducible apply Kept.ite_fst | with_reducible apply Kept.ite_snd2 | intro _)); done)

theorem Kept.after_getReady {s t : State}  (h : Kept s t) : Kept s (getReady t) := by
  ((try unfold getReady); (try simp only []); (repeat' (first | (simp +contextual (maxDischargeDepth := 100) only [h, Kept.after_emit]; done) | split | with_reducible assumption | with_reducible apply Kept.after_emit | with_reducible apply Kept.foldl | with_reducible apply Kept.ite | with_reducible apply Kept.ite_snd | with_reducible apply Kept.ite_fst | with_reducible apply Kept.ite_snd2 | intro _)); done)

end Sys2Proof.Machine
end

