-- ==== Sys2Proof/Tests/Slice0.lean ====
section
/-! SUPPORT. Tests: terms that the checks of well-formedness refuse, a concrete state and operands for the hypotheses of every statement,
and single steps whose results are worked out by hand from the rules named beside them. -/
namespace Sys2Proof.Tests
open Sys2Proof Sys2Proof.Machine

set_option linter.all false
set_option Elab.async false

/-! ## Helpers -/

/-- Fields set one after the other. -/
def put (l : List (Field × Nat)) (s : State) : State := l.foldl (fun s e => s.setFld e.1 e.2) s

/-- A powered module whose dies and clocks run, whose security boot has passed and whose BARs are open. -/
def up : State := ({ State.reset with
  pins := { Pins.reset with powered := true, railsOn := true, clocksOn := true, barsOpen := true } } : State).setFlag Reg.SEC_STATUS.BOOTED true

/-- The powered module with fields set. -/
def mod (l : List (Field × Nat)) : State := put l up

/-- Partition 0 is ON over bay 0 and its job 0 runs. -/
def on : List (Field × Nat) := [(Reg.PRT_P_STAT.STATE 0, 2), (Reg.PRT_P_STAT.RES_VALID 0, 1), (Reg.PRT_P_BAYS.COUNT 0, 1)]

/-- The instruction `w` stands at address 0 of tile `t`, whose sequencer is RUN, in the running partition 0. -/
def runs (t w : Nat) (l : List (Field × Nat)) : State := (mod (on ++ [(Reg.SEQ_STATUS.STATE t, 1)] ++ l)).writeNum (imemAt t 0 0) 8 w

/-- The hot tier of bay 0 is ON. -/
def hot : List (Field × Nat) := [(Reg.TIER_UNIT.STATE (unitHot 0), 2)]

/-- Time is aligned, and the tick is that of a Strike boundary: 2^20. -/
def bound : List (Field × Nat) := [(Reg.TIME_STATUS.ALIGNED, 1), (⟨Reg.TIME_TICK_LO, 0, 32⟩, 2 ^ 20)]

/-- The host link is up. -/
def linked : List (Field × Nat) := [(Reg.CXL_HOST_STAT.TRAINED, 1)]

/-- The state that a command answers. -/
def after (c : Instr) (s : State) : State :=
  match exec c s with
  | .next t => t
  | .fault _ => s
  | .refused _ => s

/-- The word of an instruction: OP, PRED, PNEG and the fields given by their lowest bit (Table 04-2). -/
def word (op : Nat) (l : List (Nat × Nat)) : Nat := op * 2 ^ 56 + (l.map (fun e => e.2 * 2 ^ e.1)).sum

/-! ## Terms that are refused -/

/-- A frame of fields that fit. -/
def frame0 : Frame := ⟨0, 0, 0, 0, 0, 0, List.replicate 256 0⟩

/-- One term for each check of `Instr.wf`. -/
def illFormed : List Instr :=
  [.registerWrite .firmware 2 0, .registerWrite .firmware (2 ^ 32) 0, .moverPortAccess (.mover 0) 2 (2 ^ 24) (.read 8) .clean,
   .moverPortAccess (.mover 0) 2 0 (.read 0) .clean, .sramWindowAccess .firmware 0x1E0000000 (.read 8) .clean,
   .sramWindowAccess .firmware 0 (.write []) .clean, .hostIoRequest 0 0 0 (.read 4097) .clean,
   .hostMemRequest 0 (.write (List.replicate 4097 0)) .clean] ++
  [{ frame0 with vc := 8 }, { frame0 with type := 4 }, { frame0 with seq := 4096 }, { frame0 with ack := 4096 }, { frame0 with cvc := 8 },
    { frame0 with ccnt := 256 }, { frame0 with payload := [] }].map (.frameReceive 0 .good) ++
  [.nak 0 { frame0 with vc := 8 }, .submit 0 [] [] [] .ok, .cancel 0 [], .verdictReceive 0 0 [], .temperatureSample [],
   .tierEnable .firmware (.partition 0) 1, .tierEnable .firmware .banking 1, .tierDisable .firmware (.partition 0) 2,
   .tierDisable .firmware .banking 2]

/-- The step refuses a command of `illFormed`, whatever the state. -/
theorem test_ill_formed_refused : illFormed.all (fun c => c.wf == false) = true := by decide +kernel

theorem test_ill_formed_stops (c : Instr) (h : c ∈ illFormed) : step { State.reset with pending := [c] } = .fault .illFormed := by
  have hw : c.wf = false := by
    have := List.all_eq_true.mp test_ill_formed_refused c h
    simpa using this
  simp [step, hw]

/-- Well-formed commands are taken. -/
theorem test_well_formed : (Instr.tick).wf = true ∧ (Instr.frameReceive 0 .good frame0).wf = true ∧
    (Instr.tierEnable .firmware (.stack 0) 1).wf = true ∧ (Instr.registerWrite .firmware 4 0).wf = true := by decide +kernel

/-! ## Witnesses: the queue, time and reset -/

theorem wit_step_runs_the_front_command : (Instr.tick).wf = true ∧ (Instr.cancel 0 []).wf = false := by decide +kernel

theorem reset_inv : State.reset.Inv := ⟨by decide +kernel, by decide +kernel, by decide +kernel⟩

theorem wit_step : ({ State.reset with pending := [.perstDeassert] } : State).Inv ∧
    step { State.reset with pending := [.perstDeassert] } = .next State.reset := ⟨⟨by decide +kernel, by decide +kernel, by decide +kernel⟩, rfl⟩

theorem wit_only_fuse_commands_blow_fuses : State.reset.Inv ∧ exec .perstDeassert State.reset = .next State.reset ∧
    (∀ n, Instr.perstDeassert ≠ .inputPowerReset n) ∧ Instr.perstDeassert ≠ .fuseCommandComplete ∧ State.reset.security.fuseOp = none :=
  ⟨reset_inv, rfl, by simp, by simp, rfl⟩

theorem wit_strike_edge_armed : (mod [(Reg.TIME_STATUS.ARMED, 1)]).refRuns = true ∧
    (mod [(Reg.TIME_STATUS.ARMED, 1)]).flag Reg.TIME_STATUS.ARMED = true := by decide +kernel

theorem wit_strike_edge_off : (mod [(Reg.TIME_STATUS.ALIGNED, 1), (⟨Reg.TIME_TICK_LO, 0, 32⟩, 5)]).refRuns = true ∧
    (mod [(Reg.TIME_STATUS.ALIGNED, 1), (⟨Reg.TIME_TICK_LO, 0, 32⟩, 5)]).tick % 1024 = 5 := by decide +kernel

theorem wit_missed_boundary : (mod bound).onBoundary = true ∧ (mod bound).edge = none := by decide +kernel

theorem wit_anomaly_period_roll : (mod bound).flag Reg.TIME_STATUS.ALIGNED = true ∧ (mod bound).tick % 2 ^ 20 = 0 := by decide +kernel

theorem wit_slot_check : (mod bound).place 7 = true := by decide +kernel

theorem wit_reference_lost : up.refRuns = true := by decide +kernel

theorem wit_reference_return : ({ up with refGone := true } : State).refGone = true ∧ ({ up with refGone := true } : State).warmWaitsRef = false := by
  decide +kernel

theorem wit_tick_stands : State.reset.refRuns = false := by decide +kernel

theorem wit_register_write : up.reaches .firmware Reg.DEV_SLOT = true ∧ up.reaches .rackManager 0xFFFC = true ∧ (regSpec Reg.DEV_SLOT).isSome = true ∧ Reg.DEV_SLOT < 0x10000 ∧
    regSpec 0xFFFC = none ∧ State.reset.pins.powered = false := by decide +kernel

theorem wit_locked_fields : (regSpec Reg.MSH_COORD).any (fun r => r.rwl != 0) = true ∧
    (mod [(Reg.MSH_LOCK.LOCK, 1)]).lockedAt Reg.MSH_COORD = true := by decide +kernel

theorem wit_power_up : State.reset.pins.powered = false := by decide +kernel

theorem wit_host_link_trained : up.on = true ∧ up.pins.perst = false ∧ up.hostUp = false ∧ linkOk 16 64 = true ∧ linkOk 8 32 = true := by
  decide +kernel

theorem wit_warm_reset : (mod [(Reg.SEC_STATUS.BOOTED, 1)]).live = true ∧ (mod [(Reg.SEC_STATUS.BOOTED, 1)]).flag Reg.PWR_STATUS.THERMTRIP = false ∧
    (mod [(Reg.SEC_STATUS.BOOTED, 1)]).flag Reg.SEC_STATUS.BOOTED = true ∧ (mod [(Reg.SEC_STATUS.BOOTED, 1)]).security.warmWaits = false ∧
    (mod [(Reg.SEC_STATUS.BOOTED, 1)]).refGone = false ∧ (mod [(Reg.SEC_STATUS.BOOTED, 1)]).security.fuseOp = none ∧
    State.reset.live = false := by decide +kernel

theorem wit_warm_reset_waits : ({ mod [(Reg.SEC_STATUS.BOOTED, 1)] with refGone := true } : State).flag Reg.SEC_STATUS.BOOTED = true ∧
    ({ mod [(Reg.SEC_STATUS.BOOTED, 1)] with refGone := true } : State).live = true := by decide +kernel

theorem wit_time_and_locks : up.reaches .firmware Reg.TIME_CTRL = true ∧ up.reaches .rackManager Reg.DEV_LOCK = true ∧
    up.live = true ∧ up.fnFrozen 0 = false ∧ State.reset.pins.powered = false ∧
    (.devLock .firmware 1, Reg.DEV_LOCK.LOCK) ∈ [(Instr.devLock .firmware 1, Reg.DEV_LOCK.LOCK)] := by decide +kernel

theorem wit_perst : up.pins.powered = true ∧ up.outstanding = [] ∧
    (mod [(Reg.PWR_STATUS.THERMTRIP, 1)]).flag Reg.PWR_STATUS.THERMTRIP = true := by decide +kernel

/-! ## Witnesses: power -/

theorem wit_cap_write : up.reaches (.host 3) Reg.PWR_CAP = true ∧ Master.host 3 ≠ .security ∧ up.fnFrozen 3 = false := by decide +kernel

theorem wit_alerts : up.on = true ∧ up.power.alert = false ∧
    ({ up with power := { up.power with alert := true } } : State).power.alert = true := by decide +kernel

/-- A cap write at tick 0 and a tick past the lease. -/
def leased : State :=
  { mod (bound ++ [(Reg.PWR_LEASE.STRIKES, 1000), (Reg.PWR_STATUS.LEASE_LAPSED, 0)]) with power := { up.power with capStamp := some 0 } }

theorem wit_lease_lapse : leased.power.capStamp = some 0 ∧ leased.on = true ∧
    leased.onBoundary = true ∧ leased.boundary < 2 ∧ leased.flag Reg.PWR_STATUS.LEASE_LAPSED = false ∧
    1024 * max 1000 (leased.fld Reg.PWR_LEASE.STRIKES) ≤ leased.tick := by decide +kernel

/-- The module has sampled in its period and has 7 samples of the Strike. -/
def sampled : State := { up with power := { up.power with sampled := some up.samplePeriod, samples := List.replicate 7 1 } }

theorem wit_power_sample : up.pins.powered = true ∧ up.power.sampled ≠ some up.samplePeriod ∧
    (up.power.ofStrike up.samplePeriod ++ [1]).length < 8 ∧ sampled.power.sampled = some sampled.samplePeriod ∧
    ((mod [(⟨Reg.TIME_TICK_LO, 0, 32⟩, 0)]).power.ofStrike up.samplePeriod).length = 0 := by decide +kernel

theorem wit_temperature_sample : up.pins.powered = true ∧ (List.replicate 28 (0 : BitVec 16)).length = 28 := by decide +kernel

theorem wit_power_step : (mod bound).on = true ∧ (mod bound).onBoundary = true ∧ (mod bound).boundary < 2 := by decide +kernel

theorem wit_thermtrip : up.on = true ∧ (8 * 118 : Int) ≤ (944 : BitVec 16).toInt ∧ (8 * 110 : Int) ≤ (880 : BitVec 16).toInt := by decide +kernel

/-! ## Witnesses: the grid -/

/-- Queue 3 of tile 5 takes flits of its West port and sends them North; it holds one flit and a credit. -/
def grid : State :=
  (mod (on ++ [(Reg.GRD_RT_A.VALID 5 3, 1), (Reg.GRD_RT_A.OUT 5 3, 1), (Reg.GRD_RT_A.IN 5 3, 3), (Reg.GRD_QD_A.DEPTH 5 3, 4),
    (Reg.GRD_LINK.FENCE 5, 0), (Reg.GRD_LINK.FENCE 6, 0), (Reg.GRD_LINK.FENCE 4, 0), (Reg.GRD_LINK.FENCE 17, 0)])).setQueue 5 3
    { Queue.reset with held := [⟨0, 0, .data, 0⟩], tail := 1, nextSeq := 1, credits := #v[1, 0, 0, 0] }

theorem wit_flit_grant : grid.tileWorks 5 = true ∧ (grid.rrOrder 5 0).find? (fun q => grid.wants 5 0 q && grid.fenced 5 0) = none ∧
    (grid.rrOrder 5 0).find? (grid.mayWin 5 0) = some 3 ∧ (neighbour 5 0).isSome = true ∧
    grid.headFor 5 3 0 = some ⟨0, 0, .data, 0⟩ := by decide +kernel

theorem wit_flit_arrival : takeFlight 5 3 [⟨5, 3, 3, ⟨.data, 7⟩, .attachment⟩] = some (⟨5, 3, 3, ⟨.data, 7⟩, .attachment⟩, []) ∧
    grid.rtValid 5 3 = true ∧ grid.rtIn 5 3 = 3 ∧ (grid.queue 5 3).quenched = false ∧ grid.rtIn 5 3 ≠ 0 ∧
    ((grid.setQueue 5 3 { grid.queue 5 3 with quenched := true }).queue 5 3).quenched = true ∧
    (grid.setQueue 5 3 { grid.queue 5 3 with quenched := true }).rtIn 5 3 = 3 ∧
    (grid.setQueue 5 3 { grid.queue 5 3 with quenched := true }).rtValid 5 3 = true := by decide +kernel

theorem wit_credit_return : takeCredit 5 0 [⟨5, 3, 0, false⟩] = some (⟨5, 3, 0, false⟩, []) ∧
    takeCredit 9 0 [⟨9, 3, 0, true⟩] = some (⟨9, 3, 0, true⟩, []) := by decide +kernel

theorem wit_grd_link_write : up.partOf 5 = none ∧ (mod on).partOf 5 = some 0 ∧ (mod on).atRest 0 = false ∧
    (mod (on ++ [(Reg.PRT_P_STAT.FROZEN 0, 1)])).atRest 0 = true ∧ (mod (on ++ [(Reg.PRT_P_STAT.FROZEN 0, 1)])).partOf 5 = some 0 := by decide +kernel

/-- The stall counter of tile 5 has reached the least limit and its queue is full. -/
def stuck : State :=
  (put [(Reg.GRD_CTRL.DL_EN 5, 1), (Reg.GRD_CTRL.DL_LIMIT 5, 10), (Reg.GRD_QD_A.DEPTH 5 3, 1)] grid).modTile 5 (fun x => { x with stall := 1024 })

theorem wit_deadlock : stuck.running 0 = true ∧ (∀ t ∈ stuck.tilesOf 0, stuck.partOf t = some 0) ∧ (stuck.tripped 5).isSome = true ∧
    5 ∈ stuck.tilesOf 0 ∧ (∀ t ∈ stuck.tilesOf 0, (stuck.tripped t).isSome = true → stuck.fullQueues t ≠ []) ∧
    (∀ t ∈ grid.tilesOf 0, grid.tripped t = none) ∧ grid.running 0 = true := by decide +kernel

/-! ## Witnesses: the sequencer -/

/-- The conditions of `State.Executes` as one Bool. -/
def executes (s : State) (t w : Nat) : Bool :=
  s.tileWorks t && (s.seqState t == 1 || s.seqState t == 2) && !s.quenching t && s.imemWord t (s.pc t) == w &&
    (decodeFault (tileType t) w).isNone && (wPred w == 0 || !(s.pendingWrites t allEngines).contains (predSpec (wPred w))) &&
    s.pred t (wPred w) != wPneg w && !s.hazard t w && s.engineFree t w && !s.atLoopEnd t w

theorem executes_sound {s : State} {t w : Nat} (h : executes s t w = true) : s.Executes t w := by
  simp [executes] at h
  obtain ⟨⟨⟨⟨⟨⟨⟨⟨⟨a, b⟩, c⟩, d⟩, e⟩, f⟩, g⟩, i⟩, j⟩, k⟩ := h
  exact ⟨a, b, c, d, e, by simpa using f, g, i, j, k⟩

theorem wit_short_forms : resultForms.all (fun f => executes (runs 5 (word f.op [(44, 3)]) []) 5 (word f.op [(44, 3)]) &&
    wOp (word f.op [(44, 3)]) == f.op) = true := by decide +kernel

theorem wit_compare : executes (runs 5 (word 0x10 [(0, 5)]) []) 5 (word 0x10 [(0, 5)]) = true ∧
    executes (runs 5 (word 0x11 [(32, 5)]) []) 5 (word 0x11 [(32, 5)]) = true ∧ wOp (word 0x10 [(0, 5)]) = 0x10 ∧
    wOp (word 0x11 [(32, 5)]) = 0x11 := by decide +kernel

/-- A frame of tile 5 is open over the words 0 to `e`, with `n` iterations left of `m`. -/
def loops (e n m : Nat) : List (Field × Nat) :=
  [(Reg.SEQ_LOOP_CTL.VALID 5 0, 1), (Reg.SEQ_LOOP_CTL.END 5 0, e), (Reg.SEQ_LOOP_REMAIN.COUNT 5 0, n), (Reg.SEQ_LOOP_TOTAL.COUNT 5 0, m),
    (Reg.SEQ_LOOP_IDX.IDX 5 0, 4)]

theorem wit_branch : executes (runs 5 (word 0x18 [(0, 9)]) (loops 9 1 3)) 5 (word 0x18 [(0, 9)]) = true ∧ wOp (word 0x18 [(0, 9)]) = 0x18 ∧
    (runs 5 (word 0x18 [(0, 9)]) (loops 9 1 3)).openFrames 5 = 1 := by decide +kernel

theorem wit_endl_outside : executes (runs 5 (word 0x1A []) []) 5 (word 0x1A []) = true ∧ (runs 5 (word 0x1A []) []).openFrames 5 = 0 ∧
    executes (runs 5 (word 0x1A []) (loops 9 1 3)) 5 (word 0x1A []) = true ∧
    (runs 5 (word 0x1A []) (loops 9 1 3)).fld (Reg.SEQ_LOOP_CTL.END 5 0) ≠ (runs 5 (word 0x1A []) (loops 9 1 3)).pc 5 := by decide +kernel

/-- LOOP to END 7 with an immediate trip count `k` and IDX g4. -/
def loopWord (k : Nat) : Nat := word 0x19 [(36, 4), (24, 7), (23, 1), (0, k)]

theorem wit_loop : executes (runs 5 (loopWord 0) []) 5 (loopWord 0) = true ∧ executes (runs 5 (loopWord 0xFFFF) []) 5 (loopWord 0xFFFF) = true ∧
    executes (runs 5 (loopWord 1) []) 5 (loopWord 1) = true ∧ wOp (loopWord 1) = 0x19 ∧ (runs 5 (loopWord 1) []).openFrames 5 = 0 ∧
    (runs 5 (loopWord 1) []).pc 5 < bits (loopWord 1) 24 12 ∧ bitOf (loopWord 1) 23 = true ∧ bits (loopWord 1) 0 16 = 1 := by decide +kernel

theorem wit_endl : executes (runs 5 (word 0x1A []) (loops 0 0 3)) 5 (word 0x1A []) = true ∧
    executes (runs 5 (word 0x1A []) (loops 0 2 3)) 5 (word 0x1A []) = true ∧ (runs 5 (word 0x1A []) (loops 0 2 3)).openFrames 5 = 0 + 1 ∧
    (runs 5 (word 0x1A []) (loops 0 2 3)).fld (Reg.SEQ_LOOP_CTL.END 5 0) = (runs 5 (word 0x1A []) (loops 0 2 3)).pc 5 := by decide +kernel

/-- SHAPE of g5 with limit 6. -/
def shapeWord : Nat := word 0x28 [(44, 3), (36, 5), (33, 1), (30, 2), (0, 6)]

/-- SHAPE runs where g5 holds `v`. -/
def shaped (v : Nat) : State := (runs 5 shapeWord []).setReg (Reg.SEQ_G 5 5 0) (BitVec.ofNat 32 v)

theorem wit_shape : executes (shaped 6) 5 shapeWord = true ∧ (shaped 6).operand 5 (bits shapeWord 36 8) % 2 ^ 32 = bits shapeWord 0 24 ∧
    executes (shaped 7) 5 shapeWord = true ∧ bits shapeWord 0 24 < (shaped 7).operand 5 (bits shapeWord 36 8) % 2 ^ 32 ∧
    bits shapeWord 44 8 ≠ predSpec (bits shapeWord 33 3) := by decide +kernel

theorem wit_fence_halt_nop : executes (runs 5 (word 0x30 [(0, 0x1F)]) []) 5 (word 0x30 [(0, 0x1F)]) = true ∧
    (runs 5 (word 0x30 [(0, 0x1F)]) []).enginesIdle 5 15 = true ∧ (List.range 32).all (fun q => ((runs 5 0 []).queue 5 q).held.isEmpty) = true ∧
    executes (runs 5 (word 0x3F []) []) 5 (word 0x3F []) = true ∧ (runs 5 (word 0x3F []) []).enginesIdle 5 15 = true ∧
    executes (runs 5 0 []) 5 0 = true := by decide +kernel

/-! ## Witnesses: configuration -/

theorem wit_load_and_arm : (mod on).live = true ∧ bitOf 0x80000000 31 = true ∧ bitOf 0x40000000 30 = true ∧ bitOf 0x40000000 31 = false ∧ bitOf 0xC0000000 30 = true ∧
    (mod on).hasJob 0 = true ∧ (mod (on ++ [(Reg.TIME_STATUS.ALIGNED, 1), (Reg.CFG_P_STATUS.SHADOW 0, 2)])).mayArm 0 = true := by decide +kernel

/-- An image for partition 0 whose header (VERSION 1, 1 section, 1 bay, 3 units) and section (tile 1, type Anvil, 1 word) stand at 0 of the
hot tier of bay 0. -/
def imaged : State :=
  (((({ mod (on ++ hot ++ [(Reg.CFG_P_STATUS.SHADOW 0, 1)]) with loads := [⟨0, false⟩] } : State).writeNum 0 2 1).writeNum 2 2 1).writeNum 4 1 1).writeNum 8
    4 3 |>.writeNum 129 1 1 |>.writeNum 132 2 1

/-- The result of a load is not an error. -/
def loaded {ε α : Type} : Except ε α → Bool
  | .ok _ => true
  | .error _ => false

theorem wit_load_complete : imaged.gridLive = true ∧ imaged.loads = ⟨0, false⟩ :: [] ∧ imaged.shadowSet 0 = 1 ∧
    imaged.imageFilling (imaged.reg64 (Reg.CFG_P_SIMG_LO 0)) = false ∧ loaded (({ imaged with loads := [] } : State).loadImage 0 (imaged.reg64 (Reg.CFG_P_SIMG_LO 0)) false) = true := by decide +kernel

/-- Partition 0 has reported and its swap is armed at a boundary. -/
def swapping : State :=
  (mod (on ++ bound ++ [(Reg.CFG_P_STATUS.SHADOW 0, 3)])).modPart 0 (fun x => { x with reportTick := some 5, releaseTick := some 4 })

theorem wit_swap : swapping.place 3 = true ∧ swapping.maySwap 0 = true := by decide +kernel

/-- Channel 0 feeds queue 3 of tile 9, whose attachment holds a credit, and a flit waits. -/
def feeding : State :=
  ((mod (on ++ [(Reg.GRD_LINK.FENCE 9, 0)])).setQueue 9 3 { Queue.reset with attach := 1 }).modPart 0 (fun x => { x with
    ingActive := [(9, 3)]
    ingress := [⟨0, ⟨.data, 7⟩, false, false⟩] })

theorem wit_ingress : feeding.live = true ∧ feeding.fenced 9 0 = false ∧ (feeding.part 0).ingress.find? (·.held) = none ∧
    ((feeding.modPart 0 (fun x => { x with ingress := [], marks := [0] })).part 0).ingress = [] ∧
    0 ∈ ((feeding.modPart 0 (fun x => { x with ingress := [], marks := [0] })).part 0).marks ∧
    (put [(Reg.GRD_LINK.FENCE 9, 1)] feeding).fenced 9 0 = true ∧ (feeding.part 0).ingActive[0]? = some (9, 3) ∧ feeding.running 0 = true ∧ 0 < (feeding.queue 9 3).attach ∧
    (feeding.part 0).ingress.find? (fun f => f.ch == 0 && !f.late) = some ⟨0, ⟨.data, 7⟩, false, false⟩ := by decide +kernel

/-- Partition 0 is ARMED with a limit of 2 and has counted `n` Strikes while tile 5 is RUN. -/
def draining (n : Nat) : State :=
  (mod (on ++ [(Reg.CFG_P_STATUS.SHADOW 0, 3), (Reg.CFG_P_CTRL.DRAIN_LIMIT 0, 2), (Reg.SEQ_STATUS.STATE 5, 1)])).modPart 0 (fun x =>
    { x with drain := n })

theorem wit_drain_timeout : (draining 2).running 0 = true ∧ (draining 2).shadowSet 0 = 3 ∧
    (∀ t ∈ (draining 2).tilesOf 0, (draining 2).partOf t = some 0) ∧ (draining 2).fld (Reg.CFG_P_CTRL.DRAIN_LIMIT 0) = 2 ∧
    (((draining 2).tilesOf 0).find? (fun t => !(draining 2).reports t)) = some 5 ∧ ((draining 2).part 0).drain = 2 ∧
    ((draining 1).part 0).drain < 2 ∧ (draining 1).shadowSet 0 = 3 := by decide +kernel

/-- The entry at 0 names set 3, slot 1 and generation 2, and set 3 of partition 0 is VALID with `n` captures of slot 1. -/
def captured (cur n : Nat) : State :=
  (((((mod (hot ++ [(Reg.CFG_WS_W0.VALID 3, 1), (Reg.CFG_WS_W0.CUR 3, cur)])).setReg (Reg.CFG_WS_CAPT 3 1) (BitVec.ofNat 32 n)).setReg
    (Reg.CFG_WS_GEN 3 1) 2).writeNum 0 2 3).writeNum 2 1 1).writeNum 4 4 2

theorem wit_capture : (captured 1 0).live = true ∧ bitOf 0x80000001 31 = true ∧ bitOf 0x80000001 28 = false ∧ bits 0x80000001 0 7 = 1 ∧ bits 0x80000001 24 4 = 0 ∧
    (captured 1 0).listHere 0 16 = true ∧ (captured 1 0).flag Reg.CFG_ADMIT_STAT.BUSY = false ∧ (captured 1 0).num 0 2 = 3 ∧ (captured 1 0).wsOf 3 0 = true ∧ (captured 1 0).wsCur 3 = 1 ∧
    (captured 1 0).wsCapt 3 1 < 2 ^ 32 - 1 ∧ (captured 1 0).hasJob 0 = false := by decide +kernel

theorem wit_release : (captured 0 1).live = true ∧ (captured 0 1).flag Reg.CFG_ADMIT_STAT.BUSY = false ∧ bitOf 0x90000001 31 = true ∧ bitOf 0x90000001 28 = true ∧ bits 0x90000001 0 7 = 1 ∧ bits 0x90000001 24 4 = 0 ∧
    (captured 0 1).listHere 0 16 = true ∧ (captured 0 1).wsOf 3 0 = true ∧ (captured 0 1).num 2 1 = 1 ∧ (captured 0 1).wsCapt 3 1 = 1 ∧
    (captured 0 1).wsGen 3 1 = (captured 0 1).num 4 4 ∧ 1 ≠ (captured 0 1).wsCur 3 := by decide +kernel

theorem wit_capture_error : bits 0x80000000 0 7 = 0 ∧ 64 < bits 0x80000041 0 7 ∧ up.listNowhere 0 (16 * bits 0x80000040 0 7) = true ∧
    bits 0x80000040 28 1 = 0 ∧ bits 0x90000040 28 1 = 1 ∧ (mod [(Reg.CFG_ADMIT_STAT.BUSY, 1)]).flag Reg.CFG_ADMIT_STAT.BUSY = true ∧
    (List.range 5).all (fun k => (mod ((List.range 5).map (fun n => (Reg.MSH_PORT_STAT.STATE n, 2)))).homeOf (2 ^ 54 + 16 * 64 * k) =
      .remote 1 (16 * 64 * k)) = true ∧
    (mod ((List.range 5).map (fun n => (Reg.MSH_PORT_STAT.STATE n, 2)))).slotReachable 1 = true := by decide +kernel

theorem wit_weight_sets : bitOf 0x80000003 31 = true ∧ bitOf 0x80000003 28 = false ∧ bitOf 0x90000003 28 = true ∧ bits 0x80000003 0 9 = 3 ∧
    (put [(Reg.CFG_WS_LEN.LEN 3 1, 2)] (captured 0 1)).flag (Reg.CFG_WS_W0.VALID 3) = true ∧
    (put [(Reg.CFG_WS_LEN.LEN 3 1, 2)] (captured 0 1)).fld (Reg.CFG_WS_LEN.LEN 3 1) = 2 ∧
    (captured 0 1).flag Reg.CFG_WS_STAT.FILL_BUSY = false := by decide +kernel

theorem wit_fill_complete : ({ up with fillJob := some ⟨3, 1, true⟩ } : State).fillJob = some ⟨3, 1, true⟩ ∧
    up.walks.any (fun x => x.who == .fill) = false ∧ up.fetches.any (fun f => f.waiters.any (fun x => x.who == .fill)) = false := by decide +kernel

/-! ## Witnesses: engines -/

/-- Streams of tile `t`: number, address, units in a row, rows; the rows follow one another. -/
def streams (t : Nat) (l : List (Nat × Nat × Nat × Nat)) (s : State) : State :=
  l.foldl (fun s e => (((s.setReg (Reg.SEQ_S t e.1 0) (BitVec.ofNat 32 e.2.1)).setReg (Reg.SEQ_S t e.1 1) (BitVec.ofNat 32 e.2.2.1)).setReg
    (Reg.SEQ_S t e.1 2) (BitVec.ofNat 32 e.2.2.2)).setReg (Reg.SEQ_S t e.1 3) (BitVec.ofNat 32 (128 * e.2.2.1))) s
/-- General registers of tile `t`. -/
def gregs (t : Nat) (l : List (Nat × Nat)) (s : State) : State := l.foldl (fun s e => s.setReg64 (Reg.SEQ_G t e.1 0) e.2) s
/-- Queue 3 of tile `t` leads from Local to Local. -/
def routed (t : Nat) : List (Field × Nat) := [(Reg.GRD_RT_A.VALID t 3, 1), (Reg.GRD_RT_A.IN t 3, 4), (Reg.GRD_RT_A.OUT t 3, 16)]
/-- A word of tile `t` with the state it runs in: fields of the word, streams, general registers and register fields. -/
structure Case where
  op : Nat
  t : Nat
  flds : List (Nat × Nat)
  strs : List (Nat × Nat × Nat × Nat)
  gs : List (Nat × Nat)
  regs : List (Field × Nat)

/-- Its word and its state. -/
def Case.w (c : Case) : Nat := word c.op c.flds
def Case.s (c : Case) : State := gregs c.t c.gs (streams c.t c.strs (runs c.t c.w c.regs))

/-- A word of each long instruction that starts on its engine. -/
def startCases : List Case :=
  [⟨0x20, 5, [(31, 3)], [(0, 0, 1, 2)], [], routed 5⟩,
   ⟨0x21, 5, [(31, 3)], [(0, 0, 1, 2)], [], routed 5⟩,
   ⟨0x40, 1, [], [(0, 0x200000, 1, blockUnits 0 0 false)], [], []⟩,
   ⟨0x41, 1, [], [], [], []⟩,
   ⟨0x44, 1, [(28, 1), (44, 1)], [(0, 0, lineUnits 0 false * 39, 1)], [(1, 8 + 2 ^ 16 + 32 * 2 ^ 32)], []⟩,
   ⟨0x48, 1, [(44, 1)], [(0, 0x400000, 1, 1)], [(1, 1 + 8 * 2 ^ 32)], []⟩,
   ⟨0x60, 4, [(44, 1), (40, 1), (34, 0x10), (8, 1)], [(0, 0, 1, 1), (1, 128, 1, 1)], [(1, 1)], []⟩,
   ⟨0x64, 4, [(44, 1), (12, 1)], [(0, 0, 1, 1), (1, 128, 1, 1)], [(1, 1)], []⟩,
   ⟨0x66, 4, [(44, 1), (40, 2), (36, 3), (21, 1), (13, 2)], [(0, 0, 1, 1), (1, 128, 1, 1), (2, 256, 1, 1), (3, 384, 1, 1)], [(1, 2), (2, 2)], []⟩,
   ⟨0x68, 4, [(44, 1), (39, 1), (20, 1)], [(0, 0, 1, 1), (1, 128, 1, 1)], [(1, 1)], []⟩,
   ⟨0x6A, 4, [(44, 1), (40, 2), (27, 1)], [(0, 0, 1, 1), (1, 128, 1, 1), (2, 256, 1, 1)], [(1, 1)], []⟩,
   ⟨0x6C, 4, [(44, 1), (40, 2)], [(0, 0, 1, 1), (1, 128, 1, 6), (2, 1024, 1, 1)], [], []⟩,
   ⟨0x6E, 4, [], [(0, 0, 1, 1)], [], []⟩,
   ⟨0x80, 5, [], [], [], []⟩,
   ⟨0x81, 5, [], [], [], []⟩,
   ⟨0x84, 5, [(39, 3), (44, 1)], [(0, 0, 1, 1)], [(1, 32)], routed 5⟩,
   ⟨0x85, 5, [(39, 3), (44, 1)], [(0, 0, 1, 1)], [(1, 32)], routed 5⟩,
   ⟨0x88, 5, [(44, 1)], [], [(1, 1)], [(Reg.BIL_OWN.OWNER 5 0, 1)]⟩]
/-- A word of each long instruction that a check of issue may stop: its streams are not aligned, or its bank is firmware's. -/
def faultCases : List Case :=
  (startCases.map (fun c => if c.op = 0x88 then { c with regs := [] } else { c with strs := c.strs.map (fun e => (e.1, e.2.1 + 1, e.2.2)) })).filter
    (fun c => c.op ≠ 0x41 ∧ c.op ≠ 0x80 ∧ c.op ≠ 0x81)

/-- A word of each long instruction that may have nothing to do. -/
def emptyCases : List Case :=
  (startCases.filter (fun c => [0x44, 0x48, 0x60, 0x64, 0x66, 0x68, 0x6A, 0x6C, 0x6E, 0x88].contains c.op)).map (fun c =>
    { c with strs := [], gs := [] })

/-- The form of a case. -/
def formOf (c : Case) (p : LongForm → Bool) : Bool := (longForms.find? (fun f => f.op == c.op)).any p

theorem wit_long_start : startCases.map (·.op) = longForms.map (·.op) ∧
    startCases.all (fun c => executes c.s c.t c.w && wOp c.w == c.op) = true ∧
    startCases.all (fun c => formOf c (fun f => f.fault c.s c.t c.w == none && !f.empty c.s c.t c.w)) = true := by decide +kernel

theorem wit_long_fault : faultCases.all (fun c => executes c.s c.t c.w && formOf c (fun f => (f.fault c.s c.t c.w).isSome)) = true := by
  decide +kernel

theorem wit_long_empty : emptyCases.all (fun c => executes c.s c.t c.w && formOf c (fun f => f.fault c.s c.t c.w == none && f.empty c.s c.t c.w)) =
    true := by decide +kernel

/-- PEEK of queue 3 to g1 and g2. -/
def peekWord : Nat := word 0x22 [(31, 3), (44, 1), (36, 2)]

/-- A flit waits in queue 3 of tile 5, which leads from Local to Local. -/
def headed (w : Nat) : State :=
  (runs 5 w (routed 5 ++ [(Reg.GRD_QD_A.DEPTH 5 3, 4)])).setQueue 5 3 { Queue.reset with held := [⟨0, 0, .data, 0⟩], tail := 1, nextSeq := 1 }

theorem wit_peek : executes (headed peekWord) 5 peekWord = true ∧ (headed peekWord).localOut 5 3 = true ∧
    (headed peekWord).headFor 5 3 4 = some ⟨0, 0, .data, 0⟩ ∧ executes (runs 5 peekWord (routed 5)) 5 peekWord = true ∧
    (runs 5 peekWord (routed 5)).headFor 5 3 4 = none ∧ bits peekWord 31 5 = 3 := by decide +kernel

/-- QUENCH. -/
def quenchWord : Nat := word 0x31 []

theorem wit_quench : executes (runs 5 quenchWord []) 5 quenchWord = true ∧ (runs 5 quenchWord []).moversQuiet 5 = true ∧
    (runs 5 quenchWord []).quenchOver 5 = true ∧ executes (headed quenchWord) 5 quenchWord = true ∧ (headed quenchWord).quenchOver 5 = false ∧
    executes (runs 5 quenchWord [(Reg.SEQ_STATUS.BUSY 5, 2)]) 5 quenchWord = true ∧
    (runs 5 quenchWord [(Reg.SEQ_STATUS.BUSY 5, 2)]).enginesIdle 5 7 = false := by decide +kernel

/-- The environment of a unit that meets no error. -/
def clean : UnitEnv := ⟨1, 0, .clean, .clean, 0, []⟩

/-- Engine `e` of tile `t` runs the word `w` with the values `ops` over streams. -/
def working (t e w : Nat) (ops : List DWord) (strs : List (Nat × Nat × Nat × Nat)) (l : List (Field × Nat)) : State :=
  (streams t strs (runs t 0 ([(Reg.SEQ_STATUS.BUSY t, 2 ^ e)] ++ l))).setReg64 (Reg.SEQ_INST t e 0) w |>.setEngine t e ⟨0, ops, BitVec.ofNat 64 w, []⟩

/-- RECV from queue 3 to stream 0 with its count in g1. -/
def recvWord : Nat := word 0x20 [(31, 3), (44, 1), (24, 1)]

/-- SEND of stream 0 to queue 3. -/
def sendWord : Nat := word 0x21 [(31, 3)]

/-- The banks of tile 5 are the program's. -/
def owned : List (Field × Nat) := (List.range 4).map (fun b => (Reg.BIL_OWN.OWNER 5 b, 1))

def receiving (n : Nat) : State :=
  (working 5 0 recvWord [] [(0, 0, 1, n)] (routed 5 ++ owned ++ [(Reg.GRD_QD_A.DEPTH 5 3, 4)])).setQueue 5 3
    { Queue.reset with held := [⟨0, 0, .data, 0⟩], tail := 1, nextSeq := 1 }

def sending (n : Nat) : State := working 5 1 sendWord [] [(0, 0, 1, n)] (routed 5 ++ owned ++ [(Reg.GRD_QD_A.DEPTH 5 3, 4)])

theorem wit_recv_unit : (receiving 1).gridLive = true ∧ (receiving 1).tileWorks 5 = true ∧ (receiving 1).engineBusy 5 0 = true ∧
    (receiving 1).heldWord 5 0 = recvWord ∧ wOp recvWord = 0x20 ∧ (receiving 1).headFor 5 3 4 = some ⟨0, 0, .data, 0⟩ ∧
    (receiving 1).sLen 5 0 = 1 ∧ (receiving 2).sLen 5 0 = 2 ∧ (receiving 1).progWaitsWrite 5 0 = false ∧
    (receiving 1).progRefused 5 0 false = false := by decide +kernel

theorem wit_send_unit : (sending 1).gridLive = true ∧ (sending 1).tileWorks 5 = true ∧ (sending 1).engineBusy 5 1 = true ∧
    (sending 1).heldWord 5 1 = sendWord ∧ wOp sendWord = 0x21 ∧ (sending 1).noRoom 5 3 = false ∧ (sending 1).sLen 5 0 = 1 ∧
    (sending 2).sLen 5 0 = 2 ∧ (sending 1).progWaits 5 0 = false ∧ (sending 1).progRefused 5 0 true = false ∧
    (sending 1).failedBank 5 0 = false := by decide +kernel

/-- RNG to stream 0 of tile 4. -/
def generating : State := working 4 3 (word 0x6E []) [7, 9] [(0, 0, 1, 2)] []

/-- BRD of address 8 to g1 in tile 5. -/
def reading : State := working 5 2 (word 0x80 [(44, 1)]) [8] [] owned

theorem wit_rng_and_brd_units : generating.gridLive = true ∧ generating.tileWorks 4 = true ∧ tileType 4 = 1 ∧ generating.engineBusy 4 3 = true ∧
    generating.heldWord 4 3 = word 0x6E [] ∧ reading.gridLive = true ∧ reading.tileWorks 5 = true ∧ tileType 5 = 2 ∧
    reading.engineBusy 5 2 = true ∧ reading.heldWord 5 2 = word 0x80 [(44, 1)] ∧ reading.op 5 2 0 % 8 = 0 ∧
    windowOf (reading.op 5 2 0) = some (.direct, 8) ∧ Window.direct ≠ .owner ∧ clean.ecc = .clean ∧ clean.overlap = [] ∧ reading.bankLocked 5 (bankOf 8) = false ∧ reading.progRefused 5 8 true = false ∧
    reading.failedBank 5 (bankOf 8) = false := by decide +kernel

theorem wit_banks : tileType 5 = 2 ∧ up.live = true ∧ up.reg64 (Reg.BIL_MARCH_MASK_LO 5) = 0 ∧ (up.tile 5).fwMarch = none ∧ ownerCodeOk 0x7F = true ∧ ownerCodeOk 0 = true ∧
    (List.range 48).all (fun b => !up.bankLocked 5 b && !up.failedBank 5 b) = true ∧
    (put [(Reg.BIL_REPAIR.FAILED 5 2, 1)] up).failedBank 5 2 = true ∧
    (up.modTile 5 (fun x => { x with fwMarch := some ⟨0, 4, 0, 0, false⟩ })).bankLocked 5 2 = true := by decide +kernel

/-- Bank 2 of tile 5 is mover 3's for partition 0. -/
def movers2 : State := mod (on ++ [(Reg.BIL_OWN.OWNER 5 2, 0x43), (Reg.BIL_OWN.PART 5 2, 0)])

theorem wit_port_access : movers2.live = true ∧ (movers2.mover 3).job.any (·.phys) = false ∧ movers2.moverPart 3 = some 0 ∧ movers2.partOf 5 = some 0 ∧
    windowOf 0x2FFF8 = some (.direct, 0x2FFF8) ∧ windowOf (0x2FFF8 + 8 - 1) = some (.direct, 0x2FFFF) ∧ bankOf 0x2FFFF = bankOf 0x2FFF8 ∧
    bankOf 0x2FFF8 = 2 ∧ movers2.bankLocked 5 2 = false ∧ movers2.bankLegal 5 2 (0x40 + 3) (some 0) true = true ∧ movers2.failedBank 5 2 = false ∧
    movers2.bankLegal 5 2 (0x40 + 3) (some 0) false = true ∧ (mod on).bankLegal 5 2 (0x40 + 3) (some 0) true = false ∧
    (mod on).flag (Reg.PRT_P_STAT.RES_VALID 0) = true := by decide +kernel

theorem wit_window_access : up.live = true ∧ (List.replicate 8 (1 : Byte)) ≠ [] ∧ 0xFFF8 + 8 ≤ 0x10000 ∧ 240 * 0x2000000 ≤ 0x1E0000000 := by
  decide +kernel

/-! ## Witnesses: movers, memory and experts -/

/-- A word of each mover instruction: XFM or OP at bit 5. -/
def moveWord (f : MoveForm) : Nat := word f.op [(5, f.xfm.getD 0)]

/-- Stream 0 of bay 0 is VALID with 4 entries. -/
def streamed : List (Field × Nat) :=
  [(Reg.MOV_STR_A_CFG.VALID 0 0, 1), (Reg.MOV_STR_A_CFG.SLOTS 0 0, 3), (Reg.MOV_STR_A_CFG.SLOTUNITS 0 0, 1),
    (Reg.MOV_STR_A_LIST_HI.NENT 0 0, 4), (Reg.MOV_CTRL.SCHED_EN 0, 1), (Reg.MOV_STR_STAT.STATE 0 0, 1)]

/-- Mover 0 holds `n` commands. -/
def queued (n : Nat) (s : State) : State :=
  s.modMover 0 (fun x => { x with queue := List.replicate n ⟨0xA0, 0, 0, false, false, false, false, 0, 0, 1, 0, 0, 0⟩ })

/-- The register that gives AUX: g1 for DIAG, which needs one, and g0 otherwise. -/
def auxOf (f : MoveForm) : Nat := if f.xfm = some 2 ∧ f.op = 0xA0 then 1 else 0

/-- A move form runs in tile 0 of a state with DIAG's AUX in g1. -/
def moves (f : MoveForm) (n : Nat) : State :=
  queued n ((runs 0 (word f.op [(5, f.xfm.getD 0), (18, auxOf f)]) streamed).setReg64 (Reg.SEQ_G 0 1 0) 4)

theorem wit_mover_forms : [0, 1, 7, 8].all (fun n => moveForms.all (fun f =>
    let w := word f.op [(5, f.xfm.getD 0), (18, auxOf f)]
    executes (moves f n) 0 w && wOp w == f.op && (f.xfm.all (· == wXfm w)) && (moves f n).cmdCheck 0 ((moves f n).cmdOf 0 w) == none &&
      wMover 0 w == 0 && ((moves f n).mover 0).queue.length == n)) = true := by decide +kernel

theorem wit_mover_check : executes (runs 0 (word 0xA2 [(5, 1)]) []) 0 (word 0xA2 [(5, 1)]) = true ∧
    (runs 0 (word 0xA2 [(5, 1)]) []).cmdCheck 0 ((runs 0 (word 0xA2 [(5, 1)]) []).cmdOf 0 (word 0xA2 [(5, 1)])) = some 5 := by decide +kernel

theorem wit_mover_start : (queued 1 (mod on)).moverWorks 0 = true ∧ ((queued 1 (mod on)).mover 0).inflight.length < 8 ∧
    (queued 1 (mod on)).nextUnit 0 = some 0 ∧ (queued 1 (mod on)).strWinner 0 = none := by decide +kernel

/-- An I/O-die mover copies line 0 of bay 0's stack to line 8; its lines are in the Hearth cache. -/
def copying : State :=
  (mod hot).modMover 48 (fun x => { x with
    queue := [⟨0xA0, 0, 0, false, false, false, false, 0, 1024, 2, 0, 0, 0⟩]
    inflight := [.command 0, .command 1]
    job := some ⟨0, 0, 0, true, 0, none⟩
    work := { Work.reset with used := 1 } })

theorem wit_mover_complete : copying.gridLive = true ∧ (copying.mover 48).job = some ⟨0, 0, 0, true, 0, none⟩ ∧
    (copying.mover 48).queue = [⟨0xA0, 0, 0, false, false, false, false, 0, 1024, 2, 0, 0, 0⟩] ∧
    (copying.mover 48).inflight = .command 0 :: [.command 1] ∧ (copying.mover 48).work = { Work.reset with used := 1 } ∧
    copying.unitWaits 48 = false ∧ copying.homeOf ((0 + 128 * 0) % 2 ^ 56) = .hot 0 0 ∧
    copying.homeOf ((1024 + 128 * 0) % 2 ^ 56) = .hot 0 1024 ∧ copying.tierUp (unitHot 0) = true := by decide +kernel

/-- A command of count 0 with a notice on queue 3 is the only one of mover 0. -/
def emptied : State :=
  (mod (on ++ routed 0 ++ [(Reg.GRD_QD_A.DEPTH 0 3, 4)])).modMover 0 (fun x => { x with queue := [⟨0xA0, 0, 3, true, false, false, false, 0, 0, 0, 0, 0, 0⟩] })

theorem wit_zero_count : emptied.moverRuns 0 = true ∧ (emptied.mover 0).queue = [⟨0xA0, 0, 3, true, false, false, false, 0, 0, 0, 0, 0, 0⟩] ∧
    cmdEmpty ⟨0xA0, 0, 3, true, false, false, false, 0, 0, 0, 0, 0, 0⟩ = true ∧
    emptied.refuse (moverTile 0) 3 4 = none ∧ emptied.noRoom (moverTile 0) 3 = false := by decide +kernel

/-- Ring 0 holds a COPY of one unit at address 0. -/
def rung : State :=
  (((({ up with ringTail := #v[1, 0, 0, 0] } : State).writeNum 0 1 0xA0).writeNum 24 8 1))

theorem wit_ring_descriptor : rung.gridLive = true ∧ (rung.mover 48).job = none ∧ rung.ringNext.toList.getD 0 0 = 0 ∧
    rung.ringTail.toList.getD 0 0 = 1 ∧ rung.ringIdle 0 = true ∧ rung.fillingIn (rung.ringBase 0 + 64 * (0 % 2 ^
      rung.fld (Reg.TIER_IORING_BASE_HI.LOG2N 0))) 64 = false ∧ descBad (descCmd (rung.bytes (rung.ringBase 0 + 64 * (0 % 2 ^
      rung.fld (Reg.TIER_IORING_BASE_HI.LOG2N 0))) 64)) false = false ∧
    cmdEmpty (descCmd (rung.bytes (rung.ringBase 0 + 64 * (0 % 2 ^ rung.fld (Reg.TIER_IORING_BASE_HI.LOG2N 0))) 64)) = false := by decide +kernel

/-- The page of VA 0 of partition 0 is cached, and the list there names an entry of one unit. -/
def listed : State :=
  ({ mod (on ++ hot ++ streamed) with tlb1 := [(0, [⟨0, 0, 30, 0x1F⟩])], tlb2 := [⟨0, 0, 30, 0x1F⟩] } : State).writeNum 8 2 1

/-- What starting an entry finds, without the state. -/
def found (x : Except Stop (ItemKind × Forming)) : Option ItemKind :=
  match x with
  | .ok r => some r.1
  | .error _ => none

theorem wit_stream_entry : listed.bayPart 0 = some 0 ∧ listed.running 0 = true ∧ listed.granted 0 = true ∧ (listed.stream 0 0).redo = [] ∧
    (List.range 4).all (fun i => (listed.mover i).queue.isEmpty) = true ∧
    (List.range 16).all (fun k => (listed.stream 0 k).started.isEmpty) = true ∧ listed.strWinner 0 = some 0 ∧ listed.idlest 0 = 0 ∧
    (listed.mover 0).inflight.length < 8 ∧ listed.cmdFirst 0 (listed.strDeadline 0 0) = false ∧
    found (runU (U.startItem 0 0 0) ⟨0, 0, false, false, false⟩ .quiet listed) = some .tile := by decide +kernel

/-- A release of `k` slots waits in queue 3 of tile 0, and the stream has two filled. -/
def releasing (k : Nat) : State :=
  ((mod (on ++ streamed ++ routed 0 ++ [(Reg.MOV_STR_A_CFG.RQ 0 0, 3), (Reg.MOV_STR_STAT.FILLED 0 0, 2), (Reg.GRD_QD_A.DEPTH 0 3, 4)])).setQueue 0 3
    { Queue.reset with held := [⟨0, 0, .data, 0⟩], tail := 1, nextSeq := 1 }).writeNum (slotAt 0 0) 2 k

theorem wit_stream_release : (releasing 2).bayPart 0 = some 0 ∧ (releasing 2).running 0 = true ∧
    (releasing 2).flag (Reg.MOV_STR_A_CFG.VALID 0 0) = true ∧ (releasing 2).fld (Reg.MOV_STR_A_CFG.RQ 0 0) = 3 ∧
    (releasing 2).headFor 0 3 4 = some ⟨0, 0, .data, 0⟩ ∧ ((releasing 2).payloadOf 0 ⟨0, 0, .data, 0⟩).toNat % 2 ^ 16 = 2 ∧
    (releasing 2).strFilled 0 0 = 2 ∧ ((releasing 3).payloadOf 0 ⟨0, 0, .data, 0⟩).toNat % 2 ^ 16 = 3 := by decide +kernel

/-- Partition 0's tables stand at 0x1000: VA 0 has the level 2 entry `e`; its descriptor ring of 1 GiB frames has one frame. -/
def paged (e : Nat) : State :=
  ((((((({ mod (on ++ hot ++ [(Reg.XLT_CTRL.DEMAND_EN, 1)]) with walks := [⟨.fill, 0, 0x1001, 0, 0, .read, [], false⟩] } : State).setReg64
    (Reg.XLT_PTBASE_LO 0) 0x1001).writeNum 0x1000 8 0x2001).writeNum 0x2000 8 e).setReg64 (Reg.XLT_RCB_LO 0) 0x3000).writeNum 0x3020 6
    0x4000).writeNum 0x302C 4 1)

/-- How a walk ends: 0 a fault, 1 absent, 2 present. -/
def endKind : WalkEnd → Nat
  | .fault _ => 0
  | .absent _ _ _ => 1
  | .present _ _ => 2

/-- The walk of VA 0 for `who`. -/
def walk0 (who : Walker) : Walk := ⟨who, 0, 0x1001, 0, 0, .read, [], false⟩

theorem wit_walk : (paged 3).gridLive = true ∧ (paged 3).walks.find? (paged 3).canWalk = some (walk0 .fill) ∧
    (paged 3).tableOf (walk0 .fill) = 0x1001 ∧
    endKind ((paged 3).walkTable 0x1001 0) = 2 ∧ endKind ((paged 0).walkTable 0x1001 0) = 0 ∧
    endKind ((paged (0x400000000000 + 0x22)).walkTable 0x1001 0) = 1 ∧
    (paged (0x400000000000 + 0x22)).walks.find? (paged (0x400000000000 + 0x22)).canWalk = some (walk0 .fill) ∧
    (paged (0x400000000000 + 0x22)).fetchAt 0x2000 = none ∧ (paged (0x400000000000 + 0x22)).fetches = [] ∧
    (paged (0x400000000000 + 0x22)).rcb 0 = 0x3000 ∧
    (paged (0x400000000000 + 0x22)).num (0x3020 + 8) 4 ≠ (paged (0x400000000000 + 0x22)).num (0x3020 + 12) 4 ∧
    ({ paged 0 with walks := [walk0 (.mover 3)] } : State).walks.find?
      ({ paged 0 with walks := [walk0 (.mover 3)] } : State).canWalk = some (walk0 (.mover 3)) ∧
    (paged 0).flag (Reg.PRT_P_STAT.RES_VALID 0) = true := by decide +kernel

/-- A fetch of a 64 KiB page of warm port 0 to the frame at 0x10000 with its leaf at 0x2000 and its descriptor at 0x4000. -/
def fetching : State :=
  ({ mod (on ++ hot ++ [(Reg.TIER_UNIT.STATE (unitWarm 0), 2), (Reg.TIER_WARM_CAP.MIB 0, 1)]) with
    fetches := [⟨0, 0, 16, 0x2000, 0x10000000022, 0x4000, 0x10000, [], false⟩] } : State).writeNum 0x2000 8 0x10000000022

theorem wit_fetch : Memory.wf fetching.mem = true ∧ Sparse.wf regReset fetching.regs = true ∧ Memory.wf fetching.flash = true ∧
    fetching.fetches[0]? = some ⟨0, 0, 16, 0x2000, 0x10000000022, 0x4000, 0x10000, [], false⟩ ∧ fetching.gridLive = true ∧
    fetching.fillingIn 0x2000 8 = false ∧ fetching.homeUp (fetching.homeOf (leafAddr 0x10000000022)) = true ∧ 0x2000 + 8 ≤ 0x10000 ∧ fetching.num 0x2000 8 = 0x10000000022 ∧
    0x4000 + 16 ≤ 0x10000 := by decide +kernel

theorem wit_invalidate : (bitOf 0x80000000 31 = true ∧ bits 0x80000000 24 2 ∈ [0, 3]) ∧ (bitOf 0x83000000 31 = true ∧ bits 0x83000000 24 2 ∈ [0, 3]) ∧
    bits 0x81000000 24 2 ∈ [1] ∧ bits 0x82000000 24 2 ∈ [2] ∧ up.flag Reg.XLT_STATUS.INV_BUSY = false ∧
    ({ up with inval := some ⟨0, 0, 0, 0, []⟩ } : State).inval = some ⟨0, 0, 0, 0, []⟩ ∧
    ({ up with inval := some ⟨0, 0, 0, 0, [48]⟩ } : State).inval = some ⟨0, 0, 0, 0, [48]⟩ ∧
    ({ up with hearthFills := [⟨0, 5, 0, []⟩] } : State).hearthFills.find? (·.bay == 0) = some ⟨0, 5, 0, []⟩ ∧ up.gridLive = true ∧ up.live = true ∧
    up.outstanding = [] := by decide +kernel

/-- Expert 0 of partition 0 is looked up; its entry at 0 has a region of two 64 KiB pages and state `k`. -/
def looked (k : Nat) (c : Bool) : State :=
  ((({ up with lookups := [⟨0, 0, c, false, false⟩] } : State).writeNum 0 8 0x10000).writeNum 8 2 2).writeNum 11 1 k

theorem wit_lookup : (looked 1 false).lookups.findIdx? (fun l => !l.claimed) = some 0 ∧ (looked 1 false).gridLive = true ∧
    (looked 1 false).lookups[0]? = some ⟨0, 0, false, false, false⟩ ∧ (looked 1 false).fillingIn 0 32 = false ∧ (looked 1 false).num 0 8 = 0x10000 ∧ (looked 1 false).num 8 2 = 2 ∧ (looked 1 false).num 10 1 = 0 ∧
    (looked 1 false).num 11 1 = 1 ∧ (looked 0 false).num 11 1 = 0 ∧ (looked 2 false).num 11 1 = 2 ∧ (looked 1 false).num 12 1 / 2 = 0 ∧
    (looked 1 false).num 13 3 = 0 ∧ 0x10000 % 2 ^ 16 = 0 := by decide +kernel

theorem wit_lookup_close : (looked 2 true).lookups[0]? = some ⟨0, 0, true, false, false⟩ ∧ (looked 2 true).earlyBusy ⟨0, 0, true, false, false⟩ = false ∧
    (looked 2 true).num 11 1 = 2 ∧ (looked 0 true).num 11 1 ≠ 2 := by decide +kernel

/-! ## Witnesses: enabling and disabling -/

theorem wit_enable : bitOf 1 0 = true ∧ bitOf 2 1 = true ∧ bitOf 1 1 = false ∧ bitOf 2 0 = false ∧ tierUnit (.stack 0) = some 0 ∧
    tierUnit (.warm 7) = some 23 ∧ tierUnit (.cold 1) = some 25 ∧ up.live = true ∧ bits 1 29 3 = 0 ∧ up.partState 0 = 0 ∧ up.baysBad 0 = true ∧
    (mod [(Reg.PRT_P_BAYS.COUNT 0, 12)]).baysBad 0 = false ∧ (mod on).partState 0 = 2 ∧ (mod on).switching 0 = false ∧
    (mod [(Reg.PRT_P_BAYS.COUNT 0, 12)]).marching 0 = false ∧ (mod on).partFirst 0 + (mod on).partCount 0 ≤ 12 ∧ (mod (on ++ [(Reg.PRT_P_STAT.SWITCH 0, 1)])).switching 0 = true ∧
    (∀ c ∈ (mod on).collectives, c.mover < 64) := by decide +kernel

theorem wit_work_ends : (mod [(Reg.MSH_PORT_STAT.STATE 0, 1)]).fld (Reg.MSH_PORT_STAT.STATE 0) = 1 ∧
    (mod [(Reg.MSH_PORT_STAT.STATE 0, 3)]).fld (Reg.MSH_PORT_STAT.STATE 0) = 3 ∧
    (mod [(Reg.MSH_PORT_STAT.STATE 0, 3)]).mayStop 0 = true ∧ (up.part 0).clearLate = false ∧ (mod [(Reg.TIER_UNIT.STATE 0, 1)]).tierState (unitHot 0) = 1 ∧
    tierUnit (.warm 0) = some (unitCxl 0) ∧ (mod [(Reg.TIER_UNIT.STATE 16, 1)]).tierState (unitCxl 0) = 1 ∧ (mod [(Reg.TIER_UNIT.STATE 16, 1)]).inTime (unitCxl 0) = true ∧
    linkOk 16 64 = true ∧
    endedWell .failed = false ∧ (mod [(Reg.PRT_P_STAT.STATE 0, 1)]).partState 0 = 1 ∧ endedWell (.done 16 64 true 0) = true ∧
    (mod [(Reg.PRT_P_STAT.STATE 0, 1)]).flag (Reg.PRT_P_STAT.DISABLE_PENDING 0) = false ∧ up.live = true := by decide +kernel

/-! ## Witnesses: the ports -/

/-- Port 0 is ON with the given hidden state. -/
def ported (x : LipinPort) (l : List (Field × Nat)) : State := (mod ([(Reg.MSH_PORT_STAT.STATE 0, 2)] ++ l)).setPort 0 x

/-- A DATA frame with SEQ 0 whose ACK is 4,095. -/
def dataFrame : Frame := { frame0 with ack := 4095 }

/-- A port that has sent a frame which is not acknowledged. -/
def waitingPort : LipinPort := { LipinPort.reset with txSeq := 1, replay := [frame0] }

theorem wit_frames : (ported LipinPort.reset []).carries 0 = true ∧ ((ported LipinPort.reset []).port 0).queued = [] ∧ dataFrame.type = 0 ∧
    ((ported LipinPort.reset []).port 0).resuming = false ∧
    dataFrame.seq = ((ported LipinPort.reset []).port 0).rxSeq ∧ ((ported LipinPort.reset []).port 0).ackedBy dataFrame.ack = some 0 ∧
    ((ported LipinPort.reset []).port 0).holds 0 < (ported LipinPort.reset []).fld (Reg.MSH_VCCRD.FRAMES 0) ∧
    (ported waitingPort []).carries 0 = true ∧ ((ported waitingPort []).port 0).ackedBy 4095 = some 0 ∧
    0 < ((ported waitingPort []).port 0).replay.length ∧ ((ported waitingPort []).port 0).replay ≠ [] ∧
    ((ported waitingPort []).port 0).ackedBy 0 = some 1 ∧ (ported waitingPort []).fcycles < ((ported waitingPort []).port 0).since + 1800 ∧
    ((ported waitingPort []).port 0).since + 1800 ≤ ({ ported waitingPort [] with fcycles := 1800 } : State).fcycles := by decide +kernel

theorem wit_retrain : (ported { LipinPort.reset with failed := 2 } [(Reg.MSH_PORT_STAT.RETRAINING 0, 1)]).portOn 0 = true ∧
    (ported { LipinPort.reset with failed := 2 } [(Reg.MSH_PORT_STAT.RETRAINING 0, 1)]).flag (Reg.MSH_PORT_STAT.RETRAINING 0) = true ∧
    ((ported { LipinPort.reset with resuming := true } []).port 0).queued = [] ∧
    (ported { LipinPort.reset with resuming := true } []).carries 0 = true ∧ { dataFrame with type := 2 }.type = 2 ∧
    ((ported { LipinPort.reset with resuming := true } []).port 0).ackedBy { dataFrame with type := 2 }.ack = some 0 := by decide +kernel

/-- A packet from logical index 1 that waits in port 0. -/
def packet (vc kind epoch tag info : Nat) (body : List Byte) : Packet := ⟨vc, packetPayloads (packetHeader 0 1 kind epoch tag info ++ body), 5, false⟩

def arrived (p : Packet) (l : List (Field × Nat)) : State := ported { LipinPort.reset with packets := [p] } l

/-- A write of the bytes 1, 2 to offset 256 of the slot, and a read of 64 bytes. -/
def writeRequest : Packet := packet 0 1 0 7 256 (natLE 2 1 ++ natLE 2 2 ++ natLE 12 0 ++ [1, 2])
def readRequest : Packet := packet 4 1 0 7 256 (natLE 2 0 ++ natLE 2 64)
def addRequest : Packet := packet 0 1 0 7 256 (natLE 2 2 ++ natLE 2 8 ++ natLE 12 0 ++ natLE 8 3)

theorem wit_requests_served : (arrived writeRequest hot).firstPacket 0 (fun p => p.kind == 1 && (p.vc == 0 || p.vc == 4)) = some writeRequest ∧
    (arrived writeRequest hot).homeOf ((arrived writeRequest hot).ownSlot * 2 ^ 54 + writeRequest.info % 2 ^ 54) = .hot 0 256 ∧ 256 % 8 = 0 ∧
    (arrived writeRequest hot).fillingIn (writeRequest.info % 2 ^ 54) (opLen (bodyOp writeRequest.body)) = false ∧
    ({ arrived writeRequest hot with hearthFills := [⟨0, 2, 0, []⟩] } : State).fillingIn (writeRequest.info % 2 ^ 54)
      (opLen (bodyOp writeRequest.body)) = true ∧
    (arrived writeRequest hot).tierUp (unitHot 0) = true ∧ (arrived writeRequest []).tierUp (unitHot 0) = false ∧
    bodyOp writeRequest.body = .write [1, 2] ∧
    (arrived readRequest hot).firstPacket 0 (fun p => p.kind == 1 && (p.vc == 0 || p.vc == 4)) = some readRequest ∧
    bodyOp readRequest.body = .read 64 ∧
    (arrived addRequest hot).firstPacket 0 (fun p => p.kind == 1 && (p.vc == 0 || p.vc == 4)) = some addRequest ∧
    bodyOp addRequest.body = .atomicAdd 3 := by decide +kernel

/-- A response of success with four bytes to tag 7. -/
def response : Packet := packet 0 2 0 7 0 (natLE 2 0 ++ natLE 2 4 ++ natLE 12 0 ++ [1, 2, 3, 4])

/-- Mover 48's read has been outstanding since tick 0. -/
def asked : Outstanding := ⟨7, 16, 1, true, .mover 48, 256, .read 4, 0⟩

theorem wit_responses : (arrived response []).firstPacket 0 (fun p => p.kind == 2 && (p.vc == 0 || p.vc == 4)) = some response ∧
    (arrived response []).outstanding = [] ∧ (List.range 64).all (fun l => ((arrived response []).log l).accepting.isNone) = true ∧
    (arrived response []).tagOut response.tag = none ∧ ({ arrived response [] with outstanding := [asked] } : State).tagOut response.tag = some asked ∧
    asked.sent = true ∧ asked.issuer = .mover 48 ∧ leNat (response.body.take 2) = 0 ∧
    ({ arrived response [] with outstanding := [{ asked with issuer := .firmware }] } : State).tagOut response.tag =
      some { asked with issuer := .firmware } ∧ opWrites asked.op = false ∧ 0 < opLen asked.op ∧
    (response.body.drop 16).take (leNat ((response.body.drop 2).take 2)) = [1, 2, 3, 4] ∧
    up.tick < asked.issued.toNat + 1024 * max 1 (up.fld Reg.MSH_CTRL.LS_TO) ∧
    asked.issued.toNat + 1024 * max 1 ((mod bound).fld Reg.MSH_CTRL.LS_TO) ≤ (mod bound).tick := by decide +kernel

/-- A firmware message of 3 bytes on channel 3. -/
def message : Packet := packet 7 4 0 3 0 [5, 6, 7]

/-- A message of 16 bytes on CONTROL. -/
def notice : Packet := packet (ringVc 1) 4 0 16 0 (natLE 16 1)

/-- One message of 3 bytes waits in transmit ring 0, at 4,096, and the ring's TAIL is past it. -/
def kicked : State := (mod (hot ++ [(Reg.MSH_MSG_TAIL.INDEX 0 0, 1)])).writeNum ((mod hot).msgSlot 0 0 0 + 2) 2 3

/-- Eight messages of a ring of eight wait. -/
def fullRing : State := arrived message [(Reg.MSH_MSG_HEAD.INDEX 3 1, 2 ^ 15)]

theorem wit_message : (arrived message []).firstPacket 0 (fun p => p.kind == 4 && p.vc == ringVc 3) = some message ∧
    (arrived message []).ringFull 3 = false ∧ fullRing.ringFull 3 = true ∧
    fullRing.firstPacket 0 (fun p => p.kind == 4 && p.vc == ringVc 3) = some message ∧
    (mod [(Reg.SLG_CTRL.VERDICT_EN, 0)]).flag Reg.SLG_CTRL.VERDICT_EN = false ∧
    (arrived notice []).firstPacket 0 (fun p => p.kind == 4 && p.vc == ringVc 1) = some notice ∧ notice.tag = 16 ∧
    (arrived notice []).ringFull 1 = false ∧ (arrived notice []).live = true ∧
    kicked.live = true ∧ bitOf 4 2 = true ∧ bitOf 0 2 = false ∧
    kicked.fld (Reg.MSH_MSG_TAIL.INDEX 0 0) = (kicked.fld (Reg.MSH_MSG_HEAD.INDEX 0 0) + 1) % 2 ^ 16 ∧
    kicked.num (kicked.msgSlot 0 0 0 + 2) 2 = 3 ∧
    (List.range 4).all (fun c => c == 0 || kicked.fld (Reg.MSH_MSG_HEAD.INDEX c 0) == kicked.fld (Reg.MSH_MSG_TAIL.INDEX c 0)) = true := by
  decide +kernel

/-- A collective packet of group 0, step 1, SEQ 0 with two bytes at 0. -/
def contribution : Packet := packet 2 3 0 0 1 (natLE 8 0 ++ natLE 4 2 ++ natLE 4 0 ++ [1, 2])
/-- The header of a SENDTO with the same key. -/
def heading : Packet := packet 2 3 0 (2 ^ 31) 1 (natLE 8 0 ++ natLE 4 16 ++ natLE 4 0 ++ natLE 1 5 ++ natLE 15 0)

/-- An all-gather of one member that waits for nothing. -/
def gathering : Collective := ⟨0, 48, 0x1000, 0, 1, 0, 1, 0, 0, 0, 0, 0, 0, 0, 0, 2, 0, 0, none, 0, 0, [], false, none⟩

theorem wit_contribution : (arrived contribution []).firstPacket 0 (fun p => p.kind == 3 && p.vc == 2) = some contribution ∧
    contribution.epoch = (arrived contribution []).fld (Reg.MSH_P_CTRL.EPOCH 0) ∧
    contribution.epoch ≠ (arrived contribution [(Reg.MSH_P_CTRL.EPOCH 0, 1)]).fld (Reg.MSH_P_CTRL.EPOCH 0) ∧
    ({ arrived contribution [] with collectives := [gathering] } : State).coll (contribution.contribution 0).key = some gathering ∧
    ({ arrived contribution [] with collectives := [{ gathering with abort := some true }] } : State).coll (contribution.contribution 0).key =
      some { gathering with abort := some true } ∧
    ({ arrived contribution [] with collectives := [gathering] } : State).disagrees { gathering with got := [contribution.contribution 0] } = false ∧
    gathering.kind ≠ 3 ∧ gathering.abort = none ∧
    ({ arrived heading [] with collectives := [gathering] } : State).coll (heading.contribution 0).key = some gathering ∧
    ({ arrived heading [] with collectives := [gathering] } : State).disagrees { gathering with got := [heading.contribution 0] } = true ∧
    (arrived heading []).firstPacket 0 (fun p => p.kind == 3 && p.vc == 2) = some heading ∧
    (arrived contribution []).coll (contribution.contribution 0).key = none ∧
    (arrived contribution []).collRecords.any (·.key == (contribution.contribution 0).key) = false ∧
    ({ arrived contribution [] with collRecords := [⟨0, 0, 1, 0, false⟩] } : State).collRecords.any
      (·.key == (contribution.contribution 0).key) = true ∧
    (arrived contribution [(Reg.MSH_P_STAGE_LO.BASE 0, 1)]).stageBase 0 ≠ 0 ∧
    (arrived contribution [(Reg.MSH_P_STAGE_LO.BASE 0, 1)]).stagePlace (contribution.contribution 0) = some 0 := by decide +kernel

/-- Partition 0's VA 0 is a page of 1 GiB at address 0, and a collective without members is complete. -/
def completing : State :=
  ({ paged 0x1F with collectives := [{ gathering with table := 0x1001 }] } : State).setReg (Reg.MSH_COORD) 0

/-- The module is the one member of group 0, has its own unit, and the page at VA 0 lies in slot 1. -/
def sending1 : Collective := { gathering with
  got := [⟨0, 0, 0, 1, 0, true, 0, natLE 8 1 ++ natLE 8 1, 0⟩, ⟨0, 0, 0, 1, 0, false, 0, [9], 0⟩], table := 0x1001 }

/-- All ports are ON. -/
def linksOn : List (Field × Nat) := (List.range 5).map (fun n => (Reg.MSH_PORT_STAT.STATE n, 2))

def spreading : State := put linksOn (({ paged (2 ^ 54 + 0x1F) with collectives := [sending1] } : State).setReg64 (Reg.MSH_GRP_MASK_LO 0) 1)

theorem wit_collective : completing.collectives[0]? = some { gathering with table := 0x1001 } ∧
    completing.collWhole { gathering with table := 0x1001 } = true ∧ gathering.kind ≠ 6 ∧ gathering.abort = none ∧ gathering.written = false ∧
    completing.writesOut gathering.key = false ∧
    (completing.engineWrites gathering.key 48 0 0x1001 (completing.collWrites { gathering with table := 0x1001 })).1 = .done ∧
    (completing.engineWrites gathering.key 48 0 0x1001 [(0x1000 + 56, natLE 8 (2 ^ 63))]).1 = .done ∧
    (completing.engineWrites gathering.key 48 0 0x1001 [(0x1000 + 56, natLE 8 (2 ^ 63 + 1))]).1 ≠ .waits ∧
    ({ completing with outstanding := [{ asked with issuer := .engine gathering.key }] } : State).writesOut gathering.key = true := by
  decide +kernel

theorem wit_collective_far : spreading.collectives[0]? = some sending1 ∧ spreading.collWhole sending1 = true ∧
    spreading.writesOut sending1.key = false ∧
    (spreading.engineWrites sending1.key 48 0 0x1001 (spreading.collWrites sending1)).1 = .done ∧
    (spreading.engineWrites sending1.key 48 0 0x1001 (spreading.collWrites sending1)).2.writesOut sending1.key = true := by decide +kernel

theorem wit_coll_timeout :
    gathering.handed.toNat + 1024 * max 1 ((mod (bound ++ [(Reg.MSH_COLL_TO.STRIKES, 0)])).fld Reg.MSH_COLL_TO.STRIKES) ≤ (mod bound).tick ∧
    up.tick < gathering.handed.toNat + 1024 * max 1 (up.fld Reg.MSH_COLL_TO.STRIKES) ∧
    ({ up with broadcasts := [⟨48, 0, [1], 0, false⟩] } : State).broadcasts[0 - up.collectives.length]? = some ⟨48, 0, [1], 0, false⟩ ∧
    up.collectives[0]? = none ∧ up.live = true ∧ bitOf 0x80000000 31 = true ∧ bitOf 1 31 = false := by decide +kernel

/-- A broadcast packet for the member 0 and one for nobody, and an acknowledgement. -/
def spread (mask : Nat) : Packet := packet 1 5 0 0 0 (natLE 8 mask ++ natLE 8 0 ++ natLE 8 0 ++ natLE 8 2 ++ [1, 2])

/-- The key of the writes of a broadcast packet of source 0. -/
def spreadKey (s : State) (p : Packet) : Nat × Nat × Nat × Nat :=
  (s.groupPart p.group, p.epoch, 2 ^ 48 + p.src, leNat ((p.body.drop 16).take 8))

/-- What serving a broadcast packet writes. -/
def spreadWrites (p : Packet) : List (Nat × List Byte) :=
  [(leNat ((p.body.drop 8).take 8), (p.body.drop 32).take (leNat ((p.body.drop 24).take 8)))]

theorem wit_broadcast : (arrived (spread 1) []).firstPacket 0 (fun p => p.vc == 1 && (p.kind == 5 || p.kind == 2)) = some (spread 1) ∧
    (arrived (spread 1) []).bcastAcks = [] ∧ (spread 1).kind ≠ 2 ∧ bitOf (spread 1).mask (arrived (spread 1) []).ownLogical = true ∧
    (spread 1).epoch = (arrived (spread 1) []).fld (Reg.MSH_P_CTRL.EPOCH ((arrived (spread 1) []).groupPart (spread 1).group)) ∧
    (spread 1).epoch ≠ (arrived (spread 1) [(Reg.MSH_P_CTRL.EPOCH 0, 1)]).fld (Reg.MSH_P_CTRL.EPOCH 0) ∧
    (arrived (spread 1) []).groupPart (spread 1).group = 0 ∧
    bitOf (spread 2).mask (arrived (spread 2) []).ownLogical = false ∧
    (arrived (packet 1 2 0 0 0 []) []).firstPacket 0 (fun p => p.vc == 1 && (p.kind == 5 || p.kind == 2)) = some (packet 1 2 0 0 0 []) ∧
    (packet 1 2 0 0 0 []).kind = 2 ∧
    ((arrived (spread 1) []).engineWrites (spreadKey (arrived (spread 1) []) (spread 1)) 48 0 ((arrived (spread 1) []).ptBase 0)
      (spreadWrites (spread 1))).1 ≠ .done := by decide +kernel

/-- A broadcast packet waits in port 0 where VA 0 is mapped. -/
def spreadIn (e : Nat) (p : Packet) : State := put linksOn ((paged e).setPort 0 { LipinPort.reset with packets := [p] })

/-- The last packet of a unit for member 0. -/
def lastSpread : Packet := packet 1 5 0 (2 ^ 31) 0 (natLE 8 1 ++ natLE 8 0 ++ natLE 8 0 ++ natLE 8 2 ++ [1, 2])

theorem wit_broadcast_written : bitOf (spread 1).tag 31 = false ∧ bitOf lastSpread.tag 31 = true ∧
    ((spreadIn 0x1F lastSpread).engineWrites (spreadKey (spreadIn 0x1F lastSpread) lastSpread) 48 0 ((spreadIn 0x1F lastSpread).ptBase 0)
      (spreadWrites lastSpread)).1 = .done ∧
    ((spreadIn 0x1F lastSpread).engineWrites (spreadKey (spreadIn 0x1F lastSpread) lastSpread) 48 0 ((spreadIn 0x1F lastSpread).ptBase 0)
      (spreadWrites lastSpread)).2.bcastAcks = [] ∧
    ((spreadIn 0x1F lastSpread).engineWrites (spreadKey (spreadIn 0x1F lastSpread) lastSpread) 48 0 ((spreadIn 0x1F lastSpread).ptBase 0)
      (spreadWrites lastSpread)).2.writesOut (spreadKey (spreadIn 0x1F lastSpread) lastSpread) = false ∧
    ((spreadIn (2 ^ 54 + 0x1F) lastSpread).engineWrites (spreadKey (spreadIn 0x1F lastSpread) lastSpread) 48 0
      ((spreadIn (2 ^ 54 + 0x1F) lastSpread).ptBase 0) (spreadWrites lastSpread)).1 = .done ∧
    ((spreadIn (2 ^ 54 + 0x1F) lastSpread).engineWrites (spreadKey (spreadIn 0x1F lastSpread) lastSpread) 48 0
      ((spreadIn (2 ^ 54 + 0x1F) lastSpread).ptBase 0) (spreadWrites lastSpread)).2.writesOut
      (spreadKey (spreadIn 0x1F lastSpread) lastSpread) = true := by decide +kernel

/-! ## Witnesses: serving -/

/-- Firmware reads logs: the host link is up, the journal has 1 MiB and no copy. -/
def serving : List (Field × Nat) := linked ++ [(Reg.SRV_CTRL.ACCEPT_EN, 1), (Reg.SRV_JRNL_SIZE.MIB, 1), (Reg.SRV_STATUS.JMODE, 3), (Reg.SRV_STATUS.RECOVERING, 0),
  (Reg.TIME_STATUS.ALIGNED, 1)]

theorem wit_watch_lines : (mod linked).hostUp = true ∧ ((mod linked).modLog 3 (fun x => { x with outHeld := true })).lineHeld ⟨3, true⟩ = true ∧
    ((mod linked).modLog 3 (fun x => { x with tailFill := true })).lineFilling ⟨3, false⟩ = true ∧
    ((mod linked).modLog 3 (fun x => { x with outFill := true })).lineFilling ⟨3, true⟩ = true := by decide +kernel

/-- A SUBMIT of one prompt token with at most one new one and TOP_P 1, and a CANCEL of request `id`. -/
def submitBytes : List Byte := natLE 24 0 ++ natLE 4 1 ++ natLE 4 1 ++ natLE 12 0 ++ natLE 4 0x3F800000 ++ natLE 208 0
def cancelBytes (id : Nat) : List Byte := natLE 72 1 ++ natLE 4 id ++ natLE 180 0

/-- Log 63 has one descriptor to read, and target 0 is VALID over partition 0, which is ON. -/
def logged (l : List (Field × Nat)) : State :=
  (mod (on ++ serving ++ [(Reg.SRV_LOG_CTL.EN 63, 1), (Reg.SRV_LOG_CTL.OUT_LOG2N 63, 4), (Reg.SRV_TGT.VALID 0, 1), (Reg.SRV_TGT.MAXCTX 0, 1)] ++ l)).modLog 63 (fun x => { x with tail := 1 })

theorem wit_submit : (logged []).mayTake 63 = true ∧ dsc submitBytes 0 1 ≠ 1 ∧ submitFits submitBytes [] [5] .ok = true ∧
    (logged []).ringFree 63 ≠ 0 ∧ ((logged []).modLog 63 (fun x => { x with reserved := (logged []).ringSize 63 })).ringFree 63 = 0 ∧
    ((logged []).modLog 63 (fun x => { x with reserved := (logged []).ringSize 63 })).mayTake 63 = true ∧
    (logged []).badDescriptor 63 submitBytes = false ∧ badSubmit submitBytes [] = false ∧ (logged []).rejectCase submitBytes .ok = 0 ∧
    (logged [(Reg.SRV_TGT.VALID 0, 0)]).rejectCase submitBytes .ok = 1 ∧ (logged []).rejectCase submitBytes .tier = 5 ∧ (logged []).jmode = 3 ∧
    (logged []).freeSlot 131072 0 = some 0 ∧ (logged []).jrnlRoom (1 + (newRequest 63 0 0x7FFE submitBytes [] [5]).acceptLines) = true := by
  decide +kernel

/-- Request 0 of log 63 is queued. -/
def holding : State := (logged []).setRequest 0 { Request.free with state := .queued, log := 63, gen := 0, deadline := 2 ^ 63, desc := submitBytes, prompt := [5] }

theorem wit_cancel : (logged []).mayTake 63 = true ∧ dsc (cancelBytes 0) 0 1 = 1 ∧ (logged []).badDescriptor 63 (cancelBytes 0) = false ∧
    holding.mayTake 63 = true ∧ holding.cancels 63 (dsc (cancelBytes 0) 72 4) = true ∧ (logged []).cancels 63 (dsc (cancelBytes 1) 72 4) = false ∧
    bitOf 0x40000000 30 = true ∧ bitOf 0x40000000 31 = false ∧ (logged []).flag (Reg.SRV_LOG_CTL.EN 63) = true ∧ (logged []).live = true := by decide +kernel

theorem wit_admission : (mod (on ++ serving ++ [(Reg.SRV_P_CAP.TOK_MAX 0, 4)])).mayAdmit 0 = true ∧
    (mod (on ++ serving)).heardBad 0 ((mod (on ++ serving)).part 0).nextStep = none ∧ (mod (on ++ serving)).setsOf 0 = [] ∧
    ((put [(Reg.SRV_P_CAP.TOK_MAX 0, 4), (Reg.SRV_P_CAP.B_MAX 0, 4)] holding).compose 0).1.rows.length = 1 ∧
    (put [(Reg.SRV_P_CAP.TOK_MAX 0, 4), (Reg.SRV_P_CAP.B_MAX 0, 4)] holding).mayAdmit 0 = true ∧
    ((mod (on ++ serving)).compose 0).1.rows.length = 0 ∧
    ((mod (on ++ serving)).modPart 0 (fun x => { x with heard := [⟨1, 1, 2, 9, 0⟩] })).heardBad 0 1 = some 9 ∧
    (mod (on ++ serving)).endWaiting 0 = mod (on ++ serving) ∧ (mod (on ++ serving)).openStep 0 1 = none := by decide +kernel

theorem wit_deadline : (put bound (holding.modRequest 0 (fun q => { q with deadline := 1024 }))).live = true ∧
    (put bound (holding.modRequest 0 (fun q => { q with deadline := 1024 }))).onBoundary = true ∧
    (put bound (holding.modRequest 0 (fun q => { q with deadline := 1024 }))).slotsBy (fun r => r.live && r.state != .inStep &&
      decide (r.deadline ≤ (put bound holding).strike)) (fun _ => 0) = [0] ∧ (put bound holding).strike = 1024 ∧
    (put bound (holding.modRequest 0 (fun q => { q with deadline := 1024 }))).ringFree 63 ≠ 0 := by decide +kernel

theorem wit_budget_roll : (mod bound).rollDue = true ∧ (mod bound).live = true ∧ (mod bound).place 4 = true ∧ (mod bound).strike % (mod bound).budgetLen = 0 ∧
    (mod bound).strike ≠ (mod bound).budgetStart ∧ (List.range 12).all (fun p => ((mod bound).part p).steps.isEmpty) = true := by decide +kernel

/-! ## Witnesses: steps -/

/-- Step 1 of job 0 of partition 0 with one decode row of slot 0. -/
def step1 : OpenStep := ⟨1, 0, [⟨0, 1, 1, 1, false⟩], [], .running, 0, 0, 0, 0, [], false⟩

/-- Partition 0 has the given steps; it is alone, or in verdict group 0 with logical index 1. -/
def stepped (l : List OpenStep) (f : List (Field × Nat)) : State :=
  ((mod (on ++ serving ++ [(Reg.SLG_P_JOB_CTL.VALID 0 0, 1)] ++ f)).modPart 0 (fun x => { x with steps := l })).setReg64 (Reg.MSH_GRP_MASK_LO 0) 3

def grouped : List (Field × Nat) := [(Reg.SLG_CTRL.VERDICT_EN, 1), (Reg.SLG_P_VCTRL.VG_EN 0, 1)]

theorem wit_step_end : (stepped [step1] []).hasJob 0 = true ∧ (stepped [step1] []).flag (Reg.SLG_P_JOB_CTL.VALID 0
      ((stepped [step1] []).fld (Reg.PRT_P_STAT.RESIDENT 0))) = true ∧ (stepped [step1] []).openStep 0 1 = some step1 ∧ step1.phase = .running ∧
    step1.job = (stepped [step1] []).fld (Reg.PRT_P_STAT.RESIDENT 0) ∧ (stepped [step1] []).peers 0 = [] ∧
    (∀ d ∈ ((stepped [step1] []).part 0).digests, d.step ≠ 1) ∧ step1.cause = 0 ∧ (stepped [step1] []).heardBad 0 1 = none ∧
    (stepped [{ step1 with cause := 1 }] []).openStep 0 1 = some { step1 with cause := 1 } ∧
    ((stepped [step1] []).modPart 0 (fun x => { x with heard := [⟨1, 1, 2, 9, 0⟩] })).heardBad 0 1 = some 9 := by decide +kernel

/-- The verdict of member 1 on step 1 with a code and cause 9. -/
def verdict (code : Nat) : List Byte := natLE 6 1 ++ natLE 1 code ++ natLE 1 0 ++ natLE 8 5 ++ natLE 1 9 ++ natLE 15 0

theorem wit_verdict : (stepped [step1] grouped).live = true ∧ (stepped [step1] grouped).flag Reg.SLG_CTRL.VERDICT_EN = true ∧
    bitOf ((stepped [step1] grouped).groupMask 0) 1 = true ∧ 1 ≠ (stepped [step1] grouped).ownLogical ∧ leNat (((verdict 1).drop 7).take 1) = 0 ∧
    (stepped [step1] grouped).flag (Reg.SLG_P_VCTRL.VG_EN 0) = true ∧ (stepped [step1] grouped).vgrp 0 = 0 ∧
    leNat (((verdict 1).drop 6).take 1) = 1 ∧ leNat (((verdict 2).drop 6).take 1) = 2 ∧ leNat (((verdict 3).drop 6).take 1) = 3 ∧ leNat (((verdict 4).drop 6).take 1) = 4 ∧
    (List.range 12).all (fun q => decide ((stepped [step1] grouped).partFirst q + (stepped [step1] grouped).partCount q ≤ 12)) = true ∧
    (stepped [step1] grouped).collectives = [] ∧
    leNat (((verdict 1).drop 0).take 6) = 1 ∧ (List.range 12).all (fun q => !(stepped [step1] grouped).committed q 1) = true ∧
    ((stepped [step1] grouped).openStep 0 1).isSome = true ∧ (stepped [step1] []).flag (Reg.SLG_P_VCTRL.VG_EN 0) = false := by decide +kernel

/-- Step 1 ended at tick 0. -/
def ended1 : OpenStep := { step1 with phase := .ended }

theorem wit_window : (stepped [ended1] (grouped ++ bound)).undecided 0 = some ended1 ∧ (stepped [ended1] (grouped ++ bound)).live = true ∧
    ended1.phase = .ended ∧ ended1.cause = 0 ∧ (stepped [ended1] (grouped ++ bound)).windowEnd 0 ended1 ≤ 2 ^ 20 ∧
    (stepped [ended1] (grouped ++ bound)).tick = 2 ^ 20 ∧ (stepped [ended1] (grouped ++ bound)).missing 0 ended1 = [1] ∧
    (stepped [ended1] bound).undecided 0 = some ended1 ∧ (stepped [ended1] (grouped ++ bound)).verdictWaits 0 = false ∧
    (stepped [ended1] (grouped ++ bound)).flag Reg.TIME_STATUS.ALIGNED = true ∧ (stepped [ended1] bound).goodNow 0 ended1 = true ∧
    (stepped [ended1] (grouped ++ bound)).goodNow 0 ended1 = false ∧
    (stepped [{ ended1 with cause := 3 }] bound).undecided 0 = some { ended1 with cause := 3 } ∧ (stepped [ended1] bound).goodFrom 0 ended1 ≤ 2 ^ 20 ∧
    (stepped [ended1] bound).missing 0 ended1 = [] ∧ (stepped [ended1] bound).mayEmit ended1 [⟨0, [⟨7, 0⟩], 1, 0, false⟩] = true ∧
    (stepped [ended1] bound).mayEmit ended1 [⟨0, [⟨7, 0⟩, ⟨7, 0⟩], 2, 0, false⟩] = false ∧ (stepped [ended1] bound).jrnlRoom (commitLines ended1) = true ∧
    ((stepped [ended1] [(Reg.SRV_JRNL_SIZE.MIB, 0)]).roomFor (commitLines ended1)).isNone = true := by decide +kernel

/-- Request 0 as the COMMIT record of step 1 leaves it: READY with one token. -/
def committed0 : Request := { Request.free with gen := 0, state := .ready, deadline := 2 ^ 63, pos := 2, emitted := [⟨7, 0⟩] }

/-- The commit of step 1 stands at stage `k`, and its record is the first of the journal. -/
def committing (k : Nat) (l : List (Field × Nat)) : State :=
  { (stepped [{ step1 with phase := .committing k }] l) with
    journal := { Journal.reset with
      records := [⟨2, 2, 1, 1, 5, 0, 1, [(0, committed0)], [], [⟨0, [⟨7, 0⟩], 1, 0, false⟩], [(0, 0)]⟩]
      nextSeq := 2
      nextLine := 3 } }

theorem wit_commit : (committing 1 []).commitAt 0 1 = some { step1 with phase := .committing 1 } ∧ ((committing 1 []).commitRecord 0 1).isSome = true ∧
    (committing 1 []).live = true ∧ ((committing 1 []).commitRecord 0 1).all (fun x => (committing 1 []).recordsAcked x.seq) = true ∧
    (committing 1 [(Reg.SRV_STATUS.JMODE, 2)]).recordsAcked 1 = false ∧
    (committing 2 []).commitAt 0 2 = some { step1 with phase := .committing 2 } ∧ (committing 2 []).tailAcked = true ∧ (committing 2 []).rollDue = false ∧
    (committing 2 [(Reg.SRV_STATUS.JMODE, 2)]).tailAcked = false ∧ (committing 2 []).kvParts committed0 = [0] ∧
    ((committing 2 []).commitRecord 0 1).all (fun x => !(committing 2 []).commitsBefore x.seq && x.requests == [(0, committed0)] &&
      x.ringSlots == [(0, 0)]) = true ∧ committed0.ending = none ∧ committed0.gens = [] := by decide +kernel

/-! ## Witnesses: the journal -/

theorem wit_mirror : (mod (serving ++ [(Reg.SRV_STATUS.JMODE, 0), (Reg.SRV_CTRL.HOSTJ_EN, 1)])).live = true ∧
    (mod (serving ++ [(Reg.SRV_STATUS.JMODE, 0), (Reg.SRV_CTRL.HOSTJ_EN, 1)])).jmode = 0 ∧ (mod serving).logs = [] ∧
    (mod (serving ++ [(Reg.SRV_STATUS.JMODE, 0), (Reg.SRV_CTRL.HOSTJ_EN, 1)])).flag Reg.SRV_CTRL.HOSTJ_EN = true ∧
    (mod (serving ++ [(Reg.SRV_CTRL.BUDDY_EN, 1)])).flag Reg.SRV_CTRL.BUDDY_EN = true ∧
    (mod (serving ++ [(Reg.SRV_STATUS.JMODE, 2)])).jmode = 2 ∧
    (mod [(Reg.MSH_PORT_STAT.STATE 0, 2), (Reg.MSH_PORT_STAT.STATE 1, 2), (Reg.MSH_PORT_STAT.STATE 2, 2), (Reg.MSH_PORT_STAT.STATE 3, 2),
      (Reg.SRV_JRNL_MIRROR_HI.ADDR, 2 ^ 22)]).buddyReachable = true ∧ (mod serving).jrnlLines ≠ 0 ∧
    ({ mod serving with journal := { Journal.reset with unmirrored := true } } : State).journal.unmirrored = true ∧ (mod serving).outstanding = [] := by decide +kernel

/-- Every stack is ON, time is aligned, and recovery waits with the COMMIT record of step 1 complete. -/
def recovering : State :=
  put ((List.range 12).map (fun b => (Reg.TIER_UNIT.STATE (unitHot b), 2)) ++ bound ++ [(Reg.SRV_STATUS.RECOVERING, 1), (Reg.SRV_CTRL.BUDDY_EN, 0),
    (Reg.SRV_CTRL.HOSTJ_EN, 0), (Reg.SRV_LOG_CTL.EN 0, 1), (Reg.SRV_LOG_CTL.OUT_LOG2N 0, 4)])
    ({ committing 2 [] with journal := { (committing 2 []).journal with tail := 1 } }.modLog 0 (fun x => { x with outHeld := true }))

theorem wit_recovery : recovering.live = true ∧ recovering.flag Reg.SRV_STATUS.RECOVERING = true ∧ recovering.hotReady = true ∧
    recovering.flag Reg.TIME_STATUS.ALIGNED = true ∧ recovering.copyReachable = true ∧
    recovering.namedLogs.all recovering.logKnown = true ∧ recovering.rebuild.eventsFit = true ∧
    recovering.complete.flatMap (·.requests) = [(0, committed0)] ∧ committed0.ending = none ∧ (0, committed0.gen) ∉ recovering.journal.ended ∧
    committed0.deadline ≠ 0 ∧ committed0.live = true ∧ recovering.rebuild.liveSlots = [0] ∧ up.hotReady = false := by decide +kernel

/-! ## Witnesses: jobs -/

theorem wit_partition_commands : (mod on).live = true ∧ up.partState 0 ≠ 2 ∧ (mod on).partState 0 = 2 ∧ (mod on).switching 0 = false ∧
    (mod on).resident 0 = some 0 ∧ (mod (on ++ [(Reg.PRT_P_STAT.SWITCH 0, 1)])).switching 0 = true ∧
    (mod on).partFirst 0 + (mod on).partCount 0 ≤ 12 ∧ (mod on).otherFault 0 0 = none ∧ (mod on).hasJob 0 = true ∧
    (mod on).flag (Reg.PRT_P_STAT.FROZEN 0) = false ∧ (mod (on ++ [(Reg.PRT_P_STAT.FROZEN 0, 1)])).flag (Reg.PRT_P_STAT.FROZEN 0) = true ∧
    ((mod on).tilesOf 0).all (fun t => (List.range 4).all (fun e => !(mod on).engineBusy t e)) = true := by decide +kernel

theorem wit_job_commands : bitOf 0x4000000 26 = true ∧ bitOf 0x4000000 25 = false ∧ bitOf 0x2000000 25 = true ∧
    (mod (on ++ [(Reg.PRT_P_JSTAT.STATE 0 1, 2)])).jobState 0 1 = 2 ∧ (mod on).flag (Reg.PRT_P_JSTAT.FAULT_PENDING 0 1) = false ∧
    (mod on).resident 0 ≠ some 1 ∧ (mod (on ++ [(Reg.PRT_P_JSTAT.STATE 0 1, 5)])).jobState 0 1 = 5 ∧
    (((mod (on ++ [(Reg.PRT_P_STAT.SWITCH 0, 1)])).modPart 0 (fun x => { x with outgoing := some 1 })).part 0).outgoing = some 1 ∧
    (mod on).jobState 0 7 = 0 ∧ bitOf 1 0 = true ∧ bitOf 2 0 = false ∧
    (mod (on ++ [(Reg.PRT_P_JSTAT.STATE 0 1, 3)])).jobState 0 1 ∈ [3, 4, 5] := by decide +kernel

/-- A boundary at which partition 0's slice of one Strike ends, with job `j` runnable. -/
def sliced (j : Nat) : State :=
  (mod (on ++ bound ++ [(Reg.PRT_P_SLICE.STRIKES 0, 1), (Reg.PRT_P_SCHED.LEN 0, 1), (Reg.PRT_P_SCHED.ENTRY 0, j), (Reg.PRT_P_JSTAT.STATE 0 0, 4),
    (Reg.PRT_P_JSTAT.STATE 0 1, 1)])).modPart 0 (fun x => { x with sliceLen := 1 })

theorem wit_slice : (sliced 0).live = true ∧ (sliced 0).place 5 = true ∧ (sliced 0).partState 0 = 2 ∧ (sliced 0).switching 0 = false ∧
    ((sliced 0).part 0).sliceSeen ≠ some (BitVec.ofNat 64 (sliced 0).tick) ∧ ((sliced 0).part 0).sliceLen =
      max 1 ((sliced 0).fld (Reg.PRT_P_SLICE.STRIKES 0)) ∧ (sliced 0).strike % ((sliced 0).part 0).sliceLen = 0 ∧
    ((sliced 0).part 0).coverDue = false ∧ (sliced 0).sliceJob 0 ((sliced 0).strike / 1) = some 0 ∧ (sliced 0).resident 0 = some 0 ∧
    (sliced 1).sliceJob 0 ((sliced 1).strike / 1) = some 1 := by decide +kernel

/-- A switch of partition 0 at a stage, with its hidden state. -/
def switching (k : Nat) (f : Part → Part) : State := (mod (on ++ [(Reg.PRT_P_STAT.SWITCH 0, k)])).modPart 0 f

theorem wit_switch_stages : (switching 1 (fun x => { x with outgoing := some 2 })).fld (Reg.PRT_P_STAT.SWITCH 0) = 1 ∧
    (switching 1 (fun x => { x with outgoing := some 2 })).settled 0 = true ∧
    ((switching 1 (fun x => { x with outgoing := some 2 })).part 0).outgoing = some 2 ∧
    ((switching 1 (fun x => { x with outgoing := some 2 })).part 0).incoming = none ∧
    (switching 1 (fun x => { x with outgoing := some 2 })).loads = [] ∧
    (switching 1 (fun x => { x with outgoing := some 2 })).contextsReady 0 = true ∧
    (switching 2 (fun x => { x with outgoing := some 2, saving := true })).marching 0 = false ∧
    (switching 2 (fun x => { x with outgoing := some 2, saving := true })).recordFilling 0 2 = false ∧
    ((switching 2 (fun x => { x with outgoing := some 2, saving := true })).part 0).incoming = none ∧
    ((switching 2 (fun x => { x with outgoing := some 2, incoming := some 1, saving := true })).part 0).saving = true ∧
    (switching 2 (fun x => { x with outgoing := some 2, incoming := some 1, saving := true })).fld (Reg.PRT_P_STAT.SWITCH 0) = 2 ∧
    ((switching 2 (fun x => { x with outgoing := some 2, incoming := some 1, saving := true })).part 0).loaded = false := by decide +kernel

theorem wit_restore : (switching 3 (fun x => { x with incoming := some 1, loaded := true })).marching 0 = false ∧
    (switching 3 (fun x => { x with incoming := some 1, loaded := true })).recordFilling 0 1 = false ∧
    (switching 3 (fun x => { x with incoming := some 1, loaded := true })).partFirst 0 +
      (switching 3 (fun x => { x with incoming := some 1, loaded := true })).partCount 0 ≤ 12 ∧
    ((switching 3 (fun x => { x with incoming := some 1, loaded := true })).part 0).incoming = some 1 ∧
    2 ≤ (switching 3 (fun x => { x with incoming := some 1, loaded := true })).fld (Reg.PRT_P_STAT.SWITCH 0) ∧
    ((switching 3 (fun x => { x with incoming := some 1, loaded := true })).part 0).saving = false ∧
    ((switching 3 (fun x => { x with incoming := some 1, loaded := true })).part 0).loaded = true ∧
    ((switching 3 (fun x => { x with incoming := some 1, loaded := true })).part 0).measBad = false ∧
    ((switching 3 (fun x => { x with incoming := some 1, loaded := true })).part 0).resetLatched = false ∧
    ((switching 3 (fun x => { x with incoming := some 1, loaded := true })).part 0).jobResets = [] ∧
    ((switching 3 (fun x => { x with incoming := some 1, loaded := true })).part 0).preemptLatched = false ∧
    ((switching 3 (fun x => { x with incoming := some 1, loaded := true })).part 0).sliceLatched = false ∧
    (switching 3 (fun x => { x with incoming := some 1, loaded := true })).flag (Reg.PRT_P_STAT.DISABLE_PENDING 0) = false := by decide +kernel

/-! ## Witnesses: silent errors -/

/-- Step 1 decided BAD. -/
def bad1 : OpenStep := { step1 with phase := .bad }

theorem wit_rollback : (stepped [bad1] []).mayReplay 0 = true ∧
    (stepped [{ step1 with phase := .rolled }] []).badSteps 0 = [{ step1 with phase := .rolled }] ∧
    ((stepped [bad1] []).badSteps 0).all (fun o => o.phase == .rolled) = false ∧
    (stepped [bad1] [(Reg.SLG_TILE_STATE.STATE 5, 2)]).mayReplay 0 = false ∧
    (stepped [bad1] []).live = true ∧ (stepped [bad1] []).partFirst 0 + (stepped [bad1] []).partCount 0 ≤ 12 ∧
    (∀ c ∈ (stepped [bad1] []).collectives, c.mover < 64) ∧ (∀ o ∈ (stepped [bad1] []).badSteps 0, o.job < 8) ∧ (stepped [bad1] []).badSteps 0 ≠ [] ∧
    (stepped [bad1] [(Reg.SLG_P_VCTRL.MAXREPLAY 0, 0)]).fld (Reg.SLG_P_VCTRL.MAXREPLAY 0) ≤
      ((stepped [bad1] [(Reg.SLG_P_VCTRL.MAXREPLAY 0, 0)]).reg (Reg.SLG_P_REPLAYS 0)).toNat ∧
    ((stepped [bad1] [(Reg.SLG_P_VCTRL.MAXREPLAY 0, 1)]).reg (Reg.SLG_P_REPLAYS 0)).toNat <
      (stepped [bad1] [(Reg.SLG_P_VCTRL.MAXREPLAY 0, 1)]).fld (Reg.SLG_P_VCTRL.MAXREPLAY 0) := by decide +kernel

/-- Tile 5's SHAPE of g5, segment 1, has overrun, and partition 0 is frozen with step 1 running. -/
def overrun : State :=
  (((put [(Reg.PRT_P_STAT.FROZEN 0, 1)] (stepped [step1] [])).writeNum (imemAt 5 0 0) 8 shapeWord).setReg64 (Reg.SEQ_G 5 5 0) (2 ^ 32 + 7)).modPart 0
    (fun x => { x with faults := [⟨0, 5, codeShapeLimit, 0, 0, 0⟩] })

theorem wit_shape_overrun : overrun.mayReplay 0 = true ∧ (put [(Reg.SLG_TILE_STATE.STATE 5, 2)] overrun).mayReplay 0 = false ∧ overrun.live = true ∧ overrun.partFirst 0 + overrun.partCount 0 ≤ 12 ∧ overrun.overrunJob 0 = some 0 ∧
    (overrun.part 0).steps.find? (fun o => o.open_ && o.job == 0) = some step1 ∧ overrun.overruns 0 0 = [(1, 7)] ∧ overrun.otherFault 0 0 = none ∧
    ((overrun.part 0).steps.find? (·.n == step1.n)).bind (fun o => o.rows.find? (fun w => w.segment == 1)) = some ⟨0, 1, 1, 1, false⟩ := by
  decide +kernel

/-- A pack of `n` units for Anvil tiles with MAXCYC 10 and signature 3 is in force. -/
def packed (n : Nat) : State :=
  { mod [(Reg.SLG_CTRL.SPARK_EN, 1), (Reg.SLG_PACK.UNITS, n)] with
    security := { up.security with pack := natLE 128 0 ++ (List.range n).flatMap (fun _ => natLE 8 0 ++ natLE 8 3 ++ natLE 4 10 ++ natLE 44 0) } }

theorem wit_spark_unit : (packed 2).gridLive = true ∧ (packed 2).flag Reg.SLG_CTRL.SPARK_EN = true ∧ (packed 2).quarantined 1 = false ∧
    (packed 2).sparkIdle 1 = true ∧ ((packed 2).packUnits (tileType 1))[((packed 2).sparkTile 1).unit]? = some 0 ∧
    (packed 2).packNum (128 + 64 * 0 + 16) 4 = 10 ∧ (packed 2).packNum (128 + 64 * 0 + 8) 8 = 3 ∧ ((packed 2).packUnits 0).length = 2 ∧
    ((packed 1).packUnits 0).length = 1 ∧ ((packed 1).packUnits (tileType 1))[0]? = some 0 := by decide +kernel

/-- A Strike boundary of a coverage period of 2^16 Strikes at `n` Strikes. -/
def covered (n : Nat) : State :=
  ((put (on ++ [(Reg.TIME_STATUS.ALIGNED, 1), (Reg.SLG_ROT.LOG2P, 16), (Reg.SLG_STATUS.PACK_PENDING, 1)]) up).setReg64 Reg.TIME_TICK_LO (1024 * n))

theorem wit_coverage : (covered (3 * 2 ^ 14)).live = true ∧ (covered (3 * 2 ^ 14)).onBoundary = true ∧ (covered (3 * 2 ^ 14)).place 6 = true ∧
    3 * ((covered (3 * 2 ^ 14)).coverLen / 4) ≤ (covered (3 * 2 ^ 14)).strike % (covered (3 * 2 ^ 14)).coverLen ∧
    (covered (2 ^ 16)).onBoundary = true ∧ (covered (2 ^ 16)).strike % (covered (2 ^ 16)).coverLen = 0 ∧
    (covered (2 ^ 16)).strike / (covered (2 ^ 16)).coverLen ≠ (covered (2 ^ 16)).coverPeriod ∧
    (covered (2 ^ 16)).flag Reg.SLG_STATUS.PACK_PENDING = true := by decide +kernel

/-! ## Witnesses: security and the host -/

theorem wit_loads : bitOf 0x80000000 31 = true ∧ bitOf 0x80000000 8 = false ∧ bitOf 0x80000100 8 = true ∧ up.loadBase = none ∧
    (mod hot).loadBase = some 0 ∧ (mod hot).checkLoad false ((mod hot).memBytes 0) = 1 ∧ (mod hot).checkLoad true ((mod hot).memBytes 0) = 1 := by
  decide +kernel

theorem wit_fuses : bits 0x80000001 0 3 ∈ [1, 2] ∧ bits 0x80000003 0 3 ∈ [3] ∧ bits 0x80000004 0 3 ∈ [4] ∧ bits 0x80000005 0 3 ∈ [5] ∧
    (mod [(Reg.SEC_STATUS.FUSE_BUSY, 1)]).flag Reg.SEC_STATUS.FUSE_BUSY = true ∧ up.flag Reg.SEC_STATUS.FUSE_BUSY = false ∧
    ({ up with security := { up.security with confirmed := true } } : State).security.confirmed = true ∧ up.fuseRefused 1 = true ∧
    up.fuseRefused 5 = false ∧ up.fuses.debugLock = true ∧ up.fuseRefused 2 = false ∧
    ({ up with security := { up.security with fuseOp := some (2, 1) } } : State).security.fuseOp = some (2, 1) ∧ up.security.warmWaits = false ∧
    up.fnFrozen 0 = false := by decide +kernel

theorem wit_spdm : (mod linked).on = true ∧ (mod linked).hostUp = true ∧ (mod linked).flag Reg.SEC_STATUS.BOOTED = true ∧
    (mod (linked ++ [(Reg.SEC_STATUS.BOOTED, 0)])).on = true ∧ (mod (linked ++ [(Reg.SEC_STATUS.BOOTED, 0)])).hostUp = true ∧
    (mod (linked ++ [(Reg.SEC_STATUS.BOOTED, 0)])).flag Reg.SEC_STATUS.BOOTED = false ∧ ((mod linked).measurement 4).isSome = true ∧
    ((mod linked).measurement 27).isSome = true ∧ ((mod linked).measurement 28).isNone = true ∧ (mod linked).chain.length ≤ 0 := by decide +kernel

theorem wit_host_io : (mod linked).on = true ∧ (mod linked).fnFrozen 63 = false ∧ (mod linked).pins.barsOpen = true ∧
    (mod (linked ++ [(⟨Reg.SEC_FNFRZ 1, 31, 1⟩, 1)])).fnFrozen 63 = true ∧ barSize 0 < 2 ^ 32 - 3 + opLen (.read 4) ∧
    2 ^ 32 - 4 + opLen (.read 4) ≤ barSize 0 ∧ 0 / 2 ^ 40 = (mod (linked ++ hot)).ownSlot ∧ 0 % 2 ^ 40 + opLen (.read 64) ≤ 12 * stackSize ∧
    (mod (linked ++ hot)).tierUp (unitHot (0 % 2 ^ 40 / stackSize)) = true ∧ (mod linked).tierUp (unitHot (0 / stackSize)) = false ∧
    (12 * stackSize - 64) + opLen (.read 64) ≤ 12 * stackSize ∧ (mod linked).fnFrozen 1 = false ∧ 0xFFFC + opLen (.read 4) ≤ 0x10000 ∧
    (mod (linked ++ hot)).fillingIn 0 64 = false ∧ (⟨0, 1, [(0, 1)]⟩ : ReadEcc).ue ≠ 0 ∧ (mod linked).live = true ∧ (mod linked).hostUp = true := by decide +kernel

/-- CXL port 0 is trained, its warm tier is ON, and mover 48's read is outstanding with tag 7. -/
def partnered : State :=
  { mod (bound ++ [(Reg.CXL_PORT_STAT.TRAINED 0, 1), (Reg.TIER_UNIT.STATE 16, 2)]) with outstanding := [⟨7, 0, 0, true, .mover 48, 256, .read 4, 0⟩] }

theorem wit_partner : partnered.live = true ∧ partnered.flag (Reg.CXL_PORT_STAT.TRAINED 0) = true ∧
    partnered.cxlAccess 0 7 = some ⟨7, 0, 0, true, .mover 48, 256, .read 4, 0⟩ ∧ (∀ o ∈ partnered.outstanding, o.sent = true) ∧ partnered.cxlAccess 0 8 = none ∧ partnered.tierState (unitCxl 0) = 2 ∧
    partnered.flag (Reg.CXL_PORT_STAT.ISOLATED 0) = false ∧
    0 + 1024 * max 1 ((put [(Reg.CXL_CTRL.CPL_TO, 1)] partnered).fld Reg.CXL_CTRL.CPL_TO) ≤ partnered.tick ∧
    max 1 ((put [(Reg.CXL_CTRL.VIOL_LIMIT, 1)] partnered).fld Reg.CXL_CTRL.VIOL_LIMIT) ≤ 1 ∧
    1 < max 1 ((put [(Reg.CXL_CTRL.VIOL_LIMIT, 2)] partnered).fld Reg.CXL_CTRL.VIOL_LIMIT) ∧ 2 ≤ (mod hot).tierState (unitHot 0) := by decide +kernel

/-! ## Witnesses: a signed object that passes every check -/

theorem get_cellsFrom (a : Nat) (d : List Byte) (x : Nat) :
    Sparse.get memReset (cellsFrom a d) x = if x < a then 0 else d.getD (x - a) 0 := by
  induction d generalizing a with
  | nil => simp [cellsFrom, Sparse.get, memReset]
  | cons b d ih =>
    have hs : a < x → x - a = (x - (a + 1)) + 1 := by omega
    unfold cellsFrom
    split
    · next hb =>
      rw [ih]
      by_cases h1 : x < a
      · rw [if_pos (by omega), if_pos h1]
      · by_cases h2 : x = a
        · subst h2; simp [hb, memReset]
        · rw [if_neg (by omega), if_neg h1, hs (by omega), List.getD_cons_succ]
    · simp only [Sparse.get]
      by_cases h2 : a = x
      · subst h2; simp
      · rw [if_neg h2, ih]
        by_cases h1 : x < a
        · rw [if_pos (by omega), if_pos h1]
        · rw [if_neg (by omega), if_neg h1, hs (by omega), List.getD_cons_succ]

/-- A reader of a list of bytes, with zeros beyond it. -/
def listReader (d : List Byte) : Reader := fun o n => (d.drop o).take n ++ List.replicate (n - (d.length - o)) 0

theorem memBytes_cells {s : State} {d : List Byte} (h : s.mem = cellsFrom 0 d) : s.memBytes 0 = listReader d := by
  funext o n
  simp only [State.memBytes, Nat.zero_add, listReader]
  induction n generalizing o with
  | zero => simp [State.bytes]
  | succ n ih =>
    rw [State.bytes, ih]
    have hb : s.byte o = d.getD o 0 := by rw [State.byte, h, get_cellsFrom]; simp
    rw [hb]
    by_cases hl : o < d.length
    · rw [List.drop_eq_getElem_cons hl, List.take_succ_cons, List.cons_append, List.getD_eq_getElem?_getD, List.getElem?_eq_getElem hl, Option.getD_some,
        show n + 1 - (d.length - o) = n - (d.length - (o + 1)) by omega]
    · rw [List.drop_eq_nil_of_le (by omega), List.drop_eq_nil_of_le (by omega), List.getD_eq_getElem?_getD, List.getElem?_eq_none (by omega), Option.getD_none,
        show n + 1 - (d.length - o) = (n - (d.length - (o + 1))) + 1 by omega]
      simp [List.replicate_succ]

/-- A modulus of 384 bytes of ones and the exponent 1, so that a signature is the encoded message itself. -/
def oneKey : List Byte := List.replicate 384 0xFF ++ [0, 0, 0, 1]

/-- The encoded message (RFC 8017, a salt of zeros) of the pack below, computed outside the model. -/
def packSignature : Nat :=
  [0xbc67a5e0ac9bb4db410c232ca56a92cdb5d0f6942b9405af61351be8b26f7d591bbb2b34073980564d53720ce8ad5202,
    0x64ed1eacd670794153b56e4745cde6f92efc64bfa19548daab42513774207a283f3be3e80eb00685351b265a00f72032,
    0xbe08ce1bb2befb26553d04143345e5990787a79fff0742a4348b44bf0618c891d08b1cf6dcdf297d267831ed4e2c7206,
    0x5161e09002a5c4793b2e680d7f7c2104b3822c605bf17e7783d83c66532648b850588c55aff3fc345c260a1ca4ef4a9d,
    0x473ac5324356de33a9e6c2c847578944420ee0a5d9933fd80458df705bcb26ecaa32bdb827c19022d414ee0352ead130,
    0x5d7016d17ad6464e6bd6656ec88d1f5128eff094e3dc7bf08d53589bf4944a0cc0db1473092e1a87d1901609faaded29,
    0xc342c3590dca830e296d69d5c87d22c6ed37903032440e64b9870f769c5d254ed8d4e61d03c4be986d4b15b4761065aa,
    0x68094a47af171f0f8a893fc9ebb9a4032be7a68b925d43bd5f9f186c456678d09c679aa855297bd4914eec3deedbeb5d].foldl (fun a x => a * 2 ^ 384 + x) 0

/-- The encoded message of the image below, computed outside the model. -/
def imageSignature : Nat :=
  [0xbc80f8a2b2555fd69d591aa82c51611a54dffb8a0b92e1e73955da4a38b953bd06474385dcc7bc25c0f8329861e88dea,
    0x075011bdf0c1845e22175fbfef25b48f3405c83f886148212d1d4d1377a4e39fca05e54fc4cb67f1d6d904b7361cd88e,
    0xad2ddc842beb120a0b346edb269c5a568541fbb2999575e24fa912e60caf63a898670aabef50f62553b955060e6a4e86,
    0x1fd4f01ab5f14700813091b5fc7c8eb732c5d6f73707f84553e5811afbdfef811c8e3d8891b4c81695005518b2eff7f2,
    0x0a6fc302f1f54a658aecfbd70bc067125eeb878ce78010bc370de2584a126ae2dbc4472082b6d3aaddde081698ad9c91,
    0x573e4774cc8e66b74209bacf8d86ceb71249283ece959833d83d1692cca0167e2128e235b7d1f83828c3f2a7a6817820,
    0x9c85476ed86cb1f9dde80393de0e5d7668dcac85ad7beefa6a28cf03c783f79e102e0c1b9b4335d186f67d669d4c13f3,
    0xe036d04a331f3de8269a2358a2a138fa54b10ef2c1d163889109290ca712d70d3aaf3242a9e4ef494b6ed541d4669967].foldl (fun a x => a * 2 ^ 384 + x) 0

/-- A pack of one unit in 256 bytes, with its trailer. -/
def packBytes : List Byte :=
  natLE 4 0x534B5031 ++ natLE 4 1 ++ natLE 4 1 ++ natLE 4 2 ++ List.replicate 244 0 ++ oneKey ++ natLE 384 packSignature

/-- An image of 4,096 bytes, with its trailer. -/
def imageBytes : List Byte :=
  natLE 4 0x454B4657 ++ natLE 4 1 ++ natLE 4 4096 ++ List.replicate 4084 0 ++ oneKey ++ natLE 384 imageSignature

/-- The bytes stand at 0 of the hot tier, and the key's digest (FIPS 180-4, computed outside the model) is fused. -/
def holds (d : List Byte) : State :=
  { mod hot with
    mem := cellsFrom 0 d
    fuses := { Fuses.reset with key0 := 0x68b1b15a628221eb8808abbb48b913b2e19003db89a53cb1900e91ba70f17f6d } }

theorem wit_pack_load : (holds packBytes).loadBase = some 0 ∧ (holds packBytes).live = true ∧
    (holds packBytes).checkLoad false ((holds packBytes).memBytes 0) = 0 := by
  rw [memBytes_cells rfl]
  decide +kernel

theorem wit_image_load : (holds imageBytes).loadBase = some 0 ∧ (holds imageBytes).checkLoad true ((holds imageBytes).memBytes 0) = 0 := by
  rw [memBytes_cells rfl]
  decide +kernel

/-! ## Single steps, with results worked out by hand -/

/-- R70: the IMM32 0xFFFFFFFE is sign-extended. -/
theorem test_mov_immediate_sign_extends :
    (after (.movImmediate 5 .clean) (runs 5 (word 0x02 [(44, 3), (0, 0xFFFFFFFE)]) [])).operand 5 3 = 2 ^ 64 - 2 := by decide +kernel

/-- R64: g0 discards what is written to it. -/
theorem test_mov_to_g0 : (after (.movImmediate 5 .clean) (runs 5 (word 0x02 [(0, 7)]) [])).operand 5 0 = 0 := by decide +kernel

/-- R70: -1 + 2 wraps to 1, with the destination also a source. -/
theorem test_add_wraps : (after (.addImmediate 5 .clean) (gregs 5 [(3, 2 ^ 64 - 1)] (runs 5 (word 0x05 [(44, 3), (36, 3), (0, 2)]) []))).operand 5 3 = 1 := by
  decide +kernel

/-- R70: 3 - 5 is -2, SRC1 less SRC2. -/
theorem test_sub_order : (after (.subRegister 5 .clean) (gregs 5 [(1, 3), (2, 5)] (runs 5 (word 0x06 [(44, 4), (36, 1), (28, 2)]) []))).operand 5 4 =
    2 ^ 64 - 2 := by decide +kernel

/-- R70: the shift uses bits [5:0] alone, and SHR brings in zeros. -/
theorem test_shr_logical : (after (.shrImmediate 5 .clean) (gregs 5 [(1, 2 ^ 64 - 1)] (runs 5 (word 0x0F [(44, 4), (36, 1), (0, 64 + 60)]) []))).operand 5 4 = 15 := by
  decide +kernel

/-- R71: -1 < 1 signed (COND 2), and not unsigned (COND 4). -/
theorem test_cmp_signed : (after (.cmpRegister 5 .clean) (gregs 5 [(1, 2 ^ 64 - 1), (2, 1)] (runs 5 (word 0x10 [(44, 3), (36, 1), (28, 2), (0, 2)]) []))).operand 5 3 = 1 := by
  decide +kernel

theorem test_cmp_unsigned : (after (.cmpRegister 5 .clean) (gregs 5 [(1, 2 ^ 64 - 1), (2, 1)] (runs 5 (word 0x10 [(44, 3), (36, 1), (28, 2), (0, 4)]) []))).operand 5 3 = 0 := by
  decide +kernel

/-- R75: a branch to 9 leaves the frame over 0 to 8 and keeps one over 0 to 9. -/
theorem test_branch_pops : (after (.br 5 .clean) (runs 5 (word 0x18 [(0, 9)]) (loops 8 1 3))).openFrames 5 = 0 ∧
    (after (.br 5 .clean) (runs 5 (word 0x18 [(0, 9)]) (loops 9 1 3))).openFrames 5 = 1 := by decide +kernel

/-- R73: two iterations of three are left, so the second begins: IDX is 1 and one is left after it. -/
theorem test_endl_again : (after (.endl 5 .clean) (runs 5 (word 0x1A []) (loops 0 2 3))).fld (Reg.SEQ_LOOP_REMAIN.COUNT 5 0) = 1 ∧
    (after (.endl 5 .clean) (runs 5 (word 0x1A []) (loops 0 2 3))).operand 5 4 = 1 := by decide +kernel

/-- R80: 5 rounds up to a multiple of 4 and is not 0; 7 is above the limit of 6 and freezes the partition with code 2. -/
theorem test_shape_rounds : (after (.shape 5 .clean) (shaped 5)).operand 5 3 = 8 ∧ (after (.shape 5 .clean) (shaped 5)).operand 5 0x21 = 0 := by
  decide +kernel

theorem test_shape_limit : (after (.shape 5 .clean) (shaped 7)).flag (Reg.PRT_P_STAT.FROZEN 0) = true ∧
    (after (.shape 5 .clean) (shaped 7)).faultLog.map (·.code) = [codeShapeLimit] := by decide +kernel

/-- R68: an opcode that a Billet tile does not have (0x44, MMA) is the fault 0x20. -/
theorem test_unassigned : (after (.nop 5 .clean) (runs 5 (word 0x44 []) [])).fld (Reg.SEQ_FAULT.KIND 5) = 0x20 := by decide +kernel

/-- R84: a halted tile stays where it is. -/
theorem test_halt : (after (.halt 5 .clean) (runs 5 (word 0x3F []) [])).seqState 5 = 4 := by decide +kernel

/-- R76: RECV of one flit ends with a count of 1 in g1 and the flit's bytes at the stream's address. -/
theorem test_recv : (after (.engineUnit 5 0 clean) ((receiving 1).writeNum (slotAt 5 0) 2 0x1234)).operand 5 1 = 1 ∧
    (after (.engineUnit 5 0 clean) ((receiving 1).writeNum (slotAt 5 0) 2 0x1234)).num (storeAt 5 0) 2 = 0x1234 ∧
    (after (.engineUnit 5 0 clean) (receiving 1)).engineBusy 5 0 = false := by decide +kernel

/-- R77: the last unit of SEND leaves as DATA_END. -/
theorem test_send : ((after (.engineUnit 5 1 clean) (sending 1)).queue 5 3).held.map (·.kind) = [.dataEnd] ∧
    ((after (.engineUnit 5 1 clean) (sending 2)).queue 5 3).held.map (·.kind) = [.data] := by decide +kernel

/-- R163: BRD reads 8 bytes, little-endian. -/
theorem test_brd : (after (.engineUnit 5 2 clean) (reading.writeNum (storeAt 5 8) 8 0x0102030405060708)).operand 5 1 = 0x0102030405060708 := by decide +kernel

/-- R42, R43: a grant takes a credit and puts the flit on the link to the tile north, 6. -/
theorem test_grant : (after (.flitGrant 5 0 .clean) grid).flights.map (·.dst) = [6] ∧ ((after (.flitGrant 5 0 .clean) grid).queue 5 3).credits = #v[0, 0, 0, 0] := by
  decide +kernel

/-- R13, R15: the tile north of row 9 and east of column 23 does not exist. -/
theorem test_edges : neighbour 9 0 = none ∧ neighbour 239 1 = none ∧ neighbour 229 1 = some 239 ∧ neighbour 0 3 = none := by decide +kernel

/-- R24: a tick advances the counter, over the carry into TICK_HI. -/
theorem test_tick_carries : (after .tick { mod [(Reg.TIME_STATUS.ALIGNED, 1), (⟨Reg.TIME_TICK_LO, 0, 32⟩, 2 ^ 32 - 1)] with
    pins := { Pins.reset with powered := true } }).tick = 2 ^ 32 := by decide +kernel

/-- R337: a cap of 5,000 W acts as 3,000 W, and 0 W as 400 W. -/
theorem test_cap_clamps : (after (.capWrite .firmware 0xFFF) up).power.pendingCaps.map (·.2) = [3000] ∧
    (after (.capWrite .firmware 0) up).power.pendingCaps.map (·.2) = [400] := by decide +kernel

/-- R333: the eighth sample of 10,000 mV and 10 A completes a Strike of 100 W; in the period of the last sample nothing is sampled. -/
theorem test_power_samples :
    (after (.powerSample 10000 1000) { up with power := { up.power with sampled := some (up.samplePeriod.1, up.samplePeriod.2 + 1), samples := List.replicate 7 10000000 } }).power.history = [102400] ∧
    (after (.powerSample 10000 1000) sampled).power.history = [] := by decide +kernel

/-- R315: a port is not enabled while the coordinates disagree with the slot (PX 1 in slot 0). -/
theorem test_port_enable : (after (.mshPortEnable .firmware 0 1) up).fld (Reg.MSH_PORT_STAT.STATE 0) = 1 ∧
    (after (.mshPortEnable .firmware 0 1) (mod [(Reg.MSH_COORD.PX, 1)])).fld (Reg.MSH_PORT_STAT.STATE 0) = 0 := by decide +kernel

/-- R377, Table 16-1: DIS during ENABLING waits, and the end of the work then disables. -/
theorem test_disable_pending : (after (.mshPortDisable .firmware 0 2) (mod [(Reg.MSH_PORT_STAT.STATE 0, 1)])).flag (Reg.MSH_PORT_STAT.DISABLE_PENDING 0) = true ∧
    (after (.portTrained 0 (.trained 0 0 false)) (mod [(Reg.MSH_PORT_STAT.STATE 0, 1), (Reg.MSH_PORT_STAT.DISABLE_PENDING 0, 1)])).fld
      (Reg.MSH_PORT_STAT.STATE 0) = 3 := by decide +kernel

/-- R318: a write of another slot lands at its offset, byte by byte. -/
theorem test_loadstore : (after (.loadstoreRequest 0) (arrived writeRequest hot)).bytes 255 4 = [0, 1, 2, 0] := by decide +kernel

/-- R319: the message of 3 bytes is written behind a header of 64 bytes with its length at byte 2. -/
theorem test_message : (after (.messageReceive 0 3) (arrived message [(Reg.MSH_MSG_BASE_LO.BASE 3 1, 64)])).bytes (4096 + 64) 3 = [5, 6, 7] ∧
    (after (.messageReceive 0 3) (arrived message [(Reg.MSH_MSG_BASE_LO.BASE 3 1, 64)])).num (4096 + 2) 2 = 3 := by decide +kernel

/-- R218: a unit of COPY moves 128 bytes. -/
theorem test_copy : (after (.moverUnitComplete 48 .quiet) (copying.writeNum 126 4 0x04030201)).bytes (1024 + 125) 3 = [0, 1, 2] := by decide +kernel

/-- R299: CAPTURE writes SLOT, GEN and counts. -/
theorem test_capture : (after (.capture .firmware 0x80000001) (captured 1 0)).wsCapt 3 1 = 1 ∧ (after (.capture .firmware 0x80000001) (captured 1 0)).num 2 1 = 1 ∧
    (after (.capture .firmware 0x80000001) (captured 1 0)).num 4 4 = 2 := by decide +kernel

/-- R298: the last RELEASE of a slot that is not current frees it. -/
theorem test_release : (after (.release .firmware 0x90000001) (captured 0 1)).flag (Reg.CFG_WS_W0.FREED1 3) = true ∧
    (after (.release .firmware 0x90000001) (captured 0 2)).flag (Reg.CFG_WS_W0.FREED1 3) = false := by decide +kernel

/-- R292: LOAD is refused where Shadow is ARMED. -/
theorem test_load : (after (.load .firmware 0 0x80000000) (mod on)).shadowSet 0 = 1 ∧
    (after (.load .firmware 0 0x80000000) (mod (on ++ [(Reg.CFG_P_STATUS.SHADOW 0, 3)]))).flag (Reg.CFG_P_STATUS.LOAD_REFUSED 0) = true := by decide +kernel

/-- R186: a page of 1 GiB at VA 0 enters the second-level cache. -/
theorem test_walk : (after .translationWalk (paged 0x1F)).tlb2 = [⟨0, 0, 30, 0x1F⟩] ∧ (after .translationWalk (paged 0x1F)).walks = [] := by decide +kernel

/-- R256: a HOMED expert is claimed, and a walk of each of its two pages is asked for. -/
theorem test_lookup : (after .residencyLookup (looked 1 false)).num 11 1 = 2 ∧
    (after .residencyLookup (looked 1 false)).walks.map (·.va) = [0x10000, 0x20000] := by decide +kernel

/-- R353, R355: a SUBMIT to a target that is not VALID is rejected with REASON 1, and one that is accepted takes slot 0 with generation 0. -/
theorem test_submit : ((after (.submit 63 submitBytes [5] [] .ok) (logged [])).request 0).state = .queued ∧
    ((after (.submit 63 submitBytes [5] [] .ok) (logged [])).request 0).gen = 0 ∧
    ((after (.submit 63 submitBytes [5] [] .ok) (logged [(Reg.SRV_TGT.VALID 0, 0)])).request 0).state = .free := by decide +kernel

/-- R356: a CANCEL marks its request; one that names no request counts a miss. -/
theorem test_cancel : ((after (.cancel 63 (cancelBytes 0)) holding).request 0).cancelled = true ∧
    (after (.cancel 63 (cancelBytes 1)) holding).reg Reg.SRV_CANCEL_MISS = 1 := by decide +kernel

/-- R362: the waiting prompt of one token is admitted as a step of one row. -/
theorem test_admission : ((after (.stepAdmission 0) (put [(Reg.SRV_P_CAP.TOK_MAX 0, 4), (Reg.SRV_P_CAP.B_MAX 0, 4)] holding)).part 0).steps.map (·.rows) =
    [[⟨0, 1, 0, 1, true⟩]] := by decide +kernel

/-- R413: a verdict BAD decides the open step BAD with its cause. -/
theorem test_verdict : ((after (.verdictReceive 0 1 (verdict 2)) (stepped [step1] grouped)).part 0).steps.map (·.phase) = [.bad] ∧
    (after (.verdictReceive 0 1 (verdict 2)) (stepped [step1] grouped)).fld (Reg.SLG_P_VSTAT.CAUSE 0) = 9 := by decide +kernel

/-- R366: the COMMIT record of step 1 is acknowledged, so the tail words name it. -/
theorem test_record_ack : (after (.commitRecordAck 0) (committing 1 [])).journal.tail = 1 ∧
    ((after (.commitRecordAck 0) (committing 1 [])).part 0).steps.map (·.phase) = [.committing 2] := by decide +kernel

/-- R385: PREEMPT saves the resident job. -/
theorem test_preempt : (after (.preempt .firmware 0 0x80000000) (mod on)).fld (Reg.PRT_P_STAT.SWITCH 0) = 1 ∧
    (after (.preempt .firmware 0 0x80000000) (mod on)).jobState 0 0 = 5 := by decide +kernel

/-- Table 18-3: without the confirm value a fuse command is refused with RESULT 2. -/
theorem test_fuse : (after (.blowDebugLock .firmware 0x80000005) up).fld Reg.SEC_FUSE_CMD.RESULT = 2 := by decide +kernel

/-- R439: CXL.mem reads the module's own stack, and a stack that is down answers as an error. -/
theorem test_host_mem : (after (.hostMemRequest 8 (.read 2) .clean) ((mod (linked ++ hot)).writeNum 8 2 0x0201)).out = [.memData [1, 2] false] ∧
    (after (.hostMemRequest 8 (.write [1]) .clean) (mod linked)).mem = [] := by decide +kernel

/-- Table 19-3: a request beyond BAR0 is unsupported, and one of a frozen function is aborted. -/
theorem test_host_io : (after (.hostIoRequest 0 0 (2 ^ 32 - 3) (.read 4) .clean) (mod linked)).out = [.completion 0 1 [] false] ∧
    (after (.hostIoRequest 63 1 0 (.read 4) .clean) (mod (linked ++ [(⟨Reg.SEC_FNFRZ 1, 31, 1⟩, 1)]))).out = [.completion 63 2 [] false] := by decide +kernel

/-- R24: a virtual function reads the DEV_ block, and its write there is a violation. -/
theorem test_host_io_identity : (after (.hostIoRequest 3 0 Reg.DEV_LOCK (.read 4) .clean) (mod linked)).out = [.completion 3 0 [0, 0, 0, 0] false] ∧
    (after (.hostIoRequest 3 0 Reg.DEV_LOCK (.write [1, 0, 0, 0]) .clean) (mod linked)).flag Reg.DEV_LOCK.LOCK = false ∧
    (after (.hostIoRequest 3 0 Reg.DEV_LOCK (.write [1, 0, 0, 0]) .clean) (mod linked)).faultLog.map (·.code) = [codeViolation] := by decide +kernel

/-- R10, R23: a LOCK is set by a powered module alone. -/
theorem test_lock : (after (.devLock .firmware 1) State.reset).flag Reg.DEV_LOCK.LOCK = false ∧
    (after (.devLock .firmware 1) up).flag Reg.DEV_LOCK.LOCK = true := by decide +kernel

/-- R425: before the security boot has passed the rack manager's write acts and firmware's does not. -/
theorem test_before_boot : (after (.devLock .firmware 1) (mod [(Reg.SEC_STATUS.BOOTED, 0)])).flag Reg.DEV_LOCK.LOCK = false ∧
    (after (.devLock .rackManager 1) (mod [(Reg.SEC_STATUS.BOOTED, 0)])).flag Reg.DEV_LOCK.LOCK = true := by decide +kernel

/-- R439: a warm port that trains 100 Strikes after it entered ENABLING becomes ON, and one that trains later does not. -/
theorem test_train_in_time :
    (after (.partitionStateDone (.warm 0) (.done 16 64 true 1)) (mod [(Reg.TIER_UNIT.STATE 16, 1), (⟨Reg.TIME_TICK_LO, 0, 32⟩, 102400)])).tierState 16 = 2 ∧
    (after (.partitionStateDone (.warm 0) (.done 16 64 true 1)) (mod [(Reg.TIER_UNIT.STATE 16, 1), (⟨Reg.TIME_TICK_LO, 0, 32⟩, 102401)])).tierState 16 = 0 := by
  decide +kernel

/-- R447: the second violation isolates the port where VIOL_LIMIT is 2. -/
theorem test_violation : (after (.partnerResponse 0 8 .ok true) { put [(Reg.CXL_CTRL.VIOL_LIMIT, 2)] partnered with cxlViolations := [(0, 1, 1)] }).flag
      (Reg.CXL_PORT_STAT.ISOLATED 0) = true ∧
    (after (.partnerResponse 0 8 .ok true) (put [(Reg.CXL_CTRL.VIOL_LIMIT, 2)] partnered)).flag (Reg.CXL_PORT_STAT.ISOLATED 0) = false := by
  decide +kernel

/-- FIPS 180-4: the digest of "abc". -/
theorem test_sha256 : (sha256 [0x61, 0x62, 0x63]).take 4 = [0xBA, 0x78, 0x16, 0xBF] := by decide +kernel

end Sys2Proof.Tests
end

section
/-! PROOFS. What a write of a register rests on: how updates of registers compose in `State.onlyRegs`, which masters reach a block
of the control window, and which registers the record of a closed write changes. -/
namespace Sys2Proof.Machine

/-! ## Nothing but some registers changes -/

theorem State.onlyRegs.refl (s : State) (l : List Nat) : s.onlyRegs s l := ⟨rfl, fun _ _ => rfl⟩

theorem State.onlyRegs.trans {s t u : State} {l : List Nat} (h : s.onlyRegs t l) (h' : t.onlyRegs u l) : s.onlyRegs u l := by
  obtain ⟨ht, hk⟩ := h
  obtain ⟨hu, hk'⟩ := h'
  exact ⟨by rw [hu, ht], fun o ho => (hk' o ho).trans (hk o ho)⟩

theorem State.onlyRegs.setReg {s t : State} {l : List Nat} {o : Nat} (h : s.onlyRegs t l) (v : Word) (ho : o ∈ l) :
    s.onlyRegs (t.setReg o v) l := by
  obtain ⟨ht, hk⟩ := h
  refine ⟨?_, fun o' ho' => ?_⟩
  · rw [ht]; rfl
  · have hne : o' ≠ o := fun e => ho' (e ▸ ho)
    rw [State.reg_setReg_ne t v hne, hk o' ho']

theorem State.onlyRegs.setFld {s t : State} {l : List Nat} {f : Field} (h : s.onlyRegs t l) (v : Nat) (hf : f.off ∈ l) :
    s.onlyRegs (t.setFld f v) l := h.setReg _ hf

theorem State.onlyRegs.setFlag {s t : State} {l : List Nat} {f : Field} (h : s.onlyRegs t l) (b : Bool) (hf : f.off ∈ l) :
    s.onlyRegs (t.setFlag f b) l := h.setFld _ hf

theorem State.onlyRegs.faultLog {s t : State} {l : List Nat} (h : s.onlyRegs t l) : t.faultLog = s.faultLog := by
  obtain ⟨ht, -⟩ := h
  rw [ht]

/-! ## Fields -/

theorem State.flag_setFld_ne (s : State) (f g : Field) (v : Nat) (h : g.off ≠ f.off) : (s.setFld f v).flag g = s.flag g := by
  simp [State.flag, h]

theorem decide_bits_one (v i : Nat) : decide (bits v i 1 = 1) = bitOf v i := by
  rfl

/-! ## Masters -/

/-- Without input power no write reaches a register (R10). -/
theorem State.reaches_of_unpowered {s : State} (h : s.pins.powered = false) (m : Master) (o : Nat) : s.reaches m o = false := by
  cases m <;> simp [State.reaches, State.live, State.on, h]

/-- The PWR_ block hears a master at every offset or at none (R464). -/
theorem State.reaches_pwrCap {s : State} {m : Master} {o : Nat} (ho : 0x20000 ≤ o ∧ o < 0x30000) :
    s.reaches m Reg.PWR_CAP = s.reaches m o := by
  cases m <;> simp [State.reaches, ho, Reg.PWR_CAP]

theorem State.byFirmwareOrRack_unheard {s : State} {m : Master} {o : Nat} (h : s.reaches m o = false) (act : State → State) :
    s.byFirmwareOrRack m o act = s := if_pos h

theorem State.byDevMasters_unheard {s : State} {m : Master} {o : Nat} (h : s.reaches m o = false) (act : State → State) :
    s.byDevMasters m o act = s := if_pos h

theorem State.byPower_unheard {s : State} {m : Master} (h : s.reaches m Reg.PWR_CAP = false) (act : State → State) :
    s.byPower m act = s := if_pos h

section
variable {s : State} {m : Master} {o : Nat}

theorem State.byFirmwareOrRack_heard (hm : m = .firmware ∨ m = .rackManager) (h : s.reaches m o = true) (act : State → State) :
    s.byFirmwareOrRack m o act = act s := by
  rcases hm with rfl | rfl <;> simp [State.byFirmwareOrRack, h]

theorem State.byDevMasters_heard (hm : m = .firmware ∨ m = .rackManager) (h : s.reaches m o = true) (act : State → State) :
    s.byDevMasters m o act = act s := by
  rcases hm with rfl | rfl <;> simp [State.byDevMasters, h]

theorem State.byPower_heard (hm : m = .firmware ∨ m = .rackManager) (h : s.reaches m Reg.PWR_CAP = true) (act : State → State) :
    s.byPower m act = act s := by
  rcases hm with rfl | rfl <;> simp [State.byPower, h]

/-- Host function 0 writes the DEV_ block while it is not frozen (R24). -/
theorem State.byDevMasters_host0 (hl : s.live = true) (hf : s.fnFrozen 0 = false) (act : State → State) :
    s.byDevMasters (.host 0) o act = act s := by
  simp [State.byDevMasters, State.reaches, hl, hf]

end

/-- A gated write is dropped, acts, or is a host function's write of a closed block. -/
theorem State.byFirmwareOrRack_cases (s : State) (m : Master) (o : Nat) (act : State → State) :
    s.byFirmwareOrRack m o act = s ∨ s.byFirmwareOrRack m o act = act s ∨
      ∃ f, m = .host f ∧ s.byFirmwareOrRack m o act = s.closedWrite f o := by
  by_cases h : s.reaches m o = false
  · exact .inl (State.byFirmwareOrRack_unheard h act)
  · cases m with
    | firmware => simp [State.byFirmwareOrRack, h]
    | rackManager => simp [State.byFirmwareOrRack, h]
    | security => simp [State.byFirmwareOrRack]
    | host f => by_cases hf : s.fnFrozen f <;> simp [State.byFirmwareOrRack, h, hf]

theorem State.byDevMasters_cases (s : State) (m : Master) (o : Nat) (act : State → State) :
    s.byDevMasters m o act = s ∨ s.byDevMasters m o act = act s ∨
      ∃ f, m = .host f ∧ s.byDevMasters m o act = s.closedWrite f o := by
  by_cases h : s.reaches m o = false
  · exact .inl (State.byDevMasters_unheard h act)
  · cases m with
    | firmware => simp [State.byDevMasters, h]
    | rackManager => simp [State.byDevMasters, h]
    | security => simp [State.byDevMasters]
    | host f =>
      rw [State.byDevMasters, if_neg h]
      split
      · exact .inl rfl
      · split
        · exact .inr (.inl rfl)
        · exact .inr (.inr ⟨f, rfl, rfl⟩)

theorem State.byPower_cases (s : State) (m : Master) (act : State → State) : s.byPower m act = s ∨ s.byPower m act = act s := by
  by_cases h : s.reaches m Reg.PWR_CAP = false
  · exact .inl (State.byPower_unheard h act)
  · cases m with
    | firmware => simp [State.byPower, h]
    | rackManager => simp [State.byPower, h]
    | security => simp [State.byPower]
    | host f => by_cases hf : s.fnFrozen f <;> simp [State.byPower, h, hf]

/-! ## The record of a closed write -/

/-- What every step of a fold leaves, the fold leaves. -/
theorem State.reg_foldl {α : Type} {f : State → α → State} {o : Nat} (l : List α)
    (hf : ∀ x ∈ l, ∀ s, (f s x).reg o = s.reg o) (s : State) : (l.foldl f s).reg o = s.reg o := by
  induction l generalizing s with
  | nil => rfl
  | cons x l ih =>
    rw [List.foldl_cons, ih (fun y hy => hf y (List.mem_cons_of_mem x hy)), hf x List.mem_cons_self]

/-- Freezing the logs of a host function writes the SRV_ block alone. -/
theorem State.reg_freezeLogs (s : State) (f : Nat) {o : Nat} (ho : o < 0x30000 ∨ 0x70000 ≤ o) : (s.freezeLogs f).reg o = s.reg o := by
  unfold State.freezeLogs
  refine State.reg_foldl (List.range 64) (fun n hn s => ?_) s
  have hn : n < 64 := List.mem_range.mp hn
  have hne : o ≠ 0x60418 + n * 0x20 := by omega
  have hset : (s.setFlag (Reg.SRV_LOG_STAT.FROZEN n) true).reg o = s.reg o := State.reg_setFld_ne s _ _ hne
  dsimp only
  split
  · split
    · exact (State.reg_congr (State.emit_regs _ _) o).trans hset
    · exact hset
  · rfl

/-- A write of a closed block writes registers of the SEC_ and SRV_ blocks alone. -/
theorem State.reg_closedWrite (s : State) (f : Fin 64) (o' : Nat) {o : Nat} (ho : o < 0x30000 ∨ 0x70000 ≤ o) :
    (s.closedWrite f o').reg o = s.reg o := by
  have h1 : o ≠ 0x30030 := by omega
  have h2 : o ≠ 0x30020 + f.val / 32 * 0x4 := by omega
  unfold State.closedWrite State.hostViolation
  rw [State.reg_freezeLogs _ _ ho]
  exact (State.reg_setReg_ne _ _ h1).trans (State.reg_setReg_ne _ _ h2)

end Sys2Proof.Machine
end

section
/-! PROOFS. Where the registers with RWL fields lie (R9), and that a write of one leaves it while its block is locked. -/
namespace Sys2Proof.Machine

/-! ## The rows of the register maps -/

theorem exists_row_of_regSpec {o : Nat} {r : RegSpec} (h : regSpec o = some r) :
    ∃ row ∈ (blockRows o).1, row.lists (blockRows o).2 = true ∧ row.spec = r := by
  unfold regSpec at h
  obtain ⟨row, hrow, rfl⟩ := Option.map_eq_some_iff.mp h
  have hlists := List.find?_some hrow
  exact ⟨row, List.mem_of_find?_eq_some hrow, hlists, rfl⟩

theorem blockRows_dev {o : Nat} (h : o < 0x10000) : blockRows o = (regRowsDev, o) := by
  have hd : o / 0x10000 = 0 := by omega
  have hm : o % 0x10000 = o := by omega
  have hw : o < 0x80000 := by omega
  simp [blockRows, hd, hm, hw]

theorem blockRows_pwr {o : Nat} (h : 0x20000 ≤ o ∧ o < 0x30000) : blockRows o = (regRowsPwr, o - 0x20000) := by
  have hd : o / 0x10000 = 2 := by omega
  have hm : o % 0x10000 = o - 0x20000 := by omega
  have hw : o < 0x80000 := by omega
  simp [blockRows, hd, hm, hw]

theorem blockRows_msh {o : Nat} (h : 0xB000000 ≤ o ∧ o < 0xC000000) : blockRows o = (regRowsMsh, o - 0xB000000) := by
  have hd : o / 0x1000000 = 11 := by omega
  have hm : o % 0x1000000 = o - 0xB000000 := by omega
  have hw : ¬ o < 0x80000 ∧ ¬ 0x10000000 ≤ o ∧ 0x8000000 ≤ o ∧ o < 0xD000000 := by omega
  simp [blockRows, hd, hm, hw]

theorem blockRows_cxl {o : Nat} (h : 0xC000000 ≤ o ∧ o < 0xD000000) : blockRows o = (regRowsCxl, o - 0xC000000) := by
  have hd : o / 0x1000000 = 12 := by omega
  have hm : o % 0x1000000 = o - 0xC000000 := by omega
  have hw : ¬ o < 0x80000 ∧ ¬ 0x10000000 ≤ o ∧ 0x8000000 ≤ o ∧ o < 0xD000000 := by omega
  simp [blockRows, hd, hm, hw]

/-- Only the DEV_, PWR_, MSH_ and CXL_ blocks have RWL fields. -/
theorem rwl_block {o : Nat} {row : RegRow} (hrow : row ∈ (blockRows o).1) (hr : row.spec.rwl ≠ 0) :
    o < 0x10000 ∨ (0x20000 ≤ o ∧ o < 0x30000) ∨ (0xB000000 ≤ o ∧ o < 0xC000000) ∨ (0xC000000 ≤ o ∧ o < 0xD000000) := by
  have none_of {l : List RegRow} (hl : ∀ x ∈ l, x.spec.rwl = 0) (hx : row ∈ l) : False := hr (hl row hx)
  unfold blockRows at hrow
  split at hrow
  · dsimp only at hrow
    split at hrow
    · omega
    · exact (none_of (by decide) hrow).elim
    · omega
    all_goals exact (none_of (by decide) hrow).elim
  split at hrow
  · dsimp only at hrow
    split at hrow
    · exact (none_of (by decide) hrow).elim
    split at hrow
    · exact (none_of (by decide) hrow).elim
    unfold typeRows at hrow
    repeat' split at hrow
    all_goals exact (none_of (by decide) hrow).elim
  split at hrow
  · dsimp only at hrow
    split at hrow
    · exact (none_of (by decide) hrow).elim
    · exact (none_of (by decide) hrow).elim
    · exact (none_of (by decide) hrow).elim
    · omega
    · next h8 h9 h10 _ =>
      have hne : o / 0x1000000 ≠ 8 ∧ o / 0x1000000 ≠ 9 ∧ o / 0x1000000 ≠ 10 := ⟨h8, h9, h10⟩
      omega
  · cases hrow

/-- Of the register's fields a write changes only those with access RWL. -/
abbrev RegSpec.rwlAlone (r : RegSpec) : Prop := r.rw = 0 ∧ r.wo = 0 ∧ r.w1c = 0 ∧ r.w1cAll = [] ∧ r.w1s = 0

/-- While its block is locked such a register keeps its value (R9). -/
theorem RegSpec.written_locked {r : RegSpec} (h : r.rwlAlone) (old v : Word) : r.written true old v = old := by
  obtain ⟨hrw, hwo, hc, hca, hs⟩ := h
  simp only [RegSpec.written, hrw, hwo, hc, hca, hs, if_true, Nat.add_zero, List.foldl_nil, BitVec.and_zero, BitVec.not_zero,
    BitVec.and_allOnes, BitVec.or_zero]

/-- No field of another code that a write changes stands beside an RWL field. -/
theorem rwlAlone_of_regSpec {o : Nat} {r : RegSpec} (h : regSpec o = some r) (hr : r.rwl ≠ 0) : r.rwlAlone := by
  obtain ⟨row, hrow, -, rfl⟩ := exists_row_of_regSpec h
  have hall : ∀ x ∈ regRowsDev ++ regRowsPwr ++ regRowsMsh ++ regRowsCxl, x.spec.rwl ≠ 0 → x.spec.rwlAlone := by decide
  refine hall row ?_ hr
  simp only [List.mem_append]
  rcases rwl_block hrow hr with hb | hb | hb | hb
  · rw [blockRows_dev hb] at hrow; tauto
  · rw [blockRows_pwr hb] at hrow; tauto
  · rw [blockRows_msh hb] at hrow; tauto
  · rw [blockRows_cxl hb] at hrow; tauto

/-- A row of plain copies, one word apart, lists the word-aligned offsets of its copies. -/
theorem RegRow.exists_copy_of_lists {row : RegRow} {o : Nat} (hrow : row.stride = 4 ∧ row.stride2 = 4)
    (h : row.lists o = true) : ∃ k < row.count, o = row.off + k * 4 := by
  obtain ⟨h1, h2⟩ := hrow
  simp only [RegRow.lists, h1, h2, Bool.and_eq_true, decide_eq_true_eq] at h
  exact ⟨(o - row.off) / 4, by omega, by omega⟩

/-- Every register with RWL fields is one that the access codes alone govern, or MSH_PORTn_CTRL. -/
theorem rwl_place {o : Nat} {r : RegSpec} (h : regSpec o = some r) (hr : r.rwl ≠ 0) :
    o < 0x10000 ∨ (0x20000 ≤ o ∧ o < 0x30000 ∧ o ≠ Reg.PWR_CAP ∧ o ≠ Reg.PWR_BANK) ∨ o = Reg.MSH_COORD ∨
      (∃ n < 5, o = Reg.MSH_PORT_CTRL n) ∨ (0xC000000 ≤ o ∧ o < 0xD000000) := by
  obtain ⟨row, hrow, hlists, rfl⟩ := exists_row_of_regSpec h
  rcases rwl_block hrow hr with hb | hb | hb | hb
  · exact .inl hb
  · rw [blockRows_pwr hb] at hrow hlists
    have hpwr : ∀ x ∈ regRowsPwr, x.spec.rwl ≠ 0 →
        (x.stride = 4 ∧ x.stride2 = 4) ∧ x.count = 1 ∧ x.off ≠ 0x8 ∧ x.off ≠ 0x40 := by decide
    obtain ⟨hstep, hcount, hcap, hbank⟩ := hpwr row hrow hr
    obtain ⟨k, hk, ho⟩ := RegRow.exists_copy_of_lists hstep hlists
    dsimp only [Reg.PWR_CAP, Reg.PWR_BANK] at ho ⊢
    omega
  · rw [blockRows_msh hb] at hrow hlists
    have hmsh : ∀ x ∈ regRowsMsh, x.spec.rwl ≠ 0 →
        (x.stride = 4 ∧ x.stride2 = 4) ∧ (x.off = 0x8 ∧ x.count = 1 ∨ x.off = 0x20 ∧ x.count = 5) := by decide
    obtain ⟨hstep, hoff⟩ := hmsh row hrow hr
    obtain ⟨k, hk, ho⟩ := RegRow.exists_copy_of_lists hstep hlists
    dsimp only at ho
    rcases hoff with ⟨hoff, hcount⟩ | ⟨hoff, hcount⟩
    · refine .inr (.inr (.inl ?_))
      dsimp only [Reg.MSH_COORD]
      omega
    · refine .inr (.inr (.inr (.inl ⟨k, by omega, ?_⟩)))
      dsimp only [Reg.MSH_PORT_CTRL]
      omega
  · exact .inr (.inr (.inr (.inr hb)))

/-! ## Writes that the access codes alone govern -/

/-- DEV_LOCK locks the DEV_ block. -/
theorem State.lockedAt_dev {o : Nat} (h : o < 0x10000) (s : State) : s.lockedAt o = s.flag Reg.DEV_LOCK.LOCK := if_pos h

/-- MSH_LOCK locks the MSH_ block. -/
theorem State.lockedAt_msh {o : Nat} (h : 0xB000000 ≤ o ∧ o < 0xC000000) (s : State) : s.lockedAt o = s.flag Reg.MSH_LOCK.LOCK := by
  have hdev : ¬ o < 0x10000 := by omega
  have hpwr : ¬ o < 0x30000 := by omega
  rw [State.lockedAt, if_neg hdev, if_neg hpwr, if_pos h.2]

theorem State.writePlain_listed {o : Nat} {r : RegSpec} (h : regSpec o = some r) (s : State) (v : Word) :
    s.writePlain o v = s.setReg o (r.written (s.lockedAt o) (s.reg o) v) := by
  rw [State.writePlain, h]

theorem State.writePlain_unlisted {o : Nat} (h : regSpec o = none) (s : State) (v : Word) : s.writePlain o v = s := by
  rw [State.writePlain, h]

/-! ## A register that a write leaves, with no fault of its master -/

/-- The register at `o` stays, and a write by `m` writes no fault record unless `m` is a host function. -/
structure State.Untouched (s t : State) (m : Master) (o : Nat) : Prop where
  reg : t.reg o = s.reg o
  faultLog : (∀ f, m ≠ .host f) → t.faultLog = s.faultLog

theorem State.Untouched.refl (s : State) (m : Master) (o : Nat) : s.Untouched s m o := ⟨rfl, fun _ => rfl⟩

theorem State.Untouched.setFlag {s t : State} {m : Master} {o : Nat} {f : Field} (h : s.Untouched t m o) (b : Bool) (ho : o ≠ f.off) :
    s.Untouched (t.setFlag f b) m o := ⟨(State.reg_setFld_ne t f _ ho).trans h.reg, h.faultLog⟩

/-- A gated write leaves untouched what its action leaves so: a violation is recorded elsewhere. -/
theorem State.Untouched.of_gate {s t u : State} {m : Master} {o : Nat} (hu : s.Untouched u m o) (ho : o < 0x30000 ∨ 0x70000 ≤ o)
    (ht : t = s ∨ t = u ∨ ∃ f, m = .host f ∧ t = s.closedWrite f o) : s.Untouched t m o := by
  rcases ht with rfl | rfl | ⟨f, rfl, rfl⟩
  · exact .refl t m o
  · exact hu
  · exact ⟨State.reg_closedWrite s f o ho, fun hm => absurd rfl (hm f)⟩

/-- The access codes let nothing be written in a locked register with RWL fields. -/
theorem State.untouched_writePlain {s : State} {o : Nat} {r : RegSpec} (h : regSpec o = some r) (hr : r.rwlAlone)
    (hl : s.lockedAt o = true) (m : Master) (v : Word) : s.Untouched (s.writePlain o v) m o := by
  have hw : s.writePlain o v = s.setReg o (s.reg o) := by
    rw [State.writePlain_listed h, hl, RegSpec.written_locked hr]
  rw [hw]
  exact ⟨State.reg_setReg_same s o _, fun _ => rfl⟩

/-! ## EN and DIS -/

theorem State.onlyRegs_enWritten (s : State) (f : EnFields) : s.onlyRegs (s.enWritten f) [f.state.off, f.enp.off, f.disp.off] := by
  have h := State.onlyRegs.refl s [f.state.off, f.enp.off, f.disp.off]
  unfold State.enWritten
  split
  · exact h.setFld _ (by simp)
  · exact h.setFlag _ (by simp)
  · exact h
  · exact h.setFlag _ (by simp)

theorem State.onlyRegs_disWritten (s : State) (f : EnFields) : s.onlyRegs (s.disWritten f) [f.state.off, f.enp.off, f.disp.off] := by
  have h := State.onlyRegs.refl s [f.state.off, f.enp.off, f.disp.off]
  unfold State.disWritten
  split
  · exact h
  · exact h.setFlag _ (by simp)
  · exact h.setFld _ (by simp)
  · exact h.setFlag _ (by simp)

/-- EN and DIS change STATE and the pending bits alone (Table 16-1). -/
theorem State.onlyRegs_enDis (s : State) (f : EnFields) (en dis : Bool) :
    s.onlyRegs (s.enDis f en dis) [f.state.off, f.enp.off, f.disp.off] := by
  have hen : s.onlyRegs (if en then s.enWritten f else s) [f.state.off, f.enp.off, f.disp.off] := by
    split
    · exact s.onlyRegs_enWritten f
    · exact .refl s _
  unfold State.enDis
  dsimp only
  split
  · exact hen.trans (State.onlyRegs_disWritten _ f)
  · exact hen

/-! ## PORTn_CTRL -/

/-- A port's stop changes what its action changes, and the port's own state. -/
theorem State.untouched_stopPort {s : State} {n : Nat} {act : State → State} {m : Master} {o : Nat} (h : s.Untouched (act s) m o) :
    s.Untouched (s.stopPort n act) m o := by
  unfold State.stopPort
  dsimp only
  split
  · exact ⟨(State.reg_congr (State.setPort_regs _ _ _) o).trans h.reg, h.faultLog⟩
  · exact h

/-- While MSH_LOCK is set a write of MSH_PORTn_CTRL is a command alone, which shows in MSH_PORTn_STAT. -/
theorem State.untouched_writePortCtrl {s : State} {n o : Nat} (ho : o ≠ Reg.MSH_PORT_STAT n) (hl : s.flag Reg.MSH_LOCK.LOCK = true)
    (m : Master) (v : Word) : s.Untouched (s.writePortCtrl n v) m o := by
  have hstop (en dis : Bool) : s.Untouched (s.stopPort n (·.enDis (enPort n) en dis)) m o := by
    have hlog := (s.onlyRegs_enDis (enPort n) en dis).faultLog
    obtain ⟨-, hkeeps⟩ := s.onlyRegs_enDis (enPort n) en dis
    have hmem : o ∉ [(enPort n).state.off, (enPort n).enp.off, (enPort n).disp.off] := by simp [enPort, ho]
    exact State.untouched_stopPort ⟨hkeeps o hmem, fun _ => hlog⟩
  unfold State.writePortCtrl
  simp only [hl, true_or, if_true]
  split
  · exact (hstop _ _).setFlag _ ho
  · exact hstop _ _

/-! ## The window -/

theorem State.writeRegister_dev {o : Nat} (h : o < 0x10000) (s : State) (m : Master) (v : Word) :
    s.writeRegister m o v = s.byDevMasters m o (·.writePlain o v) := if_pos h

theorem State.writeRegister_pwr {o : Nat} (h : 0x20000 ≤ o ∧ o < 0x30000) (s : State) (m : Master) (v : Word) :
    s.writeRegister m o v = s.byPower m (·.writePwr o v) := by
  have h1 : ¬ o < 0x10000 := by omega
  have h2 : ¬ o < 0x20000 := by omega
  rw [State.writeRegister, if_neg h1, if_neg h2, if_pos h.2]

theorem State.writeRegister_msh {o : Nat} (h : 0xB000000 ≤ o ∧ o < 0xC000000) (s : State) (m : Master) (v : Word) :
    s.writeRegister m o v = s.byFirmwareOrRack m o (·.writeMsh o v) := by
  have hlow {k : Nat} (hk : k ≤ 0xB000000) : ¬ o < k := by omega
  simp [State.writeRegister, hlow, h]

theorem State.writeRegister_cxl {o : Nat} (h : 0xC000000 ≤ o ∧ o < 0xD000000) (s : State) (m : Master) (v : Word) :
    s.writeRegister m o v = s.byFirmwareOrRack m o (·.writePlain o v) := by
  have hlow {k : Nat} (hk : k ≤ 0xC000000) : ¬ o < k := by omega
  simp [State.writeRegister, hlow, h]

theorem State.writeMsh_coord (s : State) (v : Word) : s.writeMsh Reg.MSH_COORD v = s.writePlain Reg.MSH_COORD v := by
  simp [State.writeMsh, copyOf, Reg.MSH_COORD, Reg.MSH_CTRL, Reg.MSH_PORT_CTRL, Reg.MSH_VCCRD, Reg.MSH_P_CTRL]

theorem State.writeMsh_portCtrl {n : Nat} (hn : n < 5) (s : State) (v : Word) :
    s.writeMsh (Reg.MSH_PORT_CTRL n) v = s.writePortCtrl n v := by
  have hctrl : Reg.MSH_PORT_CTRL n ≠ Reg.MSH_CTRL := by dsimp only [Reg.MSH_PORT_CTRL, Reg.MSH_CTRL]; omega
  have hcopy : copyOf (Reg.MSH_PORT_CTRL n) (Reg.MSH_PORT_CTRL 0) 4 5 = some n := by
    simp [copyOf, Reg.MSH_PORT_CTRL, hn]
  simp only [State.writeMsh, if_neg hctrl, hcopy]

/-- A write of a locked register with RWL fields leaves it as it was, and is no fault of the master's. -/
theorem State.untouched_writeRegister_locked {s : State} {o : Nat} {r : RegSpec} (h : regSpec o = some r) (hr : r.rwl ≠ 0)
    (hl : s.lockedAt o = true) (m : Master) (v : Word) : s.Untouched (s.writeRegister m o v) m o := by
  have hplain : s.Untouched (s.writePlain o v) m o := State.untouched_writePlain h (rwlAlone_of_regSpec h hr) hl m v
  rcases rwl_place h hr with ho | ⟨ho, ho', hcap, hbank⟩ | rfl | ⟨n, hn, rfl⟩ | ho
  · rw [State.writeRegister_dev ho]
    exact hplain.of_gate (by omega) (s.byDevMasters_cases m o _)
  · rw [State.writeRegister_pwr ⟨ho, ho'⟩]
    have hpwr : s.writePwr o v = s.writePlain o v := by rw [State.writePwr, if_neg hcap, if_neg hbank]
    exact hplain.of_gate (by omega) ((s.byPower_cases m (·.writePwr o v)).imp_right fun e => .inl (e.trans hpwr))
  · rw [State.writeRegister_msh (by decide)]
    refine .of_gate ?_ (by decide) (s.byFirmwareOrRack_cases m Reg.MSH_COORD _)
    rw [State.writeMsh_coord]
    exact hplain
  · have hat : 0xB000000 ≤ Reg.MSH_PORT_CTRL n ∧ Reg.MSH_PORT_CTRL n < 0xC000000 := by dsimp only [Reg.MSH_PORT_CTRL]; omega
    have hne : Reg.MSH_PORT_CTRL n ≠ Reg.MSH_PORT_STAT n := by dsimp only [Reg.MSH_PORT_CTRL, Reg.MSH_PORT_STAT]; omega
    rw [State.writeRegister_msh hat]
    refine .of_gate ?_ (.inr (by omega)) (s.byFirmwareOrRack_cases m (Reg.MSH_PORT_CTRL n) _)
    rw [State.writeMsh_portCtrl hn]
    exact State.untouched_writePortCtrl hne ((State.lockedAt_msh hat s).symm.trans hl) m v
  · rw [State.writeRegister_cxl ho]
    exact hplain.of_gate (by omega) (s.byFirmwareOrRack_cases m o _)

end Sys2Proof.Machine
end

section
/-! PROOFS. The statements of 00_scope.md: what a command completes with, the register window's writes, TIME_CTRL and the LOCK
registers, reset and the loss of input power. -/
namespace Sys2Proof.Machine

/-! ## RWL fields -/

/-- Settles O14: where the RWL fields lie, a locked register stays, whichever master writes it. -/
theorem lockedFieldsIgnoreWrites : Obligations.LockedFieldsIgnoreWrites := by
  intro m o v s r h hr hl
  have hu : s.Untouched (registerWrite m o v s) m o := by
    unfold registerWrite
    split
    · exact State.untouched_writeRegister_locked h hr hl m v
    · exact .refl s m o
  exact ⟨registerWrite m o v s, rfl, by rw [hu.reg], hu.faultLog⟩

/-! ## The DEV_ block -/

theorem registerWrite_unheard {s : State} {m : Master} {o : Nat} (h : s.reaches m o = false) (v : Word) :
    registerWrite m o v s = s := by
  rw [registerWrite, h]; rfl

theorem registerWrite_dev {s : State} {m : Master} {o : Nat} (ho : o < 0x10000) (hm : m = .firmware ∨ m = .rackManager)
    (h : s.reaches m o = true) (v : Word) : registerWrite m o v s = s.writePlain o v := by
  rw [registerWrite, if_pos h, State.writeRegister_dev ho, State.byDevMasters_heard hm h]

/-- Settles O13: the gate lets the write through, and the access codes alone say what it leaves. -/
theorem registerWriteFollowsAccessCodes : Obligations.RegisterWriteFollowsAccessCodes := by
  refine ⟨fun m o v s hm ho h => ?_, fun m o v s hp => ?_⟩
  · have hexec : exec (.registerWrite m o v) s = .next (s.writePlain o v) := congrArg _ (registerWrite_dev ho hm h v)
    refine ⟨fun r hr => ⟨_, hexec, ?_, ?_⟩, fun hr => ?_⟩
    · rw [State.writePlain_listed hr, State.reg_setReg_same, State.lockedAt_dev ho]
    · rw [State.writePlain_listed hr]
      exact (State.onlyRegs.refl s [o]).setReg _ List.mem_cons_self
    · rw [hexec, State.writePlain_unlisted hr]
  · exact congrArg _ (registerWrite_unheard (State.reaches_of_unpowered hp m o) v)

/-! ## TIME_CTRL and the LOCK registers -/

theorem State.onlyRegs_writeLock (s : State) (f : Field) (v : Word) : s.onlyRegs (s.writeLock f v) [f.off] := by
  unfold State.writeLock
  split
  · exact (State.onlyRegs.refl s _).setFlag _ List.mem_cons_self
  · exact .refl s _

/-- A LOCK bit only sets (R23). -/
theorem State.flag_writeLock (s : State) {f : Field} (hf : f.lo + f.width ≤ 32) (hw : f.width = 1) (v : Word) :
    (s.writeLock f v).flag f = (s.flag f || bitOf v.toNat 0) := by
  unfold State.writeLock
  split
  · next h => rw [State.flag_setFlag_same s f true hf hw, h, Bool.or_true]
  · next h => rw [Bool.eq_false_of_not_eq_true h, Bool.or_false]

/-- What a write of a LOCK register does to the state. -/
theorem State.writeLock_spec (s : State) {f : Field} (hf : f.lo + f.width ≤ 32) (hw : f.width = 1) (v : Word) :
    (s.writeLock f v).flag f = (s.flag f || bitOf v.toNat 0) ∧ s.onlyRegs (s.writeLock f v) [f.off] :=
  ⟨s.flag_writeLock hf hw v, s.onlyRegs_writeLock f v⟩

/-- TIME_CTRL with ANOM_LIMIT and INT_EN written. -/
def State.setTimeCtrl (s : State) (v : Word) : State :=
  (s.setFld Reg.TIME_CTRL.ANOM_LIMIT (bits v.toNat 8 8)).setFld Reg.TIME_CTRL.INT_EN (bits v.toNat 1 1)

theorem State.writeTimeCtrl_eq (s : State) (v : Word) : s.writeTimeCtrl v =
    if bitOf v.toNat 0 ∧ (s.setTimeCtrl v).flag Reg.TIME_STATUS.ALIGNED = false then (s.setTimeCtrl v).setFlag Reg.TIME_STATUS.ARMED true
    else s.setTimeCtrl v := rfl

theorem State.fld_setTimeCtrl_anomLimit (s : State) (v : Word) : (s.setTimeCtrl v).fld Reg.TIME_CTRL.ANOM_LIMIT = bits v.toNat 8 8 := by
  rw [State.setTimeCtrl, State.fld_setFld_disjoint _ Reg.TIME_CTRL.INT_EN Reg.TIME_CTRL.ANOM_LIMIT _ rfl (by decide) (by decide),
    State.fld_setFld_same _ _ _ (by decide)]
  exact Nat.mod_eq_of_lt (bits_lt _ 8 8)

theorem State.flag_setTimeCtrl_intEn (s : State) (v : Word) : (s.setTimeCtrl v).flag Reg.TIME_CTRL.INT_EN = bitOf v.toNat 1 := by
  rw [State.flag, State.setTimeCtrl, State.fld_setFld_same _ _ _ (by decide), Nat.mod_eq_of_lt (bits_lt _ 1 1), decide_bits_one]

theorem State.flag_setTimeCtrl_ne (s : State) (v : Word) {g : Field} (h : g.off ≠ Reg.TIME_CTRL) :
    (s.setTimeCtrl v).flag g = s.flag g := by
  rw [State.setTimeCtrl, State.flag_setFld_ne _ _ _ _ h, State.flag_setFld_ne _ _ _ _ h]

theorem State.onlyRegs_writeTimeCtrl (s : State) (v : Word) : s.onlyRegs (s.writeTimeCtrl v) [Reg.TIME_CTRL, Reg.TIME_STATUS] := by
  have hset : s.onlyRegs (s.setTimeCtrl v) [Reg.TIME_CTRL, Reg.TIME_STATUS] :=
    ((State.onlyRegs.refl s _).setFld _ List.mem_cons_self).setFld _ List.mem_cons_self
  rw [State.writeTimeCtrl_eq]
  split
  · exact hset.setFlag _ (List.mem_cons_of_mem _ List.mem_cons_self)
  · exact hset

/-- ARM touches ARMED alone. -/
theorem State.fld_writeTimeCtrl (s : State) (v : Word) {g : Field} (h : g.off = Reg.TIME_CTRL ∨ g = Reg.TIME_STATUS.ALIGNED) :
    (s.writeTimeCtrl v).fld g = (s.setTimeCtrl v).fld g := by
  rw [State.writeTimeCtrl_eq]
  split
  · rcases h with h | rfl
    · have hne : g.off ≠ Reg.TIME_STATUS.ARMED.off := by rw [h]; decide
      exact State.fld_setFld_ne _ _ _ _ hne
    · exact State.fld_setFld_disjoint _ _ _ _ rfl (by decide) (by decide)
  · rfl

/-- A 1 in ARM arms a module that is not aligned (R27). -/
theorem State.armed_writeTimeCtrl (s : State) (v : Word) : (s.writeTimeCtrl v).flag Reg.TIME_STATUS.ARMED =
    (s.flag Reg.TIME_STATUS.ARMED || (bitOf v.toNat 0 && !s.flag Reg.TIME_STATUS.ALIGNED)) := by
  have harmed := s.flag_setTimeCtrl_ne v (g := Reg.TIME_STATUS.ARMED) (by decide)
  have haligned := s.flag_setTimeCtrl_ne v (g := Reg.TIME_STATUS.ALIGNED) (by decide)
  rw [State.writeTimeCtrl_eq, haligned]
  split
  · next h =>
    obtain ⟨harm, hal⟩ := h
    rw [State.flag_setFlag_same _ _ _ (by decide) rfl, harm, hal]
    simp
  · next h =>
    have hoff : (bitOf v.toNat 0 && !s.flag Reg.TIME_STATUS.ALIGNED) = false := by simpa using h
    rw [harmed, hoff, Bool.or_false]

/-- The rows that write a LOCK, each with its field. -/
def lockRows (m : Master) (v : Word) : List (Instr × Field) :=
  [(.devLock m v, Reg.DEV_LOCK.LOCK), (.pwrLock m v, Reg.PWR_LOCK.LOCK), (.mshLock m v, Reg.MSH_LOCK.LOCK),
    (.cxlLock m v, Reg.CXL_LOCK.LOCK)]

section
variable {m : Master} {v : Word} {c : Instr} {f : Field}

theorem lockRows_cases (hc : (c, f) ∈ lockRows m v) :
    (c = .devLock m v ∧ f = Reg.DEV_LOCK.LOCK) ∨ (c = .pwrLock m v ∧ f = Reg.PWR_LOCK.LOCK) ∨
      (c = .mshLock m v ∧ f = Reg.MSH_LOCK.LOCK) ∨ (c = .cxlLock m v ∧ f = Reg.CXL_LOCK.LOCK) := by
  simpa [lockRows] using hc

theorem lockRows_oneBit (hc : (c, f) ∈ lockRows m v) : f.lo + f.width ≤ 32 ∧ f.width = 1 := by
  rcases lockRows_cases hc with ⟨-, rfl⟩ | ⟨-, rfl⟩ | ⟨-, rfl⟩ | ⟨-, rfl⟩ <;> decide

/-- Without input power no LOCK is written (R10). -/
theorem exec_lock_unpowered {s : State} (hp : s.pins.powered = false) (hc : (c, f) ∈ lockRows m v) : exec c s = .next s := by
  have hr := State.reaches_of_unpowered hp m
  rcases lockRows_cases hc with ⟨rfl, rfl⟩ | ⟨rfl, rfl⟩ | ⟨rfl, rfl⟩ | ⟨rfl, rfl⟩
  · exact congrArg _ (State.byDevMasters_unheard (hr _) _)
  · exact congrArg _ (State.byPower_unheard (hr _) _)
  · exact congrArg _ (State.byFirmwareOrRack_unheard (hr _) _)
  · exact congrArg _ (State.byFirmwareOrRack_unheard (hr _) _)

theorem exec_lock_heard {s : State} (hm : m = .firmware ∨ m = .rackManager) (hc : (c, f) ∈ lockRows m v)
    (h : s.reaches m f.off = true) : exec c s = .next (s.writeLock f v) := by
  rcases lockRows_cases hc with ⟨rfl, rfl⟩ | ⟨rfl, rfl⟩ | ⟨rfl, rfl⟩ | ⟨rfl, rfl⟩
  · exact congrArg _ (State.byDevMasters_heard hm h _)
  · have hcap : s.reaches m Reg.PWR_CAP = true := (State.reaches_pwrCap (by decide)).trans h
    exact congrArg _ (State.byPower_heard hm hcap _)
  · exact congrArg _ (State.byFirmwareOrRack_heard hm h _)
  · exact congrArg _ (State.byFirmwareOrRack_heard hm h _)

end

/-- Settles O10, from what a write of TIME_CTRL and of a LOCK does once its gate lets it through. -/
theorem timeControlAndLocks : Obligations.TimeControlAndLocks := by
  refine ⟨fun m v s hm h => ?_, fun m v s c f hc => ⟨fun hm h => ?_, fun hp => exec_lock_unpowered hp hc⟩, fun v s hl hf => ?_⟩
  · refine ⟨s.writeTimeCtrl v, congrArg _ (State.byFirmwareOrRack_heard hm h _), ?_, ?_, s.armed_writeTimeCtrl v, ?_,
      s.onlyRegs_writeTimeCtrl v⟩
    · rw [State.fld_writeTimeCtrl _ _ (.inl rfl), State.fld_setTimeCtrl_anomLimit]
    · rw [State.flag, State.fld_writeTimeCtrl _ _ (.inl rfl)]
      exact s.flag_setTimeCtrl_intEn v
    · rw [State.flag, State.fld_writeTimeCtrl _ _ (.inr rfl)]
      exact s.flag_setTimeCtrl_ne v (by decide)
  · obtain ⟨hlow, hwidth⟩ := lockRows_oneBit hc
    exact ⟨_, exec_lock_heard hm hc h, s.writeLock_spec hlow hwidth v⟩
  · exact ⟨s.writeLock Reg.DEV_LOCK.LOCK v, congrArg _ (State.byDevMasters_host0 hl hf _), s.writeLock_spec (by decide) rfl v⟩

/-! ## Reset and the loss of input power -/

theorem Fuses.Blown.refl (f : Fuses) : f.Blown f :=
  ⟨rfl, rfl, rfl, rfl, BitVec.and_self, Nat.le_refl _, Nat.le_refl _, id⟩

/-- A revocation bit that is set stays set. -/
theorem Fuses.blown_revoke (f : Fuses) (b : BitVec 2) : f.Blown { f with revoke := f.revoke ||| b } :=
  ⟨rfl, rfl, rfl, rfl, by ext i; simpa using Or.inl, Nat.le_refl _, Nat.le_refl _, id⟩

/-- A fuse command only blows fuses (R422). -/
theorem Fuses.blown_blow (f : Fuses) (op target n : Nat) : f.Blown (f.blow op target n) := by
  unfold Fuses.blow
  split
  · split
    · exact .refl f
    · exact f.blown_revoke 1
  · split
    · exact .refl f
    · exact f.blown_revoke 2
  · exact { Fuses.Blown.refl f with fwArb := Nat.le_max_left _ _ }
  · exact { Fuses.Blown.refl f with packArb := Nat.le_max_left _ _ }
  · split
    · exact .refl f
    · exact { Fuses.Blown.refl f with debugLock := fun _ => rfl }

theorem State.fusesBlown_idle {s : State} (h : s.security.fuseOp = none) (n : Nat) : s.fusesBlown n = s.fuses := by
  rw [State.fusesBlown, h]

theorem State.blown_fusesBlown (s : State) (n : Nat) : s.fuses.Blown (s.fusesBlown n) := by
  unfold State.fusesBlown
  split
  · exact s.fuses.blown_blow _ _ n
  · exact .refl _

/-- A table of which only some keys are kept reads the others as unlisted. -/
theorem Sparse.get_filter_key {α : Type} (d : Nat → α) (t : List (Nat × α)) (p : Nat → Bool) (k : Nat) :
    Sparse.get d (t.filter (fun e => p e.1)) k = if p k then Sparse.get d t k else d k := by
  induction t with
  | nil => simp
  | cons e t ih =>
    rw [List.filter_cons]
    by_cases hk : e.1 = k
    · by_cases hp : p k <;> simp [Sparse.get, hk, hp, ih]
    · by_cases hp : p e.1 <;> simp [Sparse.get, hk, hp, ih]

/-- Settles O15: the tiers' bytes are those that the filter keeps, and a fuse command in progress only blows fuses. -/
theorem inputPowerResetLeavesWhatIsOutside : Obligations.InputPowerResetLeavesWhatIsOutside := fun blown s =>
  ⟨inputPowerReset blown s, rfl, Sparse.get_nil regReset, Sparse.get_filter_key memReset s.mem tierByte, s.blown_fusesBlown blown,
    fun h => State.fusesBlown_idle h blown, rfl⟩

/-- Settles O3: nothing is listed at reset, and PWR_GOOD is low. -/
theorem resetIsCanonical : Obligations.ResetIsCanonical :=
  ⟨⟨rfl, rfl, rfl⟩, rfl, rfl, rfl, Sparse.get_nil regReset⟩

/-! ## Commands -/

/-- Settles O2, by cases on the command: the meaning that each arm calls answers a next state. -/
theorem everyCommandCompletes : Obligations.EveryCommandCompletes := by
  intro c s
  cases c <;> exact ⟨_, rfl⟩

end Sys2Proof.Machine
end

section
/-! PROOFS. The statements of 01_kenlum_module.md on the queue, on the boundaries of periods and Strikes, and on the tick. -/
namespace Sys2Proof.Machine

/-! ## One step -/

/-- Settles O1: `step` is one match on the queue and one test of the command's form. -/
theorem stepRunsTheFrontCommand : Obligations.StepRunsTheFrontCommand := by
  refine fun c rest s => ⟨fun h => if_pos h, fun h => if_neg ?_, rfl⟩
  simp [h]

/-! ## Boundaries -/

theorem anomalyPeriodRoll_first {s : State} (ha : s.flag Reg.TIME_STATUS.ALIGNED = true) (h0 : s.tick % 2 ^ 20 = 0) :
    anomalyPeriodRoll s = { s with anomalies := s.anomCount, anomPeriod := s.anomNow } := if_pos ⟨ha, h0⟩

/-- The live pins agree with the latched identity (R22). -/
def State.pinsAgree (s : State) (slot : BitVec 2) (board : BitVec 6) : Prop :=
  slot.toNat = s.fld Reg.DEV_SLOT.SLOT ∧ board.toNat = s.fld Reg.DEV_SLOT.BOARD

theorem State.not_pinsAgree {s : State} {slot : BitVec 2} {board : BitVec 6} :
    ¬ s.pinsAgree slot board ↔ slot.toNat ≠ s.fld Reg.DEV_SLOT.SLOT ∨ board.toNat ≠ s.fld Reg.DEV_SLOT.BOARD := not_and_or

/-- At its place of R35 the slot check takes its turn; where the pins agree it does no more. -/
theorem slotCheck_agree {s : State} {slot : BitVec 2} {board : BitVec 6} (hp : s.place 7 = true) (h : s.pinsAgree slot board) :
    slotCheck slot board s = { s with boundary := 7 } := by
  rw [slotCheck, if_pos hp]
  exact if_neg (fun hne => State.not_pinsAgree.mpr hne h)

theorem slotCheck_differ {s : State} {slot : BitVec 2} {board : BitVec 6} (hp : s.place 7 = true) (h : ¬ s.pinsAgree slot board) :
    slotCheck slot board s = { s with boundary := 7 }.setFlag Reg.DEV_SLOT.MISMATCH true := by
  rw [slotCheck, if_pos hp]
  exact if_pos (State.not_pinsAgree.mp h)

/-- Settles O9: MISMATCH shares DEV_SLOT with the latched identity and no bit of it. -/
theorem periodsAndPinsAtBoundaries : Obligations.PeriodsAndPinsAtBoundaries := by
  refine ⟨fun s ha h0 => congrArg _ (anomalyPeriodRoll_first ha h0), fun slot board s hp => ⟨_, rfl, ?_⟩⟩
  by_cases h : s.pinsAgree slot board
  · rw [slotCheck_agree hp h, decide_eq_false (fun hne => State.not_pinsAgree.mpr hne h), Bool.or_false]
    exact ⟨rfl, rfl, rfl, rfl, fun _ _ => rfl⟩
  · rw [slotCheck_differ hp h, decide_eq_true (State.not_pinsAgree.mp h), Bool.or_true]
    exact ⟨State.flag_setFlag_same _ _ _ (by decide) rfl, State.fld_setFld_disjoint _ _ _ _ rfl (by decide) (by decide),
      State.fld_setFld_disjoint _ _ _ _ rfl (by decide) (by decide), rfl,
      fun o ho => State.reg_setFld_ne _ _ _ (List.ne_of_not_mem_cons ho)⟩

/-! ## The tick -/

/-- Between the two states only the hidden state of tiles and partitions differs. -/
def State.onlyGrid (s t : State) : Prop := t = { s with tiles := t.tiles, parts := t.parts }

theorem State.onlyGrid.refl (s : State) : s.onlyGrid s := rfl

theorem State.onlyGrid.trans {s t u : State} (h : s.onlyGrid t) (h' : t.onlyGrid u) : s.onlyGrid u := by
  unfold State.onlyGrid at *
  rw [h', h]

theorem State.onlyGrid.ite {s t u : State} {c : Prop} [Decidable c] (ht : s.onlyGrid t) (hu : s.onlyGrid u) :
    s.onlyGrid (if c then t else u) := by
  split
  · exact ht
  · exact hu

theorem State.onlyGrid_foldl {α : Type} {f : State → α → State} (l : List α) (hf : ∀ (s : State) x, s.onlyGrid (f s x)) (s : State) :
    s.onlyGrid (l.foldl f s) := by
  induction l generalizing s with
  | nil => exact .refl s
  | cons x l ih => exact (hf s x).trans (ih (f s x))

theorem State.onlyGrid_modTile (s : State) (t : Nat) (f : Tile → Tile) : s.onlyGrid (s.modTile t f) := rfl

theorem State.onlyGrid_modPart (s : State) (p : Nat) (f : Part → Part) : s.onlyGrid (s.modPart p f) := rfl

theorem State.onlyGrid_countStall (s : State) (advance : Bool) (held : Option Withheld) (t : Nat) :
    s.onlyGrid (s.countStall advance held t) := by
  unfold State.countStall
  split
  · split <;> exact s.onlyGrid_modTile t _
  · exact .ite (.refl s) (s.onlyGrid_modTile t _)

theorem State.onlyGrid_countStalls (s : State) (p : Nat) : s.onlyGrid (s.countStalls p) := by
  refine .ite (.refl s) ?_
  have hfold (advance : Bool) (held : Option Withheld) : s.onlyGrid ((s.tilesOf p).foldl (fun s t => s.countStall advance held t) s) :=
    State.onlyGrid_foldl _ (fun s t => s.onlyGrid_countStall advance held t) s
  exact .ite ((hfold _ _).trans (State.onlyGrid_modPart _ p _)) (hfold _ _)

theorem State.onlyGrid_noteReport (s : State) (p : Nat) : s.onlyGrid (s.noteReport p) :=
  .ite (.refl s) (.ite (.ite (.refl s) (s.onlyGrid_modPart p _)) (s.onlyGrid_modPart p _))

theorem State.onlyGrid_countDrain (s : State) (p : Nat) : s.onlyGrid (s.countDrain p) := .ite (.refl s) (s.onlyGrid_modPart p _)

theorem State.onlyGrid_rollSlice (s : State) (p : Nat) : s.onlyGrid (s.rollSlice p) := .ite (s.onlyGrid_modPart p _) (.refl s)

/-! The stages of a tick, in their order. -/

/-- Stall counters, reports and drain counts of the tick that ends (R54, R294, R295). -/
def State.tickGrid (s : State) : State :=
  if s.gridLive then (List.range 12).foldl (fun s p => ((s.countStalls p).noteReport p).countDrain p) s else s

/-- The f-cycles of the tick pass (R16). -/
def State.tickCycles (s : State) : State := if s.pins.clocksOn then { s with fcycles := s.fcycles + cyclesPerTick } else s

/-- The counter advances if it is aligned (R25, R26). -/
def State.tickCounter (s : State) : State :=
  if s.flag Reg.TIME_STATUS.ALIGNED then { s.setReg64 Reg.TIME_TICK_LO (s.tick + 1) with edge := none, boundary := 0 } else s

/-- Slices roll at a Strike boundary (R383). -/
def State.tickSlices (s : State) : State :=
  if s.flag Reg.TIME_STATUS.ALIGNED ∧ s.tick % 1024 = 0 then (List.range 12).foldl State.rollSlice s else s

/-- Bellows releases the credit of the tick that begins (R335). -/
def State.tickRelease (s : State) : State := if s.on then s.releaseCredit else s

theorem tickStep_eq {s : State} (h : s.refRuns = true) : tickStep s = s.tickGrid.tickCycles.tickCounter.tickSlices.tickRelease :=
  if_neg (by simp [h])

theorem State.onlyGrid_tickGrid (s : State) : s.onlyGrid s.tickGrid :=
  .ite (State.onlyGrid_foldl _ (fun s p => ((s.onlyGrid_countStalls p).trans (State.onlyGrid_noteReport _ p)).trans
    (State.onlyGrid_countDrain _ p)) s) (.refl s)

theorem State.onlyGrid_tickSlices (s : State) : s.onlyGrid s.tickSlices :=
  .ite (State.onlyGrid_foldl _ State.onlyGrid_rollSlice s) (.refl s)

/-- Registers at the offsets of `l` may differ, and hidden state of the die's own; nothing that is seen elsewhere does. -/
structure State.Quiet (s t : State) (l : List Nat) : Prop where
  regs : s.keepsRegs t l
  mem : t.mem = s.mem
  flash : t.flash = s.flash
  out : t.out = s.out
  pins : t.pins = s.pins
  faultLog : t.faultLog = s.faultLog
  requests : t.requests = s.requests

/-- The f-cycles and what is known of the current boundary stay. -/
structure State.SameTime (s t : State) : Prop where
  fcycles : t.fcycles = s.fcycles
  edge : t.edge = s.edge
  boundary : t.boundary = s.boundary

section
variable {s t u : State} {l m : List Nat}

theorem State.Quiet.refl (s : State) (l : List Nat) : s.Quiet s l := ⟨fun _ _ => rfl, rfl, rfl, rfl, rfl, rfl, rfl⟩

theorem State.Quiet.trans (h : s.Quiet t l) (h' : t.Quiet u l) : s.Quiet u l where
  regs o ho := (h'.regs o ho).trans (h.regs o ho)
  mem := h'.mem.trans h.mem
  flash := h'.flash.trans h.flash
  out := h'.out.trans h.out
  pins := h'.pins.trans h.pins
  faultLog := h'.faultLog.trans h.faultLog
  requests := h'.requests.trans h.requests

theorem State.Quiet.mono (h : s.Quiet t l) (hl : l ⊆ m) : s.Quiet t m :=
  { h with regs := fun o ho => h.regs o (fun hm => ho (hl hm)) }

/-- A flag of a register that stays. -/
theorem State.Quiet.flag (h : s.Quiet t l) {f : Field} (hf : f.off ∉ l) : t.flag f = s.flag f := by
  rw [State.flag, State.fld_congr f (h.regs f.off hf)]; rfl

theorem State.Quiet.tick (h : s.Quiet t l) (hlo : Reg.TIME_TICK_LO ∉ l) (hhi : Reg.TIME_TICK_HI ∉ l) : t.tick = s.tick := by
  simp only [State.tick, State.reg64, h.regs _ hlo, h.regs _ hhi]

theorem State.onlyGrid.quiet (h : s.onlyGrid t) (l : List Nat) : s.Quiet t l := by
  rw [h]
  exact ⟨fun _ _ => rfl, rfl, rfl, rfl, rfl, rfl, rfl⟩

theorem State.onlyGrid.sameTime (h : s.onlyGrid t) : s.SameTime t := by
  rw [h]
  exact ⟨rfl, rfl, rfl⟩

end

theorem State.quiet_tickCycles (s : State) (l : List Nat) : s.Quiet s.tickCycles l := by
  unfold State.tickCycles
  split <;> exact ⟨fun _ _ => rfl, rfl, rfl, rfl, rfl, rfl, rfl⟩

theorem State.fcycles_tickCycles (s : State) : s.tickCycles.fcycles = if s.pins.clocksOn then s.fcycles + 18 else s.fcycles := by
  unfold State.tickCycles
  split <;> rfl

theorem State.reg64_setReg64 (s : State) (lo v : Nat) : (s.setReg64 lo v).reg64 lo = v % 2 ^ 64 := by
  have hne : lo ≠ lo + 4 := by omega
  rw [State.reg64, State.setReg64, State.reg_setReg_same, State.reg_setReg_ne _ _ hne, State.reg_setReg_same, BitVec.toNat_ofNat,
    BitVec.toNat_ofNat]
  omega

theorem State.keepsRegs_setReg64 (s : State) (lo v : Nat) : s.keepsRegs (s.setReg64 lo v) [lo, lo + 4] := by
  intro o ho
  simp only [List.mem_cons, List.not_mem_nil, or_false, not_or] at ho
  obtain ⟨hlo, hhi⟩ := ho
  rw [State.setReg64, State.reg_setReg_ne _ _ hhi, State.reg_setReg_ne _ _ hlo]

/-- The registers of the counter. -/
def tickRegs : List Nat := [Reg.TIME_TICK_LO, Reg.TIME_TICK_HI]

theorem State.quiet_tickCounter (s : State) : s.Quiet s.tickCounter tickRegs := by
  unfold State.tickCounter
  split
  · exact ⟨s.keepsRegs_setReg64 Reg.TIME_TICK_LO _, rfl, rfl, rfl, rfl, rfl, rfl⟩
  · exact .refl s _

theorem State.tick_tickCounter (s : State) :
    s.tickCounter.tick = if s.flag Reg.TIME_STATUS.ALIGNED then (s.tick + 1) % 2 ^ 64 else s.tick := by
  unfold State.tickCounter
  split
  · exact s.reg64_setReg64 Reg.TIME_TICK_LO _
  · rfl

theorem State.fcycles_tickCounter (s : State) : s.tickCounter.fcycles = s.fcycles := by
  unfold State.tickCounter
  split <;> rfl

theorem State.boundary_tickCounter {s : State} (h : s.flag Reg.TIME_STATUS.ALIGNED = true) :
    s.tickCounter.edge = none ∧ s.tickCounter.boundary = 0 := by
  rw [State.tickCounter, if_pos h]
  exact ⟨rfl, rfl⟩

/-- Apart from Bellows' own state, the release of credit takes a free value and may set BURST. -/
theorem State.releaseCredit_eq (s : State) : ∃ (c : Prop) (_ : Decidable c) (power : Power),
    s.releaseCredit = { (if c then s.setFlag Reg.PWR_STATUS.BURST true else s).took with power := power } := ⟨_, _, _, rfl⟩

theorem State.quiet_releaseCredit (s : State) : s.Quiet s.releaseCredit [Reg.PWR_STATUS] := by
  obtain ⟨c, _, power, h⟩ := s.releaseCredit_eq
  rw [h]
  split
  · exact ⟨fun o ho => State.reg_setFld_ne s _ _ (List.ne_of_not_mem_cons ho), rfl, rfl, rfl, rfl, rfl, rfl⟩
  · exact ⟨fun _ _ => rfl, rfl, rfl, rfl, rfl, rfl, rfl⟩

theorem State.sameTime_releaseCredit (s : State) : s.SameTime s.releaseCredit := by
  obtain ⟨c, _, power, h⟩ := s.releaseCredit_eq
  rw [h]
  split <;> exact ⟨rfl, rfl, rfl⟩

theorem State.quiet_tickRelease (s : State) : s.Quiet s.tickRelease [Reg.PWR_STATUS] := by
  unfold State.tickRelease
  split
  · exact s.quiet_releaseCredit
  · exact .refl s _

theorem State.sameTime_tickRelease (s : State) : s.SameTime s.tickRelease := by
  unfold State.tickRelease
  split
  · exact s.sameTime_releaseCredit
  · exact ⟨rfl, rfl, rfl⟩

/-- Before the counter: the registers stay, and 18 f-cycles pass where the clocks run. -/
theorem State.tick_before (s : State) : s.Quiet s.tickGrid.tickCycles [] ∧
    s.tickGrid.tickCycles.fcycles = if s.pins.clocksOn then s.fcycles + 18 else s.fcycles := by
  have hgrid := s.onlyGrid_tickGrid
  refine ⟨(hgrid.quiet []).trans (State.quiet_tickCycles _ []), ?_⟩
  rw [State.fcycles_tickCycles, (hgrid.quiet []).pins, hgrid.sameTime.fcycles]

/-- After the counter: PWR_STATUS alone may change, and the time stays. -/
theorem State.tick_after (s : State) : s.Quiet s.tickSlices.tickRelease [Reg.PWR_STATUS] ∧ s.SameTime s.tickSlices.tickRelease := by
  have hslices := s.onlyGrid_tickSlices
  obtain ⟨hf, he, hb⟩ := hslices.sameTime
  obtain ⟨hf', he', hb'⟩ := State.sameTime_tickRelease s.tickSlices
  exact ⟨(hslices.quiet _).trans (State.quiet_tickRelease _), hf'.trans hf, he'.trans he, hb'.trans hb⟩

/-- Settles O12: of the stages of a tick the counter's alone writes the counter, and Bellows' alone another register. -/
theorem tickAdvancesTheCounter : Obligations.TickAdvancesTheCounter := by
  refine ⟨fun s h => ⟨_, congrArg Host.Outcome.next (tickStep_eq h), ?_⟩, fun s h => congrArg _ (if_pos h)⟩
  obtain ⟨hbefore, hcycles⟩ := s.tick_before
  generalize s.tickGrid.tickCycles = a at hbefore hcycles ⊢
  obtain ⟨hafter, hfcycles, hedge, hboundary⟩ := a.tickCounter.tick_after
  have hall : s.Quiet a.tickCounter.tickSlices.tickRelease [Reg.TIME_TICK_LO, Reg.TIME_TICK_HI, Reg.PWR_STATUS] :=
    ((hbefore.mono (by simp)).trans (a.quiet_tickCounter.mono (by simp [tickRegs]))).trans (hafter.mono (by simp))
  refine ⟨?_, ?_, fun hal => ?_, hall.regs, hall.mem, hall.flash, hall.out, hall.pins, hall.faultLog, hall.requests⟩
  · rw [hafter.tick (by decide) (by decide), a.tick_tickCounter, hbefore.flag (by simp), hbefore.tick (by simp) (by simp)]
  · rw [hfcycles, a.fcycles_tickCounter, hcycles]
  · rw [hedge, hboundary]
    exact State.boundary_tickCounter ((hbefore.flag (by simp)).trans hal)

end Sys2Proof.Machine
end

section
/-! PROOFS. That an image with a signature of its own passes the checks of R424. -/
namespace Sys2Proof.Machine

/-! ## Numbers of bytes -/

theorem leNat_lt (l : List Byte) : leNat l < 256 ^ l.length := by
  induction l with
  | nil => exact Nat.one_pos
  | cons b l ih =>
    have hb : b.toNat < 256 := b.isLt
    rw [leNat, List.length_cons, Nat.pow_succ]
    omega

theorem natLE_leNat (l : List Byte) : natLE l.length (leNat l) = l := by
  induction l with
  | nil => rfl
  | cons b l ih =>
    have hb : b.toNat < 256 := b.isLt
    have hlow : BitVec.ofNat 8 (b.toNat + 256 * leNat l) = b := by
      apply BitVec.eq_of_toNat_eq
      rw [BitVec.toNat_ofNat]
      omega
    have hhigh : (b.toNat + 256 * leNat l) / 256 = leNat l := by omega
    rw [leNat, List.length_cons, natLE, hlow, hhigh, ih]

theorem natBE_beNat (l : List Byte) : natBE l.length (beNat l) = l := by
  rw [natBE, beNat, ← List.length_reverse, natLE_leNat, List.reverse_reverse]

/-! ## Lengths of digests and masks -/

theorem forced_eq {α : Type} (x : Nat) (f : Nat → α) : forced x f = f x := by
  cases x <;> rfl

theorem length_shaRounds (l : List (Nat × Nat)) (a b c d e f g h : Nat) : (shaRounds l a b c d e f g h).length = 8 := by
  induction l generalizing a b c d e f g h with
  | nil => rfl
  | cons kw l ih => simp only [shaRounds, forced_eq, ih]

theorem length_shaBlock {v : List Nat} (hv : v.length = 8) (b : List Byte) : (shaBlock v b).length = 8 := by
  unfold shaBlock
  split
  · simp [length_shaRounds]
  · exact hv

theorem length_shaBlocks (n : Nat) {v : List Nat} (hv : v.length = 8) (b : List Byte) : (shaBlocks n v b).length = 8 := by
  induction n generalizing v b with
  | zero => exact hv
  | succ n ih => exact ih (length_shaBlock hv _) _

theorem length_sha256 (b : List Byte) : (sha256 b).length = 32 := by
  simp [sha256, List.length_flatMap, length_shaBlocks _ (v := shaInit) rfl]

theorem length_mgf1 (seed : List Byte) : (mgf1 seed 351).length = 351 := by
  simp [mgf1, List.length_flatMap, length_sha256, ceilDiv]

/-! ## The encoding of a message -/

theorem length_xorBytes {a b : List Byte} (h : a.length = b.length) : (xorBytes a b).length = b.length := by
  simp [xorBytes, h]

theorem xorBytes_xorBytes {a b : List Byte} (h : a.length = b.length) : xorBytes (xorBytes a b) b = a := by
  induction a generalizing b with
  | nil => rfl
  | cons x a ih =>
    cases b with
    | nil => cases h
    | cons y b =>
      have hxy : x ^^^ y ^^^ y = x := by rw [BitVec.xor_assoc, BitVec.xor_self, BitVec.xor_zero]
      exact congrArg₂ List.cons hxy (ih (Nat.succ.inj h))

/-- The bytes of the data block after its first, with a salt of zeros. -/
def pssTail : List Byte := List.replicate 317 0 ++ 1 :: List.replicate 32 0

theorem length_pssTail : pssTail.length = 350 := by
  rw [pssTail, List.length_append, List.length_replicate, List.length_cons, List.length_replicate]

/-- The digest within the encoded message. -/
def pssDigest (hash : List Byte) : List Byte := sha256 (natLE 8 0 ++ hash ++ List.replicate 32 0)

/-- The data block masked, its topmost bit cleared. -/
def pssMasked (mask : List Byte) : List Byte := (mask.headD 0 &&& 0x7F) :: xorBytes pssTail mask.tail

/-- The encoded message for the digest of a message (RFC 8017). -/
def pssEncoded (hash : List Byte) : List Byte := pssMasked (mgf1 (pssDigest hash) 351) ++ (pssDigest hash ++ [0xBC])

theorem length_pssMasked {mask : List Byte} (h : mask.length = 351) : (pssMasked mask).length = 351 := by
  have htail : pssTail.length = mask.tail.length := by rw [length_pssTail, List.length_tail, h]
  rw [pssMasked, List.length_cons, length_xorBytes htail, List.length_tail, h]

theorem length_pssEncoded (hash : List Byte) : (pssEncoded hash).length = 384 := by
  simp [pssEncoded, length_pssMasked (length_mgf1 _), pssDigest, length_sha256]

/-- Unmasking gives the data block back. -/
theorem xorBytes_pssMasked {mask : List Byte} (h : mask.length = 351) :
    ((xorBytes (pssMasked mask) mask).headD 0 &&& 0x7F) :: (xorBytes (pssMasked mask) mask).drop 1 = 0 :: pssTail := by
  cases mask with
  | nil => cases h
  | cons m mask =>
    have htail : pssTail.length = mask.length := length_pssTail.trans (Nat.succ.inj h).symm
    have hhead : ∀ x : Byte, (x &&& 0x7F ^^^ x) &&& 0x7F = 0 := by decide
    exact congrArg₂ List.cons (hhead m) (xorBytes_xorBytes htail)

theorem pssEncodes_pssEncoded (hash : List Byte) : pssEncodes (pssEncoded hash) hash = true := by
  have hmask := length_mgf1 (pssDigest hash)
  have hlen := length_pssMasked hmask
  have hdig : (pssDigest hash).length = 32 := length_sha256 _
  have htake : (pssEncoded hash).take 351 = pssMasked (mgf1 (pssDigest hash) 351) := by
    rw [pssEncoded, List.take_left' hlen]
  have hdrop : ((pssEncoded hash).drop 351).take 32 = pssDigest hash := by
    rw [pssEncoded, List.drop_left' hlen, List.take_left' hdig]
  have hlast : (pssEncoded hash).getLast? = some 0xBC := by simp [pssEncoded]
  have htop : ∀ x : Byte, (x &&& 0x7F).toNat < 128 := by decide
  have hzeros : ((0 :: pssTail).take 318).all (· == 0) = true := by decide +kernel
  have hone : (0 :: pssTail).getD 318 0 = 1 := by decide +kernel
  have hsalt : (0 :: pssTail).drop 319 = List.replicate 32 0 := by decide +kernel
  simp only [pssEncodes, htake, hdrop, hlast, xorBytes_pssMasked hmask, hzeros, hone, hsalt, Bool.and_eq_true, beq_iff_eq,
    decide_eq_true_eq, and_true]
  exact ⟨⟨trivial, htop _⟩, rfl⟩

/-! ## A signature under exponent 1 -/

/-- The greatest modulus of 384 bytes. -/
def plainModulus : List Byte := List.replicate 384 0xFF

/-- The exponent 1, under which a signature is its own encoded message. -/
def plainExponent : List Byte := [0, 0, 0, 1]

theorem modPow_one {b n : Nat} (hn : 1 < n) (hb : b < n) (k : Nat) : modPow b 1 n (k + 1) 1 = b := by
  have hsq : 1 * 1 % n = 1 := Nat.mod_eq_of_lt hn
  induction k with
  | zero =>
    have hbit : bitOf 1 0 = true := rfl
    simp only [modPow, hsq, hbit, if_true, Nat.one_mul, Nat.mod_eq_of_lt hb]
  | succ k ih =>
    have hbit : bitOf 1 (k + 1) = false := by
      rw [bitOf, Nat.div_eq_of_lt (Nat.one_lt_two_pow (Nat.succ_ne_zero k))]
      rfl
    rw [modPow, hsq, hbit]
    exact ih

theorem beNat_pssEncoded_lt (hash : List Byte) : beNat (pssEncoded hash) < beNat plainModulus := by
  have hmod : beNat plainModulus = 256 * 256 ^ 383 - 1 := by decide +kernel
  have hrest := leNat_lt (pssMasked (mgf1 (pssDigest hash) 351) ++ pssDigest hash).reverse
  have hlen : (pssMasked (mgf1 (pssDigest hash) 351) ++ pssDigest hash).reverse.length = 383 := by
    rw [List.length_reverse, List.length_append, length_pssMasked (length_mgf1 _), pssDigest, length_sha256]
  rw [hlen] at hrest
  rw [hmod, beNat, pssEncoded, ← List.append_assoc, List.reverse_concat, leNat]
  have hlast : (0xBC : Byte).toNat = 188 := rfl
  generalize (256 : Nat) ^ 383 = m at *
  omega

theorem signatureOk_pssEncoded (msg : List Byte) :
    signatureOk msg plainModulus plainExponent (pssEncoded (sha256 msg)) = true := by
  have hlt := beNat_pssEncoded_lt (sha256 msg)
  have hmod : 1 < beNat plainModulus := by decide +kernel
  have hexp : beNat plainExponent = 1 := rfl
  have hem : natBE 384 (beNat (pssEncoded (sha256 msg))) = pssEncoded (sha256 msg) := by
    have h := natBE_beNat (pssEncoded (sha256 msg))
    rwa [length_pssEncoded] at h
  simp only [signatureOk, hexp, modPow_one hmod hlt, hem, pssEncodes_pssEncoded, decide_eq_true hlt, Bool.and_self]

/-! ## An image in bank A -/

theorem get_cellsFrom_below {a k : Nat} (l : List Byte) (h : k < a) : Sparse.get memReset (cellsFrom a l) k = 0 := by
  induction l generalizing a with
  | nil => rfl
  | cons b l ih =>
    have hne : a ≠ k := by omega
    unfold cellsFrom
    split
    · exact ih (by omega)
    · rw [Sparse.get, if_neg hne]
      exact ih (by omega)

theorem get_cellsFrom (a : Nat) (l : List Byte) (i : Nat) : Sparse.get memReset (cellsFrom a l) (a + i) = l.getD i 0 := by
  induction l generalizing a i with
  | nil => rfl
  | cons b l ih =>
    cases i with
    | zero =>
      unfold cellsFrom
      split
      · next hb => exact (get_cellsFrom_below l (by omega)).trans hb.symm
      · exact if_pos rfl
    | succ i =>
      have hne : a ≠ a + (i + 1) := by omega
      have hat : a + (i + 1) = a + 1 + i := by omega
      unfold cellsFrom
      split
      · rw [hat, ih]; rfl
      · rw [Sparse.get, if_neg hne, hat, ih]; rfl

/-- Bank A of a flash that holds an image at 0 reads the image. -/
theorem State.flashBytes_cellsFrom {s : State} {image : List Byte} (h : s.flash = cellsFrom 0 image) {o n : Nat} (hn : o + n ≤ image.length) :
    s.flashBytes (flashBank 0) o n = (image.drop o).take n := by
  refine List.ext_getElem ?_ fun i hi hi' => ?_
  · simp [State.flashBytes]; omega
  · have hat : flashBank 0 + o + i = 0 + (o + i) := by rw [flashBank]; omega
    simp only [State.flashBytes, List.getElem_map, List.getElem_range, h, hat, get_cellsFrom, List.getElem_take, List.getElem_drop]
    simp only [State.flashBytes, List.length_map, List.length_range] at hi
    exact List.getD_eq_getElem _ _ (by omega)

/-- MAGIC, VERSION 1 and LENGTH 4,096 (Table 18-2). -/
def plainFields : List Byte := [0x57, 0x46, 0x4B, 0x45, 1, 0, 0, 0, 0, 0x10]

def plainHeader : List Byte := plainFields ++ List.replicate 4086 0

def plainKey : List Byte := plainModulus ++ plainExponent

def plainSignature : List Byte := pssEncoded (sha256 (plainHeader ++ plainKey))

def plainImage : List Byte := plainHeader ++ (plainKey ++ plainSignature)

theorem length_plainHeader : plainHeader.length = 4096 := by
  rw [plainHeader, List.length_append, List.length_replicate]; rfl

/-- Beyond its fields the header is zero. -/
theorem zero_plainHeader (i n : Nat) : ((plainHeader.drop (10 + i)).take n).all (· == 0) = true := by
  have hdrop : plainHeader.drop (10 + i) = (List.replicate 4086 0).drop i := List.drop_length_add_append (l₁ := plainFields) i
  rw [hdrop, List.drop_replicate, List.take_replicate, List.all_replicate]
  split <;> rfl

theorem length_plainKey : plainKey.length = 388 := by
  rw [plainKey, plainModulus, List.length_append, List.length_replicate]; rfl

theorem length_plainImage : plainImage.length = 4868 := by
  rw [plainImage, List.length_append, List.length_append, length_plainHeader, length_plainKey, plainSignature, length_pssEncoded]

/-- The image in bank A, and its key's digest in key slot 0. -/
structure State.HoldsPlain (s : State) : Prop where
  flash : s.flash = cellsFrom 0 plainImage
  key : s.fuses.key0 = BitVec.ofNat 256 (leNat (sha256 plainKey))
  revoke : s.fuses.revoke = 0
  version : s.fuses.fwArb ≤ 1

section
variable {s : State} (hs : s.HoldsPlain)
include hs

theorem State.HoldsPlain.read_header {o n : Nat} (hn : o + n ≤ 4096) :
    s.flashBytes (flashBank 0) o n = (plainHeader.drop o).take n := by
  have hlen := length_plainHeader
  rw [State.flashBytes_cellsFrom hs.flash (by rw [length_plainImage]; omega), plainImage,
    List.drop_append_of_le_length (by omega), List.take_append_of_le_length (by rw [List.length_drop]; omega)]

theorem State.HoldsPlain.read {a b c : List Byte} {o n : Nat} (h : plainImage = a ++ (b ++ c)) (ha : a.length = o) (hb : b.length = n) :
    s.flashBytes (flashBank 0) o n = b := by
  have hlen : a.length + b.length ≤ plainImage.length := by rw [h, List.length_append, List.length_append]; omega
  rw [State.flashBytes_cellsFrom hs.flash (by omega), h, List.drop_left' ha, List.take_left' hb]

theorem State.HoldsPlain.format : imageFormat (s.flashBytes (flashBank 0)) = true := by
  have hpad : ((plainHeader.drop 20).take 4076).all (· == 0) = true := zero_plainHeader 10 4076
  simp (disch := omega) only [imageFormat, imageVersion, imageLen, imageSlot, imageMinArb, Reader.num, Reader.zero, hs.read_header, hpad]
  decide +kernel

theorem State.HoldsPlain.len : imageLen (s.flashBytes (flashBank 0)) = 4096 := by
  rw [imageLen, Reader.num, hs.read_header (by omega)]
  decide +kernel

theorem State.HoldsPlain.slot : imageSlot (s.flashBytes (flashBank 0)) = 0 := by
  rw [imageSlot, Reader.num, hs.read_header (by omega)]
  decide +kernel

theorem State.HoldsPlain.imageVersion : imageVersion (s.flashBytes (flashBank 0)) = 1 := by
  rw [Machine.imageVersion, Reader.num, hs.read_header (by omega)]
  decide +kernel

theorem State.HoldsPlain.keyHash : s.keyHash 0 = leNat (sha256 plainKey) := by
  have hlt := leNat_lt (sha256 plainKey)
  rw [length_sha256] at hlt
  rw [State.keyHash, if_pos rfl, hs.key, BitVec.toNat_ofNat]
  exact Nat.mod_eq_of_lt hlt

/-- The image passes every check of R424. -/
theorem State.HoldsPlain.checkImage : s.checkImage (s.flashBytes (flashBank 0)) = 0 := by
  have hassoc : plainImage = plainHeader ++ plainKey ++ plainSignature := (List.append_assoc _ _ _).symm
  have hfields : plainImage = plainHeader ++ (plainModulus ++ (plainExponent ++ plainSignature)) := by
    rw [plainImage, plainKey, List.append_assoc]
  have hmsg : s.flashBytes (flashBank 0) 0 (4096 + 388) = plainHeader ++ plainKey :=
    hs.read (hassoc.trans (List.nil_append _).symm) rfl (by rw [List.length_append, length_plainHeader, length_plainKey])
  have hkey : s.flashBytes (flashBank 0) 4096 388 = plainKey := hs.read rfl length_plainHeader length_plainKey
  have hmod : s.flashBytes (flashBank 0) 4096 384 = plainModulus := hs.read hfields length_plainHeader List.length_replicate
  have hexp : s.flashBytes (flashBank 0) (4096 + 384) 4 = plainExponent :=
    hs.read (hfields.trans (List.append_assoc _ _ _).symm)
      (by rw [List.length_append, length_plainHeader, plainModulus, List.length_replicate]) rfl
  have hsig : s.flashBytes (flashBank 0) (4096 + 388) 384 = plainSignature :=
    hs.read (c := []) (by rw [List.append_nil, hassoc]) (by rw [List.length_append, length_plainHeader, length_plainKey]) (length_pssEncoded _)
  have hrevoke : bitOf s.fuses.revoke.toNat 0 = false := by rw [hs.revoke]; rfl
  rw [State.checkImage, hs.format, hs.len, hs.slot, hs.imageVersion, decide_eq_true hs.version, State.checkSigned, hrevoke, hkey, hs.keyHash,
    hmsg, hmod, hexp, hsig, plainSignature, signatureOk_pssEncoded]
  simp

end

end Sys2Proof.Machine
end

section
/-! PROOFS. The statement of 01_kenlum_module.md on power-up, which fails. -/
namespace Sys2Proof.Machine

/-! ## A quarantine record beyond the 240 tiles

Power-up quarantines every tile of the records in the boot flash. The statement speaks of every state, and nothing in a state bounds the tile
that a record names: the word of SLG_QUAR for tile 1,205,863,966 is TIER_HOT0, and the tile's bit in it is the low bit of STATE. -/

/-- The tile of that record. -/
def farTile : Nat := 32 * 37683248 + 30

theorem quar_farTile : Reg.SLG_QUAR (farTile / 32) = Reg.TIER_UNIT (unitHot 0) := by decide

theorem State.interruptIf_regs (s : State) (en : Bool) (rule : Nat) : (s.interruptIf en rule).regs = s.regs := by
  unfold State.interruptIf
  split <;> rfl

/-- A quarantined tile's bit of SLG_QUAR is 1 (R418). -/
theorem State.reg_quarantine (s : State) (t : Nat) :
    ∃ w, (s.quarantine t).reg (Reg.SLG_QUAR (t / 32)) = w ||| BitVec.ofNat 32 (2 ^ (t % 32)) := by
  let u := (s.setFld (Reg.SLG_TILE_STATE.STATE t) 2).setFlag Reg.SLG_STATUS.QUAR_NEW true
  have hregs : (s.quarantine t).regs =
      (u.setReg (Reg.SLG_QUAR (t / 32)) (u.reg (Reg.SLG_QUAR (t / 32)) ||| BitVec.ofNat 32 (2 ^ (t % 32)))).regs := by
    rw [State.quarantine, State.interruptIf_regs]
  exact ⟨_, (State.reg_congr hregs _).trans (State.reg_setReg_same u _ _)⟩

theorem State.quarRecords_setFld (s : State) (f : Field) (v : Nat) : (s.setFld f v).quarRecords = s.quarRecords := rfl

theorem State.quarRecords_setFlag (s : State) (f : Field) (b : Bool) : (s.setFlag f b).quarRecords = s.quarRecords := rfl

theorem State.quarRecords_degrade (s : State) (u : Nat) : (s.degrade u).quarRecords = s.quarRecords := by
  unfold State.degrade State.interruptIf
  split
  · rfl
  · split
    · rw [State.emit_quarRecords, State.quarRecords_setFlag]
    · rw [State.quarRecords_setFlag]

theorem State.quarRecords_trainStacks (s : State) (trained : BitVec 12) : (s.trainStacks trained).quarRecords = s.quarRecords := by
  unfold State.trainStacks
  generalize List.range 12 = l
  induction l generalizing s with
  | nil => rfl
  | cons b l ih =>
    rw [List.foldl_cons, ih]
    split
    · exact s.quarRecords_setFld _ 2
    · exact s.quarRecords_degrade _

/-- Where the image of bank A passes, the security boot ends with an image of one of the banks (R425). -/
theorem State.exists_bootBank {s : State} (h : s.checkImage (s.flashBytes (flashBank 0)) = 0) : ∃ b, s.securityBoot = s.bootBank b := by
  by_cases hv : imageVersion (s.flashBytes (flashBank 0)) < imageVersion (s.flashBytes (flashBank 1))
  · by_cases h1 : s.checkImage (s.flashBytes (flashBank 1)) = 0
    · exact ⟨1, by simp only [State.securityBoot, hv, h1, if_true]⟩
    · exact ⟨0, by simp only [State.securityBoot, hv, h1, h, if_true, if_false, Nat.sub_self]⟩
  · exact ⟨0, by simp only [State.securityBoot, hv, h, if_true, if_false]⟩

/-- The registers that the running image writes. -/
def State.bootRegs (s : State) (b : Nat) : State :=
  ((s.setFld Reg.SEC_STATUS.BANK b).setFlag Reg.SEC_STATUS.BOOTED true).setFld Reg.SEC_STATUS.BOOT_ERR 0

theorem State.bootBank_eq (s : State) (b : Nat) :
    ∃ security pins, s.bootBank b = { s.bootRegs b with security := security, pins := pins } := ⟨_, _, rfl⟩

theorem State.booted_bootBank (s : State) (b : Nat) : (s.bootBank b).flag Reg.SEC_STATUS.BOOTED = true := by
  obtain ⟨security, pins, h⟩ := s.bootBank_eq b
  have hregs : (s.bootBank b).regs = (s.bootRegs b).regs := by rw [h]
  rw [State.flag, State.fld_congr _ (State.reg_congr hregs _), State.bootRegs,
    State.fld_setFld_disjoint _ Reg.SEC_STATUS.BOOT_ERR Reg.SEC_STATUS.BOOTED 0 rfl (by decide) (by decide)]
  exact State.flag_setFlag_same (s.setFld Reg.SEC_STATUS.BANK b) Reg.SEC_STATUS.BOOTED true (by decide) rfl

theorem State.quarRecords_bootBank (s : State) (b : Nat) : (s.bootBank b).quarRecords = s.quarRecords := by
  obtain ⟨security, pins, h⟩ := s.bootBank_eq b
  have hkeep : (s.bootBank b).quarRecords = (s.bootRegs b).quarRecords := by rw [h]
  rw [hkeep, State.bootRegs, State.quarRecords_setFld, State.quarRecords_setFlag, State.quarRecords_setFld]

/-- No row fails: the banks are zeroed and given to firmware (R172). -/
theorem State.startBanks_nil (s : State) : s.startBanks [] =
    { s with mem := s.mem.filter (fun c => !bankByte c.1), regs := s.regs.filter (fun c => !ownReg c.1) } := by
  simp [State.startBanks]

/-- The module as PWR_GOOD has risen, before its security boot (Table 20-3). -/
def State.slotLatched (s : State) (slot : BitVec 2) (board : BitVec 6) : State :=
  let s := (s.leaveResidue.setFld Reg.DEV_SLOT.SLOT slot.toNat).setFld Reg.DEV_SLOT.BOARD board.toNat
  { s with pins := { s.pins with powered := true, railsOn := true, clocksOn := true, faultPin := true } }

/-- The end of a power-up whose boot passed: the recorded tiles are quarantined and recovery is pending (R419, R460). -/
def State.poweredUp (s : State) : State :=
  let s := s.quarRecords.foldl State.quarantine s
  { s.setFlag Reg.SRV_STATUS.RECOVERING true with pins := { s.pins with gridReady := true } }

theorem State.reg_poweredUp {s : State} {t : Nat} (h : s.quarRecords = [t]) (o : Nat) :
    s.poweredUp.reg o = ((s.quarantine t).setFlag Reg.SRV_STATUS.RECOVERING true).reg o := by
  have hregs : s.poweredUp.regs = ((s.quarantine t).setFlag Reg.SRV_STATUS.RECOVERING true).regs := by
    rw [State.poweredUp, h, List.foldl_cons, List.foldl_nil]
  exact State.reg_congr hregs o

theorem State.quarRecords_slotLatched (s : State) (slot : BitVec 2) (board : BitVec 6) :
    (s.slotLatched slot board).quarRecords = s.quarRecords := rfl

theorem powerUp_booted {s : State} {slot : BitVec 2} {board : BitVec 6} {b : Nat} (hp : s.pins.powered = false)
    (hb : (s.slotLatched slot board).securityBoot = (s.slotLatched slot board).bootBank b) (trained : BitVec 12)
    (failing : List (Fin 240 × Fin 48 × List Nat)) : powerUp slot board trained failing s =
      ((((s.slotLatched slot board).bootBank b).trainStacks trained).startBanks failing).poweredUp := by
  have hup : powerUp slot board trained failing s = if (s.slotLatched slot board).securityBoot.flag Reg.SEC_STATUS.BOOTED then
      (((s.slotLatched slot board).securityBoot.trainStacks trained).startBanks failing).poweredUp
    else (s.slotLatched slot board).securityBoot := if_neg (by simp [hp])
  rw [hup, hb, if_pos (State.booted_bootBank _ b)]

/-- After a boot that passes, the bit in SLG_QUAR of the one tile that the records name is 1 (R419). -/
theorem reg_powerUp_quar {s : State} {slot : BitVec 2} {board : BitVec 6} {b t : Nat} (hp : s.pins.powered = false)
    (hb : (s.slotLatched slot board).securityBoot = (s.slotLatched slot board).bootBank b) (ht : s.quarRecords = [t])
    (hne : Reg.SLG_QUAR (t / 32) ≠ Reg.SRV_STATUS) (trained : BitVec 12) :
    ∃ w, (powerUp slot board trained [] s).reg (Reg.SLG_QUAR (t / 32)) = w ||| BitVec.ofNat 32 (2 ^ (t % 32)) := by
  have hrecords : ((((s.slotLatched slot board).bootBank b).trainStacks trained).startBanks []).quarRecords = [t] := by
    rw [State.startBanks_nil, State.quarRecords_trainStacks, State.quarRecords_bootBank, State.quarRecords_slotLatched, ht]
  rw [powerUp_booted hp hb, State.reg_poweredUp hrecords, State.setFlag, State.reg_setFld_ne _ _ _ hne]
  exact State.reg_quarantine _ t

/-- A module without power whose records name the tile, and whose bank A holds an image that passes. -/
def farState : State :=
  { State.reset with
    flash := cellsFrom 0 plainImage
    fuses := { Fuses.reset with key0 := BitVec.ofNat 256 (leNat (sha256 plainKey)) }
    quarRecords := [farTile] }

theorem holdsPlain_farState : farState.HoldsPlain := ⟨rfl, rfl, rfl, by decide⟩

theorem holdsPlain_slotLatched_farState : (farState.slotLatched 0 0).HoldsPlain := ⟨rfl, rfl, rfl, by decide⟩

theorem bits_or_ne_two (w : Word) : bits (w ||| BitVec.ofNat 32 (2 ^ 30)).toNat 30 2 ≠ 2 := by
  intro h
  have hbit : (w ||| BitVec.ofNat 32 (2 ^ 30)).toNat.testBit 30 = true := by
    have hone : (BitVec.ofNat 32 (2 ^ 30)).toNat.testBit 30 = true := by decide
    rw [BitVec.toNat_or, Nat.testBit_or, hone, Bool.or_true]
  rw [Nat.testBit_eq_decide_div_mod_eq, decide_eq_true_eq] at hbit
  rw [bits] at h
  omega

/-- Stack 0 does not read ON. -/
theorem state_powerUp_farState : (powerUp 0 0 (BitVec.allOnes 12) [] farState).fld (Reg.TIER_UNIT.STATE (unitHot 0)) ≠ 2 := by
  obtain ⟨b, hb⟩ := State.exists_bootBank holdsPlain_slotLatched_farState.checkImage
  have hbit : farTile % 32 = 30 := by decide
  obtain ⟨w, hw⟩ := reg_powerUp_quar rfl hb rfl (by decide) (BitVec.allOnes 12)
  rw [quar_farTile, hbit] at hw
  rw [State.fld, hw]
  exact bits_or_ne_two w

/-- What the statement says of stack 0 where it trains. -/
theorem state_powerUp_of_powerUpLatchesAndBoots (h : Obligations.PowerUpLatchesAndBoots) {s : State} (hp : s.pins.powered = false)
    (hs : s.HoldsPlain) : (powerUp 0 0 (BitVec.allOnes 12) [] s).fld (Reg.TIER_UNIT.STATE (unitHot 0)) = 2 := by
  obtain ⟨hup, -⟩ := h
  obtain ⟨t, ht, -, -, -, -, -, -, -, hboot⟩ := hup 0 0 (BitVec.allOnes 12) [] s hp
  rw [if_pos (.inl hs.checkImage)] at hboot
  obtain ⟨-, -, -, -, -, hstacks, -⟩ := hboot
  have ht' : powerUp 0 0 (BitVec.allOnes 12) [] s = t := Host.Outcome.next.inj ht
  exact ht' ▸ (hstacks 0).1 rfl

/-- Refutes O16: every stack trains, and STATE of stack 0 does not read 2. -/
theorem not_powerUpLatchesAndBoots : ¬ Obligations.PowerUpLatchesAndBoots := fun h =>
  state_powerUp_farState (state_powerUp_of_powerUpLatchesAndBoots h rfl holdsPlain_farState)

end Sys2Proof.Machine
end

section
/-! PROOFS. The statement of 01_kenlum_module.md on the host's requests and the partners, which fails. -/
namespace Sys2Proof.Machine

/-! ## A partition number beyond the twelve

An isolated port ends its accesses with kind TIER. One of a collective's engine then faults the partition that its key names. The statement
speaks of every state, and nothing in a state bounds the number in that key: PRT_P_STAT of partition 1,570,304 is CXL_PORT_ERR of port 0,
whose VIOL overlaps FROZEN. -/

/-- The partition whose PRT_P_STAT lies at CXL_PORT_ERR of port 0. -/
def strayPart : Nat := (Reg.CXL_PORT_ERR 0 - Reg.PRT_P_STAT 0) / 0x80

/-- The access of an engine of that partition, outstanding on port 0. -/
def strayAccess : Outstanding := ⟨5, 0, 0, true, .engine (strayPart, 0, 0, 0), 0, .read 64, 0⟩

/-- A live module whose port 0 is ON and trained, isolates at the first violation, and has counted 0x83 violations. -/
def strayState : State :=
  ([(Reg.SEC_STATUS.BOOTED, 1), (Reg.CXL_CTRL.VIOL_LIMIT, 1), (Reg.CXL_PORT_STAT.TRAINED 0, 1), (Reg.TIER_UNIT.STATE (unitCxl 0), 2),
    (Reg.CXL_PORT_ERR.VIOL 0, 0x83)] : List (Field × Nat)).foldl (fun s e => s.setFld e.1 e.2)
    { State.reset with
      pins := { Pins.reset with powered := true, railsOn := true, clocksOn := true }
      outstanding := [strayAccess] }

theorem viol_strayState : strayState.fld (Reg.CXL_PORT_ERR.VIOL 0) = 0x83 := by decide +kernel

/-- The violation is counted to 0x84, which reads as partition 1,570,304 ON with a resident job; freezing it sets a bit of the count. -/
theorem viol_partnerResponse_strayState : (partnerResponse 0 7 .ok true strayState).fld (Reg.CXL_PORT_ERR.VIOL 0) = 0x8C := by
  decide +kernel

/-- Refutes O60: the response with tag 7 to no access of port 0 leaves VIOL at 0x8C, not at 0x84. -/
theorem not_hostRequestsAndPartners : ¬ Obligations.HostRequestsAndPartners := by
  rintro ⟨-, -, -, hviolation, -⟩
  obtain ⟨r, hr, hviol, -⟩ := hviolation 0 0 7 .ok true strayState rfl (by decide +kernel) (by decide +kernel) (by decide +kernel)
    (by decide +kernel) (by decide +kernel)
  have hr' : partnerResponse 0 7 .ok true strayState = r := Host.Outcome.next.inj hr
  have hcount : 0x8C = min 255 (strayState.fld (Reg.CXL_PORT_ERR.VIOL 0) + 1) :=
    viol_partnerResponse_strayState.symm.trans (hr' ▸ hviol)
  rw [viol_strayState] at hcount
  exact absurd hcount (by decide)

end Sys2Proof.Machine
end

section
/-! PROOFS. The statements of 02_strike_rack_time.md on rack time: STRIKE edges, missed boundaries, and the loss and return of the reference. -/
namespace Sys2Proof.Machine

/-! ## Flags and counts of a register -/

/-- A flag of the same register that is not the one set. -/
theorem State.flag_setFlag_disjoint (s : State) (f g : Field) (b : Bool) (ho : g.off = f.off) (hf : f.lo + f.width ≤ 32)
    (hd : f.lo + f.width ≤ g.lo ∨ g.lo + g.width ≤ f.lo) : (s.setFlag f b).flag g = s.flag g := by
  rw [State.flag, State.setFlag, State.fld_setFld_disjoint s f g _ ho hf hd]; rfl

theorem satAt_eq_min (hi v : Nat) : satAt hi v = min hi v := by
  unfold satAt
  split <;> omega

/-- A saturating count holds the lesser of its sum and its greatest value. -/
theorem State.fld_satFld_same (s : State) (f : Field) (n : Nat) (hf : f.lo + f.width ≤ 32) :
    (s.satFld f n).fld f = min (2 ^ f.width - 1) (s.fld f + n) := by
  have hpos := Nat.two_pow_pos f.width
  have hlt : min (2 ^ f.width - 1) (s.fld f + n) < 2 ^ f.width := by omega
  rw [State.satFld, State.fld_setFld_same s f _ hf, satAt_eq_min, Nat.mod_eq_of_lt hlt]

theorem State.reg64_lt (s : State) (lo : Nat) : s.reg64 lo < 2 ^ 64 := by
  have hlow := (s.reg lo).isLt
  have hhigh := (s.reg (lo + 4)).isLt
  unfold State.reg64
  omega

/-- What a 64-bit register pair reads is what its two registers hold. -/
theorem State.reg64_congr {s t : State} {lo : Nat} (hlo : t.reg lo = s.reg lo) (hhi : t.reg (lo + 4) = s.reg (lo + 4)) :
    t.reg64 lo = s.reg64 lo := by
  rw [State.reg64, hlo, hhi]; rfl

/-- A pair written with a value that a pair held. -/
theorem State.reg64_setReg64_of_lt (s : State) (lo : Nat) {v : Nat} (hv : v < 2 ^ 64) : (s.setReg64 lo v).reg64 lo = v := by
  rw [State.reg64_setReg64, Nat.mod_eq_of_lt hv]

theorem State.keepsRegs_setFlag (s : State) (f : Field) (b : Bool) : s.keepsRegs (s.setFlag f b) [f.off] :=
  fun _ ho => State.reg_setFld_ne s f _ (List.ne_of_not_mem_cons ho)

theorem State.keepsRegs.trans {s t u : State} {l m n : List Nat} (h : s.keepsRegs t l) (h' : t.keepsRegs u m) (hl : l ⊆ n) (hm : m ⊆ n) :
    s.keepsRegs u n := fun o ho => (h' o (fun hx => ho (hm hx))).trans (h o (fun hx => ho (hl hx)))

theorem State.keepsRegs.flag {s t : State} {l : List Nat} (h : s.keepsRegs t l) {f : Field} (hf : f.off ∉ l) : t.flag f = s.flag f := by
  rw [State.flag, State.fld_congr f (h f.off hf)]; rfl

/-! ## Anomalies (R30) -/

/-- One more anomaly reaches the limit of the period, in a module that is not DEGRADED. -/
def State.anomTrips (s : State) : Bool := decide (s.anomLimit ≤ s.anomCount + 1) && !s.flag Reg.TIME_STATUS.DEGRADED

/-- What goes out where DEGRADED changes to 1. -/
def State.anomReport (s : State) : List Output := if s.anomTrips && s.flag Reg.TIME_CTRL.INT_EN then [.interrupt false 30, .report 30] else []

/-- The registers after an anomaly: TIME_LAST_ANOM is stamped, and DEGRADED sets where the limit is reached. -/
def State.anomRegs (s : State) : State :=
  if s.anomTrips then (s.setReg64 Reg.TIME_LAST_ANOM_LO s.tick).setFlag Reg.TIME_STATUS.DEGRADED true
  else s.setReg64 Reg.TIME_LAST_ANOM_LO s.tick

/-- The stamp of an anomaly leaves every flag outside TIME_LAST_ANOM. -/
theorem State.flag_stampAnom (s : State) (v : Nat) {f : Field} (hf : f.off ∉ [Reg.TIME_LAST_ANOM_LO, Reg.TIME_LAST_ANOM_HI]) :
    (s.setReg64 Reg.TIME_LAST_ANOM_LO v).flag f = s.flag f := (s.keepsRegs_setReg64 Reg.TIME_LAST_ANOM_LO v).flag hf

/-- `State.anomaly` as its two outcomes, with the flags that it looks at read before the stamp. -/
theorem State.anomaly_cases (s : State) : s.anomaly =
    let t := { s.setReg64 Reg.TIME_LAST_ANOM_LO s.tick with anomalies := s.anomCount + 1, anomPeriod := s.anomNow }
    if s.anomTrips then t.degradeTime else t := by
  have hlimit : (s.setReg64 Reg.TIME_LAST_ANOM_LO s.tick).anomLimit = s.anomLimit := by
    rw [State.anomLimit, State.fld_congr _ (s.keepsRegs_setReg64 Reg.TIME_LAST_ANOM_LO s.tick _ (by decide))]; rfl
  have hdegraded := s.flag_stampAnom s.tick (f := Reg.TIME_STATUS.DEGRADED) (by decide)
  have hiff : (s.anomCount + 1 ≥ (s.setReg64 Reg.TIME_LAST_ANOM_LO s.tick).anomLimit ∧
      (s.setReg64 Reg.TIME_LAST_ANOM_LO s.tick).flag Reg.TIME_STATUS.DEGRADED = false) ↔ s.anomTrips = true := by
    rw [hlimit, hdegraded]
    simp [State.anomTrips]
  exact if_congr hiff rfl rfl

/-- A change of DEGRADED is reported under INT_EN. -/
theorem State.degradeTime_eq (s : State) : s.degradeTime = { s with
    regs := (s.setFlag Reg.TIME_STATUS.DEGRADED true).regs
    out := s.out ++ (if s.flag Reg.TIME_CTRL.INT_EN then [.interrupt false 30, .report 30] else []) } := by
  have hint : (s.setFlag Reg.TIME_STATUS.DEGRADED true).flag Reg.TIME_CTRL.INT_EN = s.flag Reg.TIME_CTRL.INT_EN :=
    State.flag_setFlag_ne _ _ _ _ (by decide)
  have hcases : s.degradeTime = if s.flag Reg.TIME_CTRL.INT_EN then
      ((s.setFlag Reg.TIME_STATUS.DEGRADED true).emit (.interrupt false 30)).emit (.report 30)
    else s.setFlag Reg.TIME_STATUS.DEGRADED true := by rw [← hint]; rfl
  rw [hcases]
  split
  · unfold State.emit
    rw [List.append_assoc]
    rfl
  · rw [List.append_nil]
    rfl

theorem State.anomaly_eq (s : State) : s.anomaly =
    { s with regs := s.anomRegs.regs, anomalies := s.anomCount + 1, anomPeriod := s.anomNow, out := s.out ++ s.anomReport } := by
  rw [State.anomaly_cases, State.anomRegs, State.anomReport]
  by_cases htrip : s.anomTrips = true
  · have hint := s.flag_stampAnom s.tick (f := Reg.TIME_CTRL.INT_EN) (by decide)
    simp only [htrip, if_true, Bool.true_and, ← hint]
    exact State.degradeTime_eq _
  · simp only [htrip, Bool.false_and, Bool.false_eq_true, if_false, List.append_nil]
    rfl

/-- An anomaly writes TIME_LAST_ANOM and DEGRADED. -/
theorem State.keepsRegs_anomRegs (s : State) :
    s.keepsRegs s.anomRegs [Reg.TIME_STATUS, Reg.TIME_LAST_ANOM_LO, Reg.TIME_LAST_ANOM_HI] := by
  have hstamp := s.keepsRegs_setReg64 Reg.TIME_LAST_ANOM_LO s.tick
  unfold State.anomRegs
  split
  · exact hstamp.trans (State.keepsRegs_setFlag _ Reg.TIME_STATUS.DEGRADED true) (by simp) (by simp)
  · exact fun o ho => hstamp o (fun hx => ho (List.mem_cons_of_mem _ hx))

theorem State.reg64_anomRegs (s : State) : s.anomRegs.reg64 Reg.TIME_LAST_ANOM_LO = s.tick := by
  have hstamp : (s.setReg64 Reg.TIME_LAST_ANOM_LO s.tick).reg64 Reg.TIME_LAST_ANOM_LO = s.tick :=
    s.reg64_setReg64_of_lt _ (s.reg64_lt _)
  unfold State.anomRegs
  split
  · exact (State.reg64_congr (State.reg_setFld_ne _ _ _ (by decide)) (State.reg_setFld_ne _ _ _ (by decide))).trans hstamp
  · exact hstamp

theorem State.degraded_anomRegs (s : State) :
    s.anomRegs.flag Reg.TIME_STATUS.DEGRADED = (s.flag Reg.TIME_STATUS.DEGRADED || s.anomTrips) := by
  unfold State.anomRegs
  split
  · next h => rw [State.flag_setFlag_same _ _ _ (by decide) rfl, h, Bool.or_true]
  · next h => rw [s.flag_stampAnom s.tick (by decide), Bool.eq_false_of_not_eq_true h, Bool.or_false]

/-- An anomaly sets no flag of TIME_STATUS but DEGRADED. -/
theorem State.flag_anomRegs (s : State) {g : Field} (hg : g.off = Reg.TIME_STATUS)
    (hd : Reg.TIME_STATUS.DEGRADED.lo + 1 ≤ g.lo ∨ g.lo + g.width ≤ Reg.TIME_STATUS.DEGRADED.lo) : s.anomRegs.flag g = s.flag g := by
  have hstamp := s.flag_stampAnom s.tick (f := g) (by rw [hg]; decide)
  unfold State.anomRegs
  split
  · rw [State.flag_setFlag_disjoint _ _ _ _ hg (by decide) hd, hstamp]
  · exact hstamp

/-- What counts and shows each kind of anomaly (R29): an edge off the boundary, and a boundary missed. -/
def anomalyMarks : List (Field × Field) :=
  [(Reg.TIME_OFF_CNT.COUNT, Reg.TIME_STATUS.OFF_BOUNDARY), (Reg.TIME_MISSED_CNT.COUNT, Reg.TIME_STATUS.MISSED)]

/-- The count of an anomaly and the flag that shows it. -/
def State.noted (s : State) (cnt mark : Field) : State := (s.satFld cnt 1).setFlag mark true

/-- What an anomaly of a kind does to the state (R29, R30). -/
structure State.CountsAnomaly (s t : State) (cnt mark : Field) : Prop where
  count : t.fld cnt = min (2 ^ cnt.width - 1) (s.fld cnt + 1)
  mark : t.flag mark = true
  stamp : t.reg64 Reg.TIME_LAST_ANOM_LO = s.tick
  degraded : t.flag Reg.TIME_STATUS.DEGRADED = (s.flag Reg.TIME_STATUS.DEGRADED || s.anomTrips)
  aligned : t.flag Reg.TIME_STATUS.ALIGNED = s.flag Reg.TIME_STATUS.ALIGNED
  frame : t = { s with regs := t.regs, anomalies := s.anomCount + 1, anomPeriod := s.anomNow, out := s.out ++ s.anomReport }
  regs : s.keepsRegs t [cnt.off, Reg.TIME_STATUS, Reg.TIME_LAST_ANOM_LO, Reg.TIME_LAST_ANOM_HI]

section
variable {cnt mark : Field}

/-- The counts are registers of their own, and the marks are flags of TIME_STATUS apart from ALIGNED and DEGRADED. -/
theorem anomalyMarks_apart (h : (cnt, mark) ∈ anomalyMarks) :
    (cnt.off ∉ [Reg.TIME_TICK_LO, Reg.TIME_TICK_HI, Reg.TIME_CTRL, Reg.TIME_STATUS, Reg.TIME_LAST_ANOM_LO, Reg.TIME_LAST_ANOM_HI] ∧
      cnt.lo + cnt.width ≤ 32) ∧
    (mark.off = Reg.TIME_STATUS ∧ mark.lo + mark.width ≤ 32 ∧ mark.width = 1 ∧
      mark.lo ≠ Reg.TIME_STATUS.ALIGNED.lo ∧ mark.lo ≠ Reg.TIME_STATUS.DEGRADED.lo) := by
  have hall : ∀ e ∈ anomalyMarks,
      (e.1.off ∉ [Reg.TIME_TICK_LO, Reg.TIME_TICK_HI, Reg.TIME_CTRL, Reg.TIME_STATUS, Reg.TIME_LAST_ANOM_LO, Reg.TIME_LAST_ANOM_HI] ∧
        e.1.lo + e.1.width ≤ 32) ∧
      (e.2.off = Reg.TIME_STATUS ∧ e.2.lo + e.2.width ≤ 32 ∧ e.2.width = 1 ∧
        e.2.lo ≠ Reg.TIME_STATUS.ALIGNED.lo ∧ e.2.lo ≠ Reg.TIME_STATUS.DEGRADED.lo) := by decide
  exact hall (cnt, mark) h

theorem State.keepsRegs_noted (s : State) (h : (cnt, mark) ∈ anomalyMarks) :
    s.keepsRegs (s.noted cnt mark) [cnt.off, Reg.TIME_STATUS] := by
  obtain ⟨-, hoff, -⟩ := anomalyMarks_apart h
  intro o ho
  simp only [List.mem_cons, List.not_mem_nil, or_false, not_or] at ho
  obtain ⟨hcnt, hst⟩ := ho
  rw [← hoff] at hst
  exact (State.reg_setFld_ne _ _ _ hst).trans (State.reg_setFld_ne _ _ _ hcnt)

/-- What an anomaly looks at but its own count and mark is as before them. -/
theorem State.flag_noted (s : State) (h : (cnt, mark) ∈ anomalyMarks) {g : Field}
    (hg : g = Reg.TIME_STATUS.ALIGNED ∨ g = Reg.TIME_STATUS.DEGRADED) : (s.noted cnt mark).flag g = s.flag g := by
  obtain ⟨⟨hcnt, -⟩, hoff, hlow, hwidth, haligned, hdegraded⟩ := anomalyMarks_apart h
  have hoff' : g.off = Reg.TIME_STATUS := by rcases hg with rfl | rfl <;> rfl
  have hne : g.off ≠ cnt.off := fun e => hcnt (by rw [← e, hoff']; simp)
  have hbits : mark.lo + mark.width ≤ g.lo ∨ g.lo + g.width ≤ mark.lo := by
    rcases hg with rfl | rfl <;> dsimp only at * <;> omega
  rw [State.noted, State.flag_setFlag_disjoint _ _ _ _ (hoff'.trans hoff.symm) hlow hbits]
  exact State.flag_setFld_ne _ _ _ _ hne

theorem State.tick_noted (s : State) (h : (cnt, mark) ∈ anomalyMarks) : (s.noted cnt mark).tick = s.tick := by
  obtain ⟨⟨hcnt, -⟩, -⟩ := anomalyMarks_apart h
  simp only [List.mem_cons, List.not_mem_nil, or_false, not_or] at hcnt
  obtain ⟨hlo, hhi, -⟩ := hcnt
  have hkeep := s.keepsRegs_noted h
  exact State.reg64_congr (hkeep Reg.TIME_TICK_LO (by simp [Ne.symm hlo])) (hkeep Reg.TIME_TICK_HI (by simp [Ne.symm hhi]))

theorem State.ctrl_noted (s : State) (h : (cnt, mark) ∈ anomalyMarks) : (s.noted cnt mark).reg Reg.TIME_CTRL = s.reg Reg.TIME_CTRL := by
  obtain ⟨⟨hcnt, -⟩, -⟩ := anomalyMarks_apart h
  simp only [List.mem_cons, List.not_mem_nil, or_false, not_or] at hcnt
  obtain ⟨-, -, hctrl, -⟩ := hcnt
  exact s.keepsRegs_noted h _ (by simp [Ne.symm hctrl])

/-- The count and the mark leave all that decides what the anomaly does. -/
theorem State.anom_noted (s : State) (h : (cnt, mark) ∈ anomalyMarks) : (s.noted cnt mark).anomNow = s.anomNow ∧
    (s.noted cnt mark).anomCount = s.anomCount ∧ (s.noted cnt mark).anomTrips = s.anomTrips ∧
      (s.noted cnt mark).anomReport = s.anomReport := by
  have hnow : (s.noted cnt mark).anomNow = s.anomNow := by rw [State.anomNow, s.tick_noted h]; rfl
  have hcount : (s.noted cnt mark).anomCount = s.anomCount := by rw [State.anomCount, hnow]; rfl
  have hlimit : (s.noted cnt mark).anomLimit = s.anomLimit := by
    rw [State.anomLimit, State.fld_congr _ (s.ctrl_noted h)]; rfl
  have hint : (s.noted cnt mark).flag Reg.TIME_CTRL.INT_EN = s.flag Reg.TIME_CTRL.INT_EN := by
    rw [State.flag, State.fld_congr _ (s.ctrl_noted h)]; rfl
  have htrips : (s.noted cnt mark).anomTrips = s.anomTrips := by
    rw [State.anomTrips, hlimit, hcount, s.flag_noted h (.inr rfl)]; rfl
  exact ⟨hnow, hcount, htrips, by rw [State.anomReport, htrips, hint]; rfl⟩

theorem State.countsAnomaly (s : State) (h : (cnt, mark) ∈ anomalyMarks) :
    s.CountsAnomaly (s.noted cnt mark).anomaly cnt mark := by
  obtain ⟨⟨hcnt, hcntLow⟩, hoff, hlow, hwidth, -, hdegraded⟩ := anomalyMarks_apart h
  obtain ⟨hnow, hcount, htrips, hreport⟩ := s.anom_noted h
  have hkeep := (s.noted cnt mark).keepsRegs_anomRegs
  have hcntKept : cnt.off ∉ [Reg.TIME_STATUS, Reg.TIME_LAST_ANOM_LO, Reg.TIME_LAST_ANOM_HI] := fun hx => hcnt (by simp at hx ⊢; tauto)
  have hcntNe : cnt.off ≠ mark.off := fun e => hcnt (by rw [e, hoff]; simp)
  rw [State.anomaly_eq]
  refine ⟨?_, ?_, ?_, ?_, ?_, ?_, ?_⟩
  · calc (s.noted cnt mark).anomRegs.fld cnt = (s.noted cnt mark).fld cnt := State.fld_congr _ (hkeep _ hcntKept)
      _ = (s.satFld cnt 1).fld cnt := State.fld_setFld_ne _ _ _ _ hcntNe
      _ = _ := s.fld_satFld_same cnt 1 hcntLow
  · have hbits : Reg.TIME_STATUS.DEGRADED.lo + 1 ≤ mark.lo ∨ mark.lo + mark.width ≤ Reg.TIME_STATUS.DEGRADED.lo := by omega
    exact ((s.noted cnt mark).flag_anomRegs hoff hbits).trans (State.flag_setFlag_same _ _ _ hlow hwidth)
  · exact (s.noted cnt mark).reg64_anomRegs.trans (s.tick_noted h)
  · exact (s.noted cnt mark).degraded_anomRegs.trans (by rw [s.flag_noted h (.inr rfl), htrips])
  · exact ((s.noted cnt mark).flag_anomRegs rfl (by decide)).trans (s.flag_noted h (.inl rfl))
  · rw [hcount, hnow, hreport]; rfl
  · exact (s.keepsRegs_noted h).trans hkeep (by simp) (by simp)

end

/-! ## STRIKE -/

/-- The registers after the edge that an armed module waits for (R27). -/
def State.alignedRegs (s : State) : State :=
  ((s.setReg64 Reg.TIME_TICK_LO (s.reg64 Reg.TIME_LOAD_LO)).setFlag Reg.TIME_STATUS.ARMED false).setFlag Reg.TIME_STATUS.ALIGNED true

/-! The four cases of an edge (R27, R29). -/

section
variable {s : State} (h : s.refRuns = true)
include h

theorem strikeEdge_armed (ha : s.flag Reg.TIME_STATUS.ARMED = true) :
    strikeEdge s = { s.alignedRegs with edge := some true, boundary := 0 } := by
  rw [strikeEdge, if_neg (by simp [h]), if_pos ha]
  rfl

theorem strikeEdge_unaligned (ha : ¬ s.flag Reg.TIME_STATUS.ARMED = true) (hal : s.flag Reg.TIME_STATUS.ALIGNED = false) :
    strikeEdge s = s := by
  rw [strikeEdge, if_neg (by simp [h]), if_neg ha, if_pos hal]

variable (ha : ¬ s.flag Reg.TIME_STATUS.ARMED = true) (hal : ¬ s.flag Reg.TIME_STATUS.ALIGNED = false)
include ha hal

theorem strikeEdge_onBoundary (h0 : s.tick % 1024 = 0) : strikeEdge s = { s with edge := some true } := by
  rw [strikeEdge, if_neg (by simp [h]), if_neg ha, if_neg hal, if_pos h0]

theorem strikeEdge_offBoundary (h0 : ¬ s.tick % 1024 = 0) :
    strikeEdge s = (s.noted Reg.TIME_OFF_CNT.COUNT Reg.TIME_STATUS.OFF_BOUNDARY).anomaly := by
  rw [strikeEdge, if_neg (by simp [h]), if_neg ha, if_neg hal, if_neg h0]
  rfl

end

theorem State.onlyRegs_alignedRegs (s : State) :
    s.onlyRegs s.alignedRegs [Reg.TIME_TICK_LO, Reg.TIME_TICK_HI, Reg.TIME_STATUS] :=
  ((((State.onlyRegs.refl s _).setReg _ (by simp)).setReg _ (by simp)).setFlag _ (by simp)).setFlag _ (by simp)

theorem State.tick_alignedRegs (s : State) : s.alignedRegs.tick = s.reg64 Reg.TIME_LOAD_LO := by
  have hstatus (u : State) (f : Field) (b : Bool) (hf : f.off = Reg.TIME_STATUS) : (u.setFlag f b).tick = u.tick :=
    State.reg64_congr (State.reg_setFld_ne _ _ _ (by rw [hf]; decide)) (State.reg_setFld_ne _ _ _ (by rw [hf]; decide))
  calc s.alignedRegs.tick = (s.setReg64 Reg.TIME_TICK_LO (s.reg64 Reg.TIME_LOAD_LO)).tick :=
        (hstatus _ Reg.TIME_STATUS.ALIGNED true rfl).trans (hstatus _ Reg.TIME_STATUS.ARMED false rfl)
    _ = s.reg64 Reg.TIME_LOAD_LO := s.reg64_setReg64_of_lt _ (s.reg64_lt _)

theorem State.armed_alignedRegs (s : State) : s.alignedRegs.flag Reg.TIME_STATUS.ARMED = false :=
  (State.flag_setFlag_disjoint _ Reg.TIME_STATUS.ALIGNED Reg.TIME_STATUS.ARMED true rfl (by decide) (by decide)).trans
    (State.flag_setFlag_same _ Reg.TIME_STATUS.ARMED false (by decide) rfl)

theorem State.aligned_alignedRegs (s : State) : s.alignedRegs.flag Reg.TIME_STATUS.ALIGNED = true :=
  State.flag_setFlag_same _ Reg.TIME_STATUS.ALIGNED true (by decide) rfl

/-- The first tick of the Strike has passed with no edge. -/
def State.passedFirst (s : State) : State := { s with edge := some false }

/-- A boundary missed is noted like an edge off the boundary, and is not looked for again (R29). -/
theorem missedBoundary_missed {s : State} (h : s.onBoundary = true ∧ s.edge = none) : missedBoundary s =
    (s.noted Reg.TIME_MISSED_CNT.COUNT Reg.TIME_STATUS.MISSED).anomaly.passedFirst := by
  obtain ⟨hb, he⟩ := h
  exact if_pos (by rw [hb, he]; rfl)

/-- The state of the look at the boundary is no register: all that an anomaly did is there still. -/
theorem State.CountsAnomaly.passedFirst {s u : State} {cnt mark : Field} (h : s.CountsAnomaly u cnt mark) :
    u.passedFirst.fld cnt = min (2 ^ cnt.width - 1) (s.fld cnt + 1) ∧ u.passedFirst.flag mark = true ∧
      u.passedFirst.reg64 Reg.TIME_LAST_ANOM_LO = s.tick ∧
      u.passedFirst.flag Reg.TIME_STATUS.DEGRADED = (s.flag Reg.TIME_STATUS.DEGRADED || s.anomTrips) ∧
      u.passedFirst = { s with
        regs := u.passedFirst.regs, anomalies := s.anomCount + 1, anomPeriod := s.anomNow, edge := some false
        out := s.out ++ s.anomReport } ∧
      s.keepsRegs u.passedFirst [cnt.off, Reg.TIME_STATUS, Reg.TIME_LAST_ANOM_LO, Reg.TIME_LAST_ANOM_HI] := by
  have hreg (o : Nat) : u.passedFirst.reg o = u.reg o := rfl
  have hflag (f : Field) : u.passedFirst.flag f = u.flag f := by rw [State.flag, State.fld_congr f (hreg f.off)]; rfl
  exact ⟨(State.fld_congr cnt (hreg _)).trans h.count, (hflag mark).trans h.mark, (State.reg64_congr (hreg _) (hreg _)).trans h.stamp,
    (hflag _).trans h.degraded, congrArg State.passedFirst h.frame, fun o ho => (hreg o).trans (h.regs o ho)⟩

theorem missedBoundary_idle {s : State} (h : ¬ (s.onBoundary = true ∧ s.edge = none)) : missedBoundary s = s :=
  if_neg (by simpa using h)

/-- Settles O8: the cases of an edge, of which one is an anomaly as a missed boundary is. -/
theorem edgesAndMissedBoundaries : Obligations.EdgesAndMissedBoundaries := by
  refine ⟨fun s hs => ?_, fun s => ?_⟩
  · by_cases harmed : s.flag Reg.TIME_STATUS.ARMED = true
    · refine ⟨_, congrArg Host.Outcome.next (strikeEdge_armed hs harmed), ?_⟩
      rw [if_pos harmed]
      have htick := s.tick_alignedRegs
      have harmed' := s.armed_alignedRegs
      have haligned := s.aligned_alignedRegs
      obtain ⟨hframe, hregs⟩ := s.onlyRegs_alignedRegs
      generalize s.alignedRegs = u at *
      exact ⟨htick, harmed', haligned, congrArg (fun v : State => { v with edge := some true, boundary := 0 }) hframe, hregs⟩
    by_cases haligned : s.flag Reg.TIME_STATUS.ALIGNED = false
    · refine ⟨s, congrArg Host.Outcome.next (strikeEdge_unaligned hs harmed haligned), ?_⟩
      rw [if_neg harmed, if_pos haligned]
    by_cases hfirst : s.tick % 1024 = 0
    · refine ⟨_, congrArg Host.Outcome.next (strikeEdge_onBoundary hs harmed haligned hfirst), ?_⟩
      rw [if_neg harmed, if_neg haligned, if_pos hfirst]
    refine ⟨_, congrArg Host.Outcome.next (strikeEdge_offBoundary hs harmed haligned hfirst), ?_⟩
    rw [if_neg harmed, if_neg haligned, if_neg hfirst]
    obtain ⟨hcount, hmark, hstamp, hdegraded, hal, hframe, hregs⟩ :=
      s.countsAnomaly (cnt := Reg.TIME_OFF_CNT.COUNT) (mark := Reg.TIME_STATUS.OFF_BOUNDARY) (by simp [anomalyMarks])
    have hstays : s.flag Reg.TIME_STATUS.ALIGNED = true := by simpa using haligned
    generalize (s.noted Reg.TIME_OFF_CNT.COUNT Reg.TIME_STATUS.OFF_BOUNDARY).anomaly = u at *
    exact ⟨hcount, hmark, hstamp, hdegraded, hal.trans hstays, hframe, hregs⟩
  · by_cases hmissed : s.onBoundary = true ∧ s.edge = none
    · refine ⟨_, congrArg Host.Outcome.next (missedBoundary_missed hmissed), ?_⟩
      rw [if_pos hmissed]
      exact (s.countsAnomaly (cnt := Reg.TIME_MISSED_CNT.COUNT) (mark := Reg.TIME_STATUS.MISSED) (by simp [anomalyMarks])).passedFirst
    · refine ⟨s, congrArg Host.Outcome.next (missedBoundary_idle hmissed), ?_⟩
      rw [if_neg hmissed]

/-! ## The reference (R31) -/

/-- The registers after the loss of the reference. -/
def State.refLostRegs (s : State) : State :=
  ((s.setFlag Reg.TIME_STATUS.REF_LOST true).setFlag Reg.TIME_STATUS.ALIGNED false).setFlag Reg.PWR_STATUS.ALIGNED_WAIT true

theorem State.onlyRegs_refLostRegs (s : State) : s.onlyRegs s.refLostRegs [Reg.TIME_STATUS, Reg.PWR_STATUS] :=
  (((State.onlyRegs.refl s _).setFlag _ (by simp)).setFlag _ (by simp)).setFlag _ (by simp)

/-- What goes out at the loss of the reference: an interrupt, where REF_LOST changes to 1 under INT_EN. -/
def State.refLostReport (s : State) : List Output :=
  if s.flag Reg.TIME_CTRL.INT_EN && !s.flag Reg.TIME_STATUS.REF_LOST then [.interrupt false 31] else []

theorem State.interruptIf_eq (s : State) (en : Bool) (rule : Nat) :
    s.interruptIf en rule = { s with out := s.out ++ (if en then [.interrupt false rule] else []) } := by
  cases en
  · exact (congrArg (fun l => { s with out := l }) (List.append_nil s.out)).symm
  · rfl

theorem referenceLost_eq {s : State} (h : s.refRuns = true) : referenceLost s = { s.refLostRegs with
    refGone := true
    edge := none
    pins := { s.pins with clocksOn := false, faultPin := true }
    out := s.out ++ s.refLostReport } := by
  have hint : ((s.setFlag Reg.TIME_STATUS.REF_LOST true).setFlag Reg.TIME_STATUS.ALIGNED false).flag Reg.TIME_CTRL.INT_EN =
      s.flag Reg.TIME_CTRL.INT_EN :=
    (State.flag_setFlag_ne _ _ _ _ (by decide)).trans (State.flag_setFlag_ne _ _ _ _ (by decide))
  unfold referenceLost
  rw [if_neg (by simp [h])]
  dsimp only
  rw [hint, State.interruptIf_eq]
  rfl

theorem State.refLost_refLostRegs (s : State) : s.refLostRegs.flag Reg.TIME_STATUS.REF_LOST = true :=
  calc s.refLostRegs.flag Reg.TIME_STATUS.REF_LOST =
        ((s.setFlag Reg.TIME_STATUS.REF_LOST true).setFlag Reg.TIME_STATUS.ALIGNED false).flag Reg.TIME_STATUS.REF_LOST :=
        State.flag_setFlag_ne _ _ _ _ (by decide)
    _ = (s.setFlag Reg.TIME_STATUS.REF_LOST true).flag Reg.TIME_STATUS.REF_LOST :=
        State.flag_setFlag_disjoint _ _ _ _ rfl (by decide) (by decide)
    _ = true := State.flag_setFlag_same _ _ _ (by decide) rfl

theorem State.aligned_refLostRegs (s : State) : s.refLostRegs.flag Reg.TIME_STATUS.ALIGNED = false :=
  (State.flag_setFlag_ne _ _ _ _ (by decide)).trans (State.flag_setFlag_same _ Reg.TIME_STATUS.ALIGNED false (by decide) rfl)

theorem State.gridLive_clocksOff {s : State} (h : s.pins.clocksOn = false) : s.gridLive = false := by
  rw [State.gridLive, h, Bool.and_false, Bool.false_and]

theorem referenceReturn_eq {s : State} (hg : s.refGone = true) (hw : s.warmWaitsRef = false) :
    referenceReturn s = { s.setReg64 Reg.TIME_TICK_LO 0 with refGone := false } := by
  rw [referenceReturn, if_pos hg]
  exact if_neg (by simp [State.setReg64, hw])

theorem State.onlyRegs_setTick (s : State) (v : Nat) :
    s.onlyRegs (s.setReg64 Reg.TIME_TICK_LO v) [Reg.TIME_TICK_LO, Reg.TIME_TICK_HI] :=
  ((State.onlyRegs.refl s _).setReg _ (by simp)).setReg _ (by simp)

/-- Settles O11: what either command writes, register by register. -/
theorem referenceLossStopsTheClocks : Obligations.ReferenceLossStopsTheClocks := by
  refine ⟨fun s hs => ⟨_, congrArg Host.Outcome.next (referenceLost_eq hs), ?_⟩,
    fun s hg hw => ⟨_, congrArg Host.Outcome.next (referenceReturn_eq hg hw), ?_⟩⟩
  · have hlost := s.refLost_refLostRegs
    have haligned := s.aligned_refLostRegs
    have hwait : s.refLostRegs.flag Reg.PWR_STATUS.ALIGNED_WAIT = true := State.flag_setFlag_same _ _ _ (by decide) rfl
    obtain ⟨hframe, hkeep⟩ := s.onlyRegs_refLostRegs
    have htick : s.refLostRegs.tick = s.tick := State.reg64_congr (hkeep Reg.TIME_TICK_LO (by decide)) (hkeep Reg.TIME_TICK_HI (by decide))
    generalize s.refLostRegs = u at *
    exact ⟨hlost, haligned, hwait, htick, State.gridLive_clocksOff rfl,
      congrArg (fun v : State => { v with
        refGone := true
        edge := none
        pins := { s.pins with clocksOn := false, faultPin := true }
        out := s.out ++ s.refLostReport }) hframe, hkeep⟩
  · have htick := s.reg64_setReg64 Reg.TIME_TICK_LO 0
    obtain ⟨hframe, hkeep⟩ := s.onlyRegs_setTick 0
    generalize s.setReg64 Reg.TIME_TICK_LO 0 = u at *
    exact ⟨htick, congrArg (fun v : State => { v with refGone := false }) hframe, hkeep⟩

end Sys2Proof.Machine
end

section
/-! PROOFS. The refutation of the statement on warm resets: what a collective that ends writes in another register's place. -/
namespace Sys2Proof.Machine

/-- A mover so far beyond the 128 of the module that its requester code names no mover: the code is read as a host function, whose bit of
SEC_FNFRZ lies in the place of SRV_STATUS. No field of `Collective` bounds its mover. -/
def foreignMover : Nat := 32 * ((Reg.SRV_STATUS - Reg.SEC_FNFRZ 0) / 4) + 8 + 0x80

/-- A collective in progress on that mover, whose job cannot go on. -/
def strayCollective : Collective := ⟨0, foreignMover, 0xA000000, 0, 0, 0, 0, 0, 0, 0, 0, 0, 0, 0, 0, 0, 0, 1, none, 0, 0, [], false, some true⟩

/-- Registers of a booted module with a configured partition. -/
def warmRegs : List (Field × Nat) :=
  [(Reg.SEC_STATUS.BOOTED, 1), (Reg.TIER_UNIT.STATE (unitHot 0), 2), (Reg.PRT_P_STAT.STATE 0, 1), (Reg.PRT_P_BAYS.COUNT 0, 1)]

/-- The module that a warm reset meets: a translation in memory leads the status write of the collective to a Billet bank. -/
def warmState : State :=
  warmRegs.foldl (fun s e => s.setFld e.1 e.2) { State.reset with
    mem := cellsFrom 0 (natLE 8 0x1001) ++ cellsFrom 0x1000 (natLE 8 0x20000000000B)
    pins := { Pins.reset with powered := true, railsOn := true, clocksOn := true }
    collectives := [strayCollective] }

theorem jmode_warmState : warmState.fld Reg.SRV_STATUS.JMODE = 0 := by decide +kernel

/-- The violation of the stray write freezes a function, and the bit stands in JMODE. -/
theorem jmode_warmReset_warmState : (warmReset warmState).fld Reg.SRV_STATUS.JMODE = 1 := by decide +kernel

/-- Refutes O18: the end of a collective whose mover number is out of range changes JMODE. -/
theorem not_warmResetKeepsTimeAndFuses : ¬ Obligations.WarmResetKeepsTimeAndFuses := by
  unfold Obligations.WarmResetKeepsTimeAndFuses
  rintro ⟨hempties, -, -⟩
  obtain ⟨t, ht, -, -, -, -, -, -, -, -, -, -, -, -, -, hjmode⟩ :=
    hempties warmState (by decide +kernel) (by decide +kernel) (by decide +kernel) (by decide +kernel) (by decide +kernel) (by decide +kernel)
  obtain rfl : warmReset warmState = t := Host.Outcome.next.inj ht
  rw [jmode_warmReset_warmState, jmode_warmState] at hjmode
  exact absurd hjmode (by decide)

end Sys2Proof.Machine
end

section
/-! PROOFS. The refutation of the statement on requests: the step that is admitted writes the witness selection into memory. -/
namespace Sys2Proof.Machine

/-! ## The witness selection (R403) -/

/-- A run of steps that each keep the parts keeps them. -/
theorem State.parts_foldl {α : Type} {f : State → α → State} (hf : ∀ s x, (f s x).parts = s.parts) (l : List α) (s : State) :
    (l.foldl f s).parts = s.parts := by
  induction l generalizing s with
  | nil => rfl
  | cons x l ih => rw [List.foldl_cons, ih, hf]

theorem State.parts_hearthAccess (s : State) (b off : Nat) (write na : Bool) : (s.hearthAccess b off write na).parts = s.parts := by
  unfold State.hearthAccess
  split
  · rfl
  · dsimp only
    split <;> rfl

theorem State.parts_pass (s : State) (off n : Nat) (write : Bool) : (s.pass off n write).parts = s.parts := by
  refine State.parts_foldl (fun u l => ?_) _ s
  split
  · exact u.parts_hearthAccess _ _ _ _
  · rfl

theorem State.parts_write (s : State) (a : Nat) (d : List Byte) : (s.write a d).parts = s.parts := by
  induction d generalizing s a with
  | nil => rfl
  | cons x d ih => exact (ih (s.setByte a x) (a + 1)).trans rfl

/-- The witness selection changes no part. -/
theorem State.parts_writeSelection (s : State) (p n : Nat) : (s.writeSelection p n).parts = s.parts := by
  unfold State.writeSelection
  dsimp only
  split
  · exact (State.parts_write _ _ _).trans (s.parts_pass _ _ _)
  · rfl

/-- The first byte of a write is in its place. -/
theorem State.byte_write_head (s : State) (a : Nat) (b : Byte) (bs : List Byte) : (s.write a (b :: bs)).byte a = b :=
  s.byte_write_inside a (b :: bs) (i := 0) (Nat.zero_lt_succ _)

/-- Where the table of step `n` of a job stands. -/
def State.selectionBase (s : State) (p n : Nat) : Nat :=
  s.slgBase p (s.fld (Reg.PRT_P_STAT.RESIDENT p)) + (if n % 2 = 0 then 0x8000 else 0xC000)

/-- A table whose first entry samples no row group begins with 0xFF. -/
theorem State.byte_writeSelection (s : State) (p n : Nat) (hwit : s.flag Reg.SLG_CTRL.WIT_EN = true)
    (hvalid : s.flag (Reg.SLG_P_JOB_CTL.VALID p (s.fld (Reg.PRT_P_STAT.RESIDENT p))) = true) (hnone : s.sampled n p 0 0 = none) :
    (s.writeSelection p n).byte (s.selectionBase p n) = 0xFF := by
  have hrange : List.range 512 = 0 :: List.range' 1 511 := by rw [List.range_eq_range', List.range'_succ]
  have hhead : natLE 32 (2 ^ 256 - 1) = 0xFF :: natLE 31 (2 ^ 248 - 1) := by decide +kernel
  unfold State.writeSelection
  dsimp only
  rw [hwit, hvalid, Bool.and_self, if_pos rfl, hrange, List.flatMap_cons]
  simp only [Nat.zero_div, Nat.zero_mod, hnone]
  rw [hhead, List.cons_append, State.selectionBase]
  exact State.byte_write_head _ _ _ _

/-- The witness selection of an admitted step is in memory, for a partition without weight sets. -/
theorem State.byte_admitStep (s : State) (p : Nat) (rows : List StepRow) (prefill : Bool) (a : Nat) (hsets : s.setsOf p = []) :
    (s.admitStep p rows prefill).byte a = (s.writeSelection p (s.part p).nextStep).byte a := by
  unfold State.admitStep
  rw [hsets]
  rfl

theorem State.heardBad_modPart (s : State) (p n : Nat) (f : Part → Part) (hf : (f (s.part p)).heard = (s.part p).heard) :
    (s.modPart p f).heardBad p n = s.heardBad p n := by
  rw [State.heardBad, State.modPart, State.part_setPart_same, hf]; rfl

theorem State.heardBad_congr {s t : State} (h : t.parts = s.parts) (p n : Nat) : t.heardBad p n = s.heardBad p n := by
  rw [State.heardBad, State.part, h]; rfl

/-- Admission hears no verdict. -/
theorem State.heardBad_admitStep (s : State) (p : Nat) (rows : List StepRow) (prefill : Bool) (n : Nat) (hsets : s.setsOf p = []) :
    (s.admitStep p rows prefill).heardBad p n = s.heardBad p n := by
  unfold State.admitStep
  rw [hsets]
  exact (State.heardBad_modPart _ _ _ _ rfl).trans (State.heardBad_congr (s.parts_writeSelection p _) p n)

/-- Without a bad verdict, the admission is the step's own. -/
theorem stepAdmitted_of_heardNone {s : State} {p : Nat} (h : (stepAdmission p s).heardBad p (s.part p).nextStep = none) :
    stepAdmitted p s = stepAdmission p s := by
  unfold stepAdmitted
  dsimp only
  rw [h]
  split
  · next h' => cases h'
  · rfl

theorem stepAdmission_rows {s : State} {p : Nat} (hmay : s.mayAdmit p = true) (hsets : s.setsOf p = [])
    (hrows : ((s.endWaiting p).compose p).1.rows ≠ []) : stepAdmission p s =
      ((s.endWaiting p).compose p).1.s.admitStep p ((s.endWaiting p).compose p).1.rows ((s.endWaiting p).compose p).2 := by
  unfold stepAdmission
  rw [if_neg (by simp [hmay]), hsets]
  exact if_neg (by simpa using hrows)

/-! ## The counterexample -/

/-- Registers of a module that serves: partition 0 RUNs with a resident job whose SLG region is in use, and witnesses are on. -/
def admissionRegs : List (Field × Nat) :=
  [(Reg.SEC_STATUS.BOOTED, 1), (Reg.PRT_P_STAT.STATE 0, 2), (Reg.PRT_P_STAT.RES_VALID 0, 1), (Reg.CXL_HOST_STAT.TRAINED, 1),
    (Reg.SRV_P_CAP.TOK_MAX 0, 1), (Reg.SRV_P_CAP.B_MAX 0, 1), (Reg.SRV_LOG_CTL.OUT_LOG2N 0, 4), (Reg.SLG_CTRL.WIT_EN, 1),
    (Reg.SLG_P_JOB_CTL.VALID 0 0, 1)]

/-- One READY request waits in partition 0, where a step with witness selection is due. -/
def admissionState : State :=
  admissionRegs.foldl (fun s e => s.setFld e.1 e.2) { State.reset with
    pins := { Pins.reset with powered := true, railsOn := true, clocksOn := true }
    requests := [(0, { Request.free with state := .ready })] }

/-- The composed step of `admissionState`. -/
def admissionStep : Compose × Bool := (admissionState.endWaiting 0).compose 0

theorem admissionStep_rows : admissionStep.1.rows = [⟨0, 1, 0, 1, false⟩] := by decide +kernel
theorem admissionStep_sets : admissionStep.1.s.setsOf 0 = [] := by decide +kernel
theorem admissionStep_witness : admissionStep.1.s.flag Reg.SLG_CTRL.WIT_EN = true ∧
    admissionStep.1.s.flag (Reg.SLG_P_JOB_CTL.VALID 0 (admissionStep.1.s.fld (Reg.PRT_P_STAT.RESIDENT 0))) = true ∧
    admissionStep.1.s.sampled (admissionStep.1.s.part 0).nextStep 0 0 0 = none := by decide +kernel
theorem admissionStep_heard : admissionStep.1.s.heardBad 0 (admissionState.part 0).nextStep = none := by decide +kernel

theorem stepAdmitted_admissionState : stepAdmitted 0 admissionState = admissionStep.1.s.admitStep 0 admissionStep.1.rows admissionStep.2 := by
  have hrows : admissionStep.1.rows ≠ [] := by rw [admissionStep_rows]; exact List.cons_ne_nil _ _
  have hstep : stepAdmission 0 admissionState = admissionStep.1.s.admitStep 0 admissionStep.1.rows admissionStep.2 :=
    stepAdmission_rows (by decide +kernel) (by decide +kernel) hrows
  rw [stepAdmitted_of_heardNone, hstep]
  rw [hstep, State.heardBad_admitStep _ _ _ _ _ admissionStep_sets]
  exact admissionStep_heard

/-- Admission has written the first byte of the witness selection. -/
theorem byte_stepAdmitted_admissionState :
    (stepAdmitted 0 admissionState).byte (admissionStep.1.s.selectionBase 0 (admissionStep.1.s.part 0).nextStep) = 0xFF := by
  obtain ⟨hwit, hvalid, hnone⟩ := admissionStep_witness
  rw [stepAdmitted_admissionState, State.byte_admitStep _ _ _ _ _ admissionStep_sets]
  exact State.byte_writeSelection _ _ _ hwit hvalid hnone

/-- Refutes O54: its clause on STEP_ADMISSION keeps memory, but a step admitted with witnesses on writes their selection table (R403). -/
theorem not_requestsAreTakenAndEnded : ¬ Obligations.RequestsAreTakenAndEnded := by
  unfold Obligations.RequestsAreTakenAndEnded
  rintro ⟨-, -, -, -, -, hadmit, -⟩
  obtain ⟨-, -, -, h⟩ := hadmit 0 admissionState
  have hrows : admissionStep.1.rows ≠ [] := by rw [admissionStep_rows]; exact List.cons_ne_nil _ _
  have hsets : admissionState.setsOf 0 = [] := by decide +kernel
  have hcaught : ∀ w ∈ admissionState.setsOf 0, admissionState.wsCapt w (admissionState.wsCur w) ≠ 2 ^ 32 - 1 := by
    rw [hsets]
    exact fun w hw => absurd hw List.not_mem_nil
  obtain ⟨-, -, hadmitted⟩ := h (by decide +kernel) hcaught
  obtain ⟨r, hr, -, -, -, hmem⟩ := hadmitted hrows (by decide +kernel)
  obtain rfl : stepAdmitted 0 admissionState = r := Host.Outcome.next.inj hr
  have hzero : admissionState.byte (admissionStep.1.s.selectionBase 0 (admissionStep.1.s.part 0).nextStep) = 0 := by decide +kernel
  have hone := byte_stepAdmitted_admissionState
  rw [State.byte_congr hmem, hzero] at hone
  exact absurd hone (by decide)

end Sys2Proof.Machine
end

section
/-! PROOFS. The statement on configuration swaps: which registers each part of a swap writes, and what the exchanges leave in them. -/
namespace Sys2Proof.Machine

/-! ## Registers of a region alone -/

/-- Offsets from `lo` up to `hi`. -/
def Span (lo hi o : Nat) : Prop := lo ≤ o ∧ o < hi

/-- No register outside the region `P` differs between `s` and `t`, and neither does memory nor the fault log. -/
structure State.Within (s t : State) (P : Nat → Prop) : Prop where
  reg : ∀ o, ¬ P o → t.reg o = s.reg o
  mem : t.mem = s.mem
  log : t.faultLog = s.faultLog

section
variable {s t u : State} {P Q : Nat → Prop}

theorem State.Within.refl (s : State) (P : Nat → Prop) : s.Within s P := ⟨fun _ _ => rfl, rfl, rfl⟩

/-- A step that writes no register, no memory and no record. -/
theorem State.Within.hidden (hr : t.regs = s.regs) (hm : t.mem = s.mem) (hl : t.faultLog = s.faultLog) : s.Within t P :=
  ⟨fun o _ => by rw [State.reg, hr]; rfl, hm, hl⟩

theorem State.Within.trans (h : s.Within t P) (h' : t.Within u P) : s.Within u P :=
  ⟨fun o ho => (h'.reg o ho).trans (h.reg o ho), h'.mem.trans h.mem, h'.log.trans h.log⟩

theorem State.Within.mono (h : s.Within t P) (hPQ : ∀ o, P o → Q o) : s.Within t Q :=
  ⟨fun o ho => h.reg o (fun hx => ho (hPQ o hx)), h.mem, h.log⟩

theorem State.Within.setReg (h : s.Within t P) {o : Nat} (v : Word) (ho : P o) : s.Within (t.setReg o v) P :=
  ⟨fun x hx => (State.reg_setReg_ne t v (by rintro rfl; exact hx ho)).trans (h.reg x hx), h.mem, h.log⟩

theorem State.Within.setFld (h : s.Within t P) {f : Field} (v : Nat) (hf : P f.off) : s.Within (t.setFld f v) P := h.setReg _ hf

theorem State.Within.setFlag (h : s.Within t P) {f : Field} (b : Bool) (hf : P f.off) : s.Within (t.setFlag f b) P := h.setFld _ hf

theorem State.Within.setReg64 (h : s.Within t P) {lo : Nat} (v : Nat) (hlo : P lo) (hhi : P (lo + 4)) : s.Within (t.setReg64 lo v) P :=
  (h.setReg _ hlo).setReg _ hhi

theorem State.Within.exchange (h : s.Within t P) {a b : Nat} (ha : P a) (hb : P b) : s.Within (t.exchange a b) P :=
  (h.setReg _ ha).setReg _ hb

theorem State.Within.foldl {α : Type} {f : State → α → State} {l : List α} (h : s.Within t P)
    (hf : ∀ x ∈ l, ∀ v : State, v.Within (f v x) P) : s.Within (l.foldl f t) P := by
  induction l generalizing t with
  | nil => exact h
  | cons x l ih => exact ih (h.trans (hf x List.mem_cons_self t)) (fun y hy => hf y (List.mem_cons_of_mem x hy))

theorem State.Within.fld (h : s.Within t P) {f : Field} (hf : ¬ P f.off) : t.fld f = s.fld f := State.fld_congr f (h.reg _ hf)

theorem State.Within.flag (h : s.Within t P) {f : Field} (hf : ¬ P f.off) : t.flag f = s.flag f := by
  rw [State.flag, h.fld hf]; rfl

theorem State.Within.reg64 (h : s.Within t P) {lo : Nat} (hlo : ¬ P lo) (hhi : ¬ P (lo + 4)) : t.reg64 lo = s.reg64 lo :=
  State.reg64_congr (h.reg _ hlo) (h.reg _ hhi)

end

/-- Steps that each write a region of their own: in the region of one, only that step counts. -/
theorem State.foldl_own {α : Type} {f : State → α → State} {P : α → Nat → Prop} {l : List α} (s : State)
    (hf : ∀ x ∈ l, ∀ u : State, u.Within (f u x) (P x)) (hapart : ∀ x ∈ l, ∀ y ∈ l, ∀ o, P x o → P y o → x = y)
    (hnodup : l.Nodup) {x : α} (hx : x ∈ l) :
    ∃ u : State, (∀ o, P x o → u.reg o = s.reg o) ∧ ∀ o, P x o → (l.foldl f s).reg o = (f u x).reg o := by
  obtain ⟨before, after, rfl⟩ := List.append_of_mem hx
  have hother {y : α} (hy : y ∈ before ∨ y ∈ after) : y ≠ x := by
    rintro rfl
    rw [List.nodup_append] at hnodup
    obtain ⟨-, hcons, hdisjoint⟩ := hnodup
    rcases hy with hy | hy
    · exact hdisjoint y hy y List.mem_cons_self rfl
    · exact (List.nodup_cons.1 hcons).1 hy
  have hkeep {y : α} (hy : y ∈ before ∨ y ∈ after) {o : Nat} (ho : P x o) (u : State) : (f u y).reg o = u.reg o := by
    have hyl : y ∈ before ++ x :: after := by
      rcases hy with hy | hy
      · exact List.mem_append_left _ hy
      · exact List.mem_append_right _ (List.mem_cons_of_mem _ hy)
    exact (hf y hyl u).reg o (fun hp => hother hy (hapart y hyl x hx o hp ho))
  refine ⟨before.foldl f s, fun o ho => State.reg_foldl before (fun y hy u => hkeep (.inl hy) ho u) s, fun o ho => ?_⟩
  rw [List.foldl_append, List.foldl_cons]
  exact State.reg_foldl after (fun y hy u => hkeep (.inr hy) ho u) _

/-! ## Exchanges -/

section
variable (s : State) {a b o : Nat}

theorem State.reg_exchange_left (h : a ≠ b) : (s.exchange a b).reg a = s.reg b := by
  rw [State.exchange, State.reg_setReg_ne _ _ h, State.reg_setReg_same]

theorem State.reg_exchange_right : (s.exchange a b).reg b = s.reg a := State.reg_setReg_same _ _ _

theorem State.reg_exchange_ne (ha : o ≠ a) (hb : o ≠ b) : (s.exchange a b).reg o = s.reg o := by
  rw [State.exchange, State.reg_setReg_ne _ _ hb, State.reg_setReg_ne _ _ ha]

end

/-! ## A tile's part -/

/-- The routes and descriptors of a tile exchange (R49). -/
def State.swapRoutes (s : State) (t : Nat) : State :=
  (List.range 32).foldl (fun s q =>
    (s.exchange (Reg.GRD_RT_A t q) (Reg.GRD_RT_S t q)).exchange (Reg.GRD_QD_A t q) (Reg.GRD_QD_S t q)) s

/-- The other half of instruction memory becomes Active, and the sequencer is in RUN (R83). -/
def State.restart (s : State) (t : Nat) : State :=
  (((s.setFld (Reg.SEQ_IMEM.ACTIVE t) (1 - s.fld (Reg.SEQ_IMEM.ACTIVE t))).clearSequencer t).clearSwitch t).setSeqState t 1

/-- The weight sets of an Anvil and the streams of a port tile (R121, R231). -/
def State.swapUnit (s : State) (t : Nat) : State :=
  let s := if tileType t = 0 then s.dropSets t else s
  if tileType t = 3 then
    ((List.range 128).foldl (fun s i => s.exchange (streamReg true t (i / 8) (i % 8)) (streamReg false t (i / 8) (i % 8))) s).beginStreams t
  else s

theorem State.swapTile_eq (s : State) (t : Nat) : s.swapTile t = ((s.swapRoutes t).restart t).swapUnit t := rfl

/-- The registers of a tile at distances from `lo` up to `hi` of its base. -/
abbrev tileSpan (t lo hi : Nat) : Nat → Prop := Span (tileBase t + lo) (tileBase t + hi)

/-- The routes and descriptors of a queue. -/
def queueRegs (t q o : Nat) : Prop := o = Reg.GRD_RT_A t q ∨ o = Reg.GRD_RT_S t q ∨ o = Reg.GRD_QD_A t q ∨ o = Reg.GRD_QD_S t q

theorem State.within_swapQueue (s : State) (t q : Nat) : s.Within
    ((s.exchange (Reg.GRD_RT_A t q) (Reg.GRD_RT_S t q)).exchange (Reg.GRD_QD_A t q) (Reg.GRD_QD_S t q)) (queueRegs t q) :=
  ((State.Within.refl s _).exchange (.inl rfl) (.inr (.inl rfl))).exchange (.inr (.inr (.inl rfl))) (.inr (.inr (.inr rfl)))

theorem queueRegs_span {t q o : Nat} (hq : q < 32) (h : queueRegs t q o) : tileSpan t 0x100 0x480 o := by
  simp only [queueRegs, Reg.GRD_RT_A, Reg.GRD_RT_S, Reg.GRD_QD_A, Reg.GRD_QD_S] at h
  simp only [tileSpan, Span]
  omega

theorem queueRegs_apart {t q k o : Nat} (hq : q < 32) (hk : k < 32) (h : queueRegs t q o) (h' : queueRegs t k o) : q = k := by
  simp only [queueRegs, Reg.GRD_RT_A, Reg.GRD_RT_S, Reg.GRD_QD_A, Reg.GRD_QD_S] at h h'
  omega

theorem State.within_swapRoutes (s : State) (t : Nat) : s.Within (s.swapRoutes t) (tileSpan t 0x100 0x480) :=
  (State.Within.refl s _).foldl fun q hq u => (u.within_swapQueue t q).mono fun _ ho => queueRegs_span (List.mem_range.1 hq) ho

theorem State.swapRoutes_queue (s : State) (t : Nat) {q : Nat} (hq : q < 32) :
    (s.swapRoutes t).reg (Reg.GRD_RT_A t q) = s.reg (Reg.GRD_RT_S t q) ∧ (s.swapRoutes t).reg (Reg.GRD_RT_S t q) = s.reg (Reg.GRD_RT_A t q) ∧
      (s.swapRoutes t).reg (Reg.GRD_QD_A t q) = s.reg (Reg.GRD_QD_S t q) ∧ (s.swapRoutes t).reg (Reg.GRD_QD_S t q) = s.reg (Reg.GRD_QD_A t q) := by
  obtain ⟨u, hu, hown⟩ := State.foldl_own (P := queueRegs t) s (fun q _ u => u.within_swapQueue t q)
    (fun _ hx _ hy _ ho ho' => queueRegs_apart (List.mem_range.1 hx) (List.mem_range.1 hy) ho ho') List.nodup_range (List.mem_range.2 hq)
  have hRT : Reg.GRD_RT_A t q ≠ Reg.GRD_RT_S t q := by simp only [Reg.GRD_RT_A, Reg.GRD_RT_S]; omega
  have hQD : Reg.GRD_QD_A t q ≠ Reg.GRD_QD_S t q := by simp only [Reg.GRD_QD_A, Reg.GRD_QD_S]; omega
  have hcross {a b : Nat} (ha : a = Reg.GRD_RT_A t q ∨ a = Reg.GRD_RT_S t q) (hb : b = Reg.GRD_QD_A t q ∨ b = Reg.GRD_QD_S t q) : a ≠ b := by
    simp only [Reg.GRD_RT_A, Reg.GRD_RT_S, Reg.GRD_QD_A, Reg.GRD_QD_S] at ha hb
    omega
  have hA : queueRegs t q (Reg.GRD_RT_A t q) := .inl rfl
  have hS : queueRegs t q (Reg.GRD_RT_S t q) := .inr (.inl rfl)
  have hDA : queueRegs t q (Reg.GRD_QD_A t q) := .inr (.inr (.inl rfl))
  have hDS : queueRegs t q (Reg.GRD_QD_S t q) := .inr (.inr (.inr rfl))
  refine ⟨(hown _ hA).trans ?_, (hown _ hS).trans ?_, (hown _ hDA).trans ?_, (hown _ hDS).trans ?_⟩
  · rw [State.reg_exchange_ne _ (hcross (.inl rfl) (.inl rfl)) (hcross (.inl rfl) (.inr rfl)), State.reg_exchange_left _ hRT, hu _ hS]
  · rw [State.reg_exchange_ne _ (hcross (.inr rfl) (.inl rfl)) (hcross (.inr rfl) (.inr rfl)), State.reg_exchange_right, hu _ hA]
  · rw [State.reg_exchange_left _ hQD, State.reg_exchange_ne _ (hcross (.inl rfl) (.inr rfl)).symm (hcross (.inr rfl) (.inr rfl)).symm, hu _ hDS]
  · rw [State.reg_exchange_right, State.reg_exchange_ne _ (hcross (.inl rfl) (.inl rfl)).symm (hcross (.inr rfl) (.inl rfl)).symm, hu _ hDA]

/-- The registers of a sequencer that a restart clears. -/
def clearedRegs (t o : Nat) : Prop := o = Reg.SEQ_STATUS t ∨ tileSpan t 0x100C 0x1300 o

theorem State.within_clearSequencer (s : State) (t : Nat) : s.Within (s.clearSequencer t) (clearedRegs t) := by
  have hg : ∀ k < 32, ∀ j < 2, clearedRegs t (Reg.SEQ_G t k j) := fun k hk j hj => .inr (by
    simp only [tileSpan, Span, Reg.SEQ_G]; omega)
  have hs : ∀ k < 16, ∀ j < 4, clearedRegs t (Reg.SEQ_S t k j) := fun k hk j hj => .inr (by
    simp only [tileSpan, Span, Reg.SEQ_S]; omega)
  have hp : clearedRegs t (Reg.SEQ_PRED t) := .inr (by simp only [tileSpan, Span, Reg.SEQ_PRED]; omega)
  have hl : ∀ k < 4, clearedRegs t (Reg.SEQ_LOOP_REMAIN t k) ∧ clearedRegs t (Reg.SEQ_LOOP_TOTAL t k) ∧
      clearedRegs t (Reg.SEQ_LOOP_CTL t k) ∧ clearedRegs t (Reg.SEQ_LOOP_IDX t k) ∧ clearedRegs t (Reg.SEQ_PROG t k) := by
    intro k hk
    simp only [clearedRegs, tileSpan, Span, Reg.SEQ_LOOP_REMAIN, Reg.SEQ_LOOP_TOTAL, Reg.SEQ_LOOP_CTL, Reg.SEQ_LOOP_IDX, Reg.SEQ_PROG]
    omega
  have hgeneral := (State.Within.refl s (clearedRegs t)).foldl (l := List.range 32)
    (f := fun s k => (s.setReg (Reg.SEQ_G t k 0) 0).setReg (Reg.SEQ_G t k 1) 0) fun k hk u =>
      ((State.Within.refl u _).setReg _ (hg k (List.mem_range.1 hk) 0 (by decide))).setReg _ (hg k (List.mem_range.1 hk) 1 (by decide))
  have hshape := hgeneral.foldl (l := List.range 16) (f := fun s k => (List.range 4).foldl (fun s f => s.setReg (Reg.SEQ_S t k f) 0) s)
    fun k hk u => (State.Within.refl u _).foldl fun j hj v =>
      (State.Within.refl v _).setReg _ (hs k (List.mem_range.1 hk) j (List.mem_range.1 hj))
  refine State.Within.setFld (State.Within.setFld ((hshape.setFld 0 (f := Reg.SEQ_PRED.P t) hp).foldl fun k hk u => ?_) _ (.inl rfl)) _ (.inl rfl)
  obtain ⟨hremain, htotal, hctl, hidx, hprog⟩ := hl k (List.mem_range.1 hk)
  exact (((((State.Within.refl u _).setReg _ hremain).setReg _ htotal).setReg _ hctl).setReg _ hidx).setReg _ hprog

theorem State.pc_clearSequencer (s : State) (t : Nat) : (s.clearSequencer t).pc t = 0 := 
  State.fld_setFld_same _ (Reg.SEQ_STATUS.PC t) _ (by dsimp only; decide)

theorem State.within_clearSwitch (s : State) (t : Nat) (P : Nat → Prop) : s.Within (s.clearSwitch t) P := .hidden rfl rfl rfl

/-- The registers of a sequencer that a restart writes. -/
theorem State.within_restart (s : State) (t : Nat) : s.Within (s.restart t) (tileSpan t 0x1000 0x1300) := by
  have hstatus : tileSpan t 0x1000 0x1300 (Reg.SEQ_STATUS t) := by simp only [tileSpan, Span, Reg.SEQ_STATUS]; omega
  have himem : tileSpan t 0x1000 0x1300 (Reg.SEQ_IMEM t) := by simp only [tileSpan, Span, Reg.SEQ_IMEM]; omega
  have hcleared : ∀ o, clearedRegs t o → tileSpan t 0x1000 0x1300 o := by
    rintro o (rfl | ho)
    · exact hstatus
    · simp only [tileSpan, Span] at ho ⊢; omega
  exact ((((State.Within.refl s _).setFld (f := Reg.SEQ_IMEM.ACTIVE t) _ himem).trans ((State.within_clearSequencer _ t).mono hcleared)).trans
    (State.within_clearSwitch _ t _)).setFld _ hstatus

theorem State.restart_spec (s : State) (t : Nat) : (s.restart t).fld (Reg.SEQ_IMEM.ACTIVE t) = 1 - s.fld (Reg.SEQ_IMEM.ACTIVE t) ∧
    (s.restart t).pc t = 0 ∧ (s.restart t).seqState t = 1 := by
  unfold State.restart
  generalize hu : s.setFld (Reg.SEQ_IMEM.ACTIVE t) (1 - s.fld (Reg.SEQ_IMEM.ACTIVE t)) = u
  have hclear := u.within_clearSequencer t
  have hpc := u.pc_clearSequencer t
  generalize u.clearSequencer t = v at *
  have hne : Reg.SEQ_IMEM t ≠ Reg.SEQ_STATUS t := by simp only [Reg.SEQ_IMEM, Reg.SEQ_STATUS]; omega
  have himem : ¬ clearedRegs t (Reg.SEQ_IMEM t) := by
    simp only [clearedRegs, tileSpan, Span, Reg.SEQ_IMEM, Reg.SEQ_STATUS]; omega
  have hswitch := v.within_clearSwitch t (fun _ => False)
  generalize v.clearSwitch t = w at *
  refine ⟨?_, ?_, ?_⟩
  · calc (w.setSeqState t 1).fld (Reg.SEQ_IMEM.ACTIVE t) = w.fld (Reg.SEQ_IMEM.ACTIVE t) := State.fld_setFld_ne _ _ _ _ hne
      _ = v.fld (Reg.SEQ_IMEM.ACTIVE t) := hswitch.fld id
      _ = u.fld (Reg.SEQ_IMEM.ACTIVE t) := hclear.fld himem
      _ = (1 - s.fld (Reg.SEQ_IMEM.ACTIVE t)) % 2 ^ 1 := by rw [← hu]; exact State.fld_setFld_same _ _ _ (by dsimp only; decide)
      _ = 1 - s.fld (Reg.SEQ_IMEM.ACTIVE t) := Nat.mod_eq_of_lt (by omega)
  · calc (w.setSeqState t 1).pc t = w.pc t :=
          State.fld_setFld_disjoint _ (Reg.SEQ_STATUS.STATE t) (Reg.SEQ_STATUS.PC t) _ rfl (by dsimp only; decide) (by dsimp only; decide)
      _ = v.pc t := hswitch.fld id
      _ = 0 := hpc
  · exact State.fld_setFld_same _ (Reg.SEQ_STATUS.STATE t) _ (by dsimp only; decide)

theorem State.within_dropSets (s : State) (t : Nat) : s.Within (s.dropSets t) (tileSpan t 0x1400 0x2000) := by
  have hact : tileSpan t 0x1400 0x2000 (Reg.ANV_WACT t) := by simp only [tileSpan, Span, Reg.ANV_WACT]; omega
  have hshd : tileSpan t 0x1400 0x2000 (Reg.ANV_WSHD t) := by simp only [tileSpan, Span, Reg.ANV_WSHD]; omega
  have hst : tileSpan t 0x1400 0x2000 (Reg.ANV_STATUS t) := by simp only [tileSpan, Span, Reg.ANV_STATUS]; omega
  have hlists : s.Within (s.modTile t (fun x => { x with wact := [], wshd := [] })) (tileSpan t 0x1400 0x2000) := .hidden rfl rfl rfl
  exact (((hlists.setFlag (f := Reg.ANV_WACT.VALID t) false hact).setFlag (f := Reg.ANV_WSHD.VALID t) false hshd).setFlag
    (f := Reg.ANV_STATUS.ACTIVE_VALID t) false hst).setFld (f := Reg.ANV_STATUS.SHADOW t) 0 hst

theorem State.within_beginStreams (s : State) (t : Nat) : s.Within (s.beginStreams t) (tileSpan t 0x1400 0x2000) := by
  refine (State.Within.refl s _).foldl fun n hn u => ?_
  have hn := List.mem_range.1 hn
  have hpos : tileSpan t 0x1400 0x2000 (Reg.MOV_STR_POS t n) := by simp only [tileSpan, Span, Reg.MOV_STR_POS]; omega
  have hstat : tileSpan t 0x1400 0x2000 (Reg.MOV_STR_STAT t n) := by simp only [tileSpan, Span, Reg.MOV_STR_STAT]; omega
  have hstream : u.Within (u.setStream (tileBay t) n { Stream.reset with lastRelease := u.fcycles }) (tileSpan t 0x1400 0x2000) := .hidden rfl rfl rfl
  exact ((hstream.setReg _ hpos).setReg _ hstat).setFld _ hstat

theorem streamReg_span (act : Bool) (t : Nat) {i : Nat} (hi : i < 128) : tileSpan t 0x1400 0x2000 (streamReg act t (i / 8) (i % 8)) := by
  unfold streamReg
  split <;> simp only [tileSpan, Span, Reg.MOV_STR_A_CFG, Reg.MOV_STR_S_CFG] <;> omega

theorem State.within_swapUnit (s : State) (t : Nat) : s.Within (s.swapUnit t) (tileSpan t 0x1400 0x2000) := by
  have hsets : s.Within (if tileType t = 0 then s.dropSets t else s) (tileSpan t 0x1400 0x2000) := by
    split
    · exact s.within_dropSets t
    · exact .refl s _
  unfold State.swapUnit
  dsimp only
  generalize (if tileType t = 0 then s.dropSets t else s) = u at *
  split
  · refine (hsets.foldl fun i hi v => ?_).trans (State.within_beginStreams _ t)
    exact (State.Within.refl v _).exchange (streamReg_span true t (List.mem_range.1 hi)) (streamReg_span false t (List.mem_range.1 hi))
  · exact hsets

/-- A tile's part of a swap writes registers of that tile. -/
theorem State.within_swapTile (s : State) (t : Nat) : s.Within (s.swapTile t) (tileSpan t 0 0x10000) := by
  have hwider {lo hi : Nat} (hhi : hi ≤ 0x10000) (o : Nat) (h : tileSpan t lo hi o) : tileSpan t 0 0x10000 o := by
    simp only [tileSpan, Span] at h ⊢; omega
  rw [State.swapTile_eq]
  exact (((s.within_swapRoutes t).mono (hwider (by decide))).trans ((State.within_restart _ t).mono (hwider (by decide)))).trans
    ((State.within_swapUnit _ t).mono (hwider (by decide)))

/-- What a swap leaves in the registers of a tile. -/
structure State.Swapped (s r : State) (t : Nat) : Prop where
  queues : ∀ q < 32, r.reg (Reg.GRD_RT_A t q) = s.reg (Reg.GRD_RT_S t q) ∧ r.reg (Reg.GRD_RT_S t q) = s.reg (Reg.GRD_RT_A t q) ∧
    r.reg (Reg.GRD_QD_A t q) = s.reg (Reg.GRD_QD_S t q) ∧ r.reg (Reg.GRD_QD_S t q) = s.reg (Reg.GRD_QD_A t q)
  active : r.fld (Reg.SEQ_IMEM.ACTIVE t) = 1 - s.fld (Reg.SEQ_IMEM.ACTIVE t)
  pc : r.pc t = 0
  run : r.seqState t = 1

theorem State.swapped_swapTile (s : State) (t : Nat) : s.Swapped (s.swapTile t) t := by
  obtain ⟨hactive, hpc, hrun⟩ := (s.swapRoutes t).restart_spec t
  have hroutes := s.within_swapRoutes t
  have hqueues := fun q => s.swapRoutes_queue t (q := q)
  rw [State.swapTile_eq]
  generalize s.swapRoutes t = u at *
  have hrestart := u.within_restart t
  generalize u.restart t = v at *
  have hunit := v.within_swapUnit t
  generalize v.swapUnit t = w at *
  have hkeep {o : Nat} (h : tileSpan t 0x100 0x480 o) : w.reg o = u.reg o := by
    simp only [tileSpan, Span] at h
    exact (hunit.reg o (by simp only [tileSpan, Span]; omega)).trans (hrestart.reg o (by simp only [tileSpan, Span]; omega))
  have hstatus : ¬ tileSpan t 0x1400 0x2000 (Reg.SEQ_STATUS t) := by simp only [tileSpan, Span, Reg.SEQ_STATUS]; omega
  refine ⟨fun q hq => ?_, ?_, (hunit.fld hstatus).trans hpc, (hunit.fld hstatus).trans hrun⟩
  · obtain ⟨h1, h2, h3, h4⟩ := hqueues q hq
    exact ⟨(hkeep (queueRegs_span hq (.inl rfl))).trans h1, (hkeep (queueRegs_span hq (.inr (.inl rfl)))).trans h2,
      (hkeep (queueRegs_span hq (.inr (.inr (.inl rfl))))).trans h3, (hkeep (queueRegs_span hq (.inr (.inr (.inr rfl))))).trans h4⟩
  · calc w.fld (Reg.SEQ_IMEM.ACTIVE t) = v.fld (Reg.SEQ_IMEM.ACTIVE t) := hunit.fld (by simp only [tileSpan, Span, Reg.SEQ_IMEM]; omega)
      _ = 1 - u.fld (Reg.SEQ_IMEM.ACTIVE t) := hactive
      _ = _ := by rw [hroutes.fld (by simp only [tileSpan, Span, Reg.SEQ_IMEM]; omega)]

/-- Only the registers of the tile tell whether it has swapped. -/
theorem State.Swapped.congr {s r s' r' : State} {t : Nat} (h : s.Swapped r t) (hs : ∀ o, tileSpan t 0 0x10000 o → s.reg o = s'.reg o)
    (hr : ∀ o, tileSpan t 0 0x10000 o → r'.reg o = r.reg o) : s'.Swapped r' t := by
  have hqueue {q o : Nat} (hq : q < 32) (ho : queueRegs t q o) : tileSpan t 0 0x10000 o := by
    have hspan := queueRegs_span hq ho
    simp only [tileSpan, Span] at hspan ⊢
    omega
  have himem : tileSpan t 0 0x10000 (Reg.SEQ_IMEM t) := by simp only [tileSpan, Span, Reg.SEQ_IMEM]; omega
  have hstatus : tileSpan t 0 0x10000 (Reg.SEQ_STATUS t) := by simp only [tileSpan, Span, Reg.SEQ_STATUS]; omega
  refine ⟨fun q hq => ?_, ?_, (State.fld_congr (Reg.SEQ_STATUS.PC t) (hr _ hstatus)).trans h.pc,
    (State.fld_congr (Reg.SEQ_STATUS.STATE t) (hr _ hstatus)).trans h.run⟩
  · obtain ⟨hRA, hRS, hQA, hQS⟩ := h.queues q hq
    have hA := hqueue hq (.inl rfl)
    have hS := hqueue hq (.inr (.inl rfl))
    have hDA := hqueue hq (.inr (.inr (.inl rfl)))
    have hDS := hqueue hq (.inr (.inr (.inr rfl)))
    exact ⟨(hr _ hA).trans (hRA.trans (hs _ hS)), (hr _ hS).trans (hRS.trans (hs _ hA)), (hr _ hDA).trans (hQA.trans (hs _ hDS)),
      (hr _ hDS).trans (hQS.trans (hs _ hDA))⟩
  · rw [State.fld_congr (Reg.SEQ_IMEM.ACTIVE t) (hr _ himem), h.active, ← State.fld_congr (Reg.SEQ_IMEM.ACTIVE t) (hs _ himem)]

/-! ## The registers of a partition's configuration -/

/-- The measurements of the two images exchange. -/
def State.swapMeasures (s : State) (p : Nat) : State :=
  (List.range 8).foldl (fun s j => s.exchange (Reg.CFG_P_SMEAS p j) (Reg.CFG_P_AMEAS p j)) s

/-- The addresses of the two images exchange. -/
def State.swapImages (s : State) (p : Nat) : State :=
  (s.exchange (Reg.CFG_P_SIMG_LO p) (Reg.CFG_P_AIMG_LO p)).exchange (Reg.CFG_P_SIMG_HI p) (Reg.CFG_P_AIMG_HI p)

/-- The status after a swap. -/
def State.swapStatus (s : State) (p : Nat) : State :=
  (s.setFld (Reg.CFG_P_STATUS.SHADOW p) (if s.activeValid p then 2 else 0)).setFlag (Reg.CFG_P_STATUS.ACTIVE_VALID p) true

/-- The swap is stamped and counted. -/
def State.stampSwap (s : State) (p : Nat) : State :=
  (s.setReg64 (Reg.CFG_P_SWAP_TICK_LO p) s.tick).setReg (Reg.CFG_P_SWAPS p) (s.reg (Reg.CFG_P_SWAPS p) + 1)

/-- The partition's ingress map and counts after a swap (R293). -/
def Part.swapped (x : Part) : Part := { x with
  ingActive := x.ingShadow
  ingShadow := x.ingActive
  ingress := x.ingress.map (fun f => { f with late := false, held := f.held || f.late })
  marks := []
  drain := 0
  armedRan := false
  reportTick := none }

/-- The registers of a partition in the CFG_ block. -/
abbrev configSpan (p : Nat) : Nat → Prop := Span (0x70100 + 0x80 * p) (0x70180 + 0x80 * p)

/-- The measurements' registers number `j`. -/
def measureRegs (p j o : Nat) : Prop := o = Reg.CFG_P_SMEAS p j ∨ o = Reg.CFG_P_AMEAS p j

theorem State.within_measure (s : State) (p j : Nat) : s.Within (s.exchange (Reg.CFG_P_SMEAS p j) (Reg.CFG_P_AMEAS p j)) (measureRegs p j) :=
  (State.Within.refl s _).exchange (.inl rfl) (.inr rfl)

theorem State.within_swapMeasures (s : State) (p : Nat) :
    s.Within (s.swapMeasures p) (Span (0x70140 + 0x80 * p) (0x70180 + 0x80 * p)) := by
  refine (State.Within.refl s _).foldl fun j hj u => (u.within_measure p j).mono fun o ho => ?_
  have hj := List.mem_range.1 hj
  simp only [measureRegs, Reg.CFG_P_SMEAS, Reg.CFG_P_AMEAS] at ho
  simp only [Span]
  omega

theorem State.swapMeasures_spec (s : State) (p : Nat) {j : Nat} (hj : j < 8) :
    (s.swapMeasures p).reg (Reg.CFG_P_AMEAS p j) = s.reg (Reg.CFG_P_SMEAS p j) ∧
      (s.swapMeasures p).reg (Reg.CFG_P_SMEAS p j) = s.reg (Reg.CFG_P_AMEAS p j) := by
  have hapart : ∀ x ∈ List.range 8, ∀ y ∈ List.range 8, ∀ o, measureRegs p x o → measureRegs p y o → x = y := by
    intro x hx y hy o ho ho'
    have hx := List.mem_range.1 hx
    have hy := List.mem_range.1 hy
    simp only [measureRegs, Reg.CFG_P_SMEAS, Reg.CFG_P_AMEAS] at ho ho'
    omega
  obtain ⟨u, hu, hown⟩ := State.foldl_own (P := measureRegs p) s (fun j _ u => u.within_measure p j) hapart List.nodup_range (List.mem_range.2 hj)
  have hne : Reg.CFG_P_SMEAS p j ≠ Reg.CFG_P_AMEAS p j := by simp only [Reg.CFG_P_SMEAS, Reg.CFG_P_AMEAS]; omega
  exact ⟨(hown _ (.inr rfl)).trans (u.reg_exchange_right.trans (hu _ (.inl rfl))),
    (hown _ (.inl rfl)).trans ((u.reg_exchange_left hne).trans (hu _ (.inr rfl)))⟩

theorem State.within_swapImages (s : State) (p : Nat) : s.Within (s.swapImages p) (Span (0x70108 + 0x80 * p) (0x70118 + 0x80 * p)) := by
  have himg : ∀ o, o = Reg.CFG_P_SIMG_LO p ∨ o = Reg.CFG_P_AIMG_LO p ∨ o = Reg.CFG_P_SIMG_HI p ∨ o = Reg.CFG_P_AIMG_HI p →
      Span (0x70108 + 0x80 * p) (0x70118 + 0x80 * p) o := by
    intro o ho
    simp only [Reg.CFG_P_SIMG_LO, Reg.CFG_P_AIMG_LO, Reg.CFG_P_SIMG_HI, Reg.CFG_P_AIMG_HI] at ho
    simp only [Span]
    omega
  exact ((State.Within.refl s _).exchange (himg _ (.inl rfl)) (himg _ (.inr (.inl rfl)))).exchange (himg _ (.inr (.inr (.inl rfl))))
    (himg _ (.inr (.inr (.inr rfl))))

/-- Two pairs of registers exchange, half by half. -/
theorem State.reg64_exchange (s : State) {a b : Nat} (h : a + 8 ≤ b) :
    ((s.exchange a b).exchange (a + 4) (b + 4)).reg64 a = s.reg64 b ∧ ((s.exchange a b).exchange (a + 4) (b + 4)).reg64 b = s.reg64 a := by
  have halow : ((s.exchange a b).exchange (a + 4) (b + 4)).reg a = s.reg b := by
    rw [State.reg_exchange_ne _ (by omega) (by omega), State.reg_exchange_left _ (by omega)]
  have hblow : ((s.exchange a b).exchange (a + 4) (b + 4)).reg b = s.reg a := by
    rw [State.reg_exchange_ne _ (by omega) (by omega), State.reg_exchange_right]
  have hahigh : ((s.exchange a b).exchange (a + 4) (b + 4)).reg (a + 4) = s.reg (b + 4) := by
    rw [State.reg_exchange_left _ (by omega), State.reg_exchange_ne _ (by omega) (by omega)]
  have hbhigh : ((s.exchange a b).exchange (a + 4) (b + 4)).reg (b + 4) = s.reg (a + 4) := by
    rw [State.reg_exchange_right, State.reg_exchange_ne _ (by omega) (by omega)]
  unfold State.reg64
  rw [halow, hblow, hahigh, hbhigh]
  exact ⟨rfl, rfl⟩

theorem State.swapImages_spec (s : State) (p : Nat) : (s.swapImages p).reg64 (Reg.CFG_P_AIMG_LO p) = s.reg64 (Reg.CFG_P_SIMG_LO p) ∧
    (s.swapImages p).reg64 (Reg.CFG_P_SIMG_LO p) = s.reg64 (Reg.CFG_P_AIMG_LO p) := by
  have hs : Reg.CFG_P_SIMG_HI p = Reg.CFG_P_SIMG_LO p + 4 := by simp only [Reg.CFG_P_SIMG_HI, Reg.CFG_P_SIMG_LO]; omega
  have ha : Reg.CFG_P_AIMG_HI p = Reg.CFG_P_AIMG_LO p + 4 := by simp only [Reg.CFG_P_AIMG_HI, Reg.CFG_P_AIMG_LO]; omega
  have hle : Reg.CFG_P_SIMG_LO p + 8 ≤ Reg.CFG_P_AIMG_LO p := by simp only [Reg.CFG_P_SIMG_LO, Reg.CFG_P_AIMG_LO]; omega
  rw [State.swapImages, hs, ha]
  exact (s.reg64_exchange hle).symm

theorem State.within_swapStatus (s : State) (p : Nat) : s.Within (s.swapStatus p) (fun o => o = Reg.CFG_P_STATUS p) :=
  State.Within.setFlag (P := fun o => o = Reg.CFG_P_STATUS p)
    (State.Within.setFld (State.Within.refl s _) (f := Reg.CFG_P_STATUS.SHADOW p) _ rfl) (f := Reg.CFG_P_STATUS.ACTIVE_VALID p) true rfl

theorem State.swapStatus_spec (s : State) (p : Nat) : (s.swapStatus p).shadowSet p = (if s.activeValid p then 2 else 0) ∧
    (s.swapStatus p).activeValid p = true := by
  refine ⟨?_, State.flag_setFlag_same _ (Reg.CFG_P_STATUS.ACTIVE_VALID p) true (by dsimp only; decide) rfl⟩
  have hlt : (if s.activeValid p then 2 else 0) < 2 ^ 4 := by split <;> decide
  calc (s.swapStatus p).shadowSet p = (s.setFld (Reg.CFG_P_STATUS.SHADOW p) (if s.activeValid p then 2 else 0)).shadowSet p :=
        State.fld_setFld_disjoint _ (Reg.CFG_P_STATUS.ACTIVE_VALID p) (Reg.CFG_P_STATUS.SHADOW p) _ rfl (by dsimp only; decide)
          (by dsimp only; decide)
    _ = (if s.activeValid p then 2 else 0) % 2 ^ 4 := State.fld_setFld_same _ (Reg.CFG_P_STATUS.SHADOW p) _ (by dsimp only; decide)
    _ = _ := Nat.mod_eq_of_lt hlt

theorem State.within_stampSwap (s : State) (p : Nat) : s.Within (s.stampSwap p) (Span (0x70118 + 0x80 * p) (0x70124 + 0x80 * p)) := by
  have hspan : ∀ o, o = Reg.CFG_P_SWAP_TICK_LO p ∨ o = Reg.CFG_P_SWAP_TICK_LO p + 4 ∨ o = Reg.CFG_P_SWAPS p →
      Span (0x70118 + 0x80 * p) (0x70124 + 0x80 * p) o := by
    intro o ho
    simp only [Reg.CFG_P_SWAP_TICK_LO, Reg.CFG_P_SWAPS] at ho
    simp only [Span]
    omega
  exact ((State.Within.refl s _).setReg64 _ (hspan _ (.inl rfl)) (hspan _ (.inr (.inl rfl)))).setReg _ (hspan _ (.inr (.inr rfl)))

theorem State.stampSwap_spec (s : State) (p : Nat) : (s.stampSwap p).reg64 (Reg.CFG_P_SWAP_TICK_LO p) = s.tick ∧
    (s.stampSwap p).reg (Reg.CFG_P_SWAPS p) = s.reg (Reg.CFG_P_SWAPS p) + 1 := by
  have hlo : Reg.CFG_P_SWAP_TICK_LO p ≠ Reg.CFG_P_SWAPS p := by simp only [Reg.CFG_P_SWAP_TICK_LO, Reg.CFG_P_SWAPS]; omega
  have hhi : Reg.CFG_P_SWAP_TICK_LO p + 4 ≠ Reg.CFG_P_SWAPS p := by simp only [Reg.CFG_P_SWAP_TICK_LO, Reg.CFG_P_SWAPS]; omega
  exact ⟨(State.reg64_congr (State.reg_setReg_ne _ _ hlo) (State.reg_setReg_ne _ _ hhi)).trans (s.reg64_setReg64_of_lt _ (s.reg64_lt _)),
    State.reg_setReg_same _ _ _⟩

/-- What a swap leaves in the registers of its partition. -/
structure State.ConfigSwapped (s r : State) (p : Nat) : Prop where
  measures : ∀ j < 8, r.reg (Reg.CFG_P_AMEAS p j) = s.reg (Reg.CFG_P_SMEAS p j) ∧ r.reg (Reg.CFG_P_SMEAS p j) = s.reg (Reg.CFG_P_AMEAS p j)
  active : r.reg64 (Reg.CFG_P_AIMG_LO p) = s.reg64 (Reg.CFG_P_SIMG_LO p)
  shadow : r.reg64 (Reg.CFG_P_SIMG_LO p) = s.reg64 (Reg.CFG_P_AIMG_LO p)
  set : r.shadowSet p = if s.activeValid p then 2 else 0
  valid : r.activeValid p = true
  stamp : r.reg64 (Reg.CFG_P_SWAP_TICK_LO p) = s.tick
  count : r.reg (Reg.CFG_P_SWAPS p) = s.reg (Reg.CFG_P_SWAPS p) + 1

/-- The registers below the tiles' tell what a partition's configuration has swapped. -/
theorem State.ConfigSwapped.congr {s r s' r' : State} {p : Nat} (hp : p < 12) (h : s.ConfigSwapped r p)
    (hs : ∀ o < 0x10000000, s.reg o = s'.reg o) (hr : ∀ o, configSpan p o → r'.reg o = r.reg o) : s'.ConfigSwapped r' p := by
  have hpair {lo : Nat} (hlo : configSpan p lo) (hhi : configSpan p (lo + 4)) : r'.reg64 lo = r.reg64 lo := State.reg64_congr (hr _ hlo) (hr _ hhi)
  have hpair' {lo : Nat} (hlo : lo + 4 < 0x10000000) : s.reg64 lo = s'.reg64 lo := State.reg64_congr (hs _ (by omega)) (hs _ hlo)
  have hstatus : configSpan p (Reg.CFG_P_STATUS p) := by simp only [configSpan, Span, Reg.CFG_P_STATUS]; omega
  have hflag : s.activeValid p = s'.activeValid p := by
    rw [State.activeValid, State.flag, State.fld_congr (Reg.CFG_P_STATUS.ACTIVE_VALID p) (hs _ (by simp only [Reg.CFG_P_STATUS]; omega))]; rfl
  refine ⟨fun j hj => ?_, ?_, ?_, ?_, ?_, ?_, ?_⟩
  · obtain ⟨hA, hS⟩ := h.measures j hj
    exact ⟨(hr _ (by simp only [configSpan, Span, Reg.CFG_P_AMEAS]; omega)).trans (hA.trans (hs _ (by simp only [Reg.CFG_P_SMEAS]; omega))),
      (hr _ (by simp only [configSpan, Span, Reg.CFG_P_SMEAS]; omega)).trans (hS.trans (hs _ (by simp only [Reg.CFG_P_AMEAS]; omega)))⟩
  · exact (hpair (by simp only [configSpan, Span, Reg.CFG_P_AIMG_LO]; omega) (by simp only [configSpan, Span, Reg.CFG_P_AIMG_LO]; omega)).trans
      (h.active.trans (hpair' (by simp only [Reg.CFG_P_SIMG_LO]; omega)))
  · exact (hpair (by simp only [configSpan, Span, Reg.CFG_P_SIMG_LO]; omega) (by simp only [configSpan, Span, Reg.CFG_P_SIMG_LO]; omega)).trans
      (h.shadow.trans (hpair' (by simp only [Reg.CFG_P_AIMG_LO]; omega)))
  · rw [← hflag]; exact (State.fld_congr (Reg.CFG_P_STATUS.SHADOW p) (hr _ hstatus)).trans h.set
  · have hvalid := h.valid
    rw [State.activeValid, State.flag] at hvalid ⊢
    rw [State.fld_congr (Reg.CFG_P_STATUS.ACTIVE_VALID p) (hr _ hstatus)]
    exact hvalid
  · exact (hpair (by simp only [configSpan, Span, Reg.CFG_P_SWAP_TICK_LO]; omega)
      (by simp only [configSpan, Span, Reg.CFG_P_SWAP_TICK_LO]; omega)).trans (h.stamp.trans (hpair' (by decide)))
  · rw [hr _ (by simp only [configSpan, Span, Reg.CFG_P_SWAPS]; omega), h.count, hs _ (by simp only [Reg.CFG_P_SWAPS]; omega)]

/-- The exchange of a partition's configuration registers. -/
def State.swapConfig (s : State) (p : Nat) : State := (((s.swapMeasures p).swapImages p).swapStatus p).stampSwap p

theorem State.within_swapConfig (s : State) (p : Nat) : s.Within (s.swapConfig p) (configSpan p) := by
  have hwider {lo hi : Nat} (hlo : 0x70100 ≤ lo) (hhi : hi ≤ 0x70180) (o : Nat) (h : Span (lo + 0x80 * p) (hi + 0x80 * p) o) :
      configSpan p o := by
    simp only [configSpan, Span] at h ⊢; omega
  have hstatus : ∀ o, o = Reg.CFG_P_STATUS p → configSpan p o := by
    intro o ho
    simp only [Reg.CFG_P_STATUS] at ho
    simp only [configSpan, Span]; omega
  exact ((((s.within_swapMeasures p).mono (hwider (by decide) (by decide))).trans
    ((State.within_swapImages _ p).mono (hwider (by decide) (by decide)))).trans ((State.within_swapStatus _ p).mono hstatus)).trans
      ((State.within_stampSwap _ p).mono (hwider (by decide) (by decide)))

theorem State.configSwapped_swapConfig (s : State) (p : Nat) : s.ConfigSwapped (s.swapConfig p) p := by
  unfold State.swapConfig
  have hmeasures := fun j => s.swapMeasures_spec p (j := j)
  have hm := s.within_swapMeasures p
  generalize s.swapMeasures p = a at *
  obtain ⟨hactive, hshadow⟩ := a.swapImages_spec p
  have hi := a.within_swapImages p
  generalize a.swapImages p = b at *
  obtain ⟨hset, hvalid⟩ := b.swapStatus_spec p
  have hst := b.within_swapStatus p
  generalize b.swapStatus p = c at *
  obtain ⟨hstamp, hcount⟩ := c.stampSwap_spec p
  have hsw := c.within_stampSwap p
  generalize c.stampSwap p = d at *
  -- each register after the step that sets it, and before it
  have hmeas {o : Nat} (h : Span (0x70140 + 0x80 * p) (0x70180 + 0x80 * p) o) : d.reg o = a.reg o := by
    simp only [Span] at h
    exact (hsw.reg o (by simp only [Span]; omega)).trans
      ((hst.reg o (by simp only [Reg.CFG_P_STATUS]; omega)).trans (hi.reg o (by simp only [Span]; omega)))
  have himg {o : Nat} (h : Span (0x70108 + 0x80 * p) (0x70118 + 0x80 * p) o) : d.reg o = b.reg o ∧ a.reg o = s.reg o := by
    simp only [Span] at h
    exact ⟨(hsw.reg o (by simp only [Span]; omega)).trans (hst.reg o (by simp only [Reg.CFG_P_STATUS]; omega)),
      hm.reg o (by simp only [Span]; omega)⟩
  have himg64 {lo : Nat} (hlo : lo = Reg.CFG_P_AIMG_LO p ∨ lo = Reg.CFG_P_SIMG_LO p) : d.reg64 lo = b.reg64 lo ∧ a.reg64 lo = s.reg64 lo := by
    simp only [Reg.CFG_P_AIMG_LO, Reg.CFG_P_SIMG_LO] at hlo
    obtain ⟨hl, hl'⟩ := himg (o := lo) (by simp only [Span]; omega)
    obtain ⟨hh, hh'⟩ := himg (o := lo + 4) (by simp only [Span]; omega)
    exact ⟨State.reg64_congr hl hh, State.reg64_congr hl' hh'⟩
  have hbefore {o : Nat} (h : o < 0x70108 + 0x80 * p ∨ Span (0x70118 + 0x80 * p) (0x70140 + 0x80 * p) o) : b.reg o = s.reg o := by
    simp only [Span] at h
    exact (hi.reg o (by simp only [Span]; omega)).trans (hm.reg o (by simp only [Span]; omega))
  have hstatus : ¬ Span (0x70118 + 0x80 * p) (0x70124 + 0x80 * p) (Reg.CFG_P_STATUS p) := by simp only [Span, Reg.CFG_P_STATUS]; omega
  have htickReg {o : Nat} (ho : o < 0x70100) : c.reg o = s.reg o :=
    (hst.reg o (by simp only [Reg.CFG_P_STATUS]; omega)).trans (hbefore (.inl (by omega)))
  have htick : c.tick = s.tick := State.reg64_congr (htickReg (by decide)) (htickReg (by decide))
  have hcfg : b.reg (Reg.CFG_P_STATUS p) = s.reg (Reg.CFG_P_STATUS p) := hbefore (.inl (by simp only [Reg.CFG_P_STATUS]; omega))
  have hwas : b.activeValid p = s.activeValid p := by
    rw [State.activeValid, State.flag, State.fld_congr (Reg.CFG_P_STATUS.ACTIVE_VALID p) hcfg]; rfl
  have hswaps : c.reg (Reg.CFG_P_SWAPS p) = s.reg (Reg.CFG_P_SWAPS p) := (hst.reg _ (by simp only [Reg.CFG_P_STATUS, Reg.CFG_P_SWAPS]; omega)).trans
    (hbefore (.inr (by simp only [Span, Reg.CFG_P_SWAPS]; omega)))
  refine ⟨fun j hj => ?_, ?_, ?_, ?_, (hsw.flag hstatus).trans hvalid, hstamp.trans htick, hcount.trans (by rw [hswaps])⟩
  · obtain ⟨hA, hS⟩ := hmeasures j hj
    exact ⟨(hmeas (by simp only [Span, Reg.CFG_P_AMEAS]; omega)).trans hA, (hmeas (by simp only [Span, Reg.CFG_P_SMEAS]; omega)).trans hS⟩
  · exact (himg64 (.inl rfl)).1.trans (hactive.trans (himg64 (.inr rfl)).2)
  · exact (himg64 (.inr rfl)).1.trans (hshadow.trans (himg64 (.inl rfl)).2)
  · rw [← hwas, ← hset]; exact hsw.fld hstatus

/-! ## The envelopes and the credits after a swap -/

/-- The registers that reading the envelopes writes: those of the SLG block, and the counts of the Hearth cache. -/
def envelopeRegs (o : Nat) : Prop := Span 0x40000 0x50000 o ∨ Span 0x9000000 0x9001000 o

theorem State.within_hearthAccess (s : State) (b off : Nat) (write na : Bool) : s.Within (s.hearthAccess b off write na) envelopeRegs := by
  have hput (u : State) : u.Within (u.hearthPut b off write) envelopeRegs := .hidden rfl rfl rfl
  have hmiss : s.Within (s.add64 Reg.TIER_HEARTH_MISS_LO 1) envelopeRegs :=
    (State.Within.refl s _).setReg64 _ (.inr ⟨by decide, by decide⟩) (.inr ⟨by decide, by decide⟩)
  have hhit : s.Within (s.add64 Reg.TIER_HEARTH_HIT_LO 1) envelopeRegs :=
    (State.Within.refl s _).setReg64 _ (.inr ⟨by decide, by decide⟩) (.inr ⟨by decide, by decide⟩)
  unfold State.hearthAccess
  dsimp only
  split
  · exact hhit.trans (hput _)
  · split
    · exact hmiss
    · exact hmiss.trans (hput _)

theorem State.within_pass (s : State) (off n : Nat) (write : Bool) : s.Within (s.pass off n write) envelopeRegs := by
  refine (State.Within.refl s _).foldl fun l _ u => ?_
  split
  · exact u.within_hearthAccess _ _ _ _
  · exact .refl u _

theorem State.within_interruptIf (s : State) (en : Bool) (rule : Nat) (P : Nat → Prop) : s.Within (s.interruptIf en rule) P := by
  cases en
  · exact .refl s P
  · exact .hidden rfl rfl rfl

theorem State.within_readEnvelopes (s : State) (p : Nat) : s.Within (s.readEnvelopes p) envelopeRegs := by
  have hpart (u : State) (f : Part → Part) : u.Within (u.modPart p f) envelopeRegs := .hidden rfl rfl rfl
  have hbit (u : State) : u.Within (u.slgBit Reg.SLG_STATUS.ENV_BAD) envelopeRegs :=
    ((State.Within.refl u _).setFlag (f := Reg.SLG_STATUS.ENV_BAD) true (.inl ⟨by decide, by decide⟩)).trans (State.within_interruptIf _ _ _ _)
  have htable (a : Nat) (f : Part → Part) : s.Within ((s.pass a 240 false).modPart p f) envelopeRegs := (s.within_pass _ _ _).trans (hpart _ _)
  unfold State.readEnvelopes
  dsimp only
  split
  · exact hpart s _
  · generalize s.slgBase p (s.fld (Reg.PRT_P_STAT.RESIDENT p)) +
        (if s.flag (Reg.SLG_P_JOB_CTL.ENVSEL p (s.fld (Reg.PRT_P_STAT.RESIDENT p))) then 0x200 else 0x100) = base
    split
    · exact (htable _ _).trans (hbit _)
    · exact htable _ _

theorem State.within_swapEnvelopes (s : State) (p : Nat) (hp : p < 12) : s.Within (s.swapEnvelopes p) envelopeRegs := by
  have hjob : s.fld (Reg.PRT_P_STAT.RESIDENT p) < 2 ^ 3 := bits_lt _ _ _
  unfold State.swapEnvelopes
  dsimp only
  generalize s.fld (Reg.PRT_P_STAT.RESIDENT p) = j at *
  have hctl : envelopeRegs (Reg.SLG_P_JOB_CTL p j) := .inl (by simp only [Span, Reg.SLG_P_JOB_CTL]; omega)
  exact ((State.Within.refl s _).setFlag (f := Reg.SLG_P_JOB_CTL.ENVSEL p j) _ hctl).trans (State.within_readEnvelopes _ p)

theorem State.within_rebuildCredits (s : State) (p : Nat) (P : Nat → Prop) : s.Within (s.rebuildCredits p) P := by
  have hflights : s.Within { s with creditFlights := s.creditFlights.filter (fun c => !(s.partOf c.t == some p)) } P := .hidden rfl rfl rfl
  refine hflights.foldl fun t _ u => (State.Within.refl u P).foldl fun q _ v => ?_
  split
  · exact .hidden rfl rfl rfl
  · exact .refl v P

/-! ## The swap -/

theorem State.swap_eq (s : State) (p : Nat) : s.swap p =
    (((((s.tilesOf p).foldl State.swapTile s).modPart p Part.swapped).swapConfig p).swapEnvelopes p).rebuildCredits p := rfl

/-- Every tile of the list has swapped. -/
theorem State.swapped_foldl (s : State) {l : List Nat} (hl : l.Nodup) {t : Nat} (ht : t ∈ l) : s.Swapped (l.foldl State.swapTile s) t := by
  have hapart : ∀ x ∈ l, ∀ y ∈ l, ∀ o, tileSpan x 0 0x10000 o → tileSpan y 0 0x10000 o → x = y := by
    intro x _ y _ o ho ho'
    simp only [tileSpan, Span, tileBase] at ho ho'
    omega
  obtain ⟨u, hu, hown⟩ := State.foldl_own s (fun x _ u => u.within_swapTile x) hapart hl ht
  exact (u.swapped_swapTile t).congr hu hown

/-- A swap writes memory and the fault log nowhere; its tiles and its configuration have swapped. -/
theorem State.swap_spec (s : State) {p : Nat} (hp : p < 12) : (∀ t ∈ s.tilesOf p, s.Swapped (s.swap p) t) ∧ s.ConfigSwapped (s.swap p) p ∧
    (s.swap p).mem = s.mem ∧ (s.swap p).faultLog = s.faultLog := by
  have htiles := fun t ht => s.swapped_foldl (l := s.tilesOf p) List.nodup_range' (t := t) ht
  have hgrid : s.Within ((s.tilesOf p).foldl State.swapTile s) (fun o => 0x10000000 ≤ o) :=
    (State.Within.refl s _).foldl fun t _ u => (u.within_swapTile t).mono fun o ho => by simp only [tileSpan, Span, tileBase] at ho; omega
  rw [State.swap_eq]
  generalize (s.tilesOf p).foldl State.swapTile s = a at *
  have hpart : a.Within (a.modPart p Part.swapped) (fun _ => False) := .hidden rfl rfl rfl
  generalize a.modPart p Part.swapped = b at *
  have hconfig := b.within_swapConfig p
  have hswapped := b.configSwapped_swapConfig p
  generalize b.swapConfig p = c at *
  have hlast : c.Within ((c.swapEnvelopes p).rebuildCredits p) envelopeRegs :=
    (c.within_swapEnvelopes p hp).trans (State.within_rebuildCredits _ p _)
  generalize (c.swapEnvelopes p).rebuildCredits p = r at *
  have habove {o : Nat} (ho : 0x10000000 ≤ o) : r.reg o = a.reg o :=
    (hlast.reg o (by simp only [envelopeRegs, Span]; omega)).trans
      ((hconfig.reg o (by simp only [configSpan, Span]; omega)).trans (hpart.reg o id))
  have hcfg {o : Nat} (ho : configSpan p o) : r.reg o = c.reg o := by
    simp only [configSpan, Span] at ho
    exact hlast.reg o (by simp only [envelopeRegs, Span]; omega)
  refine ⟨fun t ht => (htiles t ht).congr (fun _ _ => rfl) fun o ho => habove (by simp only [tileSpan, Span, tileBase] at ho; omega),
    hswapped.congr hp (fun o ho => (hpart.reg o id).trans (hgrid.reg o (by omega))) fun o ho => hcfg ho,
    hlast.mem.trans (hconfig.mem.trans (hpart.mem.trans hgrid.mem)), hlast.log.trans (hconfig.log.trans (hpart.log.trans hgrid.log))⟩

/-- The swap's place in the order of R35 has passed. -/
def State.passedSwap (s : State) : State := { s with boundary := 3 }

theorem State.within_passedSwap (s : State) : s.Within s.passedSwap (fun _ => False) := .hidden rfl rfl rfl

theorem configurationSwap_eq {s : State} {p : Nat} (h3 : s.place 3 = true) (hmay : s.maySwap p = true) :
    configurationSwap p s = (s.swap p).passedSwap := if_pos ⟨h3, hmay⟩

/-- The command's effect is that of `State.swap`, in its place of R35. -/
theorem configurationSwap_spec {s : State} {p : Nat} (hp : p < 12) (h3 : s.place 3 = true) (hmay : s.maySwap p = true) :
    (configurationSwap p s).boundary = 3 ∧ (∀ t ∈ s.tilesOf p, s.Swapped (configurationSwap p s) t) ∧
      s.ConfigSwapped (configurationSwap p s) p ∧ (configurationSwap p s).mem = s.mem ∧ (configurationSwap p s).faultLog = s.faultLog := by
  obtain ⟨htiles, hconfig, hmem, hlog⟩ := s.swap_spec hp
  have hlast := (s.swap p).within_passedSwap
  have hboundary : (s.swap p).passedSwap.boundary = 3 := rfl
  rw [configurationSwap_eq h3 hmay]
  generalize s.swap p = u at *
  generalize u.passedSwap = r at *
  exact ⟨hboundary, fun t ht => (htiles t ht).congr (fun _ _ => rfl) fun o _ => hlast.reg o id,
    hconfig.congr hp (fun _ _ => rfl) fun o _ => hlast.reg o id, hlast.mem.trans hmem, hlast.log.trans hlog⟩

/-- Settles O35: a register that a swap exchanges is written by no other part of the swap. -/
theorem swapExchangesTheSets : Obligations.SwapExchangesTheSets := by
  intro p s h3 hmay
  obtain ⟨hboundary, htiles, hconfig, hmem, hlog⟩ := configurationSwap_spec p.isLt h3 hmay
  refine ⟨configurationSwap p s, rfl, hboundary, ?_⟩
  generalize configurationSwap p s = r at *
  obtain ⟨hmeasures, hactive, hshadow, hset, hvalid, hstamp, hcount⟩ := hconfig
  refine ⟨fun t ht => ?_, fun j => hmeasures j j.isLt, hactive, hshadow, hset, hvalid, hstamp, hcount, hmem, hlog⟩
  obtain ⟨hqueues, himem, hpc, hrun⟩ := htiles t ht
  exact ⟨fun q => hqueues q q.isLt, himem, hpc, hrun⟩

end Sys2Proof.Machine
end

section
/-! PROOFS. What the operations of the switches write and what they leave: queues, credits, flits read and sent, and the records of
faults (chapter 03). -/
namespace Sys2Proof.Machine

/-! ## Queues of a tile -/

@[simp] theorem State.queue_setQueue_same (s : State) (t q : Nat) (x : Queue) : (s.setQueue t q x).queue t q = x := by
  simp [State.setQueue, State.modTile, State.queue]

@[simp] theorem State.queue_setQueue_ne (s : State) (t : Nat) {q q' : Nat} (x : Queue) (h : q' ≠ q) :
    (s.setQueue t q x).queue t q' = s.queue t q' := by
  simp [State.setQueue, State.modTile, State.queue, h]

@[simp] theorem State.tile_setQueue_ne (s : State) {t t' : Nat} (q : Nat) (x : Queue) (h : t' ≠ t) : (s.setQueue t q x).tile t' = s.tile t' := by
  simp [State.setQueue, State.modTile, h]

theorem State.tile_congr {s r : State} (h : r.tiles = s.tiles) (t : Nat) : r.tile t = s.tile t := by rw [State.tile, h]; rfl

theorem State.queue_congr {s r : State} (h : r.tiles = s.tiles) (t q : Nat) : r.queue t q = s.queue t q := by
  rw [State.queue, State.tile_congr h]; rfl

theorem State.headFor_congr {s r : State} (h : r.tiles = s.tiles) (t q out : Nat) : r.headFor t q out = s.headFor t q out := by
  rw [State.headFor, State.queue_congr h]; rfl

/-- The head flit that an output may send is the first of its queue. -/
theorem State.held_of_headFor {s : State} {t q out : Nat} {h : Held} (hh : s.headFor t q out = some h) :
    ∃ rest, (s.queue t q).held = h :: rest := by
  unfold State.headFor at hh
  split at hh
  · next x hx =>
    obtain ⟨rest, hrest⟩ : ∃ rest, (s.queue t q).held = x :: rest := by
      cases hl : (s.queue t q).held with
      | nil => simp [hl] at hx
      | cons y l => simp only [hl, List.head?_cons, Option.some.injEq] at hx; exact ⟨l, by rw [hx]⟩
    split at hh
    · cases hh
    · exact ⟨rest, by rw [hrest, Option.some.inj hh]⟩
  · cases hh

/-! ## Frames of registers -/

theorem State.keepsRegs.fld {s r : State} {l : List Nat} (h : s.keepsRegs r l) {f : Field} (hf : f.off ∉ l) : r.fld f = s.fld f :=
  State.fld_congr f (h f.off hf)

theorem State.keepsRegs.mono {s r : State} {l m : List Nat} (h : s.keepsRegs r l) (hl : l ⊆ m) : s.keepsRegs r m :=
  fun o ho => h o (fun hx => ho (hl hx))

theorem State.keepsRegs_of_regs {s r : State} (h : r.regs = s.regs) (l : List Nat) : s.keepsRegs r l := fun o _ => State.reg_congr h o

/-- Commands of Foreman firmware act in a live module (R9). -/
theorem State.byFirmware_live {s : State} (h : s.live = true) (o : Nat) (act : State → State) : s.byFirmware .firmware o act = act s := by
  simp [State.byFirmware, State.reaches, h]

end Sys2Proof.Machine
end

section
/-! PROOFS. The statement of 03_grid_and_queues.md on returned credits and on GRD_CTRL and GRD_LINK. -/
namespace Sys2Proof.Machine

/-- A queue with a credit more, of the attachment or of a link output (R43). -/
def Queue.credited (x : Queue) (out : Nat) (attach : Bool) : Queue :=
  if attach then { x with attach := x.attach + 1 } else x.setCredit out (x.credits.toList.getD out 0 + 1)

theorem creditReturn_eq {s : State} {t out : Nat} {c : CreditFlight} {rest : List CreditFlight}
    (h : takeCredit t out s.creditFlights = some (c, rest)) :
    creditReturn t out s = { s with creditFlights := rest }.setQueue t c.q ((s.queue t c.q).credited out c.attach) := by
  unfold creditReturn Queue.credited
  rw [h]
  dsimp only
  split <;> rfl

theorem State.writeGrd_free {s : State} {t : Nat} (h : s.partOf t = none) (link : Bool) (v : Word) : s.writeGrd t link v = s.setGrd t link v := by
  rw [State.writeGrd, h]

theorem State.setGrd_link (s : State) (t : Nat) (v : Word) :
    (s.setGrd t true v).fld (Reg.GRD_LINK.FENCE t) = v.toNat % 16 ∧ s.onlyRegs (s.setGrd t true v) [Reg.GRD_LINK t] :=
  ⟨State.fld_setFld_same _ (Reg.GRD_LINK.FENCE t) _ (by dsimp only; decide), (State.onlyRegs.refl s _).setFld _ (by simp)⟩

theorem State.setGrd_ctrl (s : State) (t : Nat) (v : Word) :
    (s.setGrd t false v).fld (Reg.GRD_CTRL.DL_LIMIT t) = bits v.toNat 8 5 ∧
      (s.setGrd t false v).flag (Reg.GRD_CTRL.DL_EN t) = bitOf v.toNat 0 ∧ s.onlyRegs (s.setGrd t false v) [Reg.GRD_CTRL t] := by
  have hset : s.setGrd t false v = (s.setFld (Reg.GRD_CTRL.DL_LIMIT t) (bits v.toNat 8 5)).setFld (Reg.GRD_CTRL.DL_EN t) v.toNat :=
    if_neg Bool.false_ne_true
  rw [hset]
  refine ⟨?_, ?_, ((State.onlyRegs.refl s _).setFld _ (by simp)).setFld _ (by simp)⟩
  · rw [State.fld_setFld_disjoint _ (Reg.GRD_CTRL.DL_EN t) (Reg.GRD_CTRL.DL_LIMIT t) _ rfl (by dsimp only; decide) (by dsimp only; decide),
      State.fld_setFld_same _ _ _ (by dsimp only; decide)]
    exact Nat.mod_eq_of_lt (bits_lt _ _ _)
  · rw [State.flag, State.fld_setFld_same _ _ _ (by dsimp only; decide), bitOf, Nat.pow_zero, Nat.div_one]
    rfl

/-- Settles O25: a credit changes one queue of its tile, and each of the three cases of R59 writes one register or one tile. -/
theorem creditsAndSwitchControls : Obligations.CreditsAndSwitchControls := by
  refine ⟨fun t out s c rest hc => ⟨creditReturn t out s, rfl, ?_⟩, fun t link v s hl =>
    ⟨s.writeGrd t link v, (congrArg Host.Outcome.next (State.byFirmware_live hl _ _) :), fun hp => ?_, fun p hp => ⟨fun hr => ?_, fun hr => ?_⟩⟩⟩
  · rw [creditReturn_eq hc]
    exact ⟨State.queue_setQueue_same _ _ _ _, fun q' hq => State.queue_setQueue_ne _ _ _ hq, fun t' ht => State.tile_setQueue_ne _ _ _ ht, rfl⟩
  · rw [State.writeGrd_free hp]
    cases link
    · exact s.setGrd_ctrl t v
    · exact s.setGrd_link t v
  · have hw : s.writeGrd t link v =
        s.modTile t (fun x => if link then { x with deferLink := some v } else { x with deferCtrl := some v }) := by
      rw [State.writeGrd, hp]; exact if_pos hr
    rw [hw]
    exact ⟨rfl, fun t' ht => State.tile_setTile_ne _ _ ht, State.tile_setTile_same _ _ _⟩
  · have hw : s.writeGrd t link v = s.setFlag (Reg.GRD_STATUS.WR_IGNORED t) true := by
      rw [State.writeGrd, hp]; exact if_neg (by simp [hr])
    rw [hw]
    exact ⟨State.flag_setFlag_same _ _ _ (by dsimp only; decide) rfl, (State.onlyRegs.refl s _).setFlag _ (by simp)⟩

end Sys2Proof.Machine
end

section
/-! PROOFS. The refutation of the statement on arriving flits: a flit whose sender is the queue that it names. -/
namespace Sys2Proof.Machine

/-- A QUENCH flit on the link to port 0 of tile 0, whose DQ is the very queue that sent it. No field of `Source` keeps a queue from feeding itself. -/
def ownFlight : Flight := ⟨0, 0, 0, ⟨.quench, 0⟩, .switch 0 0 0 0 0⟩

/-- That queue is valid, has the port as its input, and was quenched as the flit left it. -/
def ownState : State :=
  ({ State.reset with flights := [ownFlight] }.setFlag (Reg.GRD_RT_A.VALID 0 0) true).setQueue 0 0 { Queue.reset with quenched := true }

theorem quenched_ownState : (ownState.queue 0 0).quenched = true := by decide +kernel

/-- The flit, put back to be refused, unquenches the queue that would refuse it: it is accepted, and no record is written. -/
theorem faultLog_flitArrival_ownState : (flitArrival 0 0 .clean ownState).faultLog = [] := by decide +kernel

/-- Refutes O24: a quenched queue accepts the QUENCH flit that it sent itself. No link of R15 joins a tile to itself, but the statement
speaks of every state. -/
theorem not_arrivalFillsTheQueue : ¬ Obligations.ArrivalFillsTheQueue := by
  intro h
  obtain ⟨r, hr, -, -, hrefused, -⟩ := h 0 0 .clean ownState ownFlight [] (by decide +kernel)
  obtain rfl : flitArrival 0 0 .clean ownState = r := Host.Outcome.next.inj hr
  obtain ⟨-, d, hlog, -⟩ := hrefused (.inr (.inr quenched_ownState))
  rw [faultLog_flitArrival_ownState] at hlog
  exact absurd hlog.symm (List.append_ne_nil_of_right_ne_nil _ (List.cons_ne_nil d []))

end Sys2Proof.Machine
end

section
/-! PROOFS. What a switch writes as it reads a flit, sends it and records a fault (R45, R54, R56 to R58). -/
namespace Sys2Proof.Machine

/-! ## Frames with the parts -/

/-- Nothing but registers at offsets of `l` and the partitions' hidden state differs. -/
def State.onlyRegsParts (s r : State) (l : List Nat) : Prop := r = { s with regs := r.regs, parts := r.parts } ∧ s.keepsRegs r l

section
variable {s r u : State} {l m : List Nat}

theorem State.onlyRegsParts.refl (s : State) (l : List Nat) : s.onlyRegsParts s l := ⟨rfl, fun _ _ => rfl⟩

theorem State.onlyRegsParts.trans (h : s.onlyRegsParts r l) (h' : r.onlyRegsParts u l) : s.onlyRegsParts u l := by
  obtain ⟨hr, hk⟩ := h
  obtain ⟨hu, hk'⟩ := h'
  exact ⟨by rw [hu, hr], fun o ho => (hk' o ho).trans (hk o ho)⟩

theorem State.onlyRegsParts.mono (h : s.onlyRegsParts r l) (hl : l ⊆ m) : s.onlyRegsParts r m := ⟨h.1, h.2.mono hl⟩

theorem State.onlyRegs.withParts (h : s.onlyRegs r l) : s.onlyRegsParts r l := by
  obtain ⟨hr, hk⟩ := h
  exact ⟨by rw [hr], hk⟩

theorem State.onlyRegsParts.tiles (h : s.onlyRegsParts r l) : r.tiles = s.tiles := by
  obtain ⟨hr, -⟩ := h
  rw [hr]

theorem State.onlyRegsParts.mem (h : s.onlyRegsParts r l) : r.mem = s.mem := by
  obtain ⟨hr, -⟩ := h
  rw [hr]

end

theorem State.onlyRegsParts_modPart (s : State) (p : Nat) (f : Part → Part) (l : List Nat) : s.onlyRegsParts (s.modPart p f) l :=
  ⟨rfl, fun _ _ => rfl⟩

theorem State.onlyRegsParts_markTile (s : State) (t cause : Nat) (l : List Nat) : s.onlyRegsParts (s.markTile t cause) l := by
  unfold State.markTile
  split
  · exact s.onlyRegsParts_modPart _ _ l
  · exact .refl s l

theorem State.onlyRegsParts_movedAt (s : State) (t : Nat) (l : List Nat) : s.onlyRegsParts (s.movedAt t) l := by
  unfold State.movedAt
  split
  · exact s.onlyRegsParts_modPart _ _ l
  · exact .refl s l

theorem State.regs_movedAt (s : State) (t : Nat) : (s.movedAt t).regs = s.regs := by
  unfold State.movedAt
  split <;> rfl

/-! ## The check of a flit (R58) -/

/-- The registers that the check of a flit writes. -/
def flitEccRegs (t : Nat) (e : FlitEcc) : List Nat := if e.corrected = 0 ∧ e.bad = 0 then [] else [Reg.GRD_ECC_CNT t, Reg.GRD_STATUS t]

theorem flitEccRegs_subset (t : Nat) (e : FlitEcc) : flitEccRegs t e ⊆ [Reg.GRD_ECC_CNT t, Reg.GRD_STATUS t] := by
  unfold flitEccRegs
  split <;> simp

theorem State.onlyRegs_countEcc (s : State) (f : Field) (n : Nat) : s.onlyRegs (s.countEcc f n) [f.off] := by
  unfold State.countEcc
  split
  · exact .refl s _
  · exact (State.onlyRegs.refl s _).setFld _ (by simp)

theorem State.flitEcc_clean (s : State) (t : Nat) {e : FlitEcc} (hc : e.corrected = 0) (hb : e.bad = 0) : s.flitEcc t e = s := by
  simp [State.flitEcc, State.countEcc, hc, hb, quarters, bitOf]

theorem State.onlyRegsParts_flitEcc (s : State) (t : Nat) (e : FlitEcc) : s.onlyRegsParts (s.flitEcc t e) (flitEccRegs t e) := by
  unfold flitEccRegs
  split
  · next h => rw [s.flitEcc_clean t h.1 h.2]; exact .refl s _
  · have hcount : s.onlyRegs (s.countEcc (Reg.GRD_ECC_CNT.CE t) (quarters (e.corrected &&& ~~~e.bad))) [Reg.GRD_ECC_CNT t, Reg.GRD_STATUS t] := by
      obtain ⟨hr, hk⟩ := s.onlyRegs_countEcc (Reg.GRD_ECC_CNT.CE t) (quarters (e.corrected &&& ~~~e.bad))
      exact ⟨hr, hk.mono (by simp)⟩
    unfold State.flitEcc
    dsimp only
    split
    · exact hcount.withParts
    · exact ((hcount.setFld (f := Reg.GRD_ECC_CNT.UE t) _ (by simp)).setFlag (f := Reg.GRD_STATUS.FLIT_UE t) true (by simp)).withParts.trans
        (State.onlyRegsParts_markTile _ _ _ _)

theorem State.keepsRegs_flitEcc (s : State) (t : Nat) (e : FlitEcc) : s.keepsRegs (s.flitEcc t e) [Reg.GRD_ECC_CNT t, Reg.GRD_STATUS t] :=
  (s.onlyRegsParts_flitEcc t e).2.mono (flitEccRegs_subset t e)

theorem State.parts_flitEcc_of_good (s : State) (t : Nat) {e : FlitEcc} (h : e.bad = 0) : (s.flitEcc t e).parts = s.parts := by
  have hcount := (s.onlyRegs_countEcc (Reg.GRD_ECC_CNT.CE t) (quarters (e.corrected &&& ~~~e.bad))).1
  unfold State.flitEcc
  dsimp only
  rw [if_pos h, hcount]

/-! ## The head flit is sent (R45) -/

/-- A queue with outputs `outs` whose head flit the output `out` has sent. -/
def Queue.headSent (x : Queue) (outs out : Nat) : Queue :=
  match x.held with
  | [] => x
  | h :: rest =>
    let sent := h.sent ||| BitVec.ofNat 5 (2 ^ out)
    if outs &&& sent.toNat = outs then { x with held := rest, quenched := x.quenched || decide (h.kind = .quench) }
    else { x with held := { h with sent := sent } :: rest }

/-- Nothing but registers, what tiles and partitions hold and the credits on their way differs. -/
def State.onlySwitch (s r : State) : Prop :=
  r = { s with regs := r.regs, tiles := r.tiles, parts := r.parts, creditFlights := r.creditFlights }

theorem State.onlySwitch.trans {s r u : State} (h : s.onlySwitch r) (h' : r.onlySwitch u) : s.onlySwitch u := by
  unfold State.onlySwitch at *
  rw [h', h]

theorem State.onlyRegsParts.onlySwitch {s r : State} {l : List Nat} (h : s.onlyRegsParts r l) : s.onlySwitch r := by
  obtain ⟨hr, -⟩ := h
  unfold State.onlySwitch
  rw [hr]

/-- A returned credit is all that differs. -/
theorem State.returnCredit_cases (s : State) (t q : Nat) : s.returnCredit t q = s ∨
    ∃ c, s.returnCredit t q = { s with creditFlights := s.creditFlights ++ [c] } := by
  unfold State.returnCredit
  dsimp only
  split
  · exact .inl rfl
  · split
    · exact .inr ⟨_, rfl⟩
    · split
      · exact .inl rfl
      · split
        · exact .inl rfl
        · exact .inr ⟨_, rfl⟩

/-- After the flit has left its queue, only its tile's partition and a credit may tell. -/
theorem State.movedAt_returnCredit (s : State) (t q : Nat) (c : Prop) [Decidable c] :
    let r := if c then (s.movedAt t).returnCredit t q else s.movedAt t
    s.onlySwitch r ∧ r.regs = s.regs ∧ r.tiles = s.tiles := by
  have hmoved := s.onlyRegsParts_movedAt t []
  have hregs := s.regs_movedAt t
  generalize s.movedAt t = u at *
  have hu : s.onlySwitch u ∧ u.regs = s.regs ∧ u.tiles = s.tiles := ⟨hmoved.onlySwitch, hregs, hmoved.tiles⟩
  dsimp only
  split
  · obtain hr | ⟨x, hr⟩ := u.returnCredit_cases t q
    · rwa [hr]
    · rw [hr]
      obtain ⟨hu, hregs, htiles⟩ := hu
      exact ⟨hu.trans rfl, hregs, htiles⟩
  · exact hu

theorem State.onlySwitch_setQueue (s : State) (t q : Nat) (x : Queue) : s.onlySwitch (s.setQueue t q x) := rfl

theorem State.setQueue_tiles_congr {s r : State} (h : r.tiles = s.tiles) (t q : Nat) (x : Queue) :
    (r.setQueue t q x).tiles = (s.setQueue t q x).tiles := by
  simp only [State.setQueue, State.modTile, State.setTile, State.tile_congr h, h]

theorem State.onlyRegs_addFld (s : State) (f : Field) (n : Nat) : s.onlyRegs (s.addFld f n) [f.off] := (State.onlyRegs.refl s _).setFld _ (by simp)

theorem State.rtOut_addFld_flits (s : State) (t q n : Nat) : (s.addFld (Reg.GRD_FLITS.COUNT t) n).rtOut t q = s.rtOut t q :=
  State.fld_setFld_ne _ _ _ _ (by simp only [Reg.GRD_RT_A, Reg.GRD_FLITS]; omega)

/-- The flit counts in GRD_FLITS, its queue changes, and a credit may leave. -/
theorem State.sendHead_spec {s : State} {t q : Nat} {h : Held} {rest : List Held} (hh : (s.queue t q).held = h :: rest) (out : Nat) :
    s.onlySwitch (s.sendHead t q out) ∧ (s.sendHead t q out).regs = (s.addFld (Reg.GRD_FLITS.COUNT t) 1).regs ∧
      (s.sendHead t q out).tiles = (s.setQueue t q ((s.queue t q).headSent (s.rtOut t q) out)).tiles := by
  unfold State.sendHead Queue.headSent
  dsimp only
  rw [hh]
  dsimp only
  rw [State.rtOut_addFld_flits]
  have hcount := (s.onlyRegs_addFld (Reg.GRD_FLITS.COUNT t) 1).withParts
  generalize s.addFld (Reg.GRD_FLITS.COUNT t) 1 = u at *
  have hframe (x : Queue) : s.onlySwitch (u.setQueue t q x) := hcount.onlySwitch.trans (u.onlySwitch_setQueue t q x)
  have htiles (x : Queue) : (u.setQueue t q x).tiles = (s.setQueue t q x).tiles := State.setQueue_tiles_congr hcount.tiles t q x
  split
  · specialize hframe { s.queue t q with held := rest, quenched := (s.queue t q).quenched || decide (h.kind = .quench) }
    specialize htiles { s.queue t q with held := rest, quenched := (s.queue t q).quenched || decide (h.kind = .quench) }
    generalize hv : u.setQueue t q _ = v at hframe htiles ⊢
    obtain ⟨hleft, hregs, hkept⟩ := v.movedAt_returnCredit t q ((v.movedAt t).landed t q h.seq = true)
    exact ⟨hframe.trans hleft, hregs.trans (by rw [← hv]; rfl), hkept.trans htiles⟩
  · exact ⟨hframe _, rfl, htiles _⟩

/-! ## Where a tile belongs, and faults of its partition (R56, R57) -/

/-- The block of PRT_ registers is the same. -/
def State.samePrt (s r : State) : Prop := ∀ o, Span 0x50000 0x60000 o → r.reg o = s.reg o

theorem State.keepsRegs.samePrt {s r : State} {l : List Nat} (h : s.keepsRegs r l) (hl : ∀ o ∈ l, 0x60000 ≤ o) : s.samePrt r :=
  fun o ho => h o (fun hx => Nat.not_lt.2 (hl o hx) ho.2)

section
variable {s r : State}

theorem State.holdsBay_congr (h : s.samePrt r) {p : Nat} (hp : p < 12) (b : Nat) : r.holdsBay p b = s.holdsBay p b := by
  have hbays : r.reg (Reg.PRT_P_BAYS p) = s.reg (Reg.PRT_P_BAYS p) := h _ (by simp only [Span, Reg.PRT_P_BAYS]; omega)
  have hstate : r.partState p = s.partState p := State.fld_congr _ (h _ (by simp only [Span, Reg.PRT_P_STAT]; omega))
  have hfirst : r.partFirst p = s.partFirst p := State.fld_congr _ hbays
  have hcount : r.partCount p = s.partCount p := State.fld_congr _ hbays
  rw [State.holdsBay, hstate, hfirst, hcount]
  rfl

theorem State.bayPart_congr (h : s.samePrt r) (b : Nat) : r.bayPart b = s.bayPart b := by
  unfold State.bayPart
  exact List.find?_congr fun p hp => State.holdsBay_congr h (List.mem_range.1 hp) b

theorem State.partOf_congr (h : s.samePrt r) (t : Nat) : r.partOf t = s.partOf t := State.bayPart_congr h _

theorem State.bayPart_lt {b p : Nat} (h : s.bayPart b = some p) : p < 12 := List.mem_range.1 (List.mem_of_find?_eq_some h)

theorem State.resident_of_running {p : Nat} (h : s.running p = true) : s.flag (Reg.PRT_P_STAT.RES_VALID p) = true := by
  simp only [State.running, Bool.and_eq_true] at h
  obtain ⟨⟨⟨-, hres⟩, -⟩, -⟩ := h
  exact hres

end

/-- What a fault of partition `p` leaves: one record, the partition frozen, and nothing else but the partition's list of faults and an
interrupt. -/
structure State.Faulted (s r : State) (p : Nat) (x : FaultRecord) : Prop where
  frozen : r.flag (Reg.PRT_P_STAT.FROZEN p) = true
  log : r.faultLog = s.faultLog ++ [x]
  mem : r.mem = s.mem
  regs : s.keepsRegs r [Reg.PRT_P_STAT p]

theorem State.Faulted.of_hidden {s u r : State} {p : Nat} {x : FaultRecord} (h : u.Faulted r p x) (hlog : u.faultLog = s.faultLog)
    (hmem : u.mem = s.mem) (hregs : u.regs = s.regs) : s.Faulted r p x where
  frozen := h.frozen
  log := h.log.trans (by rw [hlog])
  mem := h.mem.trans hmem
  regs o ho := (h.regs o ho).trans (State.reg_congr hregs o)

theorem State.faulted_faultPart {s : State} {p : Nat} (h : s.flag (Reg.PRT_P_STAT.RES_VALID p) = true) (x : FaultRecord) :
    s.Faulted (s.faultPart p x) p x := by
  unfold State.faultPart State.freeze
  have hres : ((s.logFault x).modPart p (fun y => { y with faults := y.faults ++ [x] })).flag (Reg.PRT_P_STAT.RES_VALID p) = true := h
  rw [if_pos hres, State.interruptIf_eq]
  refine ⟨?_, rfl, rfl, ?_⟩
  · exact State.flag_setFlag_same _ (Reg.PRT_P_STAT.FROZEN p) true (by dsimp only; decide) rfl
  · exact State.keepsRegs_setFlag _ (Reg.PRT_P_STAT.FROZEN p) true

/-- The record of a fault in a tile names the tile and its partition. -/
theorem State.exists_faulted_faultTile {s : State} {t p : Nat} (ht : s.partOf t = some p) (h : s.flag (Reg.PRT_P_STAT.RES_VALID p) = true)
    (code detail : Nat) : ∃ x, s.Faulted (s.faultTile t code detail) p x ∧ x.source = t ∧ x.code = code ∧ x.part = p := by
  rw [State.faultTile, ht]
  exact ⟨_, State.faulted_faultPart h _, rfl, rfl, rfl⟩

end Sys2Proof.Machine
end

section
/-! PROOFS. The statement of 03_grid_and_queues.md on deadlock: which switch detects it, and what its record leaves. -/
namespace Sys2Proof.Machine

/-! ## The switch that detects -/

/-- How long ago a switch's stall counter reached its limit, counted from 1; 0 where it has not. -/
def State.tripAge (s : State) (t : Nat) : Nat := match s.tripped t with
  | some k => k + 1
  | none => 0

/-- The age of the switch that reached its limit first. -/
def State.firstAge (s : State) (l : List Nat) : Nat := l.foldl (fun n t => match s.tripped t with
  | some k => max n (k + 1)
  | none => n) 0

/-- The switches of a partition that reached their limit first (R54). -/
def State.detectors (s : State) (p : Nat) : List Nat :=
  (s.tilesOf p).filter (fun t => (s.tripped t).map (· + 1) == some (s.firstAge (s.tilesOf p)))

/-- The first of a list that meets a condition, or else its first (R55). -/
def prefer {α : Type} (l : List α) (c : α → Bool) : Option α := (l.find? c).or l.head?

theorem mem_of_prefer {α : Type} {l : List α} {c : α → Bool} {x : α} (h : prefer l c = some x) : x ∈ l := by
  rcases Option.or_eq_some_iff.1 h with h | ⟨-, h⟩
  · exact List.mem_of_find?_eq_some h
  · exact List.mem_of_head? h

theorem prefer_nil {α : Type} (c : α → Bool) : prefer [] c = none := rfl

theorem exists_prefer {α : Type} {l : List α} (h : l ≠ []) (c : α → Bool) : ∃ x, prefer l c = some x := by
  obtain ⟨y, l, rfl⟩ := List.exists_cons_of_ne_nil h
  unfold prefer
  cases (y :: l).find? c with
  | none => exact ⟨y, rfl⟩
  | some x => exact ⟨x, rfl⟩

theorem foldl_max_cases {α : Type} (f : α → Nat) (l : List α) (n : Nat) :
    n ≤ l.foldl (fun n t => max n (f t)) n ∧ (∀ t ∈ l, f t ≤ l.foldl (fun n t => max n (f t)) n) ∧
      (l.foldl (fun n t => max n (f t)) n = n ∨ ∃ t ∈ l, f t = l.foldl (fun n t => max n (f t)) n) := by
  induction l generalizing n with
  | nil => simp
  | cons x l ih =>
    obtain ⟨hle, hall, hcases⟩ := ih (max n (f x))
    rw [List.foldl_cons]
    refine ⟨by omega, fun t ht => ?_, ?_⟩
    · rcases List.mem_cons.1 ht with rfl | ht
      · omega
      · exact hall t ht
    · rcases hcases with h | ⟨t, ht, h⟩
      · rcases Nat.le_total n (f x) with hx | hx
        · exact .inr ⟨x, List.mem_cons_self, by omega⟩
        · exact .inl (by omega)
      · exact .inr ⟨t, List.mem_cons_of_mem x ht, h⟩

theorem State.firstAge_eq (s : State) (l : List Nat) : s.firstAge l = l.foldl (fun n t => max n (s.tripAge t)) 0 := by
  refine List.foldl_ext _ _ _ fun n t _ => ?_
  unfold State.tripAge
  split <;> simp_all

theorem State.tripAge_pos {s : State} {t : Nat} (h : (s.tripped t).isSome = true) : 0 < s.tripAge t := by
  obtain ⟨k, hk⟩ := Option.isSome_iff_exists.1 h
  rw [State.tripAge, hk]
  exact Nat.succ_pos k

/-- A switch that detects has reached its limit. -/
theorem State.tripped_of_mem_detectors {s : State} {p t : Nat} (h : t ∈ s.detectors p) : t ∈ s.tilesOf p ∧ (s.tripped t).isSome = true := by
  obtain ⟨ht, hage⟩ := List.mem_filter.1 h
  refine ⟨ht, ?_⟩
  cases hk : s.tripped t with
  | none => simp [hk] at hage
  | some k => rfl

/-- Where a switch has reached its limit, one detects. -/
theorem State.detectors_ne_nil {s : State} {p t : Nat} (ht : t ∈ s.tilesOf p) (h : (s.tripped t).isSome = true) : s.detectors p ≠ [] := by
  obtain ⟨-, hall, hcases⟩ := foldl_max_cases s.tripAge (s.tilesOf p) 0
  rw [← s.firstAge_eq] at hall hcases
  have hpos : 0 < s.firstAge (s.tilesOf p) := Nat.lt_of_lt_of_le (State.tripAge_pos h) (hall t ht)
  obtain ⟨u, hu, hage⟩ := hcases.resolve_left (Nat.ne_of_gt hpos)
  refine List.ne_nil_of_mem (a := u) (List.mem_filter.2 ⟨hu, ?_⟩)
  rw [State.tripAge] at hage
  split at hage
  · next k hk => simp [hk, hage]
  · omega

/-! ## Its record -/

/-- The full queue that the record of a deadlock names (R55). -/
def State.stuckQueue (s : State) (t : Nat) : Option Nat := prefer (s.fullQueues t) (fun q => (s.rejoins t q).isSome)

/-- DEADLOCK and GRD_DL_INFO are set, and the fault is raised (R56, R57). -/
def State.recordDeadlock (s : State) (t q : Nat) : State :=
  let s := s.setFlag (Reg.GRD_STATUS.DEADLOCK t) true
  match s.rejoins t q with
  | some r => (s.setReg (Reg.GRD_DL_INFO t) (BitVec.ofNat 32 (2 ^ 30 + r * 2 ^ 8 + q))).faultSwitch t codeDeadlock q r 1 (s.queue t q).occ
  | none => (s.setReg (Reg.GRD_DL_INFO t) (BitVec.ofNat 32 (2 ^ 31 + q))).faultSwitch t codeDeadlock q 0xFF 2 (s.queue t q).occ

theorem deadlockDetect_running {s : State} {p : Nat} (h : s.running p = true) : deadlockDetect p s =
    match prefer (s.detectors p) (fun t => (s.fullQueues t).any (fun q => (s.rejoins t q).isSome)) with
    | none => s
    | some t => match s.stuckQueue t with
      | none => s
      | some q => s.recordDeadlock t q := by
  unfold deadlockDetect
  rw [if_neg (by simp [h])]
  rfl

/-- Whatever the record says of the queues, the switch shows DEADLOCK and the partition is frozen. -/
theorem State.recordDeadlock_spec {s : State} {t p : Nat} (ht : s.partOf t = some p)
    (hres : s.flag (Reg.PRT_P_STAT.RES_VALID p) = true) (q : Nat) :
    (s.recordDeadlock t q).flag (Reg.GRD_STATUS.DEADLOCK t) = true ∧ (s.recordDeadlock t q).flag (Reg.PRT_P_STAT.FROZEN p) = true ∧
      (∃ d, (s.recordDeadlock t q).faultLog = s.faultLog ++ [d] ∧ d.source = t ∧ d.code = codeDeadlock ∧ d.part = p) ∧
      (s.recordDeadlock t q).mem = s.mem ∧ s.keepsRegs (s.recordDeadlock t q) [Reg.GRD_STATUS t, Reg.GRD_DL_INFO t, Reg.PRT_P_STAT p] := by
  have hset (v : Word) : s.onlyRegs ((s.setFlag (Reg.GRD_STATUS.DEADLOCK t) true).setReg (Reg.GRD_DL_INFO t) v)
      [Reg.GRD_STATUS t, Reg.GRD_DL_INFO t] := ((State.onlyRegs.refl s _).setFlag _ (by simp)).setReg _ (by simp)
  have hflag (v : Word) : ((s.setFlag (Reg.GRD_STATUS.DEADLOCK t) true).setReg (Reg.GRD_DL_INFO t) v).flag (Reg.GRD_STATUS.DEADLOCK t) = true := by
    rw [State.flag, State.fld_setReg_ne _ _ _ (by simp only [Reg.GRD_STATUS, Reg.GRD_DL_INFO]; omega), ← State.flag]
    exact State.flag_setFlag_same _ _ _ (by dsimp only; decide) rfl
  obtain ⟨v, d, hrec⟩ : ∃ v d, s.recordDeadlock t q =
      ((s.setFlag (Reg.GRD_STATUS.DEADLOCK t) true).setReg (Reg.GRD_DL_INFO t) v).faultTile t codeDeadlock d := by
    unfold State.recordDeadlock
    dsimp only
    split <;> exact ⟨_, _, rfl⟩
  specialize hset v
  specialize hflag v
  rw [hrec]
  generalize (s.setFlag (Reg.GRD_STATUS.DEADLOCK t) true).setReg (Reg.GRD_DL_INFO t) v = u at hset hflag
  have hp : p < 12 := State.bayPart_lt ht
  obtain ⟨hu, hkeep⟩ := hset
  have hsame : s.samePrt u := hkeep.samePrt (by
    simp only [List.mem_cons, List.not_mem_nil, or_false, forall_eq_or_imp, forall_eq, Reg.GRD_STATUS, Reg.GRD_DL_INFO, tileBase]; omega)
  have hstat : Reg.PRT_P_STAT p ∉ [Reg.GRD_STATUS t, Reg.GRD_DL_INFO t] := by
    simp only [List.mem_cons, List.not_mem_nil, or_false, Reg.PRT_P_STAT, Reg.GRD_STATUS, Reg.GRD_DL_INFO, tileBase]; omega
  obtain ⟨x, ⟨hfrozen, hlog, hmem, hregs⟩, hx⟩ := State.exists_faulted_faultTile ((State.partOf_congr hsame t).trans ht)
    ((hkeep.flag (f := Reg.PRT_P_STAT.RES_VALID p) hstat).trans hres) codeDeadlock d
  have hstatus : (Reg.GRD_STATUS.DEADLOCK t).off ∉ [Reg.PRT_P_STAT p] := by
    simp only [List.mem_singleton, Reg.PRT_P_STAT, Reg.GRD_STATUS, tileBase]; omega
  exact ⟨(hregs.flag hstatus).trans hflag, hfrozen, ⟨x, hlog.trans (by rw [hu]), hx⟩, hmem.trans (by rw [hu]),
    hkeep.trans hregs (by simp) (by simp)⟩

/-- Settles O26: a switch that reached its limit first detects, it has a full queue, and its record freezes the partition. -/
theorem deadlockFreezesThePartition : Obligations.DeadlockFreezesThePartition := by
  refine fun p s hrun hown => ⟨fun hnone => ?_, fun ⟨t, ht, htrip⟩ hfull => ⟨deadlockDetect p s, rfl, ?_⟩⟩
  · have hempty : s.detectors p = [] := List.eq_nil_iff_forall_not_mem.2 fun t ht => by
      obtain ⟨ht, htrip⟩ := State.tripped_of_mem_detectors ht
      simp [hnone t ht] at htrip
    show Host.Outcome.next (deadlockDetect p s) = .next s
    rw [deadlockDetect_running hrun, hempty, prefer_nil]
  · obtain ⟨u, hu⟩ := exists_prefer (State.detectors_ne_nil ht htrip) (fun t => (s.fullQueues t).any (fun q => (s.rejoins t q).isSome))
    obtain ⟨hmem, htripped⟩ := State.tripped_of_mem_detectors (mem_of_prefer hu)
    obtain ⟨q, hq⟩ : ∃ q, s.stuckQueue u = some q := exists_prefer (hfull u hmem htripped) _
    rw [deadlockDetect_running hrun, hu]
    dsimp only
    rw [hq]
    exact ⟨u, hmem, htripped, State.recordDeadlock_spec (hown u hmem) (State.resident_of_running hrun) q⟩

end Sys2Proof.Machine
end

section
/-! PROOFS. The statement of 12_configurations_and_weight_sets.md on ingress flits and drain timeouts. -/
namespace Sys2Proof.Machine

/-! ## Posts (R290) -/

/-- A payload of 128 bytes keeps each of them. -/
theorem payloadBytes_payloadOf {d : List Byte} (h : d.length = 128) : payloadBytes (payloadOf d) = d := by
  have hlt := leNat_lt d
  rw [h, show 256 = 2 ^ 8 from rfl, ← Nat.pow_mul] at hlt
  have hle := natLE_leNat d
  rw [h] at hle
  rw [payloadBytes, payloadOf, List.take_of_length_le (Nat.le_of_eq h), BitVec.toNat_ofNat, Nat.mod_eq_of_lt hlt]
  exact hle

/-- The bytes of CFG_Pp_ING_D. -/
def State.ingData (s : State) (p : Nat) : List Byte := (List.range 32).flatMap (fun j => natLE 4 (s.reg (Reg.CFG_P_ING_D p j)).toNat)

theorem State.length_ingData (s : State) (p : Nat) : (s.ingData p).length = 128 := by simp [State.ingData, List.length_flatMap]

/-- The KIND of a post. -/
def postKind (k : Nat) : FlitKind := if k = 0 then .data else if k = 1 then .dataEnd else .empty

theorem postKind_eq {k : Nat} (hk : k < 3) : postKind k = [.data, .dataEnd, .empty].getD k .data := by
  interval_cases k <;> rfl

/-- The flit that a post adds. -/
def State.postedFlit (s : State) (p : Nat) (v : Word) : IngFlit :=
  ⟨bits v.toNat 0 3, ⟨postKind (bits v.toNat 4 2), Sys2Proof.Machine.payloadOf (s.ingData p)⟩, decide (s.shadowSet p = 3), false⟩

/-- A post that is not taken: its kind is reserved, or the buffer is full. -/
abbrev State.postRefused (s : State) (p : Nat) (v : Word) : Prop := bits v.toNat 4 2 = 3 ∨ 64 ≤ (s.part p).ingress.length

theorem State.ingPost_refused {s : State} {p : Nat} {v : Word} (h : s.postRefused p v) :
    s.ingPost p v = s.setFlag (Reg.CFG_P_STATUS.ING_OVF p) true := if_pos h

theorem State.ingPost_taken {s : State} {p : Nat} {v : Word} (h : ¬ s.postRefused p v) :
    s.ingPost p v = s.modPart p (fun x => { x with ingress := x.ingress ++ [s.postedFlit p v] }) := if_neg h

/-! ## Deliveries (R290, R293) -/

/-- A flit of the attachment enters the link to a queue that reads `k`, for one credit (R43). -/
def State.sendIngress (s : State) (t q : Nat) (k : Queue) (f : Flit) : State :=
  let s := s.setQueue t q { k with attach := k.attach - 1 }
  { s with flights := s.flights ++ [⟨t, 0, q, f, .attachment⟩] }

theorem State.part_congr {s r : State} (h : r.parts = s.parts) (p : Nat) : r.part p = s.part p := by rw [State.part, h]; rfl

theorem State.sendIngress_frame (s : State) (t q : Nat) (k : Queue) (f : Flit) : s.sendIngress t q k f =
    { s with flights := (s.sendIngress t q k f).flights, tiles := (s.sendIngress t q k f).tiles } := rfl

theorem State.queue_sendIngress (s : State) (t q : Nat) (k : Queue) (f : Flit) :
    (s.sendIngress t q k f).queue t q = { k with attach := k.attach - 1 } :=
  (State.queue_congr rfl t q).trans (s.queue_setQueue_same t q _)

/-- The part that held the flit changes as `g` says, and the flit is on its way. -/
theorem State.sendIngress_spec (s : State) (p t q : Nat) (g : Part → Part) (k : Queue) (f : Flit) :
    let r := (s.modPart p g).sendIngress t q k f
    r.flights = s.flights ++ [⟨t, 0, q, f, .attachment⟩] ∧ r.queue t q = { k with attach := k.attach - 1 } ∧ r.part p = g (s.part p) ∧
      r = { s with flights := r.flights, tiles := r.tiles, parts := r.parts } := by
  have hu := (s.onlyRegsParts_modPart p g []).1
  have hpart : (s.modPart p g).part p = g (s.part p) := State.part_setPart_same _ _ _
  have hregs : (s.modPart p g).regs = s.regs := rfl
  have hflights : (s.modPart p g).flights = s.flights := rfl
  generalize s.modPart p g = u at hu hpart hregs hflights ⊢
  refine ⟨congrArg (· ++ _) hflights, u.queue_sendIngress t q k f, (State.part_congr rfl p).trans hpart, ?_⟩
  have hframe := u.sendIngress_frame t q k f
  have hparts : (u.sendIngress t q k f).parts = u.parts := rfl
  generalize u.sendIngress t q k f = r at hframe hparts ⊢
  rw [hframe, hu, hregs]

/-- The link of a channel can carry a flit: the partition runs, the attachment holds a credit, and the port is not fenced (R43, R47). -/
abbrev State.ingressClosed (s : State) (p t q : Nat) : Prop := s.running p = false ∨ (s.queue t q).attach = 0 ∨ s.fenced t 0 = true

section
variable {s : State} {p ch t q : Nat}

theorem ingressDelivery_channel (hch : (s.part p).ingActive[ch]? = some (t, q)) : ingressDelivery p ch s =
    if s.ingressClosed p t q then s
    else match (s.part p).ingress.find? (fun f => f.ch == ch && !f.late) with
      | some f =>
        if f.held && (s.part p).ingress.find? (·.held) != some f then s
        else (s.modPart p (fun x => { x with ingress := x.ingress.erase f })).sendIngress t q (s.queue t q) f.flit
      | none =>
        if (s.part p).marks.contains ch then
          (s.modPart p (fun x => { x with marks := x.marks.erase ch })).sendIngress t q (s.queue t q) ⟨.quench, 0⟩
        else s := by
  unfold ingressDelivery
  extract_lets x
  rw [hch]
  rfl

theorem ingressDelivery_flit {f : IngFlit} (hch : (s.part p).ingActive[ch]? = some (t, q)) (hc : ¬ s.ingressClosed p t q)
    (hf : (s.part p).ingress.find? (fun f => f.ch == ch && !f.late) = some f)
    (hheld : f.held = true → (s.part p).ingress.find? (·.held) = some f) : ingressDelivery p ch s =
      (s.modPart p (fun x => { x with ingress := x.ingress.erase f })).sendIngress t q (s.queue t q) f.flit := by
  have hgo : ¬ (f.held && (s.part p).ingress.find? (·.held) != some f) = true := by
    cases hh : f.held
    · simp
    · simp [hheld hh]
  rw [ingressDelivery_channel hch, if_neg hc, hf]
  exact if_neg hgo

theorem ingressDelivery_mark (hch : (s.part p).ingActive[ch]? = some (t, q)) (hc : ¬ s.ingressClosed p t q)
    (hf : (s.part p).ingress.find? (fun f => f.ch == ch && !f.late) = none) (hm : ch ∈ (s.part p).marks) : ingressDelivery p ch s =
      (s.modPart p (fun x => { x with marks := x.marks.erase ch })).sendIngress t q (s.queue t q) ⟨.quench, 0⟩ := by
  rw [ingressDelivery_channel hch, if_neg hc, hf]
  exact if_pos (List.contains_iff_mem.2 hm)

end

/-! ## Drain timeouts (R295) -/

theorem drainTimeout_found {s : State} {p t : Nat} (hrun : s.running p = true) (harmed : s.shadowSet p = 3)
    (hlimit : s.fld (Reg.CFG_P_CTRL.DRAIN_LIMIT p) ≠ 0) (hdrain : s.fld (Reg.CFG_P_CTRL.DRAIN_LIMIT p) ≤ (s.part p).drain)
    (ht : (s.tilesOf p).find? (fun t => !s.reports t) = some t) : drainTimeout p s = s.faultTile t codeDeadlock (s.drainDetail t) := by
  unfold drainTimeout
  dsimp only
  rw [if_neg (by simp [hrun, harmed, hlimit, hdrain]), ht]

theorem drainTimeout_quiet {s : State} {p : Nat} (h : s.fld (Reg.CFG_P_CTRL.DRAIN_LIMIT p) = 0 ∨
    (s.part p).drain < s.fld (Reg.CFG_P_CTRL.DRAIN_LIMIT p) ∨ ∀ t ∈ s.tilesOf p, s.reports t = true) : drainTimeout p s = s := by
  unfold drainTimeout
  dsimp only
  split
  · rfl
  · next hgo =>
    have hnone : (s.tilesOf p).find? (fun t => !s.reports t) = none := by
      simp only [not_or] at hgo
      obtain ⟨-, -, hlimit, hdrain⟩ := hgo
      have hall := (h.resolve_left hlimit).resolve_left hdrain
      exact List.find?_eq_none.2 fun t ht => by simp [hall t ht]
    rw [hnone]

/-- Settles O36: a post, a delivery and a timeout each have one effect or none, and a closed channel delivers nothing. -/
theorem ingressAndDrainTimeout : Obligations.IngressAndDrainTimeout := by
  have hopen {s : State} {p t q : Nat} (hrun : s.running p = true) (hattach : 0 < (s.queue t q).attach) (hfence : s.fenced t 0 = false) :
      ¬ s.ingressClosed p t q := by
    simp [hrun, hfence, Nat.ne_of_gt hattach]
  refine ⟨⟨fun p v s hl => ⟨s.ingPost p v, (congrArg Host.Outcome.next (State.byFirmware_live hl _ _) :), ?_⟩,
    fun p ch s t q f hch hrun hattach hfence hf hheld => ⟨ingressDelivery p ch s, rfl, ?_⟩,
    fun p ch s t q hch hrun hattach hfence hf hm => ⟨ingressDelivery p ch s, rfl, ?_⟩, fun p ch s t q hch hc => ?_⟩,
    fun p s hrun harmed hown => ⟨fun t hlimit hdrain ht => ⟨drainTimeout p s, rfl, ?_⟩, fun h => ?_⟩⟩
  · split
    · next h =>
      rw [State.ingPost_refused h]
      exact ⟨State.flag_setFlag_same _ _ _ (by dsimp only; decide) rfl, (State.onlyRegs.refl s _).setFlag _ (by simp)⟩
    · next h =>
      have hkind : bits v.toNat 4 2 < 3 := by
        have hlt := bits_lt v.toNat 4 2
        omega
      rw [State.ingPost_taken h]
      exact ⟨rfl, fun q hq => State.part_setPart_ne _ _ hq, s.postedFlit p v, rfl, rfl, rfl, postKind_eq hkind,
        payloadBytes_payloadOf (s.length_ingData p), State.part_setPart_same _ _ _⟩
  · rw [ingressDelivery_flit hch (hopen hrun hattach hfence) hf hheld]
    exact s.sendIngress_spec p t q _ _ _
  · rw [ingressDelivery_mark hch (hopen hrun hattach hfence) hf hm]
    exact s.sendIngress_spec p t q _ _ _
  · exact congrArg Host.Outcome.next ((ingressDelivery_channel hch).trans (if_pos (by tauto)))
  · rw [drainTimeout_found hrun harmed hlimit hdrain ht]
    obtain ⟨x, ⟨hfrozen, hlog, hmem, hregs⟩, hx⟩ := State.exists_faulted_faultTile (hown t (List.mem_of_find?_eq_some ht))
      (State.resident_of_running hrun) codeDeadlock (s.drainDetail t)
    exact ⟨hfrozen, ⟨x, hlog, hx⟩, hmem, hregs⟩
  · exact congrArg Host.Outcome.next (drainTimeout_quiet h)

end Sys2Proof.Machine
end

section
/-! PROOFS. The statement of 03_grid_and_queues.md on grants. -/
namespace Sys2Proof.Machine

theorem State.fld_of_regs {s r : State} (h : r.regs = s.regs) (f : Field) : r.fld f = s.fld f := State.fld_congr f (State.reg_congr h _)

/-- Output `out` takes queue `q` for its winner: a credit less, the turn past it, and its flit on the link (R42, R43). -/
def State.outputWon (s : State) (t q out : Nat) (fl : Flight) : State :=
  { (s.setQueue t q ((s.queue t q).setCredit out ((s.queue t q).credits.toList.getD out 0 - 1))).modTile t
      (fun x => { x with rr := x.rr.setIfInBounds out ((q + 1) % 32) }) with flights := s.flights ++ [fl] }

section
variable (s : State) (t q out : Nat) (fl : Flight)

theorem State.queue_outputWon_same :
    (s.outputWon t q out fl).queue t q = (s.queue t q).setCredit out ((s.queue t q).credits.toList.getD out 0 - 1) := by
  simp [State.outputWon, State.queue, State.tile, State.setQueue, State.modTile, State.setTile]

theorem State.queue_outputWon_ne {q' : Nat} (h : q' ≠ q) : (s.outputWon t q out fl).queue t q' = s.queue t q' := by
  simp [State.outputWon, State.queue, State.tile, State.setQueue, State.modTile, State.setTile, h]

theorem State.rr_outputWon (h : out < 4) : ((s.outputWon t q out fl).tile t).rr.toList.getD out 0 = (q + 1) % 32 := by
  simp [State.outputWon, State.tile, State.setQueue, State.modTile, State.setTile, List.getD_eq_getElem?_getD, h]

end

/-- A flit that leaves a queue for one output changes what the queue holds, whatever its credits. -/
theorem Queue.headSent_setCredit {x : Queue} {h : Held} {rest : List Held} (hx : x.held = h :: rest) (outs out v : Nat) :
    let sent := h.sent ||| BitVec.ofNat 5 (2 ^ out)
    let last := decide (outs &&& sent.toNat = outs)
    (x.setCredit out v).headSent outs out = { x.setCredit out v with
      held := if last then x.held.tail else { h with sent := sent } :: x.held.tail
      quenched := x.quenched || (last && decide (h.kind = .quench)) } := by
  dsimp only
  have hheld : (x.setCredit out v).held = h :: rest := hx
  rw [Queue.headSent, hheld]
  dsimp only
  generalize h.sent ||| BitVec.ofNat 5 (2 ^ out) = sent
  by_cases hlast : outs &&& sent.toNat = outs
  · simp [hlast, hx, Queue.setCredit]
  · simp [hlast, hx, Queue.setCredit]

theorem State.rtDq_flitEcc (s : State) (t q : Nat) (e : FlitEcc) : (s.flitEcc t e).rtDq t q = s.rtDq t q :=
  (s.keepsRegs_flitEcc t e).fld (by simp only [Reg.GRD_RT_A, Reg.GRD_ECC_CNT, Reg.GRD_STATUS, List.mem_cons, List.not_mem_nil, or_false]; omega)

theorem State.rtOut_flitEcc (s : State) (t q : Nat) (e : FlitEcc) : (s.flitEcc t e).rtOut t q = s.rtOut t q :=
  (s.keepsRegs_flitEcc t e).fld (by simp only [Reg.GRD_RT_A, Reg.GRD_ECC_CNT, Reg.GRD_STATUS, List.mem_cons, List.not_mem_nil, or_false]; omega)

section
variable {s : State} {t out q u : Nat} {ecc : FlitEcc} {h : Held}

/-- The winner of an output and its flit (R42). -/
theorem flitGrant_win (hw : s.tileWorks t = true) (hf : (s.rrOrder t out).find? (fun q => s.wants t out q && s.fenced t out) = none)
    (hq : (s.rrOrder t out).find? (s.mayWin t out) = some q) (hu : neighbour t out = some u) (hh : s.headFor t q out = some h) :
    flitGrant t out ecc s = ((s.flitEcc t ecc).outputWon t q out
      ⟨u, opposite out, s.rtDq t q, ⟨h.kind, delivered (s.payloadOf t h) ecc⟩, .switch t q out h.seq h.slot⟩).sendHead t q out := by
  have hdq := s.rtDq_flitEcc t q ecc
  unfold flitGrant
  rw [if_neg (by simp [hw]), hf, hq, hu]
  dsimp only
  rw [hh]
  dsimp only [State.readHead]
  generalize s.flitEcc t ecc = e at *
  rw [← hdq]
  rfl

/-- A queue that waits for a fenced output is recorded (R47). -/
theorem flitGrant_fenced (hw : s.tileWorks t = true)
    (hf : (s.rrOrder t out).find? (fun q => s.wants t out q && s.fenced t out) = some q) : flitGrant t out ecc s = s.routeFault t q out 4 := by
  unfold flitGrant
  rw [if_neg (by simp [hw]), hf]

end

/-- Settles O23: the check of the flit writes registers, the grant its tile, and `sendHead_spec` says what the flit leaves behind. -/
theorem grantSendsTheHeadFlit : Obligations.GrantSendsTheHeadFlit := by
  refine ⟨fun t out ecc s q u h hw hf hq hu hh => ⟨_, congrArg Host.Outcome.next (flitGrant_win hw hf hq hu hh), ?_⟩,
    fun t out ecc s q hw hf => congrArg Host.Outcome.next (flitGrant_fenced hw hf)⟩
  obtain ⟨rest, hheld⟩ := State.held_of_headFor hh
  dsimp only
  generalize hfl : Flight.mk u _ _ _ _ = fl
  have hcheck := s.onlyRegsParts_flitEcc t ecc
  have hkeep := s.keepsRegs_flitEcc t ecc
  have hout := s.rtOut_flitEcc t q ecc
  have hflights : (s.flitEcc t ecc).flights = s.flights := by rw [hcheck.1]
  generalize s.flitEcc t ecc = e at *
  have hqueue (q' : Nat) : e.queue t q' = s.queue t q' := State.queue_congr hcheck.tiles t q'
  have hgq := e.queue_outputWon_same t q out fl
  have hgne (q' : Nat) (hq' : q' ≠ q) := e.queue_outputWon_ne t q out fl hq'
  have hgrr := e.rr_outputWon t q out fl out.isLt
  have hgflights : (e.outputWon t q out fl).flights = s.flights ++ [fl] := by rw [← hflights]; rfl
  have hgmem : (e.outputWon t q out fl).mem = s.mem := Eq.trans rfl hcheck.mem
  have hgregs : (e.outputWon t q out fl).regs = e.regs := rfl
  rw [hqueue] at hgq
  generalize e.outputWon t q out fl = g at *
  have hgout : g.rtOut t q = s.rtOut t q := (State.fld_of_regs hgregs _).trans hout
  obtain ⟨hsw, hregs, htiles⟩ := State.sendHead_spec (s := g) (t := t) (q := q) (h := h) (rest := rest) (by rw [hgq]; exact hheld) out
  have hsent := State.onlyRegs_addFld g (Reg.GRD_FLITS.COUNT t) 1
  generalize g.sendHead t q out = r at *
  have hrq (q' : Nat) : r.queue t q' = (g.setQueue t q ((g.queue t q).headSent (g.rtOut t q) out)).queue t q' := State.queue_congr htiles t q'
  refine ⟨?_, ?_, ?_, ?_, ?_, ?_, ?_⟩
  · rw [hsw]; exact hgflights
  · rw [hrq, State.queue_setQueue_same, hgq, hgout]
    exact Queue.headSent_setCredit hheld _ _ _
  · rw [State.tile_congr htiles, ← hgrr]
    simp [State.setQueue, State.modTile]
  · rw [State.fld_of_regs hregs, State.addFld, State.fld_setFld_same _ _ _ (by dsimp only; decide), State.fld_of_regs hgregs,
      hkeep.fld (by simp only [Reg.GRD_FLITS, Reg.GRD_ECC_CNT, Reg.GRD_STATUS, List.mem_cons, List.not_mem_nil, or_false]; omega)]
  · intro q' hq'
    rw [hrq, State.queue_setQueue_ne _ _ _ hq', hgne q' hq', hqueue]
  · rw [hsw]; exact hgmem
  · intro o ho
    have hne : o ∉ [Reg.GRD_FLITS t] ∧ o ∉ [Reg.GRD_ECC_CNT t, Reg.GRD_STATUS t] := by
      simp only [List.mem_cons, List.not_mem_nil, or_false, not_or] at ho ⊢
      exact ho
    rw [State.reg_congr hregs, hsent.2 o hne.1, State.reg_congr hgregs, hkeep o hne.2]

end Sys2Proof.Machine
end

section
/-! PROOFS. The statement of 09_tiers_and_movers.md on the start of stream entries and on release flits. -/
namespace Sys2Proof.Machine

/-! ## Entries and commands that wait (R219, R227) -/

theorem foldl_eq_self {α β : Type} (f : α → β → α) (a : α) : ∀ l : List β, (∀ x ∈ l, f a x = a) → l.foldl f a = a
  | [], _ => rfl
  | x :: l, h => by
    rw [List.foldl_cons, h x (by simp)]
    exact foldl_eq_self f a l fun y hy => h y (by simp [hy])

section
variable {s : State} {b n : Nat}

/-- An entry at the front that is delivered is not passed. -/
theorem State.strFlushAll_tile (h : ∀ x, (s.stream b n).started.head? = some x → x.kind = .tile) : s.strFlushAll b n = s := by
  unfold State.strFlushAll
  cases hl : (s.stream b n).started with
  | nil => rfl
  | cons x l =>
    rw [List.length_cons, State.strFlush, hl]
    dsimp only
    rw [h x (by rw [hl]; rfl)]

/-- No PREF STOP at a head: none completes. -/
theorem State.stopsDone_other (h : ∀ i < 4, ∀ c, (s.mover (4 * b + i)).queue.head? = some c → c.op = 0xA2 → c.xfm ≠ 2) :
    s.stopsDone b n = s := by
  refine foldl_eq_self _ _ _ fun i hi => ?_
  split
  · next c l hq => exact if_neg fun hc => h i (List.mem_range.1 hi) c (by rw [hq]; rfl) hc.1 hc.2.1
  · rfl

theorem State.passAll_quiet (htile : ∀ k < 16, ∀ x, (s.stream b k).started.head? = some x → x.kind = .tile)
    (hstop : ∀ i < 4, ∀ c, (s.mover (4 * b + i)).queue.head? = some c → c.op = 0xA2 → c.xfm ≠ 2) : s.passAll b = s := by
  refine foldl_eq_self _ _ _ fun k hk => ?_
  rw [State.strFlushAll_tile (htile k (List.mem_range.1 hk)), State.stopsDone_other hstop]

end

/-! ## The next entry starts (R227, R229) -/

theorem streamEntryStart_next {s : State} {b p n : Nat} {f : Forming} (hp : s.bayPart b = some p) (hrun : s.running p = true)
    (hgrant : s.granted p = true) (hpass : s.passAll b = s) (hn : s.strWinner b = some n) (hredo : (s.stream b n).redo = [])
    (hroom : (s.mover (s.idlest b)).inflight.length < 8) (hcmd : s.cmdFirst (s.idlest b) (s.strDeadline b n) = false)
    (hitem : runU (U.startItem b n (s.stream b n).next) ⟨s.idlest b, p, false, false, false⟩ .quiet s = .ok (.tile, f)) :
    streamEntryStart b s =
      (f.s.strNext b n).startStream b n (s.idlest b) ⟨(s.stream b n).pass, (s.stream b n).next, .tile⟩ := by
  unfold streamEntryStart
  rw [hp]
  dsimp only
  rw [if_neg (by simp [hrun]), hpass, hn]
  dsimp only
  rw [if_neg (by simp [hrun, hgrant, hcmd, hroom]), hredo]
  dsimp only
  rw [hitem]

/-- Which entry is the next changes neither what the stream holds nor where its slots begin. -/
theorem State.strNext_spec (s : State) (b n : Nat) :
    ∃ y : Stream, s.strNext b n = s.setStream b n y ∧ y.started = (s.stream b n).started ∧ y.base = (s.stream b n).base := by
  refine ⟨_, rfl, ?_⟩
  dsimp only
  split
  · exact ⟨rfl, rfl⟩
  · exact ⟨rfl, rfl⟩

theorem State.stream_congr {s r : State} (h : r.streams = s.streams) (b n : Nat) : r.stream b n = s.stream b n := by
  rw [State.stream, h]; rfl

theorem State.mover_congr {s r : State} (h : r.movers = s.movers) (m : Nat) : r.mover m = s.mover m := by rw [State.mover, h]; rfl

section
variable (s : State) (b n : Nat)

theorem State.onlyRegs_strSettle :
    s.onlyRegs (s.strSettle b n) [Reg.MOV_STR_STAT (20 * b) n, Reg.MOV_STR_POS (20 * b) n] := by
  have hpos : s.onlyRegs (s.setFld (Reg.MOV_STR_POS.COMPLETE (20 * b) n) (s.stream b n).at_)
      [Reg.MOV_STR_STAT (20 * b) n, Reg.MOV_STR_POS (20 * b) n] := (State.onlyRegs.refl s _).setFld _ (by simp)
  unfold State.strSettle
  dsimp only
  split
  · exact hpos.setFld _ (by simp)
  · exact hpos

theorem State.strFilled_strSettle : (s.strSettle b n).strFilled b n = s.strFilled b n := by
  have hpos (v : Nat) : (s.setFld (Reg.MOV_STR_POS.COMPLETE (20 * b) n) v).strFilled b n = s.strFilled b n :=
    State.fld_setFld_ne _ _ _ _ (by simp only [Reg.MOV_STR_STAT, Reg.MOV_STR_POS]; omega)
  have hstate (u : State) (v : Nat) : (u.setFld (Reg.MOV_STR_STAT.STATE (20 * b) n) v).strFilled b n = u.strFilled b n :=
    State.fld_setFld_disjoint _ (Reg.MOV_STR_STAT.STATE (20 * b) n) (Reg.MOV_STR_STAT.FILLED (20 * b) n) _ rfl (by dsimp only; decide)
      (by dsimp only; decide)
  unfold State.strSettle
  dsimp only
  split
  · rw [hstate, hpos]
  · rw [hpos]

/-- A delivered entry takes the slot after those filled. -/
theorem State.startStream_spec (m pass i : Nat) :
    let r := s.startStream b n m ⟨pass, i, .tile⟩
    (r.stream b n).started = (s.stream b n).started ++ [⟨pass, i, .tile⟩] ∧
      (r.mover m).inflight =
        (s.mover m).inflight ++ [.stream n pass i (((s.stream b n).base + s.strFilled b n) % s.strSlots b n)] ∧
      r.strFilled b n = (s.strFilled b n + 1) % 2 ^ (Reg.MOV_STR_STAT.FILLED (20 * b) n).width ∧ r.mem = s.mem ∧
      s.keepsRegs r [Reg.MOV_STR_STAT (20 * b) n, Reg.MOV_STR_POS (20 * b) n] := by
  let y : Stream := { s.stream b n with started := (s.stream b n).started ++ [⟨pass, i, .tile⟩] }
  let x : Mover := { s.mover m with
    inflight := (s.mover m).inflight ++ [.stream n pass i (((s.stream b n).base + s.strFilled b n) % s.strSlots b n)] }
  have hr : s.startStream b n m ⟨pass, i, .tile⟩ =
      (((s.setStream b n y).setMover m x).setFld (Reg.MOV_STR_STAT.FILLED (20 * b) n) (s.strFilled b n + 1)).strSettle b n := by
    unfold State.startStream State.modStream State.modMover
    dsimp only
    rw [State.stream_setStream_same]
    rfl
  have hstream : ((s.setStream b n y).setMover m x).stream b n = y :=
    (State.stream_congr (State.setMover_streams _ _ _) b n).trans (State.stream_setStream_same s b n y)
  have hmover : ((s.setStream b n y).setMover m x).mover m = x := State.mover_setMover_same _ m x
  have hmem : ((s.setStream b n y).setMover m x).mem = s.mem := rfl
  have hregs : ((s.setStream b n y).setMover m x).regs = s.regs := rfl
  dsimp only
  rw [hr]
  generalize (s.setStream b n y).setMover m x = v at *
  have hfill := v.fld_setFld_same (Reg.MOV_STR_STAT.FILLED (20 * b) n) (s.strFilled b n + 1) (by dsimp only; decide)
  have hset : v.onlyRegs (v.setFld (Reg.MOV_STR_STAT.FILLED (20 * b) n) (s.strFilled b n + 1))
      [Reg.MOV_STR_STAT (20 * b) n, Reg.MOV_STR_POS (20 * b) n] := (State.onlyRegs.refl v _).setFld _ (by simp)
  generalize v.setFld (Reg.MOV_STR_STAT.FILLED (20 * b) n) (s.strFilled b n + 1) = u at *
  have hsettle := u.onlyRegs_strSettle b n
  have hfilled := u.strFilled_strSettle b n
  generalize u.strSettle b n = r at *
  obtain ⟨hall, hkeep⟩ := hset.trans hsettle
  have hrstream : r.stream b n = v.stream b n := State.stream_congr (by rw [hall]) b n
  have hrmover : r.mover m = v.mover m := State.mover_congr (by rw [hall]) m
  refine ⟨?_, ?_, hfilled.trans hfill, ?_, (State.keepsRegs_of_regs hregs []).trans hkeep (by simp) (by simp)⟩
  · rw [hrstream, hstream]
  · rw [hrmover, hmover]
  · rw [hall]; exact hmem

end

/-! ## Release flits (R227, R235) -/

/-- A fault of a mover is one of its partition. -/
theorem State.exists_faulted_moverFault {s : State} {p : Nat} (h : s.flag (Reg.PRT_P_STAT.RES_VALID p) = true)
    (m code kind level va acc info : Nat) : ∃ x, s.Faulted (s.moverFault m p code kind level va acc info) p x ∧ x.code = code ∧ x.part = p ∧
      x.detail = kind + level * 2 ^ 8 + acc * 2 ^ 16 + info % 2 ^ 32 * 2 ^ 32 := by
  have hint := s.interruptIf_eq (decide (m < 48) && s.flag (Reg.MOV_CTRL.INT_EN (20 * (m / 4)))) 236
  unfold State.moverFault
  dsimp only
  generalize s.interruptIf _ 236 = u at *
  have hu : u.flag (Reg.PRT_P_STAT.RES_VALID p) = true := by rw [hint]; exact h
  exact ⟨_, (State.faulted_faultPart hu _).of_hidden (by rw [hint]) (by rw [hint]) (by rw [hint]), rfl, rfl, rfl⟩

section
variable {s : State} {b p : Nat} {rd : ReleaseRead} {h : Held}

/-- Slots are released (R227). -/
def State.slotsFreed (s : State) (b n q k : Nat) : State :=
  let u := (s.takeLocal (20 * b) q).setFld (Reg.MOV_STR_STAT.FILLED (20 * b) n) (s.strFilled b n - k)
  u.modStream b n (fun x => { x with base := (x.base + k) % u.strSlots b n, lastRelease := u.fcycles })

/-- A flit with a count is taken or is a fault. -/
theorem streamRelease_count {k : Nat} (hp : s.bayPart b = some p) (hrun : s.running p = true)
    (hv : s.flag (Reg.MOV_STR_A_CFG.VALID (20 * b) rd.stream) = true)
    (hh : s.headFor (20 * b) (s.fld (Reg.MOV_STR_A_CFG.RQ (20 * b) rd.stream)) 4 = some h) (hkind : h.kind = .data ∨ h.kind = .dataEnd)
    (hk : (delivered (s.payloadOf (20 * b) h) rd.flit).toNat % 2 ^ 16 = k) :
    let e := s.flitEcc (20 * b) rd.flit
    streamRelease b rd s = if k = 0 ∨ e.strFilled b rd.stream < k
      then e.took.took.moverFault (4 * b + e.fresh % 4) p codeViolation 0x49 0 e.took.fresh 0 0
      else e.slotsFreed b rd.stream (s.fld (Reg.MOV_STR_A_CFG.RQ (20 * b) rd.stream)) k := by
  have hquench : h.kind ≠ .quench := by obtain hk | hk := hkind <;> simp [hk]
  have hempty : h.kind ≠ .empty := by obtain hk | hk := hkind <;> simp [hk]
  unfold streamRelease
  extract_lets e t n q
  rw [hp, hh]
  dsimp only [State.readHead]
  rw [if_neg (by simp [hrun, hquench, t, n, hv]), if_neg hempty, hk]
  rfl

end

/-- The flit leaves its queue, and the slots become free. -/
theorem State.slotsFreed_spec {s : State} {b n q : Nat} {h : Held} {rest : List Held} (hh : (s.queue (20 * b) q).held = h :: rest) (k : Nat) :
    let r := s.slotsFreed b n q k
    r.mem = s.mem ∧ r.strFilled b n = s.strFilled b n - k ∧
      r.stream b n = { s.stream b n with base := ((s.stream b n).base + k) % s.strSlots b n, lastRelease := s.fcycles } ∧
      s.keepsRegs r [Reg.GRD_FLITS (20 * b), Reg.MOV_STR_STAT (20 * b) n] := by
  obtain ⟨hsw, hregs, -⟩ := State.sendHead_spec hh 4
  have hcount := s.onlyRegs_addFld (Reg.GRD_FLITS.COUNT (20 * b)) 1
  have hkeep : s.keepsRegs (s.takeLocal (20 * b) q) [Reg.GRD_FLITS (20 * b), Reg.MOV_STR_STAT (20 * b) n] :=
    (hcount.2.trans (State.keepsRegs_of_regs hregs []) (List.Subset.refl _) (by simp)).mono (by simp)
  have hfilled : s.strFilled b n < 2 ^ 4 := bits_lt _ _ _
  dsimp only
  unfold State.slotsFreed State.takeLocal at *
  generalize s.sendHead (20 * b) q 4 = v at *
  have hset : v.onlyRegs (v.setFld (Reg.MOV_STR_STAT.FILLED (20 * b) n) (s.strFilled b n - k))
      [Reg.GRD_FLITS (20 * b), Reg.MOV_STR_STAT (20 * b) n] := (State.onlyRegs.refl v _).setFld _ (by simp)
  have hfill := v.fld_setFld_same (Reg.MOV_STR_STAT.FILLED (20 * b) n) (s.strFilled b n - k) (by dsimp only; decide)
  generalize v.setFld (Reg.MOV_STR_STAT.FILLED (20 * b) n) (s.strFilled b n - k) = u at *
  obtain ⟨hu, hku⟩ := hset
  have hk := hkeep.trans hku (List.Subset.refl _) (List.Subset.refl _)
  have hstream : u.stream b n = s.stream b n := State.stream_congr (by rw [hu, hsw]) b n
  have hcycles : u.fcycles = s.fcycles := by rw [hu, hsw]
  have hslots : u.strSlots b n = s.strSlots b n := congrArg (· + 1) (hk.fld (f := Reg.MOV_STR_A_CFG.SLOTS (20 * b) n) (by
    simp only [Reg.MOV_STR_A_CFG, Reg.GRD_FLITS, Reg.MOV_STR_STAT, List.mem_cons, List.not_mem_nil, or_false]; omega))
  refine ⟨?_, ?_, ?_, hk.trans (State.keepsRegs_of_regs (State.setStream_regs _ _ _ _) []) (List.Subset.refl _) (by simp)⟩
  · rw [State.modStream, State.setStream_mem, hu, hsw]
  · exact (State.fld_of_regs (State.setStream_regs _ _ _ _) _).trans (hfill.trans (Nat.mod_eq_of_lt (Nat.lt_of_le_of_lt (Nat.sub_le _ _) hfilled)))
  · dsimp only [State.modStream]
    rw [State.stream_setStream_same, hstream, hcycles, hslots]

/-- Settles O46: an entry that starts takes the slot after those filled, and a release flit frees slots or is a fault of its partition. -/
theorem streamsStartAndRelease : Obligations.StreamsStartAndRelease := by
  refine ⟨fun b s p n f hp hrun hgrant htile hstop hn hredo => ?_, fun b rd s p h hp hrun hv => ?_⟩
  · intro m i pass hroom hcmd hitem
    refine ⟨_, congrArg Host.Outcome.next
      (streamEntryStart_next hp hrun hgrant (State.passAll_quiet htile hstop) hn hredo hroom hcmd hitem), ?_⟩
    obtain ⟨y, hy, hstarted, hbase⟩ := f.s.strNext_spec b n
    have hspec := (f.s.strNext b n).startStream_spec b n m pass i
    have hregs : (f.s.strNext b n).regs = f.s.regs := by rw [hy]; rfl
    have hmem : (f.s.strNext b n).mem = f.s.mem := by rw [hy]; rfl
    have hmover : (f.s.strNext b n).mover m = f.s.mover m := State.mover_congr (by rw [hy]; rfl) m
    have hstream : (f.s.strNext b n).stream b n = y := by rw [hy, State.stream_setStream_same]
    generalize f.s.strNext b n = u at *
    have hfilled : u.strFilled b n = f.s.strFilled b n := State.fld_of_regs hregs _
    have hslots : u.strSlots b n = f.s.strSlots b n := congrArg (· + 1) (State.fld_of_regs hregs _)
    rw [hstream, hstarted, hbase, hmover, hmem, hfilled, hslots] at hspec
    obtain ⟨hs, hm, hf, hmem', hkeep⟩ := hspec
    exact ⟨hs, hm, hf, hmem', (State.keepsRegs_of_regs hregs []).trans hkeep (by simp) (List.Subset.refl _)⟩
  · intro t n q hh hkind k
    have hcount : (delivered (s.payloadOf (20 * b.val) h) rd.flit).toNat % 2 ^ 16 = k := rfl
    refine ⟨_, congrArg Host.Outcome.next (streamRelease_count hp hrun hv hh hkind hcount), ?_⟩
    have hcheck := s.onlyRegsParts_flitEcc t rd.flit
    have hkeep := s.keepsRegs_flitEcc t rd.flit
    obtain ⟨rest, hheld⟩ := State.held_of_headFor hh
    clear_value k
    dsimp only
    generalize s.flitEcc (20 * b.val) rd.flit = e at hcheck hkeep ⊢
    have hlow : ∀ o ∈ [Reg.GRD_ECC_CNT t, Reg.GRD_STATUS t], o < tileBase t + 0x1000 := by
      simp only [Reg.GRD_ECC_CNT, Reg.GRD_STATUS, List.mem_cons, List.not_mem_nil, or_false, forall_eq_or_imp, forall_eq]
      omega
    have hmov {f : Field} (hf : tileBase t + 0x1000 ≤ f.off) : e.fld f = s.fld f := hkeep.fld fun ho => by
      have := hlow _ ho
      omega
    have hfilled : e.strFilled b n = s.strFilled b n := hmov (by simp only [Reg.MOV_STR_STAT, t]; omega)
    have hslots : e.strSlots b n = s.strSlots b n := congrArg (· + 1) (hmov (by simp only [Reg.MOV_STR_A_CFG, t]; omega))
    have hstream : e.stream b n = s.stream b n := State.stream_congr (by rw [hcheck.1]) b n
    have hcycles : e.fcycles = s.fcycles := by rw [hcheck.1]
    rw [hfilled]
    by_cases hk : 0 < k ∧ k ≤ s.strFilled b n
    · obtain ⟨hmem, hfree, hbase, hregs⟩ := State.slotsFreed_spec (s := e) (b := b) (n := n) (q := q)
        (by rw [State.queue_congr hcheck.tiles]; exact hheld) k
      rw [if_neg (by omega), if_pos hk]
      rw [hfilled] at hfree
      rw [hstream, hslots, hcycles] at hbase
      exact ⟨hmem.trans hcheck.mem, hfree, hbase, hcheck.2.trans hregs (List.subset_append_right _ _) (List.subset_append_left _ _)⟩
    · rw [if_pos (by omega), if_neg hk]
      have hp12 := State.bayPart_lt hp
      have htook : s.keepsRegs e.took.took [Reg.GRD_ECC_CNT t, Reg.GRD_STATUS t] :=
        hkeep.trans (State.keepsRegs_of_regs (e.took.took_regs.trans e.took_regs) []) (List.Subset.refl _) (by simp)
      have hres : e.took.took.flag (Reg.PRT_P_STAT.RES_VALID p) = true := (htook.flag (f := Reg.PRT_P_STAT.RES_VALID p) (by
        simp only [Reg.PRT_P_STAT, Reg.GRD_ECC_CNT, Reg.GRD_STATUS, tileBase, List.mem_cons, List.not_mem_nil, or_false]; omega)).trans
        (State.resident_of_running hrun)
      obtain ⟨x, hx, hcode, hpart, hdetail⟩ := State.exists_faulted_moverFault hres (4 * b + e.fresh % 4) codeViolation 0x49 0 e.took.fresh 0 0
      exact ⟨hx.mem.trans hcheck.mem, hx.frozen, x, hx.log.trans (by rw [hcheck.1]; rfl), hcode, hpart, by norm_num [hdetail]⟩

end Sys2Proof.Machine
end

section
/-! PROOFS. The refutation of the statement on units of RECV, SEND, RNG and BRD: a BRD whose register is one that its own wait changes. -/
namespace Sys2Proof.Machine

/-- A word of BRD whose DST, 0xCC, names no register of Table 04-2: as a stream register it is the one at the offset of BIL_CONFLICT_LO. -/
def conflictBrd : Nat := 0x80 * 2 ^ 56 + 0xCC * 2 ^ 44

/-- Partition 0 runs on bay 0, E2 of the Billet tile 5 is busy with that word, and bank 0 is the program's. -/
def conflictFields : List (Field × Nat) :=
  [(Reg.SEC_STATUS.BOOTED, 1), (Reg.PRT_P_STAT.STATE 0, 2), (Reg.PRT_P_STAT.RES_VALID 0, 1), (Reg.PRT_P_BAYS.COUNT 0, 1),
    (Reg.SEQ_STATUS.STATE 5, 1), (Reg.SEQ_STATUS.BUSY 5, 4), (Reg.BIL_OWN.OWNER 5 0, 1)]

/-- The word reads the 8 bytes at address 0. -/
def conflictState : State :=
  ((conflictFields.foldl (fun (s : State) x => s.setFld x.1 x.2)
      { State.reset with pins := { Pins.reset with powered := true, railsOn := true, clocksOn := true } }).setReg64 (Reg.SEQ_INST 5 2 0)
    conflictBrd).setEngine 5 2 ⟨0, [0], BitVec.ofNat 64 conflictBrd, []⟩

/-- The unit meets no error, and waited one f-cycle for the mover port (R154). -/
def waitedOnce : UnitEnv := ⟨1, 1, .clean, .clean, 0, []⟩

/-- The bytes read are 0, and BIL_CONFLICT counts the f-cycle after they were written to its offset. -/
theorem operand_engineUnit_conflictState : (engineUnit 5 2 waitedOnce conflictState).operand 5 0xCC = 1 ∧
    readsBack 0xCC (conflictState.lnum 5 0 8) = 0 := by decide +kernel

/-- Refutes O41: the count of R154 changes the register that the unit of BRD has written. No word that decodes has such a DST, but the
statement speaks of every word that an engine holds. -/
theorem not_engineUnitsDoOneUnit : ¬ Obligations.EngineUnitsDoOneUnit := by
  rintro ⟨-, -, -, h⟩
  obtain ⟨r, hr, hdst, -⟩ := h 5 waitedOnce conflictState conflictBrd .direct 0 (by decide +kernel) (by decide +kernel) rfl (by decide +kernel)
    (by decide +kernel) (by decide) rfl rfl (by decide +kernel) (by decide +kernel) (by decide) (by decide +kernel) (by decide +kernel)
    (by decide +kernel)
  obtain rfl : engineUnit 5 2 waitedOnce conflictState = r := Host.Outcome.next.inj hr
  obtain ⟨hone, hzero⟩ := operand_engineUnit_conflictState
  have heq : (engineUnit 5 2 waitedOnce conflictState).operand 5 0xCC = readsBack 0xCC (conflictState.lnum 5 0 8) := hdst
  rw [hone, hzero] at heq
  exact absurd heq (by decide)

end Sys2Proof.Machine
end

section
/-! PROOFS. The sequencer: issue, the registers that a word writes, and the engine that holds it (R61, R62, R64, R65, R72, R88). -/
namespace Sys2Proof.Machine

theorem State.onlyRegs.mono {s r : State} {l m : List Nat} (h : s.onlyRegs r l) (hl : l ⊆ m) : s.onlyRegs r m := ⟨h.1, h.2.mono hl⟩

theorem State.onlyRegs_setReg64 (s : State) (lo v : Nat) : s.onlyRegs (s.setReg64 lo v) [lo, lo + 4] :=
  ((State.onlyRegs.refl s _).setReg _ (by simp)).setReg _ (by simp)

/-! ## Registers named by specifiers (R64, R65) -/

/-- The registers of a specifier lie in one of the three ranges of Table 04-2. -/
theorem mem_destRegs {t n o : Nat} (hn : specOk n = true) (ho : o ∈ destRegs t n) :
    (0 < n ∧ n < 0x20 ∧ (o = tileBase t + 0x1100 + 8 * n ∨ o = tileBase t + 0x1100 + 8 * n + 4)) ∨
      (0x20 < n ∧ n < 0x28 ∧ o = tileBase t + 0x100C) ∨ (0x40 ≤ n ∧ n < 0x80 ∧ o = tileBase t + 0x1100 + 4 * n) := by
  simp only [specOk, Bool.or_eq_true, Bool.and_eq_true, decide_eq_true_eq] at hn
  unfold destRegs at ho
  split at ho
  · cases ho
  · split at ho
    · simp only [List.mem_cons, List.not_mem_nil, or_false, Reg.SEQ_G] at ho
      omega
    · split at ho
      · simp only [List.mem_cons, List.not_mem_nil, or_false, Reg.SEQ_PRED] at ho
        omega
      · simp only [List.mem_cons, List.not_mem_nil, or_false, Reg.SEQ_S] at ho
        omega

/-- What a specifier reads is what its registers hold. -/
theorem State.operand_congr {s r : State} {t n : Nat} (h : ∀ o ∈ destRegs t n, r.reg o = s.reg o) : r.operand t n = s.operand t n := by
  unfold State.operand
  unfold destRegs at h
  split
  · next hg =>
    unfold State.greg
    split
    · rfl
    · next h0 =>
      rw [if_neg (by omega), if_pos hg] at h
      exact State.reg64_congr (h _ (by simp)) (h _ (by simp))
  · next hg =>
    split
    · next hp =>
      unfold State.pred
      by_cases h0 : n = 0x20
      · simp [h0]
      · rw [if_neg (by omega), if_neg hg, if_pos hp] at h
        rw [h _ (by simp)]
    · next hp =>
      rw [if_neg (by omega), if_neg hg, if_neg hp] at h
      exact congrArg BitVec.toNat (h _ (by simp))

section
variable (s : State) (t : Nat)

theorem State.onlyRegs_setOperand (n v : Nat) : s.onlyRegs (s.setOperand t n v) (destRegs t n) := by
  unfold State.setOperand destRegs
  split
  · exact .refl s _
  · split
    · exact s.onlyRegs_setReg64 _ _
    · split
      · exact (State.onlyRegs.refl s _).setFlag _ (by simp)
      · exact (State.onlyRegs.refl s _).setReg _ (by simp)

/-- A predicate of the file is a flag of its register. -/
theorem State.pred_eq_flag {i : Nat} (hi : i ≠ 0) : s.pred t i = s.flag ⟨Reg.SEQ_PRED t, i, 1⟩ := by
  have h0 : (i == 0) = false := by simp [hi]
  rw [State.pred, h0, Bool.false_or, State.flag, State.fld, bits, bitOf]
  rfl

theorem State.operand_setOperand_same {n : Nat} (hn : specOk n = true) (v : Nat) : (s.setOperand t n v).operand t n = readsBack n v := by
  simp only [specOk, Bool.or_eq_true, Bool.and_eq_true, decide_eq_true_eq] at hn
  by_cases h0 : n = 0
  · subst h0; rfl
  by_cases h20 : n = 0x20
  · subst h20; rfl
  by_cases hg : n < 0x20
  · simp only [State.setOperand, State.operand, readsBack, h0, h20, hg, or_self, if_true, if_false]
    rw [State.greg, if_neg h0, State.reg64_setReg64, Nat.mod_mod]
  by_cases hp : n < 0x28
  · simp only [State.setOperand, State.operand, readsBack, h0, h20, hg, hp, or_self, if_true, if_false]
    rw [State.pred_eq_flag _ _ (by omega), State.flag_setFlag_same _ _ _ (by dsimp only; omega) rfl]
    unfold ofBool
    simp only [decide_eq_true_eq]
    split <;> omega
  · have hmask : v % strmMask ((n - 0x40) % 4) < 2 ^ 32 := by
      unfold strmMask
      split <;> omega
    simp only [State.setOperand, State.operand, readsBack, h0, h20, hg, hp, or_self, if_false]
    rw [State.strm, State.reg_setReg_same, BitVec.toNat_ofNat, Nat.mod_eq_of_lt hmask]

theorem State.operand_setOperand_ne {m n : Nat} (hm : specOk m = true) (hn : specOk n = true) (h : m ≠ n) (v : Nat) :
    (s.setOperand t n v).operand t m = s.operand t m := by
  by_cases hp : (0x20 < m ∧ m < 0x28) ∧ 0x20 < n ∧ n < 0x28
  · obtain ⟨⟨hm0, hm1⟩, hn0, hn1⟩ := hp
    have hset : s.setOperand t n v = s.setFlag ⟨Reg.SEQ_PRED t, n - 0x20, 1⟩ (v % 2 = 1) := by
      rw [State.setOperand, if_neg (by omega), if_neg (by omega), if_pos hn1]
    have hread (u : State) : u.operand t m = ofBool (u.flag ⟨Reg.SEQ_PRED t, m - 0x20, 1⟩) := by
      rw [State.operand, if_neg (by omega), if_pos hm1, State.pred_eq_flag _ _ (by omega)]
    rw [hset, hread, hread, State.flag_setFlag_disjoint _ ⟨Reg.SEQ_PRED t, n - 0x20, 1⟩ ⟨Reg.SEQ_PRED t, m - 0x20, 1⟩ _ rfl
      (by dsimp only; omega) (by dsimp only; omega)]
  · refine State.operand_congr fun o ho => (s.onlyRegs_setOperand t n v).2 o fun ho' => ?_
    have h1 := mem_destRegs hm ho
    have h2 := mem_destRegs hn ho'
    omega

end

/-! ## Issue (R61) -/

/-- The state in which a word executes: a corrected error of its fetch is counted (R87). -/
def State.fetched (s : State) (t : Nat) (fetch : Ecc) : State := if fetch = .corrected then s.satFld (Reg.SEQ_IMEM.CE t) 1 else s

theorem State.onlyRegs_fetched (s : State) (t : Nat) (fetch : Ecc) : s.onlyRegs (s.fetched t fetch) (fetchRegs t fetch) := by
  unfold State.fetched fetchRegs
  split
  · exact (State.onlyRegs.refl s _).setFld _ (by simp)
  · exact .refl s _

theorem mem_fetchRegs {t o : Nat} {fetch : Ecc} (h : o ∈ fetchRegs t fetch) : o = Reg.SEQ_IMEM t := by
  unfold fetchRegs at h
  split at h
  · exact List.mem_singleton.1 h
  · cases h

/-- A word that executes does what its body says. -/
theorem State.issue_executes {s : State} {t w : Nat} {fetch : Ecc} {mine : Nat → Bool} (h : s.Executes t w) (hf : fetch ≠ .uncorrectable)
    (hm : mine w = true) (body : Nat → State → State) : s.issue t fetch mine body = body w (s.fetched t fetch) := by
  unfold State.issue
  have hstate := h.state
  have hknown : ¬ (wPred w ≠ 0 ∧ (s.pendingWrites t allEngines).contains (predSpec (wPred w)) = true) := by
    rintro ⟨h0, hp⟩
    obtain h' | h' := h.known
    · exact h0 h'
    · rw [h'] at hp; cases hp
  rw [if_neg (by rw [h.runs, h.quench]; simp only [Bool.true_eq_false, Bool.false_eq_true, or_false, false_or]; omega), if_neg hf]
  dsimp only
  rw [h.word, h.decodes]
  dsimp only
  rw [if_neg (by simp [hm]), if_neg hknown, if_neg (by simp [h.holds]), if_neg (by simp [h.free, h.engine]), if_neg (by simp [h.body])]
  rfl

/-- A word that decodes names registers alone. -/
theorem specOk_of_decodes {ty w : Nat} {i : OpInfo} (h : decodeFault ty w = none) (hi : opInfo ty w = some i) :
    ∀ n ∈ i.specs, specOk n = true := by
  unfold decodeFault at h
  rw [hi] at h
  dsimp only at h
  split at h
  · cases h
  · split at h
    · cases h
    · next hspec =>
      intro n hn
      by_contra hbad
      exact hspec (.inr (List.any_eq_true.2 ⟨n, hn, by simp [hbad]⟩))

/-! ## STATE, PC and BUSY (R62, R72) -/

theorem bitOf_eq_testBit (v i : Nat) : bitOf v i = v.testBit i := by
  rw [bitOf, Nat.testBit_eq_decide_div_mod_eq]
  rfl

/-- Bits that are set stay set as others are set. -/
theorem bitOf_or (v x i : Nat) : bitOf (v ||| x) i = (bitOf v i || bitOf x i) := by simp only [bitOf_eq_testBit, Nat.testBit_or]

theorem bitOf_two_pow_self (i : Nat) : bitOf (2 ^ i) i = true := by rw [bitOf_eq_testBit, Nat.testBit_two_pow_self]

section
variable (s : State) (t : Nat)

theorem State.seqState_setSeqState {n : Nat} (hn : n < 16) : (s.setSeqState t n).seqState t = n :=
  (State.fld_setFld_same s (Reg.SEQ_STATUS.STATE t) n (by dsimp only; decide)).trans (Nat.mod_eq_of_lt hn)

theorem State.pc_setSeqState (n : Nat) : (s.setSeqState t n).pc t = s.pc t :=
  State.fld_setFld_disjoint s (Reg.SEQ_STATUS.STATE t) (Reg.SEQ_STATUS.PC t) n rfl (by dsimp only; decide) (by dsimp only; decide)

theorem State.busy_setSeqState (n : Nat) : (s.setSeqState t n).fld (Reg.SEQ_STATUS.BUSY t) = s.fld (Reg.SEQ_STATUS.BUSY t) :=
  State.fld_setFld_disjoint s (Reg.SEQ_STATUS.STATE t) (Reg.SEQ_STATUS.BUSY t) n rfl (by dsimp only; decide) (by dsimp only; decide)

theorem State.onlyRegs_setSeqState (n : Nat) : s.onlyRegs (s.setSeqState t n) [Reg.SEQ_STATUS t] := (State.onlyRegs.refl s _).setFld _ (by simp)

/-- A word that retires steps the program counter, and the sequencer runs on. -/
theorem State.retire_spec : (s.retire t).pc t = (s.pc t + 1) % 4096 ∧ (s.retire t).seqState t = 1 ∧
    (s.retire t).fld (Reg.SEQ_STATUS.BUSY t) = s.fld (Reg.SEQ_STATUS.BUSY t) ∧ s.onlyRegs (s.retire t) [Reg.SEQ_STATUS t] := by
  unfold State.retire State.setPc
  have hpc := s.fld_setFld_same (Reg.SEQ_STATUS.PC t) ((s.pc t + 1) % 4096) (by dsimp only; decide)
  have hbusy := s.fld_setFld_disjoint (Reg.SEQ_STATUS.PC t) (Reg.SEQ_STATUS.BUSY t) ((s.pc t + 1) % 4096) rfl (by dsimp only; decide)
    (by dsimp only; decide)
  have honly : s.onlyRegs (s.setFld (Reg.SEQ_STATUS.PC t) ((s.pc t + 1) % 4096)) [Reg.SEQ_STATUS t] :=
    (State.onlyRegs.refl s _).setFld _ (by simp)
  generalize s.setFld (Reg.SEQ_STATUS.PC t) ((s.pc t + 1) % 4096) = u at *
  refine ⟨?_, u.seqState_setSeqState t (by decide), (u.busy_setSeqState t 1).trans hbusy, honly.trans (u.onlyRegs_setSeqState t 1)⟩
  exact ((u.pc_setSeqState t 1).trans hpc).trans (Nat.mod_mod _ _)

/-! ## Engines (R62, R88) -/

theorem State.setEngine_tiles_congr {s r : State} (h : r.tiles = s.tiles) (t e : Nat) (x : Engine) :
    (r.setEngine t e x).tiles = (s.setEngine t e x).tiles := by
  simp only [State.setEngine, State.modTile, State.setTile, State.tile_congr h, h]

theorem State.keepsRegs.heldWord {s r : State} {l : List Nat} {t e : Nat} (h : s.keepsRegs r l) (hlo : Reg.SEQ_INST t e 0 ∉ l)
    (hhi : Reg.SEQ_INST t e 0 + 4 ∉ l) : r.heldWord t e = s.heldWord t e := State.reg64_congr (h _ hlo) (h _ hhi)

theorem State.keepsRegs.heldWord_status {s r : State} {t : Nat} (h : s.keepsRegs r [Reg.SEQ_STATUS t]) (e : Nat) :
    r.heldWord t e = s.heldWord t e :=
  h.heldWord (by simp only [Reg.SEQ_INST, Reg.SEQ_STATUS, List.mem_cons, List.not_mem_nil, or_false]; omega)
    (by simp only [Reg.SEQ_INST, Reg.SEQ_STATUS, List.mem_cons, List.not_mem_nil, or_false]; omega)

/-- The registers of an engine and of the sequencer's status. -/
def holdRegs (t e : Nat) : List Nat := [Reg.SEQ_INST t e 0, Reg.SEQ_INST t e 0 + 4, Reg.SEQ_PROG t e, Reg.SEQ_STATUS t]

/-- The registers that an engine writes as it takes a word: the word, its BUSY bit and its PROG. -/
def State.heldRegs (s : State) (t e w : Nat) : State :=
  ((s.setReg64 (Reg.SEQ_INST t e 0) w).setFld (Reg.SEQ_STATUS.BUSY t)
    ((s.setReg64 (Reg.SEQ_INST t e 0) w).fld (Reg.SEQ_STATUS.BUSY t) ||| 2 ^ e)).setReg (Reg.SEQ_PROG t e) 0

theorem State.heldRegs_spec {e w : Nat} (he : e < 4) (hw : w < 2 ^ 64) :
    let r := s.heldRegs t e w
    r.heldWord t e = w ∧ r.fld (Reg.SEQ_STATUS.BUSY t) = s.fld (Reg.SEQ_STATUS.BUSY t) ||| 2 ^ e ∧ r.pc t = s.pc t ∧
      s.onlyRegs r (holdRegs t e) := by
  have hbits : s.fld (Reg.SEQ_STATUS.BUSY t) ||| 2 ^ e < 2 ^ 4 :=
    Nat.or_lt_two_pow (bits_lt _ _ _) (Nat.pow_lt_pow_right (by decide) he)
  have hword := s.reg64_setReg64_of_lt (Reg.SEQ_INST t e 0) hw
  have hinst : s.onlyRegs (s.setReg64 (Reg.SEQ_INST t e 0) w) (holdRegs t e) := (s.onlyRegs_setReg64 _ _).mono (by simp [holdRegs])
  have hstatus : (s.setReg64 (Reg.SEQ_INST t e 0) w).reg (Reg.SEQ_STATUS t) = s.reg (Reg.SEQ_STATUS t) := s.keepsRegs_setReg64 _ _ _ (by
    simp only [Reg.SEQ_INST, Reg.SEQ_STATUS, List.mem_cons, List.not_mem_nil, or_false]; omega)
  dsimp only
  unfold State.heldRegs
  generalize s.setReg64 (Reg.SEQ_INST t e 0) w = u at *
  have hbusy : u.fld (Reg.SEQ_STATUS.BUSY t) = s.fld (Reg.SEQ_STATUS.BUSY t) := State.fld_congr _ hstatus
  have hpc : u.pc t = s.pc t := State.fld_congr _ hstatus
  rw [hbusy]
  have hprog {o : Nat} (ho : o ≠ Reg.SEQ_PROG t e) (v : State) : (v.setReg (Reg.SEQ_PROG t e) 0).reg o = v.reg o :=
    State.reg_setReg_ne v _ ho
  have hfld : Reg.SEQ_STATUS t ≠ Reg.SEQ_PROG t e := by simp only [Reg.SEQ_STATUS, Reg.SEQ_PROG]; omega
  have hkeep {o : Nat} (ho : o = Reg.SEQ_INST t e 0 ∨ o = Reg.SEQ_INST t e 0 + 4) (v : Nat) :
      ((u.setFld (Reg.SEQ_STATUS.BUSY t) v).setReg (Reg.SEQ_PROG t e) 0).reg o = u.reg o := by
    have hp : o ≠ Reg.SEQ_PROG t e := by simp only [Reg.SEQ_INST, Reg.SEQ_PROG] at ho ⊢; omega
    have hs : o ≠ Reg.SEQ_STATUS t := by simp only [Reg.SEQ_INST, Reg.SEQ_STATUS] at ho ⊢; omega
    rw [hprog hp, State.reg_setFld_ne u (Reg.SEQ_STATUS.BUSY t) _ hs]
  refine ⟨(State.reg64_congr (hkeep (.inl rfl) _) (hkeep (.inr rfl) _)).trans hword, ?_, ?_, ?_⟩
  · rw [State.fld_congr _ (hprog hfld _), State.fld_setFld_same _ _ _ (by dsimp only; decide), Nat.mod_eq_of_lt hbits]
  · rw [State.pc, State.fld_congr _ (hprog hfld _),
      State.fld_setFld_disjoint _ (Reg.SEQ_STATUS.BUSY t) (Reg.SEQ_STATUS.PC t) _ rfl (by dsimp only; decide) (by dsimp only; decide)]
    exact hpc
  · exact (hinst.setFld _ (by simp [holdRegs])).setReg _ (by simp [holdRegs])

/-- What an engine holds of a word that reads no register and that it takes with no values. -/
def State.engineHolding (s : State) (t w : Nat) : Engine := ⟨s.pc t, [], BitVec.ofNat 64 w, []⟩

/-- An engine takes a word that reads no register. -/
theorem State.holdWord_spec {e w : Nat} (he : e < 4) (hw : w < 2 ^ 64) (hreads : ∀ u : State, u.readRegs t w = []) :
    let r := s.holdWord t e w []
    r.heldWord t e = w ∧ r.fld (Reg.SEQ_STATUS.BUSY t) = s.fld (Reg.SEQ_STATUS.BUSY t) ||| 2 ^ e ∧ r.pc t = s.pc t ∧
      s.keepsRegs r (holdRegs t e) ∧ r = { s with regs := r.regs, tiles := (s.setEngine t e (s.engineHolding t w)).tiles } := by
  obtain ⟨hword, hbusy, hpc, hregs, hkeep⟩ := s.heldRegs_spec t he hw
  have hhold : s.holdWord t e w [] = (s.heldRegs t e w).setEngine t e ((s.heldRegs t e w).engineHolding t w) := by
    unfold State.holdWord State.engineHolding State.heldRegs
    dsimp only
    rw [hreads]
    rfl
  have hsame : (s.heldRegs t e w).engineHolding t w = s.engineHolding t w := by rw [State.engineHolding, hpc]; rfl
  dsimp only
  rw [hhold, hsame]
  generalize s.heldRegs t e w = u at *
  have htiles := State.setEngine_tiles_congr (s := s) (r := u) (by rw [hregs]) t e (s.engineHolding t w)
  have hu : (u.setEngine t e (s.engineHolding t w)).regs = u.regs := rfl
  have hall : u.setEngine t e (s.engineHolding t w) = { u with tiles := (u.setEngine t e (s.engineHolding t w)).tiles } := rfl
  generalize u.setEngine t e (s.engineHolding t w) = r at *
  refine ⟨?_, (State.fld_of_regs hu _).trans hbusy, (State.fld_of_regs hu _).trans hpc, ?_, ?_⟩
  · exact (State.reg64_congr (State.reg_congr hu _) (State.reg_congr hu _)).trans hword
  · exact fun o ho => (State.reg_congr hu o).trans (hkeep o ho)
  · rw [hall, htiles, hregs]

/-- A word that waits on an engine (R61, R88). -/
theorem State.startEngine_spec {e w : Nat} (he : e < 4) (hw : w < 2 ^ 64) (hreads : ∀ u : State, u.readRegs t w = []) :
    let r := s.startEngine t e w []
    r.pc t = (s.pc t + 1) % 4096 ∧ r.seqState t = 1 ∧ r.heldWord t e = w ∧
      r.fld (Reg.SEQ_STATUS.BUSY t) = s.fld (Reg.SEQ_STATUS.BUSY t) ||| 2 ^ e ∧ s.keepsRegs r (holdRegs t e) ∧
      r = { s with regs := r.regs, tiles := (s.setEngine t e (s.engineHolding t w)).tiles } := by
  obtain ⟨hword, hbusy, hpc, hkeep, hall⟩ := s.holdWord_spec t he hw hreads
  dsimp only
  unfold State.startEngine
  generalize s.holdWord t e w [] = u at *
  obtain ⟨hpc', hstate, hbusy', hregs, hkeep'⟩ := u.retire_spec t
  generalize u.retire t = r at *
  exact ⟨by rw [hpc', hpc], hstate, (hkeep'.heldWord_status e).trans hword, hbusy'.trans hbusy,
    hkeep.trans hkeep' (List.Subset.refl _) (by simp [holdRegs]), by rw [hregs, hall]⟩

end

theorem State.length_bytes (s : State) (a n : Nat) : (s.bytes a n).length = n := by
  induction n generalizing a with
  | zero => rfl
  | succ n ih => rw [State.bytes, List.length_cons, ih]

/-- An instruction word has 64 bits. -/
theorem State.imemWord_lt (s : State) (t a : Nat) : s.imemWord t a < 2 ^ 64 := by
  have h := leNat_lt (s.bytes (imemAt t (s.fld (Reg.SEQ_IMEM.ACTIVE t)) a) 8)
  rw [State.length_bytes] at h
  exact h

end Sys2Proof.Machine
end

section
/-! PROOFS. The statement of 03_grid_and_queues.md on PEEK and QUENCH. -/
namespace Sys2Proof.Machine

/-! ## What the fetch leaves (R87) -/

theorem State.bytes_congr {s r : State} (h : r.mem = s.mem) (a n : Nat) : r.bytes a n = s.bytes a n := by
  induction n generalizing a with
  | zero => rfl
  | succ n ih => rw [State.bytes, State.bytes, ih, State.byte_congr h]

theorem State.payloadOf_congr {s r : State} (h : r.mem = s.mem) (t : Nat) (x : Held) : r.payloadOf t x = s.payloadOf t x := by
  rw [State.payloadOf, State.unit, State.num, State.bytes_congr h, State.payloadOf, State.unit, State.num]

section
variable (s : State) (t : Nat) (fetch : Ecc)

theorem State.reg_fetched {o : Nat} (ho : o ≠ Reg.SEQ_IMEM t) : (s.fetched t fetch).reg o = s.reg o :=
  (s.onlyRegs_fetched t fetch).2 o fun h => ho (mem_fetchRegs h)

theorem State.fld_fetched {f : Field} (hf : f.off ≠ Reg.SEQ_IMEM t) : (s.fetched t fetch).fld f = s.fld f :=
  State.fld_congr f (s.reg_fetched t fetch hf)

theorem State.status_fetched {f : Field} (hf : f.off = Reg.SEQ_STATUS t) : (s.fetched t fetch).fld f = s.fld f :=
  s.fld_fetched t fetch (by rw [hf]; simp only [Reg.SEQ_STATUS, Reg.SEQ_IMEM]; omega)

theorem State.tiles_fetched : (s.fetched t fetch).tiles = s.tiles := by rw [(s.onlyRegs_fetched t fetch).1]

theorem State.engineBusy_fetched (e : Nat) : (s.fetched t fetch).engineBusy t e = s.engineBusy t e :=
  congrArg (bitOf · e) (s.status_fetched t fetch (f := Reg.SEQ_STATUS.BUSY t) rfl)

theorem State.route_fetched {f : Field} {q : Nat} (hf : f.off = Reg.GRD_RT_A t q) (hq : q < 32) : (s.fetched t fetch).fld f = s.fld f :=
  s.fld_fetched t fetch (by rw [hf]; simp only [Reg.GRD_RT_A, Reg.SEQ_IMEM]; omega)

theorem State.localOut_fetched {q : Nat} (hq : q < 32) : (s.fetched t fetch).localOut t q = s.localOut t q := by
  simp only [State.localOut, State.rtValid, State.rtOut, State.flag, s.route_fetched t fetch (f := Reg.GRD_RT_A.VALID t q) rfl hq,
    s.route_fetched t fetch (f := Reg.GRD_RT_A.OUT t q) rfl hq]

theorem State.rtIn_fetched {q : Nat} (hq : q < 32) : (s.fetched t fetch).rtIn t q = s.rtIn t q := s.route_fetched t fetch rfl hq

theorem State.localIn_fetched {q : Nat} (hq : q < 32) : (s.fetched t fetch).localIn t q = s.localIn t q := by
  simp only [State.localIn, State.rtValid, State.flag, s.rtIn_fetched t fetch hq,
    s.route_fetched t fetch (f := Reg.GRD_RT_A.VALID t q) rfl hq]

theorem State.queue_fetched (q : Nat) : (s.fetched t fetch).queue t q = s.queue t q := State.queue_congr (s.tiles_fetched t fetch) t q

theorem State.pc_fetched : (s.fetched t fetch).pc t = s.pc t := s.status_fetched t fetch rfl

theorem State.headFor_fetched (q out : Nat) : (s.fetched t fetch).headFor t q out = s.headFor t q out :=
  State.headFor_congr (s.tiles_fetched t fetch) t q out

theorem State.payloadOf_fetched (x : Held) : (s.fetched t fetch).payloadOf t x = s.payloadOf t x :=
  State.payloadOf_congr (by rw [(s.onlyRegs_fetched t fetch).1]) t x

theorem State.engineHolding_fetched (w : Nat) : (s.fetched t fetch).engineHolding t w = s.engineHolding t w := by
  rw [State.engineHolding, s.pc_fetched t fetch, State.engineHolding]

/-- STATE alone is written after the fetch. -/
theorem State.setSeqState_fetched {n : Nat} (hn : n < 16) : ((s.fetched t fetch).setSeqState t n).seqState t = n ∧
    ((s.fetched t fetch).setSeqState t n).pc t = s.pc t ∧
    s.onlyRegs ((s.fetched t fetch).setSeqState t n) ([Reg.SEQ_STATUS t] ++ fetchRegs t fetch) :=
  ⟨State.seqState_setSeqState _ t hn, (State.pc_setSeqState _ t n).trans (s.pc_fetched t fetch),
    ((s.onlyRegs_fetched t fetch).mono (by simp)).trans ((State.onlyRegs_setSeqState _ t n).mono (by simp))⟩

theorem State.markTaken_fetched (q : Nat) : (s.fetched t fetch).markTaken t q = s.markTaken t q := by
  simp only [State.markTaken, s.queue_fetched t fetch]

theorem State.mover_fetched (m : Nat) : (s.fetched t fetch).mover m = s.mover m := State.mover_congr (by rw [(s.onlyRegs_fetched t fetch).1]) m

theorem State.stream_fetched (b n : Nat) : (s.fetched t fetch).stream b n = s.stream b n :=
  State.stream_congr (by rw [(s.onlyRegs_fetched t fetch).1]) b n

theorem State.enginesIdle_fetched (mask : Nat) : (s.fetched t fetch).enginesIdle t mask = s.enginesIdle t mask := by
  simp only [State.enginesIdle, s.engineBusy_fetched t fetch, s.mover_fetched t fetch]

theorem State.moversQuiet_fetched : (s.fetched t fetch).moversQuiet t = s.moversQuiet t := by
  simp only [State.moversQuiet, s.mover_fetched t fetch, s.stream_fetched t fetch]

theorem State.quenchOver_fetched : (s.fetched t fetch).quenchOver t = s.quenchOver t := by
  have h1 : (s.fetched t fetch).quenchPhase1 t = s.quenchPhase1 t := List.filter_congr fun q hq => by
    have hq := List.mem_range.1 hq
    rw [s.localOut_fetched t fetch hq, s.rtIn_fetched t fetch hq, s.markTaken_fetched t fetch]
  have h2 : (s.fetched t fetch).quenchPhase2 t = s.quenchPhase2 t := List.filter_congr fun q hq => by
    rw [s.localIn_fetched t fetch (List.mem_range.1 hq), s.queue_fetched t fetch]
  have h3 : (s.fetched t fetch).quenchPhase3 t = s.quenchPhase3 t := List.filter_congr fun q hq => by
    have hq := List.mem_range.1 hq
    rw [s.localIn_fetched t fetch hq, s.localOut_fetched t fetch hq, s.markTaken_fetched t fetch]
  rw [State.quenchOver, h1, h2, h3, State.quenchOver]

end

/-! ## The words -/

/-- PEEK names two registers that it writes and none that it reads (R78). -/
theorem opInfo_peek (ty : Nat) {w : Nat} (h : wOp w = 0x22) : opInfo ty w =
    some ⟨some 0, maskBits 30 0, [], false, [], [bits w 44 8, bits w 36 8], [], []⟩ := by
  unfold opInfo infoCommon
  rw [h]
  rfl

theorem opInfo_quench (ty : Nat) {w : Nat} (h : wOp w = 0x31) : opInfo ty w = some ⟨some 0, maskBits 51 0, [], false, [], [], [], []⟩ := by
  unfold opInfo infoCommon
  rw [h]
  rfl

theorem State.readRegs_peek (s : State) (t : Nat) {w : Nat} (h : wOp w = 0x22) : s.readRegs t w = [] := by rw [State.readRegs, opInfo_peek _ h]; rfl

theorem State.readRegs_quench (s : State) (t : Nat) {w : Nat} (h : wOp w = 0x31) : s.readRegs t w = [] := by
  rw [State.readRegs, opInfo_quench _ h]; rfl

theorem State.Executes.lt {s : State} {t w : Nat} (h : s.Executes t w) : w < 2 ^ 64 := h.word ▸ s.imemWord_lt t _

/-! ## PEEK -/

theorem State.commonIssueFault_peek {s : State} {t w : Nat} (h : wOp w = 0x22) (hq : s.localOut t (bits w 31 5) = true) :
    s.commonIssueFault t w = none := by
  unfold State.commonIssueFault
  dsimp only
  rw [h]
  exact if_neg (by simp [State.recvQueueOk, hq])

theorem peekBody_flit {s : State} {t w : Nat} {ecc : FlitEcc} {h : Held} (hop : wOp w = 0x22) (hq : s.localOut t (bits w 31 5) = true)
    (hh : s.headFor t (bits w 31 5) 4 = some h) : peekBody ecc t w s = (s.peekWrite t w h ecc).retire t := by
  unfold peekBody
  rw [State.commonIssueFault_peek hop hq, hh]

theorem peekBody_empty {s : State} {t w : Nat} {ecc : FlitEcc} (hop : wOp w = 0x22) (hq : s.localOut t (bits w 31 5) = true)
    (hh : s.headFor t (bits w 31 5) 4 = none) : peekBody ecc t w s = s.startEngine t 0 w [] := by
  unfold peekBody
  rw [State.commonIssueFault_peek hop hq, hh]

/-- The registers named by specifiers are none of the sequencer's status. -/
theorem status_not_mem_destRegs {t n : Nat} (hn : specOk n = true) : Reg.SEQ_STATUS t ∉ destRegs t n := fun ho => by
  have h := mem_destRegs hn ho
  simp only [Reg.SEQ_STATUS] at h
  omega

/-- What PEEK writes where a flit is at the head. -/
theorem State.peekWrite_retire_spec (s : State) {t w : Nat} (hd : specOk (bits w 44 8) = true) (ha : specOk (bits w 36 8) = true) (h : Held)
    (ecc : FlitEcc) :
    let r := (s.peekWrite t w h ecc).retire t
    r.pc t = (s.pc t + 1) % 4096 ∧ r.seqState t = 1 ∧
      r.operand t (bits w 36 8) = readsBack (bits w 36 8) (kindCode h.kind + (s.queue t (bits w 31 5)).occ * 2 ^ 16) ∧
      (bits w 44 8 ≠ bits w 36 8 →
        r.operand t (bits w 44 8) = readsBack (bits w 44 8) ((delivered (s.payloadOf t h) ecc).toNat % 2 ^ 64)) ∧
      s.onlyRegsParts r (destRegs t (bits w 44 8) ++ destRegs t (bits w 36 8) ++ [Reg.SEQ_STATUS t] ++ flitEccRegs t ecc) ∧
      (ecc.bad = 0 → r.parts = s.parts) := by
  have hcheck := s.onlyRegsParts_flitEcc t ecc
  have hparts (hbad : ecc.bad = 0) := s.parts_flitEcc_of_good t hbad
  have hstatus : Reg.SEQ_STATUS t ∉ flitEccRegs t ecc := fun ho => by
    have h := flitEccRegs_subset t ecc ho
    simp only [Reg.SEQ_STATUS, Reg.GRD_ECC_CNT, Reg.GRD_STATUS, List.mem_cons, List.not_mem_nil, or_false] at h
    omega
  dsimp only
  unfold State.peekWrite State.readHead
  dsimp only
  generalize s.flitEcc t ecc = e at *
  generalize (delivered (s.payloadOf t h) ecc).toNat % 2 ^ 64 = v
  generalize kindCode h.kind + (s.queue t (bits w 31 5)).occ * 2 ^ 16 = x
  have hdst := e.onlyRegs_setOperand t (bits w 44 8) v
  have hread := e.operand_setOperand_same t hd v
  generalize e.setOperand t (bits w 44 8) v = u at *
  have hdst2 := u.onlyRegs_setOperand t (bits w 36 8) x
  have hread2 := u.operand_setOperand_same t ha x
  have hkeep (hne : bits w 44 8 ≠ bits w 36 8) := u.operand_setOperand_ne t hd ha hne x
  generalize u.setOperand t (bits w 36 8) x = y at *
  obtain ⟨hpc, hstate, -, hretire⟩ := y.retire_spec t
  generalize y.retire t = r at *
  have hpcy : y.pc t = s.pc t := State.fld_congr _ ((hdst2.2 _ (status_not_mem_destRegs ha)).trans
    ((hdst.2 _ (status_not_mem_destRegs hd)).trans (hcheck.2 _ hstatus)))
  have hop {n : Nat} (hn : specOk n = true) : r.operand t n = y.operand t n := State.operand_congr fun o ho => hretire.2 o fun hs => by
    rw [List.mem_singleton.1 hs] at ho
    exact status_not_mem_destRegs hn ho
  refine ⟨by rw [hpc, hpcy], hstate, (hop ha).trans hread2, fun hne => (hop hd).trans ((hkeep hne).trans hread), ?_, fun hbad => ?_⟩
  · exact (((hcheck.mono (fun o ho => by simp [ho])).trans (hdst.withParts.mono (by simp))).trans
      (hdst2.withParts.mono (fun o ho => by simp [ho]))).trans (hretire.withParts.mono (by simp))
  · rw [hretire.1, hdst2.1, hdst.1]
    exact hparts hbad

/-! ## Waits -/

/-- The two engines that hold QUENCH (R61). -/
def State.bothHolding (s : State) (t w : Nat) : State := (s.setEngine t 1 (s.engineHolding t w)).setEngine t 0 (s.engineHolding t w)

theorem State.tiles_bothHolding_fetched (s : State) (t : Nat) (fetch : Ecc) (w : Nat) :
    ((s.fetched t fetch).bothHolding t w).tiles = (s.bothHolding t w).tiles := by
  unfold State.bothHolding
  rw [s.engineHolding_fetched]
  exact State.setEngine_tiles_congr (State.setEngine_tiles_congr (s.tiles_fetched t fetch) _ _ _) _ _ _

/-- E0 and E1 take QUENCH, and the sequencer waits. -/
theorem State.quenchHeld_spec (s : State) {t w : Nat} (hop : wOp w = 0x31) (hw : w < 2 ^ 64) :
    let r := ((s.holdWord t 1 w []).startEngine t 0 w []).setSeqState t 2
    r.seqState t = 2 ∧ r.quenching t = true ∧ r.engineBusy t 1 = true ∧ r.heldWord t 1 = w ∧
      r = { s with regs := r.regs, tiles := (s.bothHolding t w).tiles } ∧ s.keepsRegs r (holdRegs t 0 ++ holdRegs t 1) := by
  have hreads (u : State) := u.readRegs_quench t hop
  obtain ⟨hword, hbusy, hpc, hkeep, hall⟩ := s.holdWord_spec t (e := 1) (by decide) hw hreads
  dsimp only
  unfold State.bothHolding
  have hsame : (s.holdWord t 1 w []).engineHolding t w = s.engineHolding t w := by rw [State.engineHolding, hpc]; rfl
  generalize s.holdWord t 1 w [] = u at *
  obtain ⟨-, -, hword', hbusy', hkeep', hall'⟩ := u.startEngine_spec t (e := 0) (by decide) hw hreads
  rw [hsame, State.setEngine_tiles_congr (s := s.setEngine t 1 (s.engineHolding t w)) (r := u) (by rw [hall])] at hall'
  generalize u.startEngine t 0 w [] = y at *
  have hstate := y.seqState_setSeqState t (n := 2) (by decide)
  have hbusy2 := y.busy_setSeqState t 2
  obtain ⟨hregs2, hkeep2⟩ := y.onlyRegs_setSeqState t 2
  generalize y.setSeqState t 2 = r at *
  have hfld : r.fld (Reg.SEQ_STATUS.BUSY t) = s.fld (Reg.SEQ_STATUS.BUSY t) ||| 2 ^ 1 ||| 2 ^ 0 := by rw [hbusy2, hbusy', hbusy]
  have h0 : r.engineBusy t 0 = true := by rw [State.engineBusy, hfld, bitOf_or, bitOf_two_pow_self, Bool.or_true]
  have h1 : r.engineBusy t 1 = true := by rw [State.engineBusy, hfld, bitOf_or, bitOf_or, bitOf_two_pow_self, Bool.or_true, Bool.true_or]
  have hheld0 : r.heldWord t 0 = w := (hkeep2.heldWord_status 0).trans hword'
  have hlast : u.keepsRegs r (holdRegs t 0) := hkeep'.trans hkeep2 (List.Subset.refl _) (by simp [holdRegs])
  have hheld1 : r.heldWord t 1 = w := (hlast.heldWord
    (by simp only [holdRegs, Reg.SEQ_INST, Reg.SEQ_STATUS, Reg.SEQ_PROG, List.mem_cons, List.not_mem_nil, or_false]; omega)
    (by simp only [holdRegs, Reg.SEQ_INST, Reg.SEQ_STATUS, Reg.SEQ_PROG, List.mem_cons, List.not_mem_nil, or_false]; omega)).trans hword
  refine ⟨hstate, ?_, h1, hheld1, by rw [hregs2, hall', hall], hkeep.trans hlast (List.subset_append_right _ _) (List.subset_append_left _ _)⟩
  rw [State.quenching, h0, hheld0, hop]
  rfl

theorem quenchBody_busy {s : State} {t w : Nat} (h : s.enginesIdle t 7 = false ∨ s.engineBusy t 3 = true) : quenchBody t w s = s.seqWait t :=
  if_pos h

theorem quenchBody_over {s : State} {t w : Nat} (h : ¬ (s.enginesIdle t 7 = false ∨ s.engineBusy t 3 = true))
    (ho : s.moversQuiet t = true ∧ s.quenchOver t = true) : quenchBody t w s = s.setSeqState t 3 :=
  (if_neg h).trans (if_pos (by simp [ho]))

theorem quenchBody_starts {s : State} {t w : Nat} (h : ¬ (s.enginesIdle t 7 = false ∨ s.engineBusy t 3 = true))
    (ho : ¬ (s.moversQuiet t = true ∧ s.quenchOver t = true)) :
    quenchBody t w s = ((s.holdWord t 1 w []).startEngine t 0 w []).setSeqState t 2 :=
  (if_neg h).trans (if_neg (by simpa using ho))

/-- Settles O40: what PEEK writes is what its registers read afterwards, and QUENCH waits, ends at once, or takes both engines. -/
theorem peekLooksAndQuenchWaits : Obligations.PeekLooksAndQuenchWaits := by
  refine ⟨fun t fetch s w hf hx hop hq => ⟨fun h hh => ?_, fun hh => ?_⟩, fun t fetch s w hf hx hop => ?_⟩
  · have hissue := State.issue_executes hx hf (mine := isOp 0x22) (by simp [isOp, hop]) (peekBody fetch.flit t)
    rw [peekBody_flit hop ((s.localOut_fetched t fetch.word (bits_lt w 31 5)).trans hq) ((s.headFor_fetched t fetch.word _ _).trans hh)] at hissue
    refine ⟨_, congrArg Host.Outcome.next hissue, ?_⟩
    have hspec := specOk_of_decodes hx.decodes (opInfo_peek _ hop)
    have hwrite := (s.fetched t fetch.word).peekWrite_retire_spec (t := t) (w := w) (hspec _ (by simp [OpInfo.specs]))
      (hspec _ (by simp [OpInfo.specs])) h fetch.flit
    rw [s.pc_fetched, s.queue_fetched, s.payloadOf_fetched] at hwrite
    obtain ⟨hregs, hkeep⟩ := s.onlyRegs_fetched t fetch.word
    generalize s.fetched t fetch.word = u at *
    obtain ⟨hpc, hstate, hdst2, hdst, ⟨hall, hkeep'⟩, hparts⟩ := hwrite
    refine ⟨hpc, hstate, hdst2, hdst, by rw [hall, hregs], fun hbad => (hparts hbad).trans (by rw [hregs]), ?_⟩
    exact hkeep.trans hkeep' (fun o ho => by simp [ho]) (fun o ho => by
      simp only [flitEccRegs, List.mem_append] at ho ⊢
      tauto)
  · have hissue := State.issue_executes hx hf (mine := isOp 0x22) (by simp [isOp, hop]) (peekBody fetch.flit t)
    rw [peekBody_empty hop ((s.localOut_fetched t fetch.word (bits_lt w 31 5)).trans hq) ((s.headFor_fetched t fetch.word _ _).trans hh)] at hissue
    refine ⟨_, congrArg Host.Outcome.next hissue, ?_⟩
    have hstart := (s.fetched t fetch.word).startEngine_spec t (e := 0) (by decide) hx.lt (fun v => v.readRegs_peek t hop)
    rw [s.pc_fetched, s.engineHolding_fetched, State.setEngine_tiles_congr (s.tiles_fetched t fetch.word)] at hstart
    obtain ⟨hregs, hkeep⟩ := s.onlyRegs_fetched t fetch.word
    generalize s.fetched t fetch.word = u at *
    obtain ⟨hpc, hstate, hword, hbusy, hkeep', hall⟩ := hstart
    rw [s.readRegs_peek t hop]
    refine ⟨hpc, hstate, ?_, hword, hkeep.trans hkeep' (List.subset_append_right _ _) (List.subset_append_left _ _), ?_⟩
    · rw [State.engineBusy, hbusy, bitOf_or, bitOf_two_pow_self, Bool.or_true]
    · rw [hall, hregs, State.engineHolding]
  · have hissue := State.issue_executes hx hf (mine := isOp 0x31) (by simp [isOp, hop]) (quenchBody t)
    refine ⟨_, congrArg Host.Outcome.next hissue, ?_⟩
    rw [← s.enginesIdle_fetched t fetch, ← s.engineBusy_fetched t fetch, ← s.moversQuiet_fetched t fetch, ← s.quenchOver_fetched t fetch]
    split
    · next h =>
      rw [quenchBody_busy h]
      exact s.setSeqState_fetched t fetch (by decide)
    · next h =>
      split
      · next ho =>
        rw [quenchBody_over h ho]
        exact s.setSeqState_fetched t fetch (by decide)
      · next ho =>
        rw [quenchBody_starts h ho]
        have hheld := (s.fetched t fetch).quenchHeld_spec (t := t) hop hx.lt
        have htiles := s.tiles_bothHolding_fetched t fetch w
        obtain ⟨hregs, hkeep⟩ := s.onlyRegs_fetched t fetch
        generalize s.fetched t fetch = u at *
        obtain ⟨hstate, hquench, hbusy, hword, hall, hkeep'⟩ := hheld
        rw [s.readRegs_quench t hop]
        refine ⟨hstate, hquench, hbusy, hword, ?_, hkeep.trans hkeep' (List.subset_append_right _ _) (by simp [holdRegs])⟩
        rw [hall, htiles, hregs, State.bothHolding, State.engineHolding]

end Sys2Proof.Machine
end

section
/-! PROOFS. What a word reads and writes once it is fetched: the registers that specifiers name, beside those of the sequencer, and the
count of a corrected error (R64, R65, R72, R87). -/
namespace Sys2Proof.Machine

/-- A specifier that names no register of Table 04-2 (as IDX of a frame may) reads back what was written through it, as a stream field does. -/
theorem State.operand_setOperand_unnamed (s : State) (t : Nat) {n : Nat} (hn : specOk n = false) (v : Nat) :
    (s.setOperand t n v).operand t n = readsBack n v := by
  simp only [specOk, Bool.or_eq_false_iff, Bool.and_eq_false_iff, decide_eq_false_iff_not] at hn
  have hstream : ¬ (n = 0 ∨ n = 0x20) ∧ ¬ n < 0x20 ∧ ¬ n < 0x28 ∧ n ≠ 0 ∧ n ≠ 0x20 := by omega
  have hmask : v % strmMask ((n - 0x40) % 4) < 2 ^ 32 := by
    unfold strmMask
    split <;> omega
  simp only [State.setOperand, State.operand, readsBack, hstream, or_self, if_false]
  rw [State.strm, State.reg_setReg_same, BitVec.toNat_ofNat, Nat.mod_eq_of_lt hmask]

/-- What is written through a specifier is read back. -/
theorem State.operand_setOperand (s : State) (t n v : Nat) : (s.setOperand t n v).operand t n = readsBack n v := by
  cases hn : specOk n
  · exact s.operand_setOperand_unnamed t hn v
  · exact s.operand_setOperand_same t hn v

/-- The registers of specifiers lie above those of the sequencer, but for the predicates. -/
theorem destRegs_place {t n o : Nat} (h : o ∈ destRegs t n) : o = tileBase t + 0x100C ∨ tileBase t + 0x1100 ≤ o := by
  unfold destRegs at h
  split at h
  · cases h
  · split at h
    · simp only [List.mem_cons, List.not_mem_nil, or_false, Reg.SEQ_G] at h
      omega
    · split at h
      · exact .inl (List.mem_singleton.1 h)
      · simp only [List.mem_cons, List.not_mem_nil, or_false, Reg.SEQ_S] at h
        omega

/-- A register of the sequencer below its predicates' neighbours is named by no specifier. -/
theorem not_mem_destRegs {t o : Nat} (h : o ≠ tileBase t + 0x100C ∧ o < tileBase t + 0x1100) (n : Nat) : o ∉ destRegs t n := fun ho => by
  have := destRegs_place ho
  omega

section
variable (s : State) (t : Nat)

theorem State.reg_setOperand {o : Nat} (h : o ≠ tileBase t + 0x100C ∧ o < tileBase t + 0x1100) (n v : Nat) :
    (s.setOperand t n v).reg o = s.reg o := (s.onlyRegs_setOperand t n v).2 o (not_mem_destRegs h n)

theorem State.fld_setOperand {f : Field} (h : f.off ≠ tileBase t + 0x100C ∧ f.off < tileBase t + 0x1100) (n v : Nat) :
    (s.setOperand t n v).fld f = s.fld f := State.fld_congr f (s.reg_setOperand t h n v)

theorem State.pc_setOperand (n v : Nat) : (s.setOperand t n v).pc t = s.pc t :=
  s.fld_setOperand t (f := Reg.SEQ_STATUS.PC t) (by simp only [Reg.SEQ_STATUS]; omega) n v

/-- A change of STATUS alone leaves every operand. -/
theorem State.operand_status {r : State} (h : s.onlyRegs r [Reg.SEQ_STATUS t]) (n : Nat) : r.operand t n = s.operand t n :=
  State.operand_congr fun o ho => h.2 o fun hs => by
    obtain rfl := List.mem_singleton.1 hs
    exact not_mem_destRegs (by simp only [Reg.SEQ_STATUS]; omega) n ho

variable (fetch : Ecc)

/-- The fetch leaves every operand. -/
theorem State.operand_fetched (n : Nat) : (s.fetched t fetch).operand t n = s.operand t n :=
  State.operand_congr fun o ho => s.reg_fetched t fetch fun h => by
    subst h
    exact not_mem_destRegs (by simp only [Reg.SEQ_IMEM]; omega) n ho

/-- A corrected error of the fetch is counted once (R87). -/
theorem State.ce_fetched (h : fetch = .corrected) : (s.fetched t fetch).fld (Reg.SEQ_IMEM.CE t) =
    min (2 ^ (Reg.SEQ_IMEM.CE t).width - 1) (s.fld (Reg.SEQ_IMEM.CE t) + 1) := by
  rw [State.fetched, if_pos h, State.fld_satFld_same _ _ _ (by dsimp only; decide)]

/-- A word that writes one register and retires. -/
theorem State.writeRetire_spec (n v : Nat) :
    let r := (s.setOperand t n v).retire t
    r.operand t n = readsBack n v ∧ r.pc t = (s.pc t + 1) % 4096 ∧ r.seqState t = 1 ∧ s.onlyRegs r (destRegs t n ++ [Reg.SEQ_STATUS t]) := by
  have hread := s.operand_setOperand t n v
  have hpc := s.pc_setOperand t n v
  have hset := s.onlyRegs_setOperand t n v
  dsimp only
  generalize s.setOperand t n v = u at *
  obtain ⟨hpc', hstate, -, hretire⟩ := u.retire_spec t
  exact ⟨(u.operand_status t hretire n).trans hread, by rw [hpc', hpc], hstate, (hset.mono (by simp)).trans (hretire.mono (by simp))⟩

/-- The same word, after its fetch. -/
theorem State.fetchedWriteRetire_spec (n v : Nat) :
    let r := ((s.fetched t fetch).setOperand t n v).retire t
    r.operand t n = readsBack n v ∧ r.pc t = (s.pc t + 1) % 4096 ∧ r.seqState t = 1 ∧
      (fetch = .corrected → r.fld (Reg.SEQ_IMEM.CE t) =
        min (2 ^ (Reg.SEQ_IMEM.CE t).width - 1) (s.fld (Reg.SEQ_IMEM.CE t) + 1)) ∧
      s.onlyRegs r (destRegs t n ++ [Reg.SEQ_STATUS t] ++ fetchRegs t fetch) := by
  obtain ⟨hread, hpc, hstate, hwrite⟩ := (s.fetched t fetch).writeRetire_spec t n v
  rw [s.pc_fetched t fetch] at hpc
  have himem : (Reg.SEQ_IMEM.CE t).off ∉ destRegs t n ++ [Reg.SEQ_STATUS t] := by
    have hdest := not_mem_destRegs (t := t) (o := Reg.SEQ_IMEM t) (by simp only [Reg.SEQ_IMEM]; omega) n
    simp only [List.mem_append, List.mem_singleton, hdest, false_or, Reg.SEQ_IMEM, Reg.SEQ_STATUS]
    omega
  exact ⟨hread, hpc, hstate, fun hc => (hwrite.2.fld himem).trans (s.ce_fetched t fetch hc),
    ((s.onlyRegs_fetched t fetch).mono (by simp)).trans (hwrite.mono (by simp))⟩

end

end Sys2Proof.Machine
end

section
/-! PROOFS. The statements of 04_tile_programs.md on MOV, on the arithmetic and on the comparisons (R70, R71). -/
namespace Sys2Proof.Machine

/-! ## MOV and arithmetic (R70) -/

theorem movBody_eq (imm : Bool) (t w : Nat) (s : State) :
    movBody imm t w s = (s.setOperand t (bits w 44 8) (if imm then imm32 w else s.operand t (bits w 36 8))).retire t := rfl

/-- The 64-bit operation that an ALU operation computes (R70). -/
def aluFun : AluOp → DWord → DWord → DWord
  | .add => (· + ·)
  | .sub => (· - ·)
  | .and => (· &&& ·)
  | .or => (· ||| ·)
  | .shl => fun a b => a <<< (b.toNat % 64)
  | .shr => fun a b => a >>> (b.toNat % 64)

theorem aluBody_eq (op : AluOp) (imm : Bool) (t w : Nat) (s : State) :
    aluBody op imm t w s = (s.setOperand t (bits w 44 8) (binaryResult (aluFun op) imm s t w)).retire t := by
  cases op <;> rfl

/-- The result reads nothing that the fetch counts. -/
theorem binaryResult_fetched (op : DWord → DWord → DWord) (imm : Bool) (s : State) (t : Nat) (fetch : Ecc) (w : Nat) :
    binaryResult op imm (s.fetched t fetch) t w = binaryResult op imm s t w := by
  simp only [binaryResult, s.operand_fetched t fetch]

/-- A short instruction writes its result and retires. -/
theorem exec_resultForm {f : ResultForm} (hf : f ∈ resultForms) {t : Fin 240} {fetch : Ecc} {s : State} {w : Nat}
    (hu : fetch ≠ .uncorrectable) (hx : s.Executes t w) (hop : wOp w = f.op) :
    exec (f.make t fetch) s = .next (((s.fetched t fetch).setOperand t (bits w 44 8) (f.result s t w)).retire t) := by
  have hmov (imm : Bool) := (State.issue_executes hx hu (mine := isOp f.op) (by simp [isOp, hop]) (movBody imm t)).trans (movBody_eq imm t w _)
  have halu (op : AluOp) (imm : Bool) :=
    (State.issue_executes hx hu (mine := isOp f.op) (by simp [isOp, hop]) (aluBody op imm t)).trans (aluBody_eq op imm t w _)
  simp only [s.operand_fetched t fetch] at hmov
  simp only [binaryResult_fetched] at halu
  simp only [resultForms, List.mem_cons, List.not_mem_nil, or_false] at hf
  rcases hf with rfl | rfl | rfl | rfl | rfl | rfl | rfl | rfl | rfl | rfl | rfl | rfl | rfl | rfl
  · exact congrArg Host.Outcome.next (hmov false)
  · exact congrArg Host.Outcome.next (hmov true)
  · exact congrArg Host.Outcome.next (halu .add false)
  · exact congrArg Host.Outcome.next (halu .add true)
  · exact congrArg Host.Outcome.next (halu .sub false)
  · exact congrArg Host.Outcome.next (halu .sub true)
  · exact congrArg Host.Outcome.next (halu .and false)
  · exact congrArg Host.Outcome.next (halu .and true)
  · exact congrArg Host.Outcome.next (halu .or false)
  · exact congrArg Host.Outcome.next (halu .or true)
  · exact congrArg Host.Outcome.next (halu .shl false)
  · exact congrArg Host.Outcome.next (halu .shl true)
  · exact congrArg Host.Outcome.next (halu .shr false)
  · exact congrArg Host.Outcome.next (halu .shr true)

/-- Settles O27: every form writes its result through DST and retires. -/
theorem shortInstructionsWriteTheirResult : Obligations.ShortInstructionsWriteTheirResult :=
  fun _ hf t fetch s _ hu hx hop => ⟨_, exec_resultForm hf hu hx hop, s.fetchedWriteRetire_spec t fetch _ _⟩

/-! ## CMP (R71) -/

/-- COND of CMP. -/
def cmpCond (imm : Bool) (w : Nat) : Nat := if imm then bits w 32 3 else bits w 0 3

theorem opInfo_cmp {ty w : Nat} {imm : Bool} (h : wOp w = if imm then 0x11 else 0x10) : opInfo ty w = some (infoRI w imm false true) := by
  unfold opInfo infoCommon
  cases imm <;> (rw [h]; rfl)

/-- A CMP with COND 6 or 7 does not decode (R68). -/
theorem cmpCond_lt {ty w : Nat} {imm : Bool} (h : wOp w = if imm then 0x11 else 0x10) (hd : decodeFault ty w = none) : cmpCond imm w < 6 := by
  have hbad : (infoRI w imm false true).bad = decide (5 < cmpCond imm w) := by cases imm <;> rfl
  by_contra hc
  unfold decodeFault at hd
  rw [opInfo_cmp h] at hd
  dsimp only at hd
  rw [hbad, if_pos (.inr (by simp only [decide_eq_true_eq]; omega))] at hd
  cases hd

/-- The six conditions, one by one. -/
theorem ofBool_condHolds {c : Nat} (hc : c < 6) (a b : DWord) : ofBool (condHolds c a b) =
    if (c = 0 ∧ a = b) ∨ (c = 1 ∧ a ≠ b) ∨ (c = 2 ∧ a.toInt < b.toInt) ∨ (c = 3 ∧ b.toInt ≤ a.toInt) ∨
      (c = 4 ∧ a.toNat < b.toNat) ∨ (c = 5 ∧ b.toNat ≤ a.toNat) then 1 else 0 := by
  interval_cases c <;> simp [ofBool, condHolds]

/-- What CMP writes. -/
def State.cmpResult (s : State) (imm : Bool) (t w : Nat) : Nat :=
  ofBool (condHolds (cmpCond imm w) (BitVec.ofNat 64 (s.operand t (bits w 36 8)))
    (BitVec.ofNat 64 (if imm then imm32 w else s.operand t (bits w 28 8))))

theorem cmpBody_eq (imm : Bool) (t w : Nat) (s : State) :
    cmpBody imm t w s = (s.setOperand t (bits w 44 8) (s.cmpResult imm t w)).retire t := rfl

theorem State.cmpResult_fetched (s : State) (imm : Bool) (t : Nat) (fetch : Ecc) (w : Nat) :
    (s.fetched t fetch).cmpResult imm t w = s.cmpResult imm t w := by simp only [State.cmpResult, s.operand_fetched t fetch]

/-- CMP writes its condition and retires. -/
theorem exec_cmp {imm : Bool} {t : Fin 240} {fetch : Ecc} {s : State} {w : Nat} (hu : fetch ≠ .uncorrectable) (hx : s.Executes t w)
    (hop : wOp w = if imm then 0x11 else 0x10) : exec (if imm then .cmpImmediate t fetch else .cmpRegister t fetch) s =
      .next (((s.fetched t fetch).setOperand t (bits w 44 8) (s.cmpResult imm t w)).retire t) := by
  have hissue := (State.issue_executes hx hu (mine := isOp (if imm then 0x11 else 0x10)) (by simp [isOp, hop]) (cmpBody imm t)).trans
    (cmpBody_eq imm t w _)
  rw [s.cmpResult_fetched] at hissue
  cases imm
  · exact congrArg Host.Outcome.next hissue
  · exact congrArg Host.Outcome.next hissue

/-- Settles O28: COND is below 6 as the word decodes, and CMP writes whether it holds. -/
theorem compareWritesTheCondition : Obligations.CompareWritesTheCondition := by
  intro imm t fetch s w hu hx hop
  have hc := cmpCond_lt hop hx.decodes
  obtain ⟨hread, hpc, hstate, -, hkeep⟩ := s.fetchedWriteRetire_spec t fetch (bits w 44 8) (s.cmpResult imm t w)
  exact ⟨_, exec_cmp hu hx hop, ⟨hc, hread.trans (congrArg (readsBack _) (ofBool_condHolds hc _ _))⟩, hpc, hstate, hkeep⟩

end Sys2Proof.Machine
end

section
/-! PROOFS. The statements of 04_tile_programs.md on branches and loops (R72 to R75): which frames a branch pops, and what LOOP and ENDL
write. -/
namespace Sys2Proof.Machine

/-! ## The registers of a frame -/

/-- The registers of frame `n`. -/
def frameRegs (t n : Nat) : List Nat := [Reg.SEQ_LOOP_REMAIN t n, Reg.SEQ_LOOP_TOTAL t n, Reg.SEQ_LOOP_CTL t n, Reg.SEQ_LOOP_IDX t n]

/-- They lie between the engines' PROG and the general registers. -/
theorem frameRegs_place {t n o : Nat} (hn : n < 4) (h : o ∈ frameRegs t n) : tileBase t + 0x1020 ≤ o ∧ o < tileBase t + 0x1060 := by
  simp only [frameRegs, Reg.SEQ_LOOP_REMAIN, Reg.SEQ_LOOP_TOTAL, Reg.SEQ_LOOP_CTL, Reg.SEQ_LOOP_IDX, List.mem_cons, List.not_mem_nil, or_false] at h
  omega

section
variable (s : State) (t : Nat) {n : Nat} {f : Field}

theorem State.fld_fetched_frame (hn : n < 4) (hf : f.off ∈ frameRegs t n) (fetch : Ecc) : (s.fetched t fetch).fld f = s.fld f :=
  s.fld_fetched t fetch (by
    have := frameRegs_place hn hf
    simp only [Reg.SEQ_IMEM]
    omega)

theorem State.fld_setOperand_frame (hn : n < 4) (hf : f.off ∈ frameRegs t n) (m v : Nat) : (s.setOperand t m v).fld f = s.fld f :=
  s.fld_setOperand t (by
    have := frameRegs_place hn hf
    omega) m v

theorem State.fld_frame_of_status {r : State} (hn : n < 4) (hf : f.off ∈ frameRegs t n) (h : s.onlyRegs r [Reg.SEQ_STATUS t]) :
    r.fld f = s.fld f :=
  h.2.fld fun hs => by
    have := frameRegs_place hn hf
    simp only [List.mem_singleton, Reg.SEQ_STATUS] at hs
    omega

end

theorem State.flag_of_fld {s r : State} {f : Field} (h : r.fld f = s.fld f) : r.flag f = s.flag f := by rw [State.flag, h, State.flag]

/-! ## The open frames (R93) -/

theorem State.openFrames_congr {s r : State} {t : Nat}
    (h : ∀ n < 4, r.flag (Reg.SEQ_LOOP_CTL.VALID t n) = s.flag (Reg.SEQ_LOOP_CTL.VALID t n)) : r.openFrames t = s.openFrames t := by
  unfold State.openFrames
  rw [List.find?_congr fun n hn => congrArg (!·) (h n (List.mem_range.1 hn))]

theorem State.openFrames_le (s : State) (t : Nat) : s.openFrames t ≤ 4 := by
  unfold State.openFrames
  cases h : (List.range 4).find? (fun n => !s.flag (Reg.SEQ_LOOP_CTL.VALID t n)) with
  | none => exact Nat.le_refl 4
  | some n => exact Nat.le_of_lt (List.mem_range.1 (List.mem_of_find?_eq_some h))

theorem State.openFrames_fetched (s : State) (t : Nat) (fetch : Ecc) : (s.fetched t fetch).openFrames t = s.openFrames t :=
  State.openFrames_congr fun n hn =>
    State.flag_of_fld (s.fld_fetched_frame t hn (f := Reg.SEQ_LOOP_CTL.VALID t n) (by simp [frameRegs]) fetch)

theorem State.openFrames_of_status {s r : State} {t : Nat} (h : s.onlyRegs r [Reg.SEQ_STATUS t]) : r.openFrames t = s.openFrames t :=
  State.openFrames_congr fun n hn =>
    State.flag_of_fld (s.fld_frame_of_status t hn (f := Reg.SEQ_LOOP_CTL.VALID t n) (by simp [frameRegs]) h)

theorem State.frameHolds_fetched (s : State) (t : Nat) (fetch : Ecc) {n : Nat} (hn : n < 4) (a : Nat) :
    (s.fetched t fetch).frameHolds t n a = s.frameHolds t n a := by
  rw [State.frameHolds, s.fld_fetched_frame t hn (f := Reg.SEQ_LOOP_CTL.START t n) (by simp [frameRegs]),
    s.fld_fetched_frame t hn (f := Reg.SEQ_LOOP_CTL.END t n) (by simp [frameRegs]), State.frameHolds]

/-! ## Popped frames (R75) -/

section
variable (s : State) (t n : Nat)

theorem State.onlyRegs_popFrame : s.onlyRegs (s.popFrame t n) [Reg.SEQ_LOOP_CTL t n] := (State.onlyRegs.refl s _).setFlag _ (by simp)

theorem State.valid_popFrame_same : (s.popFrame t n).flag (Reg.SEQ_LOOP_CTL.VALID t n) = false :=
  State.flag_setFlag_same s _ _ (by dsimp only; decide) rfl

theorem State.valid_popFrame_ne {m : Nat} (h : m ≠ n) : (s.popFrame t n).flag (Reg.SEQ_LOOP_CTL.VALID t m) = s.flag (Reg.SEQ_LOOP_CTL.VALID t m) :=
  State.flag_setFlag_ne s _ _ _ (by simp only [Reg.SEQ_LOOP_CTL]; omega)

/-- A popped frame keeps its START and END. -/
theorem State.frameHolds_popFrame (m a : Nat) : (s.popFrame t n).frameHolds t m a = s.frameHolds t m a := by
  have hfld {f : Field} (ho : f.off = Reg.SEQ_LOOP_CTL t m) (hf : f.lo + f.width ≤ 31) : (s.popFrame t n).fld f = s.fld f := by
    by_cases h : m = n
    · subst h
      exact State.fld_setFld_disjoint s (Reg.SEQ_LOOP_CTL.VALID t m) f _ ho (by dsimp only; decide) (.inr hf)
    · exact State.fld_setFld_ne s _ _ _ (by rw [ho]; simp only [Reg.SEQ_LOOP_CTL]; omega)
  rw [State.frameHolds, hfld (f := Reg.SEQ_LOOP_CTL.START t m) rfl (by dsimp only; decide),
    hfld (f := Reg.SEQ_LOOP_CTL.END t m) rfl (by dsimp only; decide), State.frameHolds]

end

/-- A frame below the open frames stays where it, or an open frame inside it, contains the target. -/
def State.frameStays (s : State) (t a k n : Nat) : Bool :=
  decide (k ≤ n) || (List.range k).any (fun m => decide (n ≤ m) && s.frameHolds t m a)

theorem State.frameStays_popFrame (s : State) (t i a k n : Nat) : (s.popFrame t i).frameStays t a k n = s.frameStays t a k n := by
  simp only [State.frameStays, s.frameHolds_popFrame t i]

theorem State.frameStays_of_holds {s : State} {t a k : Nat} (h : s.frameHolds t k a = true) (n : Nat) : s.frameStays t a (k + 1) n = true := by
  simp only [State.frameStays, Bool.or_eq_true, decide_eq_true_eq, List.any_eq_true, List.mem_range, Bool.and_eq_true]
  rcases Nat.lt_or_ge k n with hn | hn
  · exact .inl hn
  · exact .inr ⟨k, Nat.lt_succ_self k, hn, h⟩

/-- Where the innermost frame does not contain the target, it goes, and the others stay as without it. -/
theorem State.frameStays_of_not_holds {s : State} {t a k : Nat} (h : s.frameHolds t k a = false) (n : Nat) :
    s.frameStays t a (k + 1) n = (decide (n ≠ k) && s.frameStays t a k n) := by
  rw [State.frameStays, List.range_succ, List.any_append, State.frameStays, Bool.eq_iff_iff]
  simp only [List.any_cons, List.any_nil, h, Bool.and_false, Bool.or_false, Bool.or_eq_true, Bool.and_eq_true, decide_eq_true_eq,
    List.any_eq_true, List.mem_range]
  constructor
  · rintro (hn | ⟨m, hm, hnm, hh⟩)
    · exact ⟨by omega, .inl (by omega)⟩
    · exact ⟨by omega, .inr ⟨m, hm, hnm, hh⟩⟩
  · rintro ⟨hne, hn | hm⟩
    · exact .inl (by omega)
    · exact .inr hm

theorem State.popFrames_spec (t a : Nat) : ∀ (k : Nat) (s : State), k ≤ 4 →
    s.onlyRegs (s.popFrames t a k) ((List.range 4).map (Reg.SEQ_LOOP_CTL t)) ∧
      ∀ n, (s.popFrames t a k).flag (Reg.SEQ_LOOP_CTL.VALID t n) = (s.flag (Reg.SEQ_LOOP_CTL.VALID t n) && s.frameStays t a k n)
  | 0, s, _ => ⟨.refl s _, fun n => by simp [State.popFrames, State.frameStays]⟩
  | k + 1, s, hk => by
    unfold State.popFrames
    split
    · next h => exact ⟨.refl s _, fun n => by rw [State.frameStays_of_holds h, Bool.and_true]⟩
    · next h =>
      have hnot : s.frameHolds t k a = false := by simpa using h
      obtain ⟨hkeep, hvalid⟩ := State.popFrames_spec t a k (s.popFrame t k) (by omega)
      have hmem : Reg.SEQ_LOOP_CTL t k ∈ (List.range 4).map (Reg.SEQ_LOOP_CTL t) := List.mem_map_of_mem (List.mem_range.2 hk)
      refine ⟨((s.onlyRegs_popFrame t k).mono (by simpa using hmem)).trans hkeep, fun n => ?_⟩
      rw [hvalid, s.frameStays_popFrame, State.frameStays_of_not_holds hnot]
      by_cases hn : n = k
      · subst hn
        simp [s.valid_popFrame_same]
      · simp [s.valid_popFrame_ne t k hn, hn]

/-! ## Control goes on elsewhere (R72) -/

/-- The program counter takes an address, and the sequencer runs on. -/
def State.goTo (s : State) (t a : Nat) : State := (s.setPc t a).setSeqState t 1

theorem State.goTo_spec (s : State) (t a : Nat) :
    (s.goTo t a).pc t = a % 4096 ∧ (s.goTo t a).seqState t = 1 ∧ s.onlyRegs (s.goTo t a) [Reg.SEQ_STATUS t] := by
  have hpc := s.fld_setFld_same (Reg.SEQ_STATUS.PC t) (a % 4096) (by dsimp only; decide)
  have hset : s.onlyRegs (s.setFld (Reg.SEQ_STATUS.PC t) (a % 4096)) [Reg.SEQ_STATUS t] := (State.onlyRegs.refl s _).setFld _ (by simp)
  unfold State.goTo State.setPc
  generalize s.setFld (Reg.SEQ_STATUS.PC t) (a % 4096) = u at *
  exact ⟨((u.pc_setSeqState t 1).trans hpc).trans (Nat.mod_mod _ _), u.seqState_setSeqState t (by decide),
    hset.trans (u.onlyRegs_setSeqState t 1)⟩

/-- The same after the fetch. -/
theorem State.goTo_fetched (s : State) (t a : Nat) (fetch : Ecc) :
    s.onlyRegs ((s.fetched t fetch).goTo t a) ([Reg.SEQ_STATUS t] ++ fetchRegs t fetch) := by
  obtain ⟨-, -, hgo⟩ := (s.fetched t fetch).goTo_spec t a
  exact ((s.onlyRegs_fetched t fetch).mono (by simp)).trans (hgo.mono (by simp))

/-! ## BR (R75) -/

theorem brBody_eq (t w : Nat) (s : State) : brBody t w s = (s.popFrames t (bits w 0 12) (s.openFrames t)).goTo t (bits w 0 12) := rfl

theorem State.frameStays_fetched (s : State) (t : Nat) (fetch : Ecc) {k : Nat} (hk : k ≤ 4) (a n : Nat) :
    (s.fetched t fetch).frameStays t a k n = s.frameStays t a k n := by
  rw [State.frameStays, State.frameStays, Bool.eq_iff_iff]
  simp only [Bool.or_eq_true, List.any_eq_true]
  refine or_congr_right (exists_congr fun m => and_congr_right fun hm => ?_)
  have hm := List.mem_range.1 hm
  rw [s.frameHolds_fetched t fetch (by omega)]

/-- A BR that is taken. -/
theorem State.br_spec (s : State) (t : Nat) (fetch : Ecc) (w : Nat) :
    let r := brBody t w (s.fetched t fetch)
    r.pc t = bits w 0 12 ∧ r.seqState t = 1 ∧
      (∀ n < 4, r.flag (Reg.SEQ_LOOP_CTL.VALID t n) =
        (s.flag (Reg.SEQ_LOOP_CTL.VALID t n) && s.frameStays t (bits w 0 12) (s.openFrames t) n)) ∧
      s.onlyRegs r ((List.range 4).map (Reg.SEQ_LOOP_CTL t) ++ [Reg.SEQ_STATUS t] ++ fetchRegs t fetch) := by
  have hle := s.openFrames_le t
  have hflag {n : Nat} (hn : n < 4) : (s.fetched t fetch).flag (Reg.SEQ_LOOP_CTL.VALID t n) = s.flag (Reg.SEQ_LOOP_CTL.VALID t n) :=
    State.flag_of_fld (s.fld_fetched_frame t hn (f := Reg.SEQ_LOOP_CTL.VALID t n) (by simp [frameRegs]) fetch)
  have hfetch := s.onlyRegs_fetched t fetch
  obtain ⟨hpop, hvalid⟩ := State.popFrames_spec t (bits w 0 12) (s.openFrames t) (s.fetched t fetch) hle
  dsimp only
  rw [brBody_eq, s.openFrames_fetched]
  generalize (s.fetched t fetch).popFrames t (bits w 0 12) (s.openFrames t) = u at *
  obtain ⟨hpc, hstate, hgo⟩ := u.goTo_spec t (bits w 0 12)
  generalize u.goTo t (bits w 0 12) = r at *
  refine ⟨hpc.trans (Nat.mod_eq_of_lt (bits_lt w 0 12)), hstate, fun n hn => ?_,
    ((hfetch.mono (by simp)).trans (hpop.mono fun o ho => by simp [ho])).trans (hgo.mono (by simp))⟩
  have hlast : r.flag (Reg.SEQ_LOOP_CTL.VALID t n) = u.flag (Reg.SEQ_LOOP_CTL.VALID t n) :=
    State.flag_of_fld (u.fld_frame_of_status t hn (f := Reg.SEQ_LOOP_CTL.VALID t n) (by simp [frameRegs]) hgo)
  rw [hlast, hvalid, hflag hn, s.frameStays_fetched t fetch hle]

/-! ## ENDL (R73) -/

/-- ENDL at the END of no open frame. -/
theorem endlBody_misplaced {s : State} {t : Nat}
    (h : s.openFrames t = 0 ∨ s.fld (Reg.SEQ_LOOP_CTL.END t (s.openFrames t - 1)) ≠ s.pc t) :
    endlBody t s = s.issueFault t codeViolation 0x25 0 := by
  unfold endlBody
  cases hn : s.openFrames t with
  | zero => rfl
  | succ n =>
    rw [hn] at h
    exact if_pos (h.resolve_left (Nat.succ_ne_zero n))

/-- Settles O29: a branch pops the frames that do not contain its target, from the innermost outward, and a misplaced ENDL is a fault. -/
theorem branchesPopFrames : Obligations.BranchesPopFrames := by
  refine ⟨fun t fetch s w hu hx hop => ?_, fun t s w hx hop h => ?_⟩
  · have hissue := State.issue_executes hx hu (mine := isOp 0x18) (by simp [isOp, hop]) (brBody t)
    obtain ⟨hpc, hstate, hvalid, hkeep⟩ := s.br_spec t fetch w
    exact ⟨_, congrArg Host.Outcome.next hissue, hpc, hstate, fun n => hvalid n n.isLt, hkeep⟩
  · have hissue := State.issue_executes (fetch := .clean) hx (by decide) (mine := isOp 0x1A) (by simp [isOp, hop]) (fun _ => endlBody t)
    exact congrArg Host.Outcome.next (hissue.trans (endlBody_misplaced h))

/-! ## LOOP (R73, R74) -/

/-- The trip count of a LOOP. -/
def State.loopTrip (s : State) (t w : Nat) : Nat := if bitOf w 23 then bits w 0 16 else s.operand t (bits w 44 8)

theorem State.loopTrip_fetched (s : State) (t : Nat) (fetch : Ecc) (w : Nat) : (s.fetched t fetch).loopTrip t w = s.loopTrip t w := by
  rw [State.loopTrip, s.operand_fetched, State.loopTrip]

/-- Frame `n` opens on the body from the next word to `last`, with `trip` iterations, the first of which begins (Table 04-16). -/
def State.pushFrame (s : State) (t n trip last idx : Nat) : State :=
  let s := s.setReg (Reg.SEQ_LOOP_REMAIN t n) (BitVec.ofNat 32 (trip - 1))
  let s := s.setReg (Reg.SEQ_LOOP_TOTAL t n) (BitVec.ofNat 32 trip)
  let s := s.setReg (Reg.SEQ_LOOP_CTL t n) (BitVec.ofNat 32 (2 ^ 31 + last * 2 ^ 16 + (s.pc t + 1) % 4096))
  s.setReg (Reg.SEQ_LOOP_IDX t n) (BitVec.ofNat 32 idx)

section
variable {s : State} {t w : Nat}

theorem loopBody_zero (hn : s.openFrames t < 4) (hend : s.pc t < bits w 24 12) (h : s.loopTrip t w = 0) :
    loopBody t w s = s.goTo t (bits w 24 12 + 1) := by
  unfold State.loopTrip at h
  unfold loopBody
  dsimp only
  rw [h, if_neg (by omega), if_neg (by omega), if_neg (by decide), if_pos rfl]
  rfl

theorem loopBody_opens (hn : s.openFrames t < 4) (hend : s.pc t < bits w 24 12) (h0 : 0 < s.loopTrip t w) (h : s.loopTrip t w < 2 ^ 32) :
    loopBody t w s =
      ((s.pushFrame t (s.openFrames t) (s.loopTrip t w) (bits w 24 12) (bits w 36 8)).setOperand t (bits w 36 8) 0).retire t := by
  unfold State.loopTrip at *
  unfold loopBody
  dsimp only
  rw [if_neg (by omega), if_neg (by omega), if_neg (by omega), if_neg (by omega)]
  rfl

end

/-- Settles O30: a LOOP of no iterations changes STATUS alone. -/
theorem zeroTripLoopIsSkipped : Obligations.ZeroTripLoopIsSkipped := by
  intro t fetch s w hu hx hop hn hend htrip
  have hissue := State.issue_executes hx hu (mine := isOp 0x19) (by simp [isOp, hop]) (loopBody t)
  rw [loopBody_zero (by rwa [s.openFrames_fetched]) (by rwa [s.pc_fetched]) (by rwa [s.loopTrip_fetched])] at hissue
  obtain ⟨hpc, hstate, hgo⟩ := (s.fetched t fetch).goTo_spec t (bits w 24 12 + 1)
  exact ⟨_, congrArg Host.Outcome.next hissue, hpc, hstate, (State.openFrames_of_status hgo).trans (s.openFrames_fetched t fetch),
    s.goTo_fetched t _ fetch⟩

end Sys2Proof.Machine
end

section
/-! PROOFS. The statement of 04_tile_programs.md on the iterations of loops: the frame that LOOP opens, and the round that ENDL begins
(R73, Table 04-16). -/
namespace Sys2Proof.Machine

/-! ## The frame that opens -/

/-- The word of SEQ_LOOP_CTL of an open frame. -/
def frameWord (last start : Nat) : Word := BitVec.ofNat 32 (2 ^ 31 + last * 2 ^ 16 + start)

theorem frameWord_fields {last start : Nat} (hl : last < 4096) (hs : start < 4096) :
    bits (frameWord last start).toNat 31 1 = 1 ∧ bits (frameWord last start).toNat 16 12 = last ∧
      bits (frameWord last start).toNat 0 12 = start := by
  rw [frameWord, BitVec.toNat_ofNat, Nat.mod_eq_of_lt (by omega)]
  unfold bits
  omega

theorem State.onlyRegs_pushFrame (s : State) (t n trip last idx : Nat) : s.onlyRegs (s.pushFrame t n trip last idx) (frameRegs t n) := by
  have h := State.onlyRegs.refl s (frameRegs t n)
  exact (((h.setReg _ (by simp [frameRegs])).setReg _ (by simp [frameRegs])).setReg _ (by simp [frameRegs])).setReg _ (by simp [frameRegs])

theorem State.pc_of_frame {s r : State} {t n : Nat} (hn : n < 4) (h : s.onlyRegs r (frameRegs t n)) : r.pc t = s.pc t :=
  h.2.fld fun hs => by
    have := frameRegs_place hn hs
    simp only [Reg.SEQ_STATUS] at this
    omega

/-- The four registers of the frame. -/
theorem State.reg_pushFrame (s : State) {t n : Nat} (hn : n < 4) (trip last idx : Nat) :
    let r := s.pushFrame t n trip last idx
    r.reg (Reg.SEQ_LOOP_REMAIN t n) = BitVec.ofNat 32 (trip - 1) ∧ r.reg (Reg.SEQ_LOOP_TOTAL t n) = BitVec.ofNat 32 trip ∧
      r.reg (Reg.SEQ_LOOP_CTL t n) = frameWord last ((s.pc t + 1) % 4096) ∧ r.reg (Reg.SEQ_LOOP_IDX t n) = BitVec.ofNat 32 idx := by
  have hpc : ((s.setReg (Reg.SEQ_LOOP_REMAIN t n) (BitVec.ofNat 32 (trip - 1))).setReg (Reg.SEQ_LOOP_TOTAL t n) (BitVec.ofNat 32 trip)).pc t = s.pc t :=
    State.pc_of_frame hn (((State.onlyRegs.refl s _).setReg _ (by simp [frameRegs])).setReg _ (by simp [frameRegs]))
  dsimp only
  unfold State.pushFrame
  dsimp only
  rw [hpc, frameWord]
  simp

/-- Table 04-16 of the frame that LOOP opens. -/
structure State.FrameOpens (r : State) (t n trip last start idx : Nat) : Prop where
  valid : r.flag (Reg.SEQ_LOOP_CTL.VALID t n) = true
  start : r.fld (Reg.SEQ_LOOP_CTL.START t n) = start
  last : r.fld (Reg.SEQ_LOOP_CTL.END t n) = last
  remain : r.fld (Reg.SEQ_LOOP_REMAIN.COUNT t n) = trip - 1
  total : r.fld (Reg.SEQ_LOOP_TOTAL.COUNT t n) = trip
  idx : r.fld (Reg.SEQ_LOOP_IDX.IDX t n) = idx

theorem State.frameOpens_pushFrame (s : State) {t n trip last idx : Nat} (hn : n < 4) (ht : trip < 2 ^ 32) (hl : last < 4096) (hi : idx < 256) :
    (s.pushFrame t n trip last idx).FrameOpens t n trip last ((s.pc t + 1) % 4096) idx := by
  obtain ⟨hremain, htotal, hctl, hidx⟩ := s.reg_pushFrame (t := t) hn trip last idx
  obtain ⟨hv, he, hs⟩ := frameWord_fields hl (Nat.mod_lt (s.pc t + 1) (by decide : 0 < 4096))
  have hcount {v : Nat} (hv : v < 2 ^ 32) : bits (BitVec.ofNat 32 v).toNat 0 32 = v := by
    rw [BitVec.toNat_ofNat, bits]
    omega
  exact {
    valid := by rw [State.flag, State.fld, hctl, hv]; rfl
    start := by rw [State.fld, hctl, hs]
    last := by rw [State.fld, hctl, he]
    remain := by rw [State.fld, hremain, hcount (by omega)]
    total := by rw [State.fld, htotal, hcount ht]
    idx := by
      rw [State.fld, hidx, BitVec.toNat_ofNat, bits]
      dsimp only
      omega }

theorem State.FrameOpens.congr {r u : State} {t n trip last start idx : Nat} (h : r.FrameOpens t n trip last start idx)
    (hu : ∀ {f : Field}, f.off ∈ frameRegs t n → u.fld f = r.fld f) : u.FrameOpens t n trip last start idx where
  valid := (State.flag_of_fld (hu (by simp [frameRegs]))).trans h.valid
  start := (hu (by simp [frameRegs])).trans h.start
  last := (hu (by simp [frameRegs])).trans h.last
  remain := (hu (by simp [frameRegs])).trans h.remain
  total := (hu (by simp [frameRegs])).trans h.total
  idx := (hu (by simp [frameRegs])).trans h.idx

/-- A LOOP with iterations to run, after its fetch. -/
theorem State.loop_spec (s : State) {t n trip last idx : Nat} (fetch : Ecc) (hn : n < 4) (ht : trip < 2 ^ 32) (hl : last < 4096)
    (hi : idx < 256) :
    let r := (((s.fetched t fetch).pushFrame t n trip last idx).setOperand t idx 0).retire t
    r.pc t = (s.pc t + 1) % 4096 ∧ r.seqState t = 1 ∧ r.FrameOpens t n trip last ((s.pc t + 1) % 4096) idx ∧
      r.operand t idx = readsBack idx 0 ∧ s.onlyRegs r (destRegs t idx ++ frameRegs t n ++ [Reg.SEQ_STATUS t] ++ fetchRegs t fetch) := by
  have hopen := (s.fetched t fetch).frameOpens_pushFrame (t := t) hn ht hl hi
  have hpush := (s.fetched t fetch).onlyRegs_pushFrame t n trip last idx
  have hpc := State.pc_of_frame hn hpush
  have hfetch := s.onlyRegs_fetched t fetch
  rw [s.pc_fetched] at hopen hpc
  dsimp only
  generalize (s.fetched t fetch).pushFrame t n trip last idx = u at *
  obtain ⟨hread, hpc', hstate, hwrite⟩ := u.writeRetire_spec t idx 0
  have hkeep {f : Field} (hf : f.off ∈ frameRegs t n) : ((u.setOperand t idx 0).retire t).fld f = u.fld f := hwrite.2.fld fun ho => by
    have hplace := frameRegs_place hn hf
    obtain ho | ho := List.mem_append.1 ho
    · have := destRegs_place ho
      omega
    · simp only [List.mem_singleton, Reg.SEQ_STATUS] at ho
      omega
  generalize (u.setOperand t idx 0).retire t = r at *
  exact ⟨by rw [hpc', hpc], hstate, hopen.congr hkeep, hread,
    ((hfetch.mono (List.subset_append_right _ _)).trans (hpush.mono fun o ho => by simp [ho])).trans (hwrite.mono fun o ho => by
      simp only [List.mem_append] at ho ⊢
      tauto)⟩

/-! ## The round that begins -/

section
variable {s : State} {t n : Nat}

theorem endlBody_closes (hn : s.openFrames t = n + 1) (hend : s.fld (Reg.SEQ_LOOP_CTL.END t n) = s.pc t)
    (hleft : s.fld (Reg.SEQ_LOOP_REMAIN.COUNT t n) = 0) : endlBody t s = (s.popFrame t n).retire t := by
  unfold endlBody
  rw [hn]
  exact (if_neg (not_not.2 hend)).trans (if_pos hleft)

/-- The iteration that begins is counted off and numbered (R73). -/
def State.nextRound (s : State) (t n : Nat) : State :=
  (s.setReg (Reg.SEQ_LOOP_REMAIN t n) (BitVec.ofNat 32 (s.fld (Reg.SEQ_LOOP_REMAIN.COUNT t n) - 1))).setOperand t
    (s.fld (Reg.SEQ_LOOP_IDX.IDX t n)) (s.fld (Reg.SEQ_LOOP_TOTAL.COUNT t n) - s.fld (Reg.SEQ_LOOP_REMAIN.COUNT t n))

theorem State.nextRound_spec (s : State) {t n : Nat} (hn : n < 4) :
    let r := s.nextRound t n
    let idx := s.fld (Reg.SEQ_LOOP_IDX.IDX t n)
    r.fld (Reg.SEQ_LOOP_REMAIN.COUNT t n) = s.fld (Reg.SEQ_LOOP_REMAIN.COUNT t n) - 1 ∧
      r.fld (Reg.SEQ_LOOP_CTL.START t n) = s.fld (Reg.SEQ_LOOP_CTL.START t n) ∧
      r.operand t idx = readsBack idx (s.fld (Reg.SEQ_LOOP_TOTAL.COUNT t n) - s.fld (Reg.SEQ_LOOP_REMAIN.COUNT t n)) ∧
      s.onlyRegs r (destRegs t idx ++ [Reg.SEQ_LOOP_REMAIN t n]) := by
  have hleft : s.fld (Reg.SEQ_LOOP_REMAIN.COUNT t n) < 2 ^ 32 := bits_lt _ _ _
  have hcount := s.fld_setReg_same (Reg.SEQ_LOOP_REMAIN.COUNT t n) (BitVec.ofNat 32 (s.fld (Reg.SEQ_LOOP_REMAIN.COUNT t n) - 1))
  have hstart := s.fld_setReg_ne (Reg.SEQ_LOOP_CTL.START t n) (o := Reg.SEQ_LOOP_REMAIN t n)
    (BitVec.ofNat 32 (s.fld (Reg.SEQ_LOOP_REMAIN.COUNT t n) - 1)) (by simp only [Reg.SEQ_LOOP_CTL, Reg.SEQ_LOOP_REMAIN]; omega)
  have hset := (State.onlyRegs.refl s (destRegs t (s.fld (Reg.SEQ_LOOP_IDX.IDX t n)) ++ [Reg.SEQ_LOOP_REMAIN t n])).setReg
    (o := Reg.SEQ_LOOP_REMAIN t n) (BitVec.ofNat 32 (s.fld (Reg.SEQ_LOOP_REMAIN.COUNT t n) - 1)) (by simp)
  dsimp only
  unfold State.nextRound
  dsimp only at hcount
  generalize s.setReg (Reg.SEQ_LOOP_REMAIN t n) _ = u at *
  refine ⟨(u.fld_setOperand_frame t hn (by simp [frameRegs]) _ _).trans (hcount.trans ?_),
    (u.fld_setOperand_frame t hn (by simp [frameRegs]) _ _).trans hstart, u.operand_setOperand t _ _,
    hset.trans ((u.onlyRegs_setOperand t _ _).mono (by simp))⟩
  rw [BitVec.toNat_ofNat, bits]
  omega

theorem endlBody_repeats (hn : s.openFrames t = n + 1) (hend : s.fld (Reg.SEQ_LOOP_CTL.END t n) = s.pc t)
    (hleft : s.fld (Reg.SEQ_LOOP_REMAIN.COUNT t n) ≠ 0) :
    endlBody t s = (s.nextRound t n).goTo t ((s.nextRound t n).fld (Reg.SEQ_LOOP_CTL.START t n)) := by
  have hother (f : Field) (hf : f.off ≠ Reg.SEQ_LOOP_REMAIN t n) (v : Word) : (s.setReg (Reg.SEQ_LOOP_REMAIN t n) v).fld f = s.fld f :=
    s.fld_setReg_ne f v hf
  unfold endlBody State.nextRound
  rw [hn]
  dsimp only
  rw [if_neg (not_not.2 hend), if_neg hleft, hother (Reg.SEQ_LOOP_IDX.IDX t n) (by simp only [Reg.SEQ_LOOP_IDX, Reg.SEQ_LOOP_REMAIN]; omega),
    hother (Reg.SEQ_LOOP_TOTAL.COUNT t n) (by simp only [Reg.SEQ_LOOP_TOTAL, Reg.SEQ_LOOP_REMAIN]; omega)]
  rfl

end

/-- ENDL with no iterations left. -/
theorem State.closeFrame_spec (s : State) (t n : Nat) (hn : n < 4) :
    let r := (s.popFrame t n).retire t
    r.pc t = (s.pc t + 1) % 4096 ∧ r.seqState t = 1 ∧ r.flag (Reg.SEQ_LOOP_CTL.VALID t n) = false ∧
      s.onlyRegs r [Reg.SEQ_LOOP_CTL t n, Reg.SEQ_STATUS t] := by
  have hpop := s.onlyRegs_popFrame t n
  have hvalid := s.valid_popFrame_same t n
  have hpc := State.pc_of_frame hn (hpop.mono (m := frameRegs t n) (by simp [frameRegs]))
  dsimp only
  generalize s.popFrame t n = u at *
  obtain ⟨hpc', hstate, -, hretire⟩ := u.retire_spec t
  exact ⟨by rw [hpc', hpc], hstate,
    (State.flag_of_fld (u.fld_frame_of_status t hn (f := Reg.SEQ_LOOP_CTL.VALID t n) (by simp [frameRegs]) hretire)).trans hvalid,
    (hpop.mono (by simp)).trans (hretire.mono (by simp))⟩

/-- ENDL with iterations left. -/
theorem State.repeatFrame_spec (s : State) (t n : Nat) (hn : n < 4) :
    let r := (s.nextRound t n).goTo t ((s.nextRound t n).fld (Reg.SEQ_LOOP_CTL.START t n))
    let idx := s.fld (Reg.SEQ_LOOP_IDX.IDX t n)
    r.pc t = s.fld (Reg.SEQ_LOOP_CTL.START t n) ∧ r.seqState t = 1 ∧
      r.fld (Reg.SEQ_LOOP_REMAIN.COUNT t n) = s.fld (Reg.SEQ_LOOP_REMAIN.COUNT t n) - 1 ∧
      r.operand t idx = readsBack idx (s.fld (Reg.SEQ_LOOP_TOTAL.COUNT t n) - s.fld (Reg.SEQ_LOOP_REMAIN.COUNT t n)) ∧
      s.onlyRegs r (destRegs t idx ++ [Reg.SEQ_LOOP_REMAIN t n, Reg.SEQ_STATUS t]) := by
  have hlt : s.fld (Reg.SEQ_LOOP_CTL.START t n) < 4096 := bits_lt _ _ _
  obtain ⟨hleft, hstart, hread, hround⟩ := s.nextRound_spec (t := t) hn
  dsimp only
  rw [hstart]
  generalize s.nextRound t n = u at *
  obtain ⟨hpc, hstate, hgo⟩ := u.goTo_spec t (s.fld (Reg.SEQ_LOOP_CTL.START t n))
  exact ⟨hpc.trans (Nat.mod_eq_of_lt hlt), hstate,
    (u.fld_frame_of_status t hn (f := Reg.SEQ_LOOP_REMAIN.COUNT t n) (by simp [frameRegs]) hgo).trans hleft,
    (u.operand_status t hgo _).trans hread, (hround.mono (by simp)).trans (hgo.mono (by simp))⟩

/-- Settles O31: LOOP writes the frame of Table 04-16 and retires; ENDL closes its frame, or begins the next round at START. -/
theorem loopsCountTheirIterations : Obligations.LoopsCountTheirIterations := by
  refine ⟨fun t fetch s w hu hx hop hn hend => ?_, fun t fetch s w n hu hx hop hn hend => ?_⟩
  · intro trip n h0 ht
    have hissue := State.issue_executes hx hu (mine := isOp 0x19) (by simp [isOp, hop]) (loopBody t)
    rw [loopBody_opens (by rwa [s.openFrames_fetched]) (by rwa [s.pc_fetched]) (by rwa [s.loopTrip_fetched]) (by rwa [s.loopTrip_fetched]),
      s.openFrames_fetched, s.loopTrip_fetched] at hissue
    obtain ⟨hpc, hstate, hframe, hread, hkeep⟩ := s.loop_spec fetch hn ht (bits_lt w 24 12) (bits_lt w 36 8)
    refine ⟨_, congrArg Host.Outcome.next hissue, hpc, hstate, hframe.valid, hframe.start, hframe.last, hframe.remain, hframe.total, hframe.idx,
      hread, hkeep.mono fun o ho => ?_⟩
    simp only [frameRegs, List.mem_append, List.mem_cons, List.not_mem_nil, or_false] at ho ⊢
    tauto
  · have hn4 : n < 4 := Nat.lt_of_succ_le (hn.symm.trans_le (s.openFrames_le t))
    have hissue := State.issue_executes hx hu (mine := isOp 0x1A) (by simp [isOp, hop]) (fun _ => endlBody t)
    refine ⟨_, congrArg Host.Outcome.next hissue, ?_⟩
    have hfetch := s.onlyRegs_fetched t fetch
    have hfld {f : Field} (hf : f.off ∈ frameRegs t n) := s.fld_fetched_frame t hn4 hf fetch
    have hopen := (s.openFrames_fetched t fetch).trans hn
    have hpc := s.pc_fetched t fetch
    have hlast := (hfld (f := Reg.SEQ_LOOP_CTL.END t n) (by simp [frameRegs])).trans (hend.trans hpc.symm)
    have hleft := hfld (f := Reg.SEQ_LOOP_REMAIN.COUNT t n) (by simp [frameRegs])
    have hstart := hfld (f := Reg.SEQ_LOOP_CTL.START t n) (by simp [frameRegs])
    have htotal := hfld (f := Reg.SEQ_LOOP_TOTAL.COUNT t n) (by simp [frameRegs])
    have hidx := hfld (f := Reg.SEQ_LOOP_IDX.IDX t n) (by simp [frameRegs])
    rw [← hpc, ← hleft, ← hstart, ← htotal, ← hidx]
    generalize s.fetched t fetch = u at *
    by_cases h0 : u.fld (Reg.SEQ_LOOP_REMAIN.COUNT t n) = 0
    · obtain ⟨hpc', hstate, hvalid, hkeep⟩ := u.closeFrame_spec t n hn4
      rw [if_pos h0, endlBody_closes hopen hlast h0]
      exact ⟨hstate, hpc', hvalid, (hfetch.mono (by simp)).trans (hkeep.mono (by simp))⟩
    · obtain ⟨hpc', hstate, hcount, hread, hkeep⟩ := u.repeatFrame_spec t n hn4
      rw [if_neg h0, endlBody_repeats hopen hlast h0]
      exact ⟨hstate, hpc', hcount, hread, (hfetch.mono (List.subset_append_right _ _)).trans (hkeep.mono (by simp))⟩

end Sys2Proof.Machine
end

section
/-! PROOFS. What the issue of a long instruction reads (R66, R88, R91): neither the fetch nor the engine's own registers change it. -/
namespace Sys2Proof.Machine

/-! ## What the fetch leaves (R87) -/

section
variable (s : State) (t : Nat) (fetch : Ecc)

theorem State.strm_fetched (n f : Nat) : (s.fetched t fetch).strm t n f = s.strm t n f :=
  congrArg BitVec.toNat (s.reg_fetched t fetch (by simp only [Reg.SEQ_S, Reg.SEQ_IMEM]; omega))

theorem State.sInner_fetched (n : Nat) : (s.fetched t fetch).sInner t n = s.sInner t n := by rw [State.sInner, s.strm_fetched, State.sInner]

theorem State.sOuter_fetched (n : Nat) : (s.fetched t fetch).sOuter t n = s.sOuter t n := by rw [State.sOuter, s.strm_fetched, State.sOuter]

theorem State.sLen_fetched (n : Nat) : (s.fetched t fetch).sLen t n = s.sLen t n := by
  rw [State.sLen, s.sInner_fetched, s.sOuter_fetched, State.sLen]

theorem State.sRow_fetched (n r : Nat) : (s.fetched t fetch).sRow t n r = s.sRow t n r := by simp only [State.sRow, s.strm_fetched t fetch]

theorem State.streamOk_fetched (n : Nat) : (s.fetched t fetch).streamOk t n = s.streamOk t n := by
  simp only [State.streamOk, s.sLen_fetched t fetch, s.strm_fetched t fetch, s.sRow_fetched t fetch, s.sOuter_fetched t fetch,
    s.sInner_fetched t fetch]

theorem State.rowFits_fetched (n f len : Nat) : (s.fetched t fetch).rowFits t n f len = s.rowFits t n f len := by
  rw [State.rowFits, s.sInner_fetched, State.rowFits]

theorem State.holds_fetched (n b : Nat) : (s.fetched t fetch).holds t n b = s.holds t n b := by rw [State.holds, s.sLen_fetched, State.holds]

theorem State.tapEn_fetched : (s.fetched t fetch).tapEn t = s.tapEn t := s.fld_fetched t fetch (by simp only [Reg.TMP_CTRL, Reg.SEQ_IMEM]; omega)

theorem State.anvCtrl_fetched : (s.fetched t fetch).reg (Reg.ANV_CTRL t) = s.reg (Reg.ANV_CTRL t) :=
  s.reg_fetched t fetch (by simp only [Reg.ANV_CTRL, Reg.SEQ_IMEM]; omega)

theorem State.actValid_fetched : (s.fetched t fetch).actValid t = s.actValid t :=
  State.flag_of_fld (s.fld_fetched t fetch (f := Reg.ANV_STATUS.ACTIVE_VALID t) (by simp only [Reg.ANV_STATUS, Reg.SEQ_IMEM]; omega))

theorem State.actHeader_fetched : (s.fetched t fetch).actHeader t = s.actHeader t := by
  rw [State.actHeader, State.tile_congr (s.tiles_fetched t fetch), State.actHeader]

theorem State.partOf_fetched : (s.fetched t fetch).partOf t = s.partOf t :=
  State.partOf_congr ((s.onlyRegs_fetched t fetch).2.samePrt fun o ho => by
    rw [mem_fetchRegs ho]
    simp only [Reg.SEQ_IMEM, tileBase]
    omega) t

/-! ## The checks of issue -/

theorem State.commonIssueFault_fetched (w : Nat) : (s.fetched t fetch).commonIssueFault t w = s.commonIssueFault t w := by
  have hq : bits w 31 5 < 32 := bits_lt w 31 5
  unfold State.commonIssueFault State.recvQueueOk State.sendQueueOk
  dsimp only
  rw [s.localOut_fetched t fetch hq, s.localIn_fetched t fetch hq, s.streamOk_fetched t fetch]

theorem State.wldIssueFault_fetched (w : Nat) : (s.fetched t fetch).wldIssueFault t w = s.wldIssueFault t w := by
  simp only [State.wldIssueFault, s.strm_fetched t fetch, s.sRow_fetched t fetch, s.sOuter_fetched t fetch, s.sInner_fetched t fetch,
    s.streamOk_fetched t fetch, s.sLen_fetched t fetch]

theorem State.aStreamOk_fetched (w m n : Nat) : (s.fetched t fetch).aStreamOk t w m n = s.aStreamOk t w m n := by
  simp only [State.aStreamOk, s.sInner_fetched t fetch, s.sOuter_fetched t fetch, s.strm_fetched t fetch, s.sRow_fetched t fetch]

theorem State.kidxOk_fetched (w k : Nat) : (s.fetched t fetch).kidxOk t w k = s.kidxOk t w k := by
  simp only [State.kidxOk, s.sOuter_fetched t fetch]

theorem State.mmaCheck_fetched (w d : Nat) : (s.fetched t fetch).mmaCheck t w d = s.mmaCheck t w d := by
  have hstreams : (fun i => (s.fetched t fetch).aStreamOk t w (dimM d) (mmaSa w + i)) = fun i => s.aStreamOk t w (dimM d) (mmaSa w + i) :=
    funext fun i => s.aStreamOk_fetched t fetch w _ _
  unfold State.mmaCheck
  dsimp only
  rw [hstreams]

theorem State.mmaIssueFault_fetched (w d : Nat) : (s.fetched t fetch).mmaIssueFault t w d = s.mmaIssueFault t w d := by
  have hstreams : (fun i => decide (15 < mmaSa w + i) || (s.fetched t fetch).streamOk t (mmaSa w + i)) =
      fun i => decide (15 < mmaSa w + i) || s.streamOk t (mmaSa w + i) := funext fun i => by rw [s.streamOk_fetched]
  rw [State.mmaIssueFault, hstreams, s.mmaCheck_fetched, s.actValid_fetched, s.actHeader_fetched, s.kidxOk_fetched, State.mmaIssueFault]

theorem State.drainIssueFault_fetched (w d : Nat) : (s.fetched t fetch).drainIssueFault t w d = s.drainIssueFault t w d := by
  simp only [State.drainIssueFault, s.streamOk_fetched t fetch, s.sLen_fetched t fetch, s.strm_fetched t fetch]

theorem State.fnIssueFault_fetched (w n : Nat) : (s.fetched t fetch).fnIssueFault t w n = s.fnIssueFault t w n := by
  simp only [State.fnIssueFault, s.sLen_fetched t fetch, s.streamOk_fetched t fetch, s.rowFits_fetched t fetch, s.sOuter_fetched t fetch,
    s.sInner_fetched t fetch, s.holds_fetched t fetch]

theorem State.smaxIssueFault_fetched (w n : Nat) : (s.fetched t fetch).smaxIssueFault t w n = s.smaxIssueFault t w n := by
  simp only [State.smaxIssueFault, s.sLen_fetched t fetch, s.streamOk_fetched t fetch, s.rowFits_fetched t fetch, s.sOuter_fetched t fetch,
    s.holds_fetched t fetch]

theorem State.ropeIssueFault_fetched (w d n : Nat) : (s.fetched t fetch).ropeIssueFault t w d n = s.ropeIssueFault t w d n := by
  simp only [State.ropeIssueFault, s.sLen_fetched t fetch, s.streamOk_fetched t fetch, s.rowFits_fetched t fetch, s.sOuter_fetched t fetch,
    s.holds_fetched t fetch]

theorem State.topkIssueFault_fetched (w n : Nat) : (s.fetched t fetch).topkIssueFault t w n = s.topkIssueFault t w n := by
  simp only [State.topkIssueFault, s.sLen_fetched t fetch, s.streamOk_fetched t fetch, s.rowFits_fetched t fetch, s.sOuter_fetched t fetch]

theorem State.sampleIssueFault_fetched (w v : Nat) : (s.fetched t fetch).sampleIssueFault t w v = s.sampleIssueFault t w v := by
  simp only [State.sampleIssueFault, s.sLen_fetched t fetch, s.streamOk_fetched t fetch, s.rowFits_fetched t fetch, s.sOuter_fetched t fetch]

theorem State.stopIssueFault_fetched (w : Nat) : (s.fetched t fetch).stopIssueFault t w = s.stopIssueFault t w := by
  simp only [State.stopIssueFault, s.sLen_fetched t fetch, s.streamOk_fetched t fetch]

theorem State.rngIssueFault_fetched (w : Nat) : (s.fetched t fetch).rngIssueFault t w = s.rngIssueFault t w := by
  rw [State.rngIssueFault, s.streamOk_fetched, State.rngIssueFault]

theorem State.gatherIssueFault_fetched (w : Nat) (ok : Bool) (n rbase : Nat) :
    (s.fetched t fetch).gatherIssueFault t w ok n rbase = s.gatherIssueFault t w ok n rbase := by
  simp only [State.gatherIssueFault, s.streamOk_fetched t fetch, s.sLen_fetched t fetch]

theorem State.sendQueueOk_fetched (w : Nat) : (s.fetched t fetch).sendQueueOk t (bgQ w) = s.sendQueueOk t (bgQ w) :=
  s.localIn_fetched t fetch (bits_lt w 39 5)

theorem State.recvQueueOk_fetched (w : Nat) : (s.fetched t fetch).recvQueueOk t (bgQ w) = s.recvQueueOk t (bgQ w) :=
  s.localOut_fetched t fetch (bits_lt w 39 5)

theorem State.marchIssueFault_fetched (w mask : Nat) : (s.fetched t fetch).marchIssueFault t w mask = s.marchIssueFault t w mask := by
  have hfld (f : Field) (b : Nat) (hf : f.off = Reg.BIL_OWN t b) : (s.fetched t fetch).fld f = s.fld f :=
    s.fld_fetched t fetch (by rw [hf]; simp only [Reg.BIL_OWN, Reg.SEQ_IMEM]; omega)
  simp only [State.marchIssueFault, s.partOf_fetched t fetch, fun b => hfld (Reg.BIL_OWN.OWNER t b) b rfl,
    fun b => hfld (Reg.BIL_OWN.PART t b) b rfl]

end

/-- What a form reads at issue, the fetch leaves. -/
theorem LongForm.reads_fetched (s : State) (t : Nat) (fetch : Ecc) (w : Nat) : ∀ f ∈ longForms,
    f.fault (s.fetched t fetch) t w = f.fault s t w ∧ f.empty (s.fetched t fetch) t w = f.empty s t w ∧
      f.ops (s.fetched t fetch) t w = f.ops s t w := by
  simp only [longForms, List.forall_mem_cons, s.operand_fetched t fetch, s.sLen_fetched t fetch, s.tapEn_fetched t fetch,
    s.commonIssueFault_fetched t fetch, s.wldIssueFault_fetched t fetch, s.mmaIssueFault_fetched t fetch, s.drainIssueFault_fetched t fetch,
    s.fnIssueFault_fetched t fetch, s.smaxIssueFault_fetched t fetch, s.ropeIssueFault_fetched t fetch, s.topkIssueFault_fetched t fetch,
    s.sampleIssueFault_fetched t fetch, s.stopIssueFault_fetched t fetch, s.rngIssueFault_fetched t fetch, s.sendQueueOk_fetched t fetch,
    s.recvQueueOk_fetched t fetch, s.gatherIssueFault_fetched t fetch, s.marchIssueFault_fetched t fetch, true_and]
  exact List.forall_mem_nil _

/-- What a tile takes beside the operands changes its own state alone, and the fetch leaves it. -/
theorem LongForm.takes_fetched (s : State) (t : Nat) (fetch : Ecc) : ∀ f ∈ longForms,
    f.takes (s.fetched t fetch) t = { s.fetched t fetch with tiles := (f.takes s t).tiles } := by
  have hid : s.fetched t fetch = { s.fetched t fetch with tiles := s.tiles } := by rw [← s.tiles_fetched t fetch]
  have hmma : (s.fetched t fetch).modTile t (fun x => { x with ctrl := (s.fetched t fetch).reg (Reg.ANV_CTRL t) }) =
      { s.fetched t fetch with tiles := (s.modTile t (fun x => { x with ctrl := s.reg (Reg.ANV_CTRL t) })).tiles } := by
    rw [s.anvCtrl_fetched]
    simp only [State.modTile, State.setTile, State.tile_congr (s.tiles_fetched t fetch), s.tiles_fetched t fetch]
  simp only [longForms, List.forall_mem_cons, ← hid, hmma, true_and]
  exact List.forall_mem_nil _

/-- A form with nothing to do sets at most one register to 0. -/
theorem LongForm.zeroes_cases (w : Nat) : ∀ f ∈ longForms, f.zeroes w = [] ∨ ∃ n, f.zeroes w = [n] := by
  simp [longForms]

end Sys2Proof.Machine
end

section
/-! PROOFS. The statement of 04_tile_programs.md on long instructions: an engine takes a word with the values it reads (R61, R62, R72, R88). -/
namespace Sys2Proof.Machine

/-! ## The engine takes a word -/

/-- No register that an operand names is one of an engine. -/
theorem not_mem_holdRegs {t e n o : Nat} (he : e < 4) (hn : specOk n = true) (ho : o ∈ destRegs t n) : o ∉ holdRegs t e := fun h => by
  have := mem_destRegs hn ho
  simp only [holdRegs, Reg.SEQ_INST, Reg.SEQ_PROG, Reg.SEQ_STATUS, List.mem_cons, List.not_mem_nil, or_false] at h
  omega

/-- The values that a word reads, as long as they are of registers of Table 04-2. -/
theorem State.readRegs_congr {s r : State} {t w : Nat} (hd : decodeFault (tileType t) w = none)
    (h : ∀ n, specOk n = true → r.operand t n = s.operand t n) : r.readRegs t w = s.readRegs t w := by
  unfold State.readRegs
  cases hi : opInfo (tileType t) w with
  | none => rfl
  | some i =>
    refine List.map_congr_left fun n hn => ?_
    rw [h n (specOk_of_decodes hd hi n (List.mem_append_left _ hn))]

/-- What an engine holds of a word. -/
def State.engineTaking (s : State) (t w : Nat) (ops : List Nat) : Engine :=
  ⟨s.pc t, ops.map (BitVec.ofNat 64), BitVec.ofNat 64 w, s.readRegs t w⟩

theorem State.prog_heldRegs (s : State) (t e w : Nat) : (s.heldRegs t e w).prog t e = 0 :=
  congrArg BitVec.toNat (State.reg_setReg_same _ _ _)

/-- An engine takes a word that decodes. -/
theorem State.holdWord_taking (s : State) {t e w : Nat} (he : e < 4) (hw : w < 2 ^ 64) (hd : decodeFault (tileType t) w = none) (ops : List Nat) :
    s.holdWord t e w ops = { s with regs := (s.heldRegs t e w).regs, tiles := (s.setEngine t e (s.engineTaking t w ops)).tiles } := by
  obtain ⟨-, -, hpc, hall, hkeep⟩ := s.heldRegs_spec t he hw
  have hread : (s.heldRegs t e w).readRegs t w = s.readRegs t w :=
    State.readRegs_congr hd fun n hn => State.operand_congr fun o ho => hkeep o (not_mem_holdRegs he hn ho)
  have hhold : s.holdWord t e w ops = (s.heldRegs t e w).setEngine t e ((s.heldRegs t e w).engineTaking t w ops) := rfl
  rw [hhold, State.engineTaking, hpc, hread, ← State.engineTaking]
  generalize s.heldRegs t e w = u at *
  have hset : u.setEngine t e (s.engineTaking t w ops) = { u with tiles := (u.setEngine t e (s.engineTaking t w ops)).tiles } := rfl
  rw [hset, State.setEngine_tiles_congr (s := s) (r := u) (by rw [hall]), hall]

/-- A long instruction starts. -/
theorem State.startEngine_taking (s : State) {t e w : Nat} (he : e < 4) (hw : w < 2 ^ 64) (hd : decodeFault (tileType t) w = none)
    (ops : List Nat) :
    let r := s.startEngine t e w ops
    r.pc t = (s.pc t + 1) % 4096 ∧ r.seqState t = 1 ∧ r.fld (Reg.SEQ_STATUS.BUSY t) = s.fld (Reg.SEQ_STATUS.BUSY t) ||| 2 ^ e ∧
      r.heldWord t e = w ∧ r.prog t e = 0 ∧
      r = { s with regs := r.regs, tiles := (s.setEngine t e (s.engineTaking t w ops)).tiles } ∧ s.keepsRegs r (holdRegs t e) := by
  obtain ⟨hword, hbusy, hpc, -, hkeep⟩ := s.heldRegs_spec t he hw
  have hprog := s.prog_heldRegs t e w
  have hhold := s.holdWord_taking he hw hd ops
  have hregs : (s.holdWord t e w ops).regs = (s.heldRegs t e w).regs := by rw [hhold]
  dsimp only
  unfold State.startEngine
  generalize s.heldRegs t e w = x at *
  generalize s.holdWord t e w ops = u at *
  have hreg (o : Nat) : u.reg o = x.reg o := State.reg_congr hregs o
  obtain ⟨hpc', hstate, hbusy', hall, hkeep'⟩ := u.retire_spec t
  generalize u.retire t = r at *
  have hpcu : u.pc t = s.pc t := (State.fld_of_regs hregs _).trans hpc
  have hbusyu := (State.fld_of_regs hregs (Reg.SEQ_STATUS.BUSY t)).trans hbusy
  have hwordu : u.heldWord t e = w := (State.reg64_congr (hreg _) (hreg _)).trans hword
  have hprogr : r.reg (Reg.SEQ_PROG t e) = u.reg (Reg.SEQ_PROG t e) :=
    hkeep' _ (by simp only [Reg.SEQ_PROG, Reg.SEQ_STATUS, List.mem_singleton]; omega)
  refine ⟨by rw [hpc', hpcu], hstate, hbusy'.trans hbusyu, (hkeep'.heldWord_status e).trans hwordu, ?_, by rw [hall, hhold], ?_⟩
  · rw [State.prog, hprogr, hreg]
    exact hprog
  · exact State.keepsRegs.trans (m := [Reg.SEQ_STATUS t]) (fun o ho => (hreg o).trans (hkeep o ho)) hkeep' (List.Subset.refl _)
      (by simp [holdRegs])

/-- One engine becomes busy. -/
theorem State.engineBusy_of_busy {s r : State} {t e : Nat}
    (h : r.fld (Reg.SEQ_STATUS.BUSY t) = s.fld (Reg.SEQ_STATUS.BUSY t) ||| 2 ^ e) :
    r.engineBusy t e = true ∧ ∀ k, k ≠ e → r.engineBusy t k = s.engineBusy t k := by
  refine ⟨by rw [State.engineBusy, h, bitOf_or, bitOf_two_pow_self, Bool.or_true], fun k hk => ?_⟩
  have hbit : bitOf (2 ^ e) k = false := by rw [bitOf_eq_testBit, Nat.testBit_two_pow, decide_eq_false hk.symm]
  rw [State.engineBusy, h, bitOf_or, hbit, Bool.or_false, State.engineBusy]

/-! ## Opcodes and tile types (R69) -/

section
variable {ty w : Nat}

/-- A word whose opcode is not common decodes on the tile type that assigns it. -/
theorem assigned_of_decodes (h : decodeFault ty w = none) (hc : infoCommon w = none) :
    (ty = 0 ∧ infoAnvil w ≠ none) ∨ (ty = 1 ∧ infoTemper w ≠ none) ∨ (ty = 2 ∧ infoBillet w ≠ none) ∨ infoPort w ≠ none := by
  have hinfo : opInfo ty w ≠ none := fun hi => by
    unfold decodeFault at h
    rw [hi] at h
    cases h
  unfold opInfo at hinfo
  rw [hc, Option.none_or] at hinfo
  match ty, hinfo with
  | 0, hinfo => exact .inl ⟨rfl, hinfo⟩
  | 1, hinfo => exact .inr (.inl ⟨rfl, hinfo⟩)
  | 2, hinfo => exact .inr (.inr (.inl ⟨rfl, hinfo⟩))
  | _ + 3, hinfo => exact .inr (.inr (.inr hinfo))

theorem tileType_anvil (hop : wOp w ∈ [0x40, 0x41, 0x44, 0x48]) (h : decodeFault ty w = none) : ty = 0 := by
  simp only [List.mem_cons, List.not_mem_nil, or_false] at hop
  have hnone : infoCommon w = none ∧ infoTemper w = none ∧ infoBillet w = none ∧ infoPort w = none := by
    obtain hop | hop | hop | hop := hop <;> simp [infoCommon, infoTemper, infoBillet, infoPort, hop]
  obtain ⟨hc, ht, hb, hp⟩ := hnone
  have := assigned_of_decodes h hc
  simp only [ht, hb, hp, ne_eq, not_true_eq_false, and_false, or_false] at this
  exact this.1

theorem tileType_temper (hop : wOp w ∈ [0x60, 0x64, 0x66, 0x68, 0x6A, 0x6C, 0x6E]) (h : decodeFault ty w = none) : ty = 1 := by
  simp only [List.mem_cons, List.not_mem_nil, or_false] at hop
  have hnone : infoCommon w = none ∧ infoAnvil w = none ∧ infoBillet w = none ∧ infoPort w = none := by
    obtain hop | hop | hop | hop | hop | hop | hop := hop <;> simp [infoCommon, infoAnvil, infoBillet, infoPort, hop]
  obtain ⟨hc, ha, hb, hp⟩ := hnone
  have := assigned_of_decodes h hc
  simp only [ha, hb, hp, ne_eq, not_true_eq_false, and_false, or_false, false_or] at this
  exact this.1

theorem tileType_billet (hop : wOp w ∈ [0x80, 0x81, 0x84, 0x85, 0x88]) (h : decodeFault ty w = none) : ty = 2 := by
  simp only [List.mem_cons, List.not_mem_nil, or_false] at hop
  have hnone : infoCommon w = none ∧ infoAnvil w = none ∧ infoTemper w = none ∧ infoPort w = none := by
    obtain hop | hop | hop | hop | hop := hop <;> simp [infoCommon, infoAnvil, infoTemper, infoPort, hop]
  obtain ⟨hc, ha, ht, hp⟩ := hnone
  have := assigned_of_decodes h hc
  simp only [ha, ht, hp, ne_eq, not_true_eq_false, and_false, or_false, false_or] at this
  exact this.1

end

/-! ## The bodies of long instructions -/

/-- What a word of a form does as it is issued: the fault of its check, its end where it has nothing to do, or its start. -/
def LongForm.body (f : LongForm) (t w : Nat) (s : State) : State :=
  match f.fault s t w with
  | some x => s.issueFault t x.1 x.2.1 x.2.2
  | none =>
    if f.empty s t w then ((f.zeroes w).foldl (fun s n => s.setOperand t n 0) s).retire t
    else (f.takes s t).startEngine t f.engine w (f.ops s t w)

/-- Every row runs the body of its form. -/
theorem exec_longForm {f : LongForm} (hf : f ∈ longForms) {t : Fin 240} {fetch : Ecc} {s : State} {w : Nat} (hu : fetch ≠ .uncorrectable)
    (hx : s.Executes t w) (hop : wOp w = f.op) : exec (f.make t fetch) s = .next (f.body t w (s.fetched t fetch)) := by
  have hcommon (h : isOp f.op w = true) (B : Nat → State → State) : s.issue t fetch (isOp f.op) B = B w (s.fetched t fetch) :=
    State.issue_executes hx hu h B
  have htyped (ty : Nat) (h : tileType t = ty) (B : Nat → State → State) :
      s.issue t fetch (fun w => isOp f.op w && tileType t == ty) B = B w (s.fetched t fetch) :=
    State.issue_executes hx hu (by simp [isOp, hop, h]) B
  have hmine : isOp f.op w = true := by simp [isOp, hop]
  have hanvil (h : f.op ∈ [0x40, 0x41, 0x44, 0x48]) := htyped 0 (tileType_anvil (hop ▸ h) hx.decodes)
  have htemper (h : f.op ∈ [0x60, 0x64, 0x66, 0x68, 0x6A, 0x6C, 0x6E]) := htyped 1 (tileType_temper (hop ▸ h) hx.decodes)
  have hbillet (h : f.op ∈ [0x80, 0x81, 0x84, 0x85, 0x88]) := htyped 2 (tileType_billet (hop ▸ h) hx.decodes)
  generalize s.fetched t fetch = u at *
  simp only [longForms, List.mem_cons, List.not_mem_nil, or_false] at hf
  rcases hf with rfl | rfl | rfl | rfl | rfl | rfl | rfl | rfl | rfl | rfl | rfl | rfl | rfl | rfl | rfl | rfl | rfl | rfl
  · exact congrArg Host.Outcome.next ((hcommon hmine (channelBody 0 t)).trans rfl)
  · exact congrArg Host.Outcome.next ((hcommon hmine (channelBody 1 t)).trans rfl)
  · exact congrArg Host.Outcome.next ((hanvil (by simp) (wldBody t)).trans rfl)
  · exact congrArg Host.Outcome.next ((hanvil (by simp) (wswapBody t)).trans rfl)
  · exact congrArg Host.Outcome.next ((hanvil (by simp) (mmaBody t)).trans (by simp only [LongForm.body, Bool.or_eq_true, beq_iff_eq]; rfl))
  · exact congrArg Host.Outcome.next ((hanvil (by simp) (drainBody t)).trans (by simp only [LongForm.body, beq_iff_eq]; rfl))
  · exact congrArg Host.Outcome.next ((htemper (by simp) (fnBody t)).trans (by simp only [LongForm.body, beq_iff_eq]; rfl))
  · exact congrArg Host.Outcome.next ((htemper (by simp) (smaxBody t)).trans (by simp only [LongForm.body, beq_iff_eq]; rfl))
  · exact congrArg Host.Outcome.next ((htemper (by simp) (ropeBody t)).trans (by simp only [LongForm.body, beq_iff_eq]; rfl))
  · exact congrArg Host.Outcome.next ((htemper (by simp) (topkBody t)).trans (by simp only [LongForm.body, beq_iff_eq]; rfl))
  · exact congrArg Host.Outcome.next ((htemper (by simp) (sampleBody t)).trans (by simp only [LongForm.body, beq_iff_eq]; rfl))
  · exact congrArg Host.Outcome.next ((htemper (by simp) (stopchkBody t)).trans (by simp only [LongForm.body, beq_iff_eq]; rfl))
  · exact congrArg Host.Outcome.next ((htemper (by simp) (rngBody t)).trans (by simp only [LongForm.body, beq_iff_eq]; rfl))
  · exact congrArg Host.Outcome.next ((hbillet (by simp) (brdBody t)).trans rfl)
  · exact congrArg Host.Outcome.next ((hbillet (by simp) (bwrBody t)).trans rfl)
  · exact congrArg Host.Outcome.next ((hbillet (by simp) (gatherBody 1 t)).trans rfl)
  · exact congrArg Host.Outcome.next ((hbillet (by simp) (gatherBody 0 t)).trans rfl)
  · exact congrArg Host.Outcome.next ((hbillet (by simp) (marchBody t)).trans (by
      simp only [LongForm.body, marchBody, beq_iff_eq]
      split
      · rfl
      · rfl))

/-- A form with nothing to do sets its register to 0, if it has one, and retires. -/
theorem State.zeroed_spec (s : State) (t : Nat) {l : List Nat} (hl : l = [] ∨ ∃ n, l = [n]) :
    let r := (l.foldl (fun s n => s.setOperand t n 0) s).retire t
    r.pc t = (s.pc t + 1) % 4096 ∧ r.seqState t = 1 ∧ (∀ n ∈ l, r.operand t n = readsBack n 0) ∧
      s.onlyRegs r (l.flatMap (destRegs t) ++ [Reg.SEQ_STATUS t]) := by
  rcases hl with rfl | ⟨n, rfl⟩
  · obtain ⟨hpc, hstate, -, hkeep⟩ := s.retire_spec t
    exact ⟨hpc, hstate, fun n hn => absurd hn List.not_mem_nil, hkeep⟩
  · obtain ⟨hread, hpc, hstate, hkeep⟩ := s.writeRetire_spec t n 0
    exact ⟨hpc, hstate, fun m hm => by rwa [List.mem_singleton.1 hm], by simpa using hkeep⟩

section
variable {f : LongForm} {s : State} {t : Nat} {fetch : Ecc} {w : Nat}

theorem LongForm.body_fault {x : Nat × Nat × Nat} (h : f.fault s t w = some x) : f.body t w s = s.issueFault t x.1 x.2.1 x.2.2 := by
  rw [LongForm.body, h]

theorem LongForm.body_empty (h : f.fault s t w = none) (he : f.empty s t w = true) :
    f.body t w s = ((f.zeroes w).foldl (fun s n => s.setOperand t n 0) s).retire t := by
  rw [LongForm.body, h]
  exact if_pos he

theorem LongForm.body_starts (h : f.fault s t w = none) (he : f.empty s t w = false) :
    f.body t w s = (f.takes s t).startEngine t f.engine w (f.ops s t w) := by
  rw [LongForm.body, h]
  exact if_neg (by simp [he])

/-- A form that starts, after the fetch: its engine holds what the word read before it. -/
theorem LongForm.starts_spec (hf : f ∈ longForms) (hx : s.Executes t w) :
    let r := (f.takes (s.fetched t fetch) t).startEngine t f.engine w (f.ops s t w)
    r.pc t = (s.pc t + 1) % 4096 ∧ r.seqState t = 1 ∧ r.fld (Reg.SEQ_STATUS.BUSY t) = s.fld (Reg.SEQ_STATUS.BUSY t) ||| 2 ^ f.engine.val ∧
      r.heldWord t f.engine = w ∧ r.prog t f.engine = 0 ∧
      r = { s with
        regs := r.regs
        tiles := ((f.takes s t).setEngine t f.engine (s.engineTaking t w (f.ops s t w))).tiles } ∧
      s.keepsRegs r (holdRegs t f.engine ++ fetchRegs t fetch) := by
  have htakes := LongForm.takes_fetched s t fetch f hf
  obtain ⟨hfetch, hkeepf⟩ := s.onlyRegs_fetched t fetch
  have hpc := s.pc_fetched t fetch
  have hbusy := s.status_fetched t fetch (f := Reg.SEQ_STATUS.BUSY t) rfl
  have hread : (f.takes (s.fetched t fetch) t).readRegs t w = s.readRegs t w :=
    State.readRegs_congr hx.decodes fun n _ => (State.operand_congr fun o _ => by rw [htakes]; rfl).trans (s.operand_fetched t fetch n)
  have hregs : (f.takes (s.fetched t fetch) t).regs = (s.fetched t fetch).regs := by rw [htakes]
  have htiles : (f.takes (s.fetched t fetch) t).tiles = (f.takes s t).tiles := by rw [htakes]
  have hall : f.takes (s.fetched t fetch) t =
      { s with regs := (f.takes (s.fetched t fetch) t).regs, tiles := (f.takes s t).tiles } := by rw [hregs, htakes, hfetch]
  generalize s.fetched t fetch = v at *
  dsimp only
  generalize f.takes v t = u at *
  have hfld (g : Field) : u.fld g = v.fld g := State.fld_of_regs hregs g
  obtain ⟨hpc', hstate, hbusy', hword, hprog, hr, hkeep⟩ := u.startEngine_taking f.engine.isLt hx.lt hx.decodes (f.ops s t w)
  have hpcu : u.pc t = s.pc t := (hfld _).trans hpc
  generalize u.startEngine t f.engine w (f.ops s t w) = r at *
  refine ⟨by rw [hpc', hpcu], hstate, by rw [hbusy', hfld, hbusy], hword, hprog, ?_, ?_⟩
  · rw [hr, State.engineTaking, hpcu, hread, ← State.engineTaking, State.setEngine_tiles_congr htiles, hall]
  · exact State.keepsRegs.trans (m := holdRegs t f.engine) (fun o ho => (State.reg_congr hregs o).trans (hkeepf o ho)) hkeep
      (List.subset_append_right _ _) (List.subset_append_left _ _)

end

/-- Settles O39: each row runs the body of its form, whose fault, end and start are those of the statement. -/
theorem longInstructionsStartOnTheirEngine : Obligations.LongInstructionsStartOnTheirEngine := by
  intro f hf t fetch s w hu hx hop
  have hexec := exec_longForm hf hu hx hop
  obtain ⟨hfault, hempty, hops⟩ := LongForm.reads_fetched s t fetch w f hf
  refine ⟨fun x hs hc => ?_, fun hnone he => ?_, fun hnone he => ?_⟩
  · subst hc
    exact hexec.trans (congrArg Host.Outcome.next (LongForm.body_fault hs))
  · refine ⟨_, hexec.trans (congrArg Host.Outcome.next (LongForm.body_empty (hfault.trans hnone) (hempty.trans he))), ?_⟩
    obtain ⟨hpc, hstate, hzero, hkeep⟩ := (s.fetched t fetch).zeroed_spec t (LongForm.zeroes_cases w f hf)
    rw [s.pc_fetched] at hpc
    exact ⟨hpc, hstate, hzero, ((s.onlyRegs_fetched t fetch).mono (List.subset_append_right _ _)).trans (hkeep.mono (List.subset_append_left _ _))⟩
  · refine ⟨_, hexec.trans (congrArg Host.Outcome.next (LongForm.body_starts (hfault.trans hnone) (hempty.trans he))), ?_⟩
    rw [hops]
    obtain ⟨hpc, hstate, hbusy, hword, hprog, hall, hkeep⟩ := LongForm.starts_spec (fetch := fetch) hf hx
    obtain ⟨hmine, hothers⟩ := State.engineBusy_of_busy hbusy
    exact ⟨hpc, hstate, hmine, fun e he => hothers e (fun h => he (Fin.ext h)), hword, hprog, hall, hkeep⟩

end Sys2Proof.Machine
end

section
/-! PROOFS. The statement of 04_tile_programs.md on accesses to Billet banks and to the SRAM window (R86, R156, R160, R161, R178, R181, R188). -/
namespace Sys2Proof.Machine

/-! ## Bytes written -/

theorem leNat_natLE (n v : Nat) : leNat (natLE n v) = v % 256 ^ n := by
  induction n generalizing v with
  | zero => rw [Nat.pow_zero, Nat.mod_one]; rfl
  | succ n ih =>
    have hmod : v % 256 ^ (n + 1) = v % 256 + 256 * (v / 256 % 256 ^ n) := by rw [Nat.pow_succ', Nat.mod_mul]
    rw [natLE, leNat, ih, hmod, BitVec.toNat_ofNat]

section
variable (s : State) (a : Nat) (d : List Byte)

theorem State.getElem_bytes {n i : Nat} (h : i < (s.bytes a n).length) : (s.bytes a n)[i] = s.byte (a + i) := by
  induction n generalizing a i with
  | zero => exact absurd h (Nat.not_lt_zero i)
  | succ n ih =>
    cases i with
    | zero => rfl
    | succ i =>
      rw [show a + (i + 1) = (a + 1) + i by omega]
      exact ih (a + 1) (by simpa [State.bytes] using h)

/-- Bytes written are read back. -/
theorem State.bytes_write : (s.write a d).bytes a d.length = d := by
  refine List.ext_getElem (State.length_bytes _ a _) fun i _ h => ?_
  rw [State.getElem_bytes, s.byte_write_inside a d h]

theorem State.write_onlyMem : s.write a d = { s with mem := (s.write a d).mem } := by
  induction d generalizing s a with
  | nil => rfl
  | cons x d ih => rw [State.write, ih]; rfl

theorem State.keepsMem_write : s.keepsMem (s.write a d) a d.length := fun _ hx => s.byte_write_outside a d hx

end

/-! ## The banks' windows (R152, R161) -/

theorem windowOf_lt {a : Nat} {x : Window × Nat} (h : windowOf a = some x) : a < 0x1000000 := by
  unfold windowOf at h
  by_contra hlt
  rw [if_neg (by omega), if_neg (by omega), if_neg (by omega), if_neg (by omega)] at h
  cases h

/-- What a write leaves of the bytes it finds, by its window (R161). -/
def windowNew (win : Window) (old v n : Nat) : Nat :=
  match win with
  | .bitSet => old ||| v
  | .bitClear => old &&& (256 ^ n - 1 - v)
  | _ => v

theorem windowNew_lt {win : Window} {old v n : Nat} (ho : old < 256 ^ n) (hv : v < 256 ^ n) : windowNew win old v n < 256 ^ n := by
  have hpow : 256 ^ n = 2 ^ (8 * n) := (Nat.pow_mul 2 8 n).symm
  cases win with
  | direct => exact hv
  | bitSet => exact hpow ▸ Nat.or_lt_two_pow (hpow ▸ ho) (hpow ▸ hv)
  | bitClear => exact Nat.lt_of_le_of_lt Nat.and_le_left ho
  | owner => exact hv

theorem State.lnum_lt (s : State) (t a n : Nat) : s.lnum t a n < 256 ^ n := by
  have h := leNat_lt (s.bytes (storeAt t a) n)
  rwa [State.length_bytes] at h

section
variable (s : State) (t d : Nat) (win : Window) (data : List Byte)

theorem State.writeBank_eq : s.writeBank t win d data.length (leNat data) =
    s.write (storeAt t d) (natLE data.length (windowNew win (s.lnum t d data.length) (leNat data) data.length)) := by
  have hmod : leNat data % 256 ^ data.length = leNat data := Nat.mod_eq_of_lt (leNat_lt data)
  unfold State.writeBank State.writeNum windowNew
  cases win with
  | direct => rfl
  | bitSet => rfl
  | bitClear => dsimp only; rw [hmod]
  | owner => rfl

/-- A write of a bank changes the bytes it names alone. -/
theorem State.writeBank_spec :
    let r := s.writeBank t win d data.length (leNat data)
    r.lnum t d data.length = windowNew win (s.lnum t d data.length) (leNat data) data.length ∧
      s.keepsMem r (storeAt t d) data.length ∧ r = { s with mem := r.mem } := by
  dsimp only
  rw [s.writeBank_eq]
  have hlt : windowNew win (s.lnum t d data.length) (leNat data) data.length < 256 ^ data.length :=
    windowNew_lt (s.lnum_lt t d _) (leNat_lt data)
  generalize windowNew win (s.lnum t d data.length) (leNat data) data.length = v at *
  have hread := s.bytes_write (storeAt t d) (natLE data.length v)
  have hkeep := s.keepsMem_write (storeAt t d) (natLE data.length v)
  rw [natLE_length] at hread hkeep
  refine ⟨?_, hkeep, s.write_onlyMem _ _⟩
  rw [State.lnum, State.num, hread, leNat_natLE, Nat.mod_eq_of_lt hlt]

end

/-! ## The mover port (R156, R160) -/

section
variable {s : State} {t a n d d' code : Nat} {win : Window} {part : Option Nat}

/-- An access of `n` bytes at a direct, bit-set or bit-clear address, in one bank that no march holds. -/
structure State.PortPlace (s : State) (t a n : Nat) (win : Window) (d d' : Nat) : Prop where
  first : windowOf a = some (win, d)
  last : windowOf (a + n - 1) = some (win, d')
  window : win ≠ .owner
  bank : bankOf d' = bankOf d
  free : s.bankLocked t (bankOf d) = false

theorem State.flipBytes_clean (s : State) (a n : Nat) : s.flipBytes a n .clean = s := rfl

theorem State.eccBank_clean (s : State) (t : Nat) (part : Option Nat) : s.eccBank t part .clean = s := rfl

theorem State.readBank_good (h : s.failedBank t (bankOf d) = false) (n : Nat) : s.readBank t d n = (s.lnum t d n, s) :=
  if_neg (by simp [h])

theorem State.portRead_eq (h : s.PortPlace t a n win d d') : s.portRead t a n code part .clean =
    if s.bankLegal t (bankOf d) code part true = false then (.violation, [], s.portViolation t a (bankOf d) code part 1)
    else (.done, natLE n (s.readBank t d n).1, (s.readBank t d n).2) := by
  obtain ⟨hfirst, hlast, hwin, hbank, hfree⟩ := h
  unfold State.portRead
  rw [hfirst, hlast]
  have hplain : ∀ r : PortResult × List Byte × State,
      (if s.bankLegal t (bankOf d) code part true = false then (.violation, [], s.portViolation t a (bankOf d) code part 1)
        else if s.bankLegal t (bankOf d) code part true = false then (.violation, [], s.portViolation t a (bankOf d) code part 1) else r) =
      if s.bankLegal t (bankOf d) code part true = false then (.violation, [], s.portViolation t a (bankOf d) code part 1) else r := by
    intro r
    split <;> rfl
  cases win with
  | owner => exact absurd rfl hwin
  | direct | bitSet | bitClear =>
    dsimp only
    rw [if_neg (by simp), hbank, hfree, if_neg (by simp), hplain, State.flipBytes_clean, State.eccBank_clean]

theorem State.portWrite_legal {data : List Byte} (h : s.PortPlace t a data.length win d d')
    (hl : s.bankLegal t (bankOf d) code part false = true) :
    s.portWrite t a data code part .clean = (.done, s.writeBank t win d data.length (leNat data)) := by
  obtain ⟨hfirst, hlast, hwin, hbank, hfree⟩ := h
  unfold State.portWrite
  dsimp only
  rw [hfirst, hlast]
  cases win with
  | owner => exact absurd rfl hwin
  | direct | bitSet | bitClear =>
    dsimp only
    rw [if_neg (by simp), hbank, hfree, if_neg (by simp), hl, if_neg (by simp), if_neg (by simp), State.flipBytes_clean, State.eccBank_clean,
      ite_self]

/-- What a violation leaves: BIL_VIOL and one record (R160). -/
theorem State.logFault_setReg_spec (s : State) (o : Nat) (v : BitVec 32) (x : FaultRecord) :
    let r := (s.setReg o v).logFault x
    r.reg o = v ∧ s.keepsRegs r [o] ∧ r.mem = s.mem ∧ r.faultLog = s.faultLog ++ [x] :=
  ⟨(State.reg_congr (State.logFault_regs _ x) o).trans (s.reg_setReg_same o v),
    fun _ ho => (State.reg_congr (State.logFault_regs _ x) _).trans (s.reg_setReg_ne v (by simpa using ho)), rfl, rfl⟩

theorem State.portViolation_spec (s : State) (t a b : Nat) (part : Option Nat) (kind : Nat) (hc : code < 0xC0) :
    let r := s.portViolation t a b code part kind
    r.reg (Reg.BIL_VIOL t) =
        BitVec.ofNat 32 (2 ^ 31 + kind * 2 ^ 24 + code * 2 ^ 16 + s.fld (Reg.BIL_OWN.OWNER t b) * 2 ^ 8 + b) ∧
      s.keepsRegs r [Reg.BIL_VIOL t] ∧ r.mem = s.mem ∧
      ∃ x : FaultRecord, r.faultLog = s.faultLog ++ [x] ∧ x.source = t ∧ x.code = codeViolation ∧ x.part = part.getD 0xFFFF := by
  dsimp only
  unfold State.portViolation
  dsimp only
  rw [if_neg (by omega)]
  obtain ⟨hreg, hkeep, hmem, hlog⟩ := s.logFault_setReg_spec (Reg.BIL_VIOL t) _ _
  exact ⟨hreg, hkeep, hmem, _, hlog, rfl, rfl, rfl⟩

end

/-! ## The window (R180, R181) -/

section
variable {s : State} {t o : Nat} (code : Nat) (part : Option Nat) (op : AccessOp) (ecc : ReadEcc)

/-- The lowest 16 MiB of a Billet tile's part of the window are its mover port. -/
theorem State.window_bank (ht : t < 240) (hty : tileType t = 2) (ho : o < 0x1000000) (hn : o + opLen op ≤ 0x1000000) :
    s.window (t * 0x2000000 + o) code part op ecc = s.portAccess t o code part op ecc := by
  have hdiv : (t * 0x2000000 + o) / 0x2000000 = t := by omega
  have hmod : (t * 0x2000000 + o) % 0x2000000 = o := by omega
  unfold State.window
  dsimp only
  rw [hdiv, hmod, if_neg (by omega), if_pos hn, if_pos hty]

/-- A write of instruction memory (R86). -/
theorem State.window_imem {data : List Byte} (ht : t < 240) (hd : data ≠ []) (hn : o + data.length ≤ 0x10000) :
    s.window (t * 0x2000000 + 0x1000000 + o) code part (.write data) ecc = (.done, [], s.imemWrite t o data) := by
  have hlen : 0 < data.length := List.length_pos_iff.2 hd
  have hdiv : (t * 0x2000000 + 0x1000000 + o) / 0x2000000 = t := by omega
  have hmod : (t * 0x2000000 + 0x1000000 + o) % 0x2000000 = 0x1000000 + o := by omega
  unfold State.window
  dsimp only [opLen]
  rw [hdiv, hmod, if_neg (by omega), if_neg (by omega), if_pos (by omega), Nat.add_sub_cancel_left]

/-- Beyond the tiles nothing answers. -/
theorem State.window_beyond {off : Nat} (h : 240 * 0x2000000 ≤ off) : s.window off code part op ecc = (.outside, [], s) :=
  if_pos (.inl (by omega))

end

theorem State.answer_nil (s : State) : s.answer [] = s := rfl

theorem State.answer_natLE (s : State) {n : Nat} (hn : 0 < n) (v : Nat) : s.answer (natLE n v) = s.emit (.readData (natLE n v)) := by
  obtain ⟨k, rfl⟩ := Nat.exists_eq_succ_of_ne_zero (Nat.ne_of_gt hn)
  rfl

/-! ## A mover's access -/

section
variable {s : State} {t m a p : Nat} {op : AccessOp}

/-- What mover `m` of partition `p` makes of the end of its access to tile `t` (R156, R188). -/
def State.takesEnd (s : State) (m p t : Nat) (op : AccessOp) (r : WindowEnd) : State :=
  match r.1 with
  | .outside => s.portFault m p (if opAccess op = 3 then 0x11 else 0x10) op
  | .waits => s.movedAt t
  | .violation => r.2.2.portFault m p 0x10 op
  | .done => r.2.2.answer r.2.1

/-- An access of a mover by virtual address to a tile of the partition that it serves. -/
theorem State.windowMover_eq {off : Nat} (hphys : (s.mover m).job.any (·.phys) = false) (hp : s.moverPart m = some p)
    (ht : s.partOf (off / 0x2000000) = some p) :
    s.windowMover m off op .clean = s.takesEnd m p (off / 0x2000000) op (s.window off (0x40 + m) (some p) op .clean) := by
  unfold State.windowMover
  rw [hphys, hp]
  exact if_neg (by simp [ht])

/-- Such an access to a Billet tile's banks is one of its mover port. -/
theorem moverPortAccess_eq {t : Fin 240} {m : Fin 64} (hlive : s.live = true) (hty : tileType t = 2)
    (hphys : (s.mover m).job.any (·.phys) = false) (hp : s.moverPart m = some p) (ht : s.partOf t = some p) (ha : a < 0x1000000)
    (hn : a + opLen op ≤ 0x1000000) :
    moverPortAccess (.mover m) t a op .clean s = s.takesEnd m p t op (s.portAccess t a (0x40 + m) (some p) op .clean) := by
  have hdiv : (t * 0x2000000 + a) / 0x2000000 = t := by omega
  have hmover := State.windowMover_eq (op := op) (off := t * 0x2000000 + a) hphys hp (by rw [hdiv]; exact ht)
  rw [hdiv, State.window_bank (0x40 + m) (some p) op .clean t.isLt hty ha hn] at hmover
  unfold moverPortAccess
  rw [if_neg (by simp [hty, hlive])]
  exact hmover

/-- The permission fault of a mover (R188). -/
theorem State.exists_faulted_portFault (hres : s.flag (Reg.PRT_P_STAT.RES_VALID p) = true) (kind : Nat) :
    ∃ y, s.Faulted (s.portFault m p kind op) p y ∧ y.source = (if m < 48 then 20 * (m / 4) else 0xFFFF) + m * 2 ^ 16 ∧
      y.code = codeViolation ∧ y.part = p ∧ y.detail = kind + opAccess op * 2 ^ 16 :=
  ⟨_, (State.faulted_faultPart (s := s.took) hres _).of_hidden rfl rfl rfl, rfl, rfl, rfl, rfl⟩

/-- A read that is refused leaves two records, and the partition frozen (R160, R181, R188). -/
theorem State.refusedRead_spec {b n : Nat} (hm : m < 64) (hres : s.flag (Reg.PRT_P_STAT.RES_VALID p) = true) :
    let r := (s.portViolation t a b (0x40 + m) (some p) 1).portFault m p 0x10 (.read n)
    r.reg (Reg.BIL_VIOL t) =
        BitVec.ofNat 32 (2 ^ 31 + 2 ^ 24 + (0x40 + m) * 2 ^ 16 + s.fld (Reg.BIL_OWN.OWNER t b) * 2 ^ 8 + b) ∧
      r.flag (Reg.PRT_P_STAT.FROZEN p) = true ∧ r.mem = s.mem ∧
      ∃ x y : FaultRecord, r.faultLog = s.faultLog ++ [x, y] ∧ x.source = t ∧ x.code = codeViolation ∧ x.part = p ∧
        y.source = (if m < 48 then 20 * (m / 4) else 0xFFFF) + m * 2 ^ 16 ∧ y.code = codeViolation ∧ y.part = p ∧ y.detail = 0x10010 := by
  obtain ⟨hviol, hkeep, hmem, x, hlog, hxsource, hxcode, hxpart⟩ := s.portViolation_spec t a b (some p) 1 (code := 0x40 + m) (by omega)
  dsimp only
  generalize s.portViolation t a b (0x40 + m) (some p) 1 = u at *
  have hresu : u.flag (Reg.PRT_P_STAT.RES_VALID p) = true := (hkeep.flag (f := Reg.PRT_P_STAT.RES_VALID p) (by
    simp only [Reg.PRT_P_STAT, Reg.BIL_VIOL, tileBase, List.mem_singleton]
    omega)).trans hres
  obtain ⟨y, hy, hsource, hcode, hpart, hdetail⟩ := State.exists_faulted_portFault (m := m) (op := .read n) hresu 0x10
  refine ⟨(hy.regs _ ?_).trans hviol, hy.frozen, hy.mem.trans hmem, x, y, ?_, hxsource, hxcode, hxpart, hsource, hcode, hpart,
    hdetail.trans (by norm_num [opAccess])⟩
  · simp only [Reg.PRT_P_STAT, Reg.BIL_VIOL, tileBase, List.mem_singleton]
    omega
  · rw [hy.log, hlog, List.append_assoc]
    rfl

end

/-! ## Firmware's accesses (R86, R178) -/

section
variable (s : State) (t o : Nat) (data : List Byte)

/-- A write of instruction memory is ignored, or changes its bytes alone. -/
theorem State.imemWrite_spec :
    let r := s.imemWrite t o data
    if o / 0x8000 = s.fld (Reg.SEQ_IMEM.ACTIVE t) ∨ (o + data.length - 1) / 0x8000 = s.fld (Reg.SEQ_IMEM.ACTIVE t) ∨ s.tileArmed t = true then
      r.flag (Reg.SEQ_IMEM.WR_IGNORED t) = true ∧ s.onlyRegs r [Reg.SEQ_IMEM t]
    else r.bytes (imemAt t 0 0 + o) data.length = data ∧ s.keepsMem r (imemAt t 0 0 + o) data.length ∧ r = { s with mem := r.mem } := by
  unfold State.imemWrite
  dsimp only
  split
  · exact ⟨State.flag_setFlag_same _ _ _ (by dsimp only; decide) rfl, (State.onlyRegs.refl s _).setFlag _ (by simp)⟩
  · exact ⟨s.bytes_write _ _, s.keepsMem_write _ _, s.write_onlyMem _ _⟩

/-- A read that names a hole records it and returns zeros (R178). -/
theorem State.hole_spec (pa n : Nat) :
    let r := (s.hole pa).emit (.readData (natLE n 0))
    r.flag Reg.XLT_STATUS.HOLE = true ∧ r.reg64 Reg.XLT_HOLE_LO = pa % 2 ^ 64 ∧
      s.onlyRegsOut r [Reg.XLT_STATUS, Reg.XLT_HOLE_LO, Reg.XLT_HOLE_HI] [.readData (natLE n 0)] := by
  have hflag := s.flag_setFlag_same Reg.XLT_STATUS.HOLE true (by decide) rfl
  have hset : s.onlyRegs (s.setFlag Reg.XLT_STATUS.HOLE true) [Reg.XLT_STATUS, Reg.XLT_HOLE_LO, Reg.XLT_HOLE_HI] :=
    (State.onlyRegs.refl s _).setFlag _ (by simp)
  unfold State.hole
  dsimp only
  generalize s.setFlag Reg.XLT_STATUS.HOLE true = u at *
  have hkeep := u.onlyRegs_setReg64 Reg.XLT_HOLE_LO pa
  have hread := u.reg64_setReg64 Reg.XLT_HOLE_LO pa
  generalize u.setReg64 Reg.XLT_HOLE_LO pa = v at *
  obtain ⟨hall, hregs⟩ := hset.trans (hkeep.mono (by simp))
  exact ⟨(State.flag_of_fld (hkeep.2.fld (f := Reg.XLT_STATUS.HOLE) (by decide))).trans hflag, hread,
    by rw [hall]; rfl, hregs⟩

end

theorem State.windowFirmware_done {s r : State} {off : Nat} {op : AccessOp} (h : s.window off 0 none op .clean = (.done, [], r)) :
    s.windowFirmware off op .clean = r := by
  unfold State.windowFirmware
  rw [h]
  rfl

theorem State.windowFirmware_beyond {s : State} {off n : Nat} (h : s.window off 0 none (.read n) .clean = (.outside, [], s)) (hn : 0 < n) :
    s.windowFirmware off (.read n) .clean = (s.hole (s.ownSlot * 2 ^ 54 + 0x200000000000 + off)).emit (.readData (natLE n 0)) := by
  unfold State.windowFirmware
  rw [h]
  exact State.answer_natLE _ hn 0

/-- Settles O43: the mover port serves or refuses by the bank's owner, instruction memory by its Active half, and the rest is a hole. -/
theorem windowAccessesAreChecked : Obligations.WindowAccessesAreChecked := by
  refine ⟨fun t m a n p d win s hty hlive hpart hphys ht hn hwin ⟨d', hlast, hbank⟩ hown hfree => ?_, fun t o data s hlive hd ho => ?_,
    fun off n s hlive hoff hn => ?_⟩
  · have hplace : s.PortPlace t a n win d d' := ⟨hwin, hlast, hown, hbank, hfree⟩
    have ha := windowOf_lt hwin
    have hend : a + n ≤ 0x1000000 := by
      have := windowOf_lt hlast
      omega
    have hexec (op : AccessOp) (hop : opLen op = n) {r : WindowEnd} (hr : s.portAccess t a (0x40 + m) (some p) op .clean = r) :
        exec (.moverPortAccess (.mover m) t a op .clean) s = .next (s.takesEnd m p t op r) :=
      congrArg Host.Outcome.next ((moverPortAccess_eq hlive hty hphys hpart ht ha (hop ▸ hend)).trans (congrArg _ hr))
    refine ⟨fun hlegal hgood => ?_, fun hlegal data hlen => ?_, fun hillegal hres => ?_⟩
    · have hread : s.portRead t a n (0x40 + m) (some p) .clean = (.done, natLE n (s.lnum t d n), s) := by
        rw [State.portRead_eq hplace, if_neg (by simp [hlegal]), State.readBank_good hgood]
      exact (hexec (.read n) rfl hread).trans (congrArg Host.Outcome.next (State.answer_natLE s hn _))
    · subst hlen
      have hwrite : s.portAccess t a (0x40 + m) (some p) (.write data) .clean = (.done, [], s.writeBank t win d data.length (leNat data)) := by
        rw [State.portAccess, State.portWrite_legal hplace hlegal]
      exact ⟨_, hexec (.write data) rfl hwrite, s.writeBank_spec t d win data⟩
    · have hread : s.portRead t a n (0x40 + m) (some p) .clean = (.violation, [], s.portViolation t a (bankOf d) (0x40 + m) (some p) 1) := by
        rw [State.portRead_eq hplace, if_pos hillegal]
      exact ⟨_, hexec (.read n) rfl hread, State.refusedRead_spec (a := a) (n := n) m.isLt hres⟩
  · have hwindow := State.window_imem (s := s) 0 none .clean t.isLt hd ho
    exact ⟨_, congrArg Host.Outcome.next ((if_pos hlive).trans (State.windowFirmware_done hwindow)), s.imemWrite_spec t o data⟩
  · have hwindow := State.window_beyond (s := s) 0 none (.read n) .clean hoff
    exact ⟨_, congrArg Host.Outcome.next ((if_pos hlive).trans (State.windowFirmware_beyond hwindow hn)), s.hole_spec _ n⟩

end Sys2Proof.Machine
end

section
/-! PROOFS. The handovers of banks and the start of a march by firmware (R157, R158, R171, R174). -/
namespace Sys2Proof.Machine

/-! ## What holds a bank locked -/

section
variable {s r : State} {l : List Nat} {t : Nat}

/-- Whether the grid runs is read from the pins, the security core and SEC_STATUS. -/
theorem State.gridLive_congr (h : s.onlyRegs r l) (hl : Reg.SEC_STATUS ∉ l) : r.gridLive = s.gridLive := by
  obtain ⟨hr, hkeep⟩ := h
  have hpins : r.pins = s.pins := by rw [hr]
  have hsecurity : r.security = s.security := by rw [hr]
  have hbooted : r.flag Reg.SEC_STATUS.BOOTED = s.flag Reg.SEC_STATUS.BOOTED := hkeep.flag hl
  rw [State.gridLive, State.live, State.on, hpins, hsecurity, hbooted]
  rfl

/-- Whether a tile's partition runs is read beside from the PRT_ block. -/
theorem State.tileRuns_congr (h : s.onlyRegs r l) (hl : ∀ o ∈ l, 0x60000 ≤ o) (t : Nat) : r.tileRuns t = s.tileRuns t := by
  have hgrid := State.gridLive_congr h (fun hx => absurd (hl _ hx) (by decide))
  have hprt := h.2.samePrt hl
  rw [State.tileRuns, State.tileRuns, State.partOf_congr hprt]
  split
  · next p hp =>
    have hp12 := State.bayPart_lt hp
    have hfld (f : Field) (hf : f.off = Reg.PRT_P_STAT p) : r.fld f = s.fld f :=
      State.fld_congr f (hprt _ (by simp only [Span, hf, Reg.PRT_P_STAT]; omega))
    have hstate : r.partState p = s.partState p := hfld _ rfl
    rw [State.running, hgrid, hstate, State.flag_of_fld (hfld (Reg.PRT_P_STAT.RES_VALID p) rfl),
      State.flag_of_fld (hfld (Reg.PRT_P_STAT.FROZEN p) rfl), hfld (Reg.PRT_P_STAT.SWITCH p) rfl]
    rfl
  · rfl

theorem State.engineBusy_congr (h : s.keepsRegs r l) (hl : ∀ o ∈ l, tileBase t + 0x1400 ≤ o) (e : Nat) : r.engineBusy t e = s.engineBusy t e := by
  rw [State.engineBusy, h.fld (f := Reg.SEQ_STATUS.BUSY t) (fun hx => by have := hl _ hx; simp only [Reg.SEQ_STATUS] at this; omega)]
  rfl

/-- The registers of a Billet tile's own block lock no bank. -/
theorem State.bankLocked_congr (h : s.onlyRegs r l) (hl : ∀ o ∈ l, tileBase t + 0x1400 ≤ o) (b : Nat) :
    r.bankLocked t b = s.bankLocked t b := by
  have hruns := State.tileRuns_congr h (fun o ho => by have := hl o ho; simp only [tileBase] at this; omega) t
  obtain ⟨hr, hkeep⟩ := h
  have htile : r.tile t = s.tile t := State.tile_congr (by rw [hr]) t
  have hbusy := State.engineBusy_congr hkeep hl 3
  have hword : r.heldWord t 3 = s.heldWord t 3 :=
    hkeep.heldWord (fun hx => by have := hl _ hx; simp only [Reg.SEQ_INST] at this; omega)
      (fun hx => by have := hl _ hx; simp only [Reg.SEQ_INST] at this; omega)
  rw [State.bankLocked, State.bankLocked, State.engine, State.engine, htile, hbusy, hruns, hword]

/-- A firmware march holds the banks of its mask and no others. -/
theorem State.bankLocked_fwMarch {m : March} (h : (s.tile t).fwMarch = some m) (b : Nat) : s.bankLocked t b = bitOf m.mask b := by
  rw [State.bankLocked, h]

end

/-! ## Handovers (R157, R158) -/

theorem ofNat_ownMask (v : Word) : BitVec.ofNat 32 (ownMask v.toNat) = v &&& 0x8F0000FF := by
  apply BitVec.eq_of_toNat_eq
  rw [BitVec.toNat_ofNat, ownMask, BitVec.toNat_and]
  exact Nat.mod_eq_of_lt (Nat.lt_of_le_of_lt Nat.and_le_left v.isLt)

section
variable {s : State} {t b : Nat} {v : Word}

theorem State.handOver_reserved (h : ownerCodeOk (v.toNat % 256) = false) : s.handOver t b v.toNat = s := if_pos h

/-- During a march the handover joins those that wait. -/
theorem State.handOver_locked (h : ownerCodeOk (v.toNat % 256) = true) (hlock : s.bankLocked t b = true) :
    s.handOver t b v.toNat = s.setBank t b { s.bank t b with handover := (s.bank t b).handover ++ [v] } := by
  rw [State.handOver, if_neg (by simp [h]), if_pos hlock, BitVec.ofNat_toNat, BitVec.setWidth_eq]

theorem State.handOver_failed (h : ownerCodeOk (v.toNat % 256) = true) (hlock : s.bankLocked t b = false)
    (hfail : s.failedBank t b = true ∧ v.toNat % 256 ≠ 0) :
    s.handOver t b v.toNat = s.setFlag (Reg.BIL_STATUS.OWN_REFUSED t) true := by
  rw [State.handOver, if_neg (by simp [h]), if_neg (by simp [hlock]), State.setOwner, if_pos hfail]

theorem State.handOver_taken (h : ownerCodeOk (v.toNat % 256) = true) (hlock : s.bankLocked t b = false)
    (hgood : ¬ (s.failedBank t b = true ∧ v.toNat % 256 ≠ 0)) :
    s.handOver t b v.toNat = s.setReg (Reg.BIL_OWN t b) (v &&& 0x8F0000FF) := by
  rw [State.handOver, if_neg (by simp [h]), if_neg (by simp [hlock]), State.setOwner, if_neg hgood, ofNat_ownMask]

/-- A write of a bank's own state touches one bank of one tile. -/
theorem State.setBank_spec (s : State) (t b : Nat) (k : Bank) :
    (s.setBank t b k).bank t b = k ∧ s.setBank t b k = { s with tiles := (s.setBank t b k).tiles } ∧
      ∀ t' : Nat, t' ≠ t → (s.setBank t b k).tile t' = s.tile t' := by
  refine ⟨?_, rfl, fun t' ht => State.tile_setTile_ne s _ ht⟩
  rw [State.bank, State.setBank, State.modTile, State.tile_setTile_same]
  exact Sparse.get_set_same _ _ _ _

end

/-! ## Every bank of a mask (R174) -/

section
variable {t : Nat}

/-- Handovers to banks that no march holds and that have not failed write their owners, bank by bank. -/
theorem State.handOver_foldl {v : Word} (hv : ownerCodeOk (v.toNat % 256) = true) (l : List Nat) (s : State)
    (hl : ∀ b ∈ l, s.bankLocked t b = false ∧ s.failedBank t b = false) (hlt : ∀ b ∈ l, b < 48) :
    l.foldl (fun s b => s.handOver t b v.toNat) s = l.foldl (fun s b => s.setReg (Reg.BIL_OWN t b) (v &&& 0x8F0000FF)) s := by
  induction l generalizing s with
  | nil => rfl
  | cons b l ih =>
    obtain ⟨hlock, hfail⟩ := hl b List.mem_cons_self
    have hb := hlt b List.mem_cons_self
    have honly : s.onlyRegs (s.setReg (Reg.BIL_OWN t b) (v &&& 0x8F0000FF)) [Reg.BIL_OWN t b] :=
      (State.onlyRegs.refl s _).setReg _ (by simp)
    rw [List.foldl_cons, List.foldl_cons, State.handOver_taken hv hlock (by simp [hfail])]
    refine ih _ (fun c hc => ?_) (fun c hc => hlt c (List.mem_cons_of_mem b hc))
    obtain ⟨hlock', hfail'⟩ := hl c (List.mem_cons_of_mem b hc)
    have hrepair : Reg.BIL_REPAIR t c ∉ [Reg.BIL_OWN t b] := by
      simp only [Reg.BIL_REPAIR, Reg.BIL_OWN, List.mem_singleton]
      omega
    refine ⟨(State.bankLocked_congr honly (by simp only [List.mem_singleton, Reg.BIL_OWN]; omega) c).trans hlock', ?_⟩
    exact (honly.2.flag (f := Reg.BIL_REPAIR.FAILED t c) hrepair).trans hfail'

/-- A value written to registers of a list stands in each, and nowhere else. -/
theorem State.setReg_foldl (w : Word) (f : Nat → Nat) (l : List Nat) (s : State) :
    s.onlyRegs (l.foldl (fun s b => s.setReg (f b) w) s) (l.map f) ∧
      ∀ b ∈ l, (l.foldl (fun s b => s.setReg (f b) w) s).reg (f b) = w := by
  induction l generalizing s with
  | nil => exact ⟨State.onlyRegs.refl s _, fun b hb => absurd hb List.not_mem_nil⟩
  | cons c l ih =>
    obtain ⟨honly, hreg⟩ := ih (s.setReg (f c) w)
    rw [List.foldl_cons]
    refine ⟨((State.onlyRegs.refl s _).setReg w (by simp)).trans (honly.mono (by simp)), fun b hb => ?_⟩
    by_cases hmem : f b ∈ l.map f
    · obtain ⟨c', hc', hfc⟩ := List.mem_map.1 hmem
      rw [← hfc]
      exact hreg c' hc'
    · have hbc : b = c := (List.mem_cons.1 hb).resolve_right (fun hbl => hmem (List.mem_map_of_mem hbl))
      rw [honly.2 _ hmem, hbc, State.reg_setReg_same]

theorem mem_maskBanks {mask b : Nat} : b ∈ maskBanks mask ↔ b < 48 ∧ bitOf mask b = true := by
  rw [maskBanks, List.mem_filter, List.mem_range]

/-- BIL_OWN_BULK gives every bank of the mask to the owner, where none is locked or FAILED. -/
theorem State.ownBulk_spec {s : State} {v : Word} (hv : ownerCodeOk (v.toNat % 256) = true)
    (hfree : ∀ b < 48, bitOf (s.reg64 (Reg.BIL_MARCH_MASK_LO t)) b = true → s.bankLocked t b = false ∧ s.failedBank t b = false) :
    (∀ b < 48, (s.ownBulk t v).reg (Reg.BIL_OWN t b) =
      if bitOf (s.reg64 (Reg.BIL_MARCH_MASK_LO t)) b then v &&& 0x8F0000FF else s.reg (Reg.BIL_OWN t b)) ∧
    s.onlyRegs (s.ownBulk t v) ((List.range 48).map (Reg.BIL_OWN t)) := by
  have hmask (b : Nat) (hb : b ∈ maskBanks (s.reg64 (Reg.BIL_MARCH_MASK_LO t))) := mem_maskBanks.1 hb
  rw [State.ownBulk, State.handOver_foldl hv _ s (fun b hb => hfree b (hmask b hb).1 (hmask b hb).2) (fun b hb => (hmask b hb).1)]
  obtain ⟨honly, hreg⟩ := State.setReg_foldl (v &&& 0x8F0000FF) (Reg.BIL_OWN t) (maskBanks (s.reg64 (Reg.BIL_MARCH_MASK_LO t))) s
  refine ⟨fun b hb => ?_, honly.mono (List.map_subset _ (List.filter_subset_self _))⟩
  split
  · next hbit => exact hreg b (mem_maskBanks.2 ⟨hb, hbit⟩)
  · next hbit =>
    refine honly.2 _ (fun hx => ?_)
    obtain ⟨c, hc, hcb⟩ := List.mem_map.1 hx
    obtain rfl : c = b := by
      simp only [Reg.BIL_OWN] at hcb
      omega
    exact hbit (mem_maskBanks.1 hc).2

end

/-! ## The start of a march (R171) -/

section
variable (s : State) (t : Nat) (v : Word)

/-- OP and REPAIR of BIL_MARCH_CTRL take the value written. -/
def State.setMarchCtrl : State :=
  (s.setFld (Reg.BIL_MARCH_CTRL.OP t) (bits v.toNat 1 3)).setFld (Reg.BIL_MARCH_CTRL.REPAIR t) (bits v.toNat 4 1)

theorem State.onlyRegs_setMarchCtrl : s.onlyRegs (s.setMarchCtrl t v) [Reg.BIL_MARCH_CTRL t] :=
  ((State.onlyRegs.refl s _).setFld _ (by simp)).setFld _ (by simp)

theorem State.op_setMarchCtrl : (s.setMarchCtrl t v).fld (Reg.BIL_MARCH_CTRL.OP t) = bits v.toNat 1 3 :=
  (State.fld_setFld_disjoint _ (Reg.BIL_MARCH_CTRL.REPAIR t) (Reg.BIL_MARCH_CTRL.OP t) _ rfl (by dsimp only; decide)
    (by dsimp only; decide)).trans ((State.fld_setFld_same s (Reg.BIL_MARCH_CTRL.OP t) _ (by dsimp only; decide)).trans
      (Nat.mod_eq_of_lt (bits_lt _ _ _)))

theorem State.repair_setMarchCtrl : (s.setMarchCtrl t v).flag (Reg.BIL_MARCH_CTRL.REPAIR t) = bitOf v.toNat 4 := by
  rw [State.flag, State.setMarchCtrl, State.fld_setFld_same _ _ _ (by dsimp only; decide), Nat.mod_eq_of_lt (bits_lt _ _ _)]
  exact decide_bits_one _ _

/-- The march that START begins. -/
def State.newMarch : March :=
  ⟨0, s.reg64 (Reg.BIL_MARCH_MASK_LO t) % 2 ^ 48, s.reg64 (Reg.BIL_MARCH_PAT_LO t), bits v.toNat 1 3, bitOf v.toNat 4⟩

/-- START begins no march: E3 is busy, OP is reserved, or firmware does not own every bank. -/
def State.refusesMarch : Prop :=
  s.engineBusy t 3 = true ∨ (s.tile t).fwMarch.isSome = true ∨ 5 ≤ bits v.toNat 1 3 ∨
    (maskBanks (s.reg64 (Reg.BIL_MARCH_MASK_LO t) % 2 ^ 48)).any (fun b => s.fld (Reg.BIL_OWN.OWNER t b) != 0) = true

end

section
variable {s : State} {t : Nat} {v : Word}

/-- What START reads besides the value stands in registers that OP and REPAIR leave. -/
theorem State.marchReads_congr {u : State} (h : s.onlyRegs u [Reg.BIL_MARCH_CTRL t]) :
    u.newMarch t v = s.newMarch t v ∧ (u.refusesMarch t v ↔ s.refusesMarch t v) := by
  obtain ⟨hall, hkeep⟩ := h
  have hreg (o : Nat) (ho : tileBase t + 0x1410 < o) : u.reg o = s.reg o :=
    hkeep o (by simp only [List.mem_singleton, Reg.BIL_MARCH_CTRL]; omega)
  have hmask : u.reg64 (Reg.BIL_MARCH_MASK_LO t) = s.reg64 (Reg.BIL_MARCH_MASK_LO t) :=
    State.reg64_congr (hreg _ (by simp only [Reg.BIL_MARCH_MASK_LO]; omega)) (hreg _ (by simp only [Reg.BIL_MARCH_MASK_LO]; omega))
  have hpat : u.reg64 (Reg.BIL_MARCH_PAT_LO t) = s.reg64 (Reg.BIL_MARCH_PAT_LO t) :=
    State.reg64_congr (hreg _ (by simp only [Reg.BIL_MARCH_PAT_LO]; omega)) (hreg _ (by simp only [Reg.BIL_MARCH_PAT_LO]; omega))
  have howner (b : Nat) : u.fld (Reg.BIL_OWN.OWNER t b) = s.fld (Reg.BIL_OWN.OWNER t b) :=
    State.fld_congr _ (hreg _ (by simp only [Reg.BIL_OWN]; omega))
  have hbusy := State.engineBusy_congr (t := t) hkeep (by simp) 3
  have htile : u.tile t = s.tile t := State.tile_congr (by rw [hall]) t
  exact ⟨by rw [State.newMarch, hmask, hpat]; rfl, by simp only [State.refusesMarch, hmask, howner, hbusy, htile]⟩

theorem State.marchStart_stays (h : bitOf v.toNat 0 = false ∨ s.reg64 (Reg.BIL_MARCH_MASK_LO t) % 2 ^ 48 = 0) :
    s.marchStart t v = s.setMarchCtrl t v := by
  have hmask := congrArg March.mask (State.marchReads_congr (v := v) (s.onlyRegs_setMarchCtrl t v)).1
  exact if_pos (h.imp_right hmask.trans)

theorem State.marchStart_refused (h : ¬ (bitOf v.toNat 0 = false ∨ s.reg64 (Reg.BIL_MARCH_MASK_LO t) % 2 ^ 48 = 0))
    (hr : s.refusesMarch t v) : s.marchStart t v = (s.setMarchCtrl t v).setFlag (Reg.BIL_MARCH_STAT.REFUSED t) true := by
  obtain ⟨hnew, hrefuses⟩ := State.marchReads_congr (v := v) (s.onlyRegs_setMarchCtrl t v)
  exact (if_neg (fun hx => h (hx.imp_right (congrArg March.mask hnew).symm.trans))).trans (if_pos (hrefuses.2 hr))

theorem State.marchStart_starts (h : ¬ (bitOf v.toNat 0 = false ∨ s.reg64 (Reg.BIL_MARCH_MASK_LO t) % 2 ^ 48 = 0))
    (hr : ¬ s.refusesMarch t v) :
    s.marchStart t v = (s.setMarchCtrl t v).modTile t (fun x => { x with fwMarch := some (s.newMarch t v) }) := by
  obtain ⟨hnew, hrefuses⟩ := State.marchReads_congr (v := v) (s.onlyRegs_setMarchCtrl t v)
  rw [← hnew]
  exact (if_neg (fun hx => h (hx.imp_right (congrArg March.mask hnew).symm.trans))).trans (if_neg (mt hrefuses.1 hr))

/-- The march stands in its tile, and holds the banks of its mask. -/
theorem State.setFwMarch_spec {u : State} (h : s.onlyRegs u [Reg.BIL_MARCH_CTRL t]) (m : March) :
    let r := u.modTile t (fun x => { x with fwMarch := some m })
    r.tile t = { s.tile t with fwMarch := some m } ∧ (∀ t' : Nat, t' ≠ t → r.tile t' = s.tile t') ∧
      (∀ b < 48, r.bankLocked t b = bitOf m.mask b) ∧ r = { s with regs := r.regs, tiles := r.tiles } ∧
      s.keepsRegs r [Reg.BIL_MARCH_CTRL t] := by
  obtain ⟨hall, hkeep⟩ := h
  have htiles (t' : Nat) : u.tile t' = s.tile t' := State.tile_congr (by rw [hall]) t'
  have hsame : (u.modTile t (fun x => { x with fwMarch := some m })).tile t = { s.tile t with fwMarch := some m } := by
    rw [State.modTile, State.tile_setTile_same, htiles]
  exact ⟨hsame, fun t' ht => (State.tile_setTile_ne u _ ht).trans (htiles t'),
    fun b _ => State.bankLocked_fwMarch (congrArg Tile.fwMarch hsame) b, by rw [hall]; rfl, hkeep⟩

end

/-- Settles O42: each case of a handover writes one register or one bank, and START stays, is refused, or begins the march. -/
theorem banksAreHandedOverAndMarched : Obligations.BanksAreHandedOverAndMarched := by
  refine ⟨fun t b v s hty hlive => ?_, fun t v s hty hlive hv hfree => ?_, fun t v s hty hlive => ?_⟩
  · refine ⟨s.handOver t b v.toNat, congrArg Host.Outcome.next ((if_pos hty).trans (State.byFirmware_live hlive _ _)), ?_⟩
    split_ifs with hcode hlock hfail
    · exact State.handOver_reserved hcode
    · rw [State.handOver_locked (by simpa using hcode) hlock]
      exact s.setBank_spec t b _
    · rw [State.handOver_failed (by simpa using hcode) (by simpa using hlock) hfail]
      exact ⟨State.flag_setFlag_same _ _ _ (by dsimp only; decide) rfl, (State.onlyRegs.refl s _).setFlag _ (by simp)⟩
    · rw [State.handOver_taken (by simpa using hcode) (by simpa using hlock) hfail]
      exact ⟨State.reg_setReg_same _ _ _, (State.onlyRegs.refl s _).setReg _ (by simp)⟩
  · exact ⟨s.ownBulk t v, congrArg Host.Outcome.next ((if_pos hty).trans (State.byFirmware_live hlive _ _)), State.ownBulk_spec hv hfree⟩
  · refine ⟨s.marchStart t v, congrArg Host.Outcome.next ((if_pos hty).trans (State.byFirmware_live hlive _ _)), ?_⟩
    have hop := s.op_setMarchCtrl t v
    have hrepair := s.repair_setMarchCtrl t v
    have hctrl := s.onlyRegs_setMarchCtrl t v
    have hne : Reg.BIL_MARCH_CTRL t ≠ Reg.BIL_MARCH_STAT t := by simp only [Reg.BIL_MARCH_CTRL, Reg.BIL_MARCH_STAT]; omega
    split_ifs with hstays hrefused
    · rw [State.marchStart_stays hstays]
      exact ⟨hop, hrepair, hctrl⟩
    · rw [State.marchStart_refused hstays hrefused]
      exact ⟨(State.fld_setFld_ne _ _ _ _ hne).trans hop, (State.flag_setFlag_ne _ _ _ _ hne).trans hrepair,
        State.flag_setFlag_same _ _ _ (by dsimp only; decide) rfl, (hctrl.mono (by simp)).setFlag _ (by simp)⟩
    · rw [State.marchStart_starts hstays hrefused]
      generalize s.setMarchCtrl t v = u at *
      exact ⟨hop, hrepair, State.setFwMarch_spec hctrl _⟩

end Sys2Proof.Machine
end

section
/-! PROOFS. The refutation of the statement on switches of jobs: a context whose address is read from XLT_STATUS. -/
namespace Sys2Proof.Machine

/-- The job whose CTX_HI in partition 0 lies at XLT_STATUS, beyond the eight jobs of R381. No field of `Part` bounds the outgoing job. -/
def strayJob : Nat := (Reg.XLT_STATUS - Reg.PRT_P_JOB_CTX_HI 0 0) / 8

/-- Partition 0 holds bay 0, its switch is to stop its engines, and FRAME_WAIT is set, though no walk waits for a descriptor. -/
def strayStopFields : List (Field × Nat) :=
  [(Reg.PRT_P_STAT.STATE 0, 2), (Reg.PRT_P_STAT.SWITCH 0, 1), (Reg.PRT_P_BAYS.COUNT 0, 1), (Reg.XLT_STATUS.FRAME_WAIT, 1)]

/-- That job goes out after one Strike toward the drain limit. -/
def strayStop : State :=
  (strayStopFields.foldl (fun s e => s.setFld e.1 e.2) State.reset).modPart 0 (fun x => { x with outgoing := some strayJob, drain := 1 })

/-- FRAME_WAIT reads as bit 34 of the context's address. -/
theorem ctxAt_strayStop : strayStop.ctxAt 0 strayJob = 2 ^ 34 := by decide +kernel

/-- Abandoning the movers clears FRAME_WAIT before the context is written, so that the drain count does not reach the address of before. -/
theorem num_stopComplete_strayStop : (stopComplete 0 strayStop).num (2 ^ 34 + 42) 2 = 0 := by decide +kernel

theorem drain_strayStop : ((strayStop.part 0).drain + ofBool (strayStop.part 0).armedRan) % 2 ^ 16 = 1 := by decide +kernel

/-- Refutes O57: the context of an outgoing job that does not exist moves as its switch stops. Only jobs 0 to 7 become resident, but the
statement speaks of every job and state. -/
theorem not_jobsAreSwitchedResetAndReleased : ¬ Obligations.JobsAreSwitchedResetAndReleased := by
  rintro ⟨-, -, -, hstop, -, -⟩
  obtain ⟨r, hr, -, -, -, hdrain, -⟩ := hstop 0 strayJob strayStop (by decide +kernel) (by decide +kernel) (by decide +kernel)
    (by decide +kernel) (by decide +kernel) (by decide +kernel)
  obtain rfl : stopComplete 0 strayStop = r := Host.Outcome.next.inj hr
  have hdrain : (stopComplete 0 strayStop).num (strayStop.ctxAt 0 strayJob + 42) 2 =
      ((strayStop.part 0).drain + ofBool (strayStop.part 0).armedRan) % 2 ^ 16 := hdrain
  rw [ctxAt_strayStop, num_stopComplete_strayStop, drain_strayStop] at hdrain
  exact absurd hdrain (by decide)

end Sys2Proof.Machine
end

section
/-! PROOFS. What every step keeps: each command's meaning keeps the canonical form, by the lemma of `Laws/Kept` about the function that its
arm of `exec` calls. The two commands that may blow fuses stand apart (R428). -/
set_option maxRecDepth 8000
namespace Sys2Proof.Machine

/-- A command but those two keeps the waiting commands, the fuses, the free values and the canonical form. -/
theorem exec_kept {s : State} (h : Kept s s) (c : Instr) (hreset : ∀ n, c ≠ .inputPowerReset n) (hfuse : c ≠ .fuseCommandComplete) :
    ∃ t, exec c s = .next t ∧ Kept s t := by
  cases c with
  | inputPowerReset n => exact absurd rfl (hreset n)
  | fuseCommandComplete => exact absurd rfl hfuse
  | powerUp => exact ⟨_, rfl, Kept.after_powerUp h⟩
  | perst => exact ⟨_, rfl, Kept.after_perst h⟩
  | warmReset => exact ⟨_, rfl, Kept.after_warmReset h⟩
  | getReady => exact ⟨_, rfl, Kept.after_getReady h⟩
  | functionLevelReset => exact ⟨_, rfl, Kept.after_functionLevelReset h⟩
  | tick => exact ⟨_, rfl, Kept.after_tickStep h⟩
  | strikeEdge => exact ⟨_, rfl, Kept.after_strikeEdge h⟩
  | missedBoundary => exact ⟨_, rfl, Kept.after_missedBoundary h⟩
  | anomalyPeriodRoll => exact ⟨_, rfl, Kept.after_anomalyPeriodRoll h⟩
  | timeArm => exact ⟨_, rfl, Kept.after_byFirmwareOrRack (fun _ => Kept.after_writeTimeCtrl) h⟩
  | referenceLost => exact ⟨_, rfl, Kept.after_referenceLost h⟩
  | referenceReturn => exact ⟨_, rfl, Kept.after_referenceReturn h⟩
  | slotCheck => exact ⟨_, rfl, Kept.after_slotCheck h⟩
  | devLock => exact ⟨_, rfl, Kept.after_byDevMasters (fun _ => Kept.after_writeLock) h⟩
  | registerWrite => exact ⟨_, rfl, Kept.after_registerWrite h⟩
  | flitGrant => exact ⟨_, rfl, Kept.after_flitGrant h⟩
  | flitArrival => exact ⟨_, rfl, Kept.after_flitArrival h⟩
  | creditReturn => exact ⟨_, rfl, Kept.after_creditReturn h⟩
  | deadlockDetect => exact ⟨_, rfl, Kept.after_deadlockDetect h⟩
  | grdLinkWrite => exact ⟨_, rfl, Kept.after_byFirmware (fun _ => Kept.after_writeGrd) h⟩
  | nop => exact ⟨_, rfl, Kept.after_issue (fun _ _ => Kept.after_retire) h⟩
  | movRegister | movImmediate => exact ⟨_, rfl, Kept.after_issue (fun _ _ => Kept.after_movBody) h⟩
  | addRegister | addImmediate | subRegister | subImmediate | andRegister | andImmediate | orRegister | orImmediate
  | shlRegister | shlImmediate | shrRegister | shrImmediate =>
    exact ⟨_, rfl, Kept.after_issue (fun _ _ => Kept.after_aluBody) h⟩
  | cmpRegister | cmpImmediate => exact ⟨_, rfl, Kept.after_issue (fun _ _ => Kept.after_cmpBody) h⟩
  | br => exact ⟨_, rfl, Kept.after_issue (fun _ _ => Kept.after_brBody) h⟩
  | loop => exact ⟨_, rfl, Kept.after_issue (fun _ _ => Kept.after_loopBody) h⟩
  | endl => exact ⟨_, rfl, Kept.after_issue (fun _ _ => Kept.after_endlBody) h⟩
  | recv | send => exact ⟨_, rfl, Kept.after_issue (fun _ _ => Kept.after_channelBody) h⟩
  | peek => exact ⟨_, rfl, Kept.after_issue (fun _ _ => Kept.after_peekBody) h⟩
  | shape => exact ⟨_, rfl, Kept.after_issue (fun _ _ => Kept.after_shapeBody) h⟩
  | fence => exact ⟨_, rfl, Kept.after_issue (fun _ _ => Kept.after_fenceBody) h⟩
  | quench => exact ⟨_, rfl, Kept.after_issue (fun _ _ => Kept.after_quenchBody) h⟩
  | halt => exact ⟨_, rfl, Kept.after_issue (fun _ _ => Kept.after_haltBody) h⟩
  | engineUnit => exact ⟨_, rfl, Kept.after_engineUnit h⟩
  | wld => exact ⟨_, rfl, Kept.after_issue (fun _ _ => Kept.after_wldBody) h⟩
  | wswap => exact ⟨_, rfl, Kept.after_issue (fun _ _ => Kept.after_wswapBody) h⟩
  | mma => exact ⟨_, rfl, Kept.after_issue (fun _ _ => Kept.after_mmaBody) h⟩
  | drain => exact ⟨_, rfl, Kept.after_issue (fun _ _ => Kept.after_drainBody) h⟩
  | fn => exact ⟨_, rfl, Kept.after_issue (fun _ _ => Kept.after_fnBody) h⟩
  | smax => exact ⟨_, rfl, Kept.after_issue (fun _ _ => Kept.after_smaxBody) h⟩
  | rope => exact ⟨_, rfl, Kept.after_issue (fun _ _ => Kept.after_ropeBody) h⟩
  | topk => exact ⟨_, rfl, Kept.after_issue (fun _ _ => Kept.after_topkBody) h⟩
  | sample => exact ⟨_, rfl, Kept.after_issue (fun _ _ => Kept.after_sampleBody) h⟩
  | stopchk => exact ⟨_, rfl, Kept.after_issue (fun _ _ => Kept.after_stopchkBody) h⟩
  | rng => exact ⟨_, rfl, Kept.after_issue (fun _ _ => Kept.after_rngBody) h⟩
  | brd => exact ⟨_, rfl, Kept.after_issue (fun _ _ => Kept.after_brdBody) h⟩
  | bwr => exact ⟨_, rfl, Kept.after_issue (fun _ _ => Kept.after_bwrBody) h⟩
  | bgath | bscat => exact ⟨_, rfl, Kept.after_issue (fun _ _ => Kept.after_gatherBody) h⟩
  | march => exact ⟨_, rfl, Kept.after_issue (fun _ _ => Kept.after_marchBody) h⟩
  | bilMarchStart => exact ⟨_, rfl, Kept.after_bilMarchStart h⟩
  | bilOwnBulk => exact ⟨_, rfl, Kept.after_bilOwnBulk h⟩
  | handover => exact ⟨_, rfl, Kept.after_handover h⟩
  | moverPortAccess => exact ⟨_, rfl, Kept.after_moverPortAccess h⟩
  | sramWindowAccess => exact ⟨_, rfl, Kept.after_sramWindowAccess h⟩
  | copy | ingot | diag | gather | scatter | kv | coll => exact ⟨_, rfl, Kept.after_moveRow h⟩
  | warm | cancelEntries | stopStream | startStream => exact ⟨_, rfl, Kept.after_prefRow h⟩
  | perm | unperm | append | bcast => exact ⟨_, rfl, Kept.after_issue (fun _ _ => Kept.after_cmdBody) h⟩
  | moverUnitStart => exact ⟨_, rfl, Kept.after_moverUnitStart h⟩
  | moverUnitComplete => exact ⟨_, rfl, Kept.after_moverUnitComplete h⟩
  | zeroCountCommand => exact ⟨_, rfl, Kept.after_zeroCountCommand h⟩
  | streamEntryStart => exact ⟨_, rfl, Kept.after_streamEntryStart h⟩
  | streamRelease => exact ⟨_, rfl, Kept.after_streamRelease h⟩
  | ioringDescriptor => exact ⟨_, rfl, Kept.after_ioringDescriptor h⟩
  | ringKick => exact ⟨_, rfl, Kept.after_byFirmware (fun _ => Kept.after_writeTierCtrl) h⟩
  | translationWalk => exact ⟨_, rfl, Kept.after_translationWalk h⟩
  | demandFetchComplete => exact ⟨_, rfl, Kept.after_demandFetchComplete h⟩
  | xltKick => exact ⟨_, rfl, Kept.after_byFirmware (fun _ => Kept.after_writeXltCtrl) h⟩
  | invalidateAll | invalidatePartition | invalidateRange => exact ⟨_, rfl, Kept.after_invalidate h⟩
  | invalidationComplete => exact ⟨_, rfl, Kept.after_invalidationComplete h⟩
  | hearthFill => exact ⟨_, rfl, Kept.after_hearthFill h⟩
  | residencyLookup => exact ⟨_, rfl, Kept.after_residencyLookup h⟩
  | residencyClose => exact ⟨_, rfl, Kept.after_residencyClose h⟩
  | shapeOverrunRecovery => exact ⟨_, rfl, Kept.after_shapeOverrunRecovery h⟩
  | load | arm => exact ⟨_, rfl, Kept.ite (Kept.after_byFirmware (fun _ => Kept.after_writeCfgCtrl) h) h⟩
  | loadComplete => exact ⟨_, rfl, Kept.after_loadComplete h⟩
  | configurationSwap => exact ⟨_, rfl, Kept.after_configurationSwap h⟩
  | ingPost => exact ⟨_, rfl, Kept.after_byFirmware (fun _ => Kept.after_ingPost) h⟩
  | ingressDelivery => exact ⟨_, rfl, Kept.after_ingressDelivery h⟩
  | drainTimeout => exact ⟨_, rfl, Kept.after_drainTimeout h⟩
  | capture | release => exact ⟨_, rfl, Kept.after_admitRow h⟩
  | switch | fill => exact ⟨_, rfl, Kept.after_wsRow h⟩
  | fillComplete => exact ⟨_, rfl, Kept.after_fillComplete h⟩
  | frameReceive => exact ⟨_, rfl, Kept.after_frameReceive h⟩
  | nak => exact ⟨_, rfl, Kept.after_nakIn h⟩
  | replayTimeout => exact ⟨_, rfl, Kept.after_replayTimeout h⟩
  | retrain => exact ⟨_, rfl, Kept.after_retrain h⟩
  | mshPortEnable | mshPortDisable => exact ⟨_, rfl, Kept.after_byFirmwareOrRack (fun _ => Kept.after_writePortCtrl) h⟩
  | portTrained => exact ⟨_, rfl, Kept.after_portTrained h⟩
  | portDisableComplete => exact ⟨_, rfl, Kept.after_portDisableComplete h⟩
  | loadstoreRequest => exact ⟨_, rfl, Kept.after_loadstoreRequest h⟩
  | loadstoreResponse => exact ⟨_, rfl, Kept.after_finishAccepts (Kept.after_loadstoreResponse h)⟩
  | loadstoreTimeout => exact ⟨_, rfl, Kept.after_loadstoreTimeout h⟩
  | msgKick => exact ⟨_, rfl, Kept.after_byFirmwareOrRack (fun _ => Kept.after_writeMshCtrl) h⟩
  | messageReceive => exact ⟨_, rfl, Kept.after_messageTaken h⟩
  | collectiveContribution => exact ⟨_, rfl, Kept.after_collectiveContribution h⟩
  | collectiveComplete => exact ⟨_, rfl, Kept.after_collectiveComplete h⟩
  | collTimeout => exact ⟨_, rfl, Kept.after_collTimeout h⟩
  | abort => exact ⟨_, rfl, Kept.after_byFirmwareOrRack (fun _ => Kept.after_writeMshPart) h⟩
  | bcastReceive => exact ⟨_, rfl, Kept.after_bcastReceive h⟩
  | capWrite => exact ⟨_, rfl, Kept.after_byPower (fun _ => Kept.after_writeCap) h⟩
  | pwrLock => exact ⟨_, rfl, Kept.after_byPower (fun _ => Kept.after_writeLock) h⟩
  | mshLock | cxlLock => exact ⟨_, rfl, Kept.after_byFirmwareOrRack (fun _ => Kept.after_writeLock) h⟩
  | powerStep => exact ⟨_, rfl, Kept.after_powerStep h⟩
  | leaseLapse => exact ⟨_, rfl, Kept.after_leaseLapse h⟩
  | alertAssert => exact ⟨_, rfl, Kept.after_alertAssert h⟩
  | alertRelease => exact ⟨_, rfl, Kept.after_alertRelease h⟩
  | powerSample => exact ⟨_, rfl, Kept.after_powerSample h⟩
  | temperatureSample => exact ⟨_, rfl, Kept.after_temperatureSample h⟩
  | thermtrip => exact ⟨_, rfl, Kept.after_thermtrip h⟩
  | bankEnable | bankDisable => exact ⟨_, rfl, Kept.ite (Kept.after_byPower (fun _ => Kept.after_writePwrBank) h) h⟩
  | watchLineSnoop => exact ⟨_, rfl, Kept.after_watchLineSnoop h⟩
  | watchLineFill => exact ⟨_, rfl, Kept.after_watchLineFill h⟩
  | submit => exact ⟨_, rfl, Kept.after_submit h⟩
  | cancel => exact ⟨_, rfl, Kept.after_cancel h⟩
  | logRelease => exact ⟨_, rfl, Kept.ite (Kept.after_byLogMasters (fun _ => Kept.after_writeLogCtl) h) h⟩
  | stepAdmission => exact ⟨_, rfl, Kept.after_stepAdmitted h⟩
  | requestDeadlineCheck => exact ⟨_, rfl, Kept.after_requestDeadlineCheck h⟩
  | stepEnd => exact ⟨_, rfl, Kept.after_stepEnd h⟩
  | verdictReceive => exact ⟨_, rfl, Kept.after_verdictReceive h⟩
  | verdictWindowExpiry => exact ⟨_, rfl, Kept.after_verdictWindowExpiry h⟩
  | verdictGoodDecision => exact ⟨_, rfl, Kept.after_verdictGoodDecision h⟩
  | commitRecordAck => exact ⟨_, rfl, Kept.after_commitRecordAck h⟩
  | tailWordAck => exact ⟨_, rfl, Kept.after_tailWordAck h⟩
  | journalMirrorLoss => exact ⟨_, rfl, Kept.after_journalMirrorLoss h⟩
  | journalMirrorRestore => exact ⟨_, rfl, Kept.after_journalMirrorRestore h⟩
  | recovery => exact ⟨_, rfl, Kept.after_recovery h⟩
  | journalFetch => exact ⟨_, rfl, Kept.after_journalFetch h⟩
  | journalDone => exact ⟨_, rfl, Kept.after_journalDone h⟩
  | budgetWindowRoll => exact ⟨_, rfl, Kept.after_budgetWindowRoll h⟩
  | partitionEnable | partitionDisable => exact ⟨_, rfl, Kept.after_prtRow h⟩
  | partitionStateDone => exact ⟨_, rfl, Kept.after_stateDone h⟩
  | preempt | partitionReset | partitionRelease => exact ⟨_, rfl, Kept.after_prtRow h⟩
  | jobRelease | jobReset => exact ⟨_, rfl, Kept.ite (Kept.after_byFirmware (fun _ => Kept.after_writeJstat) h) h⟩
  | jobContextValid => exact ⟨_, rfl, Kept.after_byFirmware (fun _ => Kept.after_writeCtxLo) h⟩
  | timeSlice => exact ⟨_, rfl, Kept.after_timeSlice h⟩
  | stopComplete => exact ⟨_, rfl, Kept.after_stopComplete h⟩
  | saveComplete => exact ⟨_, rfl, Kept.after_saveComplete h⟩
  | restoreComplete => exact ⟨_, rfl, Kept.after_restoreComplete h⟩
  | rollback => exact ⟨_, rfl, Kept.after_rollback h⟩
  | sparkUnit => exact ⟨_, rfl, Kept.after_sparkUnit h⟩
  | sparkRotation => exact ⟨_, rfl, Kept.after_sparkRotation h⟩
  | coverDue => exact ⟨_, rfl, Kept.after_coverDue h⟩
  | coveragePeriodEnd => exact ⟨_, rfl, Kept.after_coveragePeriodEnd h⟩
  | packLoad | imageLoad => exact ⟨_, rfl, Kept.after_loadRow h⟩
  | revokeSlot | raiseFwArb | raisePackArb | blowDebugLock => exact ⟨_, rfl, Kept.after_fuseRow h⟩
  | secFnrel => exact ⟨_, rfl, Kept.after_writeFnrel h⟩
  | getVersion | getCapabilities | negotiateAlgorithms | getDigests => exact ⟨_, rfl, Kept.after_spdm (fun _ => Kept.after_emit) h⟩
  | getCertificate => exact ⟨_, rfl, Kept.after_spdm (fun _ => Kept.after_certificate) h⟩
  | challenge => exact ⟨_, rfl, Kept.after_spdm (fun _ => Kept.after_challenge) h⟩
  | getMeasurements => exact ⟨_, rfl, Kept.after_spdm (fun _ => Kept.after_measure) h⟩
  | debugSessionOpen => exact ⟨_, rfl, Kept.after_debugSessionOpen h⟩
  | hostIoRequest => exact ⟨_, rfl, Kept.after_hostIoRequest h⟩
  | hostMemRequest => exact ⟨_, rfl, Kept.after_hostMemRequest h⟩
  | tierEnable | tierDisable => exact ⟨_, rfl, Kept.after_tierRow h⟩
  | cplTimeout => exact ⟨_, rfl, Kept.after_cplTimeout h⟩
  | partnerResponse => exact ⟨_, rfl, Kept.after_partnerResponse h⟩
  | surpriseLinkDown => exact ⟨_, rfl, Kept.after_surpriseLinkDown h⟩
  | stackTrainingLost => exact ⟨_, rfl, Kept.after_stackTrainingLost h⟩
  | perstDeassert => exact ⟨_, rfl, Kept.after_perstDeassert h⟩
  | hostLinkTrained => exact ⟨_, rfl, Kept.after_hostLinkTrained h⟩

theorem State.Inv.kept {s : State} (h : s.Inv) : Kept s s := ⟨rfl, rfl, Nat.le_refl _, h.mem, h.regs, h.flash⟩

theorem Kept.inv {s t : State} (h : Kept s t) : t.Inv := ⟨h.mem, h.regs, h.flash⟩

/-- Every command keeps what `Kept` says of the state before it, but for the fuses that it leaves. -/
theorem exec_kept_but_fuses {s : State} (h : Kept s s) (c : Instr) : ∃ t, exec c s = .next t ∧ Kept { s with fuses := t.fuses } t := by
  by_cases hreset : ∃ n, c = .inputPowerReset n
  · obtain ⟨n, rfl⟩ := hreset
    exact ⟨_, rfl, Kept.after_inputPowerReset h⟩
  by_cases hfuse : c = .fuseCommandComplete
  · subst hfuse
    have hk := Kept.after_fuseCommandComplete h
    refine ⟨_, rfl, ?_⟩
    rw [show (fuseCommandComplete s).fuses = s.endFuse.fuses from hk.fuses]
    exact hk
  · obtain ⟨t, ht, hk⟩ := exec_kept h c (not_exists.mp hreset) hfuse
    refine ⟨t, ht, ?_⟩
    rw [show t.fuses = s.fuses from hk.fuses]
    exact hk

/-- Settles O4: the command at the front acts on the state with the rest of the queue, whose tables are the same. -/
theorem stepKeepsCanonicalForm : Obligations.StepKeepsCanonicalForm := by
  intro s t hs ht
  unfold step at ht
  split at ht
  · cases ht
    exact hs
  · next c rest _ =>
    have hrest : State.Inv { s with pending := rest } := ⟨hs.mem, hs.regs, hs.flash⟩
    obtain ⟨r, hr, hk⟩ := exec_kept_but_fuses hrest.kept c
    split at ht
    · obtain rfl : r = t := Host.Outcome.next.inj (hr.symm.trans ht)
      exact hk.inv
    · cases ht

end Sys2Proof.Machine
end

section
/-! PROOFS. The refutation of the statement on walks: a walk of a partition beyond the twelve, whose ring's base is a count of the Hearth
cache that the walk itself advances. -/
namespace Sys2Proof.Machine

/-- A partition so far beyond the twelve that its XLT_RCB is TIER_HEARTH_MISS. No field of `Walk` bounds its partition. -/
def foreignPart : Nat := (Reg.TIER_HEARTH_MISS_LO - Reg.XLT_RCB_LO 0) / 8

/-- A walk of the engines for VA 0 from the table at 0x1000. -/
def foreignWalk : Walk := ⟨.engine, foreignPart, 0x1001, 0, 0, .read, [], false⟩

/-- A booted module that fetches on demand, whose stack 0 is on and has counted 63 misses. -/
def foreignWalkFields : List (Field × Nat) :=
  [(Reg.SEC_STATUS.BOOTED, 1), (Reg.TIER_UNIT.STATE (unitHot 0), 2), (Reg.XLT_CTRL.DEMAND_EN, 1), (Reg.TIER_HEARTH_MISS_LO.VALUE, 63)]

/-- The page of VA 0 is absent: its leaf, at level 2, has its home in the cold window. The ring of 1 GiB frames at address 0 has one
descriptor; the bytes of a ring at address 64 are zero, so that it has none. -/
def foreignWalkState : State :=
  foreignWalkFields.foldl (fun s e => s.setFld e.1 e.2) { State.reset with
    mem := (40, 1) :: cellsFrom 0x1000 (natLE 8 0x2001) ++ cellsFrom 0x2000 (natLE 8 0x400000000022)
    pins := { Pins.reset with powered := true, railsOn := true, clocksOn := true }
    walks := [foreignWalk] }

theorem find?_canWalk_foreignWalkState : foreignWalkState.walks.find? foreignWalkState.canWalk = some foreignWalk := by decide +kernel

theorem walkTable_foreignWalkState :
    foreignWalkState.walkTable (foreignWalkState.tableOf foreignWalk) foreignWalk.va = .absent 30 0x2000 0x400000000022 := by decide +kernel

theorem rcb_foreignWalkState : foreignWalkState.rcb foreignPart = 0 := by decide +kernel

/-- The ring at address 0 has a descriptor. -/
theorem ring_foreignWalkState : foreignWalkState.num (0 + 16 * ringOf 30 + 8) 4 ≠ foreignWalkState.num (0 + 16 * ringOf 30 + 12) 4 := by
  decide +kernel

/-- The misses of the walk's own reads move the ring to address 64, which has none, so that the walk stays. -/
theorem walks_translationWalk_foreignWalkState :
    (translationWalk foreignWalkState).walks = [{ foreignWalk with blocked := true }] := by decide +kernel

/-- Refutes O47: a walk's reads count misses, and the count is the base of its own ring. No partition's XLT_RCB lies there, but the statement
speaks of every walk. -/
theorem not_walksFillCachesOrFetch : ¬ Obligations.WalksFillCachesOrFetch := by
  rintro ⟨hwalk, -, -⟩
  obtain ⟨r, hr, -, -, habsent⟩ := hwalk foreignWalkState foreignWalk (by decide +kernel) find?_canWalk_foreignWalkState
  obtain rfl : translationWalk foreignWalkState = r := Host.Outcome.next.inj hr
  obtain ⟨htaken, -⟩ := habsent _ _ _ walkTable_foreignWalkState (by decide +kernel) (by decide +kernel) nofun
  obtain ⟨herase, -⟩ := htaken (by rw [show foreignWalk.part = foreignPart from rfl, rcb_foreignWalkState]; exact ring_foreignWalkState)
  rw [walks_translationWalk_foreignWalkState] at herase
  exact absurd herase (by decide +kernel)

end Sys2Proof.Machine
end

section
/-! PROOFS. What an access that passes through the Hearth cache leaves alone (R177, R200, R203): it writes the four count registers and
its set, and nothing else. -/
namespace Sys2Proof.Machine

/-! ## Frames -/

/-- Nothing but the counts of the Hearth cache and its sets differs. -/
def State.onlyHearth (s r : State) : Prop := r = { s with regs := r.regs, hearth := r.hearth } ∧ s.keepsRegs r hearthRegs

section
variable {s r u : State}

theorem State.onlyHearth.refl (s : State) : s.onlyHearth s := ⟨rfl, fun _ _ => rfl⟩

theorem State.onlyHearth.trans (h : s.onlyHearth r) (h' : r.onlyHearth u) : s.onlyHearth u := by
  obtain ⟨hr, hk⟩ := h
  obtain ⟨hu, hk'⟩ := h'
  exact ⟨by rw [hu, hr], fun o ho => (hk' o ho).trans (hk o ho)⟩

theorem State.onlyHearth.foldl {α : Type} {f : State → α → State} (hf : ∀ (u : State) x, u.onlyHearth (f u x)) (l : List α) (s : State) :
    s.onlyHearth (l.foldl f s) := by
  induction l generalizing s with
  | nil => exact .refl s
  | cons x l ih => exact (hf s x).trans (ih (f s x))

theorem State.onlyHearth.mem (h : s.onlyHearth r) : r.mem = s.mem := by
  obtain ⟨hr, -⟩ := h
  rw [hr]

theorem State.onlyHearth.fld (h : s.onlyHearth r) {f : Field} (hf : f.off ∉ hearthRegs) : r.fld f = s.fld f := h.2.fld hf

theorem State.onlyHearth.flag (h : s.onlyHearth r) {f : Field} (hf : f.off ∉ hearthRegs) : r.flag f = s.flag f := h.2.flag hf

end

/-! ## Accesses -/

theorem State.onlyHearth_hearthPut (s : State) (b off : Nat) (write : Bool) : s.onlyHearth (s.hearthPut b off write) :=
  ⟨rfl, fun _ _ => rfl⟩

theorem State.onlyHearth_hearthAccess (s : State) (b off : Nat) (write na : Bool) : s.onlyHearth (s.hearthAccess b off write na) := by
  have hcount {lo : Nat} (hlo : lo ∈ hearthRegs) (hhi : lo + 4 ∈ hearthRegs) : s.onlyHearth (s.add64 lo 1) :=
    ⟨rfl, (State.keepsRegs_setReg64 s lo _).mono (by simp [hlo, hhi])⟩
  unfold State.hearthAccess
  dsimp only
  split
  · exact (hcount (by decide) (by decide)).trans (State.onlyHearth_hearthPut _ _ _ _)
  · have hmiss := hcount (lo := Reg.TIER_HEARTH_MISS_LO) (by decide) (by decide)
    split
    · exact hmiss
    · exact hmiss.trans (State.onlyHearth_hearthPut _ _ _ _)

theorem State.onlyHearth_hearthLines (s : State) (b off n : Nat) (write na : Bool) : s.onlyHearth (s.hearthLines b off n write na) :=
  .foldl (fun u l => u.onlyHearth_hearthAccess b l write na) _ s

theorem State.onlyHearth_pass (s : State) (off n : Nat) (write : Bool) : s.onlyHearth (s.pass off n write) := by
  refine .foldl (fun u l => ?_) _ s
  split
  · exact u.onlyHearth_hearthAccess _ _ _ _
  · exact .refl u

/-! ## Bytes of memory -/

section
variable {s r : State} {a : Nat}

theorem State.num_congr (h : r.mem = s.mem) (a n : Nat) : r.num a n = s.num a n := by rw [State.num, State.bytes_congr h]; rfl

theorem State.num_lt (s : State) (a n : Nat) : s.num a n < 256 ^ n := by
  have h := leNat_lt (s.bytes a n)
  rwa [State.length_bytes] at h

theorem State.keepsMem_of_mem (h : r.mem = s.mem) (a n : Nat) : s.keepsMem r a n := fun x _ => State.byte_congr h x

theorem State.drop_take_bytes (s : State) (a : Nat) {n i k : Nat} (h : i + k ≤ n) : ((s.bytes a n).drop i).take k = s.bytes (a + i) k := by
  refine List.ext_getElem (by simp [State.length_bytes]; omega) fun j hj hj' => ?_
  rw [List.getElem_take, List.getElem_drop, State.getElem_bytes, State.getElem_bytes, Nat.add_assoc]

theorem State.take_bytes (s : State) (a : Nat) {n k : Nat} (h : k ≤ n) : (s.bytes a n).take k = s.bytes a k := by
  simpa using s.drop_take_bytes a (i := 0) (by omega : 0 + k ≤ n)

/-- A part of the bytes written is read back. -/
theorem State.bytes_write_part (s : State) (a : Nat) (d : List Byte) {i k : Nat} (h : i + k ≤ d.length) :
    (s.write a d).bytes (a + i) k = (d.drop i).take k := by
  rw [← State.drop_take_bytes _ a h, State.bytes_write]

/-- A number among the bytes written is read back. -/
theorem State.num_write_part (s : State) (a : Nat) (x : List Byte) (n v : Nat) (y : List Byte) :
    (s.write a (x ++ (natLE n v ++ y))).num (a + x.length) n = v % 256 ^ n := by
  have hn : (natLE n v).length = n := natLE_length n v
  rw [State.num, State.bytes_write_part _ _ _ (by simp only [List.length_append]; omega), List.drop_left,
    List.take_left' hn, leNat_natLE]

end

end Sys2Proof.Machine
end

section
/-! PROOFS. What the sending of frames and packets leaves alone (R308 to R313, R316): a frame that leaves changes the ports and the outputs,
and no receive buffer. -/
namespace Sys2Proof.Machine

/-- Only the ports and the outputs differ, and no receive buffer does. -/
def State.onlyPorts (s r : State) : Prop := r = { s with ports := r.ports, out := r.out } ∧ ∀ n, (r.port n).packets = (s.port n).packets

/-- Only the ports, the outputs and the count of packets without a route differ. -/
def State.onlyMesh (s r : State) : Prop :=
  r = { s with regs := r.regs, ports := r.ports, out := r.out } ∧ s.keepsRegs r [Reg.MSH_UNROUTED, Reg.MSH_STATUS]

section
variable {s r u : State}

theorem State.onlyPorts.refl (s : State) : s.onlyPorts s := ⟨rfl, fun _ => rfl⟩

theorem State.onlyPorts.trans (h : s.onlyPorts r) (h' : r.onlyPorts u) : s.onlyPorts u := by
  obtain ⟨hr, hp⟩ := h
  obtain ⟨hu, hp'⟩ := h'
  exact ⟨by rw [hu, hr], fun n => (hp' n).trans (hp n)⟩

theorem State.onlyPorts.regs (h : s.onlyPorts r) : r.regs = s.regs := by
  obtain ⟨hr, -⟩ := h
  rw [hr]

theorem State.onlyPorts.mem (h : s.onlyPorts r) : r.mem = s.mem := by
  obtain ⟨hr, -⟩ := h
  rw [hr]

theorem State.onlyPorts.onlyMesh (h : s.onlyPorts r) : s.onlyMesh r := by
  refine ⟨?_, State.keepsRegs_of_regs h.regs _⟩
  obtain ⟨hr, -⟩ := h
  rw [hr]

theorem State.onlyMesh.mem (h : s.onlyMesh r) : r.mem = s.mem := by
  obtain ⟨hr, -⟩ := h
  rw [hr]

theorem State.onlyMesh.outstanding (h : s.onlyMesh r) : r.outstanding = s.outstanding := by
  obtain ⟨hr, -⟩ := h
  rw [hr]

end

/-! ## Frames -/

/-- A change of a port that leaves its receive buffer. -/
theorem State.onlyPorts_setPort (s : State) {n : Nat} {x : LipinPort} (h : x.packets = (s.port n).packets) : s.onlyPorts (s.setPort n x) := by
  refine ⟨rfl, fun k => ?_⟩
  rcases eq_or_ne k n with rfl | hk
  · rw [State.port_setPort_same, h]
  · rw [State.port_setPort_ne _ _ hk]

theorem State.onlyPorts_modPort (s : State) (n : Nat) {f : LipinPort → LipinPort} (h : ∀ x, (f x).packets = x.packets) :
    s.onlyPorts (s.modPort n f) := s.onlyPorts_setPort (h _)

theorem State.onlyPorts_emit (s : State) (o : Output) : s.onlyPorts (s.emit o) := ⟨rfl, fun _ => rfl⟩

theorem LipinPort.packets_header (x : LipinPort) (f : Frame) : (x.header f).2.packets = x.packets := by
  unfold LipinPort.header
  dsimp only
  split <;> rfl

theorem State.onlyPorts_emitFrame (s : State) (n : Nat) (f : Frame) : s.onlyPorts (s.emitFrame n f) := by
  rw [State.emitFrame]
  have hx := (s.port n).packets_header f
  generalize (s.port n).header f = x at hx
  exact .trans (s.onlyPorts_setPort hx) (State.onlyPorts_emit _ _)

theorem State.onlyPorts_sendIdle (s : State) (n : Nat) : s.onlyPorts (s.sendIdle n) := by
  unfold State.sendIdle
  split
  · exact s.onlyPorts_emitFrame n _
  · exact .refl s

theorem State.onlyPorts_leaveBuffer (s : State) (q : Queued) : s.onlyPorts (s.leaveBuffer q) := by
  unfold State.leaveBuffer
  split
  · exact .refl s
  · refine .trans ?_ (State.onlyPorts_sendIdle _ _)
    exact s.onlyPorts_modPort _ fun _ => rfl

theorem State.onlyPorts_pump (n k : Nat) (s : State) : s.onlyPorts (s.pump n k) := by
  induction k generalizing s with
  | zero => exact .refl s
  | succ k ih =>
    unfold State.pump
    dsimp only
    split
    · exact .refl s
    split
    · exact .refl s
    · refine .trans (.trans (.trans ?_ (State.onlyPorts_emitFrame _ _ _)) (State.onlyPorts_leaveBuffer _ _)) (ih _)
      exact s.onlyPorts_setPort rfl

/-! ## Packets -/

theorem State.onlyPorts_enqueue (s : State) (n vc : Nat) (src : Option Nat) (ps : List (List Byte)) : s.onlyPorts (s.enqueue n vc src ps) := by
  refine .trans ?_ (State.onlyPorts_pump _ _ _)
  exact s.onlyPorts_modPort n fun _ => rfl

theorem State.onlyRegs_unrouted (s : State) (n : Nat) : s.onlyRegs (s.unrouted n) [Reg.MSH_UNROUTED, Reg.MSH_STATUS] :=
  ((State.onlyRegs.refl s _).setReg _ (by simp)).setFlag _ (by simp)

theorem State.onlyMesh_forward (s : State) (vc : Nat) (ps : List (List Byte)) : s.onlyMesh (s.forward vc ps) := by
  unfold State.forward
  split
  · exact ⟨rfl, fun _ _ => rfl⟩
  · exact ⟨rfl, (s.onlyRegs_unrouted _).2⟩
  · exact (s.onlyPorts_enqueue _ _ _ _).onlyMesh

theorem State.onlyMesh_sendPacket (s : State) (dst vc kind epoch tag info : Nat) (body : List Byte) :
    s.onlyMesh (s.sendPacket dst vc kind epoch tag info body) := s.onlyMesh_forward _ _

/-- The port that a packet leaves. -/
def LipinPort.without (x : LipinPort) (p : Packet) : LipinPort :=
  { x with
    packets := x.packets.erase p
    owed := if p.loop then x.owed else Sparse.modify (fun _ => 0) x.owed p.vc (· + p.frames.length) }

/-- A packet that leaves its receive buffer. -/
theorem State.takePacket_spec (s : State) (n : Nat) (p : Packet) :
    s.takePacket n p = { s with ports := (s.takePacket n p).ports, out := (s.takePacket n p).out } ∧
      ((s.takePacket n p).port n).packets = (s.port n).packets.erase p ∧
      ∀ k, k ≠ n → ((s.takePacket n p).port k).packets = (s.port k).packets := by
  have hsent : (s.modPort n (·.without p)).onlyPorts (s.takePacket n p) := by
    have htake : s.takePacket n p = if p.loop then s.modPort n (·.without p) else (s.modPort n (·.without p)).sendIdle n := rfl
    rw [htake]
    split
    · exact .refl _
    · exact State.onlyPorts_sendIdle _ _
  obtain ⟨hr, hp⟩ := hsent
  refine ⟨hr.trans rfl, ?_, fun k hk => ?_⟩
  · rw [hp, State.modPort, State.port_setPort_same]
    rfl
  · rw [hp, State.modPort, State.port_setPort_ne _ _ hk]

/-- A request to another slot is outstanding, whether or not it has its tags. -/
theorem State.ask_remote (s : State) (vc slot pa : Nat) (op : AccessOp) (who : Issuer) :
    ∃ o : Outstanding, o.port = 16 + vc ∧ o.slot = slot ∧ o.addr = pa ∧ o.op = op ∧ o.issuer = who ∧
      s.ask (16 + vc) slot pa op who = { s with
        regs := (s.ask (16 + vc) slot pa op who).regs, ports := (s.ask (16 + vc) slot pa op who).ports
        out := (s.ask (16 + vc) slot pa op who).out, outstanding := s.outstanding ++ [o], nextTag := s.nextTag + 1 } ∧
      s.keepsRegs (s.ask (16 + vc) slot pa op who) [Reg.MSH_UNROUTED, Reg.MSH_STATUS] := by
  refine ⟨⟨s.nextTag, 16 + vc, slot, s.tagsLeft who.holder (opTags op), who, pa, op, BitVec.ofNat 64 s.tick⟩, rfl, rfl, rfl, rfl, rfl, ?_⟩
  suffices h : State.onlyMesh { s with
      outstanding := s.outstanding ++ [⟨s.nextTag, 16 + vc, slot, s.tagsLeft who.holder (opTags op), who, pa, op, BitVec.ofNat 64 s.tick⟩]
      nextTag := s.nextTag + 1 } (s.ask (16 + vc) slot pa op who) from ⟨h.1, (State.keepsRegs_of_regs rfl []).trans h.2 (by simp) (by simp)⟩
  unfold State.ask
  dsimp only
  split
  · rw [State.launch, if_neg (Nat.not_lt.2 (Nat.le_add_right _ _))]
    exact State.onlyMesh_sendPacket _ _ _ _ _ _ _ _
  · exact ⟨rfl, fun _ _ => rfl⟩

end Sys2Proof.Machine
end

section
/-! PROOFS. What decides which memory an address names and which route leads to a slot: the registers of the own slot, of the tiers and of
the links. -/
namespace Sys2Proof.Machine

/-- The registers of the own slot, and those of the tiers, the links and the partners, read the same. -/
def State.samePlaces (s r : State) : Prop := ∀ o, (o = Reg.DEV_SLOT ∨ 0x9000100 ≤ o) → r.reg o = s.reg o

section
variable {s r : State}

theorem State.keepsRegs.samePlaces {l : List Nat} (h : s.keepsRegs r l) (hl : ∀ o ∈ l, o ≠ Reg.DEV_SLOT ∧ o < 0x9000100) : s.samePlaces r :=
  fun o ho => h o fun hm => by have := hl o hm; omega

theorem State.samePlaces.fld (h : s.samePlaces r) {f : Field} (hf : f.off = Reg.DEV_SLOT ∨ 0x9000100 ≤ f.off) : r.fld f = s.fld f :=
  State.fld_congr f (h _ hf)

theorem State.samePlaces.flag (h : s.samePlaces r) {f : Field} (hf : f.off = Reg.DEV_SLOT ∨ 0x9000100 ≤ f.off) : r.flag f = s.flag f := by
  rw [State.flag, State.flag, h.fld hf]

theorem State.samePlaces.ownSlot (h : s.samePlaces r) : r.ownSlot = s.ownSlot := h.fld (.inl rfl)

theorem State.samePlaces.homeOf (h : s.samePlaces r) (pa : Nat) : r.homeOf pa = s.homeOf pa := by
  have hbacked : r.backed = s.backed := by
    funext n
    rw [State.backed, State.backed, h.fld (.inr (show 0x9000100 ≤ 0x9000180 + n * 0x4 by omega))]
  rw [State.homeOf, State.homeOf, h.ownSlot, hbacked]

theorem State.samePlaces.tierUp (h : s.samePlaces r) (u : Nat) : r.tierUp u = s.tierUp u := by
  have hu : 0x9000100 ≤ 0x9000100 + u * 0x4 := Nat.le_add_right _ _
  rw [State.tierUp, State.tierUp, h.fld (.inr hu), h.flag (.inr hu)]

theorem State.samePlaces.coldPort (h : s.samePlaces r) (off : Nat) : r.coldPort off = s.coldPort off := by
  rw [State.coldPort, State.coldPort, h.tierUp, h.tierUp, h.flag (.inr (by decide))]

theorem State.samePlaces.homeUp (h : s.samePlaces r) (m : Home) : r.homeUp m = s.homeUp m := by
  cases m with
  | hot b off => exact h.tierUp _
  | warm n off => exact h.tierUp _
  | cold off => exact congrArg Option.isSome (h.coldPort off)
  | sram off | control off | remote slot off | hole => rfl

theorem State.samePlaces.route (h : s.samePlaces r) (d : Nat) : r.route d = s.route d := by
  have hon (n : Nat) : r.portOn n = s.portOn n := by rw [State.portOn, State.portOn, h.fld (.inr (show 0x9000100 ≤ 0xB000040 + n * 0x4 by omega))]
  have hphys : r.ownPhys = s.ownPhys := by rw [State.ownPhys, State.ownPhys, h.fld (.inr (by decide)), h.fld (.inr (by decide))]
  rw [State.route, State.route, hphys, h _ (.inr (show 0x9000100 ≤ 0xB000300 + d / 8 * 4 by omega)), h.fld (.inr (by decide)),
    h.fld (.inr (by decide))]
  simp only [hon]

theorem State.samePlaces.slotReachable (h : s.samePlaces r) (slot : Nat) : r.slotReachable slot = s.slotReachable slot := by
  rw [State.slotReachable, State.slotReachable, h.route, State.slotPhys, State.slotPhys, h.fld (.inr (by decide)), h.fld (.inr (by decide))]

end

end Sys2Proof.Machine
end

section
/-! PROOFS. The statement of 12_configurations_and_weight_sets.md on CAPTURE and RELEASE (R179, R298 to R300). -/
namespace Sys2Proof.Machine

/-! ## CFG_ADMIT_CTRL -/

theorem bits_and (x m lo w : Nat) : bits (x &&& m) lo w = bits x lo w &&& bits m lo w := by
  rw [bits, Nat.and_div_two_pow, Nat.and_mod_two_pow]
  rfl

/-- A field that a mask covers takes the value written. -/
theorem State.fld_setReg_masked (s : State) (f : Field) (v m : Word) (hm : bits m.toNat f.lo f.width = 2 ^ f.width - 1) :
    (s.setReg f.off (v &&& m)).fld f = bits v.toNat f.lo f.width := by
  rw [State.fld_setReg_same, BitVec.toNat_and, bits_and, hm, Nat.and_two_pow_sub_one_of_lt_two_pow (bits_lt _ _ _)]

theorem bitOf_eq_decide (v i : Nat) : bitOf v i = decide (bits v i 1 = 1) := (decide_bits_one v i).symm

/-- The state with COUNT, PART and OP written. -/
def State.admitting (s : State) (v : Word) : State := s.setReg Reg.CFG_ADMIT_CTRL (v &&& 0x1F00007F)

/-- The address of the list (Table 12-7). -/
def State.listPa (s : State) : Nat := s.fld Reg.CFG_ADMIT_LIST_LO.ADDR * 2 ^ 4 + s.fld Reg.CFG_ADMIT_LIST_HI.ADDR * 2 ^ 32

section
variable (s : State) (v : Word)

theorem State.onlyRegs_admitting : s.onlyRegs (s.admitting v) [Reg.CFG_ADMIT_CTRL] := (State.onlyRegs.refl s _).setReg _ (by simp)

theorem State.count_admitting : (s.admitting v).fld Reg.CFG_ADMIT_CTRL.COUNT = bits v.toNat 0 7 :=
  s.fld_setReg_masked Reg.CFG_ADMIT_CTRL.COUNT v _ (by decide)

theorem State.op_admitting : (s.admitting v).fld Reg.CFG_ADMIT_CTRL.OP = bits v.toNat 28 1 :=
  s.fld_setReg_masked Reg.CFG_ADMIT_CTRL.OP v _ (by decide)

theorem State.part_admitting : (s.admitting v).fld Reg.CFG_ADMIT_CTRL.PART = bits v.toNat 24 4 :=
  s.fld_setReg_masked Reg.CFG_ADMIT_CTRL.PART v _ (by decide)

theorem State.samePlaces_admitting : s.samePlaces (s.admitting v) := (s.onlyRegs_admitting v).2.samePlaces (by decide)

theorem State.busy_admitting : (s.admitting v).flag Reg.CFG_ADMIT_STAT.BUSY = s.flag Reg.CFG_ADMIT_STAT.BUSY :=
  (s.onlyRegs_admitting v).2.flag (by decide)

theorem State.listPa_admitting : (s.admitting v).listPa = s.listPa := by
  rw [State.listPa, State.listPa, (s.onlyRegs_admitting v).2.fld (by decide), (s.onlyRegs_admitting v).2.fld (by decide)]

end

/-- The commands of CFG_ADMIT_CTRL, by OP. -/
def admitRows : List ((Word → Instr) × Nat) := [(Instr.capture .firmware, 0), (Instr.release .firmware, 1)]

theorem exec_admitRow {c : Word → Instr} {op : Nat} {v : Word} {s : State} (hc : (c, op) ∈ admitRows) (hlive : s.live = true)
    (hstart : bitOf v.toNat 31 = true) (hop : bits v.toNat 28 1 = op) : exec (c v) s = .next (s.admitting v).runAdmission := by
  have hrow : s.admitRow .firmware op v = (s.admitting v).runAdmission := by
    rw [State.admitRow, if_pos ⟨hstart, hop⟩, State.byFirmware_live hlive, State.writeAdmit]
    exact if_pos hstart
  simp only [admitRows, List.mem_cons, Prod.mk.injEq, List.not_mem_nil, or_false] at hc
  obtain ⟨rfl, rfl⟩ | ⟨rfl, rfl⟩ := hc
  · exact congrArg Host.Outcome.next hrow
  · exact congrArg Host.Outcome.next hrow

/-! ## The admission engine -/

section
variable {s : State}

theorem State.runAdmission_busy (h : s.flag Reg.CFG_ADMIT_STAT.BUSY = true) : s.runAdmission = s.admitError 5 0 := by
  rw [State.runAdmission]
  exact if_pos h

theorem State.runAdmission_count (h : s.flag Reg.CFG_ADMIT_STAT.BUSY = false)
    (hn : s.fld Reg.CFG_ADMIT_CTRL.COUNT = 0 ∨ 64 < s.fld Reg.CFG_ADMIT_CTRL.COUNT) : s.runAdmission = s.admitError 6 0 := by
  rw [State.runAdmission]
  exact (if_neg (by simp [h])).trans (if_pos (by omega))

end

/-- What the engine does with a list of `n` bytes at `pa`, by the homes of its first and its last byte. -/
def State.admitIn (s : State) (op part pa n : Nat) (first last : Home) : State :=
  let whole := s.homeUp first && s.homeUp last
  match first, last with
  | .hot _ _, .hot _ _ => if whole then s.admitMem op part (pa % 2 ^ 54) n else s.admitError 4 0
  | .warm _ _, .warm _ _ => if whole then s.admitMem op part (pa % 2 ^ 54) n else s.admitError 4 0
  | .cold _, .cold _ => if whole then s.admitMem op part (pa % 2 ^ 54) n else s.admitError 4 0
  | .sram off, .sram _ => s.admitSram op part off n
  | .remote slot _, .remote _ _ =>
    if s.slotReachable slot then (s.setFlag Reg.CFG_ADMIT_STAT.BUSY true).sendRequest 0 slot pa (.read n) (.admission op part pa)
    else s.admitError 4 0
  | _, _ => s.admitError 4 0

section
variable {s : State}

theorem State.runAdmission_eq_admitIn (h : s.flag Reg.CFG_ADMIT_STAT.BUSY = false)
    (hn : ¬ (s.fld Reg.CFG_ADMIT_CTRL.COUNT = 0 ∨ 64 < s.fld Reg.CFG_ADMIT_CTRL.COUNT)) :
    s.runAdmission = s.admitIn (s.fld Reg.CFG_ADMIT_CTRL.OP) (s.fld Reg.CFG_ADMIT_CTRL.PART) s.listPa
      (16 * s.fld Reg.CFG_ADMIT_CTRL.COUNT) (s.homeOf s.listPa) (s.homeOf (s.listPa + 16 * s.fld Reg.CFG_ADMIT_CTRL.COUNT - 1)) := by
  rw [State.runAdmission, State.listPa]
  generalize s.fld Reg.CFG_ADMIT_CTRL.COUNT = n at hn
  generalize s.fld Reg.CFG_ADMIT_LIST_LO.ADDR * 2 ^ 4 + s.fld Reg.CFG_ADMIT_LIST_HI.ADDR * 2 ^ 32 = pa
  refine (if_neg (by simp [h])).trans ((if_neg (by omega)).trans ?_)
  generalize s.homeOf pa = first
  generalize s.homeOf (pa + 16 * n - 1) = last
  cases first <;> cases last <;> rfl

theorem State.admitIn_here {op part pa n : Nat} (h : s.listHere pa n = true) :
    s.admitIn op part pa n (s.homeOf pa) (s.homeOf (pa + n - 1)) = s.admitMem op part (pa % 2 ^ 54) n := by
  unfold State.listHere at h
  revert h
  cases s.homeOf pa <;> cases s.homeOf (pa + n - 1) <;> simp +contextual [State.admitIn]

theorem State.admitIn_nowhere {op part pa n : Nat} (h : s.listNowhere pa n = true) :
    s.admitIn op part pa n (s.homeOf pa) (s.homeOf (pa + n - 1)) = s.admitError 4 0 := by
  unfold State.listNowhere State.listHere at h
  revert h
  cases s.homeOf pa <;> cases s.homeOf (pa + n - 1) <;> simp +contextual [State.admitIn, or_iff_not_imp_left]

end

/-! ## Errors, and a list in another slot -/

section
variable (s : State) (kind entry : Nat)

theorem State.onlyRegs_admitError : s.onlyRegs (s.admitError kind entry) [Reg.CFG_ADMIT_STAT] :=
  (((State.onlyRegs.refl s _).setFlag _ (by simp)).setFld _ (by simp)).setFld _ (by simp)

theorem State.err_admitError : (s.admitError kind entry).flag Reg.CFG_ADMIT_STAT.ERR = true := by
  rw [State.flag, State.admitError, State.fld_setFld_disjoint _ _ _ _ (by rfl) (by decide) (by decide),
    State.fld_setFld_disjoint _ _ _ _ (by rfl) (by decide) (by decide)]
  exact State.flag_setFlag_same s Reg.CFG_ADMIT_STAT.ERR true (by decide) rfl

theorem State.kind_admitError (hk : kind < 256) : (s.admitError kind entry).fld Reg.CFG_ADMIT_STAT.KIND = kind := by
  rw [State.admitError, State.fld_setFld_disjoint _ _ _ _ (by rfl) (by decide) (by decide), State.fld_setFld_same _ _ _ (by decide)]
  exact Nat.mod_eq_of_lt hk

end

theorem State.listNowhere_congr {s r : State} (h : s.samePlaces r) (pa n : Nat) : r.listNowhere pa n = s.listNowhere pa n := by
  simp only [State.listNowhere, State.listHere, h.homeOf, h.homeUp, h.slotReachable]

theorem State.listHere_congr {s r : State} (h : s.samePlaces r) (pa n : Nat) : r.listHere pa n = s.listHere pa n := by
  simp only [State.listHere, h.homeOf, h.homeUp]

/-- CAPTURE and RELEASE that nothing can serve. -/
theorem exec_admitRow_refused {c : Word → Instr} {op : Nat} {v : Word} {s : State} (hc : (c, op) ∈ admitRows) (hlive : s.live = true)
    (hstart : bitOf v.toNat 31 = true) (hop : bits v.toNat 28 1 = op)
    (h : s.flag Reg.CFG_ADMIT_STAT.BUSY = true ∨ bits v.toNat 0 7 = 0 ∨ 64 < bits v.toNat 0 7 ∨
      s.listNowhere s.listPa (16 * bits v.toNat 0 7) = true) :
    exec (c v) s = .next ((s.admitting v).admitError
      (if s.flag Reg.CFG_ADMIT_STAT.BUSY = true then 5 else if bits v.toNat 0 7 = 0 ∨ 64 < bits v.toNat 0 7 then 6 else 4) 0) := by
  rw [exec_admitRow hc hlive hstart hop]
  refine congrArg Host.Outcome.next ?_
  cases hbusy : s.flag Reg.CFG_ADMIT_STAT.BUSY with
  | true => exact State.runAdmission_busy (by rw [s.busy_admitting, hbusy])
  | false =>
    rw [if_neg Bool.false_ne_true]
    rw [← s.busy_admitting v] at hbusy
    by_cases hn : bits v.toNat 0 7 = 0 ∨ 64 < bits v.toNat 0 7
    · rw [if_pos hn]
      exact State.runAdmission_count hbusy (by rwa [s.count_admitting])
    · rw [if_neg hn, State.runAdmission_eq_admitIn hbusy (by rwa [s.count_admitting])]
      refine State.admitIn_nowhere ?_
      rw [State.listNowhere_congr (s.samePlaces_admitting v), s.listPa_admitting, s.count_admitting]
      simpa [← s.busy_admitting v, hbusy, ← or_assoc, hn] using h

/-- The engine is BUSY with a list in another slot. -/
def State.listBusy (s : State) (v : Word) : State := (s.admitting v).setFlag Reg.CFG_ADMIT_STAT.BUSY true

/-- The state that asks another slot for the list. -/
def State.askingList (s : State) (v : Word) (slot : Nat) : State :=
  (s.listBusy v).ask 16 slot s.listPa (.read (16 * bits v.toNat 0 7)) (.admission (bits v.toNat 28 1) (bits v.toNat 24 4) s.listPa)

theorem State.admitIn_remote {s : State} {slot : Nat} (hslot : s.slotReachable slot = true) (op part pa n off slot' off' : Nat) :
    s.admitIn op part pa n (.remote slot off) (.remote slot' off') =
      (s.setFlag Reg.CFG_ADMIT_STAT.BUSY true).sendRequest 0 slot pa (.read n) (.admission op part pa) := by
  simp only [State.admitIn, hslot, if_true]

theorem exec_admitRow_remote {c : Word → Instr} {op : Nat} {v : Word} {s : State} {slot off slot' off' : Nat} (hc : (c, op) ∈ admitRows)
    (hlive : s.live = true) (hstart : bitOf v.toNat 31 = true) (hop : bits v.toNat 28 1 = op) (hbusy : s.flag Reg.CFG_ADMIT_STAT.BUSY = false)
    (hn : 0 < bits v.toNat 0 7) (hn' : bits v.toNat 0 7 ≤ 64) (hfirst : s.homeOf s.listPa = .remote slot off)
    (hlast : s.homeOf (s.listPa + 16 * bits v.toNat 0 7 - 1) = .remote slot' off') (hslot : s.slotReachable slot = true) :
    exec (c v) s = .next (s.askingList v slot) := by
  rw [exec_admitRow hc hlive hstart hop, State.runAdmission_eq_admitIn (by rw [s.busy_admitting, hbusy]) (by rw [s.count_admitting]; omega)]
  have hplaces := s.samePlaces_admitting v
  rw [s.count_admitting, s.listPa_admitting, s.op_admitting, s.part_admitting, hplaces.homeOf, hplaces.homeOf, hfirst, hlast]
  rw [State.admitIn_remote (by rw [hplaces.slotReachable, hslot]), State.sendRequest, State.askingList, State.listBusy]

theorem State.onlyRegs_listBusy (s : State) (v : Word) : s.onlyRegs (s.listBusy v) [Reg.CFG_ADMIT_CTRL, Reg.CFG_ADMIT_STAT] :=
  ((s.onlyRegs_admitting v).mono (by simp)).setFlag true (by simp)

theorem State.busy_listBusy (s : State) (v : Word) : (s.listBusy v).flag Reg.CFG_ADMIT_STAT.BUSY = true :=
  State.flag_setFlag_same (s.admitting v) Reg.CFG_ADMIT_STAT.BUSY true (by decide) rfl

theorem State.askingList_spec (s : State) (v : Word) (slot : Nat) :
    (s.askingList v slot).flag Reg.CFG_ADMIT_STAT.BUSY = true ∧ (s.askingList v slot).mem = s.mem ∧
      ∃ o : Outstanding, (s.askingList v slot).outstanding = s.outstanding ++ [o] ∧ o.port = 16 ∧ o.slot = slot ∧ o.addr = s.listPa ∧
        o.op = .read (16 * bits v.toNat 0 7) := by
  obtain ⟨hbusy, -⟩ := s.onlyRegs_listBusy v
  have hset := s.busy_listBusy v
  rw [State.askingList]
  generalize s.listBusy v = r at hbusy hset
  obtain ⟨o, hport, hslot, haddr, hop, -, hask, hkeep⟩ := r.ask_remote 0 slot s.listPa (.read (16 * bits v.toNat 0 7))
    (.admission (bits v.toNat 28 1) (bits v.toNat 24 4) s.listPa)
  refine ⟨(hkeep.flag (by decide)).trans hset, ?_, o, ?_, hport, hslot, haddr, hop⟩
  · rw [hask, hbusy]
  · rw [hask, hbusy]

/-! ## Weight sets -/

/-- The registers of the weight sets read the same. -/
def State.sameWs (s r : State) : Prop := ∀ o, 0x78000 ≤ o → o < 0x80000 → r.reg o = s.reg o

section
variable {s r : State} {w k : Nat}

theorem State.sameWs.fld (h : s.sameWs r) {f : Field} (hf : 0x78000 ≤ f.off) (hf' : f.off < 0x80000) : r.fld f = s.fld f :=
  State.fld_congr f (h _ hf hf')

theorem State.sameWs.flag (h : s.sameWs r) {f : Field} (hf : 0x78000 ≤ f.off) (hf' : f.off < 0x80000) : r.flag f = s.flag f := by
  rw [State.flag, State.flag, h.fld hf hf']

theorem State.keepsRegs.sameWs {l : List Nat} (h : s.keepsRegs r l) (hl : ∀ o ∈ l, o < 0x78000 ∨ 0x80000 ≤ o) : s.sameWs r :=
  fun o ho ho' => h o fun hm => by have := hl o hm; omega

theorem State.sameWs.wsCur (h : s.sameWs r) (hw : w < 512) : r.wsCur w = s.wsCur w :=
  h.fld (show 0x78000 ≤ 0x78000 + w * 0x40 by omega) (show 0x78000 + w * 0x40 < 0x80000 by omega)

theorem State.sameWs.wsOf (h : s.sameWs r) (hw : w < 512) (p : Nat) : r.wsOf w p = s.wsOf w p := by
  have hlo : 0x78000 ≤ 0x78000 + w * 0x40 := by omega
  have hhi : 0x78000 + w * 0x40 < 0x80000 := by omega
  rw [State.wsOf, State.wsOf, h.flag hlo hhi, h.fld hlo hhi]

theorem State.sameWs.wsCapt (h : s.sameWs r) (hw : w < 512) (hk : k < 2) : r.wsCapt w k = s.wsCapt w k := by
  rw [State.wsCapt, State.wsCapt, h _ (show 0x78000 ≤ 0x7800C + w * 0x40 + k * 0x4 by omega) (show 0x7800C + w * 0x40 + k * 0x4 < 0x80000 by omega)]

theorem State.sameWs.wsGen (h : s.sameWs r) (hw : w < 512) (hk : k < 2) : r.wsGen w k = s.wsGen w k := by
  rw [State.wsGen, State.wsGen, h _ (show 0x78000 ≤ 0x78004 + w * 0x40 + k * 0x4 by omega) (show 0x78004 + w * 0x40 + k * 0x4 < 0x80000 by omega)]

theorem State.sameWs.wsBase (h : s.sameWs r) (hw : w < 512) (hk : k < 2) : r.wsBase w k = s.wsBase w k := by
  rw [State.wsBase, State.wsBase,
    h.fld (show 0x78000 ≤ 0x78014 + w * 0x40 + k * 0x8 by omega) (show 0x78014 + w * 0x40 + k * 0x8 < 0x80000 by omega),
    h.fld (show 0x78000 ≤ 0x78018 + w * 0x40 + k * 0x8 by omega) (show 0x78018 + w * 0x40 + k * 0x8 < 0x80000 by omega)]

theorem State.wsCur_lt (s : State) (w : Nat) : s.wsCur w < 2 := bits_lt _ _ _

theorem State.wsGen_lt (s : State) (w k : Nat) : s.wsGen w k < 2 ^ 32 := BitVec.isLt _

theorem State.wsBase_lt (s : State) (w k : Nat) : s.wsBase w k < 2 ^ 64 := by
  have hlo : s.fld (Reg.CFG_WS_BASE_LO.BASE w k) < 2 ^ 16 := bits_lt _ _ _
  have hhi : s.fld (Reg.CFG_WS_BASE_HI.BASE w k) < 2 ^ 16 := bits_lt _ _ _
  rw [State.wsBase]
  omega

theorem State.lt_of_wsOf {p : Nat} (h : s.wsOf w p = true) : w < 512 := by
  simp only [State.wsOf, Bool.and_eq_true, decide_eq_true_eq] at h
  exact h.1.1

end

/-! ## One entry -/

/-- The entry that CAPTURE writes back: SLOT, GEN and BASE of the current slot (Table 12-7). -/
def State.capturedEntry (s : State) (w : Nat) (e : List Byte) : List Byte :=
  e.take 2 ++ natLE 1 (s.wsCur w) ++ (e.drop 3).take 1 ++ natLE 4 (s.wsGen w (s.wsCur w)) ++ natLE 8 (s.wsBase w (s.wsCur w))

/-- One capture more of the current slot. -/
def State.capturing (s : State) (w : Nat) : State :=
  s.setReg (Reg.CFG_WS_CAPT w (s.wsCur w)) (BitVec.ofNat 32 (s.wsCapt w (s.wsCur w) + 1))

/-- One capture less of a slot. -/
def State.uncapturing (s : State) (w k : Nat) : State := s.setReg (Reg.CFG_WS_CAPT w k) (BitVec.ofNat 32 (s.wsCapt w k - 1))

/-- The slot is FREED where that was its last capture and it is not current (R300). -/
def State.releasing (s : State) (w k : Nat) : State :=
  if (s.uncapturing w k).wsCapt w k = 0 ∧ k ≠ (s.uncapturing w k).wsCur w then (s.uncapturing w k).setFreed w k else s.uncapturing w k

section
variable {s : State} {part w k : Nat} {e : List Byte}

theorem State.captureEntry_ok (he : leNat (e.take 2) = w) (hw : s.wsOf w part = true) (hc : s.wsCapt w (s.wsCur w) < 2 ^ 32 - 1) :
    s.captureEntry part e = .ok (s.capturing w, s.capturedEntry w e) := by
  subst he
  unfold State.captureEntry
  dsimp only
  rw [if_neg (by simp [hw]), if_neg hc.ne, State.capturing, State.capturedEntry]

theorem State.releaseEntry_ok (he : leNat (e.take 2) = w) (hk : leNat ((e.drop 2).take 1) = k) (hk2 : k < 2) (hw : s.wsOf w part = true)
    (hc : 0 < s.wsCapt w k) (hg : s.wsGen w k = leNat ((e.drop 4).take 4)) : s.releaseEntry part e = .ok (s.releasing w k, e) := by
  subst he
  unfold State.releaseEntry
  dsimp only
  rw [hk, Nat.mod_eq_of_lt hk2, if_neg (by simp [hw]), if_neg (by omega), State.releasing, State.uncapturing]

theorem State.admitEntries_single (one : State → List Byte → Except Nat (State × List Byte)) {r : State × List Byte}
    (he : e.length = 16) (h : one s e = .ok r) : s.admitEntries one 1 e 0 = .ok (r.1, r.2) := by
  obtain ⟨u, d⟩ := r
  simp only [State.admitEntries, List.take_of_length_le he.le, h, List.append_nil]

theorem State.admitList_capture {back : State → List Byte → State} (he : e.length = 16) (hw' : leNat (e.take 2) = w) (hw : s.wsOf w part = true)
    (hc : s.wsCapt w (s.wsCur w) < 2 ^ 32 - 1) : s.admitList 0 part e back =
      back (if (s.capturing w).hasJob part then (s.capturing w).writeSelection part ((s.capturing w).part part).nextStep else s.capturing w)
        (s.capturedEntry w e) := by
  have hone : (if 0 = 0 then s.captureEntry part e else s.releaseEntry part e) = .ok (s.capturing w, s.capturedEntry w e) :=
    s.captureEntry_ok hw' hw hc
  have hall := State.admitEntries_single (fun s e => if 0 = 0 then s.captureEntry part e else s.releaseEntry part e) he hone
  rw [State.admitList, State.captureOrRelease, he, hall]
  simp

theorem State.admitList_release {back : State → List Byte → State} (he : e.length = 16) (hw' : leNat (e.take 2) = w)
    (hk : leNat ((e.drop 2).take 1) = k) (hk2 : k < 2) (hw : s.wsOf w part = true)
    (hc : 0 < s.wsCapt w k) (hg : s.wsGen w k = leNat ((e.drop 4).take 4)) : s.admitList 1 part e back = s.releasing w k := by
  have hone : (if 1 = 0 then s.captureEntry part e else s.releaseEntry part e) = .ok (s.releasing w k, e) :=
    s.releaseEntry_ok hw' hk hk2 hw hc hg
  have hall := State.admitEntries_single (fun s e => if 1 = 0 then s.captureEntry part e else s.releaseEntry part e) he hone
  rw [State.admitList, State.captureOrRelease, he, hall]
  simp

end

/-! ## The list's memory -/

theorem State.runAdmission_here {s : State} (hbusy : s.flag Reg.CFG_ADMIT_STAT.BUSY = false) (hn : s.fld Reg.CFG_ADMIT_CTRL.COUNT = 1)
    (hhere : s.listHere s.listPa 16 = true) :
    s.runAdmission = s.admitMem (s.fld Reg.CFG_ADMIT_CTRL.OP) (s.fld Reg.CFG_ADMIT_CTRL.PART) (s.listPa % 2 ^ 54) 16 := by
  rw [State.runAdmission_eq_admitIn hbusy (by omega), hn, Nat.mul_one, State.admitIn_here hhere]

/-- CAPTURE and RELEASE of a list of one entry in a tier that is up. -/
theorem exec_admitRow_here {c : Word → Instr} {op : Nat} {v : Word} {s : State} (hc : (c, op) ∈ admitRows) (hlive : s.live = true)
    (hbusy : s.flag Reg.CFG_ADMIT_STAT.BUSY = false) (hstart : bitOf v.toNat 31 = true) (hop : bits v.toNat 28 1 = op)
    (hn : bits v.toNat 0 7 = 1) (hhere : s.listHere s.listPa 16 = true) :
    exec (c v) s = .next ((s.admitting v).admitMem op (bits v.toNat 24 4) (s.listPa % 2 ^ 54) 16) := by
  have hplaces := s.samePlaces_admitting v
  rw [exec_admitRow hc hlive hstart hop, State.runAdmission_here (by rw [s.busy_admitting, hbusy]) (by rw [s.count_admitting, hn])
    (by rw [State.listHere_congr hplaces, s.listPa_admitting, hhere]), s.op_admitting, s.part_admitting, s.listPa_admitting, hop]

/-- Only registers, memory and the Hearth cache differ. -/
def State.onlyData (s r : State) : Prop := r = { s with regs := r.regs, mem := r.mem, hearth := r.hearth }

section
variable {s r u : State}

theorem State.onlyData.trans (h : s.onlyData r) (h' : r.onlyData u) : s.onlyData u := by
  rw [State.onlyData] at *
  rw [h', h]

theorem State.onlyRegs.onlyData {l : List Nat} (h : s.onlyRegs r l) : s.onlyData r := by
  obtain ⟨hr, -⟩ := h
  rw [State.onlyData, hr]

theorem State.onlyHearth.onlyData (h : s.onlyHearth r) : s.onlyData r := by
  obtain ⟨hr, -⟩ := h
  rw [State.onlyData, hr]

theorem State.onlyData_write (s : State) (a : Nat) (d : List Byte) : s.onlyData (s.write a d) := by
  have h := s.write_onlyMem a d
  generalize s.write a d = r at h
  rw [State.onlyData, h]

theorem State.onlyRegs.mem {l : List Nat} (h : s.onlyRegs r l) : r.mem = s.mem := by
  obtain ⟨hr, -⟩ := h
  rw [hr]

/-- Where memory is untouched too. -/
theorem State.onlyData.of_mem (h : s.onlyData r) (hm : r.mem = s.mem) : r = { s with regs := r.regs, hearth := r.hearth } := by
  rw [State.onlyData, hm] at h
  exact h

end

/-- The state in which the engine has read a list of one entry. -/
def State.listRead (s : State) (v : Word) : State := (s.admitting v).pass (s.listPa % 2 ^ 54) 16 false

section
variable (s : State) (v : Word)

theorem State.onlyData_listRead : s.onlyData (s.listRead v) :=
  (s.onlyRegs_admitting v).onlyData.trans ((s.admitting v).onlyHearth_pass _ _ _).onlyData

theorem State.mem_listRead : (s.listRead v).mem = s.mem := by
  rw [State.listRead, ((s.admitting v).onlyHearth_pass _ _ _).mem, State.admitting, State.setReg_mem]

theorem State.keepsRegs_listRead : s.keepsRegs (s.listRead v) (Reg.CFG_ADMIT_CTRL :: hearthRegs) :=
  (s.onlyRegs_admitting v).2.trans ((s.admitting v).onlyHearth_pass _ _ _).2 (by simp) (by simp)

theorem State.sameWs_listRead : s.sameWs (s.listRead v) := (s.keepsRegs_listRead v).sameWs (by decide)

end

theorem State.keepsRegs_writeSelection (s : State) (p n : Nat) : s.keepsRegs (s.writeSelection p n) hearthRegs := by
  unfold State.writeSelection
  dsimp only
  split
  · exact (s.onlyHearth_pass _ _ _).2.trans (State.keepsRegs_of_regs (State.regs_write _ _ _) []) (by simp) (by simp)
  · exact fun _ _ => rfl

theorem State.hasJob_congr {s r : State} {p : Nat} (h : r.reg (Reg.PRT_P_STAT p) = s.reg (Reg.PRT_P_STAT p)) : r.hasJob p = s.hasJob p := by
  have hfld (lo w : Nat) : r.fld ⟨Reg.PRT_P_STAT p, lo, w⟩ = s.fld ⟨Reg.PRT_P_STAT p, lo, w⟩ := State.fld_congr _ h
  rw [State.hasJob, State.hasJob, State.partState, State.partState, State.flag, State.flag, hfld, hfld, hfld]

/-! ## CAPTURE -/

/-- The witness selection is written beside a capture where a job is attached (R403). -/
def State.selecting (s : State) (part : Nat) : State :=
  if s.hasJob part then s.writeSelection part (s.part part).nextStep else s

theorem State.keepsRegs_selecting (s : State) (part : Nat) : s.keepsRegs (s.selecting part) hearthRegs := by
  unfold State.selecting
  split
  · exact s.keepsRegs_writeSelection _ _
  · exact fun _ _ => rfl

/-- The state after CAPTURE of one entry, which names set `w`. -/
def State.captured (s : State) (v : Word) (w : Nat) : State :=
  ((((s.listRead v).capturing w).selecting (bits v.toNat 24 4)).pass (s.listPa % 2 ^ 54) 16 true).write (s.listPa % 2 ^ 54)
    ((s.listRead v).capturedEntry w (s.bytes (s.listPa % 2 ^ 54) 16))

section
variable {s : State} {v : Word} {w : Nat}

theorem State.bytes_admitting (s : State) (v : Word) (a n : Nat) : (s.admitting v).bytes a n = s.bytes a n :=
  State.bytes_congr (by rw [(s.onlyRegs_admitting v).1]) a n

theorem exec_capture (hlive : s.live = true) (hbusy : s.flag Reg.CFG_ADMIT_STAT.BUSY = false) (hstart : bitOf v.toNat 31 = true)
    (hop : bits v.toNat 28 1 = 0) (hn : bits v.toNat 0 7 = 1) (hhere : s.listHere s.listPa 16 = true)
    (hw' : s.num (s.listPa % 2 ^ 54) 2 = w) (hw : s.wsOf w (bits v.toNat 24 4) = true)
    (hc : s.wsCapt w (s.wsCur w) < 2 ^ 32 - 1) : exec (.capture .firmware v) s = .next (s.captured v w) := by
  have hws := s.sameWs_listRead v
  have hlt := State.lt_of_wsOf hw
  rw [exec_admitRow_here (c := Instr.capture .firmware) (by simp [admitRows]) hlive hbusy hstart hop hn hhere, State.admitMem,
    s.bytes_admitting, ← State.listRead, State.admitList_capture (w := w) (State.length_bytes _ _ _) ?_ ?_ ?_]
  · rw [State.captured, State.selecting]
  · rw [State.take_bytes _ _ (by decide), ← hw', State.num]
  · rw [hws.wsOf hlt, hw]
  · rwa [hws.wsCur hlt, hws.wsCapt hlt (s.wsCur_lt w)]

theorem State.wsCapt_captured (hw : w < 512) (hc : s.wsCapt w (s.wsCur w) < 2 ^ 32 - 1) :
    (s.captured v w).wsCapt w (s.wsCur w) = s.wsCapt w (s.wsCur w) + 1 := by
  have hws := s.sameWs_listRead v
  have hkeep : ((s.listRead v).capturing w).keepsRegs (s.captured v w) hearthRegs := by
    have hselect := ((s.listRead v).capturing w).keepsRegs_selecting (bits v.toNat 24 4)
    have hpass := hselect.trans (State.onlyHearth_pass _ (s.listPa % 2 ^ 54) 16 true).2 (List.Subset.refl _) (List.Subset.refl _)
    exact hpass.trans (State.keepsRegs_of_regs (State.regs_write _ _ _) []) (List.Subset.refl _) (by simp)
  rw [(hkeep.sameWs (by decide)).wsCapt hw (s.wsCur_lt w), State.wsCapt, State.capturing, hws.wsCur hw, State.reg_setReg_same,
    hws.wsCapt hw (s.wsCur_lt w), BitVec.toNat_ofNat]
  exact Nat.mod_eq_of_lt (by omega)

theorem State.selecting_of_no_job {part : Nat} (h : s.hasJob part = false) : s.selecting part = s := if_neg (by simp [h])

theorem State.length_capturedEntry (s : State) (w : Nat) {e : List Byte} (he : e.length = 16) : (s.capturedEntry w e).length = 16 := by
  simp [State.capturedEntry, he]

/-- The state after CAPTURE of one entry where no job is attached, but for the entry. -/
def State.counted (s : State) (v : Word) (w : Nat) : State := ((s.listRead v).capturing w).pass (s.listPa % 2 ^ 54) 16 true

theorem State.onlyRegs_capturing (s : State) (w : Nat) : s.onlyRegs (s.capturing w) [Reg.CFG_WS_CAPT w (s.wsCur w)] :=
  (State.onlyRegs.refl s _).setReg _ (by simp)

theorem State.onlyData_counted : s.onlyData (s.counted v w) :=
  ((s.onlyData_listRead v).trans ((s.listRead v).onlyRegs_capturing w).onlyData).trans (State.onlyHearth_pass _ _ _ _).onlyData

theorem State.mem_counted : (s.counted v w).mem = s.mem := by
  rw [State.counted, (State.onlyHearth_pass _ _ _ _).mem, State.capturing, State.setReg_mem, s.mem_listRead]

theorem State.keepsRegs_counted (hw : w < 512) :
    s.keepsRegs (s.counted v w) ([Reg.CFG_ADMIT_CTRL, Reg.CFG_WS_CAPT w (s.wsCur w)] ++ hearthRegs) := by
  obtain ⟨-, hcount⟩ := (s.listRead v).onlyRegs_capturing w
  rw [(s.sameWs_listRead v).wsCur hw] at hcount
  refine State.keepsRegs.trans ((s.keepsRegs_listRead v).trans hcount ?_ ?_) (State.onlyHearth_pass _ _ _ _).2 (List.Subset.refl _) (by simp)
  · exact List.cons_subset_cons _ (List.subset_cons_self _ _)
  · simp

theorem State.captured_of_no_job (hjob : s.hasJob (bits v.toNat 24 4) = false) (hw : w < 512) :
    s.captured v w = (s.counted v w).write (s.listPa % 2 ^ 54) ((s.listRead v).capturedEntry w (s.bytes (s.listPa % 2 ^ 54) 16)) := by
  have hpart : bits v.toNat 24 4 < 2 ^ 4 := bits_lt _ _ _
  have hjob' : ((s.listRead v).capturing w).hasJob (bits v.toNat 24 4) = false := by
    rw [State.hasJob_congr, hjob]
    rw [State.capturing, State.reg_setReg_ne _ _ (show 0x50104 + _ * 0x80 ≠ 0x7800C + w * 0x40 + _ * 0x4 by omega)]
    refine s.keepsRegs_listRead v _ fun hm => ?_
    have hhi : ∀ o ∈ Reg.CFG_ADMIT_CTRL :: hearthRegs, 0x70000 ≤ o := by decide
    have := hhi _ hm
    have : 0x50104 + bits v.toNat 24 4 * 0x80 < 0x70000 := by omega
    omega
  rw [State.captured, State.selecting_of_no_job hjob', State.counted]

end

/-- The numbers of an entry written back. -/
theorem State.num_capturedEntry (s r : State) (w a : Nat) {e : List Byte} (he : e.length = 16) :
    (r.write a (s.capturedEntry w e)).num (a + 2) 1 = s.wsCur w ∧ (r.write a (s.capturedEntry w e)).num (a + 4) 4 = s.wsGen w (s.wsCur w) ∧
      (r.write a (s.capturedEntry w e)).num (a + 8) 8 = s.wsBase w (s.wsCur w) := by
  have hcur := s.wsCur_lt w
  have hgen := s.wsGen_lt w (s.wsCur w)
  have hbase := s.wsBase_lt w (s.wsCur w)
  have hread (x y : List Byte) (i n m : Nat) (hx : x.length = i) (hd : s.capturedEntry w e = x ++ (natLE n m ++ y)) (hm : m < 256 ^ n) :
      (r.write a (s.capturedEntry w e)).num (a + i) n = m := by
    subst hx
    rw [hd, State.num_write_part, Nat.mod_eq_of_lt hm]
  refine ⟨?_, ?_, ?_⟩
  · exact hread (e.take 2) _ 2 1 _ (by simp [he]) (by simp [State.capturedEntry]; rfl) (by omega)
  · exact hread (e.take 2 ++ natLE 1 (s.wsCur w) ++ (e.drop 3).take 1) _ 4 4 _ (by simp [he]) (by simp [State.capturedEntry]; rfl) (by omega)
  · exact hread (e.take 2 ++ natLE 1 (s.wsCur w) ++ (e.drop 3).take 1 ++ natLE 4 (s.wsGen w (s.wsCur w))) [] 8 8 _ (by simp [he])
      (by simp [State.capturedEntry]) (by omega)

/-! ## RELEASE -/

section
variable {s : State} {v : Word} {w k : Nat}

theorem exec_release (hlive : s.live = true) (hbusy : s.flag Reg.CFG_ADMIT_STAT.BUSY = false) (hstart : bitOf v.toNat 31 = true)
    (hop : bits v.toNat 28 1 = 1) (hn : bits v.toNat 0 7 = 1) (hhere : s.listHere s.listPa 16 = true)
    (hw' : s.num (s.listPa % 2 ^ 54) 2 = w) (hk' : s.num (s.listPa % 2 ^ 54 + 2) 1 = k) (hw : s.wsOf w (bits v.toNat 24 4) = true) (hk : k < 2)
    (hc : 0 < s.wsCapt w k) (hg : s.wsGen w k = s.num (s.listPa % 2 ^ 54 + 4) 4) :
    exec (.release .firmware v) s = .next ((s.listRead v).releasing w k) := by
  have hws := s.sameWs_listRead v
  have hlt := State.lt_of_wsOf hw
  rw [exec_admitRow_here (c := Instr.release .firmware) (by simp [admitRows]) hlive hbusy hstart hop hn hhere, State.admitMem,
    s.bytes_admitting, ← State.listRead, State.admitList_release (w := w) (k := k) (State.length_bytes _ _ _) ?_ ?_ hk ?_ ?_ ?_]
  · rw [State.take_bytes _ _ (by decide), ← hw', State.num]
  · rw [State.drop_take_bytes _ _ (by decide), ← hk', State.num]
  · rw [hws.wsOf hlt, hw]
  · rwa [hws.wsCapt hlt hk]
  · rw [hws.wsGen hlt hk, State.drop_take_bytes _ _ (by decide), hg, State.num]

theorem State.onlyRegs_uncapturing (s : State) (w k : Nat) : s.onlyRegs (s.uncapturing w k) [Reg.CFG_WS_CAPT w k, Reg.CFG_WS_W0 w] :=
  (State.onlyRegs.refl s _).setReg _ (by simp)

theorem State.onlyRegs_releasing (s : State) (w k : Nat) : s.onlyRegs (s.releasing w k) [Reg.CFG_WS_CAPT w k, Reg.CFG_WS_W0 w] := by
  unfold State.releasing
  split
  · refine (s.onlyRegs_uncapturing w k).setFlag true ?_
    split <;> simp
  · exact s.onlyRegs_uncapturing w k

theorem State.wsCapt_uncapturing (s : State) (w k : Nat) : (s.uncapturing w k).wsCapt w k = s.wsCapt w k - 1 := by
  have hlt : s.wsCapt w k < 2 ^ 32 := BitVec.isLt _
  rw [State.wsCapt, State.uncapturing, State.reg_setReg_same, BitVec.toNat_ofNat, Nat.mod_eq_of_lt (by omega)]

theorem State.wsCur_uncapturing (s : State) (w k : Nat) : (s.uncapturing w k).wsCur w = s.wsCur w :=
  State.fld_congr _ (State.reg_setReg_ne _ _ (show 0x78000 + w * 0x40 ≠ 0x7800C + w * 0x40 + k * 0x4 by omega))

theorem State.wsCapt_releasing (s : State) (w k : Nat) : (s.releasing w k).wsCapt w k = s.wsCapt w k - 1 := by
  have hset : ((s.uncapturing w k).setFreed w k).wsCapt w k = (s.uncapturing w k).wsCapt w k := by
    have hne : 0x7800C + w * 0x40 + k * 0x4 ≠ 0x78000 + w * 0x40 := by omega
    rw [State.wsCapt, State.setFreed]
    split
    · rw [State.setFlag, State.setFld, State.reg_setReg_ne _ _ hne, State.wsCapt]
    · rw [State.setFlag, State.setFld, State.reg_setReg_ne _ _ hne, State.wsCapt]
  unfold State.releasing
  split
  · rw [hset, s.wsCapt_uncapturing]
  · rw [s.wsCapt_uncapturing]

theorem State.freed_releasing (h : s.wsCapt w k = 1) (hk : k ≠ s.wsCur w) :
    (s.releasing w k).flag (if k = 0 then Reg.CFG_WS_W0.FREED0 w else Reg.CFG_WS_W0.FREED1 w) = true := by
  rw [State.releasing, if_pos ⟨by rw [s.wsCapt_uncapturing, h], by rwa [s.wsCur_uncapturing]⟩, State.setFreed]
  split
  · exact State.flag_setFlag_same _ (Reg.CFG_WS_W0.FREED0 w) true (by simp) rfl
  · exact State.flag_setFlag_same _ (Reg.CFG_WS_W0.FREED1 w) true (by simp) rfl

end

/-! ## The obligation -/

section
variable {s : State} {v : Word} {pa w k : Nat}

/-- CAPTURE of one entry, which names set `w`. -/
theorem capture_spec (hpa : s.listPa = pa) (hlive : s.live = true) (hbusy : s.flag Reg.CFG_ADMIT_STAT.BUSY = false) (hstart : bitOf v.toNat 31 = true)
    (hop : bitOf v.toNat 28 = false) (hn : bits v.toNat 0 7 = 1) (hhere : s.listHere pa 16 = true)
    (hw' : s.num (pa % 2 ^ 54) 2 = w) (hw : s.wsOf w (bits v.toNat 24 4) = true) (hc : s.wsCapt w (s.wsCur w) < 2 ^ 32 - 1) :
    ∃ r, exec (.capture .firmware v) s = .next r ∧ r.wsCapt w (s.wsCur w) = s.wsCapt w (s.wsCur w) + 1 ∧
      (s.hasJob (bits v.toNat 24 4) = false → r.num (pa % 2 ^ 54 + 2) 1 = s.wsCur w ∧
        r.num (pa % 2 ^ 54 + 4) 4 = s.wsGen w (s.wsCur w) ∧ r.num (pa % 2 ^ 54 + 8) 8 = s.wsBase w (s.wsCur w) ∧
        s.keepsMem r (pa % 2 ^ 54) 16 ∧ s.keepsRegs r ([Reg.CFG_ADMIT_CTRL, Reg.CFG_WS_CAPT w (s.wsCur w)] ++ hearthRegs) ∧
        r = { s with regs := r.regs, mem := r.mem, hearth := r.hearth }) := by
  subst hpa
  have hop0 : bits v.toNat 28 1 = 0 := by
    rw [bitOf_eq_decide, decide_eq_false_iff_not] at hop
    have := bits_lt v.toNat 28 1
    omega
  have hlt := State.lt_of_wsOf hw
  refine ⟨_, exec_capture hlive hbusy hstart hop0 hn hhere hw' hw hc, State.wsCapt_captured hlt hc, fun hjob => ?_⟩
  have hlen := s.length_bytes (s.listPa % 2 ^ 54) 16
  have hws := s.sameWs_listRead v
  have hnum := (s.listRead v).num_capturedEntry (s.counted v w) w (s.listPa % 2 ^ 54) hlen
  rw [hws.wsCur hlt, hws.wsGen hlt (s.wsCur_lt w), hws.wsBase hlt (s.wsCur_lt w)] at hnum
  obtain ⟨hk, hgen, hbase⟩ := hnum
  rw [State.captured_of_no_job hjob hlt]
  refine ⟨hk, hgen, hbase, fun x hx => ?_, ?_, State.onlyData_counted.trans (State.onlyData_write _ _ _)⟩
  · rw [State.keepsMem_write _ _ _ x (by rwa [State.length_capturedEntry _ _ hlen]), State.byte_congr State.mem_counted]
  · exact (State.keepsRegs_counted hlt).trans (State.keepsRegs_of_regs (State.regs_write _ _ _) []) (List.Subset.refl _) (by simp)

/-- RELEASE of one entry, which names slot `k` of set `w`. -/
theorem release_spec (hpa : s.listPa = pa) (hlive : s.live = true) (hbusy : s.flag Reg.CFG_ADMIT_STAT.BUSY = false) (hstart : bitOf v.toNat 31 = true)
    (hop : bitOf v.toNat 28 = true) (hn : bits v.toNat 0 7 = 1) (hhere : s.listHere pa 16 = true)
    (hw' : s.num (pa % 2 ^ 54) 2 = w) (hk' : s.num (pa % 2 ^ 54 + 2) 1 = k) (hw : s.wsOf w (bits v.toNat 24 4) = true) (hk : k < 2)
    (hc : 0 < s.wsCapt w k) (hg : s.wsGen w k = s.num (pa % 2 ^ 54 + 4) 4) :
    ∃ r, exec (.release .firmware v) s = .next r ∧ r.wsCapt w k = s.wsCapt w k - 1 ∧
      (s.wsCapt w k = 1 → k ≠ s.wsCur w → r.flag (if k = 0 then Reg.CFG_WS_W0.FREED0 w else Reg.CFG_WS_W0.FREED1 w) = true) ∧
      s.keepsRegs r ([Reg.CFG_ADMIT_CTRL, Reg.CFG_WS_CAPT w k, Reg.CFG_WS_W0 w] ++ hearthRegs) ∧
      r = { s with regs := r.regs, hearth := r.hearth } := by
  subst hpa
  rw [bitOf_eq_decide, decide_eq_true_iff] at hop
  have hlt := State.lt_of_wsOf hw
  have hws := s.sameWs_listRead v
  have hrel := (s.listRead v).onlyRegs_releasing w k
  refine ⟨_, exec_release hlive hbusy hstart hop hn hhere hw' hk' hw hk hc hg, ?_, fun h1 hcur => ?_, ?_, ?_⟩
  · rw [State.wsCapt_releasing, hws.wsCapt hlt hk]
  · exact State.freed_releasing (by rwa [hws.wsCapt hlt hk]) (by rwa [hws.wsCur hlt])
  · exact (s.keepsRegs_listRead v).trans hrel.2 (List.cons_subset_cons _ (by simp)) (by simp)
  · exact ((s.onlyData_listRead v).trans hrel.onlyData).of_mem (hrel.mem.trans (s.mem_listRead v))

end

/-- Settles O37: what CAPTURE and RELEASE of one entry write, and what an operation that cannot be done leaves alone. -/
theorem capturesCountTheirSlots : Obligations.CapturesCountTheirSlots := by
  unfold Obligations.CapturesCountTheirSlots
  refine ⟨?_, ?_, ?_⟩
  · intro v s hlive hbusy hstart hop hn part pa w k hhere hw hc
    exact capture_spec rfl hlive hbusy hstart hop hn hhere rfl hw hc
  · intro v s hlive hbusy hstart hop hn part pa a w k hhere hw hk hc hg
    exact release_spec rfl hlive hbusy hstart hop hn hhere rfl rfl hw hk hc hg
  · intro c op v s hc hlive hstart hop
    refine ⟨fun h => ?_, fun slot off slot' off' hbusy hn hn' hfirst hlast hslot => ?_⟩
    · refine ⟨_, exec_admitRow_refused hc hlive hstart hop h, State.err_admitError _ _ _, State.kind_admitError _ _ _ ?_, ?_⟩
      · split <;> [skip; split] <;> decide
      · exact ((s.onlyRegs_admitting v).mono (by simp)).trans ((State.onlyRegs_admitError _ _ _).mono (by simp))
    · obtain ⟨hset, hmem, o, hout, hport, hoslot, haddr, hread⟩ := s.askingList_spec v slot
      exact ⟨_, o, exec_admitRow_remote hc hlive hstart hop hbusy hn hn' hfirst hlast hslot, hset, hout, hport, hoslot, haddr, hread, hmem⟩

end Sys2Proof.Machine
end

section
/-! PROOFS. The statement of 13_mesh.md on LOADSTORE_REQUEST (R196, R318). -/
namespace Sys2Proof.Machine

/-! ## Atomics -/

theorem atomicNew_lt (op : AccessOp) {old : Nat} (h : old < 2 ^ 64) : atomicNew op old < 2 ^ 64 := by
  cases op with
  | read n => exact h
  | write d => exact h
  | atomicAdd v => exact Nat.mod_lt _ (Nat.two_pow_pos 64)
  | atomicAnd v => exact Nat.and_lt_two_pow _ v.isLt
  | atomicOr v => exact Nat.or_lt_two_pow h v.isLt
  | atomicSwap v => exact v.isLt
  | atomicCas c v =>
    unfold atomicNew
    dsimp only
    split
    · exact v.isLt
    · exact h

/-- An access that is neither a read nor a write. -/
def isAtomic (op : AccessOp) : Prop := (∀ k, op ≠ .read k) ∧ ∀ d, op ≠ .write d

section
variable {s : State} {op : AccessOp} {off : Nat}

theorem State.memOp_atomic (h : isAtomic op) : s.memOp off op = (s.bytes off 8, s.writeNum off 8 (atomicNew op (s.num off 8))) := by
  obtain ⟨hr, hw⟩ := h
  cases op with
  | read k => exact absurd rfl (hr k)
  | write d => exact absurd rfl (hw d)
  | atomicAdd v | atomicAnd v | atomicOr v | atomicSwap v | atomicCas c v => rfl

theorem State.num_writeNum (s : State) (a n v : Nat) : (s.writeNum a n v).num a n = v % 256 ^ n := by
  simpa [State.writeNum] using s.num_write_part a [] n v []

theorem State.keepsMem_writeNum (s : State) (a n v : Nat) : s.keepsMem (s.writeNum a n v) a n := by
  have h := State.keepsMem_write (s := s) (a := a) (d := natLE n v)
  rwa [natLE_length] at h

end

/-! ## The home's answer -/

/-- The state in which a request's place in the hot tier has been accessed. -/
def State.hotServed (s : State) (b off : Nat) (op : AccessOp) : State := s.hearthLines b off (opLen op) (opWrites op) false

section
variable {s : State} {pa b off : Nat} {op : AccessOp}

theorem State.serve_hot (hhome : s.homeOf (s.ownSlot * 2 ^ 54 + pa % 2 ^ 54) = .hot b off) (hoff : off % 8 = 0) :
    s.serve pa op = if s.tierUp (unitHot b) then
      (0, ((s.hotServed b off op).memOp (b * stackSize + off) op).1, ((s.hotServed b off op).memOp (b * stackSize + off) op).2)
      else (0x20, [], s) := by
  have hup : s.homeUp (.hot b off) = s.tierUp (unitHot b) := rfl
  have hacc : s.homeAccess (.hot b off) op false = (s.hotServed b off op).memOp (b * stackSize + off) op := rfl
  -- The definition is unfolded as a constant: applied to its arguments, the kernel would evaluate the home of a symbolic address.
  have hdef : @State.serve = @State.serve := rfl
  conv at hdef => rhs; delta State.serve
  rw [hdef]
  beta_reduce
  rw [hhome, ← hup, ← hacc]
  exact if_neg fun h => h.2 hoff

end

/-! ## The row -/

theorem State.l2p_congr {s r : State} (h : ∀ i < 64, r.reg (Reg.MSH_L2P i) = s.reg (Reg.MSH_L2P i)) (i : Nat) : r.l2p i = s.l2p i :=
  State.fld_congr _ (h _ (Nat.mod_lt _ (by decide)))

/-- The answer to a request (R318). -/
def State.answerRequest (s : State) (p : Packet) (dst code : Nat) (d : List Byte) : State :=
  s.sendPacket dst p.vc 2 0 p.tag p.info (natLE 2 code ++ natLE 2 d.length ++ natLE 12 0 ++ d)

section
variable {n : Fin 5} {s : State} {p : Packet}

theorem State.regs_takePacket (s : State) (n : Nat) (p : Packet) : (s.takePacket n p).regs = s.regs := by
  obtain ⟨h, -⟩ := s.takePacket_spec n p
  generalize s.takePacket n p = r at h
  rw [h]

theorem State.mem_takePacket (s : State) (n : Nat) (p : Packet) : (s.takePacket n p).mem = s.mem := by
  obtain ⟨h, -⟩ := s.takePacket_spec n p
  generalize s.takePacket n p = r at h
  rw [h]

theorem exec_loadstoreRequest (n : Fin 5) (s : State) : exec (.loadstoreRequest n) s = .next (loadstoreRequest n s) := rfl

theorem loadstoreRequest_filling (hp : s.firstPacket n (fun p => p.kind == 1 && (p.vc == 0 || p.vc == 4)) = some p)
    (hf : s.fillingIn (p.info % 2 ^ 54) (opLen (bodyOp p.body)) = true) : loadstoreRequest n s = s := by
  unfold loadstoreRequest
  rw [hp]
  exact if_pos hf

theorem loadstoreRequest_serves {r : Nat × List Byte × State} (hp : s.firstPacket n (fun p => p.kind == 1 && (p.vc == 0 || p.vc == 4)) = some p)
    (hf : s.fillingIn (p.info % 2 ^ 54) (opLen (bodyOp p.body)) = false) (hr : (s.takePacket n p).serve p.info (bodyOp p.body) = r) :
    loadstoreRequest n s = r.2.2.answerRequest p (s.l2p p.src) r.1 r.2.1 := by
  have hl2p : (s.takePacket n p).l2p p.src = s.l2p p.src := State.l2p_congr (fun _ _ => State.reg_congr (s.regs_takePacket n p) _) _
  unfold loadstoreRequest
  rw [hp, ← hr, ← hl2p]
  exact if_neg (by rw [hf]; exact Bool.false_ne_true)

/-- The state in which a request that the hot tier serves has been taken and its place accessed. -/
def State.requestServed (s : State) (n : Nat) (p : Packet) (b off : Nat) : State := (s.takePacket n p).hotServed b off (bodyOp p.body)

theorem State.onlyHearth.port {s r : State} (h : s.onlyHearth r) (n : Nat) : r.port n = s.port n := by
  obtain ⟨hr, -⟩ := h
  rw [hr]
  rfl

theorem State.requestServed_spec (s : State) (n : Nat) (p : Packet) (b off : Nat) : (s.requestServed n p b off).mem = s.mem ∧
    ((s.requestServed n p b off).port n).packets = (s.port n).packets.erase p ∧ s.keepsRegs (s.requestServed n p b off) hearthRegs := by
  obtain ⟨-, hpackets, -⟩ := s.takePacket_spec n p
  have hserved := (s.takePacket n p).onlyHearth_hearthLines b off (opLen (bodyOp p.body)) (opWrites (bodyOp p.body)) false
  rw [← State.hotServed, ← State.requestServed] at hserved
  refine ⟨hserved.mem.trans (s.mem_takePacket n p), by rw [hserved.port, hpackets], ?_⟩
  exact (State.keepsRegs_of_regs (s.regs_takePacket n p) []).trans hserved.2 (by simp) (List.Subset.refl _)

/-- A write of memory after the access keeps what the answer needs. -/
theorem State.write_requestServed (s : State) (n : Fin 5) (p : Packet) (b off : Nat) (d : List Byte) :
    (((s.requestServed n p b off).write (b * stackSize + off) d).port n).packets = (s.port n).packets.erase p ∧
      s.keepsRegs ((s.requestServed n p b off).write (b * stackSize + off) d) hearthRegs ∧
      s.keepsMem ((s.requestServed n p b off).write (b * stackSize + off) d) (b * stackSize + off) d.length := by
  obtain ⟨hmem, hpackets, hkeep⟩ := s.requestServed_spec n p b off
  generalize s.requestServed n p b off = r at hmem hpackets hkeep
  have hport : (r.write (b * stackSize + off) d).port n = r.port n := by
    have h := State.write_onlyMem (s := r) (a := b * stackSize + off) (d := d)
    generalize r.write (b * stackSize + off) d = q at h
    rw [h]
    rfl
  refine ⟨by rw [hport, hpackets], hkeep.trans (State.keepsRegs_of_regs (State.regs_write _ _ _) []) (List.Subset.refl _) (by simp), ?_⟩
  intro x hx
  rw [State.keepsMem_write _ _ _ x hx, State.byte_congr hmem]

section
variable {b off : Nat} (hp : s.firstPacket n (fun p => p.kind == 1 && (p.vc == 0 || p.vc == 4)) = some p)
  (hf : s.fillingIn (p.info % 2 ^ 54) (opLen (bodyOp p.body)) = false)
  (hhome : s.homeOf (s.ownSlot * 2 ^ 54 + p.info % 2 ^ 54) = .hot b off) (hoff : off % 8 = 0)
include hp hf hhome hoff

/-- A request at an aligned place of the hot tier is answered with what `serve` finds there. -/
theorem loadstoreRequest_hot : loadstoreRequest n s =
    if s.tierUp (unitHot b) then
      ((s.requestServed n p b off).memOp (b * stackSize + off) (bodyOp p.body)).2.answerRequest p (s.l2p p.src) 0
        ((s.requestServed n p b off).memOp (b * stackSize + off) (bodyOp p.body)).1
    else (s.takePacket n p).answerRequest p (s.l2p p.src) 0x20 [] := by
  have hregs := s.regs_takePacket n p
  have hplaces : s.samePlaces (s.takePacket n p) := fun o _ => State.reg_congr hregs o
  have hserve := State.serve_hot (s := s.takePacket n p) (op := bodyOp p.body) (by rw [hplaces.homeOf, hplaces.ownSlot, hhome]) hoff
  rw [loadstoreRequest_serves hp hf hserve, hplaces.tierUp, ← State.requestServed]
  split
  · rfl
  · rfl

/-- A request at an aligned place of the hot tier, of each kind. -/
theorem loadstoreRequest_hot_spec :
    (s.tierUp (unitHot b) = false → ∃ q : State, loadstoreRequest n s = q.answerRequest p (s.l2p p.src) 0x20 [] ∧
      (q.port n).packets = (s.port n).packets.erase p ∧ s.keepsRegs q hearthRegs ∧ q.mem = s.mem) ∧
    (s.tierUp (unitHot b) = true →
      (∀ k, bodyOp p.body = .read k → ∃ q : State,
        loadstoreRequest n s = q.answerRequest p (s.l2p p.src) 0 (s.bytes (b * stackSize + off) k) ∧
        (q.port n).packets = (s.port n).packets.erase p ∧ s.keepsRegs q hearthRegs ∧ q.mem = s.mem) ∧
      (∀ d, bodyOp p.body = .write d → ∃ q : State, loadstoreRequest n s = q.answerRequest p (s.l2p p.src) 0 [] ∧
        (q.port n).packets = (s.port n).packets.erase p ∧ s.keepsRegs q hearthRegs ∧ q.bytes (b * stackSize + off) d.length = d ∧
        s.keepsMem q (b * stackSize + off) d.length) ∧
      (isAtomic (bodyOp p.body) → ∃ q : State,
        loadstoreRequest n s = q.answerRequest p (s.l2p p.src) 0 (s.bytes (b * stackSize + off) 8) ∧
        (q.port n).packets = (s.port n).packets.erase p ∧ s.keepsRegs q hearthRegs ∧
        q.num (b * stackSize + off) 8 = atomicNew (bodyOp p.body) (s.num (b * stackSize + off) 8) ∧
        s.keepsMem q (b * stackSize + off) 8)) := by
  have hrow := loadstoreRequest_hot hp hf hhome hoff
  obtain ⟨hmem, hpackets, hkeep⟩ := s.requestServed_spec n p b off
  refine ⟨fun hup => ?_, fun hup => ⟨fun k hop => ?_, fun d hop => ?_, fun hop => ?_⟩⟩
  · obtain ⟨-, hpackets, -⟩ := s.takePacket_spec n p
    rw [hup, if_neg Bool.false_ne_true] at hrow
    exact ⟨_, hrow, hpackets, State.keepsRegs_of_regs (s.regs_takePacket n p) _, s.mem_takePacket n p⟩
  · rw [if_pos hup, hop] at hrow
    rw [← State.bytes_congr hmem]
    exact ⟨_, hrow, hpackets, hkeep, hmem⟩
  · obtain ⟨hpackets, hkeep, hmem⟩ := s.write_requestServed n p b off d
    rw [if_pos hup, hop] at hrow
    exact ⟨_, hrow, hpackets, hkeep, State.bytes_write _ _ _, hmem⟩
  · have hnew : atomicNew (bodyOp p.body) (s.num (b * stackSize + off) 8) < 256 ^ 8 := atomicNew_lt _ (s.num_lt _ 8)
    obtain ⟨hpackets, hkeep, hout⟩ := s.write_requestServed n p b off (natLE 8 (atomicNew (bodyOp p.body) (s.num (b * stackSize + off) 8)))
    rw [if_pos hup, State.memOp_atomic hop, State.bytes_congr hmem, State.num_congr hmem] at hrow
    rw [natLE_length] at hout
    refine ⟨_, hrow, hpackets, hkeep, ?_, hout⟩
    rw [State.num_writeNum, Nat.mod_eq_of_lt hnew]

end

end

end Sys2Proof.Machine
end

section
/-! PROOFS. The statement of 13_mesh.md on LOADSTORE_RESPONSE and LOADSTORE_TIMEOUT (R213, R318). -/
namespace Sys2Proof.Machine

/-! ## What waits -/

section
variable {s : State} {o : Outstanding} {data : List Byte} {poison : Bool} {kind m : Nat}

/-- The access is no longer outstanding. -/
def State.closed (s : State) (o : Outstanding) : State := { s with outstanding := s.outstanding.filter (fun x => x.tag != o.tag) }

theorem State.sendWaiting_of_none (h : s.noneWaits) : s.sendWaiting = s := by
  have hnil : s.outstanding.filter (fun o => !o.sent) = [] := List.filter_eq_nil_iff.2 fun o ho => by simp [h o ho]
  rw [State.sendWaiting, hnil, List.foldl_nil]

theorem State.noneWaits_closed (h : s.noneWaits) (o : Outstanding) : (s.closed o).noneWaits := fun x hx => h x (List.mem_of_mem_filter hx)

theorem State.finishAccepts_of_none (h : ∀ l < 64, (s.log l).accepting = none) : s.finishAccepts = s := by
  refine foldl_eq_self _ s _ fun l hl => ?_
  rw [State.finishAccept, h l (List.mem_range.1 hl)]

/-! ## The end of an access -/

/-- A mover whose unit gets the end of an access. -/
def Mover.ended (x : Mover) (o : Outstanding) (data : List Byte) (poison : Bool) (kind : Nat) : Mover :=
  { x with work := { x.work with
      data := if opWrites o.op then x.work.data else x.work.data ++ [(o.addr, data)]
      poison := if poison then 4 else x.work.poison
      fail := if kind = 0 then x.work.fail else kind
      failAt := if kind = 0 then x.work.failAt else o.addr } }

theorem State.accessEnd_mover (h : s.noneWaits) (ho : o.issuer = .mover m) :
    s.accessEnd o data poison kind = (s.closed o).setMover m ((s.mover m).ended o data poison kind) := by
  have hsent := State.sendWaiting_of_none (State.noneWaits_closed h o)
  rw [State.closed] at hsent
  simp only [State.accessEnd, ho, hsent]
  rfl

theorem State.accessEnd_firmware (h : s.noneWaits) (ho : o.issuer = .firmware) (hop : opWrites o.op = false) :
    s.accessEnd o data poison kind = (s.closed o).answer (if kind = 0 then data else natLE (opLen o.op) 0) := by
  have hsent := State.sendWaiting_of_none (State.noneWaits_closed h o)
  rw [State.closed] at hsent
  simp only [State.accessEnd, ho, hsent, hop]
  rfl

end

/-! ## LOADSTORE_RESPONSE -/

section
variable {n : Fin 5} {s : State} {p : Packet}

theorem exec_loadstoreResponse (n : Fin 5) (s : State) : exec (.loadstoreResponse n) s = .next (loadstoreResponse n s).finishAccepts := rfl

/-- What a packet taken leaves of the accesses. -/
theorem State.takePacket_accesses (s : State) (n : Nat) (p : Packet) :
    (s.takePacket n p).outstanding = s.outstanding ∧ (s.takePacket n p).movers = s.movers ∧ (s.takePacket n p).logs = s.logs ∧
      (s.takePacket n p).lateTags = s.lateTags := by
  obtain ⟨h, -⟩ := s.takePacket_spec n p
  generalize s.takePacket n p = r at h
  rw [h]
  exact ⟨rfl, rfl, rfl, rfl⟩

/-- The response of a tag that nothing waits for. -/
def State.lateResponse (s : State) (n : Nat) (p : Packet) : State :=
  State.unrouted { s.takePacket n p with lateTags := s.lateTags.erase p.tag } p.frames.length

/-- The data of a response (R318). -/
def responseData (p : Packet) : List Byte := (p.body.drop 16).take (leNat ((p.body.drop 2).take 2))

section
variable (hp : s.firstPacket n (fun p => p.kind == 2 && (p.vc == 0 || p.vc == 4)) = some p)
include hp

theorem loadstoreResponse_late (ho : s.tagOut p.tag = none) : loadstoreResponse n s = s.lateResponse n p := by
  obtain ⟨hout, -, -, hlate⟩ := s.takePacket_accesses n p
  have ho' : (s.takePacket n p).tagOut p.tag = none := by rw [State.tagOut, hout, ← State.tagOut, ho]
  unfold loadstoreResponse
  rw [hp]
  dsimp only
  rw [ho', State.lateResponse, hlate]

theorem loadstoreResponse_ends {o : Outstanding} (ho : s.tagOut p.tag = some o) :
    loadstoreResponse n s = (s.takePacket n p).accessEnd o (responseData p) false (leNat (p.body.take 2)) := by
  obtain ⟨hout, -⟩ := s.takePacket_accesses n p
  have ho' : (s.takePacket n p).tagOut p.tag = some o := by rw [State.tagOut, hout, ← State.tagOut, ho]
  unfold loadstoreResponse
  rw [hp]
  dsimp only
  rw [ho', responseData]

end

theorem exec_loadstoreResponse_of {r : State} (hr : loadstoreResponse n s = r) (hlogs : r.logs = s.logs)
    (hacc : ∀ l < 64, (s.log l).accepting = none) : exec (.loadstoreResponse n) s = .next r := by
  have hr' : r.finishAccepts = r := State.finishAccepts_of_none fun l hl => by rw [State.log, hlogs, ← State.log, hacc l hl]
  rw [exec_loadstoreResponse, hr, hr']

theorem State.lateResponse_spec (s : State) (n : Nat) (p : Packet) :
    (s.lateResponse n p).reg Reg.MSH_UNROUTED = s.reg Reg.MSH_UNROUTED + BitVec.ofNat 32 p.frames.length ∧
      (s.lateResponse n p).flag Reg.MSH_STATUS.UNROUTED = true ∧ ((s.lateResponse n p).port n).packets = (s.port n).packets.erase p ∧
      s.lateResponse n p = { s with
        regs := (s.lateResponse n p).regs, ports := (s.lateResponse n p).ports, out := (s.lateResponse n p).out
        lateTags := s.lateTags.erase p.tag } ∧
      s.keepsRegs (s.lateResponse n p) [Reg.MSH_UNROUTED, Reg.MSH_STATUS] := by
  obtain ⟨htaken, hpackets, -⟩ := s.takePacket_spec n p
  have hregs := s.regs_takePacket n p
  rw [State.lateResponse]
  generalize s.takePacket n p = u at htaken hpackets hregs
  generalize hu' : ({ u with lateTags := s.lateTags.erase p.tag } : State) = u'
  have hreg : ∀ o, u'.reg o = s.reg o := fun o => State.reg_congr (by rw [← hu']; exact hregs) o
  have hport : u'.port n = u.port n := by rw [← hu']; rfl
  have hframe : u' = { s with ports := u'.ports, out := u'.out, lateTags := s.lateTags.erase p.tag } := by rw [← hu', htaken]
  obtain ⟨hun, hkeep⟩ := u'.onlyRegs_unrouted p.frames.length
  refine ⟨?_, State.flag_setFlag_same _ Reg.MSH_STATUS.UNROUTED true (by decide) rfl, ?_, ?_, fun o ho => (hkeep o ho).trans (hreg o)⟩
  · rw [State.unrouted, State.setFlag, State.setFld, State.reg_setReg_ne _ _ (by decide), State.reg_setReg_same, hreg]
  · rw [← hpackets, ← hport, hun]
    rfl
  · generalize u'.unrouted p.frames.length = q at hun
    rw [hun, hframe]

/-- The access of a mover that a response ends. -/
def State.moverResponse (s : State) (n : Nat) (p : Packet) (o : Outstanding) (m : Nat) : State :=
  ((s.takePacket n p).closed o).setMover m ((s.mover m).ended o (responseData p) false (leNat (p.body.take 2)))

/-- The access of firmware that a response ends. -/
def State.firmwareResponse (s : State) (n : Nat) (p : Packet) (o : Outstanding) : State :=
  ((s.takePacket n p).closed o).emit (.readData (responseData p))

theorem State.closed_takePacket (s : State) (n : Nat) (p : Packet) (o : Outstanding) :
    ((s.takePacket n p).closed o).outstanding = s.outstanding.filter (fun x => x.tag != o.tag) ∧
      (((s.takePacket n p).closed o).port n).packets = (s.port n).packets.erase p ∧
      (s.takePacket n p).closed o = { s with
        outstanding := ((s.takePacket n p).closed o).outstanding, ports := ((s.takePacket n p).closed o).ports
        out := ((s.takePacket n p).closed o).out } := by
  obtain ⟨htaken, hpackets, -⟩ := s.takePacket_spec n p
  obtain ⟨hout, -⟩ := s.takePacket_accesses n p
  refine ⟨by rw [← hout]; rfl, hpackets, ?_⟩
  generalize s.takePacket n p = u at htaken
  rw [State.closed, htaken]

section
variable {o : Outstanding} {m : Nat} (hp : s.firstPacket n (fun p => p.kind == 2 && (p.vc == 0 || p.vc == 4)) = some p)
  (hwaits : s.noneWaits) (hacc : ∀ l < 64, (s.log l).accepting = none) (ho : s.tagOut p.tag = some o)
include hp hwaits hacc ho

theorem exec_loadstoreResponse_mover (hm : o.issuer = .mover m) : exec (.loadstoreResponse n) s = .next (s.moverResponse n p o m) := by
  obtain ⟨hout, hmovers, hlogs, -⟩ := s.takePacket_accesses n p
  have hmover : (s.takePacket n p).mover m = s.mover m := by rw [State.mover, hmovers, State.mover]
  refine exec_loadstoreResponse_of ?_ ?_ hacc
  · rw [loadstoreResponse_ends hp ho, State.accessEnd_mover (by rwa [State.noneWaits, hout]) hm, hmover, State.moverResponse]
  · rw [← hlogs]
    rfl

theorem exec_loadstoreResponse_firmware (hm : o.issuer = .firmware) (hop : opWrites o.op = false) (hcode : leNat (p.body.take 2) = 0)
    (hdata : responseData p ≠ []) : exec (.loadstoreResponse n) s = .next (s.firmwareResponse n p o) := by
  obtain ⟨hout, -, hlogs, -⟩ := s.takePacket_accesses n p
  refine exec_loadstoreResponse_of ?_ ?_ hacc
  · rw [loadstoreResponse_ends hp ho, State.accessEnd_firmware (by rwa [State.noneWaits, hout]) hm hop, if_pos hcode, State.answer,
      if_neg (by simpa using hdata), State.firmwareResponse]
  · rw [← hlogs]
    rfl

end

end

/-! ## LOADSTORE_TIMEOUT -/

/-- The tag is late: its response would come too late. -/
def State.late (s : State) (tag : Nat) : State := { s with lateTags := s.lateTags ++ [tag] }

/-- A firmware read times out. -/
def State.lateFirmware (s : State) (tag : Nat) : State := ((s.late tag).setFlag Reg.MSH_STATUS.LS_TIMEOUT true).mshInterrupt 318

section
variable {s : State} {tag : Nat} {o : Outstanding} {m : Nat}

theorem exec_loadstoreTimeout (tag : Nat) (s : State) : exec (.loadstoreTimeout tag) s = .next (loadstoreTimeout tag s) := rfl

theorem loadstoreTimeout_unknown (ho : s.tagOut tag = none) : loadstoreTimeout tag s = s := by
  rw [loadstoreTimeout, ho]

theorem loadstoreTimeout_early (ho : s.tagOut tag = some o) (ht : s.tick < o.issued.toNat + 1024 * max 1 (s.fld Reg.MSH_CTRL.LS_TO)) :
    loadstoreTimeout tag s = s := by
  unfold loadstoreTimeout
  rw [ho]
  exact if_neg (Nat.not_le.2 ht)

theorem State.outstanding_lateFirmware (s : State) (tag : Nat) : (s.lateFirmware tag).outstanding = s.outstanding := by
  rw [State.lateFirmware, State.mshInterrupt, State.interruptIf_eq]
  rfl

section
variable (ho : s.tagOut tag = some o) (ht : o.issued.toNat + 1024 * max 1 (s.fld Reg.MSH_CTRL.LS_TO) ≤ s.tick) (hwaits : s.noneWaits)
include ho ht hwaits

theorem loadstoreTimeout_mover (hm : o.issuer = .mover m) :
    loadstoreTimeout tag s = ((s.late tag).closed o).setMover m ((s.mover m).ended o [] false 0x20) := by
  unfold loadstoreTimeout
  rw [ho]
  dsimp only
  rw [if_pos ht, hm]
  exact State.accessEnd_mover (s := s.late tag) hwaits hm

theorem loadstoreTimeout_firmware (hm : o.issuer = .firmware) (hop : opWrites o.op = false) :
    loadstoreTimeout tag s = ((s.lateFirmware tag).closed o).answer (natLE (opLen o.op) 0) := by
  unfold loadstoreTimeout
  rw [ho]
  dsimp only
  rw [if_pos ht, hm, hop]
  exact State.accessEnd_firmware (s := s.lateFirmware tag) (by rwa [State.noneWaits, s.outstanding_lateFirmware]) hm hop

end

theorem State.lateFirmware_spec (s : State) (tag : Nat) : (s.lateFirmware tag).flag Reg.MSH_STATUS.LS_TIMEOUT = true ∧
    s.lateFirmware tag = { s with regs := (s.lateFirmware tag).regs, lateTags := (s.lateFirmware tag).lateTags, out := (s.lateFirmware tag).out } ∧
    s.keepsRegs (s.lateFirmware tag) [Reg.MSH_STATUS] := by
  have hset : ((s.late tag).setFlag Reg.MSH_STATUS.LS_TIMEOUT true).flag Reg.MSH_STATUS.LS_TIMEOUT = true :=
    State.flag_setFlag_same _ Reg.MSH_STATUS.LS_TIMEOUT true (by decide) rfl
  obtain ⟨hr, hkeep⟩ : (s.late tag).onlyRegs ((s.late tag).setFlag Reg.MSH_STATUS.LS_TIMEOUT true) [Reg.MSH_STATUS] :=
    (State.onlyRegs.refl _ _).setFlag true (by simp)
  have hlate : s.keepsRegs (s.late tag) [] := State.keepsRegs_of_regs rfl _
  rw [State.lateFirmware, State.mshInterrupt]
  generalize hq : (s.late tag).setFlag Reg.MSH_STATUS.LS_TIMEOUT true = q at hr hkeep hset
  have hregs := q.interruptIf_regs (q.flag Reg.MSH_CTRL.INT_EN) 318
  refine ⟨?_, ?_, ?_⟩
  · exact ((State.keepsRegs_of_regs hregs []).flag (by simp)).trans hset
  · rw [State.interruptIf_eq]
    rw [hr, State.late]
  · exact (hlate.trans hkeep (by simp) (List.Subset.refl _)).trans (State.keepsRegs_of_regs hregs []) (List.Subset.refl _) (by simp)

end

end Sys2Proof.Machine
end

section
/-! PROOFS. The statement of 13_mesh.md on MSG_KICK (R319). -/
namespace Sys2Proof.Machine

/-! ## One ring -/

/-- The registers that the sending of a transmit ring may write. -/
def ringRegs (ch : Nat) : List Nat := [Reg.MSH_UNROUTED, Reg.MSH_STATUS, Reg.MSH_MSG_HEAD ch 0] ++ hearthRegs

theorem hearthRegs_lt : ∀ o ∈ hearthRegs, o < 0x9000020 := by decide

theorem not_mem_ringRegs {ch o : Nat} (ho : 0xB000200 ≤ o) (hne : o ≠ 0xB000C08 + ch * 0x20 + 0 * 0x10) : o ∉ ringRegs ch := by
  intro hm
  rcases List.mem_append.1 hm with h | h
  · have h' : o = 0xB000014 ∨ o = 0xB000004 ∨ o = 0xB000C08 + ch * 0x20 + 0 * 0x10 := by
      simpa only [List.mem_cons, List.not_mem_nil, or_false] using h
    omega
  · have := hearthRegs_lt _ h
    omega

section
variable (s : State) (ch : Nat)

def State.txHead : Nat := s.fld (Reg.MSH_MSG_HEAD.INDEX ch 0)
def State.txTail : Nat := s.fld (Reg.MSH_MSG_TAIL.INDEX ch 0)

/-- The place of the next message of a transmit ring. -/
def State.txSlot : Nat := s.msgSlot ch 0 (s.txHead ch)

/-- The state in which the next message has been read and HEAD stands past it. -/
def State.messageRead : State :=
  (s.pass (s.txSlot ch) (64 + s.num (s.txSlot ch + 2) 2) false).setFld (Reg.MSH_MSG_HEAD.INDEX ch 0) (s.txHead ch + 1)

/-- The state in which the next message has been sent, where its length lets it be. -/
def State.messageSent : State :=
  if 0 < s.num (s.txSlot ch + 2) 2 ∧ s.num (s.txSlot ch + 2) 2 ≤ 4032 then
    (s.messageRead ch).sendPacket (if s.num (s.txSlot ch) 1 = 0xFF then 0xFF else s.l2p (s.num (s.txSlot ch) 1)) (ringVc ch) 4 0
      (s.num (s.txSlot ch + 2) 2) 0 (s.bytes (s.txSlot ch + 64) (s.num (s.txSlot ch + 2) 2))
  else s.messageRead ch

end

section
variable {s r : State} {ch c : Nat}

theorem State.messageRead_spec (s : State) (ch : Nat) : (s.messageRead ch).mem = s.mem ∧ (s.messageRead ch).out = s.out ∧
    (s.messageRead ch).ports = s.ports ∧ s.keepsRegs (s.messageRead ch) (Reg.MSH_MSG_HEAD ch 0 :: hearthRegs) ∧
    (s.messageRead ch).txHead ch = (s.txHead ch + 1) % 2 ^ 16 := by
  obtain ⟨hu, hkeep⟩ := s.onlyHearth_pass (s.txSlot ch) (64 + s.num (s.txSlot ch + 2) 2) false
  rw [State.messageRead]
  generalize s.pass (s.txSlot ch) (64 + s.num (s.txSlot ch + 2) 2) false = u at hu hkeep
  obtain ⟨hr, hset⟩ : u.onlyRegs (u.setFld (Reg.MSH_MSG_HEAD.INDEX ch 0) (s.txHead ch + 1)) [Reg.MSH_MSG_HEAD ch 0] :=
    (State.onlyRegs.refl u _).setFld _ (by simp)
  have hhead : (u.setFld (Reg.MSH_MSG_HEAD.INDEX ch 0) (s.txHead ch + 1)).txHead ch = (s.txHead ch + 1) % 2 ^ 16 :=
    State.fld_setFld_same u (Reg.MSH_MSG_HEAD.INDEX ch 0) _ (by simp)
  generalize u.setFld (Reg.MSH_MSG_HEAD.INDEX ch 0) (s.txHead ch + 1) = r at hr hset hhead
  refine ⟨by rw [hr, hu], by rw [hr, hu], by rw [hr, hu], hkeep.trans hset (by simp) (by simp), hhead⟩

theorem State.messageSent_spec (s : State) (ch : Nat) : (s.messageSent ch).mem = s.mem ∧ s.keepsRegs (s.messageSent ch) (ringRegs ch) ∧
    (s.messageSent ch).txHead ch = (s.txHead ch + 1) % 2 ^ 16 := by
  obtain ⟨hmem, -, -, hkeep, hhead⟩ := s.messageRead_spec ch
  have hsub : Reg.MSH_MSG_HEAD ch 0 :: hearthRegs ⊆ ringRegs ch := by simp [ringRegs]
  unfold State.messageSent
  split
  · have hsend := (s.messageRead ch).onlyMesh_sendPacket
      (if s.num (s.txSlot ch) 1 = 0xFF then 0xFF else s.l2p (s.num (s.txSlot ch) 1)) (ringVc ch) 4 0
      (s.num (s.txSlot ch + 2) 2) 0 (s.bytes (s.txSlot ch + 64) (s.num (s.txSlot ch + 2) 2))
    refine ⟨hsend.mem.trans hmem, hkeep.trans hsend.2 hsub (by simp [ringRegs]), ?_⟩
    refine (hsend.2.fld ?_).trans hhead
    show 0xB000C08 + ch * 0x20 + 0 * 0x10 ∉ [0xB000014, 0xB000004]
    simp
    omega
  · exact ⟨hmem, hkeep.mono hsub, hhead⟩

theorem State.sendRing_succ (s : State) (ch k : Nat) :
    s.sendRing ch (k + 1) = if s.txHead ch = s.txTail ch then s else (s.messageSent ch).sendRing ch k := by
  have hhead : s.fld (Reg.MSH_MSG_HEAD.INDEX ch 0) = s.txHead ch := rfl
  have htail : s.fld (Reg.MSH_MSG_TAIL.INDEX ch 0) = s.txTail ch := rfl
  have hslot : s.msgSlot ch 0 (s.txHead ch) = s.txSlot ch := rfl
  have hmem := (s.onlyHearth_pass (s.txSlot ch) (64 + s.num (s.txSlot ch + 2) 2) false).mem
  have hl2p (i : Nat) : (s.messageRead ch).l2p i = s.l2p i := by
    obtain ⟨-, -, -, hkeep, -⟩ := s.messageRead_spec ch
    refine State.l2p_congr (fun i hi => hkeep _ fun hm => ?_) i
    rcases List.mem_cons.1 hm with h | h
    · have : 0xB000200 + i * 0x4 = 0xB000C08 + ch * 0x20 + 0 * 0x10 := h
      omega
    · have : 0xB000200 + i * 0x4 < 0x9000020 := hearthRegs_lt _ h
      omega
  rw [State.sendRing]
  dsimp only
  rw [hhead, htail, hslot, State.num_congr hmem, State.num_congr hmem, State.bytes_congr hmem, ← State.messageRead, hl2p, ← State.messageSent]

theorem txTail_of_keepsRegs {c' : Nat} (h : s.keepsRegs r (ringRegs c')) (c : Nat) : r.txTail c = s.txTail c := by
  have ho : 0xB000200 ≤ 0xB000C0C + c * 0x20 + 0 * 0x10 := by omega
  have hoff : 0xB000C0C + c * 0x20 + 0 * 0x10 ≠ 0xB000C08 + c' * 0x20 + 0 * 0x10 := by omega
  exact h.fld (not_mem_ringRegs ho hoff)

theorem txHead_of_keepsRegs {c' : Nat} (h : s.keepsRegs r (ringRegs c')) (hne : c ≠ c') : r.txHead c = s.txHead c := by
  have ho : 0xB000200 ≤ 0xB000C08 + c * 0x20 + 0 * 0x10 := by omega
  have hoff : 0xB000C08 + c * 0x20 + 0 * 0x10 ≠ 0xB000C08 + c' * 0x20 + 0 * 0x10 := by omega
  exact h.fld (not_mem_ringRegs ho hoff)

theorem State.txHead_lt (s : State) (ch : Nat) : s.txHead ch < 2 ^ 16 := bits_lt _ _ _

theorem State.txTail_lt (s : State) (ch : Nat) : s.txTail ch < 2 ^ 16 := bits_lt _ _ _

/-- The messages that a ring holds. -/
def State.txLeft (s : State) (ch : Nat) : Nat := (s.txTail ch + 2 ^ 16 - s.txHead ch) % 2 ^ 16

/-- A ring is sent up to its TAIL, and only its registers differ. -/
theorem State.sendRing_spec (k : Nat) (s : State) (ch : Nat) (hk : s.txLeft ch ≤ k) :
    (s.sendRing ch k).txHead ch = s.txTail ch ∧ (s.sendRing ch k).mem = s.mem ∧ s.keepsRegs (s.sendRing ch k) (ringRegs ch) := by
  induction k generalizing s with
  | zero =>
    refine ⟨?_, rfl, fun _ _ => rfl⟩
    have hh := s.txHead_lt ch
    have ht := s.txTail_lt ch
    rw [State.sendRing]
    unfold State.txLeft at hk
    omega
  | succ k ih =>
    rw [State.sendRing_succ]
    split
    · exact ⟨‹_›, rfl, fun _ _ => rfl⟩
    · obtain ⟨hmem, hkeep, hhead⟩ := s.messageSent_spec ch
      have htail := txTail_of_keepsRegs hkeep ch
      have hh := s.txHead_lt ch
      have ht := s.txTail_lt ch
      obtain ⟨hhead', hmem', hkeep'⟩ := ih (s.messageSent ch) (by
        unfold State.txLeft at hk ⊢
        rw [hhead, htail]
        omega)
      exact ⟨hhead'.trans htail, hmem'.trans hmem, hkeep.trans hkeep' (List.Subset.refl _) (List.Subset.refl _)⟩

theorem State.txLeft_lt (s : State) (ch : Nat) : s.txLeft ch < 2 ^ 16 := Nat.mod_lt _ (by decide)

theorem State.sendRing_empty (k : Nat) (h : s.txHead ch = s.txTail ch) : s.sendRing ch k = s := by
  cases k with
  | zero => rw [State.sendRing]
  | succ k => rw [State.sendRing_succ, if_pos h]

/-- A ring that holds one message sends it. -/
theorem State.sendRing_single (k : Nat) (h : s.txTail ch = (s.txHead ch + 1) % 2 ^ 16) : s.sendRing ch (k + 1) = s.messageSent ch := by
  have hlt := s.txHead_lt ch
  obtain ⟨-, hkeep, hhead⟩ := s.messageSent_spec ch
  rw [State.sendRing_succ, if_neg (by omega), State.sendRing_empty]
  rw [hhead, txTail_of_keepsRegs hkeep, h]

/-! ## All rings -/

/-- The rings of a list are sent. -/
def State.sendRings (s : State) (l : List Nat) : State := l.foldl (fun s ch => s.sendRing ch 65536) s

theorem State.sendRings_spec (l : List Nat) (s : State) : (s.sendRings l).mem = s.mem ∧
    s.keepsRegs (s.sendRings l) (l.flatMap ringRegs) ∧ ∀ c ∈ l, (s.sendRings l).txHead c = s.txTail c := by
  induction l generalizing s with
  | nil => exact ⟨rfl, fun _ _ => rfl, fun c hc => absurd hc List.not_mem_nil⟩
  | cons ch l ih =>
    obtain ⟨hhead, hmem, hkeep⟩ := State.sendRing_spec 65536 s ch (s.txLeft_lt ch).le
    obtain ⟨hmem', hkeep', hhead'⟩ := ih (s.sendRing ch 65536)
    refine ⟨hmem'.trans hmem, hkeep.trans hkeep' (by simp) (by simp), fun c hc => ?_⟩
    by_cases hl : c ∈ l
    · exact (hhead' c hl).trans (txTail_of_keepsRegs hkeep c)
    · obtain rfl : c = ch := (List.mem_cons.1 hc).resolve_right hl
      refine Eq.trans (hkeep'.fld fun hm => ?_) hhead
      obtain ⟨c', hc', hm⟩ := List.mem_flatMap.1 hm
      have ho : 0xB000200 ≤ 0xB000C08 + c * 0x20 + 0 * 0x10 := by omega
      have hne : c ≠ c' := fun h => hl (h ▸ hc')
      exact not_mem_ringRegs ho (by omega) hm

/-- Where one ring alone holds one message, that message is sent. -/
theorem State.sendRings_single {l : List Nat} (hl : ch ∈ l) (hnodup : l.Nodup) (h : s.txTail ch = (s.txHead ch + 1) % 2 ^ 16)
    (hrest : ∀ c ∈ l, c ≠ ch → s.txHead c = s.txTail c) : s.sendRings l = s.messageSent ch := by
  obtain ⟨l₁, l₂, rfl⟩ := List.append_of_mem hl
  have hnot := List.nodup_middle.1 hnodup
  rw [List.nodup_cons, List.mem_append, not_or] at hnot
  obtain ⟨⟨h₁, h₂⟩, -⟩ := hnot
  obtain ⟨-, hkeep, -⟩ := s.messageSent_spec ch
  have hbefore : s.sendRings l₁ = s := foldl_eq_self _ s _ fun c hc =>
    State.sendRing_empty _ (hrest c (by simp [hc]) (ne_of_mem_of_not_mem hc h₁))
  have hafter : (s.messageSent ch).sendRings l₂ = s.messageSent ch := foldl_eq_self _ _ _ fun c hc => by
    have hne := ne_of_mem_of_not_mem hc h₂
    refine State.sendRing_empty _ ?_
    rw [txHead_of_keepsRegs hkeep hne, txTail_of_keepsRegs hkeep, hrest c (by simp [hc]) hne]
  rw [State.sendRings] at *
  rw [List.foldl_append, hbefore, List.foldl_cons, State.sendRing_single 65535 h]
  exact hafter

end

/-! ## MSG_KICK -/

/-- The state with the limits and INT_EN of MSH_CTRL written. -/
def State.mshWritten (s : State) (v : Word) : State := s.setReg Reg.MSH_CTRL (v &&& 0xFFFF0002)

section
variable {s : State} {v : Word} {ch : Nat}

theorem State.onlyRegs_mshWritten (s : State) (v : Word) : s.onlyRegs (s.mshWritten v) [Reg.MSH_CTRL] := (State.onlyRegs.refl s _).setReg _ (by simp)

theorem exec_msgKick (hlive : s.live = true) (v : Word) : exec (.msgKick .firmware v) s =
    .next (if bitOf v.toNat 2 then (s.mshWritten v).sendRings (List.range 4) else s.mshWritten v) := by
  have hreach : s.reaches .firmware Reg.MSH_CTRL = true := by simp [State.reaches, hlive]
  exact congrArg Host.Outcome.next (State.byFirmwareOrRack_heard (.inl rfl) hreach _)

/-- The rings of the state with MSH_CTRL written are those of the state before. -/
theorem State.rings_mshWritten (s : State) (v : Word) (c : Nat) : (s.mshWritten v).txHead c = s.txHead c ∧
    (s.mshWritten v).txTail c = s.txTail c ∧ (s.mshWritten v).txSlot c = s.txSlot c ∧ ∀ i, (s.mshWritten v).l2p i = s.l2p i := by
  obtain ⟨-, hkeep⟩ := s.onlyRegs_mshWritten v
  have hreg {o : Nat} (ho : 0xB000200 ≤ o) : (s.mshWritten v).reg o = s.reg o := hkeep o fun hm => by
    have : o = 0xB000000 := List.mem_singleton.1 hm
    omega
  have hhead : (s.mshWritten v).txHead c = s.txHead c := State.fld_congr _ (hreg (show 0xB000200 ≤ 0xB000C08 + c * 0x20 + 0 * 0x10 by omega))
  have hlo := hreg (show 0xB000200 ≤ Reg.MSH_MSG_BASE_LO c 0 from show 0xB000200 ≤ 0xB000C00 + c * 0x20 + 0 * 0x10 by omega)
  have hhi := hreg (show 0xB000200 ≤ Reg.MSH_MSG_BASE_HI c 0 from show 0xB000200 ≤ 0xB000C04 + c * 0x20 + 0 * 0x10 by omega)
  refine ⟨hhead, State.fld_congr _ (hreg (show 0xB000200 ≤ 0xB000C0C + c * 0x20 + 0 * 0x10 by omega)), ?_,
    State.l2p_congr fun i _ => hreg (show 0xB000200 ≤ 0xB000200 + i * 0x4 by omega)⟩
  rw [State.txSlot, hhead, State.msgSlot, State.msgBase, State.msgSize, State.fld_congr (Reg.MSH_MSG_BASE_LO.BASE c 0) hlo,
    State.fld_congr (Reg.MSH_MSG_BASE_HI.BASE c 0) hhi, State.fld_congr (Reg.MSH_MSG_BASE_HI.LOG2N c 0) hhi]
  rfl

/-- MSG_KICK sends every ring. -/
theorem State.kicked_spec (s : State) (v : Word) :
    ((s.mshWritten v).sendRings (List.range 4)).reg Reg.MSH_CTRL = v &&& 0xFFFF0002 ∧
      ((s.mshWritten v).sendRings (List.range 4)).mem = s.mem ∧
      (∀ c < 4, ((s.mshWritten v).sendRings (List.range 4)).txHead c = s.txTail c) ∧
      s.keepsRegs ((s.mshWritten v).sendRings (List.range 4)) ([Reg.MSH_CTRL, Reg.MSH_UNROUTED, Reg.MSH_STATUS] ++
        (List.range 4).map (fun ch => Reg.MSH_MSG_HEAD ch 0) ++ hearthRegs) := by
  obtain ⟨hw, hkeep⟩ := s.onlyRegs_mshWritten v
  obtain ⟨hmem, hkeep', hhead⟩ := State.sendRings_spec (List.range 4) (s.mshWritten v)
  refine ⟨?_, hmem.trans ?_, fun c hc => ?_, hkeep.trans hkeep' (by decide) (by decide)⟩
  · rw [hkeep' Reg.MSH_CTRL (by decide), State.mshWritten, State.reg_setReg_same]
  · rw [hw]
  · obtain ⟨-, htail, -⟩ := s.rings_mshWritten v c
    rw [hhead c (List.mem_range.2 hc), htail]

/-- Where one ring alone holds one message, MSG_KICK sends that message. -/
theorem State.kicked_single (hch : ch < 4) (h : s.txTail ch = (s.txHead ch + 1) % 2 ^ 16) (hpos : 0 < s.num (s.txSlot ch + 2) 2)
    (hlen : s.num (s.txSlot ch + 2) 2 ≤ 4032) (hrest : ∀ c < 4, c ≠ ch → s.txHead c = s.txTail c) :
    ∃ q : State, (s.mshWritten v).sendRings (List.range 4) =
      q.sendPacket (if s.num (s.txSlot ch) 1 = 0xFF then 0xFF else s.l2p (s.num (s.txSlot ch) 1)) (ringVc ch) 4 0 (s.num (s.txSlot ch + 2) 2) 0
        (s.bytes (s.txSlot ch + 64) (s.num (s.txSlot ch + 2) 2)) ∧ q.out = s.out ∧ q.ports = s.ports := by
  obtain ⟨hhead, htail, hslot, hl2p⟩ := s.rings_mshWritten v ch
  obtain ⟨hw, -⟩ := s.onlyRegs_mshWritten v
  have hmem : (s.mshWritten v).mem = s.mem := by rw [hw]
  obtain ⟨-, hout, hports, -⟩ := (s.mshWritten v).messageRead_spec ch
  have hsent := State.sendRings_single (s := s.mshWritten v) (List.mem_range.2 hch) List.nodup_range (by rw [htail, hhead, h]) fun c hc hne => by
    obtain ⟨hhead, htail, -⟩ := s.rings_mshWritten v c
    rw [hhead, htail, hrest c (List.mem_range.1 hc) hne]
  rw [State.messageSent, hslot, State.num_congr hmem, State.num_congr hmem, State.bytes_congr hmem, hl2p, if_pos ⟨hpos, hlen⟩] at hsent
  refine ⟨_, hsent, hout.trans ?_, hports.trans ?_⟩
  · rw [hw]
  · rw [hw]

end

end Sys2Proof.Machine
end

section
/-! PROOFS. The statement of 13_mesh.md on MESSAGE_RECEIVE (R260, R319), and the statement on loads, stores and messages as a whole. -/
namespace Sys2Proof.Machine

section
variable {n : Fin 5} {ch : Fin 4} {s : State} {p : Packet}

theorem exec_messageReceive (n : Fin 5) (ch : Fin 4) (s : State) : exec (.messageReceive n ch) s = .next (messageTaken n ch s) := rfl

/-- The place of the next message received. -/
def State.rxSlot (s : State) (ch : Nat) : Nat := s.msgSlot ch 1 (s.fld (Reg.MSH_MSG_HEAD.INDEX ch 1))

/-- A message as it is written, with its header before it (R319). -/
def State.messageBytes (s : State) (p : Packet) : List Byte :=
  natLE 1 s.ownLogical ++ natLE 1 p.src ++ natLE 2 p.tag ++ natLE 4 0 ++ natLE 8 p.stamp.toNat ++ natLE 48 0 ++ p.body.take p.tag

/-- The state in which a message has been written to its ring. -/
def State.messageStored (s : State) (n ch : Nat) (p : Packet) : State :=
  ((s.takePacket n p).pass (s.rxSlot ch) (64 + p.tag) true).write (s.rxSlot ch) (s.messageBytes p)

/-- The state after a message has entered its ring. -/
def State.messageKept (s : State) (n ch : Nat) (p : Packet) : State :=
  (((s.messageStored n ch p).setFld (Reg.MSH_MSG_HEAD.INDEX ch 1) (s.fld (Reg.MSH_MSG_HEAD.INDEX ch 1) + 1)).setFlag
    Reg.MSH_STATUS.MSG_RX true).mshInterrupt 319

section
variable (hp : s.firstPacket n (fun p => p.kind == 4 && p.vc == ringVc ch) = some p)
include hp

theorem messageReceive_full (hfull : s.ringFull ch = true) : messageReceive n ch s = s := by
  unfold messageReceive
  rw [hp]
  exact if_pos (.inl hfull)

theorem messageReceive_kept (hfull : s.ringFull ch = false) (hverdict : (ch : Nat) = 0 → s.flag Reg.SLG_CTRL.VERDICT_EN = false) :
    messageReceive n ch s = s.messageKept n ch p := by
  have hgo : ¬ (s.ringFull ch = true ∨ ((ch : Nat) = 0 ∧ s.flag Reg.SLG_CTRL.VERDICT_EN)) := by
    rintro (h | ⟨h, h'⟩)
    · rw [hfull] at h
      exact Bool.false_ne_true h
    · rw [hverdict h] at h'
      exact Bool.false_ne_true h'
  unfold messageReceive
  rw [hp]
  exact if_neg hgo

theorem messageTaken_full (hfull : s.ringFull ch = true) : messageTaken n ch s = s := by
  unfold messageTaken
  rw [hp]
  dsimp only
  rw [messageReceive_full hp hfull]
  exact if_pos (.inr (.inr (.inr hfull)))

theorem messageTaken_plain (h : (ch : Nat) ≠ 1 ∨ p.tag ≠ 16 ∨ s.live = false) : messageTaken n ch s = messageReceive n ch s := by
  unfold messageTaken
  rw [hp]
  exact if_pos (by tauto)

theorem messageTaken_overrun (hfull : s.ringFull ch = false) (hch : (ch : Nat) = 1) (htag : p.tag = 16) (hlive : s.live = true) :
    messageTaken n ch s = (s.groupParts p.src p.body).foldl (fun t q => t.overrunMessage q p.src (p.body.take 16)) (messageReceive n ch s) := by
  unfold messageTaken
  rw [hp]
  refine if_neg fun h => ?_
  rw [hfull, hlive] at h
  simp [hch, htag] at h

end

theorem State.length_messageBytes (s : State) (p : Packet) : (s.messageBytes p).length = 64 + (p.body.take p.tag).length := by
  simp [State.messageBytes]
  omega

/-- What a message in its ring reads as. -/
theorem State.write_messageBytes (r s : State) (a : Nat) (p : Packet) :
    (r.write a (s.messageBytes p)).num a 1 = s.ownLogical % 256 ∧ (r.write a (s.messageBytes p)).num (a + 1) 1 = p.src % 256 ∧
      (r.write a (s.messageBytes p)).num (a + 2) 2 = p.tag % 2 ^ 16 ∧ (r.write a (s.messageBytes p)).num (a + 8) 8 = p.stamp.toNat ∧
      (r.write a (s.messageBytes p)).bytes (a + 64) (p.body.take p.tag).length = p.body.take p.tag := by
  have hread (x y : List Byte) (i k v : Nat) (hx : x.length = i) (hd : s.messageBytes p = x ++ (natLE k v ++ y)) :
      (r.write a (s.messageBytes p)).num (a + i) k = v % 256 ^ k := by
    subst hx
    rw [hd, State.num_write_part]
  refine ⟨?_, ?_, ?_, ?_, ?_⟩
  · exact hread [] _ 0 1 _ rfl (by simp [State.messageBytes]; rfl)
  · exact hread (natLE 1 s.ownLogical) _ 1 1 _ (by simp) (by simp [State.messageBytes]; rfl)
  · exact hread (natLE 1 s.ownLogical ++ natLE 1 p.src) _ 2 2 _ (by simp) (by simp [State.messageBytes]; rfl)
  · have h := hread (natLE 1 s.ownLogical ++ natLE 1 p.src ++ natLE 2 p.tag ++ natLE 4 0) _ 8 8 p.stamp.toNat (by simp)
      (by simp [State.messageBytes]; rfl)
    rw [h]
    exact Nat.mod_eq_of_lt p.stamp.isLt
  · rw [State.bytes_write_part _ _ _ (by rw [s.length_messageBytes])]
    have hdrop : (s.messageBytes p).drop 64 = p.body.take p.tag := by
      rw [State.messageBytes]
      exact List.drop_left' (by simp)
    rw [hdrop, List.take_length]

theorem State.messageStored_spec (s : State) (n ch : Nat) (p : Packet) :
    s.keepsMem (s.messageStored n ch p) (s.rxSlot ch) (64 + (p.body.take p.tag).length) ∧
      ((s.messageStored n ch p).port n).packets = (s.port n).packets.erase p ∧ s.keepsRegs (s.messageStored n ch p) hearthRegs := by
  obtain ⟨-, hpackets, -⟩ := s.takePacket_spec n p
  have hpass := (s.takePacket n p).onlyHearth_pass (s.rxSlot ch) (64 + p.tag) true
  have hmem := hpass.mem.trans (s.mem_takePacket n p)
  have hport : ((s.messageStored n ch p).port n).packets = (((s.takePacket n p).pass (s.rxSlot ch) (64 + p.tag) true).port n).packets := by
    rw [State.messageStored, State.write_onlyMem]
    rfl
  refine ⟨fun x hx => ?_, by rw [hport, hpass.port, hpackets], ?_⟩
  · rw [State.messageStored, State.keepsMem_write _ _ _ x (by rwa [s.length_messageBytes]), State.byte_congr hmem]
  · exact ((State.keepsRegs_of_regs (s.regs_takePacket n p) []).trans hpass.2 (by simp) (List.Subset.refl _)).trans
      (State.keepsRegs_of_regs (State.regs_write _ _ _) []) (List.Subset.refl _) (by simp)

theorem State.messageKept_spec (s : State) (n ch : Nat) (p : Packet) :
    (s.messageKept n ch p).mem = (s.messageStored n ch p).mem ∧ (s.messageKept n ch p).port n = (s.messageStored n ch p).port n ∧
      (s.messageKept n ch p).fld (Reg.MSH_MSG_HEAD.INDEX ch 1) = (s.fld (Reg.MSH_MSG_HEAD.INDEX ch 1) + 1) % 2 ^ 16 ∧
      (s.messageKept n ch p).flag Reg.MSH_STATUS.MSG_RX = true ∧
      (s.messageStored n ch p).keepsRegs (s.messageKept n ch p) [Reg.MSH_MSG_HEAD ch 1, Reg.MSH_STATUS] := by
  rw [State.messageKept, State.mshInterrupt]
  generalize s.messageStored n ch p = u
  have hne : 0xB000C08 + ch * 0x20 + 1 * 0x10 ≠ 0xB000004 := by omega
  have hhead := State.fld_setFld_same u (Reg.MSH_MSG_HEAD.INDEX ch 1) (s.fld (Reg.MSH_MSG_HEAD.INDEX ch 1) + 1) (by simp)
  have hw : u.onlyRegs (u.setFld (Reg.MSH_MSG_HEAD.INDEX ch 1) (s.fld (Reg.MSH_MSG_HEAD.INDEX ch 1) + 1))
      [Reg.MSH_MSG_HEAD ch 1, Reg.MSH_STATUS] := (State.onlyRegs.refl u _).setFld _ (by simp)
  generalize u.setFld (Reg.MSH_MSG_HEAD.INDEX ch 1) (s.fld (Reg.MSH_MSG_HEAD.INDEX ch 1) + 1) = v at hhead hw
  have hset := State.flag_setFlag_same v Reg.MSH_STATUS.MSG_RX true (by decide) rfl
  have hhead' : (v.setFlag Reg.MSH_STATUS.MSG_RX true).fld (Reg.MSH_MSG_HEAD.INDEX ch 1) = v.fld (Reg.MSH_MSG_HEAD.INDEX ch 1) :=
    State.fld_setFld_ne _ _ _ _ hne
  have hw' := hw.setFlag (f := Reg.MSH_STATUS.MSG_RX) true (by simp)
  generalize v.setFlag Reg.MSH_STATUS.MSG_RX true = q at hset hhead' hw'
  obtain ⟨hq, hkeep⟩ := hw'
  have hregs := q.interruptIf_regs (q.flag Reg.MSH_CTRL.INT_EN) 319
  refine ⟨?_, ?_, ?_, ?_, hkeep.trans (State.keepsRegs_of_regs hregs []) (List.Subset.refl _) (by simp)⟩
  · rw [State.interruptIf_eq, hq]
  · rw [State.interruptIf_eq, hq]
    rfl
  · rw [State.fld_of_regs hregs, hhead', hhead]
  · exact ((State.keepsRegs_of_regs hregs []).flag (by simp)).trans hset

end

/-! ## The obligation -/

section
variable {n : Fin 5} {ch : Fin 4} {s : State} {p : Packet} {tag : Nat} {o : Outstanding}

/-- A request of another slot. -/
theorem loadstoreRequest_spec (hp : s.firstPacket n (fun p => p.kind == 1 && (p.vc == 0 || p.vc == 4)) = some p) :
    let op := bodyOp p.body
    let served := fun (q : State) (code : Nat) (d : List Byte) =>
      exec (.loadstoreRequest n) s = .next (q.sendPacket (s.l2p p.src) p.vc 2 0 p.tag p.info (natLE 2 code ++ natLE 2 d.length ++ natLE 12 0 ++ d)) ∧
        (q.port n).packets = (s.port n).packets.erase p ∧ s.keepsRegs q hearthRegs
    (s.fillingIn (p.info % 2 ^ 54) (opLen op) = true → exec (.loadstoreRequest n) s = .next s) ∧
    (s.fillingIn (p.info % 2 ^ 54) (opLen op) = false → ∀ b off, s.homeOf (s.ownSlot * 2 ^ 54 + p.info % 2 ^ 54) = .hot b off → off % 8 = 0 →
      let a := b * stackSize + off
      (s.tierUp (unitHot b) = false → ∃ q, served q 0x20 [] ∧ q.mem = s.mem) ∧
      (s.tierUp (unitHot b) = true →
        (∀ k, op = .read k → ∃ q, served q 0 (s.bytes a k) ∧ q.mem = s.mem) ∧
        (∀ d, op = .write d → ∃ q, served q 0 [] ∧ q.bytes a d.length = d ∧ s.keepsMem q a d.length) ∧
        ((∀ k, op ≠ .read k) → (∀ d, op ≠ .write d) → ∃ q, served q 0 (s.bytes a 8) ∧ q.num a 8 = atomicNew op (s.num a 8) ∧
          s.keepsMem q a 8))) := by
  intro op served
  have hserved {q : State} {code : Nat} {d : List Byte} (hrow : loadstoreRequest n s = q.answerRequest p (s.l2p p.src) code d)
      (hpackets : (q.port n).packets = (s.port n).packets.erase p) (hkeep : s.keepsRegs q hearthRegs) : served q code d :=
    ⟨congrArg Host.Outcome.next hrow, hpackets, hkeep⟩
  refine ⟨fun hf => congrArg Host.Outcome.next (loadstoreRequest_filling hp hf), fun hf b off hhome hoff => ?_⟩
  obtain ⟨hdown, hup⟩ := loadstoreRequest_hot_spec hp hf hhome hoff
  refine ⟨fun h => ?_, fun h => ⟨fun k hop => ?_, fun d hop => ?_, fun hr hw => ?_⟩⟩
  · obtain ⟨q, hrow, hpackets, hkeep, hmem⟩ := hdown h
    exact ⟨q, hserved hrow hpackets hkeep, hmem⟩
  · obtain ⟨hread, -, -⟩ := hup h
    obtain ⟨q, hrow, hpackets, hkeep, hmem⟩ := hread k hop
    exact ⟨q, hserved hrow hpackets hkeep, hmem⟩
  · obtain ⟨-, hwrite, -⟩ := hup h
    obtain ⟨q, hrow, hpackets, hkeep, hbytes, hmem⟩ := hwrite d hop
    exact ⟨q, hserved hrow hpackets hkeep, hbytes, hmem⟩
  · obtain ⟨-, -, hatomic⟩ := hup h
    obtain ⟨q, hrow, hpackets, hkeep, hnum, hmem⟩ := hatomic ⟨hr, hw⟩
    exact ⟨q, hserved hrow hpackets hkeep, hnum, hmem⟩

/-- A mover's access that times out. -/
theorem loadstoreTimeout_mover_spec (ho : s.tagOut tag = some o) (ht : o.issued.toNat + 1024 * max 1 (s.fld Reg.MSH_CTRL.LS_TO) ≤ s.tick)
    (hwaits : s.noneWaits) {m : Nat} (hm : o.issuer = .mover m) :
    ∃ r, exec (.loadstoreTimeout tag) s = .next r ∧ (r.mover m).work.fail = 0x20 ∧ (r.mover m).work.failAt = o.addr ∧
      r.outstanding = s.outstanding.filter (fun x => x.tag != o.tag) ∧ r.lateTags = s.lateTags ++ [tag] ∧
      r = { s with outstanding := r.outstanding, lateTags := r.lateTags, movers := r.movers } := by
  refine ⟨_, (exec_loadstoreTimeout tag s).trans (congrArg _ (loadstoreTimeout_mover ho ht hwaits hm)), ?_, ?_, rfl, rfl, rfl⟩
  · rw [State.mover_setMover_same]
    rfl
  · rw [State.mover_setMover_same]
    rfl

/-- A read by firmware that times out. -/
theorem loadstoreTimeout_firmware_spec (ho : s.tagOut tag = some o) (ht : o.issued.toNat + 1024 * max 1 (s.fld Reg.MSH_CTRL.LS_TO) ≤ s.tick)
    (hwaits : s.noneWaits) (hm : o.issuer = .firmware) (hop : opWrites o.op = false) :
    ∃ r, exec (.loadstoreTimeout tag) s = .next r ∧ r.flag Reg.MSH_STATUS.LS_TIMEOUT = true ∧
      (0 < opLen o.op → r.out.getLast? = some (.readData (natLE (opLen o.op) 0))) ∧
      r = { s with outstanding := r.outstanding, lateTags := r.lateTags, regs := r.regs, out := r.out } ∧ s.keepsRegs r [Reg.MSH_STATUS] := by
  have hrow := (exec_loadstoreTimeout tag s).trans (congrArg _ (loadstoreTimeout_firmware ho ht hwaits hm hop))
  obtain ⟨hflag, hq, hkeep⟩ := s.lateFirmware_spec tag
  generalize s.lateFirmware tag = q at hrow hflag hq hkeep
  have hregs : ((q.closed o).answer (natLE (opLen o.op) 0)).regs = q.regs := by
    unfold State.answer
    split
    · rfl
    · rfl
  refine ⟨_, hrow, ?_, fun hlen => ?_, ?_, hkeep.trans (State.keepsRegs_of_regs hregs []) (List.Subset.refl _) (by simp)⟩
  · exact ((State.keepsRegs_of_regs hregs []).flag (by simp)).trans hflag
  · rw [State.answer_natLE _ hlen]
    exact List.getLast?_concat
  · unfold State.answer
    split
    · rw [State.closed, hq]
    · rw [State.emit, State.closed, hq]

/-- A message that its ring has room for. -/
theorem messageReceive_spec (hp : s.firstPacket n (fun p => p.kind == 4 && p.vc == ringVc ch) = some p) (hfull : s.ringFull ch = false)
    (hverdict : ch = 0 → s.flag Reg.SLG_CTRL.VERDICT_EN = false) :
    ∃ r : State, (ch ≠ 1 ∨ p.tag ≠ 16 ∨ s.live = false → exec (.messageReceive n ch) s = .next r) ∧
      (ch = 1 → p.tag = 16 → s.live = true → exec (.messageReceive n ch) s =
        .next ((s.groupParts p.src p.body).foldl (fun t q => t.overrunMessage q p.src (p.body.take 16)) r)) ∧
      r.fld (Reg.MSH_MSG_HEAD.INDEX ch 1) = (s.fld (Reg.MSH_MSG_HEAD.INDEX ch 1) + 1) % 2 ^ 16 ∧
      r.num (s.rxSlot ch) 1 = s.ownLogical % 256 ∧ r.num (s.rxSlot ch + 1) 1 = p.src % 256 ∧ r.num (s.rxSlot ch + 2) 2 = p.tag % 2 ^ 16 ∧
      r.num (s.rxSlot ch + 8) 8 = p.stamp.toNat ∧ r.bytes (s.rxSlot ch + 64) (p.body.take p.tag).length = p.body.take p.tag ∧
      s.keepsMem r (s.rxSlot ch) (64 + (p.body.take p.tag).length) ∧ r.flag Reg.MSH_STATUS.MSG_RX = true ∧
      (r.port n).packets = (s.port n).packets.erase p ∧ s.keepsRegs r ([Reg.MSH_MSG_HEAD ch 1, Reg.MSH_STATUS] ++ hearthRegs) := by
  have hch0 : (ch : Nat) = 0 → s.flag Reg.SLG_CTRL.VERDICT_EN = false := fun h => hverdict (Fin.ext h)
  have hch1 : ch = 1 ↔ (ch : Nat) = 1 := Fin.ext_iff
  have hkept := messageReceive_kept hp hfull hch0
  obtain ⟨hmem, hport, hhead, hflag, hkeep⟩ := s.messageKept_spec n ch p
  obtain ⟨hkeepMem, hpackets, hkeepRegs⟩ := s.messageStored_spec n ch p
  have hnums := State.write_messageBytes ((s.takePacket n p).pass (s.rxSlot ch) (64 + p.tag) true) s (s.rxSlot ch) p
  rw [← State.messageStored, ← State.num_congr hmem, ← State.num_congr hmem, ← State.num_congr hmem, ← State.num_congr hmem,
    ← State.bytes_congr hmem] at hnums
  obtain ⟨hown, hsrc, htag, hstamp, hbody⟩ := hnums
  refine ⟨s.messageKept n ch p, fun h => ?_, fun hch htag hlive => ?_, hhead, hown, hsrc, htag, hstamp, hbody, fun x hx => ?_, hflag,
    by rw [hport, hpackets], hkeepRegs.trans hkeep (by simp) (by simp)⟩
  · rw [exec_messageReceive, messageTaken_plain hp (h.imp_left fun hne h1 => hne (hch1.2 h1)), hkept]
  · rw [exec_messageReceive, messageTaken_overrun hp hfull (hch1.1 hch) htag hlive, hkept]
  · rw [State.byte_congr hmem, hkeepMem x hx]

end

/-- Settles O52: what the rows of loads, stores and messages do, each by the lemmas on its own row. -/
theorem loadsStoresAndMessages : Obligations.LoadsStoresAndMessages := by
  unfold Obligations.LoadsStoresAndMessages
  refine ⟨fun n s p hp => loadstoreRequest_spec hp, ?_, ?_, ?_, ?_⟩
  · intro n s p hp hwaits hacc code data
    refine ⟨fun ho => ?_, fun o m ho hm => ?_, fun o ho hm hop hcode hdata => ?_⟩
    · obtain ⟨hcount, hflag, hpackets, hframe, hkeep⟩ := s.lateResponse_spec n p
      have hlate : (s.lateResponse n p).lateTags = s.lateTags.erase p.tag := by rw [hframe]
      have hlogs : (s.lateResponse n p).logs = s.logs := by rw [hframe]
      refine ⟨_, exec_loadstoreResponse_of (loadstoreResponse_late hp ho) hlogs hacc, hcount, hflag, hlate, hpackets, ?_, hkeep⟩
      rw [hlate]
      exact hframe
    · obtain ⟨hout, hpackets, hframe⟩ := s.closed_takePacket n p o
      refine ⟨_, exec_loadstoreResponse_mover hp hwaits hacc ho hm, ?_, hout, hpackets, ?_⟩
      · rw [State.moverResponse, State.mover_setMover_same]
        rfl
      · rw [State.moverResponse]
        generalize (s.takePacket n p).closed o = q at hframe
        rw [hframe]
        rfl
    · obtain ⟨hout, -, hframe⟩ := s.closed_takePacket n p o
      refine ⟨_, exec_loadstoreResponse_firmware hp hwaits hacc ho hm hop hcode hdata, List.getLast?_concat, hout, ?_⟩
      rw [State.firmwareResponse]
      generalize (s.takePacket n p).closed o = q at hframe
      rw [hframe]
      rfl
  · intro tag s
    refine ⟨fun ho => congrArg _ (loadstoreTimeout_unknown ho), fun o ho ht => congrArg _ (loadstoreTimeout_early ho ht), fun o ho ht hwaits => ?_⟩
    exact ⟨fun m hm => loadstoreTimeout_mover_spec ho ht hwaits hm, loadstoreTimeout_firmware_spec ho ht hwaits⟩
  · intro v s hlive
    refine ⟨_, exec_msgKick hlive v, ?_⟩
    obtain ⟨hctrl, hmem, hheads, hkeep⟩ := s.kicked_spec v
    obtain ⟨hw, hwkeep⟩ := s.onlyRegs_mshWritten v
    cases bitOf v.toNat 2 with
    | false =>
      rw [if_neg Bool.false_ne_true]
      refine ⟨?_, by rw [hw], fun _ => ⟨hw, hwkeep⟩, fun h => absurd h Bool.false_ne_true⟩
      rw [State.mshWritten, State.reg_setReg_same]
    | true =>
      rw [if_pos rfl]
      exact ⟨hctrl, hmem, fun h => absurd h Bool.noConfusion, fun _ => ⟨hheads, hkeep, fun ch hch h hpos hlen hrest =>
        State.kicked_single hch h hpos hlen hrest⟩⟩
  · intro n ch s p hp
    exact ⟨fun hfull => congrArg _ (messageTaken_full hp hfull), fun hfull hverdict => messageReceive_spec hp hfull hverdict⟩

end Sys2Proof.Machine
end

section
/-! PROOFS. The statement of 13_mesh.md on COLLECTIVE_CONTRIBUTION (R323, R326, R327). -/
namespace Sys2Proof.Machine

/-! ## The collective of a key -/

section
variable {s : State} {c d : Collective} {k : Nat × Nat × Nat × Nat}

theorem State.key_of_coll (h : s.coll k = some c) : c.key = k := by
  have := List.find?_some h
  exact eq_of_beq this

theorem State.mem_of_coll (h : s.coll k = some c) : c ∈ s.collectives := List.mem_of_find?_eq_some h

/-- The collective that another of its key replaces. -/
theorem State.coll_putColl (hc : c ∈ s.collectives) (hk : d.key = c.key) : (s.putColl d).coll c.key = some d := by
  have hmap (l : List Collective) (hl : c ∈ l) : (l.map fun x => if x.key = d.key then d else x).find? (·.key == c.key) = some d := by
    induction l with
    | nil => exact absurd hl List.not_mem_nil
    | cons x l ih =>
      rw [List.map_cons, List.find?_cons]
      by_cases hx : x.key = d.key
      · simp [hx, hk]
      · have hne : (x.key == c.key) = false := beq_eq_false_iff_ne.2 (by rwa [hk] at hx)
        have hmem : c ∈ l := (List.mem_cons.1 hl).resolve_left fun h => hx (by rw [← h, hk])
        rw [if_neg hx, hne]
        exact ih hmem
  exact hmap _ hc

end

/-! ## A collective that ends ABORTED -/

/-- Every record of a step in a partition has a cause. -/
def State.stepBad (s : State) (p n : Nat) : Prop := ∀ o ∈ (s.part p).steps, o.n = n → o.cause ≠ 0

theorem State.stepBad_markStep (s : State) (p n : Nat) {cause : Nat} (hc : cause ≠ 0) : (s.markStep p n cause).stepBad p n := by
  intro o ho hn
  rw [State.markStep, State.modPart, State.part_setPart_same] at ho
  obtain ⟨x, -, rfl⟩ := List.mem_map.1 ho
  by_cases hx : x.n = n ∧ x.cause = 0
  · rw [if_pos hx]
    exact hc
  · rw [if_neg hx] at hn ⊢
    exact fun h => hx ⟨hn, h⟩

section
variable {s : State} {c : Collective}

/-- The collective that has ended ABORTED and keeps its record. -/
def Collective.ended (c : Collective) : Collective := { c with got := [], abort := some true }

theorem State.collAbort_new (h : c.abort = none) : s.collAbort c true = (s.putColl c.ended).markStep c.part c.step 5 := by
  have hnew : ({ c with got := [], abort := some (true && c.abort.getD true) } : Collective) = c.ended := by rw [h]; rfl
  unfold State.collAbort
  rw [hnew]
  exact if_neg (by simp [h])

theorem State.collAbort_spec (hc : c ∈ s.collectives ∨ ∃ d ∈ s.collectives, d.key = c.key) (h : c.abort = none) :
    (s.collAbort c true).coll c.key = some c.ended ∧ (s.collAbort c true).stepBad c.part c.step ∧
      s.collAbort c true = { s with collectives := (s.collAbort c true).collectives, parts := (s.collAbort c true).parts } := by
  obtain ⟨d, hd, hk⟩ : ∃ d ∈ s.collectives, d.key = c.key := hc.elim (fun h => ⟨c, h, rfl⟩) id
  rw [State.collAbort_new h]
  refine ⟨?_, State.stepBad_markStep _ _ _ (by decide), rfl⟩
  have hput := State.coll_putColl (d := c.ended) hd hk.symm
  rwa [hk] at hput

end

/-! ## The row -/

section
variable {n : Fin 5} {vc : Fin 8} {s : State} {p : Packet}

theorem exec_collectiveContribution (n : Fin 5) (vc : Fin 8) (s : State) :
    exec (.collectiveContribution n vc) s = .next (collectiveContribution n vc s) := rfl

theorem State.takePacket_frame (s : State) (n : Nat) (p : Packet) :
    s.takePacket n p = { s with ports := (s.takePacket n p).ports, out := (s.takePacket n p).out } := (s.takePacket_spec n p).1

theorem State.packets_takePacket (s : State) (n : Nat) (p : Packet) :
    ((s.takePacket n p).port n).packets = (s.port n).packets.erase p := (s.takePacket_spec n p).2.1

/-- A contribution of another EPOCH has been dropped. -/
def State.epochDropped (s : State) (n : Nat) (p : Packet) : State := (s.takePacket n p).epochDrop p

theorem State.epochDropped_spec (s : State) (n : Nat) (p : Packet) :
    (s.epochDropped n p).reg Reg.MSH_EPOCH_DROP = s.reg Reg.MSH_EPOCH_DROP + BitVec.ofNat 32 p.frames.length ∧
      ((s.epochDropped n p).port n).packets = (s.port n).packets.erase p ∧
      s.epochDropped n p = { s with regs := (s.epochDropped n p).regs, ports := (s.epochDropped n p).ports, out := (s.epochDropped n p).out } ∧
      s.keepsRegs (s.epochDropped n p) [Reg.MSH_EPOCH_DROP] := by
  have hframe := s.takePacket_frame n p
  have hpackets := s.packets_takePacket n p
  have hregs := s.regs_takePacket n p
  rw [State.epochDropped]
  generalize s.takePacket n p = u at hframe hpackets hregs
  obtain ⟨hu, hkeep⟩ : u.onlyRegs (u.epochDrop p) [Reg.MSH_EPOCH_DROP] := (State.onlyRegs.refl u _).setReg _ (by simp)
  refine ⟨?_, ?_, ?_, (State.keepsRegs_of_regs hregs []).trans hkeep (by simp) (List.Subset.refl _)⟩
  · rw [State.epochDrop, State.reg_setReg_same, State.reg_congr hregs]
  · rw [← hpackets, hu]
    rfl
  · generalize u.epochDrop p = r at hu
    rw [hu, hframe]

section
variable (hp : s.firstPacket n (fun p => p.kind == 3 && p.vc == vc.val) = some p)
include hp

theorem collectiveContribution_epoch (he : p.epoch ≠ s.fld (Reg.MSH_P_CTRL.EPOCH (s.groupPart p.group))) :
    collectiveContribution n vc s = s.epochDropped n p := by
  unfold collectiveContribution
  rw [hp]
  exact if_pos he

variable (he : p.epoch = s.fld (Reg.MSH_P_CTRL.EPOCH (s.groupPart p.group)))
include he

theorem collectiveContribution_ending {c : Collective} (hc : s.coll (p.contribution (s.groupPart p.group)).key = some c) (ha : c.abort.isSome = true) :
    collectiveContribution n vc s = s.takePacket n p := by
  unfold collectiveContribution
  rw [hp]
  dsimp only
  rw [if_neg (not_not.2 he), hc]
  exact if_pos ha

theorem collectiveContribution_joins {c : Collective} (hc : s.coll (p.contribution (s.groupPart p.group)).key = some c) (ha : c.abort = none) :
    collectiveContribution n vc s =
      ((s.takePacket n p).putColl { c with got := c.got ++ [p.contribution (s.groupPart p.group)] }).collAdvance c.key := by
  unfold collectiveContribution
  rw [hp]
  dsimp only
  rw [if_neg (not_not.2 he), hc]
  exact if_neg (by simp [ha])

variable (hnone : s.coll (p.contribution (s.groupPart p.group)).key = none)
include hnone

theorem collectiveContribution_over (hrec : s.collRecords.any (·.key == (p.contribution (s.groupPart p.group)).key) = true) :
    collectiveContribution n vc s = s.takePacket n p := by
  unfold collectiveContribution
  rw [hp]
  dsimp only
  rw [if_neg (not_not.2 he), hnone]
  exact if_pos hrec

theorem collectiveContribution_early (hrec : s.collRecords.any (·.key == (p.contribution (s.groupPart p.group)).key) = false)
    (hbase : s.stageBase (s.groupPart p.group) ≠ 0) : collectiveContribution n vc s =
      match s.stagePlace (p.contribution (s.groupPart p.group)) with
      | none => s.setFlag (Reg.MSH_P_STATUS.STAGE_FULL (s.groupPart p.group)) true
      | some place => (s.takePacket n p).stage (p.contribution (s.groupPart p.group)) place := by
  unfold collectiveContribution
  rw [hp]
  dsimp only
  rw [if_neg (not_not.2 he), hnone]
  refine (if_neg (by rw [hrec]; exact Bool.false_ne_true)).trans ((if_neg hbase).trans ?_)
  cases s.stagePlace (p.contribution (s.groupPart p.group)) <;> rfl

end

/-! ### A contribution that joins -/

theorem State.disagrees_of_regs {r : State} (h : r.regs = s.regs) (c : Collective) : r.disagrees c = s.disagrees c := by
  have hreg (o : Nat) : r.reg o = s.reg o := State.reg_congr h o
  have hown : r.ownLogical = s.ownLogical := by rw [State.ownLogical, State.ownLogical, State.fld_of_regs h, State.fld_of_regs h]
  have hmembers (g : Nat) : r.members g = s.members g := by
    rw [State.members, State.members, State.groupMask, State.groupMask, State.reg64, State.reg64, hreg, hreg]
  rw [State.disagrees, State.disagrees, hown, hmembers]

section
variable {c : Collective} {x : Contribution}

/-- The collective with one contribution more. -/
def Collective.joined (c : Collective) (x : Contribution) : Collective := { c with got := c.got ++ [x] }

/-- The state in which a contribution has joined, before what follows from it. -/
def State.joined (s : State) (n : Nat) (p : Packet) (c : Collective) (x : Contribution) : State := (s.takePacket n p).putColl (c.joined x)

theorem State.joined_spec (s : State) (n : Nat) (p : Packet) {c : Collective} (x : Contribution) (hc : c ∈ s.collectives) :
    (s.joined n p c x).coll c.key = some (c.joined x) ∧ ((s.joined n p c x).port n).packets = (s.port n).packets.erase p ∧
      (s.joined n p c x).regs = s.regs ∧
      s.joined n p c x = { s with
        ports := (s.joined n p c x).ports, out := (s.joined n p c x).out, collectives := (s.joined n p c x).collectives } := by
  have hframe := s.takePacket_frame n p
  have hpackets := s.packets_takePacket n p
  have hregs := s.regs_takePacket n p
  rw [State.joined]
  generalize s.takePacket n p = u at hframe hpackets hregs
  have hcolls : u.collectives = s.collectives := by rw [hframe]
  refine ⟨State.coll_putColl (by rwa [hcolls]) rfl, hpackets, hregs, ?_⟩
  rw [State.putColl, hframe]

theorem collAdvance_agrees {q : State} (hq : q.coll c.key = some c) (ha : c.abort = none) (hd : q.disagrees c = false) (hk : c.kind ≠ 3) :
    q.collAdvance c.key = q := by
  unfold State.collAdvance
  rw [hq]
  refine (if_neg (by simp [ha])).trans ((if_neg (by simp [hd])).trans (if_neg fun h => hk h.1))

theorem collAdvance_disagrees {q : State} (hq : q.coll c.key = some c) (ha : c.abort = none) (hd : q.disagrees c = true) :
    q.collAdvance c.key = q.collAbort c true := by
  unfold State.collAdvance
  rw [hq]
  exact (if_neg (by simp [ha])).trans (if_pos hd)

end

/-! ### A contribution that is staged -/

/-- A contribution as it is staged: its header and its data (log 51). -/
def Contribution.bytes (x : Contribution) : List Byte :=
  natLE 2 x.source ++ natLE 1 x.epoch ++ natLE 1 (ofBool x.header) ++ natLE 6 x.step ++ natLE 2 x.seq ++ natLE 8 x.off ++
    natLE 4 x.data.length ++ natLE 8 0 ++ x.data

theorem Contribution.length_bytes (x : Contribution) : x.bytes.length = 32 + x.data.length := by
  simp [Contribution.bytes]
  omega

theorem Contribution.drop_bytes (x : Contribution) : x.bytes.drop 32 = x.data := by
  rw [Contribution.bytes]
  exact List.drop_left' (by simp)

/-- The state in which a contribution has been written to the staging area at `a`. -/
def State.stagedAt (s : State) (x : Contribution) (a : Nat) : State := (s.pass a x.bytes.length true).write a x.bytes

theorem State.stage_eq (s : State) (x : Contribution) (place : Nat) : s.stage x place =
    { s.stagedAt x ((s.stageBase x.part + place) % 2 ^ 54) with
      staging := (s.stagedAt x ((s.stageBase x.part + place) % 2 ^ 54)).staging ++ [{ x with place := place }] } := rfl

theorem State.stagedAt_spec (s : State) (x : Contribution) (a : Nat) :
    (s.stagedAt x a).bytes (a + 32) x.data.length = x.data ∧ s.keepsMem (s.stagedAt x a) a (32 + x.data.length) ∧
      s.keepsRegs (s.stagedAt x a) hearthRegs ∧ (s.stagedAt x a).ports = s.ports ∧ (s.stagedAt x a).staging = s.staging := by
  have hpass := s.onlyHearth_pass a x.bytes.length true
  rw [State.stagedAt]
  generalize s.pass a x.bytes.length true = u at hpass
  have hw := State.write_onlyMem (s := u) (a := a) (d := x.bytes)
  have hmem := hpass.mem
  obtain ⟨hu, hkeep⟩ := hpass
  refine ⟨?_, ?_, hkeep.trans (State.keepsRegs_of_regs (State.regs_write _ _ _) []) (List.Subset.refl _) (by simp), ?_, ?_⟩
  · rw [State.bytes_write_part _ _ _ (by rw [x.length_bytes]), x.drop_bytes, List.take_length]
  · rw [← x.length_bytes]
    intro y hy
    rw [State.keepsMem_write _ _ _ y hy, State.byte_congr hmem]
  · rw [hw, hu]
  · rw [hw, hu]

/-- A contribution that is staged. -/
theorem State.stage_spec (s : State) (x : Contribution) (place : Nat) :
    (s.stage x place).staging = s.staging ++ [{ x with place := place }] ∧
      (s.stage x place).bytes ((s.stageBase x.part + place) % 2 ^ 54 + 32) x.data.length = x.data ∧
      s.keepsMem (s.stage x place) ((s.stageBase x.part + place) % 2 ^ 54) (32 + x.data.length) ∧ s.keepsRegs (s.stage x place) hearthRegs ∧
      (s.stage x place).ports = s.ports := by
  have heq := s.stage_eq x place
  obtain ⟨hdata, hmem, hkeep, hports, hstaging⟩ := s.stagedAt_spec x ((s.stageBase x.part + place) % 2 ^ 54)
  generalize s.stagedAt x ((s.stageBase x.part + place) % 2 ^ 54) = u at heq hdata hmem hkeep hports hstaging
  generalize s.stage x place = r at heq
  have hm : r.mem = u.mem := by rw [heq]
  have hr : r.regs = u.regs := by rw [heq]
  refine ⟨by rw [heq, hstaging], (State.bytes_congr hm _ _).trans hdata, fun y hy => (State.byte_congr hm y).trans (hmem y hy),
    hkeep.trans (State.keepsRegs_of_regs hr []) (List.Subset.refl _) (by simp), by rw [heq, hports]⟩

/-! ### The statement on the row -/

section
variable (hp : s.firstPacket n (fun p => p.kind == 3 && p.vc == vc.val) = some p)
include hp

/-- A contribution of the own EPOCH to a collective under way. -/
theorem collectiveContribution_joins_spec (he : p.epoch = s.fld (Reg.MSH_P_CTRL.EPOCH (s.groupPart p.group))) {c : Collective}
    (hc : s.coll (p.contribution (s.groupPart p.group)).key = some c) (ha : c.abort = none) :
    (s.disagrees (c.joined (p.contribution (s.groupPart p.group))) = false → c.kind ≠ 3 →
      ∃ r, (exec (.collectiveContribution n vc) s = .next r ∧ (r.port n).packets = (s.port n).packets.erase p) ∧
        r.coll (p.contribution (s.groupPart p.group)).key = some (c.joined (p.contribution (s.groupPart p.group))) ∧
        r = { s with ports := r.ports, out := r.out, collectives := r.collectives }) ∧
    (s.disagrees (c.joined (p.contribution (s.groupPart p.group))) = true →
      ∃ r, (exec (.collectiveContribution n vc) s = .next r ∧ (r.port n).packets = (s.port n).packets.erase p) ∧
        r.coll (p.contribution (s.groupPart p.group)).key = some c.ended ∧ r.stepBad c.part c.step ∧ r.mem = s.mem ∧ s.keepsRegs r []) := by
  have hrow := (exec_collectiveContribution n vc s).trans (congrArg _ (collectiveContribution_joins hp he hc ha))
  have hkey := State.key_of_coll hc
  rw [← hkey]
  generalize p.contribution (s.groupPart p.group) = x at *
  have hjoined := s.joined_spec n p x (State.mem_of_coll hc)
  rw [State.joined] at hjoined
  rw [Collective.joined] at hjoined ⊢
  generalize (s.takePacket n p).putColl { c with got := c.got ++ [x] } = q at hrow hjoined
  obtain ⟨hcoll, hpackets, hregs, hframe⟩ := hjoined
  refine ⟨fun hd hk => ⟨q, ⟨?_, hpackets⟩, hcoll, hframe⟩, fun hd => ?_⟩
  · rw [hrow]
    exact congrArg _ (collAdvance_agrees (c := { c with got := c.got ++ [x] }) hcoll ha (by rw [State.disagrees_of_regs hregs, hd]) hk)
  · have hadvance : q.collAdvance c.key = _ := collAdvance_disagrees (c := { c with got := c.got ++ [x] }) hcoll ha (by rw [State.disagrees_of_regs hregs, hd])
    obtain ⟨hended, hbad, hends⟩ := State.collAbort_spec (s := q) (c := { c with got := c.got ++ [x] }) (.inl (State.mem_of_coll hcoll)) ha
    rw [← hadvance] at hended hbad hends
    generalize q.collAdvance c.key = r at *
    refine ⟨r, ⟨hrow, ?_⟩, hended, hbad, ?_, ?_⟩
    · rw [hends]
      exact hpackets
    · rw [hends, hframe]
    · refine State.keepsRegs_of_regs ?_ _
      rw [hends, hregs]

/-- A contribution of the own EPOCH to a collective that is not under way. -/
theorem collectiveContribution_early_spec (he : p.epoch = s.fld (Reg.MSH_P_CTRL.EPOCH (s.groupPart p.group)))
    (hnone : s.coll (p.contribution (s.groupPart p.group)).key = none)
    (hrec : s.collRecords.any (·.key == (p.contribution (s.groupPart p.group)).key) = false)
    (hbase : s.stageBase (s.groupPart p.group) ≠ 0) :
    (s.stagePlace (p.contribution (s.groupPart p.group)) = none → ∃ r, exec (.collectiveContribution n vc) s = .next r ∧
      r.flag (Reg.MSH_P_STATUS.STAGE_FULL (s.groupPart p.group)) = true ∧ s.onlyRegs r [Reg.MSH_P_STATUS (s.groupPart p.group)]) ∧
    (∀ place, s.stagePlace (p.contribution (s.groupPart p.group)) = some place →
      ∃ r, (exec (.collectiveContribution n vc) s = .next r ∧ (r.port n).packets = (s.port n).packets.erase p) ∧
        r.staging = s.staging ++ [{ p.contribution (s.groupPart p.group) with place := place }] ∧
        r.bytes ((s.stageBase (s.groupPart p.group) + place) % 2 ^ 54 + 32) (p.contribution (s.groupPart p.group)).data.length =
          (p.contribution (s.groupPart p.group)).data ∧
        s.keepsMem r ((s.stageBase (s.groupPart p.group) + place) % 2 ^ 54) (32 + (p.contribution (s.groupPart p.group)).data.length) ∧
        s.keepsRegs r hearthRegs) := by
  have hrow := (exec_collectiveContribution n vc s).trans (congrArg _ (collectiveContribution_early hp he hnone hrec hbase))
  have hpart : (p.contribution (s.groupPart p.group)).part = s.groupPart p.group := rfl
  generalize p.contribution (s.groupPart p.group) = x at *
  generalize s.groupPart p.group = part at *
  refine ⟨fun hplace => ?_, fun place hplace => ?_⟩
  · rw [hplace] at hrow
    exact ⟨_, hrow, State.flag_setFlag_same _ (Reg.MSH_P_STATUS.STAGE_FULL part) true (by simp) rfl, (State.onlyRegs.refl s _).setFlag _ (by simp)⟩
  · rw [hplace] at hrow
    have hframe := s.takePacket_frame n p
    have hpackets := s.packets_takePacket n p
    have hregs := s.regs_takePacket n p
    have hmem := s.mem_takePacket n p
    dsimp only at hrow
    generalize s.takePacket n p = u at *
    obtain ⟨hstaging, hdata, hkeep, hkeepRegs, hports⟩ := u.stage_spec x place
    have hbase' : u.stageBase x.part = s.stageBase part := by
      rw [hpart, State.stageBase, State.stageBase, State.fld_of_regs hregs, State.fld_of_regs hregs]
    rw [hbase'] at hdata hkeep
    refine ⟨_, ⟨hrow, ?_⟩, ?_, hdata, fun y hy => (hkeep y hy).trans (State.byte_congr hmem y),
      (State.keepsRegs_of_regs hregs []).trans hkeepRegs (by simp) (List.Subset.refl _)⟩
    · rw [← hpackets, State.port, hports, State.port]
    · rw [hstaging, hframe]

end

end

end Sys2Proof.Machine
end

section
/-! PROOFS. The statement of 13_mesh.md on COLLECTIVE_COMPLETE, COLL_TIMEOUT and ABORT (R321, R323, R324, R326). -/
namespace Sys2Proof.Machine

/-! ## A collective ends -/

section
variable {s : State} {c : Collective}

/-- What the end of a collective leaves alone: memory and the registers; the collective is gone, and its record is the last. -/
structure State.Ended (s r : State) (c : Collective) (keep : Bool) (aborted : Bool) : Prop where
  mem : r.mem = s.mem
  regs : r.regs = s.regs
  gone : r.coll c.key = none
  record : keep = true → r.collRecords.getLast? = some ⟨c.part, c.epoch, c.step, c.seq, aborted⟩

theorem State.getLast?_addRecord (s : State) (x : CollRecord) : (s.addRecord x).collRecords.getLast? = some x := List.getLast?_concat

theorem State.ended_collEnd (s : State) (c : Collective) (aborted keep : Bool) : s.Ended (s.collEnd c aborted keep) c keep aborted := by
  have hgone : (s.collectives.filter (fun x => !(x.key == c.key))).find? (·.key == c.key) = none :=
    List.find?_eq_none.2 fun x hx => by simpa using (List.mem_filter.1 hx).2
  cases keep with
  | true => exact ⟨rfl, rfl, hgone, fun _ => State.getLast?_addRecord _ _⟩
  | false => exact ⟨rfl, rfl, hgone, fun h => absurd h Bool.false_ne_true⟩

theorem State.Ended.markStep {r : State} {keep aborted : Bool} (h : s.Ended r c keep aborted) (p n cause : Nat) :
    s.Ended (r.markStep p n cause) c keep aborted := by
  obtain ⟨hmem, hregs, hgone, hrecord⟩ := h
  exact ⟨hmem, hregs, hgone, hrecord⟩

/-! ## STATUS -/

/-- STATUS of a collective is written (R321). -/
def State.statusWrite (s : State) (c : Collective) (v : Nat) : EngineEnd × State :=
  s.engineWrites c.key c.mover c.part c.table [(c.desc + 56, natLE 8 v)]

theorem State.collStatus_whole (ha : c.abort = none) (hw : (s.statusWrite c (2 ^ 63)).1 = .done) :
    (s.statusWrite c (2 ^ 63)).2.Ended (s.collStatus c) c true false := by
  have hval : 2 ^ 63 + ofBool c.abort.isSome = 2 ^ 63 := by rw [ha]; rfl
  have hend := (s.statusWrite c (2 ^ 63)).2.ended_collEnd c false true
  have hbad := hend.markStep c.part c.step 6
  unfold State.collStatus
  rw [hval, ← State.statusWrite]
  dsimp only
  rw [hw, ha]
  dsimp only
  split
  · exact hbad
  · exact hend

theorem State.collStatus_aborted {keep : Bool} (ha : c.abort = some keep) (hw : (s.statusWrite c (2 ^ 63 + 1)).1 ≠ .waits) :
    (s.statusWrite c (2 ^ 63 + 1)).2.Ended (s.collStatus c) c keep true := by
  have hval : 2 ^ 63 + ofBool c.abort.isSome = 2 ^ 63 + 1 := by rw [ha]; rfl
  have hend := (s.statusWrite c (2 ^ 63 + 1)).2.ended_collEnd c true keep
  unfold State.collStatus
  rw [hval, ← State.statusWrite]
  dsimp only
  rw [ha]
  cases hcase : (s.statusWrite c (2 ^ 63 + 1)).1 with
  | done => exact hend
  | fault => exact hend
  | waits => exact absurd hcase hw

/-! ## The row -/

section
variable {i : Nat} (hc : s.collectives[i]? = some c)
include hc

theorem collectiveComplete_aborted (ha : c.abort.isSome = true) : collectiveComplete i s = s.collStatus c := by
  unfold collectiveComplete
  rw [hc]
  exact if_pos ha

theorem collectiveComplete_written (ha : c.abort = none) (hw : c.written = true) :
    collectiveComplete i s = if s.writesOut c.key then s else s.collStatus c := by
  unfold collectiveComplete
  rw [hc]
  exact (if_neg (by simp [ha])).trans (if_pos hw)

/-- The results of a whole collective are written. -/
def State.resultWrites (s : State) (c : Collective) : EngineEnd × State := s.engineWrites c.key c.mover c.part c.table (s.collWrites c)

/-- The collective whose results have been written. -/
def Collective.done (c : Collective) : Collective := { c with written := true }

/-- The state in which the results of a collective have been written. -/
def State.resultsWritten (s : State) (c : Collective) : State := (s.resultWrites c).2.took.putColl c.done

theorem collectiveComplete_whole (ha : c.abort = none) (hw : c.written = false) (hall : s.collWhole c = true)
    (hout : s.writesOut c.key = false) (hdone : (s.resultWrites c).1 = .done) :
    collectiveComplete i s = if (s.resultWrites c).2.writesOut c.key then s.resultsWritten c else (s.resultsWritten c).collStatus c.done := by
  have hwrites : (s.resultsWritten c).writesOut c.key = (s.resultWrites c).2.writesOut c.key := by
    rw [State.resultsWritten]
    generalize (s.resultWrites c).2 = u
    rfl
  unfold collectiveComplete
  rw [hc]
  dsimp only
  rw [if_neg (by simp [ha]), if_neg (by simp [hw]), if_neg (by simp [hall, hout]), ← State.resultWrites, if_pos hdone, ← Collective.done,
    ← State.resultsWritten, hwrites]

end

theorem exec_collectiveComplete (i : Nat) (s : State) : exec (.collectiveComplete i) s = .next (collectiveComplete i s) := rfl

/-! ## COLL_TIMEOUT -/

section
variable {i : Nat}

theorem exec_collTimeout (i : Nat) (s : State) : exec (.collTimeout i) s = .next (collTimeout i s) := rfl

theorem collTimeout_coll (hc : s.collectives[i]? = some c) : collTimeout i s =
    if c.handed.toNat + 1024 * max 1 (s.fld Reg.MSH_COLL_TO.STRIKES) ≤ s.tick then s.collAbort c true else s := by
  unfold collTimeout
  rw [hc]
  dsimp only
  simp only [decide_eq_true_eq]

/-- A broadcast unit that has timed out. -/
def State.bcastAborted (s : State) (b : Broadcast) : State :=
  { s with broadcasts := s.broadcasts.map (fun x => if x = b then { x with aborted := true } else x) }

theorem collTimeout_broadcast {b : Broadcast} (hc : s.collectives[i]? = none) (hb : s.broadcasts[i - s.collectives.length]? = some b)
    (ha : b.aborted = false) (hw : b.waiting ≠ []) (ht : b.since.toNat + 1024 * max 1 (s.fld Reg.MSH_COLL_TO.STRIKES) ≤ s.tick) :
    collTimeout i s = match (s.bcastAborted b).moverPart b.mover with
      | some p => (s.bcastAborted b).markStep p ((s.bcastAborted b).stepNo p) 5
      | none => s.bcastAborted b := by
  unfold collTimeout
  rw [hc, hb]
  dsimp only
  refine (if_pos ⟨decide_eq_true ht, ha, by simpa using hw⟩).trans ?_
  rw [← State.bcastAborted] <;> cases (s.bcastAborted b).moverPart b.mover <;> rfl

end

/-! ## The statements on the rows -/

/-- A collective whose STATUS is written ends. -/
theorem State.Ended.spec {i : Nat} {q : State} {keep aborted : Bool} (h : q.Ended (s.collStatus c) c keep aborted)
    {u : State} (hrow : collectiveComplete i u = s.collStatus c) :
    ∃ r, exec (.collectiveComplete i) u = .next r ∧ r.mem = q.mem ∧ r.coll c.key = none ∧
      (keep = true → r.collRecords.getLast? = some ⟨c.part, c.epoch, c.step, c.seq, aborted⟩) ∧ q.keepsRegs r [] := by
  obtain ⟨hmem, hregs, hgone, hrecord⟩ := h
  exact ⟨_, (exec_collectiveComplete i u).trans (congrArg _ hrow), hmem, hgone, hrecord, State.keepsRegs_of_regs hregs _⟩

/-- A collective whose results are written ends once STATUS is. -/
theorem collectiveComplete_status {i : Nat} {q : State} {d : Collective} (hd : d = c ∨ d = c.done) (ha : c.abort = none)
    (hrow : collectiveComplete i s = q.collStatus d) :
    let w := q.engineWrites c.key c.mover c.part c.table [(c.desc + 56, natLE 8 (2 ^ 63))]
    w.1 = .done → ∃ r, exec (.collectiveComplete i) s = .next r ∧ r.mem = w.2.mem ∧ r.coll c.key = none ∧
      r.collRecords.getLast? = some ⟨c.part, c.epoch, c.step, c.seq, false⟩ ∧ w.2.keepsRegs r [] := by
  intro w hw
  have hda : d.abort = none := by rcases hd with rfl | rfl <;> exact ha
  have hwrite : q.statusWrite d (2 ^ 63) = w := by rcases hd with rfl | rfl <;> rfl
  have hend := State.collStatus_whole hda (by rw [hwrite, hw])
  rw [hwrite] at hend
  obtain ⟨r, hr, hmem, hgone, hrecord, hkeep⟩ := hend.spec hrow
  have hlast := hrecord rfl
  rcases hd with rfl | rfl
  · exact ⟨r, hr, hmem, hgone, hlast, hkeep⟩
  · exact ⟨r, hr, hmem, hgone, hlast, hkeep⟩

/-- A whole collective whose results are written now. -/
theorem collectiveComplete_results_spec {i : Nat} (hc : s.collectives[i]? = some c) (ha : c.abort = none) (hw : c.written = false)
    (hall : s.collWhole c = true) (hout : s.writesOut c.key = false) (hdone : (s.resultWrites c).1 = .done) :
    ((s.resultWrites c).2.writesOut c.key = true → ∃ r, exec (.collectiveComplete i) s = .next r ∧
      r = (s.resultWrites c).2.took.putColl c.done ∧ r.mem = (s.resultWrites c).2.mem) ∧
    ((s.resultWrites c).2.writesOut c.key = false →
      let w := ((s.resultWrites c).2.took.putColl c.done).engineWrites c.key c.mover c.part c.table [(c.desc + 56, natLE 8 (2 ^ 63))]
      w.1 = .done → ∃ r, exec (.collectiveComplete i) s = .next r ∧ r.mem = w.2.mem ∧ r.coll c.key = none ∧
        r.collRecords.getLast? = some ⟨c.part, c.epoch, c.step, c.seq, false⟩ ∧ w.2.keepsRegs r []) := by
  have hrow := collectiveComplete_whole hc ha hw hall hout hdone
  rw [State.resultsWritten] at hrow
  generalize (s.resultWrites c).2 = u at hrow
  refine ⟨fun h => ?_, fun h => ?_⟩
  · exact ⟨_, (exec_collectiveComplete i s).trans (congrArg _ (hrow.trans (if_pos h))), rfl, rfl⟩
  · exact collectiveComplete_status (.inr rfl) ha (hrow.trans (if_neg (by rw [h]; exact Bool.false_ne_true)))

/-- A collective that COLL_TIMEOUT finds late. -/
theorem collTimeout_coll_spec {i : Nat} (hc : s.collectives[i]? = some c) (ht : c.handed.toNat + 1024 * max 1 (s.fld Reg.MSH_COLL_TO.STRIKES) ≤ s.tick)
    (ha : c.abort = none) : ∃ r, exec (.collTimeout i) s = .next r ∧ r.coll c.key = some c.ended ∧ r.stepBad c.part c.step ∧
      r = { s with collectives := r.collectives, parts := r.parts } := by
  obtain ⟨hended, hbad, hframe⟩ := State.collAbort_spec (s := s) (.inl (List.mem_of_getElem? hc)) ha
  refine ⟨_, (exec_collTimeout i s).trans (congrArg _ ((collTimeout_coll hc).trans (if_pos ht))), hended, hbad, hframe⟩

/-- A broadcast unit that COLL_TIMEOUT finds late. -/
theorem collTimeout_broadcast_spec {i : Nat} {b : Broadcast} (hc : s.collectives[i]? = none) (hb : s.broadcasts[i - s.collectives.length]? = some b)
    (ha : b.aborted = false) (hw : b.waiting ≠ []) (ht : b.since.toNat + 1024 * max 1 (s.fld Reg.MSH_COLL_TO.STRIKES) ≤ s.tick) :
    ∃ r, exec (.collTimeout i) s = .next r ∧
      r.broadcasts = s.broadcasts.map (fun x => if x = b then { x with aborted := true } else x) ∧
      r = { s with broadcasts := r.broadcasts, parts := r.parts } := by
  have hrow := (exec_collTimeout i s).trans (congrArg _ (collTimeout_broadcast hc hb ha hw ht))
  refine ⟨_, hrow, ?_⟩
  cases (s.bcastAborted b).moverPart b.mover with
  | some p => exact ⟨rfl, rfl⟩
  | none => exact ⟨rfl, rfl⟩

end

/-! ## ABORT -/

/-- A collective that has ended and holds nothing. -/
def Collective.isOver (c : Collective) : Prop := c.abort.isSome = true ∧ c.got = []

section
variable {s : State} {p : Nat}

theorem State.collectives_collAbort (s : State) (c : Collective) (keep : Bool) : (s.collAbort c keep).collectives =
    s.collectives.map (fun x => if x.key = c.key then { c with got := [], abort := some (keep && c.abort.getD true) } else x) := by
  unfold State.collAbort
  dsimp only
  split <;> rfl

theorem State.collAbort_frame (s : State) (c : Collective) (keep : Bool) :
    s.collAbort c keep = { s with collectives := (s.collAbort c keep).collectives, parts := (s.collAbort c keep).parts } := by
  unfold State.collAbort
  dsimp only
  split <;> rfl

/-- The collectives of a list end ABORTED and keep no record. -/
def State.abortAll (s : State) (l : List Collective) : State := l.foldl (fun s c => s.collAbort c false) s

theorem State.abortAll_frame (l : List Collective) (s : State) :
    s.abortAll l = { s with collectives := (s.abortAll l).collectives, parts := (s.abortAll l).parts } := by
  induction l generalizing s with
  | nil => rfl
  | cons c l ih =>
    have hrest : s.abortAll (c :: l) = (s.collAbort c false).abortAll l := rfl
    have hframe := s.collAbort_frame c false
    have hih := ih (s.collAbort c false)
    rw [hrest]
    generalize (s.collAbort c false).abortAll l = r at hih
    rw [hih, hframe]

/-- Each collective after the ends of a list is over, or is one of those before that the list does not name. -/
theorem State.collectives_abortAll (l : List Collective) (s : State) :
    ∀ x ∈ (s.abortAll l).collectives, x.isOver ∨ (x ∈ s.collectives ∧ ∀ c ∈ l, c.key ≠ x.key) := by
  induction l generalizing s with
  | nil => exact fun x hx => .inr ⟨hx, fun c hc => absurd hc List.not_mem_nil⟩
  | cons c l ih =>
    intro x hx
    rcases ih (s.collAbort c false) x hx with h | ⟨hmem, hl⟩
    · exact .inl h
    · rw [s.collectives_collAbort] at hmem
      obtain ⟨y, hy, rfl⟩ := List.mem_map.1 hmem
      by_cases hk : y.key = c.key
      · rw [if_pos hk]
        exact .inl ⟨rfl, rfl⟩
      · rw [if_neg hk] at hl ⊢
        exact .inr ⟨hy, fun d hd => (List.mem_cons.1 hd).elim (fun h => h ▸ fun h' => hk h'.symm) (hl d)⟩

theorem isOver_of_abortAll (s : State) (p : Nat) {x : Collective} (hx : x ∈ (s.abortAll (s.collectives.filter (·.part == p))).collectives)
    (hp : x.part = p) : x.isOver := by
  rcases s.collectives_abortAll _ x hx with h | ⟨hmem, hl⟩
  · exact h
  · exact absurd rfl (hl x (List.mem_filter.2 ⟨hmem, by simpa using hp⟩))

/-! ### Contributions in the ports -/

/-- The packets of a list leave a port's receive buffer. -/
def State.takeAll (s : State) (n : Nat) (l : List Packet) : State := l.foldl (fun s q => s.takePacket n q) s

theorem State.takeAll_spec (n : Nat) (l : List Packet) (s : State) :
    s.takeAll n l = { s with ports := (s.takeAll n l).ports, out := (s.takeAll n l).out } ∧
      ((s.takeAll n l).port n).packets = (s.port n).packets.diff l ∧
      ∀ k, k ≠ n → ((s.takeAll n l).port k).packets = (s.port k).packets := by
  induction l generalizing s with
  | nil => exact ⟨rfl, (List.diff_nil _).symm, fun _ _ => rfl⟩
  | cons q l ih =>
    have hrest : s.takeAll n (q :: l) = (s.takePacket n q).takeAll n l := rfl
    obtain ⟨hframe, hpackets, hother⟩ := s.takePacket_spec n q
    obtain ⟨hframe', hpackets', hother'⟩ := ih (s.takePacket n q)
    rw [hrest]
    refine ⟨?_, ?_, fun k hk => (hother' k hk).trans (hother k hk)⟩
    · generalize (s.takePacket n q).takeAll n l = r at hframe'
      rw [hframe', hframe]
    · rw [hpackets', hpackets, List.diff_cons]

theorem not_mem_diff_filter {α : Type} [BEq α] [LawfulBEq α] (l : List α) (f : α → Bool) {x : α} (hf : f x = true) : x ∉ l.diff (l.filter f) := by
  rw [← List.count_eq_zero, List.count_diff, List.count_filter hf, Nat.sub_self]

/-- A contribution for a partition, as its packet shows. -/
def State.contributes (s : State) (p : Nat) (q : Packet) : Bool := q.kind == 3 && s.groupPart q.group == p

theorem State.contributes_of_regs {r : State} (h : r.regs = s.regs) (p : Nat) : r.contributes p = s.contributes p := by
  funext q
  rw [State.contributes, State.contributes, State.groupPart, State.groupPart, State.fld_of_regs h]

/-- One port's contributions for a partition are discarded. -/
def State.dropAt (s : State) (p n : Nat) : State := s.takeAll n ((s.port n).packets.filter (s.contributes p))

theorem State.dropContributions_eq (s : State) (p : Nat) : s.dropContributions p = (List.range 5).foldl (fun s n => s.dropAt p n) s := rfl

theorem State.dropAt_spec (s : State) (p n : Nat) : s.dropAt p n = { s with ports := (s.dropAt p n).ports, out := (s.dropAt p n).out } ∧
    (∀ q ∈ ((s.dropAt p n).port n).packets, s.contributes p q = false) ∧ ∀ k, k ≠ n → ((s.dropAt p n).port k).packets = (s.port k).packets := by
  obtain ⟨hframe, hpackets, hother⟩ := State.takeAll_spec n ((s.port n).packets.filter (s.contributes p)) s
  refine ⟨hframe, fun q hq => ?_, hother⟩
  rw [State.dropAt, hpackets] at hq
  exact Bool.eq_false_iff.2 fun h => not_mem_diff_filter _ _ h hq

theorem State.dropAll_spec (p : Nat) (l : List Nat) (s : State) :
    l.foldl (fun s n => s.dropAt p n) s = { s with
      ports := (l.foldl (fun s n => s.dropAt p n) s).ports, out := (l.foldl (fun s n => s.dropAt p n) s).out } ∧
    ∀ n, (n ∈ l ∨ ∀ q ∈ (s.port n).packets, s.contributes p q = false) →
      ∀ q ∈ ((l.foldl (fun s n => s.dropAt p n) s).port n).packets, s.contributes p q = false := by
  induction l generalizing s with
  | nil => exact ⟨rfl, fun n hn => hn.elim (fun h => absurd h List.not_mem_nil) id⟩
  | cons m l ih =>
    obtain ⟨hframe, hnone, hother⟩ := s.dropAt_spec p m
    obtain ⟨hframe', hnone'⟩ := ih (s.dropAt p m)
    have hregs : (s.dropAt p m).regs = s.regs := by
      generalize s.dropAt p m = r at hframe
      rw [hframe]
    rw [List.foldl_cons]
    rw [State.contributes_of_regs hregs] at hnone'
    refine ⟨?_, fun n hn => hnone' n ?_⟩
    · generalize l.foldl (fun s n => s.dropAt p n) (s.dropAt p m) = r at hframe'
      rw [hframe', hframe]
    · by_cases hm : n = m
      · subst hm
        exact .inr hnone
      · rw [hother n hm]
        exact hn.imp_left fun h => (List.mem_cons.1 h).resolve_left hm

/-! ### The row -/

/-- The state in which nothing of a partition's collectives is left in the module's lists. -/
def State.listsAborted (s : State) (p : Nat) : State :=
  { s.abortAll (s.collectives.filter (·.part == p)) with
    staging := (s.abortAll (s.collectives.filter (·.part == p))).staging.filter (fun x => x.part != p)
    collRecords := (s.abortAll (s.collectives.filter (·.part == p))).collRecords.filter (fun x => x.part != p) }

/-- The state after ABORT, but for EPOCH. -/
def State.partAborted (s : State) (p : Nat) : State := (s.listsAborted p).dropContributions p

theorem exec_abort (hlive : s.live = true) (p : Fin 12) (v : Word) : exec (.abort .firmware p v) s =
    .next ((if bitOf v.toNat 31 then s.partAborted p else s).setFld (Reg.MSH_P_CTRL.EPOCH p) (v.toNat % 256)) := by
  have hreach : s.reaches .firmware (Reg.MSH_P_CTRL p) = true := by simp [State.reaches, hlive]
  refine congrArg Host.Outcome.next ((State.byFirmwareOrRack_heard (.inl rfl) hreach _).trans ?_)
  rw [State.writeMshPart, State.partAborted, State.listsAborted, State.abortAll]

theorem State.listsAborted_frame (s : State) (p : Nat) : s.listsAborted p = { s with
    collectives := (s.listsAborted p).collectives, parts := (s.listsAborted p).parts
    staging := s.staging.filter (fun x => x.part != p), collRecords := s.collRecords.filter (fun x => x.part != p) } := by
  have hframe := State.abortAll_frame (s.collectives.filter (·.part == p)) s
  rw [State.listsAborted]
  generalize s.abortAll (s.collectives.filter (·.part == p)) = r at hframe
  rw [hframe]

/-- What ABORT leaves of a partition. -/
theorem State.partAborted_spec (s : State) (p : Nat) :
    (s.partAborted p).regs = s.regs ∧ (s.partAborted p).mem = s.mem ∧
      (∀ c ∈ (s.partAborted p).collectives, c.part = p → c.isOver) ∧ (∀ x ∈ (s.partAborted p).staging, x.part ≠ p) ∧
      (∀ x ∈ (s.partAborted p).collRecords, x.part ≠ p) ∧
      ∀ n < 5, ∀ q ∈ ((s.partAborted p).port n).packets, s.contributes p q = false := by
  have hlists := s.listsAborted_frame p
  have hover : ∀ c ∈ (s.listsAborted p).collectives, c.part = p → c.isOver := fun c hc hp => isOver_of_abortAll s p hc hp
  rw [State.partAborted, State.dropContributions_eq]
  generalize s.listsAborted p = u at hlists hover
  obtain ⟨hframe, hnone⟩ := State.dropAll_spec p (List.range 5) u
  have hregs : u.regs = s.regs := by rw [hlists]
  rw [State.contributes_of_regs hregs] at hnone
  generalize (List.range 5).foldl (fun s n => s.dropAt p n) u = r at hframe hnone
  refine ⟨by rw [hframe, hregs], by rw [hframe, hlists], ?_, ?_, ?_, fun n hn => hnone n (.inl (List.mem_range.2 hn))⟩
  · rw [hframe]
    exact hover
  · rw [hframe, hlists]
    intro x hx
    simpa using (List.mem_filter.1 hx).2
  · rw [hframe, hlists]
    intro x hx
    simpa using (List.mem_filter.1 hx).2

/-- ABORT and EPOCH of a partition. -/
theorem abort_spec (p : Fin 12) (v : Word) (hlive : s.live = true) : ∃ r, exec (.abort .firmware p v) s = .next r ∧
    r.fld (Reg.MSH_P_CTRL.EPOCH p) = v.toNat % 256 ∧ s.keepsRegs r [Reg.MSH_P_CTRL p] ∧ r.mem = s.mem ∧
    (bitOf v.toNat 31 = true → (∀ c ∈ r.collectives, c.part = p → c.isOver) ∧ (∀ x ∈ r.staging, x.part ≠ p) ∧
      (∀ x ∈ r.collRecords, x.part ≠ p) ∧ ∀ n < 5, ∀ q ∈ (r.port n).packets, q.kind = 3 → s.groupPart q.group ≠ p) ∧
    (bitOf v.toNat 31 = false → s.onlyRegs r [Reg.MSH_P_CTRL p]) := by
  have hepoch (u : State) : (u.setFld (Reg.MSH_P_CTRL.EPOCH p) (v.toNat % 256)).fld (Reg.MSH_P_CTRL.EPOCH p) = v.toNat % 256 := by
    rw [State.fld_setFld_same u (Reg.MSH_P_CTRL.EPOCH p) _ (by simp)]
    exact Nat.mod_mod _ _
  have hset (u : State) : u.onlyRegs (u.setFld (Reg.MSH_P_CTRL.EPOCH p) (v.toNat % 256)) [Reg.MSH_P_CTRL p] :=
    (State.onlyRegs.refl u _).setFld _ (by simp)
  refine ⟨_, exec_abort hlive p v, hepoch _, ?_⟩
  cases bitOf v.toNat 31 with
  | false =>
    rw [if_neg Bool.false_ne_true]
    exact ⟨(hset s).2, (hset s).mem, fun h => absurd h Bool.false_ne_true, fun _ => hset s⟩
  | true =>
    rw [if_pos rfl]
    obtain ⟨hregs, hmem, hover, hstaging, hrecords, hpackets⟩ := s.partAborted_spec p
    generalize s.partAborted p = u at *
    obtain ⟨hu, hkeep⟩ := hset u
    generalize u.setFld (Reg.MSH_P_CTRL.EPOCH p) (v.toNat % 256) = r at hu hkeep
    refine ⟨(State.keepsRegs_of_regs hregs []).trans hkeep (by simp) (List.Subset.refl _), by rw [hu, hmem], fun _ => ?_,
      fun h => absurd h.symm Bool.false_ne_true⟩
    rw [hu]
    refine ⟨hover, hstaging, hrecords, fun n hn q hq hk hpart => ?_⟩
    have hq' := hpackets n hn q hq
    rw [State.contributes, hk, hpart] at hq'
    simp at hq'

end

end Sys2Proof.Machine
end

section
/-! PROOFS. What the writes of the ports' engines leave alone: the routes to the slots (R155 to R161, R197, R316). -/
namespace Sys2Proof.Machine

/-- The physical index of every logical one is the same. -/
def State.sameL2p (s r : State) : Prop := ∀ i < 64, r.reg (Reg.MSH_L2P i) = s.reg (Reg.MSH_L2P i)

section
variable {s r u : State}

theorem State.sameL2p.refl (s : State) : s.sameL2p s := fun _ _ => rfl

theorem State.sameL2p.trans (h : s.sameL2p r) (h' : r.sameL2p u) : s.sameL2p u := fun i hi => (h' i hi).trans (h i hi)

theorem State.sameL2p.foldl {α : Type} {f : State → α → State} (hf : ∀ (u : State) x, u.sameL2p (f u x)) (l : List α) (s : State) :
    s.sameL2p (l.foldl f s) := by
  induction l generalizing s with
  | nil => exact .refl s
  | cons x l ih => exact (hf s x).trans (ih (f s x))

theorem State.sameL2p_of_regs (h : r.regs = s.regs) : s.sameL2p r := fun _ _ => State.reg_congr h _

theorem State.keepsRegs.sameL2p {l : List Nat} (h : s.keepsRegs r l) (hl : ∀ o ∈ l, o < 0xB000200 ∨ 0xB000300 ≤ o) : s.sameL2p r :=
  fun i hi => h _ fun hm => by
    have hm' : 0xB000200 + i * 0x4 < 0xB000200 ∨ 0xB000300 ≤ 0xB000200 + i * 0x4 := hl _ hm
    omega

theorem State.sameL2p_setReg (s : State) {o : Nat} (v : Word) (ho : o < 0xB000200 ∨ 0xB000300 ≤ o) : s.sameL2p (s.setReg o v) :=
  State.keepsRegs.sameL2p (l := [o]) ((State.onlyRegs.refl s _).setReg v (by simp)).2 (by simpa using ho)

theorem State.sameL2p.l2p (h : s.sameL2p r) (i : Nat) : r.l2p i = s.l2p i := State.l2p_congr h i

theorem State.onlyHearth.sameL2p (h : s.onlyHearth r) : s.sameL2p r := h.2.sameL2p (by decide)

theorem State.onlyMesh.sameL2p (h : s.onlyMesh r) : s.sameL2p r := h.2.sameL2p (by decide)

end

/-! ## The window of the local stores -/

theorem tileBase_add_ge (t k : Nat) : 0xB000300 ≤ tileBase t + k := by
  show 0xB000300 ≤ 0x10000000 + t * 0x10000 + k
  omega

section
variable (s : State) {t b code : Nat} {part : Option Nat}

theorem State.sameL2p_portViolation (a kind : Nat) (hc : code < 0xC0) : s.sameL2p (s.portViolation t a b code part kind) := by
  obtain ⟨-, hkeep, -⟩ := s.portViolation_spec t a b part kind hc
  exact hkeep.sameL2p (by simpa using .inr (tileBase_add_ge t 0x140C))

theorem State.sameL2p_handOver (v : Nat) : s.sameL2p (s.handOver t b v) := by
  unfold State.handOver
  split
  · exact .refl s
  split
  · exact State.sameL2p_of_regs rfl
  · unfold State.setOwner
    split
    · exact s.sameL2p_setReg _ (.inr (tileBase_add_ge t 0x1400))
    · exact s.sameL2p_setReg _ (.inr (by simpa [Nat.add_assoc] using tileBase_add_ge t (0x1500 + b * 0x4)))

theorem State.sameL2p_ownerEntry (e : Nat × Nat × Bool) (hc : code < 0xC0) : s.sameL2p (s.ownerEntry t code part e).2 := by
  unfold State.ownerEntry
  dsimp only
  split
  · exact s.sameL2p_portViolation _ _ hc
  split
  · exact .refl s
  split
  · exact s.sameL2p_portViolation _ _ hc
  · exact s.sameL2p_handOver _

theorem State.sameL2p_ownerWrite (hc : code < 0xC0) (l : List (Nat × Nat × Bool)) : s.sameL2p (s.ownerWrite t code part l).2 := by
  have h (l : List (Nat × Nat × Bool)) (r : Bool × State) : r.2.sameL2p
      (l.foldl (fun r e => (r.1 || (r.2.ownerEntry t code part e).1, (r.2.ownerEntry t code part e).2)) r).2 := by
    induction l generalizing r with
    | nil => exact .refl r.2
    | cons e l ih => exact (r.2.sameL2p_ownerEntry e hc).trans (ih _)
  exact h l (false, s)

theorem State.sameL2p_write (a : Nat) (d : List Byte) : s.sameL2p (s.write a d) := State.sameL2p_of_regs (State.regs_write s a d)

theorem State.sameL2p_writeBank (w : Window) (a n v : Nat) : s.sameL2p (s.writeBank t w a n v) := s.sameL2p_write _ _

theorem State.sameL2p_portWrite (a : Nat) (d : List Byte) (hc : code < 0xC0) : s.sameL2p (s.portWrite t a d code part .clean).2 := by
  unfold State.portWrite
  dsimp only
  split
  · exact s.sameL2p_ownerWrite hc _
  · split
    · exact .refl s
    split
    · exact .refl s
    split
    · exact s.sameL2p_portViolation _ _ hc
    split
    · exact s.sameL2p_portViolation _ _ hc
    split
    · exact s.sameL2p_writeBank _ _ _ _
    · rw [State.flipBytes_clean, State.eccBank_clean]
      exact s.sameL2p_writeBank _ _ _ _
  · exact .refl s

theorem State.sameL2p_storeWrite (o : Nat) (d : List Byte) : s.sameL2p (s.storeAccess t o (.write d) .clean).2.2 := by
  unfold State.storeAccess
  dsimp only
  split
  · exact .refl s
  split
  · exact .refl s
  · exact s.sameL2p_write _ _

theorem State.sameL2p_imemWrite (o : Nat) (d : List Byte) : s.sameL2p (s.imemWrite t o d) := by
  unfold State.imemWrite
  dsimp only
  split
  · exact s.sameL2p_setReg _ (.inr (tileBase_add_ge t 0x1008))
  · exact s.sameL2p_write _ _

theorem State.sameL2p_window (off : Nat) (d : List Byte) (hc : code < 0xC0) : s.sameL2p (s.window off code part (.write d) .clean).2.2 := by
  unfold State.window
  dsimp only
  split
  · exact .refl s
  split
  · split
    · exact s.sameL2p_portWrite _ _ hc
    · exact s.sameL2p_storeWrite _ _
  split
  · exact s.sameL2p_imemWrite _ _
  split
  · split
    · exact s.sameL2p_setReg _ (.inl (by decide))
    · exact s.sameL2p_write _ _
  · exact .refl s

end

/-! ## The writes of the engines -/

section
variable (s : State) {key : Nat × Nat × Nat × Nat} {m p : Nat}

theorem State.sameL2p_ask (port slot pa : Nat) (op : AccessOp) (who : Issuer) : s.sameL2p (s.ask port slot pa op who) := by
  unfold State.ask
  dsimp only
  split
  · unfold State.launch
    split
    · exact State.sameL2p_of_regs rfl
    · exact (State.sameL2p_of_regs (s := s) rfl).trans (State.onlyMesh_sendPacket _ _ _ _ _ _ _ _).sameL2p
  · exact State.sameL2p_of_regs rfl

theorem State.sameL2p_hole (pa : Nat) : s.sameL2p (s.hole pa) := by
  have hset : s.sameL2p (s.setFlag Reg.XLT_STATUS.HOLE true) := s.sameL2p_setReg _ (.inl (by decide))
  exact hset.trans (State.keepsRegs.sameL2p (State.keepsRegs_setReg64 _ _ _) (by decide))

theorem State.sameL2p_memWrite (off : Nat) (d : List Byte) : s.sameL2p (s.memOp off (.write d)).2 := s.sameL2p_write _ _

theorem State.sameL2p_homeWrite (h : Home) (d : List Byte) : s.sameL2p (s.homeAccess h (.write d) false).2 := by
  cases h with
  | hot b off => exact (s.onlyHearth_hearthLines _ _ _ _ _).sameL2p.trans (State.sameL2p_memWrite _ _ _)
  | warm n off => exact s.sameL2p_memWrite _ _
  | cold off => exact s.sameL2p_memWrite _ _
  | sram off | control off | remote slot off | hole => exact .refl s

theorem State.sameL2p_engineWrite (pa : Nat) (d : List Byte) (hm : m < 0x80) : s.sameL2p (s.engineWrite key m p pa d) := by
  have hcode : 0x40 + m < 0xC0 := by omega
  unfold State.engineWrite
  cases s.homeOf pa with
  | sram off => exact s.sameL2p_window _ _ hcode
  | remote slot off => exact s.sameL2p_ask _ _ _ _ _
  | warm i off => exact (s.sameL2p_homeWrite _ _).trans (State.sameL2p_ask _ _ _ _ _ _)
  | cold off => exact (s.sameL2p_homeWrite _ _).trans (State.sameL2p_ask _ _ _ _ _ _)
  | hole => exact s.sameL2p_hole _
  | control off => exact .refl s
  | hot b off => exact s.sameL2p_homeWrite _ _

theorem State.sameL2p_walkRead (table va : Nat) : s.sameL2p (s.walkRead table va).2 :=
  .foldl (fun u a => (u.onlyHearth_pass a 8 false).sameL2p) _ s

end

/-- Writes of the engines that are done keep the routes. -/
theorem State.sameL2p_engineWrites (s : State) (key : Nat × Nat × Nat × Nat) {m : Nat} (p table : Nat) (ws : List (Nat × List Byte)) (hm : m < 0x80)
    (hdone : (s.engineWrites key m p table ws).1 = .done) : s.sameL2p (s.engineWrites key m p table ws).2 := by
  have hwalk (l : List Nat) : s.sameL2p (l.foldl (fun s va => (s.walkRead table va).2) s) := .foldl (fun u va => u.sameL2p_walkRead table va) l s
  revert hdone
  unfold State.engineWrites
  dsimp only
  split
  · exact fun h => nomatch h
  split
  · exact fun h => nomatch h
  · exact fun h => nomatch h
  · split
    · exact fun h => nomatch h
    · exact fun h => nomatch h
    · exact fun h => nomatch h
  · refine fun _ => (hwalk _).trans (.foldl (fun u x => ?_) _ _)
    split
    · exact u.sameL2p_engineWrite _ _ hm
    · exact .refl u

end Sys2Proof.Machine
end

section
/-! PROOFS. The statement of 13_mesh.md on BCAST_RECEIVE (R197, R328), and the statement on collectives and broadcasts as a whole. -/
namespace Sys2Proof.Machine

/-! ## Copies onward, and acknowledgements -/

section
variable {s r u : State}

theorem State.onlyMesh.refl (s : State) : s.onlyMesh s := ⟨rfl, fun _ _ => rfl⟩

theorem State.onlyMesh.trans (h : s.onlyMesh r) (h' : r.onlyMesh u) : s.onlyMesh u := by
  obtain ⟨hr, hk⟩ := h
  obtain ⟨hu, hk'⟩ := h'
  exact ⟨by rw [hu, hr], fun o ho => (hk' o ho).trans (hk o ho)⟩

theorem State.onlyMesh_unrouted (s : State) (n : Nat) : s.onlyMesh (s.unrouted n) := ⟨rfl, (s.onlyRegs_unrouted n).2⟩

theorem State.onlyMesh_fanOut (s : State) (from_ mask : Nat) (ps : List (List Byte)) : s.onlyMesh (s.fanOut from_ mask ps) := by
  have hfold (l : List Nat) (u : State) : u.onlyMesh (l.foldl (fun s d =>
      if s.portOn d then s.enqueue d 1 none (redirect (s.beyond d) ps) else s.unrouted ps.length) u) := by
    induction l generalizing u with
    | nil => exact .refl u
    | cons d l ih =>
      rw [List.foldl_cons]
      split
      · exact (u.onlyPorts_enqueue _ _ _ _).onlyMesh.trans (ih _)
      · exact (u.onlyMesh_unrouted _).trans (ih _)
  exact hfold _ s

theorem State.sendAcks_nil (h : s.bcastAcks = []) : s.sendAcks = s := by
  have hnil : ({ s with bcastAcks := [] } : State) = s := by rw [← h]
  unfold State.sendAcks
  rw [h]
  exact hnil

/-- The state in which one acknowledgement is owed. -/
def State.owing (s : State) (a : BcastAck) : State := { s with bcastAcks := [a] }

theorem State.sendAcks_ready {a : BcastAck} (hb : s.bcastAcks = []) (h : s.writesOut a.key = false) : (s.owing a).sendAcks = s.sendAck a := by
  have hnil : ({ s with bcastAcks := [] } : State) = s := by rw [← hb]
  have hout : (s.owing a).writesOut a.key = false := h
  have howed : (s.owing a).bcastAcks = [a] := rfl
  have hready : (s.owing a).bcastAcks.filter (fun x => !(s.owing a).writesOut x.key) = [a] := by simp [howed, hout]
  have hwait : (s.owing a).bcastAcks.filter (fun x => (s.owing a).writesOut x.key) = [] := by simp [howed, hout]
  rw [State.sendAcks, hready, hwait]
  exact congrArg (fun u : State => u.sendAck a) hnil

theorem State.sendAcks_waiting {a : BcastAck} (h : s.writesOut a.key = true) : (s.owing a).sendAcks = s.owing a := by
  have hout : (s.owing a).writesOut a.key = true := h
  have howed : (s.owing a).bcastAcks = [a] := rfl
  have hready : (s.owing a).bcastAcks.filter (fun x => !(s.owing a).writesOut x.key) = [] := by simp [howed, hout]
  have hwait : (s.owing a).bcastAcks.filter (fun x => (s.owing a).writesOut x.key) = [a] := by simp [howed, hout]
  rw [State.sendAcks, hready, hwait]
  rfl

/-! ## The row -/

section
variable {n : Fin 5} {p : Packet}

theorem exec_bcastReceive (n : Fin 5) (s : State) : exec (.bcastReceive n) s = .next (bcastReceive n s) := rfl

/-- The cookie of a broadcast unit, and the key of its writes. -/
def Packet.cookie (p : Packet) : Nat := leNat ((p.body.drop 16).take 8)
def State.bcastKey (s : State) (p : Packet) : Nat × Nat × Nat × Nat := (s.groupPart p.group, p.epoch, 2 ^ 48 + p.src, p.cookie)

/-- The write of a broadcast packet at its member's DST. -/
def State.bcastWrite (s : State) (p : Packet) : EngineEnd × State :=
  s.engineWrites (s.bcastKey p) 48 (s.groupPart p.group) (s.ptBase (s.groupPart p.group))
    [(leNat ((p.body.drop 8).take 8), (p.body.drop 32).take (leNat ((p.body.drop 24).take 8)))]

/-- A broadcast packet that has been taken and copied onward. -/
def State.bcastOn (s : State) (n : Nat) (p : Packet) (from_ : Nat) : State := (s.takePacket n p).fanOut from_ p.mask p.frames

section
variable (hp : s.firstPacket n (fun p => p.vc == 1 && (p.kind == 5 || p.kind == 2)) = some p) (hacks : s.bcastAcks = [])
include hp hacks

theorem bcastReceive_ack (hk : p.kind = 2) : bcastReceive n s = (s.takePacket n p).bcastAck p.src p.info := by
  unfold bcastReceive
  rw [State.sendAcks_nil hacks]
  dsimp only
  rw [hp]
  exact if_pos hk

variable (hk : p.kind ≠ 2)
include hk

theorem bcastReceive_other (hmask : bitOf p.mask s.ownLogical = false) : bcastReceive n s = s.bcastOn n p (s.l2p p.src) := by
  have hl2p : (s.takePacket n p).l2p p.src = s.l2p p.src := State.l2p_congr (fun _ _ => State.reg_congr (s.regs_takePacket n p) _) _
  unfold bcastReceive
  rw [State.sendAcks_nil hacks]
  dsimp only
  rw [hp]
  dsimp only
  rw [if_neg hk, if_pos hmask, State.bcastOn]

variable (hmask : bitOf p.mask s.ownLogical = true)
include hmask

theorem bcastReceive_epoch (he : p.epoch ≠ s.fld (Reg.MSH_P_CTRL.EPOCH (s.groupPart p.group))) :
    bcastReceive n s = s.epochDropped n p := by
  unfold bcastReceive
  rw [State.sendAcks_nil hacks]
  dsimp only
  rw [hp]
  dsimp only
  rw [if_neg hk, if_neg (by simp [hmask]), if_pos he, State.epochDropped]

variable (he : p.epoch = s.fld (Reg.MSH_P_CTRL.EPOCH (s.groupPart p.group)))
include he

theorem bcastReceive_stays (hw : (s.bcastWrite p).1 ≠ .done) : bcastReceive n s = (s.bcastWrite p).2 := by
  unfold bcastReceive
  rw [State.sendAcks_nil hacks]
  dsimp only
  rw [hp]
  dsimp only
  rw [if_neg hk, if_neg (by simp [hmask]), if_neg (not_not.2 he)]
  exact if_neg hw

theorem bcastReceive_written (hw : (s.bcastWrite p).1 = .done) (hout : (s.bcastWrite p).2.bcastAcks = []) :
    bcastReceive n s = if bitOf p.tag 31 then
        (((s.bcastWrite p).2.bcastOn n p (s.l2p p.src)).owing ⟨p.src, p.tag, p.cookie, s.bcastKey p⟩).sendAcks
      else (s.bcastWrite p).2.bcastOn n p (s.l2p p.src) := by
  have hl2p : (s.bcastWrite p).2.l2p p.src = s.l2p p.src := (State.sameL2p_engineWrites s _ _ _ _ (by decide) hw).l2p _
  have hon : ((s.bcastWrite p).2.bcastOn n p (s.l2p p.src)).bcastAcks = [] := by
    have hmesh := ((s.bcastWrite p).2.takePacket n p).onlyMesh_fanOut (s.l2p p.src) p.mask p.frames
    have hframe := (s.bcastWrite p).2.takePacket_frame n p
    rw [← State.bcastOn] at hmesh
    generalize (s.bcastWrite p).2.bcastOn n p (s.l2p p.src) = r at hmesh
    generalize (s.bcastWrite p).2.takePacket n p = u at hmesh hframe
    rw [hmesh.1, hframe]
    exact hout
  unfold bcastReceive
  rw [State.sendAcks_nil hacks]
  dsimp only
  rw [hp]
  dsimp only
  rw [if_neg hk, if_neg (by simp [hmask]), if_neg (not_not.2 he)]
  refine (if_pos hw).trans ?_
  change (if bitOf p.tag 31 then
      State.sendAcks { (s.bcastWrite p).2.bcastOn n p ((s.bcastWrite p).2.l2p p.src) with
        bcastAcks := ((s.bcastWrite p).2.bcastOn n p ((s.bcastWrite p).2.l2p p.src)).bcastAcks ++
          [⟨p.src, p.tag, p.cookie, s.bcastKey p⟩] }
    else (s.bcastWrite p).2.bcastOn n p ((s.bcastWrite p).2.l2p p.src)) = _
  rw [hl2p, hon, List.nil_append, State.owing]

end

/-- A broadcast packet of the own EPOCH for this member. -/
theorem bcastReceive_spec (hp : s.firstPacket n (fun p => p.vc == 1 && (p.kind == 5 || p.kind == 2)) = some p) (hacks : s.bcastAcks = [])
    (hk : p.kind ≠ 2) (hmask : bitOf p.mask s.ownLogical = true) (he : p.epoch = s.fld (Reg.MSH_P_CTRL.EPOCH (s.groupPart p.group))) :
    ((s.bcastWrite p).1 ≠ .done → exec (.bcastReceive n) s = .next (s.bcastWrite p).2) ∧
      ((s.bcastWrite p).1 = .done → (s.bcastWrite p).2.bcastAcks = [] → ∃ q : State, q = (s.bcastWrite p).2.takePacket n p ∧
        (bitOf p.tag 31 = false → exec (.bcastReceive n) s = .next (q.fanOut (s.l2p p.src) p.mask p.frames)) ∧
        (bitOf p.tag 31 = true → (s.bcastWrite p).2.writesOut (s.bcastKey p) = false →
          exec (.bcastReceive n) s =
            .next ((q.fanOut (s.l2p p.src) p.mask p.frames).sendAck ⟨p.src, p.tag, p.cookie, s.bcastKey p⟩)) ∧
        (bitOf p.tag 31 = true → (s.bcastWrite p).2.writesOut (s.bcastKey p) = true → ∃ r, exec (.bcastReceive n) s = .next r ∧
          r = { q.fanOut (s.l2p p.src) p.mask p.frames with bcastAcks := [⟨p.src, p.tag, p.cookie, s.bcastKey p⟩] })) := by
  refine ⟨fun hw => (exec_bcastReceive n s).trans (congrArg _ (bcastReceive_stays hp hacks hk hmask he hw)), fun hw hout => ⟨_, rfl, ?_⟩⟩
  have hrow := (exec_bcastReceive n s).trans (congrArg _ (bcastReceive_written hp hacks hk hmask he hw hout))
  have hmesh := ((s.bcastWrite p).2.takePacket n p).onlyMesh_fanOut (s.l2p p.src) p.mask p.frames
  have hframe := (s.bcastWrite p).2.takePacket_frame n p
  rw [State.bcastOn] at hrow
  generalize (s.bcastWrite p).2.takePacket n p = u at *
  have hacks' : (u.fanOut (s.l2p p.src) p.mask p.frames).bcastAcks = [] := by
    generalize u.fanOut (s.l2p p.src) p.mask p.frames = r at hmesh
    rw [hmesh.1, hframe]
    exact hout
  have houts (key : Nat × Nat × Nat × Nat) : (u.fanOut (s.l2p p.src) p.mask p.frames).writesOut key = (s.bcastWrite p).2.writesOut key := by
    rw [State.writesOut, hmesh.outstanding, hframe]
    rfl
  refine ⟨fun htag => ?_, fun htag hdone => ?_, fun htag hwaits => ⟨_, hrow, ?_⟩⟩
  · rw [hrow, htag, if_neg Bool.false_ne_true]
  · rw [hrow, htag, if_pos rfl, State.sendAcks_ready hacks' (by rw [houts, hdone])]
  · rw [htag, if_pos rfl, State.sendAcks_waiting (by rw [houts, hwaits]), State.owing]

end

end

/-! ## The obligation -/

/-- Settles O53: what the rows of collectives and broadcasts do, each by the lemmas on its own row. -/
theorem collectivesGatherAndEnd : Obligations.CollectivesGatherAndEnd := by
  unfold Obligations.CollectivesGatherAndEnd
  refine ⟨?_, ?_, ?_, fun p v s hlive => abort_spec p v hlive, ?_⟩
  · intro n vc s p hp part x taken
    have htake {r : State} (h : collectiveContribution n vc s = s.takePacket n p) :
        taken (s.takePacket n p) ∧ s.takePacket n p = { s with ports := (s.takePacket n p).ports, out := (s.takePacket n p).out } :=
      ⟨⟨(exec_collectiveContribution n vc s).trans (congrArg _ h), s.packets_takePacket n p⟩, s.takePacket_frame n p⟩
    refine ⟨fun he => ?_, fun he => ⟨fun c hc ha => ⟨_, htake (r := s) (collectiveContribution_ending hp he hc ha)⟩,
      fun c hc ha => collectiveContribution_joins_spec hp he hc ha,
      fun hnone hrec => ⟨_, htake (r := s) (collectiveContribution_over hp he hnone hrec)⟩,
      fun hnone hrec hbase => collectiveContribution_early_spec hp he hnone hrec hbase⟩⟩
    obtain ⟨hcount, hpackets, hframe, hkeep⟩ := s.epochDropped_spec n p
    exact ⟨_, ⟨(exec_collectiveContribution n vc s).trans (congrArg _ (collectiveContribution_epoch hp he)), hpackets⟩, hcount, hframe, hkeep⟩
  · intro i s c hc ends
    refine ⟨fun ha hwritten hall hout hw => ?_, fun ha hwritten => ?_, fun keep ha hw => ?_⟩
    · exact collectiveComplete_results_spec hc ha hwritten hall hout hw
    · have hrow := collectiveComplete_written hc ha hwritten
      refine ⟨fun h => ?_, fun h => ?_⟩
      · exact (exec_collectiveComplete i s).trans (congrArg _ (hrow.trans (if_pos h)))
      · exact collectiveComplete_status (.inl rfl) ha (hrow.trans (if_neg (by rw [h]; exact Bool.false_ne_true)))
    · exact (State.collStatus_aborted ha hw).spec (collectiveComplete_aborted hc (by rw [ha]; rfl))
  · intro i s
    refine ⟨fun c hc => ⟨fun ht => ?_, fun ht ha => collTimeout_coll_spec hc ht ha⟩,
      fun b hc hb ha hw ht => collTimeout_broadcast_spec hc hb ha hw ht⟩
    exact (exec_collTimeout i s).trans (congrArg _ ((collTimeout_coll hc).trans (if_neg (Nat.not_le.2 ht))))
  · intro n s p hp hacks part cookie key w
    refine ⟨fun hk => ?_, fun hk hmask => ?_, fun hk hmask he => ?_, fun hk hmask he => bcastReceive_spec hp hacks hk hmask he⟩
    · refine ⟨_, (exec_bcastReceive n s).trans (congrArg _ (bcastReceive_ack hp hacks hk)), ?_⟩
      have hframe := s.takePacket_frame n p
      have hpackets := s.packets_takePacket n p
      generalize s.takePacket n p = u at hframe hpackets
      refine ⟨?_, hpackets, ?_⟩
      · rw [State.bcastAck, hframe]
      · rw [State.bcastAck, hframe]
    · exact ⟨s.takePacket n p, (exec_bcastReceive n s).trans (congrArg _ (bcastReceive_other hp hacks hk hmask)), s.packets_takePacket n p,
        s.takePacket_frame n p⟩
    · obtain ⟨hcount, hpackets, hframe, hkeep⟩ := s.epochDropped_spec n p
      exact ⟨_, (exec_bcastReceive n s).trans (congrArg _ (bcastReceive_epoch hp hacks hk hmask he)), hcount, hpackets, hframe, hkeep⟩

end Sys2Proof.Machine
end

section
/-! PROOFS. What the computation of a unit gives, by its operations, where its addresses are physical and nothing it reads is in error (R192, R203). -/
namespace Sys2Proof.Machine

/-! ## Rules -/

/-- A computation of a unit ends with a value in a state of its forming. -/
def U.Gives {α : Type} (u : U α) (c : Ctx) (f : Forming) (a : α) (g : Forming) : Prop := (u c).run f = .ok (a, g)

section
variable {α β : Type} {u : U α} {c : Ctx} {f g h : Forming} {a : α} {b : β} {k : α → U β}

theorem U.Gives.bind (hu : u.Gives c f a g) (hk : (k a).Gives c g b h) : (u >>= k).Gives c f b h := by
  show ((u c).run f >>= fun r => (k r.1 c).run r.2) = .ok (b, h)
  rw [U.Gives] at hu
  rw [hu]
  exact hk

theorem U.gives_pure : (pure a : U α).Gives c f a f := rfl
theorem U.gives_read : (read : U Ctx).Gives c f c f := rfl
theorem U.gives_get : (get : U Forming).Gives c f f f := rfl

theorem U.gives_modify {φ : Forming → Forming} (hφ : φ f = g) : (modify φ : U PUnit).Gives c f () g := by
  subst hφ
  rfl

theorem U.gives_change (φ : State → State) : (U.change φ).Gives c f () { f with s := φ f.s } := rfl

end

/-! ## Accesses to the hot tier -/

section
variable {c : Ctx} {f : Forming} {va b off : Nat} {acc : Access} {op : AccessOp}

theorem U.gives_translate (hc : c.phys = true) : (U.translate va acc).Gives c f (va % 2 ^ 56) f := by
  unfold U.translate
  refine U.gives_read.bind (U.gives_get.bind ?_)
  rw [if_pos hc]
  exact U.gives_pure

theorem U.gives_nextRead (hr : f.reads = []) : U.nextRead.Gives c f .clean f := by
  unfold U.nextRead
  refine U.gives_get.bind ?_
  rw [hr]
  exact U.gives_pure

theorem State.stackEcc_clean (s : State) (b : Nat) : s.stackEcc b .clean = s := rfl

theorem U.gives_hotRead (hr : f.reads = []) (b off n : Nat) : (U.hotRead b off n).Gives c f () f := by
  unfold U.hotRead
  refine (U.gives_nextRead hr).bind (U.gives_modify ?_)
  have hseen : (if f.s.hearthHas b off then { ReadEcc.clean with ce := 0 } else ReadEcc.clean) = ReadEcc.clean := by
    split
    · rfl
    · rfl
  have hue : (f.ue || decide (ReadEcc.clean.ue ≠ 0)) = f.ue := Bool.or_false _
  dsimp only
  rw [hseen, State.flipBytes_clean, State.stackEcc_clean, hue]

/-- The unit reads a line of the hot tier. -/
def Forming.reading (f : Forming) (b off : Nat) : Forming := { f with lines := f.lines ++ [(b, off / 128 * 128)] }

theorem U.gives_hotAccess_read (hna : c.na = false) (hr : f.reads = []) (n : Nat) :
    (U.hotAccess b off (.read n)).Gives c f (f.s.bytes (b * stackSize + off) n) (f.reading b off) := by
  unfold U.hotAccess
  refine U.gives_read.bind (U.gives_get.bind ?_)
  dsimp only [opWrites]
  rw [if_neg (by simp [hna]), if_pos ⟨rfl, hna⟩]
  refine (U.gives_modify (g := f.reading b off) rfl).bind ?_
  rw [if_pos rfl]
  refine (U.gives_hotRead (f := f.reading b off) hr b off n).bind (U.gives_get.bind ?_)
  rw [hna, if_neg (by simp)]
  exact (U.gives_change _).bind U.gives_pure

/-- The unit writes to a line of the hot tier. -/
def Forming.writing (f : Forming) (b off : Nat) (d : List Byte) : Forming :=
  { f with s := (f.s.hearthLines b off d.length true false).write (b * stackSize + off) d }

theorem U.gives_hotAccess_write (hna : c.na = false) (d : List Byte) :
    (U.hotAccess b off (.write d)).Gives c f [] (f.writing b off d) := by
  unfold U.hotAccess
  refine U.gives_read.bind (U.gives_get.bind ?_)
  dsimp only [opWrites, opLen]
  rw [if_neg (by simp), if_neg (by simp), if_neg (by simp)]
  refine U.gives_get.bind ?_
  rw [hna, if_pos (by simp)]
  exact (U.gives_change _).bind U.gives_pure

/-- An access to a place of the hot tier that is up, by a unit that no fault of an answer waits for. -/
theorem U.gives_access {d : List Byte} {g : Forming} (hc : c.phys = true) (hfail : (f.s.mover c.m).work.fail = 0)
    (hhome : f.s.homeOf (va % 2 ^ 56) = .hot b off) (hup : f.s.tierUp (unitHot b) = true) (h : (U.hotAccess b off op).Gives c f d g) :
    (U.access va acc op).Gives c f d g := by
  have hup' : f.s.homeUp (.hot b off) = true := hup
  unfold U.access
  refine (U.gives_translate hc).bind (U.gives_read.bind (U.gives_get.bind ?_))
  dsimp only
  rw [if_neg (by simp [hfail]), hhome]
  dsimp only
  rw [if_pos hup']
  exact h

/-! ## Units of 128 bytes -/

theorem U.gives_readRange_zero (k : Nat) : (U.readRange k va 0).Gives c f [] f := by
  cases k with
  | zero => exact U.gives_pure
  | succ k =>
    rw [U.readRange, if_pos rfl]
    exact U.gives_pure

theorem U.gives_readVa {d : List Byte} {g : Forming} (hva : va % 128 = 0) (h : (U.access va .read (.read 128)).Gives c f d g) :
    (U.readVa va 128).Gives c f d g := by
  have hm : min 128 (128 - va % 128) = 128 := by omega
  unfold U.readVa
  show (U.readRange 3 va 128).Gives c f d g
  rw [U.readRange, if_neg (by decide), hm]
  refine h.bind ((U.gives_readRange_zero 2).bind ?_)
  rw [List.append_nil]
  exact U.gives_pure

theorem U.gives_writeVa_nil (k : Nat) : (U.writeVa k va []).Gives c f () f := by
  cases k with
  | zero => exact U.gives_pure
  | succ k => exact U.gives_pure

theorem U.gives_write {d : List Byte} {g : Forming} (hva : va % 128 = 0) (hd : d.length = 128)
    (h : (U.access va .write (.write d)).Gives c f [] g) : (U.write va d).Gives c f () g := by
  have hm : min d.length (128 - va % 128) = 128 := by omega
  have hne : d.isEmpty = false := by
    cases d with
    | nil => cases hd
    | cons x d => rfl
  unfold U.write
  rw [hd]
  show (U.writeVa 3 va d).Gives c f () g
  rw [U.writeVa, if_neg (by simp [hne]), hm]
  dsimp only
  rw [List.take_of_length_le (by omega), List.drop_of_length_le (by omega)]
  exact h.bind (U.gives_writeVa_nil 2)

theorem U.gives_checkWrite (hc : c.phys = true) : (U.checkWrite va 1).Gives c f () f := by
  unfold U.checkWrite
  rw [show List.range 1 = [0] from rfl, List.forM_eq_forM, List.forM_cons]
  refine U.Gives.bind (a := PUnit.unit) (g := f) ((U.gives_translate hc).bind U.gives_pure) ?_
  exact U.gives_pure

end

/-! ## The copy of a unit -/

section
variable {c : Ctx} {f : Forming} {k b off b' off' : Nat} {q : Cmd}

/-- What a unit of a copy leaves: its line read, its bytes written. -/
def Forming.copying (f : Forming) (b off b' off' : Nat) : Forming := (f.reading b off).writing b' off' (f.s.bytes (b * stackSize + off) 128)

theorem U.gives_copyUnit (hc : c.phys = true) (hna : c.na = false) (hr : f.reads = []) (hfail : (f.s.mover c.m).work.fail = 0)
    (hsrcq : q.srcq = false) (hdstq : q.dstq = false) (hsrc : q.src % 128 = 0) (hdst : q.dst % 128 = 0)
    (hfrom : f.s.homeOf ((q.src + 128 * k) % 2 ^ 56) = .hot b off) (hup : f.s.tierUp (unitHot b) = true)
    (hto : f.s.homeOf ((q.dst + 128 * k) % 2 ^ 56) = .hot b' off') (hup' : f.s.tierUp (unitHot b') = true) :
    (copyUnit q k).Gives c f () (f.copying b off b' off') := by
  have hlen : (f.s.bytes (b * stackSize + off) 128).length = 128 := State.length_bytes _ _ _
  have hread : (U.source q (q.src + 128 * k) 1).Gives c f (f.s.bytes (b * stackSize + off) 128) (f.reading b off) := by
    unfold U.source
    rw [if_neg (by simp [hsrcq])]
    exact U.gives_readVa (by omega) (U.gives_access hc hfail hfrom hup (U.gives_hotAccess_read hna hr 128))
  have hwrite : (U.write (q.dst + 128 * k) (f.s.bytes (b * stackSize + off) 128)).Gives c (f.reading b off) () (f.copying b off b' off') :=
    U.gives_write (by omega) hlen (U.gives_access hc hfail hto hup' (U.gives_hotAccess_write hna _))
  unfold copyUnit
  refine hread.bind ?_
  unfold U.deliver
  rw [if_neg (by simp [hdstq]), hlen]
  exact (U.gives_checkWrite hc).bind hwrite

theorem U.gives_cmdUnitEnd {g : Forming} (hop : q.op = 0xA0) (hxfm : q.xfm = 0) (hntf : q.ntf = false)
    (h : (copyUnit q k).Gives c f () g) : (cmdUnitEnd q k).Gives c f true g := by
  have hunit : (cmdUnitOf q k).Gives c f true g := by
    unfold cmdUnitOf
    rw [hop]
    dsimp only
    rw [hxfm]
    exact h.bind U.gives_pure
  unfold cmdUnitEnd
  refine hunit.bind (U.gives_get.bind ?_)
  dsimp only
  rw [if_neg (by simp [hntf])]
  exact U.gives_pure

end

end Sys2Proof.Machine
end

section
/-! PROOFS. Movers start, complete and end the units of their commands (R209, R214, R218, R229). -/
namespace Sys2Proof.Machine

/-! ## Movers -/

section
variable {s r : State} {m k : Nat}

theorem State.mover_modMover_same (s : State) (m : Nat) (φ : Mover → Mover) : (s.modMover m φ).mover m = φ (s.mover m) :=
  State.mover_setMover_same s m _

/-- A mover whose addresses are physical runs where the grid lives. -/
theorem State.moverRuns_of_phys (hlive : s.gridLive = true) (hphys : (s.mover m).phys = true) : s.moverRuns m = true := by
  unfold State.moverRuns
  rw [hlive, hphys]
  rfl

theorem Mover.phys_of_job {x : Mover} {j : RingJob} (hjob : x.job = some j) (hj : j.phys = true) : x.phys = true := by
  unfold Mover.phys
  rw [hjob]
  exact hj

theorem State.mover_noteWait (s : State) (m : Nat) (q : Bool) :
    (s.noteWait m q).mover m = { s.mover m with work := { (s.mover m).work with waits := q } } := s.mover_modMover_same m _

theorem State.readLength_of_op {c : Cmd} {l : List Cmd} (hq : (s.mover m).queue = c :: l) (hop : c.op ≠ 0xA8) : s.readLength m k = s := by
  unfold State.readLength
  rw [hq]
  exact if_pos (Or.inl hop)

theorem State.mover_invalUnit (s : State) (m k : Nat) : (s.invalUnit m).mover k = s.mover k := rfl

/-! ## The end of a unit -/

/-- A unit of the I/O die whose Hearth line is held or used, and which sends nothing, ends its turn where it stands. -/
theorem State.commitUnit_of_line {c : Ctx} {u : MoverUnit} {f : Forming} {b off : Nat} (hc : c.phys = true) (hlines : f.lines = [(b, off)])
    (hpartner : f.partner = []) (hremote : f.remote = []) (houts : f.outs = []) (htakes : f.takes = []) (hwait : s.unitWaits c.m = false)
    (hhas : s.hearthHas b off = true ∨ 0 < (s.mover c.m).work.used) :
    s.commitUnit c u true f = ((f.lines.drop (s.mover c.m).work.used).foldl (fun s l => s.hearthAccess l.1 l.2 false false) f.s).unitDone c.m u f.total := by
  have hasked : s.askAll c.m f = s := by
    unfold State.askAll
    rw [hpartner, hremote]
    rfl
  have hrest : (f.lines.drop (s.mover c.m).work.used).any (fun l => !s.hearthHas l.1 l.2) = false := by
    rw [hlines]
    cases hu : (s.mover c.m).work.used with
    | zero =>
      rw [hu] at hhas
      simpa using hhas
    | succ n => simp
  unfold State.commitUnit
  dsimp only
  rw [if_neg (by simp only [hrest]; decide), hasked, if_neg (fun h => h rfl), if_neg (by simp [hwait]), houts, htakes, List.drop_nil]
  rw [if_neg (by exact Nat.lt_irrefl 0), if_pos rfl]
  unfold State.unitPoison
  rw [if_pos hc]
  rfl

/-- A unit of a COPY of the I/O die is done, and is not its last. -/
theorem State.unitDone_copy {c : Cmd} (hm : 48 ≤ m) (hq : (s.mover m).queue = [c]) (hop : c.op = 0xA0) (hxfm : c.xfm = 0) (hk : k + 1 < c.cnt)
    (total : Nat) :
    (s.unitDone m (.command k) total).mem = s.mem ∧ (s.unitDone m (.command k) total).regs = s.regs ∧
      (s.unitDone m (.command k) total).mover m =
        ⟨[c], (s.mover m).inflight.drop 1, (s.mover m).job, k + 1, Work.reset, (s.mover m).lens.filter (·.1 != k)⟩ := by
  have hm' : ¬ m < 48 := by omega
  have htotal : cmdTotal c = c.cnt := by
    simp only [cmdTotal, hop, hxfm]
  unfold State.unitDone State.setMoverProg
  dsimp only
  rw [if_neg hm', if_neg hm']
  generalize hu : State.invalUnit _ m = u
  have hmover : u.mover m = ⟨[c], (s.mover m).inflight.drop 1, (s.mover m).job, (s.mover m).prog, Work.reset, (s.mover m).lens.filter (·.1 != k)⟩ := by
    rw [← hu, ← hq, State.mover_invalUnit, State.mover_modMover_same]
  have hmem : u.mem = s.mem := by rw [← hu]; rfl
  have hregs : u.regs = s.regs := by rw [← hu]; rfl
  generalize hv : State.modMover _ m _ = v
  have hvmover : v.mover m = ⟨[c], (s.mover m).inflight.drop 1, (s.mover m).job, k + 1, Work.reset, (s.mover m).lens.filter (·.1 != k)⟩ := by
    rw [← hv, State.mover_modMover_same, State.mover_modMover_same, hmover]
    dsimp only
    rw [if_neg (by omega)]
  have hvmem : v.mem = u.mem := by rw [← hv]; rfl
  have hvregs : v.regs = u.regs := by rw [← hv]; rfl
  rw [hvmover]
  dsimp only
  rw [if_neg (by omega)]
  exact ⟨hvmem.trans hmem, hvregs.trans hregs, hvmover⟩

/-- The forming of a unit as it starts. -/
def Forming.start (s : State) : Forming := ⟨s, [], [], [], [], [], 0, [], [], false⟩

/-- The unit at the head of a mover of the I/O die runs, with what its computation leaves. -/
theorem moverUnitComplete_of_gives {u : MoverUnit} {rest : List MoverUnit} {c : Cmd} {j : RingJob} {done : Bool} {f : Forming}
    (hlive : s.gridLive = true) (hjob : (s.mover m).job = some j) (hphys : j.phys = true) (hq : (s.mover m).queue = [c])
    (hinflight : (s.mover m).inflight = u :: rest) (hop : c.op ≠ 0xA8) (hdrop : (s.mover m).work.drop = false)
    (h : (unitOf m [c] u).Gives ((s.noteWait m false).ctxOf m u) (.start (s.noteWait m false)) done f) :
    moverUnitComplete m .quiet s = (s.noteWait m false).commitUnit ((s.noteWait m false).ctxOf m u) u done f := by
  have hq1 : ((s.noteWait m false).mover m).queue = [c] := by rw [State.mover_noteWait, hq]
  have hdrop1 : ((s.noteWait m false).mover m).work.drop = false := by rw [State.mover_noteWait, hdrop]
  have hrun : runU (unitOf m [c] u) ((s.noteWait m false).ctxOf m u) .quiet (s.noteWait m false) = .ok (done, f) := h
  have hruns := State.moverRuns_of_phys hlive (Mover.phys_of_job hjob hphys)
  unfold moverUnitComplete
  rw [hinflight]
  dsimp only
  rw [if_neg (by simp [hruns])]
  generalize s.noteWait m false = s1 at *
  rw [State.readLength_of_op hq1 hop, if_neg (by simp [hdrop1]), hq1, hrun]

theorem State.na_ctxOf {c : Cmd} (hq : (s.mover m).queue = [c]) (hna : c.na = false) : (s.ctxOf m (.command k)).na = false := by
  unfold State.ctxOf
  dsimp only
  rw [hq]
  exact hna

theorem State.hearthHas_lineStart (s : State) (b off : Nat) : s.hearthHas b (off / 128 * 128) = s.hearthHas b off := by
  have hkey : hearthKey b (off / 128 * 128) = hearthKey b off := by
    unfold hearthKey bits
    congr 2 <;> omega
  have hline : lineOf (off / 128 * 128) = lineOf off := Nat.mul_div_cancel _ (by decide)
  unfold State.hearthHas State.hearthSet
  rw [hkey, hline]

theorem State.onlyHearth.mover {r : State} (h : s.onlyHearth r) (m : Nat) : r.mover m = s.mover m :=
  State.mover_congr (by rw [h.1]) m

theorem State.mover_write (s : State) (a : Nat) (d : List Byte) (m : Nat) : (s.write a d).mover m = s.mover m :=
  State.mover_congr (by rw [State.write_onlyMem]) m

/-- What a copy and the Hearth lines that it counts leave: the bytes at their place, and the counts. -/
theorem State.copied_spec (s : State) (b' off' : Nat) {d : List Byte} (hd : d.length = 128) (lines : List (Nat × Nat)) {r : State}
    (hr : r = lines.foldl (fun s l => s.hearthAccess l.1 l.2 false false)
      ((s.hearthLines b' off' d.length true false).write (b' * stackSize + off') d)) :
    r.bytes (b' * stackSize + off') 128 = d ∧ s.keepsMem r (b' * stackSize + off') 128 ∧ s.keepsRegs r hearthRegs ∧ (∀ m, r.mover m = s.mover m) := by
  have hlines := s.onlyHearth_hearthLines b' off' d.length true false
  generalize s.hearthLines b' off' d.length true false = u at hlines hr
  have hfold : (u.write (b' * stackSize + off') d).onlyHearth r :=
    hr ▸ State.onlyHearth.foldl (fun v l => v.onlyHearth_hearthAccess l.1 l.2 false false) lines _
  have hwrite : (u.write (b' * stackSize + off') d).regs = u.regs := State.regs_write u _ d
  have hput : u.keepsMem (u.write (b' * stackSize + off') d) (b' * stackSize + off') 128 := hd ▸ State.keepsMem_write u _ d
  refine ⟨?_, fun x hx => ?_, ?_, fun m => ?_⟩
  · rw [State.bytes_congr hfold.mem, ← hd, State.bytes_write]
  · rw [State.byte_congr hfold.mem, hput x hx, State.byte_congr hlines.mem]
  · exact (hlines.2.trans (State.keepsRegs_of_regs hwrite []) (List.Subset.refl _) (List.nil_subset _)).trans hfold.2
      (List.Subset.refl _) (List.Subset.refl _)
  · rw [hfold.mover, State.mover_write, hlines.mover]

/-- The command is a plain COPY between addresses, with no notice, and unit `k` is not its last. -/
structure Cmd.Copies (c : Cmd) (k : Nat) : Prop where
  op : c.op = 0xA0
  xfm : c.xfm = 0
  srcq : c.srcq = false
  dstq : c.dstq = false
  ntf : c.ntf = false
  na : c.na = false
  more : k + 1 < c.cnt
  src : c.src % 128 = 0
  dst : c.dst % 128 = 0

/-- The unit's source and destination lie in stacks that are up. -/
structure State.CopyPlaces (s : State) (c : Cmd) (k b off b' off' : Nat) : Prop where
  source : s.homeOf ((c.src + 128 * k) % 2 ^ 56) = .hot b off
  sourceUp : s.tierUp (unitHot b) = true
  dest : s.homeOf ((c.dst + 128 * k) % 2 ^ 56) = .hot b' off'
  destUp : s.tierUp (unitHot b') = true

/-- A mover of the I/O die whose descriptor's addresses are physical has unit `k` of command `c` at its head, and no fault or answer stops it. -/
structure State.UnitReady (s : State) (m k : Nat) (c : Cmd) (rest : List MoverUnit) (j : RingJob) : Prop where
  io : 48 ≤ m
  live : s.gridLive = true
  job : (s.mover m).job = some j
  phys : j.phys = true
  queue : (s.mover m).queue = [c]
  inflight : (s.mover m).inflight = .command k :: rest
  fail : (s.mover m).work.fail = 0
  drop : (s.mover m).work.drop = false
  waits : s.unitWaits m = false

theorem State.CopyPlaces.of_samePlaces {c : Cmd} {b off b' off' : Nat} (h : s.CopyPlaces c k b off b' off') (hr : s.samePlaces r) :
    r.CopyPlaces c k b off b' off' :=
  ⟨(hr.homeOf _).trans h.source, (hr.tierUp _).trans h.sourceUp, (hr.homeOf _).trans h.dest, (hr.tierUp _).trans h.destUp⟩

theorem State.UnitReady.noteWait {c : Cmd} {rest : List MoverUnit} {j : RingJob} (h : s.UnitReady m k c rest j) :
    (s.noteWait m false).UnitReady m k c rest j := by
  have hmover := s.mover_noteWait m false
  exact ⟨h.io, h.live, by rw [hmover, h.job], h.phys, by rw [hmover, h.queue], by rw [hmover, h.inflight], by rw [hmover, h.fail],
    by rw [hmover, h.drop], h.waits⟩

section
variable {c : Cmd} {rest : List MoverUnit} {j : RingJob} {b off b' off' : Nat}

theorem State.UnitReady.phys_ctxOf (h : s.UnitReady m k c rest j) (u : MoverUnit) : (s.ctxOf m u).phys = true := Mover.phys_of_job h.job h.phys

theorem State.UnitReady.gives_copy (h : s.UnitReady m k c rest j) (hc : c.Copies k) (hp : s.CopyPlaces c k b off b' off') :
    (unitOf m [c] (.command k)).Gives (s.ctxOf m (.command k)) (.start s) true ((Forming.start s).copying b off b' off') :=
  U.gives_cmdUnitEnd hc.op hc.xfm hc.ntf (U.gives_copyUnit (h.phys_ctxOf _) (State.na_ctxOf h.queue hc.na) rfl h.fail hc.srcq hc.dstq
    hc.src hc.dst hp.source hp.sourceUp hp.dest hp.destUp)

/-- What the copy of a unit leaves as it commits. -/
theorem State.UnitReady.commit_copy (h : s.UnitReady m k c rest j) (hc : c.Copies k)
    (hhas : s.hearthHas b off = true ∨ 0 < (s.mover m).work.used) {r : State}
    (hr : r = s.commitUnit (s.ctxOf m (.command k)) (.command k) true ((Forming.start s).copying b off b' off')) :
    r.bytes (b' * stackSize + off') 128 = s.bytes (b * stackSize + off) 128 ∧ s.keepsMem r (b' * stackSize + off') 128 ∧
      s.keepsRegs r hearthRegs ∧ r.mover m = ⟨[c], rest, some j, k + 1, Work.reset, (s.mover m).lens.filter (·.1 != k)⟩ := by
  rw [State.commitUnit_of_line (f := (Forming.start s).copying b off b' off') (b := b) (off := off / 128 * 128) (h.phys_ctxOf _) rfl rfl rfl rfl rfl
    h.waits ((s.hearthHas_lineStart b off).symm ▸ hhas)] at hr
  have hlen : (s.bytes (b * stackSize + off) 128).length = 128 := State.length_bytes _ _ _
  generalize hu : List.foldl _ _ _ = u at hr
  obtain ⟨hbytes, hkeep, hkregs, hmovers⟩ := s.copied_spec b' off' hlen _ hu.symm
  obtain ⟨hmem, hregs, hmover⟩ := u.unitDone_copy h.io ((congrArg Mover.queue (hmovers m)).trans h.queue) hc.op hc.xfm hc.more 0
  subst hr
  refine ⟨(State.bytes_congr hmem _ _).trans hbytes, fun x hx => (State.byte_congr hmem x).trans (hkeep x hx),
    hkregs.trans (State.keepsRegs_of_regs hregs hearthRegs) (List.Subset.refl _) (List.Subset.refl _), hmover.trans ?_⟩
  rw [hmovers, h.inflight, h.job]
  rfl

/-- MOVER_UNIT_COMPLETE of a unit of a physical COPY, which is not the last. -/
theorem moverUnitComplete_copy (h : s.UnitReady m k c rest j) (hc : c.Copies k) (hp : s.CopyPlaces c k b off b' off')
    (hhas : s.hearthHas b off = true ∨ 0 < (s.mover m).work.used) {r : State} (hr : r = moverUnitComplete m .quiet s) :
    r.bytes (b' * stackSize + off') 128 = s.bytes (b * stackSize + off) 128 ∧ s.keepsMem r (b' * stackSize + off') 128 ∧
      s.keepsRegs r hearthRegs ∧ r.mover m = ⟨[c], rest, some j, k + 1, Work.reset, (s.mover m).lens.filter (·.1 != k)⟩ := by
  have hregs : (s.noteWait m false).regs = s.regs := rfl
  have hp1 := hp.of_samePlaces ((State.keepsRegs_of_regs hregs []).samePlaces (by simp))
  have hmover := s.mover_noteWait m false
  have hhas1 : (s.noteWait m false).hearthHas b off = true ∨ 0 < ((s.noteWait m false).mover m).work.used := by
    rw [hmover]
    exact hhas
  rw [moverUnitComplete_of_gives h.live h.job h.phys h.queue h.inflight (by simp [hc.op]) h.drop (h.noteWait.gives_copy hc hp1)] at hr
  obtain ⟨hbytes, hkeep, hkregs, hm⟩ := h.noteWait.commit_copy hc hhas1 hr
  rw [hmover] at hm
  exact ⟨hbytes, hkeep, hkregs, hm⟩

end

end

end Sys2Proof.Machine
end

section
/-! PROOFS. Movers start units and end commands of count 0, and rings hand out their descriptors (R209, R218, R229, R232). -/
namespace Sys2Proof.Machine

/-! ## A unit starts -/

section
variable {s r : State} {m k : Nat}

theorem State.mover_modMover_ne (s : State) (φ : Mover → Mover) {j : Nat} (h : j ≠ m) : (s.modMover m φ).mover j = s.mover j :=
  s.mover_setMover_ne _ h

/-- Nothing of the state differs but the movers, and of these only mover `m`. -/
def State.onlyMover (s r : State) (m : Nat) : Prop := r = { s with movers := r.movers } ∧ ∀ j, j ≠ m → r.mover j = s.mover j

theorem State.onlyMover.refl (s : State) (m : Nat) : s.onlyMover s m := ⟨rfl, fun _ _ => rfl⟩

theorem State.onlyMover.trans {u : State} (h : s.onlyMover r m) (h' : r.onlyMover u m) : s.onlyMover u m :=
  ⟨by rw [h'.1, h.1], fun j hj => (h'.2 j hj).trans (h.2 j hj)⟩

theorem State.onlyMover_modMover (s : State) (m : Nat) (φ : Mover → Mover) : s.onlyMover (s.modMover m φ) m :=
  ⟨rfl, fun _ hj => s.mover_modMover_ne φ hj⟩

/-- What the LENGTH of a unit changes: the lengths that its mover has read. -/
theorem State.readLength_spec (s : State) (m k : Nat) :
    s.onlyMover (s.readLength m k) m ∧ ∃ l, (s.readLength m k).mover m = { s.mover m with lens := l } := by
  have hid : s.onlyMover s m ∧ ∃ l, s.mover m = { s.mover m with lens := l } := ⟨.refl s m, _, rfl⟩
  unfold State.readLength
  split
  · split
    · exact hid
    · split
      · exact ⟨s.onlyMover_modMover m _, _, s.mover_modMover_same m _⟩
      · exact hid
  · exact hid

/-- MOVER_UNIT_START of a command's next unit, where no stream entry comes first. -/
theorem moverUnitStart_of_nextUnit (hworks : s.moverWorks m = true) (hroom : (s.mover m).inflight.length < 8) (hnext : s.nextUnit m = some k)
    (hstream : ∀ n, m < 48 → s.idlest (m / 4) = m → s.strWinner (m / 4) = some n → s.cmdFirst m (s.strDeadline (m / 4) n) = true) :
    moverUnitStart m s = (s.modMover m (fun x => { x with inflight := x.inflight ++ [.command k] })).readLength m k := by
  unfold moverUnitStart
  rw [if_neg (by simp [hworks]; omega), hnext]
  dsimp only
  refine if_neg ?_
  rw [Bool.and_eq_true, Bool.and_eq_true, decide_eq_true_eq, beq_iff_eq]
  rintro ⟨⟨hm, hidle⟩, hfirst⟩
  cases hw : s.strWinner (m / 4) with
  | none =>
    rw [hw] at hfirst
    cases hfirst
  | some n =>
    rw [hw] at hfirst
    simp [hstream n hm hidle hw] at hfirst

theorem moverUnitStart_spec (hworks : s.moverWorks m = true) (hroom : (s.mover m).inflight.length < 8) (hnext : s.nextUnit m = some k)
    (hstream : ∀ n, m < 48 → s.idlest (m / 4) = m → s.strWinner (m / 4) = some n → s.cmdFirst m (s.strDeadline (m / 4) n) = true)
    (hr : r = moverUnitStart m s) :
    s.onlyMover r m ∧ r.mover m = { s.mover m with inflight := (s.mover m).inflight ++ [.command k], lens := (r.mover m).lens } ∧
      ((∀ c, (s.mover m).queue.head? = some c → c.op ≠ 0xA8) → (r.mover m).lens = (s.mover m).lens) := by
  rw [moverUnitStart_of_nextUnit hworks hroom hnext hstream] at hr
  have hstart := s.onlyMover_modMover m (fun x => { x with inflight := x.inflight ++ [.command k] })
  have hmover := s.mover_modMover_same m (fun x => { x with inflight := x.inflight ++ [.command k] })
  generalize State.modMover s m _ = u at hr hstart hmover
  obtain ⟨hlen, l, hl⟩ := u.readLength_spec m k
  rw [← hr] at hlen hl
  refine ⟨hstart.trans hlen, ?_, fun hop => ?_⟩
  · rw [hl, hmover]
  · cases hq : (s.mover m).queue with
    | nil =>
      unfold State.nextUnit at hnext
      rw [hq] at hnext
      cases hnext
    | cons c q =>
      have hq1 : (u.mover m).queue = c :: q := by rw [hmover, hq]
      rw [hr, State.readLength_of_op hq1 (hop c (by rw [hq]; rfl)), hmover]

end

/-! ## A command of count 0 ends -/

section
variable {s r : State} {t q m : Nat}

theorem State.moved_movedAt (s : State) (t : Nat) : (s.movedAt t).tiles = s.tiles ∧ (s.movedAt t).movers = s.movers := by
  unfold State.movedAt
  split
  · exact ⟨rfl, rfl⟩
  · exact ⟨rfl, rfl⟩

theorem State.regs_setQueue (s : State) (t q : Nat) (x : Queue) : (s.setQueue t q x).regs = s.regs := rfl
theorem State.movers_setQueue (s : State) (t q : Nat) (x : Queue) : (s.setQueue t q x).movers = s.movers := rfl

theorem State.queue_pushFlit (s : State) (t q : Nat) (f : Flit) :
    ∃ h, ((s.pushFlit t q f).queue t q).held = (s.queue t q).held ++ [h] ∧ h.kind = f.kind := by
  unfold State.pushFlit
  dsimp only
  rw [State.queue_congr (State.moved_movedAt _ t).1, State.queue_setQueue_same]
  exact ⟨_, rfl, rfl⟩

theorem State.regs_pushFlit (s : State) (t q : Nat) (f : Flit) : (s.pushFlit t q f).regs = s.regs := by
  rw [State.pushFlit, State.regs_movedAt, State.regs_setQueue, State.setUnit, State.writeNum, State.regs_write]

theorem State.mover_pushFlit (s : State) (t q : Nat) (f : Flit) (m : Nat) : (s.pushFlit t q f).mover m = s.mover m := by
  unfold State.pushFlit
  dsimp only
  rw [State.mover_congr (State.moved_movedAt _ t).2, State.mover_congr (State.movers_setQueue _ _ _ _), State.setUnit, State.writeNum, State.mover_write]

theorem State.pushOuts_one {f : Flit} (hrefuse : s.refuse t q 4 = none) (hroom : s.noRoom t q = false) :
    s.pushOuts t [(q, f)] = (1, false, s.pushFlit t q f) := by
  rw [State.pushOuts, hrefuse]
  dsimp only
  rw [if_neg (by simp [hroom])]
  rfl

theorem State.headStep_of_empty (hq : (s.mover m).queue = []) : s.headStep m 8 = s := by
  rw [State.headStep, hq]

/-- The last command of a port tile's mover ends. -/
theorem State.cmdDone_last {c : Cmd} (hm : m < 48) (hq : (s.mover m).queue = [c]) (units : Nat) (hr : r = s.cmdDone m units) :
    (r.mover m).queue = [] ∧ s.keepsRegs r [Reg.MOV_M_PROG (20 * (m / 4)) (m % 4)] ∧ (∀ t q, r.queue t q = s.queue t q) := by
  have hmover := s.mover_modMover_same m (fun x => { x with queue := x.queue.drop 1, prog := 0 })
  have hregs : (s.modMover m (fun x => { x with queue := x.queue.drop 1, prog := 0 })).regs = s.regs := rfl
  have htiles : (s.modMover m (fun x => { x with queue := x.queue.drop 1, prog := 0 })).tiles = s.tiles := rfl
  unfold State.cmdDone State.popCmd at hr
  rw [if_pos hm, if_pos hm] at hr
  generalize State.modMover s m _ = u at hr hmover hregs htiles
  have hqueue : ((u.setReg (Reg.MOV_M_PROG (20 * (m / 4)) (m % 4)) 0).mover m).queue = [] := by
    rw [State.mover_congr (u.setReg_movers _ _), hmover, hq]
    rfl
  rw [State.headStep_of_empty hqueue] at hr
  subst hr
  exact ⟨hqueue, (State.keepsRegs_of_regs hregs []).trans ((State.onlyRegs.refl u _).setReg 0 List.mem_cons_self).2 (List.nil_subset _) (List.Subset.refl _),
    fun t q => (State.queue_congr rfl t q).trans (State.queue_congr htiles t q)⟩

/-- ZERO_COUNT_COMMAND of the last command of a mover, with a notice. -/
theorem zeroCountCommand_spec {c : Cmd} (hm : m < 48) (hruns : s.moverRuns m = true) (hq : (s.mover m).queue = [c]) (hempty : cmdEmpty c = true)
    (hntf : c.ntf = true) (hdstq : c.dstq = false) (hrefuse : s.refuse (moverTile m) c.nq 4 = none)
    (hroom : s.noRoom (moverTile m) c.nq = false) (hr : r = zeroCountCommand m s) :
    (r.mover m).queue = [] ∧
      (∃ h, (r.queue (moverTile m) c.nq).held = (s.queue (moverTile m) c.nq).held ++ [h] ∧ h.kind = .empty) ∧
      s.keepsRegs r [Reg.MOV_M_PROG (20 * (m / 4)) (m % 4)] := by
  have hends : zeroCountCommand m s = (s.pushFlit (moverTile m) c.nq ⟨.empty, 0⟩).cmdDone m 0 := by
    unfold zeroCountCommand
    rw [hq]
    dsimp only
    rw [if_neg (by simp [hruns, hempty]), hntf, hdstq]
    simp only [if_true, Bool.false_eq_true, if_false, List.append_nil, List.findSome?_cons, List.findSome?_nil, hrefuse]
    rw [State.pushOuts_one hrefuse hroom]
    exact if_neg (by simp)
  rw [hends] at hr
  obtain ⟨h, hheld, hkind⟩ := s.queue_pushFlit (moverTile m) c.nq ⟨.empty, 0⟩
  have hregs := s.regs_pushFlit (moverTile m) c.nq ⟨.empty, 0⟩
  have hmover := s.mover_pushFlit (moverTile m) c.nq ⟨.empty, 0⟩ m
  obtain ⟨hqueue, hkeep, hqueues⟩ := State.cmdDone_last hm ((congrArg Mover.queue hmover).trans hq) 0 hr
  exact ⟨hqueue, ⟨h, by rw [hqueues, hheld], hkind⟩,
    (State.keepsRegs_of_regs hregs []).trans hkeep (List.nil_subset _) (List.Subset.refl _)⟩

end

end Sys2Proof.Machine
end

section
/-! PROOFS. Rings hand out their descriptors, and RING_KICK rereads their TAILs (R232). -/
namespace Sys2Proof.Machine

/-! ## A descriptor is taken -/

/-- The index of the descriptor that a ring hands out next. -/
def State.nextDesc (s : State) (ring : Nat) : Nat := s.ringNext.toList.getD ring 0

/-- The place of that descriptor in memory. -/
def State.nextDescAt (s : State) (ring : Nat) : Nat :=
  s.ringBase ring + 64 * (s.nextDesc ring % 2 ^ s.fld (Reg.TIER_IORING_BASE_HI.LOG2N ring))

/-- The job that a descriptor of 64 bytes gives. -/
def descJob (ring i : Nat) (d : List Byte) : RingJob :=
  ⟨ring, i, leNat ((d.drop 3).take 1) % 16, bitOf (leNat ((d.drop 2).take 1)) 1, leNat ((d.drop 40).take 8), none⟩

/-- Mover `m` takes descriptor `i`, of bytes `d`, from a ring, whose next one is `n`. -/
def State.takeDesc (s : State) (m ring i n : Nat) (d : List Byte) : State :=
  let s := { s with ringNext := s.ringNext.setIfInBounds ring n }
  s.modMover m (fun x => { x with job := some (descJob ring i d), queue := [{ descCmd d with headAt := s.fcycles }], prog := 0, work := Work.reset })

section
variable {s r : State} {k m ring i n : Nat} {d : List Byte}

theorem State.nextDesc_takeDesc (hring : ring < 4) : (s.takeDesc m ring i n d).nextDesc ring = n := by
  unfold State.takeDesc State.nextDesc State.modMover
  rw [State.setMover_ringNext]
  simp [hring]

theorem State.mover_takeDesc_same (s : State) (m ring i n : Nat) (d : List Byte) : (s.takeDesc m ring i n d).mover m =
    { s.mover m with job := some (descJob ring i d), queue := [{ descCmd d with headAt := s.fcycles }], prog := 0, work := Work.reset } :=
  State.mover_modMover_same _ m _

theorem State.mover_takeDesc_ne (s : State) (ring i n : Nat) (d : List Byte) {j : Nat} (h : j ≠ m) :
    (s.takeDesc m ring i n d).mover j = s.mover j :=
  (State.mover_modMover_ne _ _ h).trans (State.mover_congr rfl j)

theorem State.takeDesc_state (hr : r = s.takeDesc m ring i n d) : r = { s with movers := r.movers, ringNext := r.ringNext } := by
  subst hr
  rfl

/-- A descriptor that a mover takes, of a ring whose lines have passed through the Hearth cache. -/
theorem State.takeDesc_spec {u : State} (hring : ring < 4) (h : s.onlyHearth u) (hr : r = u.takeDesc m ring i n d) :
    (r.mover m).job = some (descJob ring i d) ∧ (r.mover m).queue = [{ descCmd d with headAt := s.fcycles }] ∧ (r.mover m).prog = 0 ∧
      r.nextDesc ring = n ∧ r = { s with movers := r.movers, ringNext := r.ringNext, hearth := r.hearth, regs := r.regs } ∧
      s.keepsRegs r hearthRegs ∧ (∀ j, j ≠ m → r.mover j = s.mover j) := by
  have hcycles : u.fcycles = s.fcycles := by rw [h.1]
  have hmover := u.mover_takeDesc_same m ring i n d
  have hothers := fun j (hj : j ≠ m) => (u.mover_takeDesc_ne ring i n d hj).trans (h.mover j)
  have hnext := State.nextDesc_takeDesc (s := u) (m := m) (i := i) (n := n) (d := d) hring
  rw [← hr, hcycles] at hmover
  rw [← hr] at hnext hothers
  have hstate := State.takeDesc_state hr
  have hregs : r.regs = u.regs := by rw [hstate]
  refine ⟨by rw [hmover], by rw [hmover], by rw [hmover], hnext, ?_, fun o ho => (State.reg_congr hregs o).trans (h.2 o ho), hothers⟩
  rw [hstate, h.1]

/-- What a mover does that takes a descriptor that names work, of a ring that may run. -/
theorem ioringDescriptor_of_work (hlive : s.gridLive = true) (hjob : (s.mover (48 + k)).job = none) (hidle : s.ringIdle (k / 4) = true)
    (hfill : s.fillingIn (s.nextDescAt (k / 4)) 64 = false) (hnext : s.nextDesc (k / 4) ≠ s.ringTail.toList.getD (k / 4) 0)
    (hd : d = s.bytes (s.nextDescAt (k / 4)) 64) (hbad : descBad (descCmd d) (bitOf (leNat ((d.drop 2).take 1)) 1) = false)
    (hempty : cmdEmpty (descCmd d) = false) :
    ioringDescriptor k s =
      (s.pass (s.nextDescAt (k / 4)) 64 false).takeDesc (48 + k) (k / 4) (s.nextDesc (k / 4)) ((s.nextDesc (k / 4) + 1) % 2 ^ 16) d := by
  have hpass := s.onlyHearth_pass (s.nextDescAt (k / 4)) 64 false
  have hstart : ¬ (s.nextDesc (k / 4) = s.ringTail.toList.getD (k / 4) 0 ∨ s.ringIdle (k / 4) = false ∨ s.fillingIn (s.nextDescAt (k / 4)) 64 = true) := by
    rintro (h | h | h)
    · exact hnext h
    · rw [hidle] at h
      cases h
    · rw [hfill] at h
      cases h
  unfold ioringDescriptor
  extract_lets m r i a u b f c j u1 u2
  have hbytes : b = d := (State.bytes_congr hpass.mem _ _).trans hd.symm
  rw [if_neg (by rw [hlive]; decide), if_neg (by rw [hjob]; decide)]
  refine (if_neg hstart).trans ?_
  clear_value b
  subst hbytes
  -- the descriptor names work, so that it is not ended at once
  refine (if_neg fun h => Bool.noConfusion (hbad.symm.trans h)).trans ((if_neg fun h => Bool.noConfusion (hempty.symm.trans h)).trans ?_)
  rfl

end

/-! ## RING_KICK -/

/-- A write of TIER_CTRL takes INT_EN, and rereads the TAILs where its bit 0 is set. -/
theorem State.writeTierCtrl_spec {s r : State} {v : Word} (hr : r = s.writeTierCtrl v) :
    r.flag Reg.TIER_CTRL.INT_EN = bitOf v.toNat 1 ∧
      (∀ i < 4, r.ringTail.toList.getD i 0 = if bitOf v.toNat 0 then s.fld (Reg.TIER_IORING_TAIL.INDEX i) else s.ringTail.toList.getD i 0) ∧
      r = { s with regs := r.regs, ringTail := r.ringTail } ∧ s.keepsRegs r [Reg.TIER_CTRL] := by
  have hset := (State.onlyRegs.refl s [Reg.TIER_CTRL]).setFld (f := Reg.TIER_CTRL.INT_EN) (bits v.toNat 1 1) (by simp)
  have hint : (s.setFld Reg.TIER_CTRL.INT_EN (bits v.toNat 1 1)).flag Reg.TIER_CTRL.INT_EN = bitOf v.toNat 1 := by
    have hlt : bits v.toNat 1 1 < 2 := Nat.mod_lt _ (by decide)
    rw [State.flag, State.fld_setFld_same _ _ _ (by decide), ← decide_bits_one, show 2 ^ Reg.TIER_CTRL.INT_EN.width = 2 from rfl, Nat.mod_eq_of_lt hlt]
  have htail : ∀ i, (s.setFld Reg.TIER_CTRL.INT_EN (bits v.toNat 1 1)).fld (Reg.TIER_IORING_TAIL.INDEX i) = s.fld (Reg.TIER_IORING_TAIL.INDEX i) := fun i =>
    State.fld_setFld_ne _ _ _ _ (by show Reg.TIER_IORING_TAIL i ≠ Reg.TIER_CTRL; unfold Reg.TIER_IORING_TAIL Reg.TIER_CTRL; omega)
  unfold State.writeTierCtrl at hr
  dsimp only at hr
  generalize s.setFld Reg.TIER_CTRL.INT_EN (bits v.toNat 1 1) = u at hr hset hint htail
  split at hr
  · next hkick =>
    subst hr
    refine ⟨hint, fun i hi => ?_, ?_, hset.2⟩
    · rw [if_pos hkick]
      interval_cases i
      · exact htail 0
      · exact htail 1
      · exact htail 2
      · exact htail 3
    · rw [hset.1]
  · next hkick =>
    subst hr
    refine ⟨hint, fun i hi => ?_, ?_, hset.2⟩
    · rw [if_neg hkick, hset.1]
    · rw [hset.1]

/-! ## The statements on the rows -/

/-- Settles O45: each row by what it leaves, and the unit of a COPY by what its computation gives. -/
theorem moversRunTheirUnits : Obligations.MoversRunTheirUnits := by
  unfold Obligations.MoversRunTheirUnits
  refine ⟨fun m s k hworks hroom hnext hstream => ?_, fun m s k b off b' off' c rest j hm hlive hjob hphys hq hinflight hop hxfm hsrcq hdstq hntf hna
    hmore hfail hdrop _ hwait hsrc hdst hfrom hup hhas hto hup' => ?_, fun m s c hm hruns hq hempty hntf hdstq hrefuse hroom => ?_,
    fun k s hlive hjob => ?_, fun v s hlive => ?_⟩
  · obtain ⟨⟨hstate, hothers⟩, hmover, hlens⟩ := moverUnitStart_spec hworks hroom hnext hstream rfl
    exact ⟨_, rfl, hmover, hlens, hothers, hstate⟩
  · obtain ⟨hbytes, hkeep, hregs, hmover⟩ := moverUnitComplete_copy ⟨hm, hlive, hjob, hphys, hq, hinflight, hfail, hdrop, hwait⟩
      ⟨hop, hxfm, hsrcq, hdstq, hntf, hna, hmore, hsrc, hdst⟩ ⟨hfrom, hup, hto, hup'⟩ hhas rfl
    refine ⟨_, rfl, hbytes, hkeep, ?_, by rw [hmover], by rw [hmover], hregs⟩
    rw [State.moverProg, if_neg (by omega), hmover]
  · obtain ⟨hqueue, hheld, hregs⟩ := zeroCountCommand_spec hm hruns hq hempty hntf hdstq hrefuse hroom rfl
    exact ⟨_, rfl, hqueue, hheld, hregs⟩
  · intro ring i a d f hidle hfill hnext hbad hempty
    have htakes := ioringDescriptor_of_work hlive hjob hidle hfill hnext rfl hbad hempty
    obtain ⟨hjob', hqueue, hprog, hring, hstate, hregs, hothers⟩ :=
      State.takeDesc_spec (by omega) (s.onlyHearth_pass (s.nextDescAt (k.val / 4)) 64 false) htakes
    exact ⟨_, rfl, hjob', hqueue, hprog, hring, hstate, hregs, hothers⟩
  · obtain ⟨hint, htails, hstate, hregs⟩ := State.writeTierCtrl_spec (s := s) (v := v) rfl
    refine ⟨s.writeTierCtrl v, ?_, hint, htails, hstate, hregs⟩
    exact congrArg Host.Outcome.next (State.byFirmware_live hlive _ _)

end Sys2Proof.Machine
end

section
/-! PROOFS. What a command queue and a stream change: the place of a command in its queue, and PREF CANCEL, START and STOP at the head of one
(R214, R219, R229). -/
namespace Sys2Proof.Machine

/-! ## Frames -/

/-- Nothing but registers at offsets of `l`, mover `m` and the streams differs. -/
def State.onlyMoving (s r : State) (m : Nat) (l : List Nat) : Prop :=
  r = { s with regs := r.regs, movers := r.movers, streams := r.streams } ∧ s.keepsRegs r l ∧ ∀ j, j ≠ m → r.mover j = s.mover j

section
variable {s r u : State} {m : Nat} {l k : List Nat}

theorem State.onlyMoving.trans (h : s.onlyMoving r m l) (h' : r.onlyMoving u m l) : s.onlyMoving u m l := by
  obtain ⟨hr, hkeep, hothers⟩ := h
  obtain ⟨hu, hkeep', hothers'⟩ := h'
  exact ⟨by rw [hu, hr], hkeep.trans hkeep' (List.Subset.refl l) (List.Subset.refl l), fun j hj => (hothers' j hj).trans (hothers j hj)⟩

theorem State.onlyMoving.mono (h : s.onlyMoving r m l) (hl : l ⊆ k) : s.onlyMoving r m k := by
  obtain ⟨hr, hkeep, hothers⟩ := h
  exact ⟨hr, hkeep.mono hl, hothers⟩

theorem State.onlyRegs.onlyMoving (h : s.onlyRegs r l) (m : Nat) : s.onlyMoving r m l := by
  obtain ⟨hr, hkeep⟩ := h
  exact ⟨by rw [hr], hkeep, fun j _ => State.mover_congr (by rw [hr]) j⟩

theorem State.onlyMoving_modMover (s : State) (m : Nat) (φ : Mover → Mover) (l : List Nat) : s.onlyMoving (s.modMover m φ) m l :=
  ⟨rfl, fun _ _ => rfl, fun _ hj => s.mover_modMover_ne φ hj⟩

theorem State.onlyMoving_modStream (s : State) (b n : Nat) (φ : Stream → Stream) (m : Nat) (l : List Nat) :
    s.onlyMoving (s.modStream b n φ) m l :=
  ⟨rfl, fun _ _ => rfl, fun _ _ => rfl⟩

theorem State.stream_modStream_same (s : State) (b n : Nat) (φ : Stream → Stream) : (s.modStream b n φ).stream b n = φ (s.stream b n) :=
  s.stream_setStream_same b n _

end

/-! ## STATE and POS of a stream (R219, log 52) -/

/-- The registers of a stream that the module itself writes. -/
def streamRegs (b n : Nat) : List Nat := [Reg.MOV_STR_STAT (20 * b) n, Reg.MOV_STR_POS (20 * b) n]

section
variable {s r : State} {b n : Nat}

/-- The number of a stream's entries is in none of these registers. -/
theorem State.keepsRegs.strEntries (h : s.keepsRegs r (streamRegs b n)) : r.strEntries b n = s.strEntries b n :=
  h.fld (f := Reg.MOV_STR_A_LIST_HI.NENT (20 * b) n) (by
    simp only [streamRegs, Reg.MOV_STR_A_LIST_HI, Reg.MOV_STR_STAT, Reg.MOV_STR_POS, List.mem_cons, List.not_mem_nil, or_false]
    omega)

theorem State.strSpent_congr (hstream : r.stream b n = s.stream b n) (hentries : r.strEntries b n = s.strEntries b n) :
    r.strSpent b n = s.strSpent b n := by
  rw [State.strSpent, hstream, hentries, State.strSpent]

/-- Without a bound a stream is spent past its last entry. -/
theorem State.strSpent_iff (h : (s.stream b n).stopAt = none) :
    s.strSpent b n = true ↔ s.strEntries b n ≤ (s.stream b n).next ∧ (s.stream b n).redo = [] := by
  have hbound : (s.stream b n).bound = none := by rw [Stream.bound, h]
  simp [State.strSpent, hbound, and_comm]

variable (s b n)

theorem State.strSpent_setPos (v : Nat) : (s.setFld (Reg.MOV_STR_POS.COMPLETE (20 * b) n) v).strSpent b n = s.strSpent b n :=
  State.strSpent_congr rfl (State.keepsRegs.strEntries ((State.onlyRegs.refl s (streamRegs b n)).setFld v (by simp [streamRegs])).2)

theorem State.strState_strSettle : (s.strSettle b n).strState b n =
    if s.strSpent b n then (if (s.stream b n).started = [] then 3 else 2) else s.strState b n := by
  have hpos (v : Nat) : (s.setFld (Reg.MOV_STR_POS.COMPLETE (20 * b) n) v).strState b n = s.strState b n :=
    State.fld_setFld_ne _ _ _ _ (by simp only [Reg.MOV_STR_STAT, Reg.MOV_STR_POS]; omega)
  unfold State.strSettle
  dsimp only
  rw [s.strSpent_setPos]
  split
  · refine (State.fld_setFld_same _ (Reg.MOV_STR_STAT.STATE (20 * b) n) _ (by dsimp only; decide)).trans ?_
    simp only [List.isEmpty_iff]
    split
    · rfl
    · rfl
  · exact hpos _

theorem State.gcount_strSettle :
    (s.strSettle b n).fld (Reg.MOV_STR_STAT.GCOUNT (20 * b) n) = s.fld (Reg.MOV_STR_STAT.GCOUNT (20 * b) n) := by
  have hpos (v : Nat) : (s.setFld (Reg.MOV_STR_POS.COMPLETE (20 * b) n) v).fld (Reg.MOV_STR_STAT.GCOUNT (20 * b) n) =
      s.fld (Reg.MOV_STR_STAT.GCOUNT (20 * b) n) :=
    State.fld_setFld_ne _ _ _ _ (by simp only [Reg.MOV_STR_STAT, Reg.MOV_STR_POS]; omega)
  unfold State.strSettle
  dsimp only
  split
  · exact (State.fld_setFld_disjoint _ (Reg.MOV_STR_STAT.STATE (20 * b) n) (Reg.MOV_STR_STAT.GCOUNT (20 * b) n) _ rfl
      (by dsimp only; decide) (by dsimp only; decide)).trans (hpos _)
  · exact hpos _

theorem State.stream_strSettle : (s.strSettle b n).stream b n = s.stream b n := State.stream_congr (by rw [(s.onlyRegs_strSettle b n).1]) b n

end

/-! ## PREF CANCEL, START and STOP (R219, R229) -/

section
variable (s : State) (b n : Nat)

/-- The registers of a pass that begins. -/
def State.passRegs (s : State) (b n : Nat) : State :=
  ((s.setFld (Reg.MOV_STR_STAT.STATE (20 * b) n) 1).setFld (Reg.MOV_STR_STAT.GCOUNT (20 * b) n) 0).addFld (Reg.MOV_STR_POS.PASS (20 * b) n) 1

theorem State.passRegs_spec : (s.passRegs b n).strState b n = 1 ∧ (s.passRegs b n).fld (Reg.MOV_STR_STAT.GCOUNT (20 * b) n) = 0 ∧
    s.onlyRegs (s.passRegs b n) (streamRegs b n) := by
  have hne : Reg.MOV_STR_STAT (20 * b) n ≠ Reg.MOV_STR_POS (20 * b) n := by simp only [Reg.MOV_STR_STAT, Reg.MOV_STR_POS]; omega
  unfold State.passRegs
  refine ⟨?_, ?_, (((State.onlyRegs.refl s _).setFld _ (by simp [streamRegs])).setFld _ (by simp [streamRegs])).setFld _ (by simp [streamRegs])⟩
  · refine (State.fld_setFld_ne _ (Reg.MOV_STR_POS.PASS (20 * b) n) (Reg.MOV_STR_STAT.STATE (20 * b) n) _ hne).trans ?_
    rw [State.fld_setFld_disjoint _ (Reg.MOV_STR_STAT.GCOUNT (20 * b) n) (Reg.MOV_STR_STAT.STATE (20 * b) n) _ rfl (by dsimp only; decide)
      (by dsimp only; decide)]
    exact State.fld_setFld_same _ (Reg.MOV_STR_STAT.STATE (20 * b) n) _ (by dsimp only; decide)
  · refine (State.fld_setFld_ne _ (Reg.MOV_STR_POS.PASS (20 * b) n) (Reg.MOV_STR_STAT.GCOUNT (20 * b) n) _ hne).trans ?_
    exact State.fld_setFld_same _ (Reg.MOV_STR_STAT.GCOUNT (20 * b) n) _ (by dsimp only; decide)

/-- A stream whose next pass begins at an entry. -/
def Stream.newPass (x : Stream) (entry fcycles : Nat) : Stream :=
  { x with pass := x.pass + 1, next := entry, cancelled := [], stopAt := none, lastRelease := fcycles }

/-- A stream bounded in its pass: what a stop left of the pass at or beyond the bound does not start again. -/
def Stream.bounded (x : Stream) (bound : Nat) : Stream :=
  { x with stopAt := some (x.pass, bound), redo := x.redo.filter (fun i => i.pass != x.pass || decide (i.entry < bound)) }

theorem State.strStart_eq (entry : Nat) :
    s.strStart b n entry = ((s.modStream b n (·.newPass entry s.fcycles)).passRegs b n).strSettle b n := rfl

theorem State.strStop_eq (bound : Nat) : s.strStop b n bound = (s.modStream b n (·.bounded bound)).strSettle b n := rfl

variable (m : Nat)

theorem State.strStart_spec (entry : Nat) :
    let r := s.strStart b n entry
    r.stream b n = (s.stream b n).newPass entry s.fcycles ∧ r.fld (Reg.MOV_STR_STAT.GCOUNT (20 * b) n) = 0 ∧
      r.strState b n = (if s.strEntries b n ≤ entry ∧ (s.stream b n).redo = [] then (if (s.stream b n).started = [] then 3 else 2) else 1) ∧
      r.movers = s.movers ∧ s.onlyMoving r m (streamRegs b n) := by
  have hmod := s.onlyMoving_modStream b n (·.newPass entry s.fcycles) m (streamRegs b n)
  have hstream := s.stream_modStream_same b n (·.newPass entry s.fcycles)
  have hmovers : (s.modStream b n (·.newPass entry s.fcycles)).movers = s.movers := rfl
  dsimp only
  rw [s.strStart_eq]
  generalize State.modStream s b n _ = v at *
  obtain ⟨hstate, hcount, hpass⟩ := v.passRegs_spec b n
  generalize v.passRegs b n = u at *
  have hustream : u.stream b n = v.stream b n := State.stream_congr (by rw [hpass.1]) b n
  have hframe := hmod.trans (hpass.onlyMoving m)
  have hentries : u.strEntries b n = s.strEntries b n := hframe.2.1.strEntries
  have hsettle := u.onlyRegs_strSettle b n
  refine ⟨?_, (u.gcount_strSettle b n).trans hcount, ?_, ?_, hframe.trans (hsettle.onlyMoving m)⟩
  · rw [u.stream_strSettle, hustream, hstream]
  · have hspent := State.strSpent_iff (s := u) (b := b) (n := n) (by rw [hustream, hstream]; rfl)
    rw [hentries, hustream, hstream] at hspent
    rw [u.strState_strSettle, hstate, hustream, hstream]
    exact if_congr hspent rfl rfl
  · rw [hsettle.1, hpass.1]
    exact hmovers

theorem State.strStop_spec (bound : Nat) :
    let r := s.strStop b n bound
    r.stream b n = (s.stream b n).bounded bound ∧ r.strEntries b n = s.strEntries b n ∧ r.movers = s.movers ∧
      s.onlyMoving r m (streamRegs b n) := by
  have hmod := s.onlyMoving_modStream b n (·.bounded bound) m (streamRegs b n)
  have hstream := s.stream_modStream_same b n (·.bounded bound)
  have hmovers : (s.modStream b n (·.bounded bound)).movers = s.movers := rfl
  dsimp only
  rw [s.strStop_eq]
  generalize State.modStream s b n _ = v at *
  have hsettle := v.onlyRegs_strSettle b n
  have hframe := hmod.trans (hsettle.onlyMoving m)
  exact ⟨by rw [v.stream_strSettle, hstream], hframe.2.1.strEntries, by rw [hsettle.1]; exact hmovers, hframe⟩

variable {s b n}

/-- A STOP in the pass that its stream is in is complete when nothing is left to start or to complete below its bound. -/
theorem State.strStopped_iff {bound : Nat} (h : (s.stream b n).stopAt = some ((s.stream b n).pass, bound)) :
    s.strStopped b n = true ↔ (s.stream b n).redo = [] ∧ (s.strEntries b n ≤ (s.stream b n).next ∨ bound ≤ (s.stream b n).next) ∧
      (s.stream b n).started = [] := by
  have hbound : (s.stream b n).bound = some bound := by rw [Stream.bound, h]; exact if_pos rfl
  simp only [State.strStopped, h, State.strSpent, hbound]
  simp [and_assoc]

end

/-! ## Heads of command queues (R214, R219) -/

section
variable {s r : State} {m : Nat} {c : Cmd}

/-- The registers that a PREF at the head of a mover's queue writes. -/
def prefRegs (m n : Nat) : List Nat := Reg.MOV_M_PROG (20 * (m / 4)) (m % 4) :: streamRegs (m / 4) n

theorem State.headStep_nil (hq : (s.mover m).queue = []) : ∀ k, s.headStep m k = s
  | 0 => rfl
  | k + 1 => by rw [State.headStep, hq]

/-- The only command of a queue leaves it. -/
theorem State.popCmd_last (hm : m < 48) (hq : (s.mover m).queue = [c]) :
    ((s.popCmd m).mover m).queue = [] ∧ (s.popCmd m).streams = s.streams ∧
      s.onlyMoving (s.popCmd m) m [Reg.MOV_M_PROG (20 * (m / 4)) (m % 4)] := by
  have hmover := s.mover_modMover_same m (fun x => { x with queue := x.queue.drop 1, prog := 0 })
  have hmod := s.onlyMoving_modMover m (fun x => { x with queue := x.queue.drop 1, prog := 0 }) [Reg.MOV_M_PROG (20 * (m / 4)) (m % 4)]
  have hstreams : (s.modMover m (fun x => { x with queue := x.queue.drop 1, prog := 0 })).streams = s.streams := rfl
  unfold State.popCmd
  rw [if_pos hm]
  generalize State.modMover s m _ = u at *
  have hframe := hmod.trans (((State.onlyRegs.refl u _).setReg (o := Reg.MOV_M_PROG (20 * (m / 4)) (m % 4)) 0 (by simp)).onlyMoving m)
  refine ⟨?_, hstreams, hframe⟩
  rw [State.mover_congr (u.setReg_movers _ _), hmover, hq]
  rfl

theorem State.headStep_cancel (hm : m < 48) (hq : (s.mover m).queue = [c]) (hop : c.op = 0xA2) (hx : c.xfm = 1) :
    s.headStep m 8 = (s.strCancel (m / 4) (c.src % 16) c.aux c.cnt).popCmd m := by
  have hleft := (State.popCmd_last (s := s.strCancel (m / 4) (c.src % 16) c.aux c.cnt) hm hq).1
  rw [State.headStep, hq]
  dsimp only
  rw [if_pos ⟨hop, hx⟩, State.headStep_nil hleft]

theorem State.headStep_start (hm : m < 48) (hq : (s.mover m).queue = [c]) (hop : c.op = 0xA2) (hx : c.xfm = 3) :
    s.headStep m 8 = (s.strStart (m / 4) (c.src % 16) c.aux).popCmd m := by
  obtain ⟨-, -, -, hmovers, -⟩ := s.strStart_spec (m / 4) (c.src % 16) m c.aux
  have hleft := (State.popCmd_last (s := s.strStart (m / 4) (c.src % 16) c.aux) hm (by rw [State.mover_congr hmovers, hq])).1
  rw [State.headStep, hq]
  dsimp only
  rw [if_neg (by simp [hx]), if_pos ⟨hop, hx⟩, State.headStep_nil hleft]

theorem State.headStep_stop (hm : m < 48) (hq : (s.mover m).queue = [c]) (hop : c.op = 0xA2) (hx : c.xfm = 2) :
    s.headStep m 8 = if (s.strStop (m / 4) (c.src % 16) c.aux).strStopped (m / 4) (c.src % 16)
      then (s.strStop (m / 4) (c.src % 16) c.aux).popCmd m else s.strStop (m / 4) (c.src % 16) c.aux := by
  obtain ⟨-, -, hmovers, -⟩ := s.strStop_spec (m / 4) (c.src % 16) m c.aux
  have hleft := (State.popCmd_last (s := s.strStop (m / 4) (c.src % 16) c.aux) hm (by rw [State.mover_congr hmovers, hq])).1
  rw [State.headStep, hq]
  dsimp only
  rw [if_neg (by simp [hx]), if_neg (by simp [hx]), if_pos ⟨hop, hx⟩, State.headStep_nil hleft]

/-- Any other command at the head of its queue stays there; the f-cycle is noted. -/
theorem State.headStep_other (hq : (s.mover m).queue = [c]) (h : ¬ (c.op = 0xA2 ∧ (c.xfm = 1 ∨ c.xfm = 2 ∨ c.xfm = 3))) :
    (s.headStep m 8).mover m = { s.mover m with queue := [{ c with headAt := s.fcycles }] } ∧ s.onlyMover (s.headStep m 8) m := by
  rw [State.headStep, hq]
  dsimp only
  rw [if_neg fun hc => h ⟨hc.1, .inl hc.2⟩, if_neg fun hc => h ⟨hc.1, .inr (.inr hc.2)⟩, if_neg fun hc => h ⟨hc.1, .inr (.inl hc.2)⟩]
  refine ⟨?_, s.onlyMover_modMover m _⟩
  rw [State.mover_modMover_same, hq]

end

section
variable {s r : State} {m b n : Nat} {c : Cmd} (hm : m < 48) (hb : m / 4 = b) (hn : c.src % 16 = n) (hq : (s.mover m).queue = [c])
  (hop : c.op = 0xA2) (hr : r = s.headStep m 8)
include hm hb hn hq hop hr

theorem State.headStep_cancel_spec (hx : c.xfm = 1) :
    (r.mover m).queue = [] ∧
      r.stream b n = { s.stream b n with cancelled := (s.stream b n).cancelled ++ [(c.aux, c.cnt)] } ∧ s.onlyMoving r m (prefRegs m n) := by
  subst hb hn
  have hcancel : s.onlyMoving (s.strCancel (m / 4) (c.src % 16) c.aux c.cnt) m (prefRegs m (c.src % 16)) := s.onlyMoving_modStream _ _ _ m _
  have hstream : (s.strCancel (m / 4) (c.src % 16) c.aux c.cnt).stream (m / 4) (c.src % 16) = _ := s.stream_modStream_same _ _ _
  obtain ⟨hleft, hstreams, hpop⟩ := State.popCmd_last (s := s.strCancel (m / 4) (c.src % 16) c.aux c.cnt) hm hq
  rw [State.headStep_cancel hm hq hop hx] at hr
  subst hr
  exact ⟨hleft, (State.stream_congr hstreams _ _).trans hstream, hcancel.trans (hpop.mono (by simp [prefRegs]))⟩

theorem State.headStep_start_spec (hx : c.xfm = 3) :
    (r.mover m).queue = [] ∧ r.stream b n = (s.stream b n).newPass c.aux s.fcycles ∧ r.fld (Reg.MOV_STR_STAT.GCOUNT (20 * b) n) = 0 ∧
      r.strState b n = (if s.strEntries b n ≤ c.aux ∧ (s.stream b n).redo = [] then (if (s.stream b n).started = [] then 3 else 2) else 1) ∧
      s.onlyMoving r m (prefRegs m n) := by
  subst hb hn
  have hfar : Reg.MOV_STR_STAT (20 * (m / 4)) (c.src % 16) ∉ [Reg.MOV_M_PROG (20 * (m / 4)) (m % 4)] := by
    simp only [Reg.MOV_STR_STAT, Reg.MOV_M_PROG, List.mem_singleton]
    omega
  rw [State.headStep_start hm hq hop hx] at hr
  obtain ⟨hstream, hcount, hstate, hmovers, hstart⟩ := s.strStart_spec (m / 4) (c.src % 16) m c.aux
  generalize s.strStart (m / 4) (c.src % 16) c.aux = u at *
  obtain ⟨hleft, hstreams, hpop⟩ := State.popCmd_last hm ((congrArg Mover.queue (State.mover_congr hmovers m)).trans hq)
  subst hr
  exact ⟨hleft, (State.stream_congr hstreams _ _).trans hstream, (hpop.2.1.fld hfar).trans hcount, (hpop.2.1.fld hfar).trans hstate,
    (hstart.mono (by simp [prefRegs])).trans (hpop.mono (by simp [prefRegs]))⟩

theorem State.headStep_stop_spec (hx : c.xfm = 2) :
    ((r.mover m).queue = [] ↔ ((s.stream b n).bounded c.aux).redo = [] ∧
        (s.strEntries b n ≤ (s.stream b n).next ∨ c.aux ≤ (s.stream b n).next) ∧ (s.stream b n).started = []) ∧
      r.stream b n = (s.stream b n).bounded c.aux ∧ s.onlyMoving r m (prefRegs m n) := by
  subst hb hn
  rw [State.headStep_stop hm hq hop hx] at hr
  obtain ⟨hstream, hentries, hmovers, hstop⟩ := s.strStop_spec (m / 4) (c.src % 16) m c.aux
  generalize s.strStop (m / 4) (c.src % 16) c.aux = u at *
  have huq : (u.mover m).queue = [c] := (congrArg Mover.queue (State.mover_congr hmovers m)).trans hq
  have hover := State.strStopped_iff (s := u) (b := m / 4) (n := c.src % 16) (bound := c.aux) (by rw [hstream]; rfl)
  rw [hentries, hstream] at hover
  have hframe := hstop.mono (k := prefRegs m (c.src % 16)) (by simp [prefRegs])
  refine ⟨Iff.trans ?_ hover, ?_⟩
  · split at hr
    · next hdone => exact iff_of_true (hr ▸ (State.popCmd_last hm huq).1) hdone
    · next hdone => exact iff_of_false (by simp [hr, huq]) hdone
  · split at hr
    · obtain ⟨-, hstreams, hpop⟩ := State.popCmd_last hm huq
      subst hr
      exact ⟨(State.stream_congr hstreams _ _).trans hstream, hframe.trans (hpop.mono (by simp [prefRegs]))⟩
    · subst hr
      exact ⟨hstream, hframe⟩

/-- What any PREF of a stream at a head leaves alone. -/
theorem State.headStep_pref_frame (hx : c.xfm = 1 ∨ c.xfm = 2 ∨ c.xfm = 3) : s.onlyMoving r m (prefRegs m n) := by
  obtain hx | hx | hx := hx
  · obtain ⟨-, -, hframe⟩ := State.headStep_cancel_spec hm hb hn hq hop hr hx
    exact hframe
  · obtain ⟨-, -, hframe⟩ := State.headStep_stop_spec hm hb hn hq hop hr hx
    exact hframe
  · obtain ⟨-, -, -, -, hframe⟩ := State.headStep_start_spec hm hb hn hq hop hr hx
    exact hframe

end

end Sys2Proof.Machine
end

section
/-! PROOFS. The statement of 09_tiers_and_movers.md on mover instructions (R214, R216, R219, R221, Tables 09-4 to 09-6). -/
namespace Sys2Proof.Machine

/-! ## What the fetch leaves (R87) -/

section
variable (s : State) (t : Nat) (fetch : Ecc)

theorem State.cmdOf_fetched (w : Nat) : (s.fetched t fetch).cmdOf t w = s.cmdOf t w := by
  simp only [State.cmdOf, s.operand_fetched t fetch]

theorem State.cmdCheck_fetched {c : Cmd} (hq : c.nq < 32) : (s.fetched t fetch).cmdCheck t c = s.cmdCheck t c := by
  have hlt (n : Nat) : n % 32 < 32 := Nat.mod_lt n (by decide)
  have hvalid : (s.fetched t fetch).flag (Reg.MOV_STR_A_CFG.VALID t (c.src % 16)) = s.flag (Reg.MOV_STR_A_CFG.VALID t (c.src % 16)) :=
    State.flag_of_fld (s.fld_fetched t fetch (by simp only [Reg.MOV_STR_A_CFG, Reg.SEQ_IMEM]; omega))
  unfold State.cmdCheck State.recvQueueOk State.sendQueueOk
  dsimp only
  rw [s.localOut_fetched t fetch (hlt c.src), s.localIn_fetched t fetch (hlt c.dst), s.localIn_fetched t fetch hq, hvalid]

theorem State.strEntries_fetched (b n : Nat) (hb : 20 * b = t) : (s.fetched t fetch).strEntries b n = s.strEntries b n :=
  s.fld_fetched t fetch (by rw [hb]; simp only [Reg.MOV_STR_A_LIST_HI, Reg.SEQ_IMEM]; omega)

theorem State.fcycles_fetched : (s.fetched t fetch).fcycles = s.fcycles := by rw [(s.onlyRegs_fetched t fetch).1]

end

/-! ## Rows (Tables 09-4 and 09-5) -/

/-- Every row runs the body that the mover instructions share. -/
theorem exec_moveForm {f : MoveForm} (hf : f ∈ moveForms) {t : Fin 240} {fetch : Ecc} {s : State} {w : Nat} (hu : fetch ≠ .uncorrectable)
    (hx : s.Executes t w) (ht : tileType t = 3) (hop : wOp w = f.op) (hxfm : ∀ x, f.xfm = some x → wXfm w = x) :
    exec (f.make t fetch) s = .next (cmdBody t w (s.fetched t fetch)) := by
  have hissue (p : Nat → Bool) (hp : p (wXfm w) = true) : s.issue t fetch (isMove t f.op p) (cmdBody t) = cmdBody t w (s.fetched t fetch) :=
    State.issue_executes hx hu (by simp [isMove, isOp, ht, hop, hp]) (cmdBody t)
  have hmove (x : Nat) (h : wXfm w = x) := hissue (fun y => y == x || decide (6 < y)) (by simp [h])
  have hpref (x : Nat) (h : wXfm w = x) := hissue (· == x) (by simp [h])
  have hany := hissue (fun _ => true) rfl
  simp only [moveForms, List.mem_cons, List.not_mem_nil, or_false] at hf
  rcases hf with rfl | rfl | rfl | rfl | rfl | rfl | rfl | rfl | rfl | rfl | rfl | rfl | rfl | rfl | rfl
  · exact congrArg Host.Outcome.next (hmove 0 (hxfm 0 rfl))
  · exact congrArg Host.Outcome.next (hmove 1 (hxfm 1 rfl))
  · exact congrArg Host.Outcome.next (hmove 2 (hxfm 2 rfl))
  · exact congrArg Host.Outcome.next (hmove 3 (hxfm 3 rfl))
  · exact congrArg Host.Outcome.next (hmove 4 (hxfm 4 rfl))
  · exact congrArg Host.Outcome.next (hmove 5 (hxfm 5 rfl))
  · exact congrArg Host.Outcome.next (hmove 6 (hxfm 6 rfl))
  · exact congrArg Host.Outcome.next (hpref 0 (hxfm 0 rfl))
  · exact congrArg Host.Outcome.next (hpref 1 (hxfm 1 rfl))
  · exact congrArg Host.Outcome.next (hpref 2 (hxfm 2 rfl))
  · exact congrArg Host.Outcome.next (hpref 3 (hxfm 3 rfl))
  · exact congrArg Host.Outcome.next hany
  · exact congrArg Host.Outcome.next hany
  · exact congrArg Host.Outcome.next hany
  · exact congrArg Host.Outcome.next hany

/-- The movers of a port tile are those of its bay. -/
theorem wMover_spec {t : Nat} (w : Nat) (ht : t < 240) (hport : tileType t = 3) : wMover t w < 48 ∧ 20 * (wMover t w / 4) = t := by
  have hslot : bits w 50 2 < 4 := bits_lt w 50 2
  have hcol : t % 10 = 0 ∧ t / 10 % 2 = 0 := by
    unfold tileType at hport
    dsimp only at hport
    split at hport
    · next h => exact ⟨h, by by_contra hodd; simp [hodd] at hport⟩
    · split at hport
      · cases hport
      · split at hport
        · cases hport
        · cases hport
  unfold wMover tileBay
  omega

/-- PREF but for WARM is CANCEL, STOP or START. -/
theorem State.cmdOf_pref {s : State} {t w : Nat} (h : ((s.cmdOf t w).op == 0xA2 && (s.cmdOf t w).xfm != 0) = true) :
    (s.cmdOf t w).op = 0xA2 ∧ ((s.cmdOf t w).xfm = 1 ∨ (s.cmdOf t w).xfm = 2 ∨ (s.cmdOf t w).xfm = 3) := by
  rw [Bool.and_eq_true, beq_iff_eq, bne_iff_ne] at h
  obtain ⟨hop, hx⟩ := h
  have hlt : (s.cmdOf t w).xfm < 4 := by
    rw [show (s.cmdOf t w).xfm = bits w 5 2 from if_pos hop]
    exact bits_lt w 5 2
  exact ⟨hop, by omega⟩

/-! ## The body (R214, R221) -/

section
variable {s : State} {t : Nat} {fetch : Ecc} {w : Nat}

theorem cmdBody_fault {k : Nat} (h : s.cmdCheck t (s.cmdOf t w) = some k) : cmdBody t w s = s.issueFault t codeViolation 0x40 k := by
  unfold cmdBody
  dsimp only
  rw [h]

/-- What a command that passes its checks does after the fetch. -/
theorem cmdBody_passes (h : s.cmdCheck t (s.cmdOf t w) = none) :
    cmdBody t w (s.fetched t fetch) = if (s.mover (wMover t w)).queue.length < 8
      then ((s.fetched t fetch).pushCmd (wMover t w) (s.cmdOf t w)).retire t
      else (s.fetched t fetch).startEngine t 2 w [(s.cmdOf t w).src, (s.cmdOf t w).dst, (s.cmdOf t w).cnt, (s.cmdOf t w).aux] := by
  unfold cmdBody
  dsimp only
  rw [s.cmdOf_fetched t fetch, s.cmdCheck_fetched t fetch (bits_lt w 13 5), s.mover_fetched t fetch, h]

/-- A command that finds its queue full waits on E2 with the values of its registers. -/
theorem State.Executes.waits_spec {r : State} (hx : s.Executes t w) (ops : List Nat) (hr : r = (s.fetched t fetch).startEngine t 2 w ops) :
    r.pc t = (s.pc t + 1) % 4096 ∧ r.seqState t = 1 ∧ r.engineBusy t 2 = true ∧ r.heldWord t 2 = w ∧ r.prog t 2 = 0 ∧
      r = { s with regs := r.regs, tiles := (s.setEngine t 2 (s.engineTaking t w ops)).tiles } ∧
      s.keepsRegs r (holdRegs t 2 ++ fetchRegs t fetch) := by
  have hread : (s.fetched t fetch).readRegs t w = s.readRegs t w := State.readRegs_congr hx.decodes fun n _ => s.operand_fetched t fetch n
  have htaking : (s.fetched t fetch).engineTaking t w ops = s.engineTaking t w ops := by
    rw [State.engineTaking, s.pc_fetched, hread, State.engineTaking]
  obtain ⟨hpc, hstate, hbusy, hword, hprog, hall, hkeep⟩ := (s.fetched t fetch).startEngine_taking (e := 2) (by decide) hx.lt hx.decodes ops
  rw [← hr] at hpc hstate hbusy hword hprog hall hkeep
  obtain ⟨hfetch, hkeepf⟩ := s.onlyRegs_fetched t fetch
  refine ⟨by rw [hpc, s.pc_fetched], hstate, (State.engineBusy_of_busy hbusy).1, hword, hprog, ?_,
    hkeepf.trans hkeep (List.subset_append_right _ _) (List.subset_append_left _ _)⟩
  rw [hall, htaking, State.setEngine_tiles_congr (s.tiles_fetched t fetch), hfetch]

end

/-! ## The word retires (R72) -/

section
variable {s v r : State} {t m : Nat} {fetch : Ecc} {l : List Nat}

theorem State.onlyMover.onlyMoving (h : s.onlyMover v m) : s.onlyMoving v m [] := by
  obtain ⟨hv, hothers⟩ := h
  exact ⟨by rw [hv], State.keepsRegs_of_regs (by rw [hv]) _, hothers⟩

/-- A word whose command has been placed retires; the fetch and its place in the queue are all it leaves. -/
theorem State.onlyMoving.retire_fetched (h : (s.fetched t fetch).onlyMoving v m l) (hl : Reg.SEQ_STATUS t ∉ l) (hr : r = v.retire t) :
    r.pc t = (s.pc t + 1) % 4096 ∧ r.seqState t = 1 ∧ v.onlyRegs r [Reg.SEQ_STATUS t] ∧
      s.onlyMoving r m (Reg.SEQ_STATUS t :: l ++ fetchRegs t fetch) := by
  obtain ⟨hpc, hstate, -, honly⟩ := v.retire_spec t
  have hpcv : v.pc t = s.pc t := (h.2.1.fld hl).trans (s.pc_fetched t fetch)
  rw [← hr] at hpc hstate honly
  refine ⟨by rw [hpc, hpcv], hstate, honly, ?_⟩
  exact (((s.onlyRegs_fetched t fetch).onlyMoving m).mono (List.subset_append_right _ _)).trans
    ((h.mono fun o ho => by simp [ho]).trans ((honly.onlyMoving m).mono (by simp)))

/-- A word whose command waits in its queue without an effect. -/
theorem State.onlyMover.retire_fetched (h : (s.fetched t fetch).onlyMover v m) (hr : r = v.retire t) :
    r.pc t = (s.pc t + 1) % 4096 ∧ r.seqState t = 1 ∧ r.mover m = v.mover m ∧ (∀ j, j ≠ m → r.mover j = s.mover j) ∧
      r = { s with regs := r.regs, movers := r.movers } ∧ s.keepsRegs r ([Reg.SEQ_STATUS t] ++ fetchRegs t fetch) := by
  obtain ⟨hpc, hstate, honly, hall, hkeep, hothers⟩ := h.onlyMoving.retire_fetched List.not_mem_nil hr
  have hstreams : r.streams = s.streams := by rw [honly.1, h.1, (s.onlyRegs_fetched t fetch).1]
  exact ⟨hpc, hstate, State.mover_congr (by rw [honly.1]) m, hothers, by rw [hall, hstreams], hkeep⟩

end

/-! ## Places in a queue (R214) -/

/-- A command stands at the end of a queue. -/
def State.appended (s : State) (m : Nat) (c : Cmd) : State := s.modMover m (fun x => { x with queue := x.queue ++ [c] })

section
variable {s r : State} {t m : Nat} {fetch : Ecc} {c : Cmd}

theorem State.mover_appended (s : State) (m : Nat) (c : Cmd) :
    (s.appended m c).mover m = { s.mover m with queue := (s.mover m).queue ++ [c] } := s.mover_modMover_same m _

theorem State.pushCmd_behind (h : 0 < (s.mover m).queue.length) : s.pushCmd m c = s.appended m c :=
  if_neg (by simpa using List.length_pos_iff.1 h)

theorem State.pushCmd_first (h : (s.mover m).queue = []) : s.pushCmd m c = (s.appended m c).headStep m 8 := if_pos (by simp [h])

/-- A command that stands behind others changes its queue alone. -/
theorem State.behind_retires (h : 0 < (s.mover m).queue.length) (hr : r = ((s.fetched t fetch).pushCmd m c).retire t) :
    r.pc t = (s.pc t + 1) % 4096 ∧ r.seqState t = 1 ∧ r.mover m = { s.mover m with queue := (s.mover m).queue ++ [c] } ∧
      (∀ j, j ≠ m → r.mover j = s.mover j) ∧ r = { s with regs := r.regs, movers := r.movers } ∧
      s.keepsRegs r ([Reg.SEQ_STATUS t] ++ fetchRegs t fetch) := by
  rw [State.pushCmd_behind (by rwa [s.mover_fetched])] at hr
  have happend : (s.fetched t fetch).onlyMover ((s.fetched t fetch).appended m c) m := State.onlyMover_modMover _ m _
  rw [← s.mover_fetched t fetch m, ← State.mover_appended]
  exact happend.retire_fetched hr

/-- A command that finds its queue empty, and has no effect there, is its head. -/
theorem State.first_retires (h : (s.mover m).queue = []) (hc : ¬ (c.op = 0xA2 ∧ (c.xfm = 1 ∨ c.xfm = 2 ∨ c.xfm = 3)))
    (hr : r = ((s.fetched t fetch).pushCmd m c).retire t) :
    r.pc t = (s.pc t + 1) % 4096 ∧ r.seqState t = 1 ∧ r.mover m = { s.mover m with queue := [{ c with headAt := s.fcycles }] } ∧
      (∀ j, j ≠ m → r.mover j = s.mover j) ∧ r = { s with regs := r.regs, movers := r.movers } ∧
      s.keepsRegs r ([Reg.SEQ_STATUS t] ++ fetchRegs t fetch) := by
  have hempty : ((s.fetched t fetch).mover m).queue = [] := by rw [s.mover_fetched, h]
  have hmover := (s.fetched t fetch).mover_appended m c
  have happend : (s.fetched t fetch).onlyMover ((s.fetched t fetch).appended m c) m := State.onlyMover_modMover _ m _
  have hcycles : ((s.fetched t fetch).appended m c).fcycles = s.fcycles := s.fcycles_fetched t fetch
  rw [State.pushCmd_first hempty] at hr
  rw [s.mover_fetched, h] at hmover
  generalize State.appended _ m c = u at *
  obtain ⟨hhead, hstays⟩ := State.headStep_other (by rw [hmover]; rfl) hc
  obtain ⟨hpc, hstate, hmine, hframe⟩ := (happend.trans hstays).retire_fetched hr
  exact ⟨hpc, hstate, by rw [hmine, hhead, hmover, hcycles], hframe⟩

/-- The only command of its queue, before its head has an effect: the streams are as they were. -/
theorem State.appended_spec (s : State) {t m : Nat} (fetch : Ecc) (c : Cmd) (n : Nat) (hb : 20 * (m / 4) = t) (h : (s.mover m).queue = []) :
    let u := (s.fetched t fetch).appended m c
    (u.mover m).queue = [c] ∧ u.fcycles = s.fcycles ∧ u.stream (m / 4) n = s.stream (m / 4) n ∧
      u.strEntries (m / 4) n = s.strEntries (m / 4) n ∧ (s.fetched t fetch).onlyMoving u m (prefRegs m n) := by
  refine ⟨?_, s.fcycles_fetched t fetch, s.stream_fetched t fetch _ _, s.strEntries_fetched t fetch _ _ hb, State.onlyMoving_modMover _ m _ _⟩
  rw [State.mover_appended, s.mover_fetched t fetch, h]
  rfl

/-- A PREF that finds its queue empty has its effect at once, and its word retires. -/
theorem State.pref_retires (hm : m < 48) (hb : 20 * (m / 4) = t) (hop : c.op = 0xA2) (hx : c.xfm = 1 ∨ c.xfm = 2 ∨ c.xfm = 3)
    (h : (s.mover m).queue = []) (hr : r = ((s.fetched t fetch).pushCmd m c).retire t) :
    let v := ((s.fetched t fetch).appended m c).headStep m 8
    r.pc t = (s.pc t + 1) % 4096 ∧ r.seqState t = 1 ∧ r.mover m = v.mover m ∧
      r.stream (m / 4) (c.src % 16) = v.stream (m / 4) (c.src % 16) ∧
      (∀ f : Field, f.off = Reg.MOV_STR_STAT (20 * (m / 4)) (c.src % 16) → r.fld f = v.fld f) ∧
      s.onlyMoving r m (Reg.SEQ_STATUS t :: prefRegs m (c.src % 16) ++ fetchRegs t fetch) := by
  have hstatus : Reg.SEQ_STATUS t ∉ prefRegs m (c.src % 16) := by
    simp only [prefRegs, streamRegs, hb, Reg.SEQ_STATUS, Reg.MOV_M_PROG, Reg.MOV_STR_STAT, Reg.MOV_STR_POS, List.mem_cons, List.not_mem_nil,
      or_false]
    omega
  obtain ⟨hq, -, -, -, happend⟩ := s.appended_spec fetch c (c.src % 16) hb h
  rw [State.pushCmd_first (by rw [s.mover_fetched, h])] at hr
  obtain ⟨hpc, hstate, honly, hframe⟩ := (happend.trans (State.headStep_pref_frame hm rfl rfl hq hop rfl hx)).retire_fetched hstatus hr
  refine ⟨hpc, hstate, State.mover_congr (by rw [honly.1]) m, State.stream_congr (by rw [honly.1]) _ _, fun f hf => honly.2.fld ?_, hframe⟩
  simp only [hf, hb, List.mem_singleton, Reg.MOV_STR_STAT, Reg.SEQ_STATUS]
  omega

end

/-! ## The statement -/

/-- Settles O44: each row runs the body, which is the fault of its check, its wait on E2, or its place in the queue and what the head of
an empty one takes effect with. -/
theorem moverInstructionsQueueTheirCommand : Obligations.MoverInstructionsQueueTheirCommand := by
  intro f hf t fetch s w hu hx hport hop hxfm c m b n isPref
  have hexec := exec_moveForm hf hu hx hport hop hxfm
  obtain ⟨hm, hb⟩ := wMover_spec w t.isLt hport
  refine ⟨fun k hk hclean => ?_, fun hnone => ⟨_, hexec, ?_⟩⟩
  · subst hclean
    exact hexec.trans (congrArg Host.Outcome.next (cmdBody_fault hk))
  have hbody := cmdBody_passes (fetch := fetch) hnone
  generalize cmdBody t w (s.fetched t fetch) = r at hbody ⊢
  obtain hfull | hroom := Nat.lt_or_ge 7 (s.mover m).queue.length
  · rw [if_neg (Nat.not_lt.2 hfull)] at hbody
    obtain ⟨hpc, hstate, hbusy, hword, hprog, hall, hkeep⟩ := hx.waits_spec _ hbody
    have hne : (s.mover m).queue ≠ [] := List.length_pos_iff.1 (by omega)
    exact ⟨hpc, hstate, by rw [hall], fun _ => ⟨hbusy, hword, hprog, hall, hkeep⟩, fun _ h => absurd h (by omega),
      fun h => absurd h hne, fun h => absurd h hne⟩
  rw [if_pos (Nat.lt_succ_of_le hroom)] at hbody
  have hnfull : ¬ 8 ≤ (s.mover m).queue.length := by omega
  obtain hlen | hlen := Nat.eq_zero_or_pos (s.mover m).queue.length
  · have hq := List.length_eq_zero_iff.1 hlen
    have hnpos : ¬ 0 < (s.mover m).queue.length := by omega
    by_cases hp : isPref = true
    · obtain ⟨hop', hpref⟩ := State.cmdOf_pref hp
      obtain ⟨hpc, hstate, hmine, hstream, hstat, hall, hkeep, hothers⟩ := State.pref_retires hm hb hop' hpref hq hbody
      obtain ⟨hq1, hcycles, hstr, hentries, -⟩ := s.appended_spec fetch c n hb hq
      generalize hv : State.headStep _ m 8 = v at hmine hstream hstat
      refine ⟨hpc, hstate, by rw [hall], fun h => absurd h hnfull, fun h => absurd h hnpos, fun _ h => absurd hp (by simp [h]),
        fun _ _ => ⟨hothers, hall, hkeep, fun hcancel => ?_, fun hstart => ?_, fun hstop => ?_⟩⟩
      · obtain ⟨hleft, hnew, -⟩ := State.headStep_cancel_spec hm rfl rfl hq1 hop' hv.symm hcancel
        exact ⟨by rw [hmine, hleft], by rw [hstream, hnew, hstr]⟩
      · obtain ⟨hleft, hnew, hcount, hstate', -⟩ := State.headStep_start_spec hm rfl rfl hq1 hop' hv.symm hstart
        rw [hstr, hcycles] at hnew
        rw [hentries, hstr] at hstate'
        exact ⟨by rw [hmine, hleft], hstream.trans hnew, (hstat _ rfl).trans hcount, (hstat _ rfl).trans hstate'⟩
      · obtain ⟨hleft, hnew, -⟩ := State.headStep_stop_spec hm rfl rfl hq1 hop' hv.symm hstop
        rw [hstr] at hnew
        rw [← hmine, hentries, hstr] at hleft
        exact ⟨hstream.trans hnew, hleft⟩
    · have hother : ¬ (c.op = 0xA2 ∧ (c.xfm = 1 ∨ c.xfm = 2 ∨ c.xfm = 3)) := fun ⟨hop', hpref⟩ =>
        hp (by simp only [isPref, hop', Bool.and_eq_true, bne_iff_ne]; exact ⟨rfl, by omega⟩)
      obtain ⟨hpc, hstate, hmine, hothers, hall, hkeep⟩ := State.first_retires hq hother hbody
      exact ⟨hpc, hstate, by rw [hall], fun h => absurd h hnfull, fun h => absurd h hnpos, fun _ _ => ⟨hmine, hothers, hall, hkeep⟩,
        fun _ h => absurd h hp⟩
  · have hne : (s.mover m).queue ≠ [] := List.length_pos_iff.1 hlen
    obtain ⟨hpc, hstate, hmine, hothers, hall, hkeep⟩ := State.behind_retires hlen hbody
    exact ⟨hpc, hstate, by rw [hall], fun h => absurd h hnfull, fun _ _ => ⟨hmine, hothers, hall, hkeep⟩, fun h => absurd h hne,
      fun h => absurd h hne⟩

end Sys2Proof.Machine
end
